-- ==== Sys2Proof/Word.lean ====
section
/-!
DEFINITION. The word types of the device: registers are 32 bits wide (spec/00_scope.md, "Registers and access codes"),
memory is made of bytes, the accumulator of a Rospel thread has 40 bits, and a program word has 14 bits.
-/

namespace Sys2Proof

/-- A software-visible register, a general register or a 32-bit memory word. -/
abbrev Word := BitVec 32

/-- One byte of a memory, a frame, an image or a management payload. -/
abbrev Byte := BitVec 8

/-- The accumulator of a thread: 32 bits and 8 guard bits (00_scope.md, after R10). -/
abbrev Acc := BitVec 40

/-- One word of program memory (R221). -/
abbrev PWord := BitVec 14

end Sys2Proof
end

