-- ==== Sys2Proof/Syntax.lean ====
section
/-!
DEFINITION. The commands of the block: one constructor for each row of spec/opcode_table.json, with the operands the row's rule
gives it. What an operand stands for is said by the meaning of the command (Machine/*.lean) and by the type of the operand.
-/

namespace Sys2Proof

/-- One hardware thread context: cluster, core and thread (R2: 6 clusters, 16 cores a cluster, 8 threads a core). -/
structure ThreadId where
  cl : Fin 6
  core : Fin 16
  thr : Fin 8
  deriving DecidableEq, Repr

/-- Who makes a register access (R408, R409): PF0 of a link, the session of a management port, a thread through the register
window (R227), or DBGACC of JTAG (R464). -/
inductive Accessor where
  | bar0 (link : Fin 2)
  | session (port : Fin 6)
  | thread (t : ThreadId)
  | jtag
  deriving DecidableEq, Repr

/-- The data of a received PTP Announce message (R34): the fields the BMCA compares, in its order, and the UTC fields. -/
structure AnnounceData where
  priority1 : BitVec 8
  clockClass : BitVec 8
  accuracy : BitVec 8
  variance : BitVec 16
  priority2 : BitVec 8
  gmId : BitVec 64
  stepsRemoved : BitVec 16
  sender : BitVec 80
  utcOffset : BitVec 16
  utcValid : Bool
  leap59 : Bool
  leap61 : Bool
  deriving DecidableEq, Repr

/-- A decoded IRIG-B frame (R36): whether it is valid, its time of year, the two-digit year where the variant carries one, and the
local offset in minutes of the control-function extension. -/
structure IrigFrame where
  valid : Bool
  sec : Fin 60
  min : Fin 60
  hour : Fin 24
  day : BitVec 9
  year : BitVec 7
  localOff : Int
  deriving DecidableEq, Repr

/-- What the tracker of an angle clock measured over the cycle of one reference that has just ended (R41, R43): its frequency
in units of 2^-24 Hz and its fundamental in units of 2^8 LSB. The estimator itself is not described, so its figures come with the command; the
phase error is the clock's own fraction at the crossing. -/
structure RefEstimate where
  freq : BitVec 32
  amp : BitVec 16
  deriving DecidableEq, Repr

/-- The IEC 62351-6 extension of a frame, or the security fields of its 90-5 session header (R91): algorithm identifier, key
identifier, GMAC initialisation vector and tag. The standard, not this spec, says where they lie; they come with the tail. -/
structure SecExt where
  alg : BitVec 3
  keyId : Word
  iv : List Byte
  tag : List Byte
  deriving DecidableEq, Repr

/-- What takes a link down (R56): loss of lock, hi_ber, or an auto-negotiation restart by the partner. -/
inductive LinkLoss where
  | lock | highBer | restart
  deriving DecidableEq, Repr

/-- What the verify procedure of a port meets (R60): the time of an attempt, a verify packet of the partner, or the partner's response. -/
inductive VerifyEvent where
  | attempt | partner | response
  deriving DecidableEq, Repr

/-- What a scrub found in the word it read (R139, R282, R445). -/
inductive ScrubError where
  | clean | single | uncorrectable
  deriving DecidableEq, Repr

/-- A domain of the configuration scrubber (R352): a block's image-set registers, an object class, the classifier tables, the
static entries of the MAC table, or the code regions of a tile. -/
inductive ScrubDomain where
  | blockRegs (b : Fin 32)
  | objects (cls : Fin 9)
  | classifier
  | macStatic
  | tileCode (j : Fin 24)
  deriving DecidableEq, Repr

/-- The fields of a DMA descriptor that the host writes (R405). -/
structure DmaDesc where
  addr : BitVec 64
  len : BitVec 16
  deriving DecidableEq, Repr

/-- The angle value of one clock of the partner (R429): clock, value in units of 2^-32 cycle, tracked frequency in 2^-24 Hz. -/
structure PeerClock where
  clk : Fin 16
  val : Nat
  freq : Nat
  deriving DecidableEq, Repr

/-- A heartbeat (R429): sequence number, transmit time, the last heartbeat it received (transmit and receipt time), the partner's
state, device measurement, key epoch, partition measurements (PL 2) and angle values. Times are device times, 2^-16 ns. -/
structure Heartbeat where
  seq : BitVec 16
  txTime : Nat
  echoTx : Nat
  echoRx : Nat
  state : BitVec 3
  meas : BitVec 256
  epoch : Word
  parts : List (BitVec 256)
  clocks : List PeerClock
  deriving DecidableEq, Repr

/-- Something that comes at an edge which is stamped at 1 ns (R17): `sub` is how many ns after the last tick of the time base it came. -/
structure Edge (α : Type) where
  what : α
  sub : Fin 4
  deriving DecidableEq, Repr

/-- Where a PTP message came in, and the domainNumber of its header (R34). -/
structure PtpIn where
  port : Fin 16
  dom : BitVec 8
  deriving DecidableEq, Repr

/-- An Announce message: its sequence number and its data (R34). -/
structure PtpAnnounce where
  seq : BitVec 16
  data : AnnounceData
  deriving DecidableEq, Repr

/-- What the checks of a port say at the tail of a frame: its FCS, and the FEC codewords corrected and not correctable since the tail before it
(R56, R57). -/
structure TailCheck where
  fcsGood : Bool
  fecCorr : BitVec 16
  fecUncorr : BitVec 16
  deriving DecidableEq, Repr

/-- What a cell of the pair link brings, and whether its CRC-32C is good (R428). -/
structure PairCell (α : Type) where
  crcGood : Bool
  what : α
  deriving DecidableEq, Repr

/-- The versions that a HELLO cell offers (R426). -/
structure HelloVersions where
  pl1 : Bool
  pl2 : Bool
  deriving DecidableEq, Repr

/-- The sequence number of a VOTE cell and the channel it votes in (R302, R428). -/
structure VoteName where
  seq : BitVec 16
  chan : BitVec 8
  deriving DecidableEq, Repr

/-- The commands (spec/opcode_table.json). A register command carries the accessor and the value written; a Rospel instruction
carries the thread that issues it and its encoded fields (R230); an event carries what the rule that names it observes. -/
inductive Instr where
  -- Registers at large (R7, R8)
  | registerWrite (who : Accessor) (off : BitVec 21) (val : Word)
  | wideRegisterLowRead (who : Accessor) (off : BitVec 21)
  -- Device time (R27-R38)
  | servoUpdate
  | timeSetStepRequest (who : Accessor) (val : Word)
  | timeRestart (who : Accessor)
  | ptpSyncRx (p : Edge PtpIn) (twoStep : Bool) (seq : BitVec 16) (origin : Nat) (corr : Int) (residence : Nat)
  | ptpFollowUpRx (p : PtpIn) (seq : BitVec 16) (origin : Nat) (corr : Int) (residence : Nat)
  | ptpAnnounceRx (p : PtpIn) (a : PtpAnnounce)
  | ptpPdelayReqRx (p : Edge PtpIn) (seq : BitVec 16)
  | ptpPdelayRespRx (p : Edge PtpIn) (seq : BitVec 16) (turnaround : Nat)
  | ptpManagementRx (p : Fin 16)
  | ptpSyncTx (p : Fin 16)
  | ptpAnnounceTx (p : Fin 16)
  | ptpPdelayReqTx (p : Fin 16)
  | ptpSyncTimeout
  | ptpAnnounceTimeout
  | tinEdgeCapture (n : Edge (Fin 2)) (cycles : Nat)
  | ppsInputTimeout (n : Fin 2)
  | irigFrameRx (n : Edge (Fin 2)) (f : IrigFrame)
  | holdoverExpire
  | holdoverCounterCopy
  | ppsOutPulse (n : Fin 2)
  -- Angle clocks and instants (R39-R50, R504)
  | aclkZeroCrossing (n : Fin 16) (pri sec : RefEstimate)
  | aclkSampleLoss (n : Fin 16)
  | aclkFixedStart (n : Fin 16)
  | aclkHoldExpire (n : Fin 16)
  | evalStrobe (n : Fin 16)
  | generalInstantFire (u : Fin 32)
  | commitStrobe
  -- Ports, field segments, redundancy (R55-R69)
  | portLinkUp (p : Fin 16)
  | portLinkDown (p : Fin 16) (why : LinkLoss)
  | frameHeadRx (port : Edge (BitVec 5)) (preemptable : Bool)
  | parseWalk (f : Nat) (bytes : List Byte)
  | classify (f : Nat)
  | frameOversizeCut (f : Nat)
  | frameTailRx (f : Nat) (rest : List Byte) (check : TailCheck) (reasmError : Bool) (ext : Option SecExt)
  | dupEntryExpire (r : Fin 8) (src : BitVec 48) (seq : BitVec 16)
  | supervisionFrameRx (r : Fin 8) (src : BitVec 48)
  | supervisionFrameTx (r : Fin 8)
  | nodeForget (r : Fin 8) (src : BitVec 48)
  | hsrPassThrough (f : Nat)
  | preemptVerify (p : Fin 16) (what : VerifyEvent)
  | plcaBeacon (s : Fin 4)
  | t1sPlcaFail (s : Fin 4)
  | t1sPlcaRecover (s : Fin 4)
  | t1sCollision (s : Fin 4)
  | t1sJabberCutoff (s : Fin 4) (f : Nat)
  -- Classifier and stranger log (R80-R84)
  | clsLookup (who : Accessor) (i : Fin 2) (val : Word)
  | clsInsert (who : Accessor) (i : Fin 2) (val : Word)
  | clsUpdate (who : Accessor) (i : Fin 2) (val : Word)
  | clsDelete (who : Accessor) (i : Fin 2) (val : Word)
  | clsRead (who : Accessor) (i : Fin 2) (val : Word)
  | strangerSelect (who : Accessor) (val : Word)
  | strangerClear (who : Accessor) (val : Word)
  -- Frame authentication (R96-R113)
  | verdict (f : Nat)
  | prevHoldExpire
  | resetWindow (who : Accessor) (val : Word)
  | autCtxSelect (who : Accessor) (val : Word)
  -- Sample planes (R127, R140)
  | cellDue (s : BitVec 10)
  | streamSelect (who : Accessor) (val : Word)
  -- Lanes and switch core (R145-R169)
  | laneEntry (f : Nat)
  | stageDispatch (l : Fin 4) (st : Fin 8)
  | relNext (t : ThreadId) (gs : Fin 8)
  | relExit (t : ThreadId) (gs : Fin 8)
  | relDrop (t : ThreadId) (gs : Fin 8)
  | relRecirc (t : ThreadId) (gs : Fin 8)
  | stageExit (l : Fin 4) (st : Fin 8)
  | stageOverrun (t : ThreadId)
  | laneExit (f : Nat)
  | egressStart (e : Fin 22) (tc : Fin 8)
  | egressEnd (e : Fin 22) (descBad dataBad : Bool)
  | pauseRx (p : Fin 16) (quanta : BitVec 16)
  | pauseQuantaExpire (p : Fin 16)
  | pauseFlush (p : Fin 16)
  | qhwmReset (who : Accessor) (l : Fin 4) (st : Fin 8)
  -- Ochre and the MAC table (R182-R192)
  | ochQuery (who : Accessor) (val : Word)
  | ochCmdFree (who : Accessor) (val : Word)
  | ochReclaim (who : Accessor) (val : Word)
  | poolLowReset (who : Accessor) (p : Fin 4)
  | fwdLqPop (who : Accessor)
  | fwdLookup (who : Accessor) (i : Fin 2) (val : Word)
  | fwdInsert (who : Accessor) (i : Fin 2) (val : Word)
  | fwdUpdate (who : Accessor) (i : Fin 2) (val : Word)
  | fwdDelete (who : Accessor) (i : Fin 2) (val : Word)
  | fwdRead (who : Accessor) (i : Fin 2) (val : Word)
  | fwdFlush (who : Accessor) (i : Fin 2) (val : Word)
  | fwdClear (who : Accessor) (i : Fin 2) (val : Word)
  | agingSweepVisit
  -- Faults, control, deadlock, channels (R203-R215)
  | faultTimeoutKill (t : ThreadId)
  | ctlResume (who : Accessor) (c : Fin 6) (val : Word)
  | ctlKill (who : Accessor) (c : Fin 6) (val : Word)
  | ctlAbortWait (who : Accessor) (c : Fin 6) (val : Word)
  | supervisorInterrupt (c : Fin 6)
  | maskMaxExceeded (c : Fin 6)
  | deadlockDetect (c : Fin 6) (g : Fin 16)
  | deadlockEscalate (c : Fin 6) (g : Fin 16)
  | fltPop (who : Accessor) (c : Fin 6)
  | dlPop (who : Accessor) (c : Fin 6)
  | chnAbort (who : Accessor) (c : Fin 6) (val : Word)
  | resultWriteback (t : ThreadId) (i : Nat)
  | storeVisible (t : ThreadId)
  -- Rospel instructions, D format (R223, R239)
  | ld (t : ThreadId) (da : BitVec 9)
  | ldu (t : ThreadId) (da : BitVec 9)
  | st (t : ThreadId) (da : BitVec 9)
  | sts (t : ThreadId) (da : BitVec 9)
  | add (t : ThreadId) (da : BitVec 9)
  | addu (t : ThreadId) (da : BitVec 9)
  | sub (t : ThreadId) (da : BitVec 9)
  | andDp (t : ThreadId) (da : BitVec 9)
  | orDp (t : ThreadId) (da : BitVec 9)
  | xorDp (t : ThreadId) (da : BitVec 9)
  | mul (t : ThreadId) (da : BitVec 9)
  | mulh (t : ThreadId) (da : BitVec 9)
  -- X format (R233)
  | ldw (t : ThreadId) (x : Fin 2) (p : Bool) (d6 : BitVec 6)
  | ldh (t : ThreadId) (x : Fin 2) (p : Bool) (d6 : BitVec 6)
  | ldhu (t : ThreadId) (x : Fin 2) (p : Bool) (d6 : BitVec 6)
  | ldb (t : ThreadId) (x : Fin 2) (p : Bool) (d6 : BitVec 6)
  | ldbu (t : ThreadId) (x : Fin 2) (p : Bool) (d6 : BitVec 6)
  | stw (t : ThreadId) (x : Fin 2) (p : Bool) (d6 : BitVec 6)
  | sth (t : ThreadId) (x : Fin 2) (p : Bool) (d6 : BitVec 6)
  | stb (t : ThreadId) (x : Fin 2) (p : Bool) (d6 : BitVec 6)
  -- R format (R239)
  | movg (t : ThreadId) (ga gb : Fin 8)
  | mva (t : ThreadId) (ga : Fin 8)
  | mvau (t : ThreadId) (ga : Fin 8)
  | mvg (t : ThreadId) (ga : Fin 8)
  | addg (t : ThreadId) (ga gb : Fin 8)
  | subg (t : ThreadId) (ga gb : Fin 8)
  | andg (t : ThreadId) (ga gb : Fin 8)
  | org (t : ThreadId) (ga gb : Fin 8)
  | xorg (t : ThreadId) (ga gb : Fin 8)
  | ceq (t : ThreadId) (ga gb : Fin 8)
  | cne (t : ThreadId) (ga gb : Fin 8)
  | clt (t : ThreadId) (ga gb : Fin 8)
  | cge (t : ThreadId) (ga gb : Fin 8)
  | cltu (t : ThreadId) (ga gb : Fin 8)
  | cgeu (t : ThreadId) (ga gb : Fin 8)
  | par (t : ThreadId) (ga gb : Fin 8)
  | brev (t : ThreadId) (ga gb : Fin 8)
  | bswp (t : ThreadId) (ga gb : Fin 8)
  | crcb (t : ThreadId) (p : Fin 4) (gb : Fin 8)
  | crcw (t : ThreadId) (p : Fin 4) (gb : Fin 8)
  | crcm (t : ThreadId) (p : Fin 4) (x : Fin 2) (n1 : Fin 8)
  | chanOpen (t : ThreadId) (ga gb : Fin 8)
  | chanOpenw (t : ThreadId) (ga gb : Fin 8)
  | recv (t : ThreadId) (ga gb : Fin 8)
  | recvw (t : ThreadId) (ga gb : Fin 8)
  | chw (t : ThreadId) (w : Fin 4) (ga gb : Fin 8)
  | send (t : ThreadId) (ga : Fin 8) (n1 : Fin 4)
  | lock (t : ThreadId) (ga gb : Fin 8)
  | unlock (t : ThreadId) (ga gb : Fin 8)
  -- I, L, BC, BR, W and S formats (R234, R235, R239)
  | ldi (t : ThreadId) (imm : BitVec 8)
  | addi (t : ThreadId) (imm : BitVec 8)
  | andi (t : ThreadId) (imm : BitVec 8)
  | shf (t : ThreadId) (ty : Fin 4) (s : BitVec 6)
  | loop (t : ThreadId) (gs : Fin 8) (b1 : Fin 64)
  | loopi (t : ThreadId) (n1 : Fin 32) (b1 : Fin 16)
  | bz (t : ThreadId) (gs : Fin 8) (rel : BitVec 6)
  | bnz (t : ThreadId) (gs : Fin 8) (rel : BitVec 6)
  | bra (t : ThreadId) (rel : BitVec 9)
  | ldl (t : ThreadId) (imm : BitVec 20)
  | ldlh (t : ThreadId) (imm : BitVec 20)
  | jmpf (t : ThreadId) (addr : BitVec 16)
  | callf (t : ThreadId) (addr : BitVec 16)
  | nop (t : ThreadId)
  | synci (t : ThreadId)
  | ret (t : ThreadId)
  | reti (t : ThreadId)
  | ei (t : ThreadId)
  | di (t : ThreadId)
  | tend (t : ThreadId)
  | yield (t : ThreadId)
  | mtx (t : ThreadId) (x : Fin 2) (gs : Fin 8)
  | mfx (t : ThreadId) (x : Fin 2) (gs : Fin 8)
  | adx (t : ThreadId) (x : Fin 2) (gs : Fin 8)
  | vwait (t : ThreadId) (gs : Fin 8)
  | vpost (t : ThreadId) (gs : Fin 8)
  | pmw (t : ThreadId) (gs : Fin 8)
  | pmr (t : ThreadId) (gs : Fin 8)
  | mfs (t : ThreadId) (gs : Fin 8)
  | div (t : ThreadId) (gs : Fin 8)
  | sqrt (t : ThreadId)
  | undefinedEncoding (t : ThreadId)
  | packetByteArrival (f : Nat) (bytes : List Byte)
  -- The phasor coprocessor (R249-R254)
  | cpxCommandStart (core : Fin 96) (tag : Fin 16) (waited : Nat)
  | cpxResultWrite (core : Fin 96) (tag : Fin 16)
  | cmtr (t : ThreadId) (cd gs : Fin 8)
  | cmti (t : ThreadId) (cd gs : Fin 8)
  | cmfr (t : ThreadId) (gs ca : Fin 8)
  | cmfi (t : ThreadId) (gs ca : Fin 8)
  | cmov (t : ThreadId) (cd ca : Fin 8)
  | ccvt (t : ThreadId) (cd gs : Fin 8) (m : BitVec 5)
  | ccvtc (t : ThreadId) (cd gs : Fin 8) (m : BitVec 5)
  | cfix (t : ThreadId) (gs ca : Fin 8) (m : BitVec 5)
  | cadd (t : ThreadId) (cd ca cb : Fin 8)
  | csub (t : ThreadId) (cd ca cb : Fin 8)
  | cmul (t : ThreadId) (cd ca cb : Fin 8)
  | cmac (t : ThreadId) (cd ca cb : Fin 8)
  | cmsc (t : ThreadId) (cd ca cb : Fin 8)
  | ccmul (t : ThreadId) (cd ca cb : Fin 8)
  | ccmac (t : ThreadId) (cd ca cb : Fin 8)
  | crmul (t : ThreadId) (cd ca gs : Fin 8)
  | cscl (t : ThreadId) (cd ca : Fin 8) (m : BitVec 5)
  | cconj (t : ThreadId) (cd ca : Fin 8)
  | cdft (t : ThreadId) (cd ca cb gs : Fin 8) (h : BitVec 5)
  | crot (t : ThreadId) (cd ca gs : Fin 8)
  | cmag (t : ThreadId) (cd ca : Fin 8)
  | carg (t : ThreadId) (gs ca : Fin 8)
  | cfsq (t : ThreadId) (cd ca : Fin 8)
  | cdiv (t : ThreadId) (cd ca cb : Fin 8)
  | ccmpr (t : ThreadId) (gs ca cb : Fin 8) (m : BitVec 5)
  | ccmpi (t : ThreadId) (gs ca cb : Fin 8) (m : BitVec 5)
  | ccmpm (t : ThreadId) (gs ca cb : Fin 8) (m : BitVec 5)
  | cmin (t : ThreadId) (cd ca cb : Fin 8)
  | cmax (t : ThreadId) (cd ca cb : Fin 8)
  -- The task dispatcher (R264-R280)
  | taskAssign (c : Fin 6)
  | taskPreempt (t : ThreadId)
  | taskSwitch (t : ThreadId)
  | stagingLoad (t : ThreadId) (task : Fin 1024)
  | dispatcherTimerFire (c : Fin 6) (u : Fin 32)
  | budgetOverrun (t : ThreadId)
  | activate (who : Accessor) (c : Fin 6) (val : Word)
  | cancel (who : Accessor) (c : Fin 6) (val : Word)
  | tcbSelect (who : Accessor) (c : Fin 6) (val : Word)
  -- Locks and mailboxes (R289-R297)
  | lockTryRead (t : ThreadId) (global : Bool) (i : BitVec 8)
  | mbDataWrite (who : Accessor) (c : Fin 6) (m : BitVec 8) (w : Fin 4) (val : Word)
  | mbPost (who : Accessor) (c : Fin 6) (m : BitVec 8) (val : Word)
  | mbTake (who : Accessor) (c : Fin 6) (m : BitVec 8)
  -- Vermilion and field I/O (R301-R319)
  | pairVoteRx (vote : PairCell VoteName) (cl : Fin 6) (task : BitVec 10) (trip prov : Bool)
  | vrmReset (who : Accessor) (val : Word)
  | vrmDisPop (who : Accessor)
  | vrmPcbSelect (who : Accessor) (val : Word)
  | pcbRetransmit (b : BitVec 9)
  | outputRelease (o : Fin 32)
  | armHoldExpire (o : Fin 32)
  | fioArm (who : Accessor) (val : Word)
  | fioFire (who : Accessor) (val : Word)
  | fioRelease (who : Accessor) (val : Word)
  | fioArmExpire (o : Fin 32)
  | inputAccept (i : Fin 32) (level : Bool) (firstAt : Nat)
  | chatterEnd (i : Fin 32) (level : Bool)
  -- Configuration (R331-R359)
  | imgBegin (port : Fin 6)
  | imgData (port : Fin 6)
  | imgEnd (port : Fin 6)
  | imgVerifyDone
  | discard (port : Fin 6) (what : Fin 3)
  | remove (port : Fin 6)
  | check (port : Fin 6)
  | checkDone
  | arm (port : Fin 6)
  | preloadDone
  | disarm (port : Fin 6)
  | request (port : Fin 6) (cls : BitVec 4) (idx : BitVec 13) (req : BitVec 4)
  | retire (port : Fin 6) (tile : Fin 24)
  | tileBist (port : Fin 6) (tile : Fin 24)
  | bistDone (tile : Fin 24) (fail : Bool)
  | spareBistPeriod
  | quarantine (port : Fin 6)
  | clear (port : Fin 6)
  | raiseFloor (port : Fin 6) (kind : Fin 3)
  | drainTimeout (p : Fin 16)
  | drainComplete (p : Fin 16)
  | scrubDomainCheck (d : ScrubDomain) (mismatch retainedBad : Bool)
  | autoCommitArm
  | unitMismatch (cls : Fin 8) (idx : BitVec 13)
  | unitSelect (who : Accessor) (val : Word)
  -- Sable (R372-R396)
  | keyLoad (port : Fin 6)
  | credLoad (port : Fin 6)
  | rootAdd (port : Fin 6)
  | rootRevoke (port : Fin 6)
  | packageCheckDone
  | attest (port : Fin 6) (fuse : List Bool)
  | attestDone
  | zeroise (port : Fin 6)
  | tamperInput (i : Fin 4)
  | monitorTrip (m : Fin 4)
  | debugGrant (port : Fin 6) (p : Fin 16) (control jtag session : Bool) (secs : BitVec 16)
  | debugRevoke (port : Fin 6) (p : Fin 16)
  | debugGrantExpire (p : Fin 16)
  -- PCI Express, DMA and register decode (R399-R409)
  | perstDeassert (link : Fin 2) (bifHigh barCmp : Bool)
  | pcieLinkChange (link : Fin 2) (up : Bool) (rate : Fin 8) (width : Fin 32) (flit : Bool)
  | pcieHotReset (link : Fin 2)
  | flrPf0 (link : Fin 2)
  | flrPf1 (link : Fin 2)
  | d3hotEntry (link pf : Fin 2)
  | dmaDeliver (d : Fin 16) (desc : DmaDesc)
  | dmaInject (d : Fin 16) (desc : DmaDesc) (bytes : List Byte) (ext : Option SecExt)
  | dmaSignal (d : Fin 16)
  | dmaFault (d : Fin 16) (why : Fin 4)
  | dmaStart (who : Accessor) (d : Fin 16)
  | dmaStop (who : Accessor) (d : Fin 16)
  | bar0DecodeMiss (link : Fin 2) (write : Bool) (off : BitVec 21)
  | pciBankWrite (who : Accessor) (link : Fin 2) (val : Word)
  | bar2WriteDenied (link : Fin 2) (off : BitVec 26)
  -- Management sessions (R410-R421)
  | mgtDoorbell (link : Fin 2) (frame : List Byte)
  | mgtUnitRx (port : Fin 6) (src : BitVec 48) (crcGood : Bool) (unit : List Byte)
  | mgtFrameTimeout (port : Fin 6)
  | openReq (port : Fin 6)
  | openProof (port : Fin 6)
  | close (port : Fin 6)
  | ping (port : Fin 6)
  | openingTimeout (port : Fin 6)
  | sessionIdleTimeout (port : Fin 6)
  | lockoutExpire (port : Fin 6)
  | regRead (port : Fin 6)
  | regWrite (port : Fin 6)
  | sqcClear (port : Fin 6)
  | cluEvtTake (who : Accessor) (c : Fin 6)
  | evtAlarmTake (who : Accessor)
  | paiPeerEvtTake (who : Accessor)
  -- The pair link (R424-R437)
  | umberLaneLock (lane : Fin 2)
  | umberLaneDrop (lane : Fin 2)
  | helloTx
  | helloRx (crcGood : Bool) (vers : HelloVersions) (step : BitVec 8) (devId : BitVec 128)
  | heartbeatTx
  | heartbeatRx (hb : PairCell (Edge Heartbeat))
  | heartbeatMiss
  | pairMbxRx (seq : PairCell (BitVec 16)) (m : BitVec 8) (len : Fin 5) (w0 w1 w2 w3 : Word)
  | pairEvtRx (e : PairCell (BitVec 9))
  | pairMgtRx (unit : PairCell (List Byte))
  | pairFrameRx (tc : PairCell (Fin 8)) (code : BitVec 4) (bytes : List Byte) (ext : Option SecExt)
  | creditReturnRx (tc : PairCell (Fin 8)) (n : Nat)
  | creditTimeout (tc : Fin 8)
  -- DRAM and the recorder (R440-R453)
  | ddrRefresh
  | ddrTempRead (hot : Bool)
  | ddrScrubLine (line : Nat) (err : ScrubError)
  | ddrTrainingDone (pass : Bool)
  | histFetchStart (t : ThreadId) (f : Fin 8) (val : Word)
  | histFetchDone (c : Fin 6) (f : Fin 8)
  | recCmdTrigger (who : Accessor) (val : Word)
  | recordComplete (r : Fin 16)
  -- Performance monitoring, debug and JTAG (R456-R470)
  | pmuFreeze (who : Accessor) (val : Word)
  | pmuUnfreeze (who : Accessor) (val : Word)
  | pmuClear (who : Accessor) (val : Word)
  | dbgHalt (who : Accessor) (val : Word)
  | dbgResume (who : Accessor) (val : Word)
  | dbgStep (who : Accessor) (val : Word)
  | dbgWriteCtx (who : Accessor) (val : Word)
  | dbgMemRd (who : Accessor) (val : Word)
  | dbgMemWr (who : Accessor) (val : Word)
  | dbgCtxSelect (who : Accessor) (val : Word)
  | breakpointHit (t : ThreadId)
  | jtagProof (who : Accessor) (val : Word)
  | jtagLockoutExpire
  | jtagIdcode
  | jtagBypass
  | jtagSamplePreload (boundary : Nat)
  | jtagExtest (boundary : Nat)
  | jtagClamp
  | jtagHighz
  | jtagDbgacc (write : Bool) (off : BitVec 21) (val : Word)
  | tapReset
  -- Power, reset, boot and temperature (R472-R494)
  | vauxRise
  | vauxFall
  | mainReset
  | pwrGoodLoss
  | railFault (rail : Fin 8)
  | sysResetDevice (who : Accessor) (val : Word)
  | sysResetCluster (who : Accessor) (val : Word)
  | clusterResetDone (c : Fin 6)
  | resetRelease (bootSrc : BitVec 2) (avsLow vauxHeld : Bool)
  | configEntry (bistFail : BitVec 24)
  | bootEngineRun (bytes : List Byte)
  | bootAbort (who : Accessor) (val : Word)
  | sysStateReq (who : Accessor) (val : Word)
  | avsUpdate (target reported : BitVec 10) (ack : Bool)
  | temperatureSample (t0 t1 t2 t3 t4 t5 t6 t7 : BitVec 16)
  | tempMaxReset (who : Accessor)
  -- Steps that other chapters' rules name beside these
  | irigFrameMissing (n : Fin 2)
  | planeSramScrub (cs : BitVec 13) (i : BitVec 8) (err : ScrubError)
  | clusterSramScrub (c : Fin 6) (unit : BitVec 18) (err : ScrubError)
  | timeBasePllLockLoss
  | timeBasePllRelock
  | pauseIgnoreEnd (p : Fin 16)
  | aerUncorrectableError (link : Fin 2)
  | bar2ReadDenied (link : Fin 2) (off : BitVec 26)
  | msixVectorUnmask (link pf : Fin 2) (vec : Fin 512)
  | returnToD0 (link pf : Fin 2)
  | smbusBlockRead
  deriving DecidableEq, Repr

end Sys2Proof
end

