-- ==== Sys2Proof/Decode.lean ====
section
/-!
DEFINITION. The command that a word of the opcode table spells. No row of spec/opcode_table.json gives any bits (every row has an
empty bit field), so no word spells a command. The words of Rospel instructions (R230) are decoded in Machine/Encoding.lean.
-/

namespace Sys2Proof

/-- The command whose table bits are `w`: none, because the table gives no row any bits. -/
def decodeTableWord (_nbits _w : Nat) : Option Instr := none

end Sys2Proof
end

