-- ==== Sys2Proof/Config.lean ====
section
/-!
DEFINITION. What one device fixes and the spec leaves open: fuses, OTP, straps and the results of cryptography are opaque
constants (no body, so no proof can see a value), and so is every free value: a function of the counter that State holds.
-/

namespace Sys2Proof

/-- A free 32-bit value: the n-th value the device fills in where the spec gives none. -/
opaque Config.freeWord : Nat → Word

/-- A free natural number (used reduced to the range a rule sets). -/
opaque Config.freeNat : Nat → Nat

/-- SYS_ID_REV.SCREEN: whether the device is of the extended ordering code (R1, R500). -/
opaque Config.screenExtended : Bool

/-- The balls DDR_STRAP[3:0], read at BOOT (R440). -/
opaque Config.ddrStrap : BitVec 4

/-- The fixed PHY delay of a port mode, in ns (R59): the spec gives no figure. -/
opaque Config.phyDelay : Nat → Nat

/-- The announce receipt timeout of the PTP profile, in ns (R30): the profile's, not the spec's. -/
opaque Config.announceTimeout : Nat

/-- The clock identity of the device as a PTP clock (R34): the spec does not say how it is formed. -/
opaque Config.ptpClockId : BitVec 64

/-- The clockClass, accuracy and variance the device announces of itself (R34): IEEE 1588 and its profiles, not the spec, say them. -/
opaque Config.ptpOwnQuality : BitVec 32

/-- SHAKE256 with a 256-bit output, over bytes (FIPS 202; R322, R327, R387). -/
opaque Config.shake256 : List (BitVec 8) → BitVec 256

/-- KMAC256 (SP 800-185; R382, R413, R417, R465): key, message, output bits, customisation string. -/
opaque Config.kmac256 : List (BitVec 8) → List (BitVec 8) → Nat → String → List (BitVec 8)

/-- XMSS-SHAKE256_20_256 verification (RFC 8391; R327, R383): public key, message, signature. -/
opaque Config.xmssVerify : List (BitVec 8) → List (BitVec 8) → List (BitVec 8) → Bool

/-- The XMSS signature of the device's identity key with an index (R374, R396). -/
opaque Config.xmssSign : Nat → List (BitVec 8) → List (BitVec 8)

/-- ML-KEM-768 decapsulation with the device's OTP seed (FIPS 203; R382): the shared secret. -/
opaque Config.kemDecap : List (BitVec 8) → List (BitVec 8)

/-- AES-256-GCM decryption (R328, R383): key, IV, additional data, ciphertext with its 16-byte tag; none when the tag fails. -/
opaque Config.gcmOpen : List (BitVec 8) → List (BitVec 8) → List (BitVec 8) → List (BitVec 8) → Option (List (BitVec 8))

/-- The tag of IEC 62351-6 and of the 90-5 session header (R92): algorithm, key, initialisation vector, bytes covered. -/
opaque Config.frameTag : Nat → BitVec 256 → List (BitVec 8) → List (BitVec 8) → List (BitVec 8)

/-- DEVICE_ID (R374), the XMSS public key (R374) and the ML-KEM public key (R382): words of OTP. -/
opaque Config.devId : BitVec 128
opaque Config.idPub : Nat → BitVec 32
opaque Config.kemPub : Nat → BitVec 32

/-- The number the device gives a scrubber domain in CFG_SCRUB_LAST (R353): the spec does not number the domains. -/
opaque Config.domainNumber : Nat → BitVec 16

/-- The entry point of the program of a lane's stage in a rule-set epoch (R152): lane, stage, epoch. The spec names no register or record
that holds it. -/
opaque Config.stageEntry : Nat → Nat → Nat → BitVec 16

/-- Whether the image grants a partition a channel-stream (R20, R134): the spec names no register or record that holds the grant. -/
opaque Config.csGranted : Nat → Nat → Bool

/-- The MAC address of the device as a node of an HSR ring (R68): the spec does not say where it is held. -/
opaque Config.ownMac : BitVec 48

/-- The nonce of a JTAG challenge, by its number (R465): a value that no one can foretell. -/
opaque Config.jtagNonce : Nat → List (BitVec 8)

end Sys2Proof
end

