-- ==== Sys2Proof/Machine/Bits.lean ====
section
/-!
DEFINITION. Bit fields, sign extension, byte order and saturation: the helpers every other file of the model uses.
Bit ranges are written [msb:lsb] with bit 0 the least significant (spec/00_scope.md, "Numbers, units and time values").
-/

namespace Sys2Proof.Machine

/-- The field [hi:lo] of a number. -/
def nfld (w hi lo : Nat) : Nat := (w / 2 ^ lo) % 2 ^ (hi + 1 - lo)

/-- The field [hi:lo] of a word, as a number. -/
def fld {n : Nat} (w : BitVec n) (hi lo : Nat) : Nat := nfld w.toNat hi lo

/-- Bit i of a word, as a Boolean. -/
def tbit {n : Nat} (w : BitVec n) (i : Nat) : Bool := fld w i i == 1

/-- The word with the field [hi:lo] replaced by v (taken modulo the width of the field). -/
def putFld {n : Nat} (w : BitVec n) (hi lo v : Nat) : BitVec n :=
  BitVec.ofNat n (w.toNat - fld w hi lo * 2 ^ lo + (v % 2 ^ (hi + 1 - lo)) * 2 ^ lo)

/-- The word with bit i set to b. -/
def putBit {n : Nat} (w : BitVec n) (i : Nat) (b : Bool) : BitVec n := putFld w i i (if b then 1 else 0)

/-- The two's complement reading of an n-bit number. -/
def sgn (n v : Nat) : Int :=
  if v % 2 ^ n < 2 ^ (n - 1) then ((v % 2 ^ n : Nat) : Int) else ((v % 2 ^ n : Nat) : Int) - (2 ^ n : Nat)

/-- The n-bit two's complement code of an integer, as a number. -/
def usg (n : Nat) (z : Int) : Nat := (z % ((2 ^ n : Nat) : Int)).toNat

/-- The 32-bit code of an integer. -/
def wordOfInt (z : Int) : Word := BitVec.ofNat 32 (usg 32 z)

/-- The signed reading of a word. -/
def wordInt (w : Word) : Int := sgn 32 w.toNat

/-- An integer clamped to the range of n signed bits. -/
def satS (n : Nat) (z : Int) : Int :=
  if z < -((2 ^ (n - 1) : Nat) : Int) then -((2 ^ (n - 1) : Nat) : Int)
  else if z > ((2 ^ (n - 1) : Nat) : Int) - 1 then ((2 ^ (n - 1) : Nat) : Int) - 1 else z

/-- An integer clamped to [lo, hi]. -/
def clampI (lo hi z : Int) : Int := if z < lo then lo else if z > hi then hi else z

/-- The number whose little-endian bytes are given. -/
def leNat : List Byte → Nat
  | [] => 0
  | b :: bs => b.toNat + 256 * leNat bs

/-- The number whose big-endian bytes are given. -/
def beNat (bs : List Byte) : Nat := leNat bs.reverse

/-- The k little-endian bytes of a number. -/
def leBytes : Nat → Nat → List Byte
  | 0, _ => []
  | k + 1, v => BitVec.ofNat 8 v :: leBytes k (v / 256)

/-- The k big-endian bytes of a number. -/
def beBytes (k v : Nat) : List Byte := (leBytes k v).reverse

/-- Byte i of a list, zero past its end. -/
def byteAt (bs : List Byte) (i : Nat) : Byte := bs.getD i 0

/-- The k little-endian bytes at offset i, as a number (zero past the end). -/
def leAt (bs : List Byte) (i k : Nat) : Nat := leNat ((List.range k).map fun j => byteAt bs (i + j))

/-- The k big-endian bytes at offset i, as a number (zero past the end). -/
def beAt (bs : List Byte) (i k : Nat) : Nat := beNat ((List.range k).map fun j => byteAt bs (i + j))

/-- 2^32, the modulus of a counter (R87). -/
def two32 : Nat := 4294967296

/-- The position of the lowest set bit of a number below 2^n, if there is one. -/
def lowestBit (n v : Nat) : Option Nat := (List.range n).find? fun i => v / 2 ^ i % 2 == 1

/-- The numbers below n whose bit is set in v, in ascending order. -/
def setBits (n v : Nat) : List Nat := (List.range n).filter fun i => v / 2 ^ i % 2 == 1

/-- The quotient of integers rounded to the nearest, ties away from zero. -/
def divNearAway (a : Int) (b : Nat) : Int :=
  if a < 0 then -((((2 * a.natAbs + b) / (2 * b) : Nat)) : Int) else (((2 * a.natAbs + b) / (2 * b) : Nat) : Int)

/-- The quotient of naturals rounded up. -/
def ceilDiv (a b : Nat) : Nat := (a + b - 1) / b

end Sys2Proof.Machine
end

