-- ==== Sys2Proof/Machine/RegMap.lean ====
section
/-!
DEFINITION. The admin space (R496-R499): the offset of every register of the spec's register tables (R53, R88, R113, R140, R169,
R192, R219, R243, R260, R280, R298, R320, R359, R369, R397, R422, R438, R454, R471, R494, R500), its access code (R8), its reset
value (R10), and the image section that may set it (R323, R324).
-/

namespace Sys2Proof.Machine

/-- `IND_TIME_CTRL` (R53). -/
def Reg.IND_TIME_CTRL : Nat := 0x3000
/-- `IND_TIME_STATUS` (R53). -/
def Reg.IND_TIME_STATUS : Nat := 0x3004
/-- `IND_TIME_NOW` (R53). -/
def Reg.IND_TIME_NOW (w : Nat) : Nat := 0x3008 + w * 4
/-- `IND_TIME_SET` (R53). -/
def Reg.IND_TIME_SET (w : Nat) : Nat := 0x3014 + w * 4
/-- `IND_SRC_CFG` (R53). -/
def Reg.IND_SRC_CFG : Nat := 0x3020
/-- `IND_SRC_THR` (R53). -/
def Reg.IND_SRC_THR : Nat := 0x3024
/-- `IND_SRC_DIS` (R53). -/
def Reg.IND_SRC_DIS : Nat := 0x3028
/-- `IND_OFFSET_PTP` (R53). -/
def Reg.IND_OFFSET_PTP : Nat := 0x302C
/-- `IND_OFFSET_TIN0` (R53). -/
def Reg.IND_OFFSET_TIN0 : Nat := 0x3030
/-- `IND_OFFSET_TIN1` (R53). -/
def Reg.IND_OFFSET_TIN1 : Nat := 0x3034
/-- `IND_UTC_OFFSET` (R53). -/
def Reg.IND_UTC_OFFSET : Nat := 0x3038
/-- `IND_STEER` (R53). -/
def Reg.IND_STEER : Nat := 0x303C
/-- `IND_COMMIT_DESC` (R53). -/
def Reg.IND_COMMIT_DESC (w : Nat) : Nat := 0x3040 + w * 4
/-- `IND_COMMIT_STATUS` (R53). -/
def Reg.IND_COMMIT_STATUS : Nat := 0x3050
/-- `IND_COMMIT_LAST` (R53). -/
def Reg.IND_COMMIT_LAST (w : Nat) : Nat := 0x3054 + w * 4
/-- `IND_COMMIT_COUNT` (R53). -/
def Reg.IND_COMMIT_COUNT : Nat := 0x3060
/-- `IND_TIN_CFG` (R53). -/
def Reg.IND_TIN_CFG (n : Nat) : Nat := 0x3100 + n * 0x10
/-- `IND_PPS_CFG` (R53). -/
def Reg.IND_PPS_CFG (n : Nat) : Nat := 0x3140 + n * 0x10
/-- `IND_PPS_OFF` (R53). -/
def Reg.IND_PPS_OFF (n : Nat) : Nat := 0x3144 + n * 0x10
/-- `IND_PTP_CFG` (R53). -/
def Reg.IND_PTP_CFG : Nat := 0x3180
/-- `IND_PTP_GM_ID` (R53). -/
def Reg.IND_PTP_GM_ID (w : Nat) : Nat := 0x3184 + w * 4
/-- `IND_PTP_PORT` (R53). -/
def Reg.IND_PTP_PORT (n : Nat) : Nat := 0x3200 + n * 0x10
/-- `IND_ACLK_CFG` (R53). -/
def Reg.IND_ACLK_CFG (n : Nat) : Nat := 0x3400 + n * 0x40
/-- `IND_ACLK_SRC2` (R53). -/
def Reg.IND_ACLK_SRC2 (n : Nat) : Nat := 0x3404 + n * 0x40
/-- `IND_ACLK_LIM` (R53). -/
def Reg.IND_ACLK_LIM (n : Nat) : Nat := 0x3408 + n * 0x40
/-- `IND_ACLK_STATUS` (R53). -/
def Reg.IND_ACLK_STATUS (n : Nat) : Nat := 0x340C + n * 0x40
/-- `IND_ACLK_VALUE_LO` (R53). -/
def Reg.IND_ACLK_VALUE_LO (n : Nat) : Nat := 0x3410 + n * 0x40
/-- `IND_ACLK_VALUE_HI` (R53). -/
def Reg.IND_ACLK_VALUE_HI (n : Nat) : Nat := 0x3414 + n * 0x40
/-- `IND_ACLK_FREQ` (R53). -/
def Reg.IND_ACLK_FREQ (n : Nat) : Nat := 0x3418 + n * 0x40
/-- `IND_ACLK_ROCOF` (R53). -/
def Reg.IND_ACLK_ROCOF (n : Nat) : Nat := 0x341C + n * 0x40
/-- `IND_ACLK_EVAL_LO` (R53). -/
def Reg.IND_ACLK_EVAL_LO (n : Nat) : Nat := 0x3420 + n * 0x40
/-- `IND_ACLK_EVAL_HI` (R53). -/
def Reg.IND_ACLK_EVAL_HI (n : Nat) : Nat := 0x3424 + n * 0x40
/-- `IND_ACLK_TSNAP` (R53). -/
def Reg.IND_ACLK_TSNAP (n w : Nat) : Nat := 0x3428 + n * 0x40 + w * 4
/-- `IND_INST_DESC` (R53). -/
def Reg.IND_INST_DESC (u w : Nat) : Nat := 0x3800 + u * 0x20 + w * 4
/-- `IND_INST_PERIOD_LO` (R53). -/
def Reg.IND_INST_PERIOD_LO (u : Nat) : Nat := 0x3810 + u * 0x20
/-- `IND_INST_PERIOD_HI` (R53). -/
def Reg.IND_INST_PERIOD_HI (u : Nat) : Nat := 0x3814 + u * 0x20
/-- `IND_INST_TARGET` (R53). -/
def Reg.IND_INST_TARGET (u : Nat) : Nat := 0x3818 + u * 0x20
/-- `IND_INST_STATUS` (R53). -/
def Reg.IND_INST_STATUS (u : Nat) : Nat := 0x381C + u * 0x20
/-- `ETH_PORT_CFG` (R88). -/
def Reg.ETH_PORT_CFG (p : Nat) : Nat := 0x4000 + p * 0x80
/-- `ETH_PORT_STATUS` (R88). -/
def Reg.ETH_PORT_STATUS (p : Nat) : Nat := 0x4004 + p * 0x80
/-- `ETH_PREEMPT` (R88). -/
def Reg.ETH_PREEMPT (p : Nat) : Nat := 0x4008 + p * 0x80
/-- `ETH_TS_COMP` (R88). -/
def Reg.ETH_TS_COMP (p : Nat) : Nat := 0x400C + p * 0x80
/-- `ETH_RX_FRAMES` (R88). -/
def Reg.ETH_RX_FRAMES (p : Nat) : Nat := 0x4020 + p * 0x80
/-- `ETH_RX_OCTETS_LO` (R88). -/
def Reg.ETH_RX_OCTETS_LO (p : Nat) : Nat := 0x4024 + p * 0x80
/-- `ETH_RX_OCTETS_HI` (R88). -/
def Reg.ETH_RX_OCTETS_HI (p : Nat) : Nat := 0x4028 + p * 0x80
/-- `ETH_RX_FCS_ERR` (R88). -/
def Reg.ETH_RX_FCS_ERR (p : Nat) : Nat := 0x402C + p * 0x80
/-- `ETH_RX_RUNT` (R88). -/
def Reg.ETH_RX_RUNT (p : Nat) : Nat := 0x4030 + p * 0x80
/-- `ETH_RX_OVERSIZE` (R88). -/
def Reg.ETH_RX_OVERSIZE (p : Nat) : Nat := 0x4034 + p * 0x80
/-- `ETH_RX_FEC_CORR` (R88). -/
def Reg.ETH_RX_FEC_CORR (p : Nat) : Nat := 0x4038 + p * 0x80
/-- `ETH_RX_FEC_UNCORR` (R88). -/
def Reg.ETH_RX_FEC_UNCORR (p : Nat) : Nat := 0x403C + p * 0x80
/-- `ETH_RX_REASM_ERR` (R88). -/
def Reg.ETH_RX_REASM_ERR (p : Nat) : Nat := 0x4040 + p * 0x80
/-- `ETH_TX_FRAMES` (R88). -/
def Reg.ETH_TX_FRAMES (p : Nat) : Nat := 0x4044 + p * 0x80
/-- `ETH_TX_STOMPED` (R88). -/
def Reg.ETH_TX_STOMPED (p : Nat) : Nat := 0x4048 + p * 0x80
/-- `ETH_TX_FRAGMENTS` (R88). -/
def Reg.ETH_TX_FRAGMENTS (p : Nat) : Nat := 0x404C + p * 0x80
/-- `ETH_PTP_MGT_DROP` (R88). -/
def Reg.ETH_PTP_MGT_DROP (p : Nat) : Nat := 0x4050 + p * 0x80
/-- `ETH_RX_UNTAGGED_RING` (R88). -/
def Reg.ETH_RX_UNTAGGED_RING (p : Nat) : Nat := 0x4054 + p * 0x80
/-- `ETH_RED_CFG` (R88). -/
def Reg.ETH_RED_CFG (r : Nat) : Nat := 0x4800 + r * 0x40
/-- `ETH_RED_STATUS` (R88). -/
def Reg.ETH_RED_STATUS (r : Nat) : Nat := 0x4804 + r * 0x40
/-- `ETH_RED_DUP_DISCARD` (R88). -/
def Reg.ETH_RED_DUP_DISCARD (r : Nat) : Nat := 0x4808 + r * 0x40
/-- `ETH_RED_WRONG_LAN` (R88). -/
def Reg.ETH_RED_WRONG_LAN (r : Nat) : Nat := 0x480C + r * 0x40
/-- `ETH_RED_DUP_LOST` (R88). -/
def Reg.ETH_RED_DUP_LOST (r : Nat) : Nat := 0x4810 + r * 0x40
/-- `ETH_RED_EVICT` (R88). -/
def Reg.ETH_RED_EVICT (r : Nat) : Nat := 0x4814 + r * 0x40
/-- `ETH_RED_NODE_FULL` (R88). -/
def Reg.ETH_RED_NODE_FULL (r : Nat) : Nat := 0x4818 + r * 0x40
/-- `T1S_SEG_CFG` (R88). -/
def Reg.T1S_SEG_CFG (s : Nat) : Nat := 0x5000 + s * 0x100
/-- `T1S_SEG_STATUS` (R88). -/
def Reg.T1S_SEG_STATUS (s : Nat) : Nat := 0x5004 + s * 0x100
/-- `T1S_RX_FRAMES` (R88). -/
def Reg.T1S_RX_FRAMES (s : Nat) : Nat := 0x5010 + s * 0x100
/-- `T1S_RX_ERR` (R88). -/
def Reg.T1S_RX_ERR (s : Nat) : Nat := 0x5014 + s * 0x100
/-- `T1S_COLLISIONS` (R88). -/
def Reg.T1S_COLLISIONS (s : Nat) : Nat := 0x5018 + s * 0x100
/-- `T1S_PLCA_COLL` (R88). -/
def Reg.T1S_PLCA_COLL (s : Nat) : Nat := 0x501C + s * 0x100
/-- `T1S_TX_ABORT` (R88). -/
def Reg.T1S_TX_ABORT (s : Nat) : Nat := 0x5020 + s * 0x100
/-- `T1S_JABBER` (R88). -/
def Reg.T1S_JABBER (s : Nat) : Nat := 0x5024 + s * 0x100
/-- `T1S_TX_FRAMES` (R88). -/
def Reg.T1S_TX_FRAMES (s : Nat) : Nat := 0x5028 + s * 0x100
/-- `PRS_CFG` (R88). -/
def Reg.PRS_CFG : Nat := 0x6000
/-- `PRS_STATUS` (R88). -/
def Reg.PRS_STATUS : Nat := 0x6004
/-- `PRS_DEEP_CNT` (R88). -/
def Reg.PRS_DEEP_CNT : Nat := 0x6010
/-- `PRS_TAIL_LEN` (R88). -/
def Reg.PRS_TAIL_LEN : Nat := 0x6014
/-- `PRS_DIALECT_CNT` (R88). -/
def Reg.PRS_DIALECT_CNT : Nat := 0x6018
/-- `PRS_MAL_CNT` (R88). -/
def Reg.PRS_MAL_CNT (k : Nat) : Nat := 0x6040 + k * 4
/-- `CLS_TBL_CFG` (R88). -/
def Reg.CLS_TBL_CFG (t : Nat) : Nat := 0x7000 + t * 0x10
/-- `CLS_PROFILE_LO` (R88). -/
def Reg.CLS_PROFILE_LO (t : Nat) : Nat := 0x7004 + t * 0x10
/-- `CLS_PROFILE_HI` (R88). -/
def Reg.CLS_PROFILE_HI (t : Nat) : Nat := 0x7008 + t * 0x10
/-- `CLS_KIND_MASK` (R88). -/
def Reg.CLS_KIND_MASK (t : Nat) : Nat := 0x700C + t * 0x10
/-- `CLS_CMD` (R88). -/
def Reg.CLS_CMD (i : Nat) : Nat := 0x7100 + i * 0x80
/-- `CLS_CMD_STATUS` (R88). -/
def Reg.CLS_CMD_STATUS (i : Nat) : Nat := 0x7104 + i * 0x80
/-- `CLS_CMD_KEY` (R88). -/
def Reg.CLS_CMD_KEY (i w : Nat) : Nat := 0x7110 + i * 0x80 + w * 4
/-- `CLS_CMD_RES` (R88). -/
def Reg.CLS_CMD_RES (i w : Nat) : Nat := 0x7140 + i * 0x80 + w * 4
/-- `CLS_PORT_DEF` (R88). -/
def Reg.CLS_PORT_DEF (p : Nat) : Nat := 0x7200 + p * 8
/-- `CLS_PORT_FLOOD` (R88). -/
def Reg.CLS_PORT_FLOOD (p : Nat) : Nat := 0x7204 + p * 8
/-- `CLS_PORT_POL` (R88). -/
def Reg.CLS_PORT_POL (p : Nat) : Nat := 0x7300 + p * 4
/-- `CLS_POL_SHED` (R88). -/
def Reg.CLS_POL_SHED (p : Nat) : Nat := 0x7380 + p * 4
/-- `CLS_STATUS` (R88). -/
def Reg.CLS_STATUS : Nat := 0x7400
/-- `CLS_NAME_COLL` (R88). -/
def Reg.CLS_NAME_COLL : Nat := 0x7404
/-- `CLS_ECC_MISS` (R88). -/
def Reg.CLS_ECC_MISS : Nat := 0x7408
/-- `CLS_STR_RATE_DROP` (R88). -/
def Reg.CLS_STR_RATE_DROP : Nat := 0x740C
/-- `CLS_STR_OVF` (R88). -/
def Reg.CLS_STR_OVF : Nat := 0x7410
/-- `CLS_INS_FAIL` (R88). -/
def Reg.CLS_INS_FAIL : Nat := 0x7414
/-- `CLS_STR_CFG` (R88). -/
def Reg.CLS_STR_CFG : Nat := 0x7420
/-- `CLS_STR_SEL` (R88). -/
def Reg.CLS_STR_SEL : Nat := 0x7424
/-- `CLS_STR_CLR` (R88). -/
def Reg.CLS_STR_CLR : Nat := 0x7428
/-- `CLS_STR_DATA` (R88). -/
def Reg.CLS_STR_DATA (w : Nat) : Nat := 0x7440 + w * 4
/-- `CLS_FLOW_POL` (R88). -/
def Reg.CLS_FLOW_POL (i w : Nat) : Nat := 0x8000 + i * 8 + w * 4
/-- `AUT_CFG` (R113). -/
def Reg.AUT_CFG : Nat := 0x9000
/-- `AUT_STATUS` (R113). -/
def Reg.AUT_STATUS : Nat := 0x9004
/-- `AUT_EPOCH_CUR` (R113). -/
def Reg.AUT_EPOCH_CUR : Nat := 0x9008
/-- `AUT_EPOCH_STAGED` (R113). -/
def Reg.AUT_EPOCH_STAGED : Nat := 0x900C
/-- `AUT_EPOCH_STATUS` (R113). -/
def Reg.AUT_EPOCH_STATUS : Nat := 0x9010
/-- `AUT_PASS` (R113). -/
def Reg.AUT_PASS : Nat := 0x9020
/-- `AUT_NOTAG_PASS` (R113). -/
def Reg.AUT_NOTAG_PASS : Nat := 0x9024
/-- `AUT_PREV_KEY` (R113). -/
def Reg.AUT_PREV_KEY : Nat := 0x9028
/-- `AUT_EGRESS_DROP` (R113). -/
def Reg.AUT_EGRESS_DROP : Nat := 0x902C
/-- `AUT_RETRACT` (R113). -/
def Reg.AUT_RETRACT : Nat := 0x9030
/-- `AUT_STOMP_T1S` (R113). -/
def Reg.AUT_STOMP_T1S : Nat := 0x9034
/-- `AUT_TX_NOKEY` (R113). -/
def Reg.AUT_TX_NOKEY : Nat := 0x9038
/-- `AUT_TX_SIGNED` (R113). -/
def Reg.AUT_TX_SIGNED : Nat := 0x903C
/-- `AUT_FAIL` (R113). -/
def Reg.AUT_FAIL (k : Nat) : Nat := 0x9040 + (k - 8) * 4
/-- `AUT_CTX_SEL` (R113). -/
def Reg.AUT_CTX_SEL : Nat := 0x9100
/-- `AUT_CTX_CMD` (R113). -/
def Reg.AUT_CTX_CMD : Nat := 0x9104
/-- `AUT_CTX_CMD_STATUS` (R113). -/
def Reg.AUT_CTX_CMD_STATUS : Nat := 0x9108
/-- `AUT_CTX_DATA` (R113). -/
def Reg.AUT_CTX_DATA (w : Nat) : Nat := 0x9140 + w * 4
/-- `SPE_STATUS` (R140). -/
def Reg.SPE_STATUS : Nat := 0xA000
/-- `SPE_SAMPLES` (R140). -/
def Reg.SPE_SAMPLES : Nat := 0xA010
/-- `SPE_MISSING` (R140). -/
def Reg.SPE_MISSING : Nat := 0xA014
/-- `SPE_LATE` (R140). -/
def Reg.SPE_LATE : Nat := 0xA018
/-- `SPE_STALE` (R140). -/
def Reg.SPE_STALE : Nat := 0xA01C
/-- `SPE_ASDU_ERR` (R140). -/
def Reg.SPE_ASDU_ERR : Nat := 0xA020
/-- `SPE_SHAPE_FAIL` (R140). -/
def Reg.SPE_SHAPE_FAIL : Nat := 0xA024
/-- `SPE_TWIN_DISCARD` (R140). -/
def Reg.SPE_TWIN_DISCARD : Nat := 0xA028
/-- `SPE_TWIN_RECOVER` (R140). -/
def Reg.SPE_TWIN_RECOVER : Nat := 0xA02C
/-- `SPE_DISAGREE` (R140). -/
def Reg.SPE_DISAGREE : Nat := 0xA030
/-- `SPE_SATURATE` (R140). -/
def Reg.SPE_SATURATE : Nat := 0xA034
/-- `SPE_ECC_CORR` (R140). -/
def Reg.SPE_ECC_CORR : Nat := 0xA038
/-- `SPE_ECC_UNCORR` (R140). -/
def Reg.SPE_ECC_UNCORR : Nat := 0xA03C
/-- `SPE_PAUSE_MAP` (R140). -/
def Reg.SPE_PAUSE_MAP (w : Nat) : Nat := 0xA100 + w * 4
/-- `SPE_STR_SEL` (R140). -/
def Reg.SPE_STR_SEL : Nat := 0xA200
/-- `SPE_STR_DATA` (R140). -/
def Reg.SPE_STR_DATA (w : Nat) : Nat := 0xA240 + w * 4
/-- `LAN_CFG` (R169). -/
def Reg.LAN_CFG (l : Nat) : Nat := 0xB000 + l * 0x200
/-- `LAN_IN` (R169). -/
def Reg.LAN_IN (l : Nat) : Nat := 0xB010 + l * 0x200
/-- `LAN_OUT` (R169). -/
def Reg.LAN_OUT (l : Nat) : Nat := 0xB014 + l * 0x200
/-- `LAN_ENTRY_DROP` (R169). -/
def Reg.LAN_ENTRY_DROP (l : Nat) : Nat := 0xB018 + l * 0x200
/-- `LAN_CODE_DROP` (R169). -/
def Reg.LAN_CODE_DROP (l : Nat) : Nat := 0xB01C + l * 0x200
/-- `LAN_RECIRC` (R169). -/
def Reg.LAN_RECIRC (l : Nat) : Nat := 0xB020 + l * 0x200
/-- `LAN_RECIRC_DROP` (R169). -/
def Reg.LAN_RECIRC_DROP (l : Nat) : Nat := 0xB024 + l * 0x200
/-- `LAN_EPOCH_DROP` (R169). -/
def Reg.LAN_EPOCH_DROP (l : Nat) : Nat := 0xB028 + l * 0x200
/-- `LAN_BYPASS` (R169). -/
def Reg.LAN_BYPASS (l : Nat) : Nat := 0xB02C + l * 0x200
/-- `LAN_STG_CFG` (R169). -/
def Reg.LAN_STG_CFG (l s : Nat) : Nat := 0xB040 + l * 0x200 + s * 0x20
/-- `LAN_STG_OVERRUN` (R169). -/
def Reg.LAN_STG_OVERRUN (l s : Nat) : Nat := 0xB044 + l * 0x200 + s * 0x20
/-- `LAN_STG_LATE_REL` (R169). -/
def Reg.LAN_STG_LATE_REL (l s : Nat) : Nat := 0xB048 + l * 0x200 + s * 0x20
/-- `LAN_STG_QHWM` (R169). -/
def Reg.LAN_STG_QHWM (l s : Nat) : Nat := 0xB04C + l * 0x200 + s * 0x20
/-- `LAN_EPOCH` (R169). -/
def Reg.LAN_EPOCH : Nat := 0xB800
/-- `LAN_EPOCH_REF` (R169). -/
def Reg.LAN_EPOCH_REF : Nat := 0xB804
/-- `LAN_HASH_CFG` (R169). -/
def Reg.LAN_HASH_CFG : Nat := 0xB810
/-- `LAN_HASH_MAP` (R169). -/
def Reg.LAN_HASH_MAP : Nat := 0xB814
/-- `LAN_STATUS` (R169). -/
def Reg.LAN_STATUS : Nat := 0xB820
/-- `SWC_EG_CFG` (R169). -/
def Reg.SWC_EG_CFG (e : Nat) : Nat := 0xC000 + e * 0xa0
/-- `SWC_EG_STATUS` (R169). -/
def Reg.SWC_EG_STATUS (e : Nat) : Nat := 0xC004 + e * 0xa0
/-- `SWC_CAP_EGR` (R169). -/
def Reg.SWC_CAP_EGR (e : Nat) : Nat := 0xC008 + e * 0xa0
/-- `SWC_PAUSE_FLUSH` (R169). -/
def Reg.SWC_PAUSE_FLUSH (e : Nat) : Nat := 0xC00C + e * 0xa0
/-- `SWC_UNDERRUN` (R169). -/
def Reg.SWC_UNDERRUN (e : Nat) : Nat := 0xC010 + e * 0xa0
/-- `SWC_LEN_MISMATCH` (R169). -/
def Reg.SWC_LEN_MISMATCH (e : Nat) : Nat := 0xC014 + e * 0xa0
/-- `SWC_Q_CFG` (R169). -/
def Reg.SWC_Q_CFG (e tc : Nat) : Nat := 0xC020 + e * 0xa0 + tc * 0x10
/-- `SWC_Q_DEPTH` (R169). -/
def Reg.SWC_Q_DEPTH (e tc : Nat) : Nat := 0xC024 + e * 0xa0 + tc * 0x10
/-- `SWC_Q_DROP` (R169). -/
def Reg.SWC_Q_DROP (e tc : Nat) : Nat := 0xC028 + e * 0xa0 + tc * 0x10
/-- `SWC_Q_ECN` (R169). -/
def Reg.SWC_Q_ECN (e tc : Nat) : Nat := 0xC02C + e * 0xa0 + tc * 0x10
/-- `SWC_HQ_CFG` (R169). -/
def Reg.SWC_HQ_CFG (h : Nat) : Nat := 0xD800 + h * 0x10
/-- `SWC_HQ_DEPTH` (R169). -/
def Reg.SWC_HQ_DEPTH (h : Nat) : Nat := 0xD804 + h * 0x10
/-- `SWC_HQ_DROP` (R169). -/
def Reg.SWC_HQ_DROP (h : Nat) : Nat := 0xD808 + h * 0x10
/-- `SWC_CAP_CFG` (R169). -/
def Reg.SWC_CAP_CFG (c : Nat) : Nat := 0xDC00 + c * 0x20
/-- `SWC_CAP_BASE_LO` (R169). -/
def Reg.SWC_CAP_BASE_LO (c : Nat) : Nat := 0xDC04 + c * 0x20
/-- `SWC_CAP_BASE_HI` (R169). -/
def Reg.SWC_CAP_BASE_HI (c : Nat) : Nat := 0xDC08 + c * 0x20
/-- `SWC_CAP_WR` (R169). -/
def Reg.SWC_CAP_WR (c : Nat) : Nat := 0xDC0C + c * 0x20
/-- `SWC_CAP_RD` (R169). -/
def Reg.SWC_CAP_RD (c : Nat) : Nat := 0xDC10 + c * 0x20
/-- `SWC_CAP_DROP` (R169). -/
def Reg.SWC_CAP_DROP (c : Nat) : Nat := 0xDC14 + c * 0x20
/-- `SWC_STATUS` (R169). -/
def Reg.SWC_STATUS : Nat := 0xDE00
/-- `OCH_POOL_CFG` (R192). -/
def Reg.OCH_POOL_CFG (p : Nat) : Nat := 0xE000 + p * 0x20
/-- `OCH_POOL_FREE` (R192). -/
def Reg.OCH_POOL_FREE (p : Nat) : Nat := 0xE004 + p * 0x20
/-- `OCH_POOL_SHARED` (R192). -/
def Reg.OCH_POOL_SHARED (p : Nat) : Nat := 0xE008 + p * 0x20
/-- `OCH_POOL_LOW` (R192). -/
def Reg.OCH_POOL_LOW (p : Nat) : Nat := 0xE00C + p * 0x20
/-- `OCH_POOL_FALLBACK` (R192). -/
def Reg.OCH_POOL_FALLBACK (p : Nat) : Nat := 0xE010 + p * 0x20
/-- `OCH_F` (R192). -/
def Reg.OCH_F : Nat := 0xE080
/-- `OCH_STATUS` (R192). -/
def Reg.OCH_STATUS : Nat := 0xE084
/-- `OCH_RR` (R192). -/
def Reg.OCH_RR : Nat := 0xE088
/-- `OCH_ALLOC_FAIL` (R192). -/
def Reg.OCH_ALLOC_FAIL : Nat := 0xE090
/-- `OCH_DOUBLE_FREE` (R192). -/
def Reg.OCH_DOUBLE_FREE : Nat := 0xE094
/-- `OCH_FOREIGN_FREE` (R192). -/
def Reg.OCH_FOREIGN_FREE : Nat := 0xE098
/-- `OCH_CONTEST` (R192). -/
def Reg.OCH_CONTEST : Nat := 0xE09C
/-- `OCH_DESC_UNCORR` (R192). -/
def Reg.OCH_DESC_UNCORR : Nat := 0xE0A0
/-- `OCH_DATA_UNCORR` (R192). -/
def Reg.OCH_DATA_UNCORR : Nat := 0xE0A4
/-- `OCH_FREE_ERR` (R192). -/
def Reg.OCH_FREE_ERR : Nat := 0xE0B0
/-- `OCH_HQ_MAP` (R192). -/
def Reg.OCH_HQ_MAP (w : Nat) : Nat := 0xE100 + w * 4
/-- `OCH_CMD` (R192). -/
def Reg.OCH_CMD : Nat := 0xE200
/-- `OCH_CMD_STATUS` (R192). -/
def Reg.OCH_CMD_STATUS : Nat := 0xE204
/-- `OCH_CMD_RES` (R192). -/
def Reg.OCH_CMD_RES : Nat := 0xE208
/-- `OCH_OWN_RSV` (R192). -/
def Reg.OCH_OWN_RSV (o : Nat) : Nat := 0xE400 + o * 0x10
/-- `OCH_OWN_HELD_LO` (R192). -/
def Reg.OCH_OWN_HELD_LO (o : Nat) : Nat := 0xE404 + o * 0x10
/-- `OCH_OWN_HELD_HI` (R192). -/
def Reg.OCH_OWN_HELD_HI (o : Nat) : Nat := 0xE408 + o * 0x10
/-- `OCH_OWN_FAIL` (R192). -/
def Reg.OCH_OWN_FAIL (o : Nat) : Nat := 0xE40C + o * 0x10
/-- `FWD_CFG` (R192). -/
def Reg.FWD_CFG : Nat := 0xF000
/-- `FWD_PORT_EN` (R192). -/
def Reg.FWD_PORT_EN : Nat := 0xF004
/-- `FWD_SEED_LO` (R192). -/
def Reg.FWD_SEED_LO : Nat := 0xF008
/-- `FWD_SEED_HI` (R192). -/
def Reg.FWD_SEED_HI : Nat := 0xF00C
/-- `FWD_STATUS` (R192). -/
def Reg.FWD_STATUS : Nat := 0xF010
/-- `FWD_COUNT` (R192). -/
def Reg.FWD_COUNT : Nat := 0xF014
/-- `FWD_SWEEP` (R192). -/
def Reg.FWD_SWEEP : Nat := 0xF018
/-- `FWD_DA_HIT` (R192). -/
def Reg.FWD_DA_HIT : Nat := 0xF020
/-- `FWD_DA_MISS` (R192). -/
def Reg.FWD_DA_MISS : Nat := 0xF024
/-- `FWD_LEARN_NEW` (R192). -/
def Reg.FWD_LEARN_NEW : Nat := 0xF028
/-- `FWD_LEARN_MOVED` (R192). -/
def Reg.FWD_LEARN_MOVED : Nat := 0xF02C
/-- `FWD_LEARN_SKIP` (R192). -/
def Reg.FWD_LEARN_SKIP : Nat := 0xF030
/-- `FWD_STATIC_MOVE` (R192). -/
def Reg.FWD_STATIC_MOVE : Nat := 0xF034
/-- `FWD_AGED` (R192). -/
def Reg.FWD_AGED : Nat := 0xF038
/-- `FWD_INS_FAIL` (R192). -/
def Reg.FWD_INS_FAIL : Nat := 0xF03C
/-- `FWD_RELOC` (R192). -/
def Reg.FWD_RELOC : Nat := 0xF040
/-- `FWD_BAD_ENTRY` (R192). -/
def Reg.FWD_BAD_ENTRY : Nat := 0xF044
/-- `FWD_ECC_CORR` (R192). -/
def Reg.FWD_ECC_CORR : Nat := 0xF048
/-- `FWD_LQ_OVF` (R192). -/
def Reg.FWD_LQ_OVF : Nat := 0xF04C
/-- `FWD_LQ_DEDUP` (R192). -/
def Reg.FWD_LQ_DEDUP : Nat := 0xF050
/-- `FWD_LQ_COUNT` (R192). -/
def Reg.FWD_LQ_COUNT : Nat := 0xF060
/-- `FWD_LQ_POP` (R192). -/
def Reg.FWD_LQ_POP : Nat := 0xF064
/-- `FWD_LQ_DATA` (R192). -/
def Reg.FWD_LQ_DATA (w : Nat) : Nat := 0xF070 + w * 4
/-- `FWD_CMD` (R192). -/
def Reg.FWD_CMD (i : Nat) : Nat := 0xF100 + i * 0x40
/-- `FWD_CMD_STATUS` (R192). -/
def Reg.FWD_CMD_STATUS (i : Nat) : Nat := 0xF104 + i * 0x40
/-- `FWD_CMD_ENT` (R192). -/
def Reg.FWD_CMD_ENT (i w : Nat) : Nat := 0xF110 + i * 0x40 + w * 4
/-- `CLU_CORE_STATUS` (R219). -/
def Reg.CLU_CORE_STATUS (c : Nat) : Nat := 0x100000 + c * 0x10000
/-- `CLU_SUP_CFG` (R219). -/
def Reg.CLU_SUP_CFG (c : Nat) : Nat := 0x100004 + c * 0x10000
/-- `CLU_SUP_TMO` (R219). -/
def Reg.CLU_SUP_TMO (c : Nat) : Nat := 0x100008 + c * 0x10000
/-- `CLU_CTL_CMD` (R219). -/
def Reg.CLU_CTL_CMD (c : Nat) : Nat := 0x10000C + c * 0x10000
/-- `CLU_CTL_ARG` (R219). -/
def Reg.CLU_CTL_ARG (c : Nat) : Nat := 0x100010 + c * 0x10000
/-- `CLU_CTL_STATUS` (R219). -/
def Reg.CLU_CTL_STATUS (c : Nat) : Nat := 0x100014 + c * 0x10000
/-- `CLU_FAULTS` (R219). -/
def Reg.CLU_FAULTS (c : Nat) : Nat := 0x100020 + c * 0x10000
/-- `CLU_FLT_OVF` (R219). -/
def Reg.CLU_FLT_OVF (c : Nat) : Nat := 0x100024 + c * 0x10000
/-- `CLU_FLT_TMO_KILL` (R219). -/
def Reg.CLU_FLT_TMO_KILL (c : Nat) : Nat := 0x100028 + c * 0x10000
/-- `CLU_DL_RECORDS` (R219). -/
def Reg.CLU_DL_RECORDS (c : Nat) : Nat := 0x10002C + c * 0x10000
/-- `CLU_MASK_EXP` (R219). -/
def Reg.CLU_MASK_EXP (c : Nat) : Nat := 0x100030 + c * 0x10000
/-- `CLU_DL_OVF` (R219). -/
def Reg.CLU_DL_OVF (c : Nat) : Nat := 0x100034 + c * 0x10000
/-- `CLU_FLT_POP` (R219). -/
def Reg.CLU_FLT_POP (c : Nat) : Nat := 0x100040 + c * 0x10000
/-- `CLU_FLT_DATA` (R219). -/
def Reg.CLU_FLT_DATA (c w : Nat) : Nat := 0x100044 + c * 0x10000 + w * 4
/-- `CLU_DL_POP` (R219). -/
def Reg.CLU_DL_POP (c : Nat) : Nat := 0x100060 + c * 0x10000
/-- `CLU_DL_DATA` (R219). -/
def Reg.CLU_DL_DATA (c w : Nat) : Nat := 0x100064 + c * 0x10000 + w * 4
/-- `CLU_DL_CFG` (R219). -/
def Reg.CLU_DL_CFG (c g : Nat) : Nat := 0x1000C0 + c * 0x10000 + g * 4
/-- `CLU_THR_CFG` (R219). -/
def Reg.CLU_THR_CFG (c k t : Nat) : Nat := 0x100100 + c * 0x10000 + k * 0x40 + t * 8
/-- `CLU_THR_STATUS` (R219). -/
def Reg.CLU_THR_STATUS (c k t : Nat) : Nat := 0x100104 + c * 0x10000 + k * 0x40 + t * 8
/-- `CLU_CHN_CFG` (R219). -/
def Reg.CLU_CHN_CFG (c c' : Nat) : Nat := 0x103000 + c * 0x10000 + c' * 0x20
/-- `CLU_CHN_STATUS` (R219). -/
def Reg.CLU_CHN_STATUS (c c' : Nat) : Nat := 0x103004 + c * 0x10000 + c' * 0x20
/-- `CLU_CHN_ABORTS` (R219). -/
def Reg.CLU_CHN_ABORTS (c c' : Nat) : Nat := 0x103008 + c * 0x10000 + c' * 0x20
/-- `CLU_CHN_CMD` (R219). -/
def Reg.CLU_CHN_CMD (c : Nat) : Nat := 0x103800 + c * 0x10000
/-- `CLU_CHN_CMD_STATUS` (R219). -/
def Reg.CLU_CHN_CMD_STATUS (c : Nat) : Nat := 0x103804 + c * 0x10000
/-- `CLU_PMEM_RGN` (R243). -/
def Reg.CLU_PMEM_RGN (c j v : Nat) : Nat := 0x100600 + c * 0x10000 + j * 0x20 + v * 4
/-- `CLU_CRC_POLY` (R243). -/
def Reg.CLU_CRC_POLY (c j : Nat) : Nat := 0x100610 + c * 0x10000 + j * 0x20
/-- `CLU_CRC_CFG` (R243). -/
def Reg.CLU_CRC_CFG (c j : Nat) : Nat := 0x100614 + c * 0x10000 + j * 0x20
/-- `CLU_PMW_COUNT` (R243). -/
def Reg.CLU_PMW_COUNT (c : Nat) : Nat := 0x100680 + c * 0x10000
/-- `CLU_PMW_DISCARD` (R243). -/
def Reg.CLU_PMW_DISCARD (c : Nat) : Nat := 0x100684 + c * 0x10000
/-- `CPX_CFG` (R260). -/
def Reg.CPX_CFG (j : Nat) : Nat := 0x10000 + j * 0x40
/-- `CPX_QSTAT` (R260). -/
def Reg.CPX_QSTAT (j : Nat) : Nat := 0x10004 + j * 0x40
/-- `CPX_CMDS` (R260). -/
def Reg.CPX_CMDS (j : Nat) : Nat := 0x10010 + j * 0x40
/-- `CPX_SQUASHED` (R260). -/
def Reg.CPX_SQUASHED (j : Nat) : Nat := 0x10014 + j * 0x40
/-- `CPX_INVALID` (R260). -/
def Reg.CPX_INVALID (j : Nat) : Nat := 0x10018 + j * 0x40
/-- `CPX_OVERFLOW` (R260). -/
def Reg.CPX_OVERFLOW (j : Nat) : Nat := 0x1001C + j * 0x40
/-- `CPX_WAIT_CYC` (R260). -/
def Reg.CPX_WAIT_CYC (j : Nat) : Nat := 0x10020 + j * 0x40
/-- `CPX_PARITY` (R260). -/
def Reg.CPX_PARITY (j : Nat) : Nat := 0x10024 + j * 0x40
/-- `CLU_DSP_CFG` (R280). -/
def Reg.CLU_DSP_CFG (c : Nat) : Nat := 0x101000 + c * 0x10000
/-- `CLU_DSP_STATUS` (R280). -/
def Reg.CLU_DSP_STATUS (c : Nat) : Nat := 0x101004 + c * 0x10000
/-- `CLU_DSP_READY` (R280). -/
def Reg.CLU_DSP_READY (c : Nat) : Nat := 0x101008 + c * 0x10000
/-- `CLU_DSP_CMD` (R280). -/
def Reg.CLU_DSP_CMD (c : Nat) : Nat := 0x10100C + c * 0x10000
/-- `CLU_DSP_CMD_ARG` (R280). -/
def Reg.CLU_DSP_CMD_ARG (c : Nat) : Nat := 0x101010 + c * 0x10000
/-- `CLU_DSP_CMD_STATUS` (R280). -/
def Reg.CLU_DSP_CMD_STATUS (c : Nat) : Nat := 0x101014 + c * 0x10000
/-- `CLU_DSP_SWITCHES` (R280). -/
def Reg.CLU_DSP_SWITCHES (c : Nat) : Nat := 0x101020 + c * 0x10000
/-- `CLU_DSP_PREEMPTS` (R280). -/
def Reg.CLU_DSP_PREEMPTS (c : Nat) : Nat := 0x101024 + c * 0x10000
/-- `CLU_DSP_UNSTAGED` (R280). -/
def Reg.CLU_DSP_UNSTAGED (c : Nat) : Nat := 0x101028 + c * 0x10000
/-- `CLU_DSP_WAKE_LOST` (R280). -/
def Reg.CLU_DSP_WAKE_LOST (c : Nat) : Nat := 0x10102C + c * 0x10000
/-- `CLU_DSP_OVERRUNS` (R280). -/
def Reg.CLU_DSP_OVERRUNS (c : Nat) : Nat := 0x101030 + c * 0x10000
/-- `CLU_DSP_FORCED` (R280). -/
def Reg.CLU_DSP_FORCED (c : Nat) : Nat := 0x101034 + c * 0x10000
/-- `CLU_DSP_RETRACT_DLV` (R280). -/
def Reg.CLU_DSP_RETRACT_DLV (c : Nat) : Nat := 0x101038 + c * 0x10000
/-- `CLU_DSP_TRC_DROP` (R280). -/
def Reg.CLU_DSP_TRC_DROP (c : Nat) : Nat := 0x10103C + c * 0x10000
/-- `CLU_DSP_TRC_BASE_LO` (R280). -/
def Reg.CLU_DSP_TRC_BASE_LO (c : Nat) : Nat := 0x101040 + c * 0x10000
/-- `CLU_DSP_TRC_BASE_HI` (R280). -/
def Reg.CLU_DSP_TRC_BASE_HI (c : Nat) : Nat := 0x101044 + c * 0x10000
/-- `CLU_DSP_TRC_WR` (R280). -/
def Reg.CLU_DSP_TRC_WR (c : Nat) : Nat := 0x101048 + c * 0x10000
/-- `CLU_DSP_TRC_RD` (R280). -/
def Reg.CLU_DSP_TRC_RD (c : Nat) : Nat := 0x10104C + c * 0x10000
/-- `CLU_TCB_SEL` (R280). -/
def Reg.CLU_TCB_SEL (c : Nat) : Nat := 0x101080 + c * 0x10000
/-- `CLU_TCB_DATA` (R280). -/
def Reg.CLU_TCB_DATA (c w : Nat) : Nat := 0x1010A0 + c * 0x10000 + w * 4
/-- `CLU_DSP_TMR_DESC` (R280). -/
def Reg.CLU_DSP_TMR_DESC (c u w : Nat) : Nat := 0x101200 + c * 0x10000 + u * 0x20 + w * 4
/-- `CLU_DSP_TMR_PERIOD_LO` (R280). -/
def Reg.CLU_DSP_TMR_PERIOD_LO (c u : Nat) : Nat := 0x101210 + c * 0x10000 + u * 0x20
/-- `CLU_DSP_TMR_PERIOD_HI` (R280). -/
def Reg.CLU_DSP_TMR_PERIOD_HI (c u : Nat) : Nat := 0x101214 + c * 0x10000 + u * 0x20
/-- `CLU_DSP_TMR_TARGET` (R280). -/
def Reg.CLU_DSP_TMR_TARGET (c u : Nat) : Nat := 0x101218 + c * 0x10000 + u * 0x20
/-- `CLU_DSP_TMR_STATUS` (R280). -/
def Reg.CLU_DSP_TMR_STATUS (c u : Nat) : Nat := 0x10121C + c * 0x10000 + u * 0x20
/-- `CLU_LCK_STATUS` (R298). -/
def Reg.CLU_LCK_STATUS (c : Nat) : Nat := 0x102000 + c * 0x10000
/-- `CLU_LCK_RR` (R298). -/
def Reg.CLU_LCK_RR (c : Nat) : Nat := 0x102004 + c * 0x10000
/-- `CLU_LCK_GRR` (R298). -/
def Reg.CLU_LCK_GRR (c : Nat) : Nat := 0x102008 + c * 0x10000
/-- `CLU_LCK_GRANTS` (R298). -/
def Reg.CLU_LCK_GRANTS (c : Nat) : Nat := 0x102010 + c * 0x10000
/-- `CLU_LCK_NONHOLDER` (R298). -/
def Reg.CLU_LCK_NONHOLDER (c : Nat) : Nat := 0x102014 + c * 0x10000
/-- `CLU_LCK_DENIED` (R298). -/
def Reg.CLU_LCK_DENIED (c : Nat) : Nat := 0x102018 + c * 0x10000
/-- `CLU_LCK_TEND_REL` (R298). -/
def Reg.CLU_LCK_TEND_REL (c : Nat) : Nat := 0x10201C + c * 0x10000
/-- `CLU_LCK_ABANDONED` (R298). -/
def Reg.CLU_LCK_ABANDONED (c : Nat) : Nat := 0x102020 + c * 0x10000
/-- `CLU_LCK_STUCK` (R298). -/
def Reg.CLU_LCK_STUCK (c : Nat) : Nat := 0x102024 + c * 0x10000
/-- `CLU_MB_COLL` (R298). -/
def Reg.CLU_MB_COLL (c : Nat) : Nat := 0x102028 + c * 0x10000
/-- `CLU_MB_PEER_LOST` (R298). -/
def Reg.CLU_MB_PEER_LOST (c : Nat) : Nat := 0x10202C + c * 0x10000
/-- `CLU_SRAM_CORR` (R298). -/
def Reg.CLU_SRAM_CORR (c : Nat) : Nat := 0x102030 + c * 0x10000
/-- `CLU_SRAM_UNCORR` (R298). -/
def Reg.CLU_SRAM_UNCORR (c : Nat) : Nat := 0x102034 + c * 0x10000
/-- `CLU_SRAM_RGN` (R298). -/
def Reg.CLU_SRAM_RGN (c r : Nat) : Nat := 0x102080 + c * 0x10000 + r * 8
/-- `CLU_SRAM_GMASK` (R298). -/
def Reg.CLU_SRAM_GMASK (c r : Nat) : Nat := 0x102084 + c * 0x10000 + r * 8
/-- `CLU_LCK_LCFG` (R298). -/
def Reg.CLU_LCK_LCFG (c i : Nat) : Nat := 0x102100 + c * 0x10000 + i * 8
/-- `CLU_LCK_LSTAT` (R298). -/
def Reg.CLU_LCK_LSTAT (c i : Nat) : Nat := 0x102104 + c * 0x10000 + i * 8
/-- `CLU_LCK_GCFG` (R298). -/
def Reg.CLU_LCK_GCFG (c i : Nat) : Nat := 0x102400 + c * 0x10000 + i * 8
/-- `CLU_LCK_GSTAT` (R298). -/
def Reg.CLU_LCK_GSTAT (c i : Nat) : Nat := 0x102404 + c * 0x10000 + i * 8
/-- `CLU_PMB_CFG` (R298). -/
def Reg.CLU_PMB_CFG (c p : Nat) : Nat := 0x102C00 + c * 0x10000 + p * 8
/-- `CLU_PMB_STATUS` (R298). -/
def Reg.CLU_PMB_STATUS (c p : Nat) : Nat := 0x102C04 + c * 0x10000 + p * 8
/-- `MB_DATA` (R298). -/
def Reg.MB_DATA (c m w : Nat) : Nat := 0x104000 + c * 0x10000 + m * 0x20 + w * 4
/-- `MB_POST` (R298). -/
def Reg.MB_POST (c m : Nat) : Nat := 0x104010 + c * 0x10000 + m * 0x20
/-- `MB_STATUS` (R298). -/
def Reg.MB_STATUS (c m : Nat) : Nat := 0x104014 + c * 0x10000 + m * 0x20
/-- `MB_TAKE` (R298). -/
def Reg.MB_TAKE (c m : Nat) : Nat := 0x104018 + c * 0x10000 + m * 0x20
/-- `MB_CFG` (R298). -/
def Reg.MB_CFG (c m : Nat) : Nat := 0x10401C + c * 0x10000 + m * 0x20
/-- `VRM_STATUS` (R320). -/
def Reg.VRM_STATUS : Nat := 0x11000
/-- `VRM_CMD` (R320). -/
def Reg.VRM_CMD : Nat := 0x11004
/-- `VRM_CMD_STATUS` (R320). -/
def Reg.VRM_CMD_STATUS : Nat := 0x11008
/-- `VRM_POSTS` (R320). -/
def Reg.VRM_POSTS : Nat := 0x11010
/-- `VRM_REFUSED` (R320). -/
def Reg.VRM_REFUSED : Nat := 0x11014
/-- `VRM_BAD_POST` (R320). -/
def Reg.VRM_BAD_POST : Nat := 0x11018
/-- `VRM_PROV_ACCEPT` (R320). -/
def Reg.VRM_PROV_ACCEPT : Nat := 0x1101C
/-- `VRM_TRIPS` (R320). -/
def Reg.VRM_TRIPS : Nat := 0x11020
/-- `VRM_DIS_RECORDS` (R320). -/
def Reg.VRM_DIS_RECORDS : Nat := 0x11024
/-- `VRM_DIS_OVF` (R320). -/
def Reg.VRM_DIS_OVF : Nat := 0x11028
/-- `VRM_PUB_SENT` (R320). -/
def Reg.VRM_PUB_SENT : Nat := 0x1102C
/-- `VRM_PUB_LOST` (R320). -/
def Reg.VRM_PUB_LOST : Nat := 0x11030
/-- `VRM_DIS_POP` (R320). -/
def Reg.VRM_DIS_POP : Nat := 0x11040
/-- `VRM_DIS_DATA` (R320). -/
def Reg.VRM_DIS_DATA (w : Nat) : Nat := 0x11044 + w * 4
/-- `VRM_INST_PCB` (R320). -/
def Reg.VRM_INST_PCB (x : Nat) : Nat := 0x11080 + x * 4
/-- `VRM_PCB_SEL` (R320). -/
def Reg.VRM_PCB_SEL : Nat := 0x11100
/-- `VRM_PCB_DATA` (R320). -/
def Reg.VRM_PCB_DATA (w : Nat) : Nat := 0x11140 + w * 4
/-- `VRM_CH_CFG` (R320). -/
def Reg.VRM_CH_CFG (ch : Nat) : Nat := 0x12000 + ch * 0x20
/-- `VRM_CH_IN` (R320). -/
def Reg.VRM_CH_IN (ch k : Nat) : Nat := 0x12004 + ch * 0x20 + k * 4
/-- `VRM_CH_STATUS` (R320). -/
def Reg.VRM_CH_STATUS (ch : Nat) : Nat := 0x12010 + ch * 0x20
/-- `VRM_CH_TRIPS` (R320). -/
def Reg.VRM_CH_TRIPS (ch : Nat) : Nat := 0x12014 + ch * 0x20
/-- `FIO_STATUS` (R320). -/
def Reg.FIO_STATUS : Nat := 0x14000
/-- `FIO_IN_STATE` (R320). -/
def Reg.FIO_IN_STATE : Nat := 0x14004
/-- `FIO_IN_CHATTER` (R320). -/
def Reg.FIO_IN_CHATTER : Nat := 0x14008
/-- `FIO_OUT_STATE` (R320). -/
def Reg.FIO_OUT_STATE : Nat := 0x1400C
/-- `FIO_SAFE_PAT` (R320). -/
def Reg.FIO_SAFE_PAT : Nat := 0x14010
/-- `FIO_CMD` (R320). -/
def Reg.FIO_CMD : Nat := 0x14014
/-- `FIO_CMD_STATUS` (R320). -/
def Reg.FIO_CMD_STATUS : Nat := 0x14018
/-- `FIO_FIRE_REFUSED` (R320). -/
def Reg.FIO_FIRE_REFUSED : Nat := 0x14020
/-- `FIO_SOE_DROP` (R320). -/
def Reg.FIO_SOE_DROP : Nat := 0x14024
/-- `FIO_SOE_CFG` (R320). -/
def Reg.FIO_SOE_CFG : Nat := 0x14040
/-- `FIO_SOE_BASE_LO` (R320). -/
def Reg.FIO_SOE_BASE_LO : Nat := 0x14044
/-- `FIO_SOE_BASE_HI` (R320). -/
def Reg.FIO_SOE_BASE_HI : Nat := 0x14048
/-- `FIO_SOE_WR` (R320). -/
def Reg.FIO_SOE_WR : Nat := 0x1404C
/-- `FIO_SOE_RD` (R320). -/
def Reg.FIO_SOE_RD : Nat := 0x14050
/-- `FIO_IN_CFG` (R320). -/
def Reg.FIO_IN_CFG (i : Nat) : Nat := 0x14100 + i * 0x10
/-- `FIO_IN_CHAT` (R320). -/
def Reg.FIO_IN_CHAT (i : Nat) : Nat := 0x14104 + i * 0x10
/-- `FIO_IN_DELAY` (R320). -/
def Reg.FIO_IN_DELAY (i : Nat) : Nat := 0x14108 + i * 0x10
/-- `FIO_OUT_CFG` (R320). -/
def Reg.FIO_OUT_CFG (o : Nat) : Nat := 0x14400 + o * 4
/-- `CFG_STATUS` (R359). -/
def Reg.CFG_STATUS : Nat := 0x15000
/-- `CFG_CTRL` (R359). -/
def Reg.CFG_CTRL : Nat := 0x15004
/-- `CFG_CP` (R359). -/
def Reg.CFG_CP : Nat := 0x15008
/-- `CFG_SHADOW` (R359). -/
def Reg.CFG_SHADOW : Nat := 0x1500C
/-- `CFG_IMG_STATUS` (R359). -/
def Reg.CFG_IMG_STATUS : Nat := 0x15010
/-- `CFG_CHK_STATUS` (R359). -/
def Reg.CFG_CHK_STATUS : Nat := 0x15014
/-- `CFG_ARM_STATUS` (R359). -/
def Reg.CFG_ARM_STATUS : Nat := 0x15018
/-- `CFG_COMMITS` (R359). -/
def Reg.CFG_COMMITS : Nat := 0x15020
/-- `CFG_CHK_FAIL` (R359). -/
def Reg.CFG_CHK_FAIL : Nat := 0x15024
/-- `CFG_SCRUB_SWEEPS` (R359). -/
def Reg.CFG_SCRUB_SWEEPS : Nat := 0x15028
/-- `CFG_SCRUB_FIX` (R359). -/
def Reg.CFG_SCRUB_FIX : Nat := 0x1502C
/-- `CFG_DRAIN_KILL` (R359). -/
def Reg.CFG_DRAIN_KILL : Nat := 0x15030
/-- `CFG_MISMATCHES` (R359). -/
def Reg.CFG_MISMATCHES : Nat := 0x15034
/-- `CFG_SCRUB_LAST` (R359). -/
def Reg.CFG_SCRUB_LAST : Nat := 0x15038
/-- `CFG_DEV_MEAS` (R359). -/
def Reg.CFG_DEV_MEAS (w : Nat) : Nat := 0x15040 + w * 4
/-- `CFG_DEV_VER` (R359). -/
def Reg.CFG_DEV_VER : Nat := 0x15060
/-- `CFG_CHK_ERR` (R359). -/
def Reg.CFG_CHK_ERR (i : Nat) : Nat := 0x15100 + i * 8
/-- `CFG_CHK_ERR_DET` (R359). -/
def Reg.CFG_CHK_ERR_DET (i : Nat) : Nat := 0x15104 + i * 8
/-- `CFG_PART_STATUS` (R359). -/
def Reg.CFG_PART_STATUS (p : Nat) : Nat := 0x15200 + p * 0x40
/-- `CFG_PART_CFG` (R359). -/
def Reg.CFG_PART_CFG (p : Nat) : Nat := 0x15204 + p * 0x40
/-- `CFG_PART_VER` (R359). -/
def Reg.CFG_PART_VER (p : Nat) : Nat := 0x15208 + p * 0x40
/-- `CFG_PART_MEAS` (R359). -/
def Reg.CFG_PART_MEAS (p w : Nat) : Nat := 0x15220 + p * 0x40 + w * 4
/-- `CFG_TILE` (R359). -/
def Reg.CFG_TILE (j : Nat) : Nat := 0x15600 + j * 4
/-- `CFG_UNIT_SEL` (R359). -/
def Reg.CFG_UNIT_SEL : Nat := 0x15700
/-- `CFG_UNIT_DATA` (R359). -/
def Reg.CFG_UNIT_DATA : Nat := 0x15704
/-- `VRM_CH_LAT` (R369). -/
def Reg.VRM_CH_LAT (ch : Nat) : Nat := 0x12018 + ch * 0x20
/-- `VRM_CH_LDECL` (R369). -/
def Reg.VRM_CH_LDECL (ch : Nat) : Nat := 0x1201C + ch * 0x20
/-- `SAB_STATUS` (R397). -/
def Reg.SAB_STATUS : Nat := 0x16000
/-- `SAB_CFG` (R397). -/
def Reg.SAB_CFG : Nat := 0x16004
/-- `SAB_TAMP_CFG` (R397). -/
def Reg.SAB_TAMP_CFG : Nat := 0x16008
/-- `SAB_XMSS_IDX` (R397). -/
def Reg.SAB_XMSS_IDX : Nat := 0x1600C
/-- `SAB_XMSS_STATE` (R397). -/
def Reg.SAB_XMSS_STATE : Nat := 0x16010
/-- `SAB_CMD_STATUS` (R397). -/
def Reg.SAB_CMD_STATUS : Nat := 0x16014
/-- `SAB_ZEROISE_CNT` (R397). -/
def Reg.SAB_ZEROISE_CNT : Nat := 0x16020
/-- `SAB_TAMPER_CNT` (R397). -/
def Reg.SAB_TAMPER_CNT : Nat := 0x16024
/-- `SAB_PKG_OK` (R397). -/
def Reg.SAB_PKG_OK : Nat := 0x16028
/-- `SAB_PKG_REFUSED` (R397). -/
def Reg.SAB_PKG_REFUSED : Nat := 0x1602C
/-- `SAB_IMG_REFUSED` (R397). -/
def Reg.SAB_IMG_REFUSED : Nat := 0x16030
/-- `SAB_ATTEST_CNT` (R397). -/
def Reg.SAB_ATTEST_CNT : Nat := 0x16034
/-- `SAB_DBG_GRANTS` (R397). -/
def Reg.SAB_DBG_GRANTS : Nat := 0x16038
/-- `SAB_FUSE_FAIL` (R397). -/
def Reg.SAB_FUSE_FAIL : Nat := 0x1603C
/-- `SAB_DEV_ID` (R397). -/
def Reg.SAB_DEV_ID (w : Nat) : Nat := 0x16040 + w * 4
/-- `SAB_ROOTS` (R397). -/
def Reg.SAB_ROOTS : Nat := 0x16050
/-- `SAB_FLAGS` (R397). -/
def Reg.SAB_FLAGS : Nat := 0x16054
/-- `SAB_FLOOR_DEV` (R397). -/
def Reg.SAB_FLOOR_DEV : Nat := 0x16060
/-- `SAB_FLOOR_EPOCH` (R397). -/
def Reg.SAB_FLOOR_EPOCH : Nat := 0x16064
/-- `SAB_SEQ_KEYS` (R397). -/
def Reg.SAB_SEQ_KEYS : Nat := 0x16068
/-- `SAB_SEQ_CRED` (R397). -/
def Reg.SAB_SEQ_CRED : Nat := 0x1606C
/-- `SAB_FLOOR_PART` (R397). -/
def Reg.SAB_FLOOR_PART (p : Nat) : Nat := 0x16080 + p * 4
/-- `SAB_DBG_GRANT` (R397). -/
def Reg.SAB_DBG_GRANT (p : Nat) : Nat := 0x160C0 + p * 4
/-- `SAB_CRED` (R397). -/
def Reg.SAB_CRED (s : Nat) : Nat := 0x16100 + s * 4
/-- `SAB_ROOT_DIG` (R397). -/
def Reg.SAB_ROOT_DIG (r w : Nat) : Nat := 0x16180 + r * 0x20 + w * 4
/-- `SAB_ID_PUB` (R397). -/
def Reg.SAB_ID_PUB (w : Nat) : Nat := 0x16300 + w * 4
/-- `SAB_KEM_PUB` (R397). -/
def Reg.SAB_KEM_PUB (w : Nat) : Nat := 0x16400 + w * 4
/-- `SAB_KEY_MAP` (R397). -/
def Reg.SAB_KEY_MAP (w : Nat) : Nat := 0x16C00 + w * 4
/-- `PCI_STATUS` (R422). -/
def Reg.PCI_STATUS : Nat := 0x17000
/-- `PCI_CFG` (R422). -/
def Reg.PCI_CFG : Nat := 0x17004
/-- `PCI_BANK` (R422). -/
def Reg.PCI_BANK (l : Nat) : Nat := 0x17008 + l * 4
/-- `PCI_LINK_STATUS` (R422). -/
def Reg.PCI_LINK_STATUS (l : Nat) : Nat := 0x17010 + l * 0x10
/-- `PCI_AER_CNT` (R422). -/
def Reg.PCI_AER_CNT (l : Nat) : Nat := 0x17014 + l * 0x10
/-- `PCI_DECODE_ERR` (R422). -/
def Reg.PCI_DECODE_ERR (l : Nat) : Nat := 0x17018 + l * 0x10
/-- `PCI_DECODE_LAST` (R422). -/
def Reg.PCI_DECODE_LAST (l : Nat) : Nat := 0x1701C + l * 0x10
/-- `PCI_APER_BASE` (R422). -/
def Reg.PCI_APER_BASE (l a : Nat) : Nat := 0x17040 + l * 0x20 + a * 4
/-- `PCI_B2_CFG` (R422). -/
def Reg.PCI_B2_CFG (l : Nat) : Nat := 0x17050 + l * 0x20
/-- `PCI_B2_DENIED` (R422). -/
def Reg.PCI_B2_DENIED (l : Nat) : Nat := 0x17054 + l * 0x20
/-- `PCI_LOCKWR` (R422). -/
def Reg.PCI_LOCKWR (b : Nat) : Nat := 0x17100 + b * 4
/-- `PCI_LOCKWR_LAST` (R422). -/
def Reg.PCI_LOCKWR_LAST : Nat := 0x17180
/-- `PCI_DMA_CFG` (R422). -/
def Reg.PCI_DMA_CFG (d : Nat) : Nat := 0x17200 + d * 0x40
/-- `PCI_DMA_HQ_LO` (R422). -/
def Reg.PCI_DMA_HQ_LO (d : Nat) : Nat := 0x17204 + d * 0x40
/-- `PCI_DMA_HQ_HI` (R422). -/
def Reg.PCI_DMA_HQ_HI (d : Nat) : Nat := 0x17208 + d * 0x40
/-- `PCI_DMA_IRQ` (R422). -/
def Reg.PCI_DMA_IRQ (d : Nat) : Nat := 0x1720C + d * 0x40
/-- `PCI_DMA_RING_LO` (R422). -/
def Reg.PCI_DMA_RING_LO (d : Nat) : Nat := 0x17210 + d * 0x40
/-- `PCI_DMA_RING_HI` (R422). -/
def Reg.PCI_DMA_RING_HI (d : Nat) : Nat := 0x17214 + d * 0x40
/-- `PCI_DMA_RING_SZ` (R422). -/
def Reg.PCI_DMA_RING_SZ (d : Nat) : Nat := 0x17218 + d * 0x40
/-- `PCI_DMA_CTRL` (R422). -/
def Reg.PCI_DMA_CTRL (d : Nat) : Nat := 0x1721C + d * 0x40
/-- `PCI_DMA_STATUS` (R422). -/
def Reg.PCI_DMA_STATUS (d : Nat) : Nat := 0x17220 + d * 0x40
/-- `PCI_DMA_HEAD` (R422). -/
def Reg.PCI_DMA_HEAD (d : Nat) : Nat := 0x17224 + d * 0x40
/-- `PCI_DMA_TAIL` (R422). -/
def Reg.PCI_DMA_TAIL (d : Nat) : Nat := 0x17228 + d * 0x40
/-- `PCI_DMA_FRAMES` (R422). -/
def Reg.PCI_DMA_FRAMES (d : Nat) : Nat := 0x1722C + d * 0x40
/-- `PCI_DMA_ERR` (R422). -/
def Reg.PCI_DMA_ERR (d : Nat) : Nat := 0x17230 + d * 0x40
/-- `MGT_STATUS` (R422). -/
def Reg.MGT_STATUS : Nat := 0x18000
/-- `MGT_PORT_CFG` (R422). -/
def Reg.MGT_PORT_CFG (n : Nat) : Nat := 0x18020 + n * 0x20
/-- `MGT_PORT_STATUS` (R422). -/
def Reg.MGT_PORT_STATUS (n : Nat) : Nat := 0x18024 + n * 0x20
/-- `MGT_AUTH_FAIL` (R422). -/
def Reg.MGT_AUTH_FAIL (n : Nat) : Nat := 0x18028 + n * 0x20
/-- `MGT_BAD_TAG` (R422). -/
def Reg.MGT_BAD_TAG (n : Nat) : Nat := 0x1802C + n * 0x20
/-- `MGT_SEG_ERR` (R422). -/
def Reg.MGT_SEG_ERR (n : Nat) : Nat := 0x18030 + n * 0x20
/-- `MGT_RESENT` (R422). -/
def Reg.MGT_RESENT (n : Nat) : Nat := 0x18034 + n * 0x20
/-- `MGT_REQ_ADDR_LO` (R422). -/
def Reg.MGT_REQ_ADDR_LO (l : Nat) : Nat := 0x18100 + l * 0x20
/-- `MGT_REQ_ADDR_HI` (R422). -/
def Reg.MGT_REQ_ADDR_HI (l : Nat) : Nat := 0x18104 + l * 0x20
/-- `MGT_REQ_LEN` (R422). -/
def Reg.MGT_REQ_LEN (l : Nat) : Nat := 0x18108 + l * 0x20
/-- `MGT_RSP_ADDR_LO` (R422). -/
def Reg.MGT_RSP_ADDR_LO (l : Nat) : Nat := 0x1810C + l * 0x20
/-- `MGT_RSP_ADDR_HI` (R422). -/
def Reg.MGT_RSP_ADDR_HI (l : Nat) : Nat := 0x18110 + l * 0x20
/-- `MGT_RSP_MAX` (R422). -/
def Reg.MGT_RSP_MAX (l : Nat) : Nat := 0x18114 + l * 0x20
/-- `MGT_DOORBELL` (R422). -/
def Reg.MGT_DOORBELL (l : Nat) : Nat := 0x18118 + l * 0x20
/-- `MGT_RSP_STATUS` (R422). -/
def Reg.MGT_RSP_STATUS (l : Nat) : Nat := 0x1811C + l * 0x20
/-- `MGT_RSP_VEC` (R422). -/
def Reg.MGT_RSP_VEC (l : Nat) : Nat := 0x18140 + l * 4
/-- `MGT_DENIED_WR` (R422). -/
def Reg.MGT_DENIED_WR : Nat := 0x18150
/-- `MGT_ETH_CFG_LO` (R422). -/
def Reg.MGT_ETH_CFG_LO : Nat := 0x18160
/-- `MGT_ETH_CFG_HI` (R422). -/
def Reg.MGT_ETH_CFG_HI : Nat := 0x18164
/-- `MGT_SMB_CFG` (R422). -/
def Reg.MGT_SMB_CFG : Nat := 0x18168
/-- `MGT_UART_CFG` (R422). -/
def Reg.MGT_UART_CFG : Nat := 0x1816C
/-- `EVT_ROUTE` (R422). -/
def Reg.EVT_ROUTE (e : Nat) : Nat := 0x2000 + e * 4
/-- `EVT_ALARM_TAKE` (R422). -/
def Reg.EVT_ALARM_TAKE : Nat := 0x2600
/-- `EVT_ALARM_PEND` (R422). -/
def Reg.EVT_ALARM_PEND (w : Nat) : Nat := 0x2610 + w * 4
/-- `EVT_MSIX_LOST` (R422). -/
def Reg.EVT_MSIX_LOST : Nat := 0x2640
/-- `CLU_EVT_TAKE` (R422). -/
def Reg.CLU_EVT_TAKE (c : Nat) : Nat := 0x100700 + c * 0x10000
/-- `CLU_EVT_PEND` (R422). -/
def Reg.CLU_EVT_PEND (c w : Nat) : Nat := 0x100704 + c * 0x10000 + w * 4
/-- `PAI_STATUS` (R438). -/
def Reg.PAI_STATUS : Nat := 0x19000
/-- `PAI_CFG` (R438). -/
def Reg.PAI_CFG : Nat := 0x19004
/-- `PAI_THR` (R438). -/
def Reg.PAI_THR : Nat := 0x19008
/-- `PAI_LINK` (R438). -/
def Reg.PAI_LINK : Nat := 0x1900C
/-- `PAI_PEER_ID` (R438). -/
def Reg.PAI_PEER_ID (w : Nat) : Nat := 0x19010 + w * 4
/-- `PAI_TIME_OFF` (R438). -/
def Reg.PAI_TIME_OFF : Nat := 0x19020
/-- `PAI_DELAY` (R438). -/
def Reg.PAI_DELAY : Nat := 0x19024
/-- `PAI_PART_MATCH` (R438). -/
def Reg.PAI_PART_MATCH : Nat := 0x19028
/-- `PAI_HB_MISS` (R438). -/
def Reg.PAI_HB_MISS : Nat := 0x19030
/-- `PAI_CELL_ERR` (R438). -/
def Reg.PAI_CELL_ERR : Nat := 0x19034
/-- `PAI_VOTE_TX` (R438). -/
def Reg.PAI_VOTE_TX : Nat := 0x19038
/-- `PAI_VOTE_RX` (R438). -/
def Reg.PAI_VOTE_RX : Nat := 0x1903C
/-- `PAI_MB_TX` (R438). -/
def Reg.PAI_MB_TX : Nat := 0x19040
/-- `PAI_MB_RX` (R438). -/
def Reg.PAI_MB_RX : Nat := 0x19044
/-- `PAI_FRAME_DROP` (R438). -/
def Reg.PAI_FRAME_DROP : Nat := 0x19048
/-- `PAI_CREDIT_FLUSH` (R438). -/
def Reg.PAI_CREDIT_FLUSH : Nat := 0x1904C
/-- `PAI_EVT_LOST` (R438). -/
def Reg.PAI_EVT_LOST : Nat := 0x19050
/-- `PAI_PEER_EVT_TAKE` (R438). -/
def Reg.PAI_PEER_EVT_TAKE : Nat := 0x19060
/-- `PAI_PEER_EVT_PEND` (R438). -/
def Reg.PAI_PEER_EVT_PEND (w : Nat) : Nat := 0x19064 + w * 4
/-- `DDR_STATUS` (R454). -/
def Reg.DDR_STATUS : Nat := 0x1A000
/-- `DDR_CFG` (R454). -/
def Reg.DDR_CFG : Nat := 0x1A004
/-- `DDR_SCRUB_CFG` (R454). -/
def Reg.DDR_SCRUB_CFG : Nat := 0x1A008
/-- `DDR_ECC_CORR` (R454). -/
def Reg.DDR_ECC_CORR : Nat := 0x1A010
/-- `DDR_ECC_UNCORR` (R454). -/
def Reg.DDR_ECC_UNCORR : Nat := 0x1A014
/-- `DDR_FWD` (R454). -/
def Reg.DDR_FWD : Nat := 0x1A018
/-- `DDR_REFRESH` (R454). -/
def Reg.DDR_REFRESH : Nat := 0x1A01C
/-- `DDR_UNCORR_ADDR_LO` (R454). -/
def Reg.DDR_UNCORR_ADDR_LO : Nat := 0x1A020
/-- `DDR_UNCORR_ADDR_HI` (R454). -/
def Reg.DDR_UNCORR_ADDR_HI : Nat := 0x1A024
/-- `REC_STATUS` (R454). -/
def Reg.REC_STATUS : Nat := 0x1B000
/-- `REC_RGN` (R454). -/
def Reg.REC_RGN (k : Nat) : Nat := 0x1B010 + k * 8
/-- `REC_HIST_CFG` (R454). -/
def Reg.REC_HIST_CFG : Nat := 0x1B030
/-- `REC_RETRIG` (R454). -/
def Reg.REC_RETRIG : Nat := 0x1B040
/-- `REC_REC_DROP` (R454). -/
def Reg.REC_REC_DROP : Nat := 0x1B044
/-- `REC_FETCH_ERR` (R454). -/
def Reg.REC_FETCH_ERR : Nat := 0x1B048
/-- `REC_DOWN_DROP` (R454). -/
def Reg.REC_DOWN_DROP : Nat := 0x1B04C
/-- `REC_RING_OFF` (R454). -/
def Reg.REC_RING_OFF : Nat := 0x1B050
/-- `REC_CMD` (R454). -/
def Reg.REC_CMD : Nat := 0x1B060
/-- `REC_CMD_STATUS` (R454). -/
def Reg.REC_CMD_STATUS : Nat := 0x1B064
/-- `REC_FETCH_CFG` (R454). -/
def Reg.REC_FETCH_CFG (c f : Nat) : Nat := 0x1B100 + c * 0x20 + f * 4
/-- `REC_SET_CFG` (R454). -/
def Reg.REC_SET_CFG (r : Nat) : Nat := 0x1B200 + r * 0x20
/-- `REC_SET_SPAN` (R454). -/
def Reg.REC_SET_SPAN (r : Nat) : Nat := 0x1B204 + r * 0x20
/-- `REC_SET_INMASK` (R454). -/
def Reg.REC_SET_INMASK (r : Nat) : Nat := 0x1B208 + r * 0x20
/-- `REC_SET_BASE` (R454). -/
def Reg.REC_SET_BASE (r : Nat) : Nat := 0x1B20C + r * 0x20
/-- `REC_SET_WR` (R454). -/
def Reg.REC_SET_WR (r : Nat) : Nat := 0x1B210 + r * 0x20
/-- `REC_SET_RD` (R454). -/
def Reg.REC_SET_RD (r : Nat) : Nat := 0x1B214 + r * 0x20
/-- `REC_HIST_MAP` (R454). -/
def Reg.REC_HIST_MAP (w : Nat) : Nat := 0x1B800 + w * 4
/-- `PMU_CFG` (R471). -/
def Reg.PMU_CFG : Nat := 0x1C000
/-- `PMU_CTRL` (R471). -/
def Reg.PMU_CTRL : Nat := 0x1C004
/-- `PMU_ALO` (R471). -/
def Reg.PMU_ALO : Nat := 0x1C008
/-- `PMU_AHI` (R471). -/
def Reg.PMU_AHI : Nat := 0x1C00C
/-- `PMU_TAG_CFG` (R471). -/
def Reg.PMU_TAG_CFG : Nat := 0x1C010
/-- `PMU_TAG_SEED` (R471). -/
def Reg.PMU_TAG_SEED : Nat := 0x1C014
/-- `PMU_TAG_BASE_LO` (R471). -/
def Reg.PMU_TAG_BASE_LO : Nat := 0x1C018
/-- `PMU_TAG_BASE_HI` (R471). -/
def Reg.PMU_TAG_BASE_HI : Nat := 0x1C01C
/-- `PMU_TAG_WR` (R471). -/
def Reg.PMU_TAG_WR : Nat := 0x1C020
/-- `PMU_TAG_RD` (R471). -/
def Reg.PMU_TAG_RD : Nat := 0x1C024
/-- `PMU_TAG_DROP` (R471). -/
def Reg.PMU_TAG_DROP : Nat := 0x1C028
/-- `PMU_CTR_CFG` (R471). -/
def Reg.PMU_CTR_CFG (n : Nat) : Nat := 0x1C100 + n * 0x10
/-- `PMU_CTR_LO` (R471). -/
def Reg.PMU_CTR_LO (n : Nat) : Nat := 0x1C104 + n * 0x10
/-- `PMU_CTR_HI` (R471). -/
def Reg.PMU_CTR_HI (n : Nat) : Nat := 0x1C108 + n * 0x10
/-- `CLU_PMU_ALO` (R471). -/
def Reg.CLU_PMU_ALO (c : Nat) : Nat := 0x100D00 + c * 0x10000
/-- `CLU_PMU_AHI` (R471). -/
def Reg.CLU_PMU_AHI (c : Nat) : Nat := 0x100D04 + c * 0x10000
/-- `CLU_DBG_BP` (R471). -/
def Reg.CLU_DBG_BP (c k b : Nat) : Nat := 0x100E00 + c * 0x10000 + k * 0x20 + b * 8
/-- `CLU_DBG_BP_THR` (R471). -/
def Reg.CLU_DBG_BP_THR (c k b : Nat) : Nat := 0x100E04 + c * 0x10000 + k * 0x20 + b * 8
/-- `DBG_STATUS` (R471). -/
def Reg.DBG_STATUS : Nat := 0x1D000
/-- `DBG_CMD` (R471). -/
def Reg.DBG_CMD : Nat := 0x1D004
/-- `DBG_CMD_STATUS` (R471). -/
def Reg.DBG_CMD_STATUS : Nat := 0x1D008
/-- `DBG_MEM_ADDR` (R471). -/
def Reg.DBG_MEM_ADDR : Nat := 0x1D00C
/-- `DBG_MEM_DATA` (R471). -/
def Reg.DBG_MEM_DATA : Nat := 0x1D010
/-- `DBG_DENIED` (R471). -/
def Reg.DBG_DENIED : Nat := 0x1D014
/-- `DBG_CTX_SEL` (R471). -/
def Reg.DBG_CTX_SEL : Nat := 0x1D018
/-- `DBG_CTX_DATA` (R471). -/
def Reg.DBG_CTX_DATA (w : Nat) : Nat := 0x1D020 + w * 4
/-- `DBG_CHAL` (R471). -/
def Reg.DBG_CHAL (w : Nat) : Nat := 0x1D100 + w * 4
/-- `DBG_RESP` (R471). -/
def Reg.DBG_RESP (w : Nat) : Nat := 0x1D120 + w * 4
/-- `DBG_JTAG` (R471). -/
def Reg.DBG_JTAG : Nat := 0x1D140
/-- `SYS_STATE` (R494). -/
def Reg.SYS_STATE : Nat := 0x100
/-- `SYS_STATE_REQ` (R494). -/
def Reg.SYS_STATE_REQ : Nat := 0x104
/-- `SYS_STATE_STATUS` (R494). -/
def Reg.SYS_STATE_STATUS : Nat := 0x108
/-- `SYS_RESET` (R494). -/
def Reg.SYS_RESET : Nat := 0x10C
/-- `SYS_RESET_STATUS` (R494). -/
def Reg.SYS_RESET_STATUS : Nat := 0x110
/-- `SYS_SAFE_CAUSE` (R494). -/
def Reg.SYS_SAFE_CAUSE : Nat := 0x114
/-- `SYS_BOOT_STATUS` (R494). -/
def Reg.SYS_BOOT_STATUS : Nat := 0x118
/-- `SYS_BOOT_TIME` (R494). -/
def Reg.SYS_BOOT_TIME : Nat := 0x11C
/-- `SYS_BOOT_CTRL` (R494). -/
def Reg.SYS_BOOT_CTRL : Nat := 0x120
/-- `SYS_STATUS` (R494). -/
def Reg.SYS_STATUS : Nat := 0x124
/-- `PWR_STATUS` (R494). -/
def Reg.PWR_STATUS : Nat := 0x1000
/-- `PWR_RESET_CAUSE` (R494). -/
def Reg.PWR_RESET_CAUSE : Nat := 0x1004
/-- `PWR_RAIL` (R494). -/
def Reg.PWR_RAIL : Nat := 0x1008
/-- `PWR_AVS` (R494). -/
def Reg.PWR_AVS : Nat := 0x100C
/-- `PWR_TEMP` (R494). -/
def Reg.PWR_TEMP : Nat := 0x1010
/-- `PWR_TEMP_MAX` (R494). -/
def Reg.PWR_TEMP_MAX : Nat := 0x1014
/-- `PWR_TEMP_CFG` (R494). -/
def Reg.PWR_TEMP_CFG : Nat := 0x1018
/-- `PWR_TEMP_SENS` (R494). -/
def Reg.PWR_TEMP_SENS (n : Nat) : Nat := 0x1020 + n * 4
/-- `PWR_RESETS` (R494). -/
def Reg.PWR_RESETS : Nat := 0x1040
/-- `SYS_ID_VENDOR` (R500). -/
def Reg.SYS_ID_VENDOR : Nat := 0x0
/-- `SYS_ID_PART` (R500). -/
def Reg.SYS_ID_PART : Nat := 0x4
/-- `SYS_ID_REV` (R500). -/
def Reg.SYS_ID_REV : Nat := 0x8
/-- `SYS_ID_CAP` (R500). -/
def Reg.SYS_ID_CAP : Nat := 0xC
/-- `SYS_ID_VERS` (R500). -/
def Reg.SYS_ID_VERS : Nat := 0x10
/-- `SYS_ID_JTAG` (R500). -/
def Reg.SYS_ID_JTAG : Nat := 0x14
/-- `SYS_ID_DEVID` (R500). -/
def Reg.SYS_ID_DEVID (w : Nat) : Nat := 0x20 + w * 4
/-- `SYS_ID_BLOCK` (R500). -/
def Reg.SYS_ID_BLOCK (b : Nat) : Nat := 0x40 + b * 4
/-- `CLU_PMU_CTR_CFG` (R471). -/
def Reg.CLU_PMU_CTR_CFG (c k n : Nat) : Nat := 0x100800 + c * 0x10000 + k * 0x40 + n * 0x10
/-- `CLU_PMU_CCTR_CFG` (R471). -/
def Reg.CLU_PMU_CCTR_CFG (c n : Nat) : Nat := 0x100C00 + c * 0x10000 + n * 0x10
/-- `CLU_PMU_CTR_LO` (R471). -/
def Reg.CLU_PMU_CTR_LO (c k n : Nat) : Nat := 0x100804 + c * 0x10000 + k * 0x40 + n * 0x10
/-- `CLU_PMU_CCTR_LO` (R471). -/
def Reg.CLU_PMU_CCTR_LO (c n : Nat) : Nat := 0x100C04 + c * 0x10000 + n * 0x10
/-- `CLU_PMU_CTR_HI` (R471). -/
def Reg.CLU_PMU_CTR_HI (c k n : Nat) : Nat := 0x100808 + c * 0x10000 + k * 0x40 + n * 0x10
/-- `CLU_PMU_CCTR_HI` (R471). -/
def Reg.CLU_PMU_CCTR_HI (c n : Nat) : Nat := 0x100C08 + c * 0x10000 + n * 0x10
/-- `CLU_PMU_SMP_CFG` (R471). -/
def Reg.CLU_PMU_SMP_CFG (c : Nat) : Nat := 0x100D08 + c * 0x10000
/-- `CLU_PMU_SMP_BASE_LO` (R471). -/
def Reg.CLU_PMU_SMP_BASE_LO (c : Nat) : Nat := 0x100D0C + c * 0x10000
/-- `CLU_PMU_SMP_BASE_HI` (R471). -/
def Reg.CLU_PMU_SMP_BASE_HI (c : Nat) : Nat := 0x100D10 + c * 0x10000
/-- `CLU_PMU_SMP_WR` (R471). -/
def Reg.CLU_PMU_SMP_WR (c : Nat) : Nat := 0x100D14 + c * 0x10000
/-- `CLU_PMU_SMP_RD` (R471). -/
def Reg.CLU_PMU_SMP_RD (c : Nat) : Nat := 0x100D18 + c * 0x10000
/-- `CLU_PMU_SMP_DROP` (R471). -/
def Reg.CLU_PMU_SMP_DROP (c : Nat) : Nat := 0x100D1C + c * 0x10000

/-- The access codes of R8. -/
inductive Access where
  | ro | rw | wo | rwl | sqc | rtt
  deriving DecidableEq, Repr

/-- One row of a register table: n1 instances at stride s1, each of n2 words at stride s2, from offset base (relative to the
cluster window for cluster registers); its access code, its numeric reset value, the image section that sets it (0: none), and its mask: the bits that a write of an RW or RWL
register or an image sets (a reserved bit reads zero, R9), and the status bits that a write of an SQC register can clear. -/
structure RegRow where
  base : Nat
  n1 : Nat
  s1 : Nat
  n2 : Nat
  s2 : Nat
  acc : Access
  rst : Nat
  img : Nat
  mask : Nat
  deriving DecidableEq, Repr

/-- Whether an offset is a register of the row. -/
def RegRow.has (r : RegRow) (off : Nat) : Bool :=
  r.base ≤ off && (off - r.base) / r.s1 < r.n1 && (off - r.base) % r.s1 / r.s2 < r.n2 && (off - r.base) % r.s1 % r.s2 == 0

/-- The registers of page 0x0 of the admin space. -/
def regPage0 : List RegRow :=
  [⟨0x100, 1, 0x4, 1, 0x4, .ro, 0x1, 0, 0x0⟩,
   ⟨0x104, 1, 0x4, 1, 0x4, .rw, 0x0, 0, 0x7⟩,
   ⟨0x108, 1, 0x4, 1, 0x4, .ro, 0x0, 0, 0x0⟩,
   ⟨0x10C, 1, 0x4, 1, 0x4, .wo, 0x0, 0, 0x0⟩,
   ⟨0x110, 1, 0x4, 1, 0x4, .ro, 0x0, 0, 0x0⟩,
   ⟨0x114, 1, 0x4, 1, 0x4, .ro, 0x0, 0, 0x0⟩,
   ⟨0x118, 1, 0x4, 1, 0x4, .ro, 0x0, 0, 0x0⟩,
   ⟨0x11C, 1, 0x4, 1, 0x4, .ro, 0x0, 0, 0x0⟩,
   ⟨0x120, 1, 0x4, 1, 0x4, .wo, 0x0, 0, 0x0⟩,
   ⟨0x124, 1, 0x4, 1, 0x4, .sqc, 0x0, 0, 0x1F⟩,
   ⟨0x0, 1, 0x4, 1, 0x4, .ro, 0x1F4B, 0, 0x0⟩,
   ⟨0x4, 1, 0x4, 1, 0x4, .ro, 0x73400001, 0, 0x0⟩,
   ⟨0x8, 1, 0x4, 1, 0x4, .ro, 0x0, 0, 0x0⟩,
   ⟨0xC, 1, 0x4, 1, 0x4, .ro, 0x10180610, 0, 0x0⟩,
   ⟨0x10, 1, 0x4, 1, 0x4, .ro, 0x22100C06, 0, 0x0⟩,
   ⟨0x14, 1, 0x4, 1, 0x4, .ro, 0x173405AB, 0, 0x0⟩,
   ⟨0x20, 4, 0x4, 1, 0x4, .ro, 0x0, 0, 0x0⟩,
   ⟨0x40, 32, 0x4, 1, 0x4, .ro, 0x0, 0, 0x0⟩]

/-- The registers of page 0x1 of the admin space. -/
def regPage1 : List RegRow :=
  [⟨0x1000, 1, 0x4, 1, 0x4, .sqc, 0x0, 0, 0x7⟩,
   ⟨0x1004, 1, 0x4, 1, 0x4, .ro, 0x10, 0, 0x0⟩,
   ⟨0x1008, 1, 0x4, 1, 0x4, .ro, 0x0, 0, 0x0⟩,
   ⟨0x100C, 1, 0x4, 1, 0x4, .ro, 0x83200320, 0, 0x0⟩,
   ⟨0x1010, 1, 0x4, 1, 0x4, .ro, 0x0, 0, 0x0⟩,
   ⟨0x1014, 1, 0x4, 1, 0x4, .rw, 0x0, 0, 0xFFFFFFFF⟩,
   ⟨0x1018, 1, 0x4, 1, 0x4, .ro, 0x7669, 2, 0xFFFF⟩,
   ⟨0x1020, 8, 0x4, 1, 0x4, .ro, 0x0, 0, 0x0⟩,
   ⟨0x1040, 1, 0x4, 1, 0x4, .ro, 0x0, 0, 0x0⟩]

/-- The registers of page 0x2 of the admin space. -/
def regPage2 : List RegRow :=
  [⟨0x2000, 320, 0x4, 1, 0x4, .ro, 0x0, 2, 0xFFFFC000⟩,
   ⟨0x2600, 1, 0x4, 1, 0x4, .rtt, 0x0, 0, 0x0⟩,
   ⟨0x2610, 10, 0x4, 1, 0x4, .ro, 0x0, 0, 0x0⟩,
   ⟨0x2640, 1, 0x4, 1, 0x4, .ro, 0x0, 0, 0x0⟩]

/-- The registers of page 0x3 of the admin space. -/
def regPage3 : List RegRow :=
  [⟨0x3000, 1, 0x4, 1, 0x4, .rw, 0x1, 0, 0x1⟩,
   ⟨0x3004, 1, 0x4, 1, 0x4, .sqc, 0x3F00, 0, 0x400F0⟩,
   ⟨0x3008, 3, 0x4, 1, 0x4, .ro, 0x0, 0, 0x0⟩,
   ⟨0x3014, 3, 0x4, 1, 0x4, .wo, 0x0, 0, 0x0⟩,
   ⟨0x3020, 1, 0x4, 1, 0x4, .ro, 0x0, 3, 0xFFE0FFFF⟩,
   ⟨0x3024, 1, 0x4, 1, 0x4, .ro, 0x3E80064, 3, 0xFFFFFFFF⟩,
   ⟨0x3028, 1, 0x4, 1, 0x4, .ro, 0x3E8, 3, 0xFFFFFFFF⟩,
   ⟨0x302C, 1, 0x4, 1, 0x4, .ro, 0x0, 0, 0x0⟩,
   ⟨0x3030, 1, 0x4, 1, 0x4, .ro, 0x0, 0, 0x0⟩,
   ⟨0x3034, 1, 0x4, 1, 0x4, .ro, 0x0, 0, 0x0⟩,
   ⟨0x3038, 1, 0x4, 1, 0x4, .ro, 0x0, 0, 0x0⟩,
   ⟨0x303C, 1, 0x4, 1, 0x4, .ro, 0x0, 0, 0x0⟩,
   ⟨0x3040, 4, 0x4, 1, 0x4, .ro, 0x0, 0, 0x0⟩,
   ⟨0x3050, 1, 0x4, 1, 0x4, .sqc, 0x0, 0, 0xC0⟩,
   ⟨0x3054, 3, 0x4, 1, 0x4, .ro, 0x0, 0, 0x0⟩,
   ⟨0x3060, 1, 0x4, 1, 0x4, .ro, 0x0, 0, 0x0⟩,
   ⟨0x3100, 2, 0x10, 1, 0x4, .ro, 0x0, 3, 0xFFFCFFFF⟩,
   ⟨0x3140, 2, 0x10, 1, 0x4, .ro, 0x0, 3, 0xFC07FFFF⟩,
   ⟨0x3144, 2, 0x10, 1, 0x4, .ro, 0x0, 3, 0xFFFFFFFF⟩,
   ⟨0x3180, 1, 0x4, 1, 0x4, .ro, 0x0, 3, 0xF8FFFFFF⟩]
  ++ [⟨0x3184, 2, 0x4, 1, 0x4, .ro, 0x0, 0, 0x0⟩,
   ⟨0x3200, 16, 0x10, 1, 0x4, .ro, 0x0, 3, 0xFEFFFFFF⟩,
   ⟨0x3400, 16, 0x40, 1, 0x4, .ro, 0x0, 3, 0xFFF01FFF⟩,
   ⟨0x3404, 16, 0x40, 1, 0x4, .ro, 0x0, 3, 0x80001FFF⟩,
   ⟨0x3408, 16, 0x40, 1, 0x4, .ro, 0x0, 3, 0xFFFFFFFF⟩,
   ⟨0x340C, 16, 0x40, 1, 0x4, .sqc, 0x0, 0, 0x6C00⟩,
   ⟨0x3410, 16, 0x40, 1, 0x4, .ro, 0x0, 0, 0x0⟩,
   ⟨0x3414, 16, 0x40, 1, 0x4, .ro, 0x0, 0, 0x0⟩,
   ⟨0x3418, 16, 0x40, 1, 0x4, .ro, 0x0, 0, 0x0⟩,
   ⟨0x341C, 16, 0x40, 1, 0x4, .ro, 0x0, 0, 0x0⟩,
   ⟨0x3420, 16, 0x40, 1, 0x4, .ro, 0x0, 0, 0x0⟩,
   ⟨0x3424, 16, 0x40, 1, 0x4, .ro, 0x0, 0, 0x0⟩,
   ⟨0x3428, 16, 0x40, 3, 0x4, .ro, 0x0, 0, 0x0⟩,
   ⟨0x3800, 32, 0x20, 4, 0x4, .ro, 0x0, 3, 0xFFFFFFFF⟩,
   ⟨0x3810, 32, 0x20, 1, 0x4, .ro, 0x0, 3, 0xFFFFFFFF⟩,
   ⟨0x3814, 32, 0x20, 1, 0x4, .ro, 0x0, 3, 0xFFFFFFFF⟩,
   ⟨0x3818, 32, 0x20, 1, 0x4, .ro, 0x0, 3, 0xFF03⟩,
   ⟨0x381C, 32, 0x20, 1, 0x4, .sqc, 0x0, 0, 0x80⟩]

/-- The registers of page 0x4 of the admin space. -/
def regPage4 : List RegRow :=
  [⟨0x4000, 16, 0x80, 1, 0x4, .ro, 0x600, 4, 0xFF003FFF⟩,
   ⟨0x4004, 16, 0x80, 1, 0x4, .sqc, 0x0, 0, 0xF000⟩,
   ⟨0x4008, 16, 0x80, 1, 0x4, .ro, 0xA, 4, 0xF00000FF⟩,
   ⟨0x400C, 16, 0x80, 1, 0x4, .ro, 0x0, 4, 0xFFFFFFFF⟩,
   ⟨0x4020, 16, 0x80, 1, 0x4, .ro, 0x0, 0, 0x0⟩,
   ⟨0x4024, 16, 0x80, 1, 0x4, .ro, 0x0, 0, 0x0⟩,
   ⟨0x4028, 16, 0x80, 1, 0x4, .ro, 0x0, 0, 0x0⟩,
   ⟨0x402C, 16, 0x80, 1, 0x4, .ro, 0x0, 0, 0x0⟩,
   ⟨0x4030, 16, 0x80, 1, 0x4, .ro, 0x0, 0, 0x0⟩,
   ⟨0x4034, 16, 0x80, 1, 0x4, .ro, 0x0, 0, 0x0⟩,
   ⟨0x4038, 16, 0x80, 1, 0x4, .ro, 0x0, 0, 0x0⟩,
   ⟨0x403C, 16, 0x80, 1, 0x4, .ro, 0x0, 0, 0x0⟩,
   ⟨0x4040, 16, 0x80, 1, 0x4, .ro, 0x0, 0, 0x0⟩,
   ⟨0x4044, 16, 0x80, 1, 0x4, .ro, 0x0, 0, 0x0⟩,
   ⟨0x4048, 16, 0x80, 1, 0x4, .ro, 0x0, 0, 0x0⟩,
   ⟨0x404C, 16, 0x80, 1, 0x4, .ro, 0x0, 0, 0x0⟩,
   ⟨0x4050, 16, 0x80, 1, 0x4, .ro, 0x0, 0, 0x0⟩,
   ⟨0x4054, 16, 0x80, 1, 0x4, .ro, 0x0, 0, 0x0⟩,
   ⟨0x4800, 8, 0x40, 1, 0x4, .ro, 0x190, 4, 0xE0FFF1FF⟩,
   ⟨0x4804, 8, 0x40, 1, 0x4, .ro, 0x0, 0, 0x0⟩]
  ++ [⟨0x4808, 8, 0x40, 1, 0x4, .ro, 0x0, 0, 0x0⟩,
   ⟨0x480C, 8, 0x40, 1, 0x4, .ro, 0x0, 0, 0x0⟩,
   ⟨0x4810, 8, 0x40, 1, 0x4, .ro, 0x0, 0, 0x0⟩,
   ⟨0x4814, 8, 0x40, 1, 0x4, .ro, 0x0, 0, 0x0⟩,
   ⟨0x4818, 8, 0x40, 1, 0x4, .ro, 0x0, 0, 0x0⟩]

/-- The registers of page 0x5 of the admin space. -/
def regPage5 : List RegRow :=
  [⟨0x5000, 4, 0x100, 1, 0x4, .ro, 0x62080000, 4, 0xFFFFFFC0⟩,
   ⟨0x5004, 4, 0x100, 1, 0x4, .sqc, 0x0, 0, 0xF000⟩,
   ⟨0x5010, 4, 0x100, 1, 0x4, .ro, 0x0, 0, 0x0⟩,
   ⟨0x5014, 4, 0x100, 1, 0x4, .ro, 0x0, 0, 0x0⟩,
   ⟨0x5018, 4, 0x100, 1, 0x4, .ro, 0x0, 0, 0x0⟩,
   ⟨0x501C, 4, 0x100, 1, 0x4, .ro, 0x0, 0, 0x0⟩,
   ⟨0x5020, 4, 0x100, 1, 0x4, .ro, 0x0, 0, 0x0⟩,
   ⟨0x5024, 4, 0x100, 1, 0x4, .ro, 0x0, 0, 0x0⟩,
   ⟨0x5028, 4, 0x100, 1, 0x4, .ro, 0x0, 0, 0x0⟩]

/-- The registers of page 0x6 of the admin space. -/
def regPage6 : List RegRow :=
  [⟨0x6000, 1, 0x4, 1, 0x4, .ro, 0x66, 5, 0xFFFF⟩,
   ⟨0x6004, 1, 0x4, 1, 0x4, .sqc, 0x0, 0, 0x7⟩,
   ⟨0x6010, 1, 0x4, 1, 0x4, .ro, 0x0, 0, 0x0⟩,
   ⟨0x6014, 1, 0x4, 1, 0x4, .ro, 0x0, 0, 0x0⟩,
   ⟨0x6018, 1, 0x4, 1, 0x4, .ro, 0x0, 0, 0x0⟩,
   ⟨0x6044, 14, 0x4, 1, 0x4, .ro, 0x0, 0, 0x0⟩]

/-- The registers of page 0x7 of the admin space. -/
def regPage7 : List RegRow :=
  [⟨0x7000, 2, 0x10, 1, 0x4, .ro, 0x0, 5, 0xFFFF007F⟩,
   ⟨0x7004, 2, 0x10, 1, 0x4, .ro, 0x0, 5, 0xFFFFFFFF⟩,
   ⟨0x7008, 2, 0x10, 1, 0x4, .ro, 0x0, 5, 0xFFFFFFFF⟩,
   ⟨0x700C, 2, 0x10, 1, 0x4, .ro, 0x0, 5, 0x7F⟩,
   ⟨0x7100, 2, 0x80, 1, 0x4, .rw, 0x0, 0, 0x7800FFFF⟩,
   ⟨0x7104, 2, 0x80, 1, 0x4, .ro, 0x0, 0, 0x0⟩,
   ⟨0x7110, 2, 0x80, 10, 0x4, .rw, 0x0, 0, 0xFFFFFFFF⟩,
   ⟨0x7140, 2, 0x80, 6, 0x4, .rw, 0x0, 0, 0xFFFFFFFF⟩,
   ⟨0x7200, 20, 0x8, 1, 0x4, .ro, 0x0, 5, 0xFFFFFC00⟩,
   ⟨0x7204, 20, 0x8, 1, 0x4, .ro, 0x0, 5, 0x3FFFFF⟩,
   ⟨0x7300, 20, 0x4, 1, 0x4, .ro, 0x0, 5, 0xFFFFFFFF⟩,
   ⟨0x7380, 20, 0x4, 1, 0x4, .ro, 0x0, 0, 0x0⟩,
   ⟨0x7400, 1, 0x4, 1, 0x4, .sqc, 0x0, 0, 0x1F⟩,
   ⟨0x7404, 1, 0x4, 1, 0x4, .ro, 0x0, 0, 0x0⟩,
   ⟨0x7408, 1, 0x4, 1, 0x4, .ro, 0x0, 0, 0x0⟩,
   ⟨0x740C, 1, 0x4, 1, 0x4, .ro, 0x0, 0, 0x0⟩,
   ⟨0x7410, 1, 0x4, 1, 0x4, .ro, 0x0, 0, 0x0⟩,
   ⟨0x7414, 1, 0x4, 1, 0x4, .ro, 0x0, 0, 0x0⟩,
   ⟨0x7420, 1, 0x4, 1, 0x4, .ro, 0x10, 5, 0xFF⟩,
   ⟨0x7424, 1, 0x4, 1, 0x4, .rw, 0x0, 0, 0xFF⟩]
  ++ [⟨0x7428, 1, 0x4, 1, 0x4, .wo, 0x0, 0, 0x0⟩,
   ⟨0x7440, 12, 0x4, 1, 0x4, .ro, 0x0, 0, 0x0⟩]

/-- The registers of page 0x8 of the admin space. -/
def regPage8 : List RegRow :=
  [⟨0x8000, 512, 0x8, 2, 0x4, .ro, 0x0, 5, 0xFFFFFFFF⟩]

/-- The registers of page 0x9 of the admin space. -/
def regPage9 : List RegRow :=
  [⟨0x9000, 1, 0x4, 1, 0x4, .ro, 0x7D00000, 6, 0xFFFF0001⟩,
   ⟨0x9004, 1, 0x4, 1, 0x4, .sqc, 0x0, 0, 0xFFF⟩,
   ⟨0x9008, 1, 0x4, 1, 0x4, .ro, 0x0, 0, 0x0⟩,
   ⟨0x900C, 1, 0x4, 1, 0x4, .ro, 0x0, 0, 0x0⟩,
   ⟨0x9010, 1, 0x4, 1, 0x4, .ro, 0x0, 0, 0x0⟩,
   ⟨0x9020, 1, 0x4, 1, 0x4, .ro, 0x0, 0, 0x0⟩,
   ⟨0x9024, 1, 0x4, 1, 0x4, .ro, 0x0, 0, 0x0⟩,
   ⟨0x9028, 1, 0x4, 1, 0x4, .ro, 0x0, 0, 0x0⟩,
   ⟨0x902C, 1, 0x4, 1, 0x4, .ro, 0x0, 0, 0x0⟩,
   ⟨0x9030, 1, 0x4, 1, 0x4, .ro, 0x0, 0, 0x0⟩,
   ⟨0x9034, 1, 0x4, 1, 0x4, .ro, 0x0, 0, 0x0⟩,
   ⟨0x9038, 1, 0x4, 1, 0x4, .ro, 0x0, 0, 0x0⟩,
   ⟨0x903C, 1, 0x4, 1, 0x4, .ro, 0x0, 0, 0x0⟩,
   ⟨0x9040, 8, 0x4, 1, 0x4, .ro, 0x0, 0, 0x0⟩,
   ⟨0x9100, 1, 0x4, 1, 0x4, .rw, 0x0, 0, 0xFFF⟩,
   ⟨0x9104, 1, 0x4, 1, 0x4, .wo, 0x0, 0, 0x0⟩,
   ⟨0x9108, 1, 0x4, 1, 0x4, .ro, 0x0, 0, 0x0⟩,
   ⟨0x9140, 12, 0x4, 1, 0x4, .ro, 0x0, 0, 0x0⟩]

/-- The registers of page 0xA of the admin space. -/
def regPageA : List RegRow :=
  [⟨0xA000, 1, 0x4, 1, 0x4, .sqc, 0x0, 0, 0xFFF⟩,
   ⟨0xA010, 1, 0x4, 1, 0x4, .ro, 0x0, 0, 0x0⟩,
   ⟨0xA014, 1, 0x4, 1, 0x4, .ro, 0x0, 0, 0x0⟩,
   ⟨0xA018, 1, 0x4, 1, 0x4, .ro, 0x0, 0, 0x0⟩,
   ⟨0xA01C, 1, 0x4, 1, 0x4, .ro, 0x0, 0, 0x0⟩,
   ⟨0xA020, 1, 0x4, 1, 0x4, .ro, 0x0, 0, 0x0⟩,
   ⟨0xA024, 1, 0x4, 1, 0x4, .ro, 0x0, 0, 0x0⟩,
   ⟨0xA028, 1, 0x4, 1, 0x4, .ro, 0x0, 0, 0x0⟩,
   ⟨0xA02C, 1, 0x4, 1, 0x4, .ro, 0x0, 0, 0x0⟩,
   ⟨0xA030, 1, 0x4, 1, 0x4, .ro, 0x0, 0, 0x0⟩,
   ⟨0xA034, 1, 0x4, 1, 0x4, .ro, 0x0, 0, 0x0⟩,
   ⟨0xA038, 1, 0x4, 1, 0x4, .ro, 0x0, 0, 0x0⟩,
   ⟨0xA03C, 1, 0x4, 1, 0x4, .ro, 0x0, 0, 0x0⟩,
   ⟨0xA100, 32, 0x4, 1, 0x4, .ro, 0x0, 0, 0x0⟩,
   ⟨0xA200, 1, 0x4, 1, 0x4, .rw, 0x0, 0, 0x3FF⟩,
   ⟨0xA240, 14, 0x4, 1, 0x4, .ro, 0x0, 0, 0x0⟩]

/-- The registers of page 0xB of the admin space. -/
def regPageB : List RegRow :=
  [⟨0xB000, 4, 0x200, 1, 0x4, .ro, 0x40000000, 8, 0xFC000000⟩,
   ⟨0xB010, 4, 0x200, 1, 0x4, .ro, 0x0, 0, 0x0⟩,
   ⟨0xB014, 4, 0x200, 1, 0x4, .ro, 0x0, 0, 0x0⟩,
   ⟨0xB018, 4, 0x200, 1, 0x4, .ro, 0x0, 0, 0x0⟩,
   ⟨0xB01C, 4, 0x200, 1, 0x4, .ro, 0x0, 0, 0x0⟩,
   ⟨0xB020, 4, 0x200, 1, 0x4, .ro, 0x0, 0, 0x0⟩,
   ⟨0xB024, 4, 0x200, 1, 0x4, .ro, 0x0, 0, 0x0⟩,
   ⟨0xB028, 4, 0x200, 1, 0x4, .ro, 0x0, 0, 0x0⟩,
   ⟨0xB02C, 4, 0x200, 1, 0x4, .ro, 0x0, 0, 0x0⟩,
   ⟨0xB040, 4, 0x200, 8, 0x20, .ro, 0x0, 8, 0xFFFFFFFF⟩,
   ⟨0xB044, 4, 0x200, 8, 0x20, .ro, 0x0, 0, 0x0⟩,
   ⟨0xB048, 4, 0x200, 8, 0x20, .ro, 0x0, 0, 0x0⟩,
   ⟨0xB04C, 4, 0x200, 8, 0x20, .rw, 0x0, 0, 0xFFFFFFFF⟩,
   ⟨0xB800, 1, 0x4, 1, 0x4, .ro, 0x0, 0, 0x0⟩,
   ⟨0xB804, 1, 0x4, 1, 0x4, .ro, 0x0, 0, 0x0⟩,
   ⟨0xB810, 1, 0x4, 1, 0x4, .ro, 0x0, 8, 0xFFFF0FFF⟩,
   ⟨0xB814, 1, 0x4, 1, 0x4, .ro, 0x0, 8, 0xFFFFFFFF⟩,
   ⟨0xB820, 1, 0x4, 1, 0x4, .sqc, 0x0, 0, 0x1F⟩]

/-- The registers of page 0xC of the admin space. -/
def regPageC : List RegRow :=
  [⟨0xC000, 20, 0xa0, 1, 0x4, .ro, 0x3E8, 8, 0xFF80FFFF⟩,
   ⟨0xCD20, 1, 0xa0, 1, 0x4, .ro, 0x3E8, 8, 0xFF80FFFF⟩,
   ⟨0xC004, 20, 0xa0, 1, 0x4, .sqc, 0x0, 0, 0xB⟩,
   ⟨0xCD24, 1, 0xa0, 1, 0x4, .sqc, 0x0, 0, 0xB⟩,
   ⟨0xC008, 20, 0xa0, 1, 0x4, .ro, 0x0, 8, 0xF⟩,
   ⟨0xCD28, 1, 0xa0, 1, 0x4, .ro, 0x0, 8, 0xF⟩,
   ⟨0xC00C, 20, 0xa0, 1, 0x4, .ro, 0x0, 0, 0x0⟩,
   ⟨0xCD2C, 1, 0xa0, 1, 0x4, .ro, 0x0, 0, 0x0⟩,
   ⟨0xC010, 20, 0xa0, 1, 0x4, .ro, 0x0, 0, 0x0⟩,
   ⟨0xCD30, 1, 0xa0, 1, 0x4, .ro, 0x0, 0, 0x0⟩,
   ⟨0xC014, 20, 0xa0, 1, 0x4, .ro, 0x0, 0, 0x0⟩,
   ⟨0xCD34, 1, 0xa0, 1, 0x4, .ro, 0x0, 0, 0x0⟩,
   ⟨0xC020, 20, 0xa0, 8, 0x10, .ro, 0x0, 8, 0xFFFFFFFF⟩,
   ⟨0xCD40, 1, 0xa0, 8, 0x10, .ro, 0x0, 8, 0xFFFFFFFF⟩,
   ⟨0xC024, 20, 0xa0, 8, 0x10, .ro, 0x0, 0, 0x0⟩,
   ⟨0xCD44, 1, 0xa0, 8, 0x10, .ro, 0x0, 0, 0x0⟩,
   ⟨0xC028, 20, 0xa0, 8, 0x10, .ro, 0x0, 0, 0x0⟩,
   ⟨0xCD48, 1, 0xa0, 8, 0x10, .ro, 0x0, 0, 0x0⟩,
   ⟨0xC02C, 20, 0xa0, 8, 0x10, .ro, 0x0, 0, 0x0⟩,
   ⟨0xCD4C, 1, 0xa0, 8, 0x10, .ro, 0x0, 0, 0x0⟩]

/-- The registers of page 0xD of the admin space. -/
def regPageD : List RegRow :=
  [⟨0xD800, 64, 0x10, 1, 0x4, .ro, 0x0, 8, 0xE000FFFF⟩,
   ⟨0xD804, 64, 0x10, 1, 0x4, .ro, 0x0, 0, 0x0⟩,
   ⟨0xD808, 64, 0x10, 1, 0x4, .ro, 0x0, 0, 0x0⟩,
   ⟨0xDC00, 8, 0x20, 1, 0x4, .ro, 0x0, 8, 0xC000001F⟩,
   ⟨0xDC04, 8, 0x20, 1, 0x4, .ro, 0x0, 8, 0xFFFFFFFF⟩,
   ⟨0xDC08, 8, 0x20, 1, 0x4, .ro, 0x0, 8, 0xFFFFFFFF⟩,
   ⟨0xDC0C, 8, 0x20, 1, 0x4, .ro, 0x0, 0, 0x0⟩,
   ⟨0xDC10, 8, 0x20, 1, 0x4, .rw, 0x0, 0, 0xFFFFFFFF⟩,
   ⟨0xDC14, 8, 0x20, 1, 0x4, .ro, 0x0, 0, 0x0⟩,
   ⟨0xDE00, 1, 0x4, 1, 0x4, .sqc, 0x0, 0, 0x1F⟩]

/-- The registers of page 0xE of the admin space. -/
def regPageE : List RegRow :=
  [⟨0xE000, 4, 0x20, 1, 0x4, .ro, 0x0, 8, 0xFF80FFFF⟩,
   ⟨0xE004, 4, 0x20, 1, 0x4, .ro, 0x0, 0, 0x0⟩,
   ⟨0xE008, 4, 0x20, 1, 0x4, .ro, 0x0, 0, 0x0⟩,
   ⟨0xE00C, 4, 0x20, 1, 0x4, .rw, 0x0, 0, 0xFFFFFFFF⟩,
   ⟨0xE010, 4, 0x20, 1, 0x4, .ro, 0x0, 0, 0x0⟩,
   ⟨0xE080, 1, 0x4, 1, 0x4, .ro, 0x7FE000, 0, 0x0⟩,
   ⟨0xE084, 1, 0x4, 1, 0x4, .sqc, 0x0, 0, 0x3F⟩,
   ⟨0xE088, 1, 0x4, 1, 0x4, .ro, 0x0, 0, 0x0⟩,
   ⟨0xE090, 1, 0x4, 1, 0x4, .ro, 0x0, 0, 0x0⟩,
   ⟨0xE094, 1, 0x4, 1, 0x4, .ro, 0x0, 0, 0x0⟩,
   ⟨0xE098, 1, 0x4, 1, 0x4, .ro, 0x0, 0, 0x0⟩,
   ⟨0xE09C, 1, 0x4, 1, 0x4, .ro, 0x0, 0, 0x0⟩,
   ⟨0xE0A0, 1, 0x4, 1, 0x4, .ro, 0x0, 0, 0x0⟩,
   ⟨0xE0A4, 1, 0x4, 1, 0x4, .ro, 0x0, 0, 0x0⟩,
   ⟨0xE0B0, 1, 0x4, 1, 0x4, .ro, 0x0, 0, 0x0⟩,
   ⟨0xE100, 8, 0x4, 1, 0x4, .ro, 0x0, 8, 0xFFFFFFFF⟩,
   ⟨0xE200, 1, 0x4, 1, 0x4, .rw, 0x0, 0, 0x7FC07FFF⟩,
   ⟨0xE204, 1, 0x4, 1, 0x4, .ro, 0x0, 0, 0x0⟩,
   ⟨0xE208, 1, 0x4, 1, 0x4, .ro, 0x0, 0, 0x0⟩,
   ⟨0xE400, 64, 0x10, 1, 0x4, .ro, 0x0, 8, 0xFFFFFFFF⟩]
  ++ [⟨0xE404, 64, 0x10, 1, 0x4, .ro, 0x0, 0, 0x0⟩,
   ⟨0xE408, 64, 0x10, 1, 0x4, .ro, 0x0, 0, 0x0⟩,
   ⟨0xE40C, 64, 0x10, 1, 0x4, .ro, 0x0, 0, 0x0⟩]

/-- The registers of page 0xF of the admin space. -/
def regPageF : List RegRow :=
  [⟨0xF000, 1, 0x4, 1, 0x4, .ro, 0x12C, 8, 0xE000FFFF⟩,
   ⟨0xF004, 1, 0x4, 1, 0x4, .ro, 0x0, 8, 0xFFFFFFFF⟩,
   ⟨0xF008, 1, 0x4, 1, 0x4, .ro, 0x0, 8, 0xFFFFFFFF⟩,
   ⟨0xF00C, 1, 0x4, 1, 0x4, .ro, 0x0, 8, 0xFFFFFFFF⟩,
   ⟨0xF010, 1, 0x4, 1, 0x4, .sqc, 0x0, 0, 0xF⟩,
   ⟨0xF014, 1, 0x4, 1, 0x4, .ro, 0x0, 0, 0x0⟩,
   ⟨0xF018, 1, 0x4, 1, 0x4, .ro, 0x0, 0, 0x0⟩,
   ⟨0xF020, 1, 0x4, 1, 0x4, .ro, 0x0, 0, 0x0⟩,
   ⟨0xF024, 1, 0x4, 1, 0x4, .ro, 0x0, 0, 0x0⟩,
   ⟨0xF028, 1, 0x4, 1, 0x4, .ro, 0x0, 0, 0x0⟩,
   ⟨0xF02C, 1, 0x4, 1, 0x4, .ro, 0x0, 0, 0x0⟩,
   ⟨0xF030, 1, 0x4, 1, 0x4, .ro, 0x0, 0, 0x0⟩,
   ⟨0xF034, 1, 0x4, 1, 0x4, .ro, 0x0, 0, 0x0⟩,
   ⟨0xF038, 1, 0x4, 1, 0x4, .ro, 0x0, 0, 0x0⟩,
   ⟨0xF03C, 1, 0x4, 1, 0x4, .ro, 0x0, 0, 0x0⟩,
   ⟨0xF040, 1, 0x4, 1, 0x4, .ro, 0x0, 0, 0x0⟩,
   ⟨0xF044, 1, 0x4, 1, 0x4, .ro, 0x0, 0, 0x0⟩,
   ⟨0xF048, 1, 0x4, 1, 0x4, .ro, 0x0, 0, 0x0⟩,
   ⟨0xF04C, 1, 0x4, 1, 0x4, .ro, 0x0, 0, 0x0⟩,
   ⟨0xF050, 1, 0x4, 1, 0x4, .ro, 0x0, 0, 0x0⟩]
  ++ [⟨0xF060, 1, 0x4, 1, 0x4, .ro, 0x0, 0, 0x0⟩,
   ⟨0xF064, 1, 0x4, 1, 0x4, .rtt, 0x0, 0, 0x0⟩,
   ⟨0xF070, 4, 0x4, 1, 0x4, .ro, 0x0, 0, 0x0⟩,
   ⟨0xF100, 2, 0x40, 1, 0x4, .rw, 0x0, 0, 0x7000FFFF⟩,
   ⟨0xF104, 2, 0x40, 1, 0x4, .ro, 0x0, 0, 0x0⟩,
   ⟨0xF110, 2, 0x40, 1, 0x4, .rw, 0x0, 0, 0xFFFFFFFF⟩,
   ⟨0xF114, 2, 0x40, 1, 0x4, .rw, 0x0, 0, 0x0FFFFFFF⟩,
   ⟨0xF118, 2, 0x40, 1, 0x4, .rw, 0x0, 0, 0x403FFFFF⟩,
   ⟨0xF11C, 2, 0x40, 1, 0x4, .rw, 0x0, 0, 0xFFFF⟩]

/-- The registers of page 0x10 of the admin space. -/
def regPage10 : List RegRow :=
  [⟨0x10000, 24, 0x40, 1, 0x4, .ro, 0x0, 9, 0x7⟩,
   ⟨0x10004, 24, 0x40, 1, 0x4, .ro, 0x0, 0, 0x0⟩,
   ⟨0x10010, 24, 0x40, 1, 0x4, .ro, 0x0, 0, 0x0⟩,
   ⟨0x10014, 24, 0x40, 1, 0x4, .ro, 0x0, 0, 0x0⟩,
   ⟨0x10018, 24, 0x40, 1, 0x4, .ro, 0x0, 0, 0x0⟩,
   ⟨0x1001C, 24, 0x40, 1, 0x4, .ro, 0x0, 0, 0x0⟩,
   ⟨0x10020, 24, 0x40, 1, 0x4, .ro, 0x0, 0, 0x0⟩,
   ⟨0x10024, 24, 0x40, 1, 0x4, .ro, 0x0, 0, 0x0⟩]

/-- The registers of page 0x11 of the admin space. -/
def regPage11 : List RegRow :=
  [⟨0x11000, 1, 0x4, 1, 0x4, .sqc, 0x0, 0, 0x7F⟩,
   ⟨0x11004, 1, 0x4, 1, 0x4, .rw, 0x0, 0, 0x700000FF⟩,
   ⟨0x11008, 1, 0x4, 1, 0x4, .ro, 0x0, 0, 0x0⟩,
   ⟨0x11010, 1, 0x4, 1, 0x4, .ro, 0x0, 0, 0x0⟩,
   ⟨0x11014, 1, 0x4, 1, 0x4, .ro, 0x0, 0, 0x0⟩,
   ⟨0x11018, 1, 0x4, 1, 0x4, .ro, 0x0, 0, 0x0⟩,
   ⟨0x1101C, 1, 0x4, 1, 0x4, .ro, 0x0, 0, 0x0⟩,
   ⟨0x11020, 1, 0x4, 1, 0x4, .ro, 0x0, 0, 0x0⟩,
   ⟨0x11024, 1, 0x4, 1, 0x4, .ro, 0x0, 0, 0x0⟩,
   ⟨0x11028, 1, 0x4, 1, 0x4, .ro, 0x0, 0, 0x0⟩,
   ⟨0x1102C, 1, 0x4, 1, 0x4, .ro, 0x0, 0, 0x0⟩,
   ⟨0x11030, 1, 0x4, 1, 0x4, .ro, 0x0, 0, 0x0⟩,
   ⟨0x11040, 1, 0x4, 1, 0x4, .rtt, 0x0, 0, 0x0⟩,
   ⟨0x11044, 5, 0x4, 1, 0x4, .ro, 0x0, 0, 0x0⟩,
   ⟨0x11080, 32, 0x4, 1, 0x4, .ro, 0x0, 15, 0x1FF⟩,
   ⟨0x11100, 1, 0x4, 1, 0x4, .rw, 0x0, 0, 0x1FF⟩,
   ⟨0x11140, 16, 0x4, 1, 0x4, .ro, 0x0, 0, 0x0⟩]

/-- The registers of page 0x12 of the admin space. -/
def regPage12 : List RegRow :=
  [⟨0x12000, 256, 0x20, 1, 0x4, .ro, 0x0, 15, 0xFFFFFEFF⟩,
   ⟨0x12004, 256, 0x20, 3, 0x4, .ro, 0x0, 15, 0xFFFE00FF⟩,
   ⟨0x12010, 256, 0x20, 1, 0x4, .ro, 0x80000000, 0, 0x0⟩,
   ⟨0x12014, 256, 0x20, 1, 0x4, .ro, 0x0, 0, 0x0⟩,
   ⟨0x12018, 256, 0x20, 1, 0x4, .ro, 0x0, 0, 0x0⟩,
   ⟨0x1201C, 256, 0x20, 1, 0x4, .ro, 0x0, 16, 0xFFFFFE00⟩]

/-- The registers of page 0x13 of the admin space. -/
def regPage13 : List RegRow :=
  [⟨0x12000, 256, 0x20, 1, 0x4, .ro, 0x0, 15, 0xFFFFFEFF⟩,
   ⟨0x12004, 256, 0x20, 3, 0x4, .ro, 0x0, 15, 0xFFFE00FF⟩,
   ⟨0x12010, 256, 0x20, 1, 0x4, .ro, 0x80000000, 0, 0x0⟩,
   ⟨0x12014, 256, 0x20, 1, 0x4, .ro, 0x0, 0, 0x0⟩,
   ⟨0x12018, 256, 0x20, 1, 0x4, .ro, 0x0, 0, 0x0⟩,
   ⟨0x1201C, 256, 0x20, 1, 0x4, .ro, 0x0, 16, 0xFFFFFE00⟩]

/-- The registers of page 0x14 of the admin space. -/
def regPage14 : List RegRow :=
  [⟨0x14000, 1, 0x4, 1, 0x4, .sqc, 0x0, 0, 0x1F⟩,
   ⟨0x14004, 1, 0x4, 1, 0x4, .ro, 0x0, 0, 0x0⟩,
   ⟨0x14008, 1, 0x4, 1, 0x4, .ro, 0x0, 0, 0x0⟩,
   ⟨0x1400C, 1, 0x4, 1, 0x4, .ro, 0x0, 0, 0x0⟩,
   ⟨0x14010, 1, 0x4, 1, 0x4, .ro, 0x0, 15, 0xFFFFFFFF⟩,
   ⟨0x14014, 1, 0x4, 1, 0x4, .rw, 0x0, 0, 0x7000001F⟩,
   ⟨0x14018, 1, 0x4, 1, 0x4, .ro, 0x0, 0, 0x0⟩,
   ⟨0x14020, 1, 0x4, 1, 0x4, .ro, 0x0, 0, 0x0⟩,
   ⟨0x14024, 1, 0x4, 1, 0x4, .ro, 0x0, 0, 0x0⟩,
   ⟨0x14040, 1, 0x4, 1, 0x4, .ro, 0x0, 15, 0xC000001F⟩,
   ⟨0x14044, 1, 0x4, 1, 0x4, .ro, 0x0, 15, 0xFFFFFFFF⟩,
   ⟨0x14048, 1, 0x4, 1, 0x4, .ro, 0x0, 15, 0xFFFFFFFF⟩,
   ⟨0x1404C, 1, 0x4, 1, 0x4, .ro, 0x0, 0, 0x0⟩,
   ⟨0x14050, 1, 0x4, 1, 0x4, .rw, 0x0, 0, 0xFFFFFFFF⟩,
   ⟨0x14100, 32, 0x10, 1, 0x4, .ro, 0x0, 15, 0xE00003FF⟩,
   ⟨0x14104, 32, 0x10, 1, 0x4, .ro, 0x0, 15, 0xFFFFFFFF⟩,
   ⟨0x14108, 32, 0x10, 1, 0x4, .ro, 0x0, 15, 0xFFFFFFFF⟩,
   ⟨0x14400, 32, 0x4, 1, 0x4, .ro, 0x0, 15, 0xE0FFFFFF⟩]

/-- The registers of page 0x15 of the admin space. -/
def regPage15 : List RegRow :=
  [⟨0x15000, 1, 0x4, 1, 0x4, .sqc, 0x0, 0, 0x7FFF⟩,
   ⟨0x15004, 1, 0x4, 1, 0x4, .ro, 0x10000, 2, 0x80FFFFFF⟩,
   ⟨0x15008, 1, 0x4, 1, 0x4, .ro, 0x64, 2, 0x7800FFFF⟩,
   ⟨0x1500C, 1, 0x4, 1, 0x4, .ro, 0x0, 0, 0x0⟩,
   ⟨0x15010, 1, 0x4, 1, 0x4, .ro, 0x0, 0, 0x0⟩,
   ⟨0x15014, 1, 0x4, 1, 0x4, .ro, 0x0, 0, 0x0⟩,
   ⟨0x15018, 1, 0x4, 1, 0x4, .ro, 0x0, 0, 0x0⟩,
   ⟨0x15020, 1, 0x4, 1, 0x4, .ro, 0x0, 0, 0x0⟩,
   ⟨0x15024, 1, 0x4, 1, 0x4, .ro, 0x0, 0, 0x0⟩,
   ⟨0x15028, 1, 0x4, 1, 0x4, .ro, 0x0, 0, 0x0⟩,
   ⟨0x1502C, 1, 0x4, 1, 0x4, .ro, 0x0, 0, 0x0⟩,
   ⟨0x15030, 1, 0x4, 1, 0x4, .ro, 0x0, 0, 0x0⟩,
   ⟨0x15034, 1, 0x4, 1, 0x4, .ro, 0x0, 0, 0x0⟩,
   ⟨0x15038, 1, 0x4, 1, 0x4, .ro, 0x0, 0, 0x0⟩,
   ⟨0x15040, 8, 0x4, 1, 0x4, .ro, 0x0, 0, 0x0⟩,
   ⟨0x15060, 1, 0x4, 1, 0x4, .ro, 0x0, 0, 0x0⟩,
   ⟨0x15100, 32, 0x8, 1, 0x4, .ro, 0x0, 0, 0x0⟩,
   ⟨0x15104, 32, 0x8, 1, 0x4, .ro, 0x0, 0, 0x0⟩,
   ⟨0x15240, 15, 0x40, 1, 0x4, .ro, 0x0, 0, 0x0⟩,
   ⟨0x15244, 15, 0x40, 1, 0x4, .ro, 0x3E8, 0, 0x0⟩]
  ++ [⟨0x15248, 15, 0x40, 1, 0x4, .ro, 0x0, 0, 0x0⟩,
   ⟨0x15260, 15, 0x40, 8, 0x4, .ro, 0x0, 0, 0x0⟩,
   ⟨0x15600, 24, 0x4, 1, 0x4, .ro, 0x1F000000, 9, 0xFFF00000⟩,
   ⟨0x15700, 1, 0x4, 1, 0x4, .rw, 0x0, 0, 0xF001FFF⟩,
   ⟨0x15704, 1, 0x4, 1, 0x4, .ro, 0x0, 0, 0x0⟩]

/-- The registers of page 0x16 of the admin space. -/
def regPage16 : List RegRow :=
  [⟨0x16000, 1, 0x4, 1, 0x4, .sqc, 0x0, 0, 0x3FF⟩,
   ⟨0x16004, 1, 0x4, 1, 0x4, .rwl, 0x40400384, 0, 0xC0FFFFFF⟩,
   ⟨0x16008, 1, 0x4, 1, 0x4, .rwl, 0xF, 0, 0xFFF000F⟩,
   ⟨0x1600C, 1, 0x4, 1, 0x4, .ro, 0x0, 0, 0x0⟩,
   ⟨0x16010, 1, 0x4, 1, 0x4, .ro, 0x0, 0, 0x0⟩,
   ⟨0x16014, 1, 0x4, 1, 0x4, .ro, 0x0, 0, 0x0⟩,
   ⟨0x16020, 1, 0x4, 1, 0x4, .ro, 0x0, 0, 0x0⟩,
   ⟨0x16024, 1, 0x4, 1, 0x4, .ro, 0x0, 0, 0x0⟩,
   ⟨0x16028, 1, 0x4, 1, 0x4, .ro, 0x0, 0, 0x0⟩,
   ⟨0x1602C, 1, 0x4, 1, 0x4, .ro, 0x0, 0, 0x0⟩,
   ⟨0x16030, 1, 0x4, 1, 0x4, .ro, 0x0, 0, 0x0⟩,
   ⟨0x16034, 1, 0x4, 1, 0x4, .ro, 0x0, 0, 0x0⟩,
   ⟨0x16038, 1, 0x4, 1, 0x4, .ro, 0x0, 0, 0x0⟩,
   ⟨0x1603C, 1, 0x4, 1, 0x4, .ro, 0x0, 0, 0x0⟩,
   ⟨0x16040, 4, 0x4, 1, 0x4, .ro, 0x0, 0, 0x0⟩,
   ⟨0x16050, 1, 0x4, 1, 0x4, .ro, 0x0, 0, 0x0⟩,
   ⟨0x16054, 1, 0x4, 1, 0x4, .ro, 0x1, 0, 0x0⟩,
   ⟨0x16060, 1, 0x4, 1, 0x4, .ro, 0x0, 0, 0x0⟩,
   ⟨0x16064, 1, 0x4, 1, 0x4, .ro, 0x0, 0, 0x0⟩,
   ⟨0x16068, 1, 0x4, 1, 0x4, .ro, 0x0, 0, 0x0⟩]
  ++ [⟨0x1606C, 1, 0x4, 1, 0x4, .ro, 0x0, 0, 0x0⟩,
   ⟨0x16084, 15, 0x4, 1, 0x4, .ro, 0x0, 0, 0x0⟩,
   ⟨0x160C0, 16, 0x4, 1, 0x4, .ro, 0x0, 0, 0x0⟩,
   ⟨0x16100, 16, 0x4, 1, 0x4, .ro, 0x0, 0, 0x0⟩,
   ⟨0x16180, 4, 0x20, 8, 0x4, .ro, 0x0, 0, 0x0⟩,
   ⟨0x16300, 17, 0x4, 1, 0x4, .ro, 0x0, 0, 0x0⟩,
   ⟨0x16400, 296, 0x4, 1, 0x4, .ro, 0x0, 0, 0x0⟩,
   ⟨0x16C00, 256, 0x4, 1, 0x4, .ro, 0x0, 0, 0x0⟩]

/-- The registers of page 0x17 of the admin space. -/
def regPage17 : List RegRow :=
  [⟨0x17000, 1, 0x4, 1, 0x4, .sqc, 0x0, 0, 0x3F⟩,
   ⟨0x17004, 1, 0x4, 1, 0x4, .ro, 0x0, 2, 0x80000000⟩,
   ⟨0x17008, 2, 0x4, 1, 0x4, .rw, 0x0, 0, 0x1F⟩,
   ⟨0x17010, 2, 0x10, 1, 0x4, .ro, 0x0, 0, 0x0⟩,
   ⟨0x17014, 2, 0x10, 1, 0x4, .ro, 0x0, 0, 0x0⟩,
   ⟨0x17018, 2, 0x10, 1, 0x4, .ro, 0x0, 0, 0x0⟩,
   ⟨0x1701C, 2, 0x10, 1, 0x4, .ro, 0x0, 0, 0x0⟩,
   ⟨0x17040, 2, 0x20, 4, 0x4, .rw, 0x0, 0, 0xFFF⟩,
   ⟨0x17050, 2, 0x20, 1, 0x4, .ro, 0x0, 2, 0x3⟩,
   ⟨0x17054, 2, 0x20, 1, 0x4, .ro, 0x0, 0, 0x0⟩,
   ⟨0x17100, 32, 0x4, 1, 0x4, .ro, 0x0, 0, 0x0⟩,
   ⟨0x17180, 1, 0x4, 1, 0x4, .ro, 0x0, 0, 0x0⟩,
   ⟨0x17200, 16, 0x40, 1, 0x4, .ro, 0x0, 2, 0xFFFFFFFF⟩,
   ⟨0x17204, 16, 0x40, 1, 0x4, .ro, 0x0, 2, 0xFFFFFFFF⟩,
   ⟨0x17208, 16, 0x40, 1, 0x4, .ro, 0x0, 2, 0xFFFFFFFF⟩,
   ⟨0x1720C, 16, 0x40, 1, 0x4, .ro, 0x0, 2, 0x1FFFFFF⟩,
   ⟨0x17210, 16, 0x40, 1, 0x4, .rw, 0x0, 0, 0xFFFFFFFF⟩,
   ⟨0x17214, 16, 0x40, 1, 0x4, .rw, 0x0, 0, 0xFFFFFFFF⟩,
   ⟨0x17218, 16, 0x40, 1, 0x4, .rw, 0x4, 0, 0xF⟩,
   ⟨0x1721C, 16, 0x40, 1, 0x4, .wo, 0x0, 0, 0x0⟩]
  ++ [⟨0x17220, 16, 0x40, 1, 0x4, .ro, 0x0, 0, 0x0⟩,
   ⟨0x17224, 16, 0x40, 1, 0x4, .ro, 0x0, 0, 0x0⟩,
   ⟨0x17228, 16, 0x40, 1, 0x4, .rw, 0x0, 0, 0xFFFFFFFF⟩,
   ⟨0x1722C, 16, 0x40, 1, 0x4, .ro, 0x0, 0, 0x0⟩,
   ⟨0x17230, 16, 0x40, 1, 0x4, .ro, 0x0, 0, 0x0⟩]

/-- The registers of page 0x18 of the admin space. -/
def regPage18 : List RegRow :=
  [⟨0x18000, 1, 0x4, 1, 0x4, .sqc, 0x0, 0, 0x3⟩,
   ⟨0x18020, 6, 0x20, 1, 0x4, .ro, 0x83C4012C, 2, 0x8FFF0FFF⟩,
   ⟨0x18024, 6, 0x20, 1, 0x4, .ro, 0x0, 0, 0x0⟩,
   ⟨0x18028, 6, 0x20, 1, 0x4, .ro, 0x0, 0, 0x0⟩,
   ⟨0x1802C, 6, 0x20, 1, 0x4, .ro, 0x0, 0, 0x0⟩,
   ⟨0x18030, 6, 0x20, 1, 0x4, .ro, 0x0, 0, 0x0⟩,
   ⟨0x18034, 6, 0x20, 1, 0x4, .ro, 0x0, 0, 0x0⟩,
   ⟨0x18100, 2, 0x20, 1, 0x4, .rw, 0x0, 0, 0xFFFFFFFF⟩,
   ⟨0x18104, 2, 0x20, 1, 0x4, .rw, 0x0, 0, 0xFFFFFFFF⟩,
   ⟨0x18108, 2, 0x20, 1, 0x4, .rw, 0x0, 0, 0xFFFFFFFF⟩,
   ⟨0x1810C, 2, 0x20, 1, 0x4, .rw, 0x0, 0, 0xFFFFFFFF⟩,
   ⟨0x18110, 2, 0x20, 1, 0x4, .rw, 0x0, 0, 0xFFFFFFFF⟩,
   ⟨0x18114, 2, 0x20, 1, 0x4, .rw, 0x0, 0, 0xFFFFFFFF⟩,
   ⟨0x18118, 2, 0x20, 1, 0x4, .wo, 0x0, 0, 0x0⟩,
   ⟨0x1811C, 2, 0x20, 1, 0x4, .ro, 0x0, 0, 0x0⟩,
   ⟨0x18140, 2, 0x4, 1, 0x4, .rw, 0x0, 0, 0x800001FF⟩,
   ⟨0x18150, 1, 0x4, 1, 0x4, .ro, 0x0, 0, 0x0⟩,
   ⟨0x18160, 1, 0x4, 1, 0x4, .ro, 0x0, 2, 0xFFFFFFFF⟩,
   ⟨0x18164, 1, 0x4, 1, 0x4, .ro, 0x0, 2, 0xFFFF⟩,
   ⟨0x18168, 1, 0x4, 1, 0x4, .ro, 0x0, 2, 0x37F⟩]
  ++ [⟨0x1816C, 1, 0x4, 1, 0x4, .ro, 0x1C200, 2, 0x3FFFFF⟩]

/-- The registers of page 0x19 of the admin space. -/
def regPage19 : List RegRow :=
  [⟨0x19000, 1, 0x4, 1, 0x4, .sqc, 0x0, 0, 0xFF⟩,
   ⟨0x19004, 1, 0x4, 1, 0x4, .ro, 0x6050000, 2, 0xFFFF83FF⟩,
   ⟨0x19008, 1, 0x4, 1, 0x4, .ro, 0x6403E8, 2, 0xFFFFFFFF⟩,
   ⟨0x1900C, 1, 0x4, 1, 0x4, .ro, 0x0, 0, 0x0⟩,
   ⟨0x19010, 4, 0x4, 1, 0x4, .ro, 0x0, 0, 0x0⟩,
   ⟨0x19020, 1, 0x4, 1, 0x4, .ro, 0x0, 0, 0x0⟩,
   ⟨0x19024, 1, 0x4, 1, 0x4, .ro, 0x0, 0, 0x0⟩,
   ⟨0x19028, 1, 0x4, 1, 0x4, .ro, 0x0, 0, 0x0⟩,
   ⟨0x19030, 1, 0x4, 1, 0x4, .ro, 0x0, 0, 0x0⟩,
   ⟨0x19034, 1, 0x4, 1, 0x4, .ro, 0x0, 0, 0x0⟩,
   ⟨0x19038, 1, 0x4, 1, 0x4, .ro, 0x0, 0, 0x0⟩,
   ⟨0x1903C, 1, 0x4, 1, 0x4, .ro, 0x0, 0, 0x0⟩,
   ⟨0x19040, 1, 0x4, 1, 0x4, .ro, 0x0, 0, 0x0⟩,
   ⟨0x19044, 1, 0x4, 1, 0x4, .ro, 0x0, 0, 0x0⟩,
   ⟨0x19048, 1, 0x4, 1, 0x4, .ro, 0x0, 0, 0x0⟩,
   ⟨0x1904C, 1, 0x4, 1, 0x4, .ro, 0x0, 0, 0x0⟩,
   ⟨0x19050, 1, 0x4, 1, 0x4, .ro, 0x0, 0, 0x0⟩,
   ⟨0x19060, 1, 0x4, 1, 0x4, .rtt, 0x0, 0, 0x0⟩,
   ⟨0x19064, 10, 0x4, 1, 0x4, .ro, 0x0, 0, 0x0⟩]

/-- The registers of page 0x1A of the admin space. -/
def regPage1A : List RegRow :=
  [⟨0x1A000, 1, 0x4, 1, 0x4, .sqc, 0x0, 0, 0x70⟩,
   ⟨0x1A004, 1, 0x4, 1, 0x4, .ro, 0x0, 0, 0x0⟩,
   ⟨0x1A008, 1, 0x4, 1, 0x4, .ro, 0x18, 2, 0xFF⟩,
   ⟨0x1A010, 1, 0x4, 1, 0x4, .ro, 0x0, 0, 0x0⟩,
   ⟨0x1A014, 1, 0x4, 1, 0x4, .ro, 0x0, 0, 0x0⟩,
   ⟨0x1A018, 1, 0x4, 1, 0x4, .ro, 0x0, 0, 0x0⟩,
   ⟨0x1A01C, 1, 0x4, 1, 0x4, .ro, 0x0, 0, 0x0⟩,
   ⟨0x1A020, 1, 0x4, 1, 0x4, .ro, 0x0, 0, 0x0⟩,
   ⟨0x1A024, 1, 0x4, 1, 0x4, .ro, 0x0, 0, 0x0⟩]

/-- The registers of page 0x1B of the admin space. -/
def regPage1B : List RegRow :=
  [⟨0x1B000, 1, 0x4, 1, 0x4, .sqc, 0x0, 0, 0x1F⟩,
   ⟨0x1B010, 3, 0x8, 1, 0x4, .ro, 0x0, 2, 0x80FFFFFF⟩,
   ⟨0x1B030, 1, 0x4, 1, 0x4, .ro, 0x0, 2, 0x1F⟩,
   ⟨0x1B040, 1, 0x4, 1, 0x4, .ro, 0x0, 0, 0x0⟩,
   ⟨0x1B044, 1, 0x4, 1, 0x4, .ro, 0x0, 0, 0x0⟩,
   ⟨0x1B048, 1, 0x4, 1, 0x4, .ro, 0x0, 0, 0x0⟩,
   ⟨0x1B04C, 1, 0x4, 1, 0x4, .ro, 0x0, 0, 0x0⟩,
   ⟨0x1B050, 1, 0x4, 1, 0x4, .ro, 0x0, 0, 0x0⟩,
   ⟨0x1B060, 1, 0x4, 1, 0x4, .rw, 0x0, 0, 0x7000000F⟩,
   ⟨0x1B064, 1, 0x4, 1, 0x4, .ro, 0x0, 0, 0x0⟩,
   ⟨0x1B100, 6, 0x20, 8, 0x4, .ro, 0x0, 2, 0x8000000F⟩,
   ⟨0x1B200, 16, 0x20, 1, 0x4, .ro, 0x0, 2, 0xE7F0FFFF⟩,
   ⟨0x1B204, 16, 0x20, 1, 0x4, .ro, 0x0, 2, 0xFFFF9FFF⟩,
   ⟨0x1B208, 16, 0x20, 1, 0x4, .ro, 0x0, 2, 0xFFFFFFFF⟩,
   ⟨0x1B20C, 16, 0x20, 1, 0x4, .ro, 0x0, 2, 0xFFFFFFFF⟩,
   ⟨0x1B210, 16, 0x20, 1, 0x4, .ro, 0x0, 0, 0x0⟩,
   ⟨0x1B214, 16, 0x20, 1, 0x4, .rw, 0x0, 0, 0xFFFFFFFF⟩,
   ⟨0x1B800, 256, 0x4, 1, 0x4, .ro, 0x0, 2, 0xFFFFFFFF⟩]

/-- The registers of page 0x1C of the admin space. The reset of MASTER in PMU_CTR_CFG is 0, as the register table of 20_performance_and_debug.md says;
its field map says 0xFF (DESIGN CHOICE, log 155). -/
def regPage1C : List RegRow :=
  [⟨0x1C000, 1, 0x4, 1, 0x4, .ro, 0x0, 2, 0x1⟩,
   ⟨0x1C004, 1, 0x4, 1, 0x4, .rw, 0x0, 0, 0x1⟩,
   ⟨0x1C008, 1, 0x4, 1, 0x4, .rw, 0x0, 0, 0xFFFFFFFF⟩,
   ⟨0x1C00C, 1, 0x4, 1, 0x4, .rw, 0x0, 0, 0xFFFFFFFF⟩,
   ⟨0x1C010, 1, 0x4, 1, 0x4, .ro, 0x0, 2, 0xC0001F1F⟩,
   ⟨0x1C014, 1, 0x4, 1, 0x4, .ro, 0x0, 2, 0xFFFFFFFF⟩,
   ⟨0x1C018, 1, 0x4, 1, 0x4, .ro, 0x0, 2, 0xFFFFFFFF⟩,
   ⟨0x1C01C, 1, 0x4, 1, 0x4, .ro, 0x0, 2, 0xFFFFFFFF⟩,
   ⟨0x1C020, 1, 0x4, 1, 0x4, .ro, 0x0, 0, 0x0⟩,
   ⟨0x1C024, 1, 0x4, 1, 0x4, .rw, 0x0, 0, 0xFFFFFFFF⟩,
   ⟨0x1C028, 1, 0x4, 1, 0x4, .ro, 0x0, 0, 0x0⟩,
   ⟨0x1C100, 64, 0x10, 1, 0x4, .rw, 0x0, 0, 0xFEFFFFFF⟩,
   ⟨0x1C104, 64, 0x10, 1, 0x4, .rw, 0x0, 0, 0xFFFFFFFF⟩,
   ⟨0x1C108, 64, 0x10, 1, 0x4, .rw, 0x0, 0, 0xFFFF⟩]

/-- The registers of page 0x1D of the admin space. -/
def regPage1D : List RegRow :=
  [⟨0x1D000, 1, 0x4, 1, 0x4, .ro, 0x0, 0, 0x0⟩,
   ⟨0x1D004, 1, 0x4, 1, 0x4, .rw, 0x0, 0, 0x777F0003⟩,
   ⟨0x1D008, 1, 0x4, 1, 0x4, .ro, 0x0, 0, 0x0⟩,
   ⟨0x1D00C, 1, 0x4, 1, 0x4, .rw, 0x0, 0, 0xFFFFFFFF⟩,
   ⟨0x1D010, 1, 0x4, 1, 0x4, .rw, 0x0, 0, 0xFFFFFFFF⟩,
   ⟨0x1D014, 1, 0x4, 1, 0x4, .ro, 0x0, 0, 0x0⟩,
   ⟨0x1D018, 1, 0x4, 1, 0x4, .rw, 0x0, 0, 0x77F⟩,
   ⟨0x1D020, 41, 0x4, 1, 0x4, .rw, 0x0, 0, 0xFFFFFFFF⟩,
   ⟨0x1D100, 8, 0x4, 1, 0x4, .ro, 0x0, 0, 0x0⟩,
   ⟨0x1D120, 8, 0x4, 1, 0x4, .wo, 0x0, 0, 0xFFFFFFFF⟩,
   ⟨0x1D140, 1, 0x4, 1, 0x4, .rw, 0x0, 0, 0xF000F⟩]

/-- The registers of page 0x100 of the admin space (every cluster). The reset of MASTER in CLU_PMU_CTR_CFG and CLU_PMU_CCTR_CFG is 0, as in PMU_CTR_CFG
(DESIGN CHOICE, log 155). -/
def regPage100 : List RegRow :=
  [⟨0x0, 1, 0x4, 1, 0x4, .sqc, 0x0, 0, 0x3F⟩,
   ⟨0x4, 1, 0x4, 1, 0x4, .ro, 0x0, 11, 0xFFFF03FF⟩,
   ⟨0x8, 1, 0x4, 1, 0x4, .ro, 0xC80064, 11, 0xFFFFFFFF⟩,
   ⟨0xC, 1, 0x4, 1, 0x4, .rw, 0x0, 0, 0x7BFF7F00⟩,
   ⟨0x10, 1, 0x4, 1, 0x4, .rw, 0x0, 0, 0xFFFF⟩,
   ⟨0x14, 1, 0x4, 1, 0x4, .ro, 0x0, 0, 0x0⟩,
   ⟨0x20, 1, 0x4, 1, 0x4, .ro, 0x0, 0, 0x0⟩,
   ⟨0x24, 1, 0x4, 1, 0x4, .ro, 0x0, 0, 0x0⟩,
   ⟨0x28, 1, 0x4, 1, 0x4, .ro, 0x0, 0, 0x0⟩,
   ⟨0x2C, 1, 0x4, 1, 0x4, .ro, 0x0, 0, 0x0⟩,
   ⟨0x30, 1, 0x4, 1, 0x4, .ro, 0x0, 0, 0x0⟩,
   ⟨0x34, 1, 0x4, 1, 0x4, .ro, 0x0, 0, 0x0⟩,
   ⟨0x40, 1, 0x4, 1, 0x4, .rtt, 0x0, 0, 0x0⟩,
   ⟨0x44, 4, 0x4, 1, 0x4, .ro, 0x0, 0, 0x0⟩,
   ⟨0x60, 1, 0x4, 1, 0x4, .rtt, 0x0, 0, 0x0⟩,
   ⟨0x64, 12, 0x4, 1, 0x4, .ro, 0x0, 0, 0x0⟩,
   ⟨0xC4, 15, 0x4, 1, 0x4, .ro, 0x0, 11, 0x8000FFFF⟩,
   ⟨0x100, 16, 0x40, 8, 0x8, .ro, 0x0, 9, 0xDF07C00F⟩,
   ⟨0x104, 16, 0x40, 8, 0x8, .ro, 0x0, 0, 0x0⟩,
   ⟨0x600, 4, 0x20, 4, 0x4, .ro, 0xFFFF, 9, 0xFFFFFFFF⟩]
  ++ [⟨0x610, 4, 0x20, 1, 0x4, .ro, 0x0, 9, 0xFFFFFFFF⟩,
   ⟨0x614, 4, 0x20, 1, 0x4, .ro, 0x0, 9, 0x3⟩,
   ⟨0x680, 1, 0x4, 1, 0x4, .ro, 0x0, 0, 0x0⟩,
   ⟨0x684, 1, 0x4, 1, 0x4, .ro, 0x0, 0, 0x0⟩,
   ⟨0x700, 1, 0x4, 1, 0x4, .rtt, 0x0, 0, 0x0⟩,
   ⟨0x704, 10, 0x4, 1, 0x4, .ro, 0x0, 0, 0x0⟩,
   ⟨0xD00, 1, 0x4, 1, 0x4, .rw, 0x0, 0, 0xFFFFFFFF⟩,
   ⟨0xD04, 1, 0x4, 1, 0x4, .rw, 0x0, 0, 0xFFFFFFFF⟩,
   ⟨0xE00, 16, 0x20, 4, 0x8, .rw, 0x0, 0, 0xF3FFFFFF⟩,
   ⟨0xE04, 16, 0x20, 4, 0x8, .rw, 0x0, 0, 0x7F⟩,
   ⟨0x800, 16, 0x40, 4, 0x10, .rw, 0x0, 0, 0xFEFFFFFF⟩,
   ⟨0xC00, 16, 0x10, 1, 0x4, .rw, 0x0, 0, 0xFEFFFFFF⟩,
   ⟨0x804, 16, 0x40, 4, 0x10, .rw, 0x0, 0, 0xFFFFFFFF⟩,
   ⟨0xC04, 16, 0x10, 1, 0x4, .rw, 0x0, 0, 0xFFFFFFFF⟩,
   ⟨0x808, 16, 0x40, 4, 0x10, .rw, 0x0, 0, 0xFFFF⟩,
   ⟨0xC08, 16, 0x10, 1, 0x4, .rw, 0x0, 0, 0xFFFF⟩,
   ⟨0xD08, 1, 0x4, 1, 0x4, .ro, 0x0, 2, 0xDF1FFFFF⟩,
   ⟨0xD0C, 1, 0x4, 1, 0x4, .ro, 0x0, 2, 0xFFFFFFFF⟩,
   ⟨0xD10, 1, 0x4, 1, 0x4, .ro, 0x0, 2, 0xFFFFFFFF⟩,
   ⟨0xD14, 1, 0x4, 1, 0x4, .ro, 0x0, 0, 0x0⟩]
  ++ [⟨0xD18, 1, 0x4, 1, 0x4, .rw, 0x0, 0, 0xFFFFFFFF⟩,
   ⟨0xD1C, 1, 0x4, 1, 0x4, .ro, 0x0, 0, 0x0⟩]

/-- The registers of page 0x101 of the admin space (every cluster). -/
def regPage101 : List RegRow :=
  [⟨0x1000, 1, 0x4, 1, 0x4, .ro, 0x0, 11, 0xC01FFFFF⟩,
   ⟨0x1004, 1, 0x4, 1, 0x4, .sqc, 0x0, 0, 0x3F⟩,
   ⟨0x1008, 1, 0x4, 1, 0x4, .ro, 0x0, 0, 0x0⟩,
   ⟨0x100C, 1, 0x4, 1, 0x4, .rw, 0x0, 0, 0x700003FF⟩,
   ⟨0x1010, 1, 0x4, 1, 0x4, .rw, 0x0, 0, 0xFFFFFFFF⟩,
   ⟨0x1014, 1, 0x4, 1, 0x4, .ro, 0x0, 0, 0x0⟩,
   ⟨0x1020, 1, 0x4, 1, 0x4, .ro, 0x0, 0, 0x0⟩,
   ⟨0x1024, 1, 0x4, 1, 0x4, .ro, 0x0, 0, 0x0⟩,
   ⟨0x1028, 1, 0x4, 1, 0x4, .ro, 0x0, 0, 0x0⟩,
   ⟨0x102C, 1, 0x4, 1, 0x4, .ro, 0x0, 0, 0x0⟩,
   ⟨0x1030, 1, 0x4, 1, 0x4, .ro, 0x0, 0, 0x0⟩,
   ⟨0x1034, 1, 0x4, 1, 0x4, .ro, 0x0, 0, 0x0⟩,
   ⟨0x1038, 1, 0x4, 1, 0x4, .ro, 0x0, 0, 0x0⟩,
   ⟨0x103C, 1, 0x4, 1, 0x4, .ro, 0x0, 0, 0x0⟩,
   ⟨0x1040, 1, 0x4, 1, 0x4, .ro, 0x0, 11, 0xFFFFFFFF⟩,
   ⟨0x1044, 1, 0x4, 1, 0x4, .ro, 0x0, 11, 0xFFFFFFFF⟩,
   ⟨0x1048, 1, 0x4, 1, 0x4, .ro, 0x0, 0, 0x0⟩,
   ⟨0x104C, 1, 0x4, 1, 0x4, .rw, 0x0, 0, 0xFFFFFFFF⟩,
   ⟨0x1080, 1, 0x4, 1, 0x4, .rw, 0x0, 0, 0x3FF⟩,
   ⟨0x10A0, 8, 0x4, 1, 0x4, .ro, 0x0, 0, 0x0⟩]
  ++ [⟨0x1200, 32, 0x20, 4, 0x4, .ro, 0x0, 12, 0xFFFFFFFF⟩,
   ⟨0x1210, 32, 0x20, 1, 0x4, .ro, 0x0, 12, 0xFFFFFFFF⟩,
   ⟨0x1214, 32, 0x20, 1, 0x4, .ro, 0x0, 12, 0xFFFFFFFF⟩,
   ⟨0x1218, 32, 0x20, 1, 0x4, .ro, 0x0, 12, 0x800003FF⟩,
   ⟨0x121C, 32, 0x20, 1, 0x4, .sqc, 0x0, 0, 0x80⟩]

/-- The registers of page 0x102 of the admin space (every cluster). -/
def regPage102 : List RegRow :=
  [⟨0x2000, 1, 0x4, 1, 0x4, .sqc, 0x0, 0, 0x7F⟩,
   ⟨0x2004, 1, 0x4, 1, 0x4, .ro, 0x0, 0, 0x0⟩,
   ⟨0x2008, 1, 0x4, 1, 0x4, .ro, 0x0, 0, 0x0⟩,
   ⟨0x2010, 1, 0x4, 1, 0x4, .ro, 0x0, 0, 0x0⟩,
   ⟨0x2014, 1, 0x4, 1, 0x4, .ro, 0x0, 0, 0x0⟩,
   ⟨0x2018, 1, 0x4, 1, 0x4, .ro, 0x0, 0, 0x0⟩,
   ⟨0x201C, 1, 0x4, 1, 0x4, .ro, 0x0, 0, 0x0⟩,
   ⟨0x2020, 1, 0x4, 1, 0x4, .ro, 0x0, 0, 0x0⟩,
   ⟨0x2024, 1, 0x4, 1, 0x4, .ro, 0x0, 0, 0x0⟩,
   ⟨0x2028, 1, 0x4, 1, 0x4, .ro, 0x0, 0, 0x0⟩,
   ⟨0x202C, 1, 0x4, 1, 0x4, .ro, 0x0, 0, 0x0⟩,
   ⟨0x2030, 1, 0x4, 1, 0x4, .ro, 0x0, 0, 0x0⟩,
   ⟨0x2034, 1, 0x4, 1, 0x4, .ro, 0x0, 0, 0x0⟩,
   ⟨0x2080, 16, 0x8, 1, 0x4, .ro, 0x0, 11, 0xFFFFFFF0⟩,
   ⟨0x2084, 16, 0x8, 1, 0x4, .ro, 0x0, 11, 0xFFFF⟩,
   ⟨0x2100, 64, 0x8, 1, 0x4, .ro, 0x0, 11, 0xFFFF⟩,
   ⟨0x2104, 64, 0x8, 1, 0x4, .ro, 0x0, 0, 0x0⟩,
   ⟨0x2400, 256, 0x8, 1, 0x4, .ro, 0x0, 11, 0xFFFF⟩,
   ⟨0x2404, 256, 0x8, 1, 0x4, .ro, 0x0, 0, 0x0⟩,
   ⟨0x2C00, 16, 0x8, 1, 0x4, .ro, 0x0, 11, 0xFF800000⟩]
  ++ [⟨0x2C04, 16, 0x8, 1, 0x4, .ro, 0x0, 0, 0x0⟩]

/-- The registers of page 0x103 of the admin space (every cluster). -/
def regPage103 : List RegRow :=
  [⟨0x3000, 64, 0x20, 1, 0x4, .ro, 0x0, 11, 0xCFFF03FF⟩,
   ⟨0x3004, 64, 0x20, 1, 0x4, .ro, 0x0, 0, 0x0⟩,
   ⟨0x3008, 64, 0x20, 1, 0x4, .ro, 0x0, 0, 0x0⟩,
   ⟨0x3800, 1, 0x4, 1, 0x4, .wo, 0x0, 0, 0x0⟩,
   ⟨0x3804, 1, 0x4, 1, 0x4, .ro, 0x0, 0, 0x0⟩]

/-- The registers of page 0x104 of the admin space (every cluster). -/
def regPage104 : List RegRow :=
  [⟨0x4000, 128, 0x20, 4, 0x4, .rw, 0x0, 0, 0xFFFFFFFF⟩,
   ⟨0x4010, 128, 0x20, 1, 0x4, .wo, 0x0, 0, 0x0⟩,
   ⟨0x4014, 128, 0x20, 1, 0x4, .ro, 0x0, 0, 0x0⟩,
   ⟨0x4018, 128, 0x20, 1, 0x4, .rtt, 0x0, 0, 0x0⟩,
   ⟨0x401C, 128, 0x20, 1, 0x4, .ro, 0x0, 11, 0xFF800000⟩]

/-- The rows of the page that holds an admin offset. Cluster windows are alike: pages 0x100 to 0x15F fold onto 0x100 to 0x10F. -/
def regRows (page : Nat) : List RegRow :=
  match page with
  | 0x0 => regPage0
  | 0x1 => regPage1
  | 0x2 => regPage2
  | 0x3 => regPage3
  | 0x4 => regPage4
  | 0x5 => regPage5
  | 0x6 => regPage6
  | 0x7 => regPage7
  | 0x8 => regPage8
  | 0x9 => regPage9
  | 0xA => regPageA
  | 0xB => regPageB
  | 0xC => regPageC
  | 0xD => regPageD
  | 0xE => regPageE
  | 0xF => regPageF
  | 0x10 => regPage10
  | 0x11 => regPage11
  | 0x12 => regPage12
  | 0x13 => regPage13
  | 0x14 => regPage14
  | 0x15 => regPage15
  | 0x16 => regPage16
  | 0x17 => regPage17
  | 0x18 => regPage18
  | 0x19 => regPage19
  | 0x1A => regPage1A
  | 0x1B => regPage1B
  | 0x1C => regPage1C
  | 0x1D => regPage1D
  | 0x100 => regPage100
  | 0x101 => regPage101
  | 0x102 => regPage102
  | 0x103 => regPage103
  | 0x104 => regPage104
  | _ => []

/-- The page of an admin offset, with the six cluster windows folded onto one (R497). -/
def regPage (off : Nat) : Nat :=
  if 0x100000 ≤ off ∧ off < 0x160000 then 0x100 + off % 0x10000 / 0x1000
  else if off < 0x100000 then off / 0x1000 else 0x1FF

/-- An admin offset relative to what the register rows count from: the cluster window for cluster registers, else zero. -/
def regRel (off : Nat) : Nat := if 0x100000 ≤ off then off % 0x10000 else off

/-- The row of the register at an admin offset, if one is defined there (R498). -/
def regRow (off : Nat) : Option RegRow := (regRows (regPage off)).find? fun r => r.has (regRel off)

/-- The mask of the register at an admin offset: no bit where no register is defined. -/
def regMask (off : Nat) : Nat := match regRow off with | some r => r.mask | none => 0

/-- The bits that an image or a write may set, of a value (R9). -/
def masked (off : Nat) (val : Word) : Word := val &&& BitVec.ofNat 32 (regMask off)

/-- The key under which a register is held: the device-wide lock and peer-mailbox registers are one register whatever
cluster's offset names them (R298, the paragraph before it). -/
def regKey (off : Nat) : Nat :=
  if 0x100000 ≤ off ∧ 0x2400 ≤ off % 0x10000 ∧ off % 0x10000 < 0x2C80 then 0x100000 + off % 0x10000 else off

/-- Whether event e is reserved (R501). -/
def evReserved (e : Nat) : Bool :=
  (26 ≤ e && e ≤ 31) || (152 ≤ e && e ≤ 159) || (172 ≤ e && e ≤ 191) || (202 ≤ e && e ≤ 207) || (218 ≤ e && e ≤ 223) ||
  e == 279 || (285 ≤ e && e ≤ 287) || e == 303 || e ≥ 320

/-- The route code of event e: whether A and S(c) are added to M (R501). -/
def evAlarm (e : Nat) : Bool :=
  e == 1 || e == 5 || (16 ≤ e && e ≤ 18) || e == 23 || e == 294 || e == 299 || (224 ≤ e && e < 272 && e % 8 == 2)

/-- Whether the default route of e has the supervisor of its cluster as a destination (R501). -/
def evSup (e : Nat) : Bool := 224 ≤ e && e < 272 && e % 8 != 2

/-- The reset value of `EVT_ROUTE(e)` (R502). -/
def evRouteReset (e : Nat) : Nat :=
  if evReserved e then 0
  else 0x80000000 + e * 0x100000 + (if evAlarm e then 0x4000 else 0) +
    (if evSup e then 0x80000 + (e - 224) / 8 * 0x10000 else 0)

/-- The base and the page count of block b (R496). -/
def blockBase (b : Nat) : Nat × Nat :=
  match b with
  | 0 => (0x0, 1) | 1 => (0x1000, 1) | 2 => (0x2000, 1) | 3 => (0x3000, 1) | 4 => (0x4000, 1) | 5 => (0x5000, 1)
  | 6 => (0x6000, 1) | 7 => (0x7000, 2) | 8 => (0x9000, 1) | 9 => (0xA000, 1) | 10 => (0xB000, 1) | 11 => (0xC000, 2)
  | 12 => (0xE000, 1) | 13 => (0xF000, 1) | 14 => (0x10000, 1) | 15 => (0x11000, 3) | 16 => (0x14000, 1)
  | 17 => (0x15000, 1) | 18 => (0x16000, 1) | 19 => (0x17000, 1) | 20 => (0x18000, 1) | 21 => (0x19000, 1)
  | 22 => (0x1A000, 1) | 23 => (0x1B000, 1) | 24 => (0x1C000, 1) | 25 => (0x1D000, 1)
  | b => if b < 32 then (0x100000 + (b - 26) * 0x10000, 16) else (0, 0)

/-- The index of the block that holds an admin offset (R496). -/
def blockOf (off : Nat) : Nat :=
  ((List.range 32).find? fun b => (blockBase b).1 ≤ off && off < (blockBase b).1 + (blockBase b).2 * 0x1000).getD 32

/-- The default pool geometry (R171): SIZE in units of 64 bytes at [31:23], COUNT at [15:0]. -/
def poolReset (p : Nat) : Nat :=
  match p with
  | 0 => 4 * 2 ^ 23 + 8192
  | 1 => 16 * 2 ^ 23 + 2048
  | 2 => 32 * 2 ^ 23 + 1024
  | _ => 160 * 2 ^ 23 + 204

/-- Registers whose reset value the spec gives by a rule, and not by a number in the table. -/
def regResetSpecial (off : Nat) : Option Nat :=
  if 0x2000 ≤ off ∧ off < 0x2500 then some (evRouteReset ((off - 0x2000) / 4))
  else if 0x40 ≤ off ∧ off < 0xC0 then
    some ((blockBase ((off - 0x40) / 4)).1 / 0x1000 * 256 + (blockBase ((off - 0x40) / 4)).2)
  else if 0xE000 ≤ off ∧ off < 0xE080 then
    (match off % 0x20 with
     | 0 => some (poolReset ((off - 0xE000) / 0x20))
     | 0xC => some (poolReset ((off - 0xE000) / 0x20) % 65536)
     | _ => none)
  else if off = 0x8 then some (0xB0 + 256 * (if Config.screenExtended then 1 else 0))
  else if off = 0x1A004 then some (Config.ddrStrap.toNat)
  else none

/-- What a register reads as when nothing has written it: its reset value (R10). -/
def regReset (off : Nat) : Word :=
  match regResetSpecial off with
  | some v => BitVec.ofNat 32 v
  | none => (match regRow off with | some r => BitVec.ofNat 32 r.rst | none => 0)

end Sys2Proof.Machine
end

