-- ==== Sys2Proof/Machine/Store.lean ====
section
/-!
DEFINITION. The one sparse store of the model: a list of (key, value) pairs in canonical form (keys strictly rising, no
value equal to what an unlisted key reads as). Registers, memories and every replicated record of the device are held in it.
-/

namespace Sys2Proof.Machine

/-- A sparse store: (key, value) pairs. What an unlisted key reads as is given at each use. -/
abbrev SMap (α : Type) := List (Nat × α)

/-- The value at key k, where an unlisted key reads as `d k`. -/
def SMap.get {α : Type} (d : Nat → α) : SMap α → Nat → α
  | [], k => d k
  | (a, v) :: m, k => if a = k then v else SMap.get d m k

/-- The store with key k removed. -/
def SMap.del {α : Type} : SMap α → Nat → SMap α
  | [], _ => []
  | (a, v) :: m, k => if a = k then SMap.del m k else (a, v) :: SMap.del m k

/-- The store with value v put at key k, listing it whatever it is. -/
def SMap.ins {α : Type} : SMap α → Nat → α → SMap α
  | [], k, v => [(k, v)]
  | (a, u) :: m, k, v => if a = k then (k, v) :: m else if k < a then (k, v) :: (a, u) :: m else (a, u) :: SMap.ins m k v

/-- The store after a write of v at key k, in canonical form: a value that an unlisted key reads as is not listed. -/
def SMap.set {α : Type} [DecidableEq α] (d : Nat → α) (m : SMap α) (k : Nat) (v : α) : SMap α :=
  if v = d k then SMap.del m k else SMap.ins m k v

/-- Keys strictly rising, all of them above `lo` where a bound is given, and no entry equal to the default. -/
def SMap.wfFrom {α : Type} [DecidableEq α] (d : Nat → α) : Option Nat → SMap α → Bool
  | _, [] => true
  | lo, (a, v) :: m => (match lo with | none => true | some b => decide (b < a)) && decide (v ≠ d a) && SMap.wfFrom d (some a) m

/-- The canonical form of a store. -/
def SMap.wf {α : Type} [DecidableEq α] (d : Nat → α) (m : SMap α) : Bool := SMap.wfFrom d none m

/-- The value at key k of a store whose unlisted keys all read as `d`. -/
def SMap.gd {α : Type} (d : α) (m : SMap α) (k : Nat) : α := SMap.get (fun _ => d) m k

/-- The store with every listed value passed through f, in canonical form for a store whose unlisted keys all read as `d`. -/
def SMap.mapD {α : Type} [DecidableEq α] (d : α) (f : Nat → α → α) (m : SMap α) : SMap α :=
  (m.map fun p => (p.1, f p.1 p.2)).filter fun p => p.2 ≠ d

/-- The write at key k of a store whose unlisted keys all read as `d`. -/
def SMap.sd {α : Type} [DecidableEq α] (d : α) (m : SMap α) (k : Nat) (v : α) : SMap α := SMap.set (fun _ => d) m k v

end Sys2Proof.Machine
end

