-- ==== Sys2Proof/Machine/State.lean ====
section
/-!
DEFINITION. The state of the block, as plain data: every register, memory, queue, mode and engine that the spec gives the device,
and the queue of commands that are waiting. Registers live in one sparse store keyed by admin offset (R496); what a rule describes
as a machine of its own (a time state, a thread, a task, a session) is held as a record beside it, and the registers that show it
are computed from it (Machine/View.lean). A default value of a field is its value at reset.
-/

namespace Sys2Proof.Machine

/-! ## Indigo (02_time_and_angle.md) -/

/-- The time states of R31. -/
inductive TimeState where
  | freerun | acquiring | locked | holdover
  deriving DecidableEq, Repr

/-- The angle-clock states of R43. -/
inductive AclkState where
  | disabled | seeking | locked | held | fixed
  deriving DecidableEq, Repr

/-- What Indigo knows of one time source (R30): consecutive good messages, pulses or frames, whether the source is qualified,
when it was last heard (`up`), the time of the last valid IRIG-B frame, missing or invalid frames in a row, its offset in ns (R32), and the
sequence number of the last Sync that was complete. -/
structure SourceState where
  seen : Bool := false
  good : Nat := 0
  qual : Bool := false
  last : Nat := 0
  lastSec : Nat := 0
  missed : Nat := 0
  off : Int := 0
  seq : Option (BitVec 16) := none
  deriving DecidableEq, Repr

/-- The role the BMCA gave a PTP port (R34); `passiveSlave` is the second port of a doubly attached clock on PRP. -/
inductive PtpRole where
  | passive | master | slave | passiveSlave
  deriving DecidableEq, Repr

/-- A two-step Sync waiting for its Follow_Up (R30, R34): sequence number, receive timestamp, correction. -/
structure PtpWait where
  seq : BitVec 16
  rxTs : Nat
  corr : Int
  deriving DecidableEq, Repr

/-- One port of the PTP engine (R34): role, measured link delay (2^-16 ns), the peer-delay exchange under way, the sequence
numbers it sends, the Sync it waits on, and the best Announce heard. -/
structure PtpPort where
  role : PtpRole := .passive
  delay : Int := 0
  pdSeq : BitVec 16 := 0
  pdT1 : Option Nat := none
  syncSeq : BitVec 16 := 0
  annSeq : BitVec 16 := 0
  wait : Option PtpWait := none
  best : Option AnnounceData := none
  bestAt : Nat := 0
  deriving DecidableEq, Repr

/-- A named instant (R46): a device time in units of 2^-16 ns, or a value of an angle clock in units of 2^-32 cycle; for a commit of KIND 0 (R338) the
elapsed time `up` at which it fires, whatever the clocks do. -/
inductive Instant where
  | elapsed (t : Nat)
  | ptp (t : Nat)
  | angle (clk : Nat) (v : Nat)
  deriving DecidableEq, Repr

/-- An armed instant (R48, R504): its period (ns, or 2^-32 cycle), and whether a forward step has passed it (R29). -/
structure ArmedInstant where
  inst : Instant
  period : Nat
  late : Bool
  deriving DecidableEq, Repr

/-- One angle clock (R39-R45). `val` is the angle value in units of 10^-9 of 2^-32 cycle, not wrapped, so that a tick adds
(freq + corr) × 1024 exactly; `freq` is the tracked frequency and `corr` the pull-in correction, in units of 2^-24 Hz. For the
primary and the secondary reference: the run of invalid samples, whether the cycle under way holds one, and the run of qualified
cycles. `phaseBad` counts cycles of phase error above 30 degrees, `heldFrom` is the value at entry to HELD, `holdShown` whether HOLD_EXPIRED has
been set since, `nextC` and `nextK`
name the next evaluation point, and `hist` is the (device time, value) history of R121, newest first. -/
structure AngleClock where
  st : AclkState := .disabled
  val : Nat := 0
  freq : Nat := 0
  corr : Int := 0
  pulling : Bool := false
  src2 : Bool := false
  badPri : Nat := 0
  badSec : Nat := 0
  cycBadPri : Bool := false
  cycBadSec : Bool := false
  qualPri : Nat := 0
  qualSec : Nat := 0
  est : Nat := 0
  phaseBad : Nat := 0
  heldFrom : Nat := 0
  holdShown : Bool := false
  nextC : Nat := 0
  nextK : Nat := 0
  hist : List (Nat × Nat) := []
  deriving DecidableEq, Repr

/-- Indigo's state beside its registers: the time state, the selected source (0 none, 1 PTP, 2 TIN0, 3 TIN1), whether the
time-base PLL is in lock, whether device time came from the always-on counter, the sources, the 10 MHz counts, the PTP ports,
the counts of R31 and R32, the entry time of HOLDOVER and whether HOLD_MAX has passed in it, the step already used in ACQUIRING, what steering has gained below 2^-16 ns (in 10^-12 of it), the commit unit, the general units,
the last boundary each PPS output marked, and the angle clocks. -/
structure Indigo where
  st : TimeState := .freerun
  src : Nat := 0
  pllLock : Bool := true
  restored : Bool := false
  ptp : SourceState := {}
  tin0 : SourceState := {}
  tin1 : SourceState := {}
  ten0 : Bool := false
  ten1 : Bool := false
  gmSel : Bool := false
  ports : SMap PtpPort := []
  lockN : Nat := 0
  disN : Nat := 0
  holdAt : Nat := 0
  holdExp : Bool := false
  stepUsed : Bool := false
  frac : Nat := 0
  commit : Option ArmedInstant := none
  units : SMap (Option ArmedInstant) := []
  pps : SMap Nat := []
  aclk : SMap AngleClock := []
  deriving DecidableEq, Repr

/-! ## Ports, redundancy, parser and classifier (03_ingress_and_classification.md) -/

/-- An entry of a duplicate memory (R66): source MAC, sequence number, when it was made, the frame that made it, whether a classification made it
(or only a pass-through, R68), whether a frame of it has passed through (R68), and the copies marked DUP for it. -/
structure DupEntry where
  src : BitVec 48
  seq : BitVec 16
  at_ : Nat
  fid : Nat
  cls : Bool
  thru : Bool := false
  dups : Nat
  deriving DecidableEq, Repr

/-- A node of a group's node table (R65): its MAC and when it was last heard. -/
structure NodeEntry where
  src : BitVec 48
  at_ : Nat
  deriving DecidableEq, Repr

/-- The preemption verify procedure of a port (R60): attempts made and when the last one was sent. -/
structure VerifyState where
  tries : Nat := 0
  at_ : Nat := 0
  deriving DecidableEq, Repr

/-- A redundancy group's memories (R65, R66): duplicate entries oldest first, nodes, and the last supervision frame sent. -/
structure RedGroup where
  dup : List DupEntry := []
  nodes : List NodeEntry := []
  supAt : Nat := 0
  supSeq : BitVec 16 := 0
  txSeq : BitVec 16 := 0
  deriving DecidableEq, Repr

/-- A slot of a classifier table (R75): 40-byte key, 24-byte result, VALID, and an uncorrectable ECC error (R77). -/
structure ClsSlot where
  valid : Bool := false
  bad : Bool := false
  key : BitVec 320 := 0
  res : BitVec 192 := 0
  deriving DecidableEq, Repr

/-- A record of the stranger log (R84). -/
structure Stranger where
  port : BitVec 5
  kind : BitVec 3
  nameLen : BitVec 8
  appid : BitVec 16
  mac : BitVec 48
  vid : BitVec 12
  digest : BitVec 64
  first : Nat
  last : Nat
  count : Nat
  deriving DecidableEq, Repr

/-- A token bucket (R83, R85): tokens in units of 2^-24, and the device time at which they stood so. `full` marks a bucket that
has not been used since reset or commit and stands at its burst. -/
structure Bucket where
  used : Bool := false
  tok : Nat := 0
  at_ : Nat := 0
  deriving DecidableEq, Repr

/-- What the parser found in a frame (R70-R74). `l` is the frame length of R154, 0 when unknown; `asduAt` is the offset of the
first ASDU, `asduEnd` where the ASDUs end, `apdu` the offset of the APDU. -/
structure Parse where
  reason : Nat := 0
  sub : Nat := 0
  da : BitVec 48 := 0
  sa : BitVec 48 := 0
  vlans : List (BitVec 16) := []
  etype : BitVec 16 := 0
  hsrSeq : Option (BitVec 16) := none
  hsrSize : Nat := 0
  ip4 : Option (BitVec 32 × BitVec 32) := none
  ip6 : Option (BitVec 128 × BitVec 128) := none
  proto : Option (BitVec 8) := none
  l4 : Option (BitVec 16 × BitVec 16) := none
  appid : Option (BitVec 16) := none
  kind : Nat := 0
  dialect : BitVec 8 := 0
  f7 : Bool := false
  simHdr : Bool := false
  name : Option (List Byte) := none
  digest : BitVec 64 := 0
  l : Nat := 0
  appidAt : Nat := 0
  lenField : Nat := 0
  apdu : Nat := 0
  extPresent : Bool := false
  spdu : Word := 0
  stNum : Nat := 0
  sqNum : Nat := 0
  smpCnt : Nat := 0
  noAsdu : Nat := 0
  asduAt : Nat := 0
  asduEnd : Nat := 0
  deriving DecidableEq, Repr

/-- The ports, the redundancy groups and the classifier beside their registers; `strGone` are the stranger records cleared at the `up` of `strGoneAt`
(R83), and `polSet` the port policers that an image has set (R86). -/
structure Ingress where
  verify : SMap VerifyState := []
  groups : SMap RedGroup := []
  slots : SMap ClsSlot := []
  strangers : SMap (Option Stranger) := []
  strBucket : Bucket := {}
  strGone : List Stranger := []
  strGoneAt : Nat := 0
  polSet : SMap Bool := []
  portPol : SMap Bucket := []
  flowPol : SMap Bucket := []
  deriving DecidableEq, Repr

/-! ## Frame authentication (04_frame_authentication.md) -/

/-- One of the two key names of a context (R93): slot and identifier. Identifier 0 names no key. -/
structure KeyName where
  slot : BitVec 13 := 0
  id : Word := 0
  deriving DecidableEq, Repr

/-- A security context (R113): its image words W0, W10 and SALT, its key names, those of the previous epoch, H (none until the
first passing frame, R100), the replay window, the transmit counter, and its counters. -/
structure AutCtx where
  w0 : Word := 0
  w10 : Word := 0
  salt : Word := 0
  keyA : KeyName := {}
  keyB : KeyName := {}
  prevA : KeyName := {}
  prevB : KeyName := {}
  high : Option Nat := none
  window : BitVec 64 := 0
  txCtr : Nat := 0
  passCnt : Word := 0
  failCnt : Word := 0
  lastFail : Nat := 0
  deriving DecidableEq, Repr

/-- The keys a frame is to be verified with, fixed by its epoch stamp (R95): each identifier with the key its slot held, none for a cleared slot. -/
structure KeyStamp where
  epoch : Word := 0
  curA : Option (Word × Option (BitVec 256)) := none
  curB : Option (Word × Option (BitVec 256)) := none
  prevA : Option (Word × Option (BitVec 256)) := none
  prevB : Option (Word × Option (BitVec 256)) := none
  deriving DecidableEq, Repr

/-- AUT beside its registers: the contexts, the key RAM (R93; a cleared slot is none), the end of PREV_HOLD (R96), and the
instants at which each family's receive engine ends the work it has accepted (R102), in units of 2^-16 ns / 15 and of 2^-16 ns / 50. -/
structure Aut where
  ctx : SMap AutCtx := []
  keyRam : SMap (Option (BitVec 256)) := []
  prevUntil : Nat := 0
  prevActive : Bool := false
  busyHmac : Nat := 0
  busyGmac : Nat := 0
  deriving DecidableEq, Repr

/-! ## Sample planes (05_sample_planes.md) -/

/-- The stream states of R118. -/
inductive StreamSt where
  | disabled | waitClock | running | paused
  deriving DecidableEq, Repr

/-- One sample of a stream: its number (S × RATE + smpCnt), smpCnt, instant (2^-16 ns / RATE, so that it is exact), frame, values and
qualities of its channels, SIMULATED of its frame, and the verdict state of its frame (0 pending, 1 passed, 2 failed). -/
structure Sample where
  num : Nat
  smp : Nat
  t : Int
  fid : Nat
  vals : List Int
  quals : List Word
  sim : Bool
  ver : Nat
  deriving DecidableEq, Repr

/-- A sample slot (R119): its sample and the twin held in reserve; the frame of a primary that failed (R131); whether a second copy has come. -/
structure Slot where
  pri : Sample
  twin : Option Sample := none
  failed : Option Nat := none
  second : Bool := false
  deriving DecidableEq, Repr

/-- A stream (R115-R138): its image words W0-W7, its state, the first grid point of its run, the lowest that is not yet written and the next to
fall due (none before its first run), those above the lowest that are written already (R123), the last written grid points with their input
intervals (R129), HEAD, the latched head and evaluation number, the sample slots newest first, its counters, what was recorded at a pause, the
grid points since the last fill mark, and the sample numbers already counted missing. -/
structure Stream where
  w : List Word := []
  st : StreamSt := .disabled
  base : Nat := 0
  next : Option Nat := none
  due : Option Nat := none
  ahead : List Nat := []
  ivs : List (Nat × Int) := []
  head : Word := 0
  evalHead : Word := 0
  evalNum : Word := 0
  lastSmp : Nat := 0
  slots : List Slot := []
  missing : Word := 0
  late : Word := 0
  twin : Word := 0
  shapeFail : Word := 0
  rxConfrev : Word := 0
  rxNch : Nat := 0
  rxSeqLen : Nat := 0
  mark : Nat := 0
  missed : List Nat := []
  deriving DecidableEq, Repr

/-- What is known of a cell beside its word: its grid point, the frames of its taps, those of them that have no verdict yet, the frames
whose failing verdicts retracted it and that no twin has replaced (R110, R131), and the word that a read sees until `wasUntil` (R110). -/
structure CellInfo where
  g : Nat := 0
  fids : List Nat := []
  waits : List Nat := []
  failed : List Nat := []
  was : Word := 0
  wasUntil : Nat := 0
  deriving DecidableEq, Repr

/-- The SPE: streams, plane cells (key cs × 256 + g mod 256), what is known of each, cells with an uncorrectable error, and cells with a
single-bit error that no read and no scrub has met yet (R139). -/
structure Spe where
  streams : SMap Stream := []
  cells : SMap Word := []
  info : SMap CellInfo := []
  ecc : SMap Bool := []
  flip : SMap Bool := []
  deriving DecidableEq, Repr

/-! ## Frames, lanes and the switch core (03, 06) -/

/-- Where a frame is on its way (R145-R153): before its lane, in a stage's queue, with a thread, in a reorder buffer, out of lane l and to be
copied, or done with. -/
inductive FrameLoc where
  | ingress
  | queued (l st : Nat)
  | held (l st : Nat) (t : ThreadId)
  | reorder (l st : Nat)
  | left (l : Nat)
  | gone
  deriving DecidableEq, Repr

/-- A frame inside the device: its ingress (PORT_ID, port timestamp, preempted fragments, arrival of its head, T_head as its port timestamp records
it (R160), and the arrival of the last byte the parser examined, in `up`), the bytes received, its tail, what the parser and the classifier made of it, its key stamp, verdict, lane state, rule-set stamp, lane buffer with the owner on whose behalf it is
held (R175, R180), since when it waits in a stage's queue unless it came there recirculated (R148), the metadata words
W16 and W17 that lane code may change (R226), the bytes that lane code has written (R225), whether the frame is for its ring or node
alone (R68: `thruOnly`, it is neither classified nor judged), the stream, confRev and seqData length of a shape change it carries (R132), and
whether its samples are still to be taken. -/
structure Frame where
  live : Bool := false
  port : Nat := 0
  ts : Nat := 0
  pre : Bool := false
  bytes : List Byte := []
  headAt : Nat := 0
  tHead : Nat := 0
  parsedAt : Nat := 0
  tailAt : Option Nat := none
  fcsBad : Bool := false
  lenBad : Bool := false
  runt : Bool := false
  parse : Option Parse := none
  clsAt : Option Nat := none
  act : Nat := 0
  hit : Nat := 0
  res : List Word := []
  dflt : Bool := false
  dialectRef : Bool := false
  dup : Bool := false
  lan : Bool := false
  dupSeq : Option (BitVec 16) := none
  test : Bool := false
  sim : Bool := false
  shed : Bool := false
  fwdHit : Bool := false
  fwdEgress : Nat := 0
  fwdUser : Nat := 0
  aut : Nat := 0
  authReq : Bool := false
  keys : KeyStamp := {}
  overload : Bool := false
  ext : Option SecExt := none
  verdict : Nat := 0
  verdictAt : Nat := 0
  loc : FrameLoc := .ingress
  entered : Bool := false
  recirc : Bool := false
  epoch : Nat := 0
  enterAt : Nat := 0
  takenAt : Nat := 0
  relAt : Nat := 0
  relDisp : Nat := 0
  byp : Bool := false
  buf : Option Nat := none
  bufBy : Nat := 0
  w16 : Nat := 0
  w17 : Nat := 0
  joinedAt : Option Nat := none
  leftAt : Nat := 0
  exitAt : Nat := 0
  patch : SMap (Option Byte) := []
  hsrDone : Bool := false
  thruOnly : Bool := false
  shape : Option (Nat × Word × Nat) := none
  speDue : Bool := false
  tag : Bool := false
  deriving DecidableEq, Repr

/-- What a queued copy carries. -/
inductive CopyKind where
  | frame | publication | passThrough
  deriving DecidableEq, Repr

/-- A copy in a queue or on the wire: the frame it copies, egress index (0-19, 21, or 64 + host queue), class, Ochre handle and
owner, size, the bytes of its own (a publication, a marked frame), its start point S where it is cut through or signed (R160, R112), until when
CSMA/CD holds it back (R62), when it was queued, when its
transmission started (`up` and device time), the bytes sent before a preemption, whether its FCS is to leave inverted for a failing verdict
(`stomp`, R108), for its length (`cut`, R161) or for an underrun before a preemption (`under`), CSMA/CD attempts (R62), and the sequence number of its redundancy trailer or tag (R64). -/
structure Copy where
  live : Bool := false
  kind : CopyKind := .frame
  fid : Nat := 0
  eg : Nat := 0
  tc : Nat := 0
  buf : Nat := 0
  owner : Nat := 0
  size : Nat := 0
  len : Nat := 0
  own : Option (List Byte) := none
  startAt : Option Nat := none
  backTo : Nat := 0
  queuedAt : Nat := 0
  stomp : Bool := false
  cut : Bool := false
  under : Bool := false
  ecn : Bool := false
  attempts : Nat := 0
  startedAt : Option Nat := none
  doneBytes : Nat := 0
  redSeq : Option (BitVec 16) := none
  startTs : Nat := 0
  deriving DecidableEq, Repr

/-- The transmit opportunities of a segment under PLCA (R61): the node whose opportunity was open at an instant of `up`, none before a BEACON, and
the frames the device has sent in its own. -/
structure PlcaState where
  node : Nat := 0
  at_ : Option Nat := none
  burst : Nat := 0
  deriving DecidableEq, Repr

/-- PAUSE of a port (R163): paused until, paused without a break since, ignoring PAUSE until. -/
structure PauseState where
  until_ : Nat := 0
  since : Option Nat := none
  ignoreUntil : Nat := 0
  deriving DecidableEq, Repr

/-- Lanes and switch core beside their registers: frames and copies by number, the next numbers, the stage input queues
(key 8 l + s, frame numbers), the reorder buffers in entry order, the last exit of each stage, the egress queues (key 8 e + tc,
or 512 + host queue; copy numbers), the copy each egress is sending and the one it has preempted, PAUSE, segments whose PLCA status is FAIL,
the transmit opportunities of the segments, the lane and stage configuration of the rule-set epoch PREV (R152; registers by offset), and when the line of an egress is free after its last frame's gap. -/
structure Packet where
  frames : SMap Frame := []
  nextFrame : Nat := 0
  copies : SMap Copy := []
  nextCopy : Nat := 0
  queues : SMap (List Nat) := []
  rob : SMap (List Nat) := []
  lastExit : SMap Nat := []
  egq : SMap (List Nat) := []
  sending : SMap (Option Nat) := []
  preempted : SMap (Option Nat) := []
  pause : SMap PauseState := []
  plcaFail : SMap Bool := []
  plca : SMap PlcaState := []
  prevLan : SMap Word := []
  lineAt : SMap Nat := []
  deriving DecidableEq, Repr

/-! ## Ochre and the forwarding tables (07_buffers_and_tables.md) -/

/-- A buffer descriptor (R172, OCH_CMD_RES), and whether its ECC is uncorrectable at the next read (R181). -/
structure BufDesc where
  held : Bool := false
  quar : Bool := false
  bad : Bool := false
  owner : Nat := 0
  len : Nat := 0
  deriving DecidableEq, Repr

/-- A pool's free stack (R172, R173): the handles pushed since the pool was built, top first, standing on those of the first
build that were never granted, of which `fresh` have been; quarantined buffers (R181); and when the last shared buffer was granted
(the model's own, for `OCH_CONTEST`, R177). -/
structure PoolStack where
  pushed : List Nat := []
  fresh : Nat := 0
  quar : Nat := 0
  lastShared : Option Nat := none
  deriving DecidableEq, Repr

/-- A slot of the MAC table (R184) and whether its ECC is uncorrectable (R185). -/
structure MacSlot where
  w0 : Word := 0
  w1 : Word := 0
  w2 : Word := 0
  w3 : Word := 0
  bad : Bool := false
  deriving DecidableEq, Repr

/-- Ochre and FWD beside their registers: descriptors by handle, the pools' stacks, MAC slots by INDEX, the learning queue oldest
first (four words a record), the F that the next admission of a fabric cycle sees with the cycle it holds for (R178), when the last sweep visit was
due, and the slots that source lookups hit in the cycle `macHitAt` (R191). -/
structure Pools where
  desc : SMap BufDesc := []
  poolStacks : SMap PoolStack := []
  mac : SMap MacSlot := []
  learn : List (List Word) := []
  cycAt : Option Nat := none
  cycF : Nat := 0
  sweepAt : Nat := 0
  macHits : List Nat := []
  macHitAt : Nat := 0
  deriving DecidableEq, Repr

/-! ## Clusters: threads, channels, dispatcher, locks, mailboxes (08, 09, 11, 12) -/

/-- The thread states of R195; STALLED is READY with `Thread.stall`. -/
inductive ThreadSt where
  | off | idle | ready | waiting | halted | faulted
  deriving DecidableEq, Repr

/-- The privilege levels of R202. -/
inductive Priv where
  | u | k | s
  deriving DecidableEq, Repr

/-- Who holds a lock, fills a channel or waits (R210, R289): a task of a cluster, or a thread by its number 128 c + 8 k + t. -/
inductive Agent where
  | task (cl idx : Nat)
  | thread (tid : Nat)
  deriving DecidableEq, Repr

/-- What a waiting blocking instruction waits for (R209), and the G register it names. -/
inductive WaitFor where
  | recvw (ch : Nat)
  | openw (ch : Nat)
  | lock (kind idx : Nat)
  deriving DecidableEq, Repr

structure Wait where
  what : WaitFor
  ga : Nat
  since : Nat
  deriving DecidableEq, Repr

/-- A coprocessor register: the two binary32 components and whether the parity of each is bad (R244, R258). -/
structure CReg where
  re : Word := 0
  im : Word := 0
  badRe : Bool := false
  badIm : Bool := false
  deriving DecidableEq, Repr

/-- The registers of a thread context (R10 ff., R270): what a switch saves and restores. -/
structure Ctx where
  pc : BitVec 16 := 0
  acc : Acc := 0
  ix0 : Word := 0
  ix1 : Word := 0
  g : Vector Word 8 := Vector.replicate 8 0
  ls : Vector (BitVec 16) 4 := Vector.replicate 4 0
  le : Vector (BitVec 16) 4 := Vector.replicate 4 0
  lc : Vector (BitVec 16) 4 := Vector.replicate 4 0
  c : Vector CReg 8 := Vector.replicate 8 {}
  taint : Bool := false
  mark : Bool := false
  deriving DecidableEq, Repr

/-- Where a result computed beside the pipe goes (R200): ACC as 40 bits, a G register, or an index register. -/
inductive Dest where
  | acc
  | g (i : Fin 8)
  | ix (i : Fin 2)
  deriving DecidableEq, Repr

/-- A result pending beside the pipe (R200). `ecc` is a load that met an uncorrectable word (R205): its data address, PC and
instruction word are kept for the fault record. `busyUnit` is a DIV or SQRT, which occupy the core's unit. `ready` is false while
a coprocessor command has still to produce the value; `tag` names that command. `crc` is a result of the CRC unit, which a further CRCM
chains from (R238); `smp` is the result that retires a sampled instruction (R461). -/
structure PendResult where
  dest : Dest
  val : BitVec 40
  ecc : Bool := false
  addr : Word := 0
  pc : BitVec 16 := 0
  iw : PWord := 0
  busyUnit : Bool := false
  ready : Bool := true
  tag : Nat := 0
  crc : Bool := false
  smp : Bool := false
  deriving DecidableEq, Repr

/-- A store in a store buffer (R200, R286): where it goes (cluster SRAM of a cluster, by byte address) and its bytes. -/
structure BufStore where
  cl : Nat
  addr : Nat
  bytes : List Byte
  deriving DecidableEq, Repr

/-- What a STALLED instruction waits for (R195): a result pending for one of its destinations or its busy unit (R200), n entries of the store
buffer (R200), packet bytes up to an offset (R225), the verdict of its packet (R107), a free command entry (R247), or the outstanding
commands and faulting loads of its thread (R257, R270). -/
inductive StallOn where
  | operand (ds : List Dest) | unit | buffer (n : Nat) | bytes (n : Nat) | verdict | queue | drain
  deriving DecidableEq, Repr

/-- What a thread is halted by, if it is (R214, R468). -/
inductive HaltWhy where
  | debug | breakpoint
  deriving DecidableEq, Repr

/-- A thread: its state, context, direct page, task, level, the instruction words its fetch stage holds (R218), the results
pending beside its pipe oldest first, its store buffer oldest first, its wait, the packet it holds, since when it is idle, IE and
since when it is masked (supervisor), whether R149 took its packet, the state it was halted in and why, whether it runs a single step,
when it faulted, the task coming in (R267), whether the task is to leave (R268), its staging slot (R271), the task that left it and why
(R279), whether it has just been resumed from a breakpoint, what its next instruction was last found STALLED on, since when (R195), and the issue
slots it has used since the last tick (R457). -/
structure Thread where
  st : ThreadSt := .off
  ctx : Ctx := {}
  dp : SMap Word := []
  task : Option Nat := none
  priv : Priv := .u
  fetched : Option (PWord × PWord) := none
  pend : List PendResult := []
  sb : List BufStore := []
  wait : Option Wait := none
  packet : Option Nat := none
  idleAt : Nat := 0
  ie : Bool := false
  maskAt : Option Nat := none
  overrun : Bool := false
  haltedIn : ThreadSt := .ready
  haltWhy : HaltWhy := .debug
  stepping : Bool := false
  faultAt : Nat := 0
  incoming : Option Nat := none
  leaving : Bool := false
  staged : Option Nat := none
  outTask : Option Nat := none
  outReason : Nat := 0
  bpSkip : Bool := false
  stall : Option (StallOn × Nat) := none
  slots : Nat := 0
  deriving DecidableEq, Repr

/-- The task states of R262. -/
inductive TaskSt where
  | disabled | dormant | ready | running | waiting | blocked | halted | faulted
  deriving DecidableEq, Repr

/-- One entry of a provisional-read record (R276): a stream with the lowest and the highest grid point read. -/
structure ProvRead where
  stream : Nat
  lo : Nat
  hi : Nat
  deriving DecidableEq, Repr

/-- A retraction event as a task receives it (R110, R276). -/
structure Retraction where
  code : Nat
  stream : Nat
  firstSmp : Nat
  lastSmp : Nat
  firstG : Nat
  lastG : Nat
  deriving DecidableEq, Repr

/-- A task control block (R261, R280): the image words W0-W3, its state and flags, the thread it holds, its provisional-read
record, its counters, the budget count in core cycles, the causes and auxiliary word of the run that is due, what the next run
descriptor must say, its saved context with the saved direct-page words, those of its last normal end (R275), and the wait of a
BLOCKED task. -/
structure Task where
  w0 : Word := 0
  w1 : Word := 0
  w2 : Word := 0
  w3 : Word := 0
  st : TaskSt := .disabled
  pend : Bool := false
  retrPend : Bool := false
  ovr : Bool := false
  thread : Nat := 0
  any : Bool := false
  reads : List ProvRead := []
  runs : Word := 0
  usedLast : Nat := 0
  usedMax : Nat := 0
  lastStart : Nat := 0
  used : Nat := 0
  inRun : Bool := false
  causes : Nat := 0
  aux : Word := 0
  pendCauses : Nat := 0
  pendAux : Word := 0
  lost : Bool := false
  prevOvr : Bool := false
  retr : Option Retraction := none
  merged : Bool := false
  ctx : Ctx := {}
  dpSaved : SMap Word := []
  endCtx : Ctx := {}
  endDp : SMap Word := []
  wait : Option Wait := none
  segStart : Nat := 0
  deriving DecidableEq, Repr

/-- The channel states of R210. -/
inductive ChanSt where
  | empty | filling | held | full
  deriving DecidableEq, Repr

/-- A channel (R210): state, words, length, taint and mark of the message, its filler, and the waiters
of RECVW and OPENW in the order they began to wait. -/
structure Chan where
  st : ChanSt := .empty
  words : Vector Word 4 := Vector.replicate 4 0
  len : Nat := 0
  taint : Bool := false
  prov : Bool := false
  filler : Option Agent := none
  rxWait : List Agent := []
  txWait : List Agent := []
  deriving DecidableEq, Repr

/-- A lock (R287-R292): holder, ABANDONED, STUCK, and the queue of waiters, head first. -/
structure Lock where
  holder : Option Agent := none
  abandoned : Bool := false
  stuck : Bool := false
  queue : List Agent := []
  deriving DecidableEq, Repr

/-- A host or peer mailbox (R293-R297): flags, sequence, collisions, message, the sending side's staging words and the receiving
side's take shadow. -/
structure Mailbox where
  full : Bool := false
  coll : Bool := false
  lost : Bool := false
  mseq : BitVec 8 := 0
  collCnt : Nat := 0
  msg : Vector Word 4 := Vector.replicate 4 0
  stage : Vector Word 4 := Vector.replicate 4 0
  take : Vector Word 4 := Vector.replicate 4 0
  deriving DecidableEq, Repr

/-- A wait group of a deadlock monitor (R212, R213): since when every member has been blocked-internal, whether its record is
posted and when, whether DL_ESC has been made pending, and the episode number. -/
structure WaitGroup where
  since : Option Nat := none
  posted : Option Nat := none
  esc : Bool := false
  episode : Nat := 0
  deriving DecidableEq, Repr

/-- A history fetch unit (R450). -/
structure FetchUnit where
  w0 : Word := 0
  w1 : Word := 0
  w2 : Word := 0
  w3 : Word := 0
  status : Nat := 0
  deriving DecidableEq, Repr

/-- The clusters: threads (128 c + 8 k + t), tasks (1024 c + i), ready lists (32 c + priority; task indexes), timers (32 c + u),
channels (64 c + i), local locks (64 c + i), global locks, mailboxes (host m; 128 + peer p), SRAM bytes (2^21 c + address) and
words with an uncorrectable error (8-byte units), program memory (2^16 j + address) and its bad words, fault and deadlock queues,
wait groups (16 c + g), history fetch units (8 c + f), and clusters whose reset has not completed. -/
structure Clusters where
  thr : SMap Thread := []
  tasks : SMap Task := []
  ready : SMap (List Nat) := []
  timers : SMap (Option ArmedInstant) := []
  chans : SMap Chan := []
  llocks : SMap Lock := []
  glocks : SMap Lock := []
  mbox : SMap Mailbox := []
  sram : SMap Byte := []
  sramBad : SMap Bool := []
  pmem : SMap PWord := []
  pmemBad : SMap Bool := []
  fltq : SMap (List (List Word)) := []
  dlq : SMap (List (List Word)) := []
  groups : SMap WaitGroup := []
  fetch : SMap FetchUnit := []
  resetting : SMap Bool := []
  deriving DecidableEq, Repr

/-! ## The phasor coprocessor (10_phasor_coprocessor.md) -/

/-- A command of a coprocessor queue (R246-R255): its thread (128 c + 8 k + t), CPOP and fields, the value its G register held at
issue, its place in issue order, whether it has started or was squashed, the values it computed, and the C register whose parity
was found bad. -/
structure CpxCmd where
  live : Bool := false
  tid : Nat := 0
  cpop : Nat := 0
  cd : Nat := 0
  ca : Nat := 0
  cb : Nat := 0
  gs : Nat := 0
  m : Nat := 0
  gval : Word := 0
  order : Nat := 0
  started : Bool := false
  squashed : Bool := false
  res : List Word := []
  badReg : Option Nat := none
  pc : BitVec 16 := 0
  iw : PWord := 0
  smp : Bool := false
  deriving DecidableEq, Repr

/-- The coprocessor queues beside their registers: commands by key 16 × core + tag (cores 0-95), and the next issue number. -/
structure Cpx where
  cmds : SMap CpxCmd := []
  nextOrder : Nat := 0
  deriving DecidableEq, Repr

/-! ## Vermilion and field I/O (13_trip_voter_and_field_io.md) -/

/-- An input slot of a voter channel (R301-R304): value (0 ABSENT, 1 NOTRIP, 2 TRIP), provisional mark, the evaluation number it
was taken under, whether the slot is FAILED, and the strobes for which it has held no decision. -/
structure VrmSlot where
  val : Nat := 0
  prov : Bool := false
  evalNo : Nat := 0
  failed : Bool := false
  absent : Nat := 0
  deriving DecidableEq, Repr

/-- A voter channel (R305, R307): state (0 IDLE, 1 TRIPPED, 2 DISABLED), BLOCKED, PROV_TRIP, strobes since entry to TRIPPED,
slots, the run of strobes with disagreement. -/
structure VrmChan where
  st : Nat := 2
  blocked : Bool := false
  provTrip : Bool := false
  hold : Nat := 0
  s0 : VrmSlot := {}
  s1 : VrmSlot := {}
  s2 : VrmSlot := {}
  disRun : Nat := 0
  deriving DecidableEq, Repr

/-- A publishing control block (R308-R310): image words W0-W3 and W8-W15, template, stNum, sqNum, counters, the member values last
published, and the schedule: the interval to the next transmission and the time of the last one (units of 2^-16 ns). -/
structure Pcb where
  w0 : Word := 0
  w1 : Word := 0
  w2 : Word := 0
  w3 : Word := 0
  mem : List Word := []
  tmpl : List Byte := []
  stNum : Nat := 0
  sqNum : Nat := 0
  sent : Word := 0
  lost : Word := 0
  lostAt : Word := 0
  vals : Nat := 0
  interval : Nat := 0
  lastAt : Nat := 0
  deriving DecidableEq, Repr

/-- A hardwired output (R312-R314): asserted, when it was asserted, whether a timed fire has made it ready, until when ARM_CH's hold arms it, and until when FIO_CMD ARM arms it. -/
structure FioOut where
  on : Bool := false
  onAt : Nat := 0
  ready : Bool := false
  armUntil : Nat := 0
  testArm : Option Nat := none
  deriving DecidableEq, Repr

/-- A contact input (R316, R317): accepted level, CHATTER, the times of the changes accepted within CHAT_WIN. -/
structure FioIn where
  level : Bool := false
  chatter : Bool := false
  changes : List Nat := []
  deriving DecidableEq, Repr

/-- Vermilion and field I/O beside their registers: channels, PCBs, disagreement records oldest first, inputs, outputs, the SOE
entry sequence. -/
structure Voter where
  chans : SMap VrmChan := []
  pcbs : SMap Pcb := []
  disq : List (List Word) := []
  ins : SMap FioIn := []
  outs : SMap FioOut := []
  soeSeq : Nat := 0
  deriving DecidableEq, Repr

/-! ## Configuration (14_configuration_images.md) -/

/-- A record of a section (R324): the section type it stood in, RKIND, CLASS, TARGET and the payload words. -/
structure Rec where
  sect : Nat
  rkind : Nat
  cls : Nat
  target : Nat
  words : List Word
  deriving DecidableEq, Repr

/-- A part of the shadow (R332): KIND, PART, format, the root it
was verified against, VERSION, measurement, whether it was encrypted, ENV_DIGEST, its records. -/
structure ImgPart where
  kind : Nat
  part : Nat
  format : Nat
  root : Nat
  version : Nat
  meas : BitVec 256
  encrypted : Bool
  recs : List Rec
  deriving DecidableEq, Repr

/-- Who acts (R334): the boot engine, the device itself, or the session of a management port with its credential slot and role. -/
inductive Actor where
  | engine
  | device
  | port (n : Nat)
  deriving DecidableEq, Repr

/-- The staging buffer (R334): who loads it, the role and partitions the loader had, and the bytes so far. -/
structure Staging where
  by_ : Actor
  bytes : List Byte
  deriving DecidableEq, Repr

/-- The envelope of a partition (R326) in force: its record words, empty when none; `derived` marks one of R329, which names no credential. -/
structure Envelope where
  w : List Word := []
  derived : Bool := false
  deriving DecidableEq, Repr

/-- The requested state and mismatch bookkeeping of a unit (R355-R358): what REQUEST asked and is not yet applied, what requests
have applied (for partitions and tiles, where no EN bit shows it), the MODE that a request for OFF has replaced, since when EFF fails to match,
and MISMATCH. -/
structure UnitReq where
  pendReq : Option Nat := none
  req : Nat := 0
  saved : Nat := 0
  since : Option Nat := none
  mismatch : Bool := false
  deriving DecidableEq, Repr

/-- A partition beside its registers (R344-R349): when its draining began, and the state it shows. -/
structure Part where
  st : Nat := 0
  drainAt : Nat := 0
  deriving DecidableEq, Repr

/-- The shadow's state (R333). -/
inductive ShadowSt where
  | none | staged | checked | armed
  deriving DecidableEq, Repr

/-- The CFG block beside its registers: staging buffer, an image in verification, the shadow (device part, epoch part, partition
parts by number, partitions to remove), its state, the commit armed, by whom and in
which role (0 ADMIN or the device, p OWNER of partition p), whether preload has completed, a check under way,
the program words, classifier entries and static MAC entries of the retained copy (R352; every other part of it equals what the state holds), the VERSION of the applied epoch
image, retirements staged, when the last commit struck and the tiles whose program memory it wrote (R242), partitions, envelopes in force, unit requests, tiles whose self-test runs and when SPARE tiles were last
tested, the errors of each tile in the last second, the last repair of each scrubber domain, the domains that the sweep under way has
checked, and when the device last tried to arm a commit itself. -/
structure Cfg where
  staging : Option Staging := none
  verifying : Option Staging := none
  dev : Option ImgPart := none
  epoch : Option ImgPart := none
  parts : SMap (Option ImgPart) := []
  removes : List Nat := []
  shadow : ShadowSt := .none
  armBy : Option Actor := none
  armRole : Nat := 0
  preloaded : Bool := false
  checking : Option Actor := none
  prog : SMap PWord := []
  retCls : SMap ClsSlot := []
  retMac : SMap MacSlot := []
  epochVersion : Nat := 0
  retires : List Nat := []
  wroteAt : Nat := 0
  wrote : List Nat := []
  part : SMap Part := []
  env : SMap Envelope := []
  units : SMap UnitReq := []
  bist : List Nat := []
  bistAt : Nat := 0
  errs : SMap (List Nat) := []
  fixAt : SMap Nat := []
  swept : List Nat := []
  autoAt : Option Nat := none
  deriving DecidableEq, Repr

/-! ## Sable (16_security.md) -/

/-- A credential slot (R387): type, role, ports, salt, the 256-bit key. -/
structure Cred where
  loaded : Bool := false
  typ : Nat := 0
  role : Nat := 0
  ports : Nat := 0
  salt : List Byte := []
  key : List Byte := []
  deriving DecidableEq, Repr

/-- A debug grant (R394, R395): when it ends (device now, 2^-16 ns). -/
structure Grant where
  active : Bool := false
  control : Bool := false
  jtag : Bool := false
  session : Bool := false
  until_ : Nat := 0
  sinceCommit : Bool := false
  deriving DecidableEq, Repr

/-- A package in check (R385): the port it came on, and its bytes. -/
structure PkgJob where
  by_ : Actor
  cmd : Nat
  bytes : List Byte
  deriving DecidableEq, Repr

/-- An attestation request in the FIFO (R379): its port, its nonce, and what the fuses that it may blow read back as (R376), in order. -/
structure AttReq where
  port : Nat
  nonce : List Byte
  fuse : List Bool
  deriving DecidableEq, Repr

/-- One-time-programmable storage (R372): what has been blown or written since manufacture. `kill` and the fuses only ever go from
unblown to blown. -/
structure Otp where
  kill : Bool := false
  blocks : SMap Bool := []
  rootValid : BitVec 4 := 0
  rootRevoked : BitVec 4 := 0
  rootDig : SMap (BitVec 256) := []
  deriving DecidableEq, Repr

/-- Sable beside its registers (R372): OTP, the current index block with its next position, the skip mask, whether the traversal
state is held, the signature under way, the FIFO, the start of the last signature, credentials, grants, a package in check. -/
structure Sable where
  otp : Otp := {}
  block : Option Nat := none
  pos : Nat := 0
  skip : SMap Bool := []
  traversal : Bool := false
  signing : Option (AttReq × Nat × List Byte) := none
  fifo : List AttReq := []
  lastSig : Option Nat := none
  lowRaised : Bool := false
  tripped : Bool := false
  creds : SMap Cred := []
  grants : SMap Grant := []
  job : Option PkgJob := none
  deriving DecidableEq, Repr

/-! ## PCI Express and management (17_host_interface_and_management.md) -/

/-- A DMA channel beside its registers (R404-R406): the queue served last, the token bucket of DIR 1, the first completion not yet
signalled, when it last signalled. -/
structure Dma where
  lastQ : Nat := 0
  tok : Bucket := {}
  unsig : Option Nat := none
  sigAt : Option Nat := none
  deriving DecidableEq, Repr

/-- An MSI-X vector (R421): masked, pending. -/
structure MsixVec where
  masked : Bool := true
  pba : Bool := false
  deriving DecidableEq, Repr

/-- A management frame as received (R416). -/
structure MgtFrame where
  cmd : Nat
  seq : Nat
  sid : Word
  part : Nat
  payload : List Byte
  deriving DecidableEq, Repr

/-- A session (R412-R414): its identifier, slot, role, version, key, last SEQ and stored response, consecutive BAD_TAGs, when its
last command came, and the address its requests come from (port 2). -/
structure Session where
  sid : Word
  slot : Nat
  role : Nat
  ver : Nat
  key : List Byte
  seq : Nat := 0
  stored : List Byte := []
  badTags : Nat := 0
  lastAt : Nat := 0
  src : BitVec 48 := 0
  deriving DecidableEq, Repr

/-- A pending opening (R412): SID, slot, version, the nonces and the offer, and when it was made. -/
structure Opening where
  sid : Word
  slot : Nat
  ver : Nat
  np : List Byte
  nd : List Byte
  vers : List Byte
  at_ : Nat
  deriving DecidableEq, Repr

/-- A frame being assembled from units (R411): the next index, the bytes so far, when its first unit came, its source. -/
structure Partial where
  next : Nat
  bytes : List Byte
  at_ : Nat
  src : BitVec 48
  deriving DecidableEq, Repr

/-- A management port (R410-R418): the open session, the pending opening, the frame that waits for its command, the command in
execution, the frame being assembled, AUTH_FAILs in a row, locked out until, response units ready (SMBus). -/
structure MgtPort where
  sess : Option Session := none
  opening : Option Opening := none
  frame : Option MgtFrame := none
  busy : Option MgtFrame := none
  asm : Option Partial := none
  fails : Nat := 0
  lockedUntil : Option Nat := none
  rspUnits : List (List Byte) := []
  frameSrc : BitVec 48 := 0
  deriving DecidableEq, Repr

/-- PCI Express and management beside their registers: links up, functions in D3hot, DMA channels, MSI-X vectors (key
1024 link + 512 pf + vector), management ports. -/
structure HostIf where
  d3hot : SMap Bool := []
  dma : SMap Dma := []
  msix : SMap MsixVec := []
  ports : SMap MgtPort := []
  deriving DecidableEq, Repr

/-! ## The pair link (18_pair_link.md) -/

/-- The pair link beside its registers (R424-R437): since when each lane holds block lock, HELLO received, the sequence numbers taken
and sent, the last heartbeat of the partner with the `up` of its receipt, its receipt by device time, when the heartbeat interval under way began, misses in a row, offsets above TIME_THR in a row, whether the
delay and the clocks were last within bounds, credits per class (bytes), and when each class last spent credit. -/
structure Pair where
  lane0 : Bool := false
  lane1 : Bool := false
  helloSent : Bool := false
  helloSeen : Option (Bool × Bool) := none
  voteSeq : BitVec 16 := 0
  mbxSeq : BitVec 16 := 0
  hbSeq : BitVec 16 := 0
  rxMbx : List (BitVec 16) := []
  rxHb : List (BitVec 16) := []
  rxVote : List (BitVec 16) := []
  helloAt : Nat := 0
  hbAt : Nat := 0
  lastHb : Option (Heartbeat × Nat) := none
  lastRx : Nat := 0
  missFrom : Nat := 0
  miss : Nat := 0
  offRun : Nat := 0
  credit : SMap Nat := []
  spentAt : SMap Nat := []
  deriving DecidableEq, Repr

/-! ## DRAM and the recorder (19_memory_and_recording.md) -/

/-- A disturbance record under way (R451-R453): slot, trigger time, g_t, TRIG_SRC, what the header holds of the trigger, the cycle of the
trigger (`up`), and HIST_GAP. -/
structure RecJob where
  slot : Nat
  time : Nat
  gt : Nat
  src : Nat
  ins : Word
  outs : Word
  chans : List Word
  tq : Nat
  at_ : Nat
  gap : Bool
  deriving DecidableEq, Repr

/-- A recording set beside its registers: the record under way, the slot written next is REC_SET_WR. -/
structure RecSet where
  job : Option RecJob := none
  deriving DecidableEq, Repr

/-- DRAM and the recorder beside their registers: bytes, uncorrectable lines, readings at or below 85 degrees in a row since HOT,
recording sets, the lowest grid point in each channel-stream's history ring and the next to be copied, and rings disabled by
placement (R447: keys 0-15 capture, 16-21 trace, 22 SOE, 23-28 sample, 29 tag), until when a refresh holds every access (R444), and the records
that wait in the FIFO of each ring, oldest first (R165, R279, R319, R463). -/
structure Dram where
  mem : SMap Byte := []
  bad : SMap Bool := []
  cool : Nat := 4
  sets : SMap RecSet := []
  histLo : SMap Nat := []
  histHi : SMap Nat := []
  ringOff : SMap Bool := []
  busyTo : Nat := 0
  fifo : SMap (List (List Byte)) := []
  deriving DecidableEq, Repr

/-! ## Performance monitoring and debug (20_performance_and_debug.md) -/

/-- The instruction sampler of a cluster (R461): eligible issues counted, the count at which the next is selected, and the
sample outstanding: issue time (up and nanoseconds), thread, and words 0-2 of its record with the stall fields of word 3. -/
structure Sampler where
  count : Nat := 0
  target : Option Nat := none
  out : Option (Nat × Nat × List Word) := none
  deriving DecidableEq, Repr

/-- A tagged frame's record in the making (R462): lane, entry stage, end code, whether the frame has left, its lowest egress, times after the port timestamp (ns) by word. -/
structure TagRec where
  lane : Nat := 0
  stage : Nat := 0
  ending : Nat := 0
  done : Bool := false
  low : Option Nat := none
  times : SMap Nat := []
  deriving DecidableEq, Repr

/-- Performance monitoring and debug beside their registers: samplers by cluster, the parser LFSR of each port, tag records by
2 × frame + pass, JTAG's binding, failures in a row, lock-out, the data DBGACC captured, the nonce number, the boundary register, and what drives the balls (0 the blocks, 1 EXTEST, 2 CLAMP,
3 HIGHZ). -/
structure Dbg where
  samplers : SMap Sampler := []
  lfsr : SMap Word := []
  tags : SMap TagRec := []
  bound : Option Nat := none
  boundAdmin : Bool := false
  fails : Nat := 0
  lockedUntil : Option Nat := none
  captured : Word := 0
  nonce : Nat := 0
  boundary : Nat := 0
  tap : Nat := 0
  deriving DecidableEq, Repr

/-! ## Power, reset and boot (21_power_reset_and_package.md) -/

/-- The device states of R12, coded as R396 codes them. -/
inductive DevState where
  | cold | boot | config | test | service | recovery | safe
  deriving DecidableEq, Repr

/-- Where the boot engine is (R489). -/
inductive BootPhase where
  | idle
  | directory
  | entry (i : Nat)
  | check
  | committing
  deriving DecidableEq, Repr

/-- The boot engine (R489): phase, copy, the directory under way, FINAL, whether ABORT was asked, the result of its last submission. -/
structure BootEngine where
  phase : BootPhase := .idle
  copyB : Bool := false
  dir : List (Nat × Nat × Nat) := []
  final : Nat := 2
  abort : Bool := false
  answer : Option Nat := none
  deriving DecidableEq, Repr

/-- Power, reset and boot beside their registers: whether VAUX and main power are up, RESET_N, the state request that takes effect
at the next tick, when RESET_N went high, AVS acknowledge failures in a row, whether AVS is off, whether TEMP_WARN may be raised
again, the always-on holdover counter (the device time last copied, at which now), and SAFE requested. -/
structure Power where
  st : DevState := .boot
  prev : DevState := .cold
  vaux : Bool := true
  mainGood : Bool := true
  resetHigh : Bool := false
  req : Option DevState := none
  bootAt : Nat := 0
  avsFails : Nat := 0
  avsOff : Bool := false
  warnArmed : Bool := true
  hold : Option (Nat × Nat) := none
  engine : BootEngine := {}
  deriving DecidableEq, Repr

/-! ## The whole state -/

/-- What the device sends out: a frame from an egress, a PTP message (port, message type, domain, the TCI of its 802.1Q tag if it has one, sequence
number, its time and correction), an Announce with its data set and whether it carries the IEEE_C37_238 TLV, a write to host memory, an MSI-X
message, a management response, a cell of the pair link, a pulse of a time output (the device times of its two edges), an AVSBus target, a preemption verify or respond packet, a PLCA BEACON,
a SUPERVISION frame, the value of a register read, the data of the TAP. -/
inductive Emit where
  | frame (eg : Nat) (bytes : List Byte) (stomped : Bool)
  | ptp (port kind domain : Nat) (vlan : Option Nat) (seq time : Nat) (corr : Int)
  | announce (port domain : Nat) (vlan : Option Nat) (seq time : Nat) (data : AnnounceData) (tlv : Bool)
  | hostWrite (link addr : Nat) (bytes : List Byte)
  | msix (link pf vec : Nat)
  | mgt (port : Nat) (bytes : List Byte)
  | cell (cls : Nat) (fields : List Nat) (bytes : List Byte)
  | pulse (out_ : Nat) (rise fall : Nat)
  | avs (mv : Nat)
  | verifyPacket (port : Nat) (respond : Bool)
  | beacon (seg : Nat)
  | supervision (group seq : Nat)
  | readData (off : Nat) (val : Word)
  | tdo (data : Nat)
  deriving DecidableEq, Repr

/-- Why a step can stop with a fault. No command of this block does: every rule of the spec that speaks of an error gives the state
it leaves, and that state is modelled. -/
inductive Fault where
  deriving DecidableEq, Repr

/-- Why a step can be refused. -/
inductive Refusal where
  /-- The command has no meaning in the model yet: raised by an arm of `exec` and by nothing else. Safe: nothing is claimed. -/
  | notModelled (mnemonic : String)
  deriving DecidableEq, Repr

/-- The state. `up` counts the time base since the last reset and `time` is device time, both in units of 2^-16 ns; `regs` are the
registers by admin offset; `rdShadow` are the read shadows of R7, as the words above the lowest, by 2^21 × master (0-5 management ports, 6-11 clusters,
12 JTAG) + the offset of the lowest word; `wrHold` the low words of wide values written and not yet in effect; `fv` the number of free values used so
far (the model's own); `out` what has been sent, latest first. -/
structure State where
  pending : List Instr := []
  up : Nat := 0
  time : Nat := 0
  regs : SMap Word := []
  rdShadow : SMap (List Word) := []
  wrHold : SMap (Option Word) := []
  fv : Nat := 0
  out : List Emit := []
  ind : Indigo := {}
  ing : Ingress := {}
  aut : Aut := {}
  spe : Spe := {}
  pkt : Packet := {}
  och : Pools := {}
  clu : Clusters := {}
  cpx : Cpx := {}
  vrm : Voter := {}
  cfg : Cfg := {}
  sab : Sable := {}
  hst : HostIf := {}
  pai : Pair := {}
  ddr : Dram := {}
  dbg : Dbg := {}
  pwr : Power := {}
  deriving DecidableEq, Repr

/-- The state right after reset (R10, R480): every field at its reset value, no command waiting. -/
def State.reset : State := {}

end Sys2Proof.Machine
end

