-- ==== Sys2Proof/Machine/Access.lean ====
section
/-!
DEFINITION. The named reads and writes of the state: registers (R8), the records of each replicated unit, free values, the counters of
R87, device time as R5 writes it.
-/

namespace Sys2Proof.Machine

/-- The value of the register at an admin offset. -/
def State.reg (s : State) (off : Nat) : Word := s.regs.get regReset (regKey off)

/-- The field [hi:lo] of the register at an admin offset. -/
def State.rf (s : State) (off hi lo : Nat) : Nat := fld (s.reg off) hi lo

/-- Bit i of the register at an admin offset. -/
def State.rb (s : State) (off i : Nat) : Bool := tbit (s.reg off) i

/-- The state with a register set. -/
def State.setReg (s : State) (off : Nat) (v : Word) : State := { s with regs := s.regs.set regReset (regKey off) v }

/-- The state with the field [hi:lo] of a register set. -/
def State.setRf (s : State) (off hi lo v : Nat) : State := s.setReg off (putFld (s.reg off) hi lo v)

/-- The state with bit i of a register set to b. -/
def State.setRb (s : State) (off i : Nat) (b : Bool) : State := s.setReg off (putBit (s.reg off) i b)

/-- A counter advanced by n; a counter wraps modulo 2^32 (R87). -/
def State.add (s : State) (off n : Nat) : State := s.setReg off (s.reg off + BitVec.ofNat 32 n)

/-- A counter advanced by one (R87). -/
def State.inc (s : State) (off : Nat) : State := s.add off 1

/-- The state with something sent. -/
def State.emit (s : State) (e : Emit) : State := { s with out := e :: s.out }

/-- A free value, which nothing constrains, and the state that has used it up. -/
def State.freeW (s : State) : Word × State := (Config.freeWord s.fv, { s with fv := s.fv + 1 })

/-- A free natural number below n (n > 0), and the state that has used it up. -/
def State.freeN (s : State) (n : Nat) : Nat × State := (Config.freeNat s.fv % n, { s with fv := s.fv + 1 })

/-- Apply f for each element of a list, in order. -/
def each {α : Type} (l : List α) (f : State → α → State) (s : State) : State := l.foldl f s

/-- A port of the PTP engine (R34). -/
def State.port1588 (s : State) (k : Nat) : PtpPort := s.ind.ports.gd {} k

/-- The state with that record replaced: port of the PTP engine (R34). -/
def State.setPort1588 (s : State) (k : Nat) (v : PtpPort) : State :=
  { s with ind := { s.ind with ports := s.ind.ports.sd {} k v } }

/-- A general instant unit (R504). -/
def State.unit (s : State) (k : Nat) : Option ArmedInstant := s.ind.units.gd none k

/-- The state with that record replaced: general instant unit (R504). -/
def State.setUnit (s : State) (k : Nat) (v : Option ArmedInstant) : State :=
  { s with ind := { s.ind with units := s.ind.units.sd none k v } }

/-- A boundary that a PPS output last marked (R37). -/
def State.pps (s : State) (k : Nat) : Nat := s.ind.pps.gd 0 k

/-- The state with that record replaced: boundary that a PPS output last marked (R37). -/
def State.setPps (s : State) (k : Nat) (v : Nat) : State :=
  { s with ind := { s.ind with pps := s.ind.pps.sd 0 k v } }

/-- A angle clock (R39). -/
def State.aclk (s : State) (k : Nat) : AngleClock := s.ind.aclk.gd {} k

/-- The state with that record replaced: angle clock (R39). -/
def State.setAclk (s : State) (k : Nat) (v : AngleClock) : State :=
  { s with ind := { s.ind with aclk := s.ind.aclk.sd {} k v } }

/-- A preemption verify procedure of a port (R60). -/
def State.verify (s : State) (k : Nat) : VerifyState := s.ing.verify.gd {} k

/-- The state with that record replaced: preemption verify procedure of a port (R60). -/
def State.setVerify (s : State) (k : Nat) (v : VerifyState) : State :=
  { s with ing := { s.ing with verify := s.ing.verify.sd {} k v } }

/-- A redundancy group (R64). -/
def State.group (s : State) (k : Nat) : RedGroup := s.ing.groups.gd {} k

/-- The state with that record replaced: redundancy group (R64). -/
def State.setGroup (s : State) (k : Nat) (v : RedGroup) : State :=
  { s with ing := { s.ing with groups := s.ing.groups.sd {} k v } }

/-- A classifier slot (key 2^17 table + slot; R75). -/
def State.clsSlot (s : State) (k : Nat) : ClsSlot := s.ing.slots.gd {} k

/-- The state with that record replaced: classifier slot (key 2^17 table + slot; R75). -/
def State.setClsSlot (s : State) (k : Nat) (v : ClsSlot) : State :=
  { s with ing := { s.ing with slots := s.ing.slots.sd {} k v } }

/-- A stranger record (R84). -/
def State.stranger (s : State) (k : Nat) : Option Stranger := s.ing.strangers.gd none k

/-- The state with that record replaced: stranger record (R84). -/
def State.setStranger (s : State) (k : Nat) (v : Option Stranger) : State :=
  { s with ing := { s.ing with strangers := s.ing.strangers.sd none k v } }

/-- A port policer (R85). -/
def State.portPol (s : State) (k : Nat) : Bucket := s.ing.portPol.gd {} k

/-- The state with that record replaced: port policer (R85). -/
def State.setPortPol (s : State) (k : Nat) (v : Bucket) : State :=
  { s with ing := { s.ing with portPol := s.ing.portPol.sd {} k v } }

/-- A flow policer (R85). -/
def State.flowPol (s : State) (k : Nat) : Bucket := s.ing.flowPol.gd {} k

/-- The state with that record replaced: flow policer (R85). -/
def State.setFlowPol (s : State) (k : Nat) (v : Bucket) : State :=
  { s with ing := { s.ing with flowPol := s.ing.flowPol.sd {} k v } }

/-- A security context (R92). -/
def State.autCtx (s : State) (k : Nat) : AutCtx := s.aut.ctx.gd {} k

/-- The state with that record replaced: security context (R92). -/
def State.setAutCtx (s : State) (k : Nat) (v : AutCtx) : State :=
  { s with aut := { s.aut with ctx := s.aut.ctx.sd {} k v } }

/-- A SV stream (R115). -/
def State.stream (s : State) (k : Nat) : Stream := s.spe.streams.gd {} k

/-- The state with that record replaced: SV stream (R115). -/
def State.setStream (s : State) (k : Nat) (v : Stream) : State :=
  { s with spe := { s.spe with streams := s.spe.streams.sd {} k v } }

/-- A plane cell (key 256 cs + g mod 256; R134). -/
def State.cell (s : State) (k : Nat) : Word := s.spe.cells.gd 0 k

/-- The state with that record replaced: plane cell (key 256 cs + g mod 256; R134). -/
def State.setCell (s : State) (k : Nat) (v : Word) : State :=
  { s with spe := { s.spe with cells := s.spe.cells.sd 0 k v } }

/-- A what is known of a plane cell (R110). -/
def State.cellInfo (s : State) (k : Nat) : CellInfo := s.spe.info.gd {} k

/-- The state with that record replaced: what is known of a plane cell (R110). -/
def State.setCellInfo (s : State) (k : Nat) (v : CellInfo) : State :=
  { s with spe := { s.spe with info := s.spe.info.sd {} k v } }

/-- A frame inside the device. -/
def State.frame (s : State) (k : Nat) : Frame := s.pkt.frames.gd {} k

/-- The state with that record replaced: frame inside the device. -/
def State.setFrame (s : State) (k : Nat) (v : Frame) : State :=
  { s with pkt := { s.pkt with frames := s.pkt.frames.sd {} k v } }

/-- A copy of a frame. -/
def State.copy (s : State) (k : Nat) : Copy := s.pkt.copies.gd {} k

/-- The state with that record replaced: copy of a frame. -/
def State.setCopy (s : State) (k : Nat) (v : Copy) : State :=
  { s with pkt := { s.pkt with copies := s.pkt.copies.sd {} k v } }

/-- A stage input queue (key 8 l + s; R144). -/
def State.queue (s : State) (k : Nat) : List Nat := s.pkt.queues.gd [] k

/-- The state with that record replaced: stage input queue (key 8 l + s; R144). -/
def State.setQueue (s : State) (k : Nat) (v : List Nat) : State :=
  { s with pkt := { s.pkt with queues := s.pkt.queues.sd [] k v } }

/-- A reorder buffer (key 8 l + s; R148). -/
def State.rob (s : State) (k : Nat) : List Nat := s.pkt.rob.gd [] k

/-- The state with that record replaced: reorder buffer (key 8 l + s; R148). -/
def State.setRob (s : State) (k : Nat) (v : List Nat) : State :=
  { s with pkt := { s.pkt with rob := s.pkt.rob.sd [] k v } }

/-- A egress queue (key 8 e + tc, or 512 + h; R154). -/
def State.egq (s : State) (k : Nat) : List Nat := s.pkt.egq.gd [] k

/-- The state with that record replaced: egress queue (key 8 e + tc, or 512 + h; R154). -/
def State.setEgq (s : State) (k : Nat) (v : List Nat) : State :=
  { s with pkt := { s.pkt with egq := s.pkt.egq.sd [] k v } }

/-- A copy an egress is sending (R160). -/
def State.sending (s : State) (k : Nat) : Option Nat := s.pkt.sending.gd none k

/-- The state with that record replaced: copy an egress is sending (R160). -/
def State.setSending (s : State) (k : Nat) (v : Option Nat) : State :=
  { s with pkt := { s.pkt with sending := s.pkt.sending.sd none k v } }

/-- A PAUSE of a port (R163). -/
def State.pause (s : State) (k : Nat) : PauseState := s.pkt.pause.gd {} k

/-- The state with that record replaced: PAUSE of a port (R163). -/
def State.setPause (s : State) (k : Nat) (v : PauseState) : State :=
  { s with pkt := { s.pkt with pause := s.pkt.pause.sd {} k v } }

/-- A buffer descriptor (R172). -/
def State.buf (s : State) (k : Nat) : BufDesc := s.och.desc.gd {} k

/-- The state with that record replaced: buffer descriptor (R172). -/
def State.setBuf (s : State) (k : Nat) (v : BufDesc) : State :=
  { s with och := { s.och with desc := s.och.desc.sd {} k v } }

/-- A free stack of a pool (R172). -/
def State.pool (s : State) (k : Nat) : PoolStack := s.och.poolStacks.gd {} k

/-- The state with that record replaced: free stack of a pool (R172). -/
def State.setPool (s : State) (k : Nat) (v : PoolStack) : State :=
  { s with och := { s.och with poolStacks := s.och.poolStacks.sd {} k v } }

/-- A MAC-table slot (R184). -/
def State.mac (s : State) (k : Nat) : MacSlot := s.och.mac.gd {} k

/-- The state with that record replaced: MAC-table slot (R184). -/
def State.setMac (s : State) (k : Nat) (v : MacSlot) : State :=
  { s with och := { s.och with mac := s.och.mac.sd {} k v } }

/-- A thread (128 c + 8 k + t; R194). -/
def State.thr (s : State) (k : Nat) : Thread := s.clu.thr.gd {} k

/-- The state with that record replaced: thread (128 c + 8 k + t; R194). -/
def State.setThr (s : State) (k : Nat) (v : Thread) : State :=
  { s with clu := { s.clu with thr := s.clu.thr.sd {} k v } }

/-- A task (1024 c + i; R261). -/
def State.task (s : State) (k : Nat) : Task := s.clu.tasks.gd {} k

/-- The state with that record replaced: task (1024 c + i; R261). -/
def State.setTask (s : State) (k : Nat) (v : Task) : State :=
  { s with clu := { s.clu with tasks := s.clu.tasks.sd {} k v } }

/-- A ready list (32 c + priority; R263). -/
def State.ready (s : State) (k : Nat) : List Nat := s.clu.ready.gd [] k

/-- The state with that record replaced: ready list (32 c + priority; R263). -/
def State.setReady (s : State) (k : Nat) (v : List Nat) : State :=
  { s with clu := { s.clu with ready := s.clu.ready.sd [] k v } }

/-- A dispatcher timer (32 c + u; R265). -/
def State.timer (s : State) (k : Nat) : Option ArmedInstant := s.clu.timers.gd none k

/-- The state with that record replaced: dispatcher timer (32 c + u; R265). -/
def State.setTimer (s : State) (k : Nat) (v : Option ArmedInstant) : State :=
  { s with clu := { s.clu with timers := s.clu.timers.sd none k v } }

/-- A channel (64 c + i; R210). -/
def State.chan (s : State) (k : Nat) : Chan := s.clu.chans.gd {} k

/-- The state with that record replaced: channel (64 c + i; R210). -/
def State.setChan (s : State) (k : Nat) (v : Chan) : State :=
  { s with clu := { s.clu with chans := s.clu.chans.sd {} k v } }

/-- A local lock (64 c + i; R287). -/
def State.llock (s : State) (k : Nat) : Lock := s.clu.llocks.gd {} k

/-- The state with that record replaced: local lock (64 c + i; R287). -/
def State.setLlock (s : State) (k : Nat) (v : Lock) : State :=
  { s with clu := { s.clu with llocks := s.clu.llocks.sd {} k v } }

/-- A global lock (R287). -/
def State.glock (s : State) (k : Nat) : Lock := s.clu.glocks.gd {} k

/-- The state with that record replaced: global lock (R287). -/
def State.setGlock (s : State) (k : Nat) (v : Lock) : State :=
  { s with clu := { s.clu with glocks := s.clu.glocks.sd {} k v } }

/-- A mailbox (host m, 128 + peer p; R293). -/
def State.mbox (s : State) (k : Nat) : Mailbox := s.clu.mbox.gd {} k

/-- The state with that record replaced: mailbox (host m, 128 + peer p; R293). -/
def State.setMbox (s : State) (k : Nat) (v : Mailbox) : State :=
  { s with clu := { s.clu with mbox := s.clu.mbox.sd {} k v } }

/-- A program word (2^16 j + address; R221). -/
def State.pmemW (s : State) (k : Nat) : PWord := s.clu.pmem.gd 0 k

/-- The state with that record replaced: program word (2^16 j + address; R221). -/
def State.setPmemW (s : State) (k : Nat) (v : PWord) : State :=
  { s with clu := { s.clu with pmem := s.clu.pmem.sd 0 k v } }

/-- A fault queue of a cluster (R206). -/
def State.fltq (s : State) (k : Nat) : List (List Word) := s.clu.fltq.gd [] k

/-- The state with that record replaced: fault queue of a cluster (R206). -/
def State.setFltq (s : State) (k : Nat) (v : List (List Word)) : State :=
  { s with clu := { s.clu with fltq := s.clu.fltq.sd [] k v } }

/-- A deadlock queue of a cluster (R213). -/
def State.dlq (s : State) (k : Nat) : List (List Word) := s.clu.dlq.gd [] k

/-- The state with that record replaced: deadlock queue of a cluster (R213). -/
def State.setDlq (s : State) (k : Nat) (v : List (List Word)) : State :=
  { s with clu := { s.clu with dlq := s.clu.dlq.sd [] k v } }

/-- A wait group (16 c + g; R212). -/
def State.wgroup (s : State) (k : Nat) : WaitGroup := s.clu.groups.gd {} k

/-- The state with that record replaced: wait group (16 c + g; R212). -/
def State.setWgroup (s : State) (k : Nat) (v : WaitGroup) : State :=
  { s with clu := { s.clu with groups := s.clu.groups.sd {} k v } }

/-- A history fetch unit (8 c + f; R450). -/
def State.fetchU (s : State) (k : Nat) : FetchUnit := s.clu.fetch.gd {} k

/-- The state with that record replaced: history fetch unit (8 c + f; R450). -/
def State.setFetchU (s : State) (k : Nat) (v : FetchUnit) : State :=
  { s with clu := { s.clu with fetch := s.clu.fetch.sd {} k v } }

/-- A coprocessor command (16 core + tag; R247). -/
def State.cpxCmd (s : State) (k : Nat) : CpxCmd := s.cpx.cmds.gd {} k

/-- The state with that record replaced: coprocessor command (16 core + tag; R247). -/
def State.setCpxCmd (s : State) (k : Nat) (v : CpxCmd) : State :=
  { s with cpx := { s.cpx with cmds := s.cpx.cmds.sd {} k v } }

/-- A voter channel (R300). -/
def State.vch (s : State) (k : Nat) : VrmChan := s.vrm.chans.gd {} k

/-- The state with that record replaced: voter channel (R300). -/
def State.setVch (s : State) (k : Nat) (v : VrmChan) : State :=
  { s with vrm := { s.vrm with chans := s.vrm.chans.sd {} k v } }

/-- A publishing control block (R308). -/
def State.pcb (s : State) (k : Nat) : Pcb := s.vrm.pcbs.gd {} k

/-- The state with that record replaced: publishing control block (R308). -/
def State.setPcb (s : State) (k : Nat) (v : Pcb) : State :=
  { s with vrm := { s.vrm with pcbs := s.vrm.pcbs.sd {} k v } }

/-- A contact input (R316). -/
def State.finp (s : State) (k : Nat) : FioIn := s.vrm.ins.gd {} k

/-- The state with that record replaced: contact input (R316). -/
def State.setFinp (s : State) (k : Nat) (v : FioIn) : State :=
  { s with vrm := { s.vrm with ins := s.vrm.ins.sd {} k v } }

/-- A hardwired output (R312). -/
def State.fout (s : State) (k : Nat) : FioOut := s.vrm.outs.gd {} k

/-- The state with that record replaced: hardwired output (R312). -/
def State.setFout (s : State) (k : Nat) (v : FioOut) : State :=
  { s with vrm := { s.vrm with outs := s.vrm.outs.sd {} k v } }

/-- A shadow part of a partition (R332). -/
def State.partSh (s : State) (k : Nat) : Option ImgPart := s.cfg.parts.gd none k

/-- The state with that record replaced: shadow part of a partition (R332). -/
def State.setPartSh (s : State) (k : Nat) (v : Option ImgPart) : State :=
  { s with cfg := { s.cfg with parts := s.cfg.parts.sd none k v } }

/-- A partition (R344). -/
def State.part (s : State) (k : Nat) : Part := s.cfg.part.gd {} k

/-- The state with that record replaced: partition (R344). -/
def State.setPart (s : State) (k : Nat) (v : Part) : State :=
  { s with cfg := { s.cfg with part := s.cfg.part.sd {} k v } }

/-- A envelope in force (R326). -/
def State.env (s : State) (k : Nat) : Envelope := s.cfg.env.gd {} k

/-- The state with that record replaced: envelope in force (R326). -/
def State.setEnv (s : State) (k : Nat) (v : Envelope) : State :=
  { s with cfg := { s.cfg with env := s.cfg.env.sd {} k v } }

/-- A unit request (key 8192 class + index; R355). -/
def State.unitReq (s : State) (k : Nat) : UnitReq := s.cfg.units.gd {} k

/-- The state with that record replaced: unit request (key 8192 class + index; R355). -/
def State.setUnitReq (s : State) (k : Nat) (v : UnitReq) : State :=
  { s with cfg := { s.cfg with units := s.cfg.units.sd {} k v } }

/-- A credential slot (R387). -/
def State.cred (s : State) (k : Nat) : Cred := s.sab.creds.gd {} k

/-- The state with that record replaced: credential slot (R387). -/
def State.setCred (s : State) (k : Nat) (v : Cred) : State :=
  { s with sab := { s.sab with creds := s.sab.creds.sd {} k v } }

/-- A debug grant (R394). -/
def State.grant (s : State) (k : Nat) : Grant := s.sab.grants.gd {} k

/-- The state with that record replaced: debug grant (R394). -/
def State.setGrant (s : State) (k : Nat) (v : Grant) : State :=
  { s with sab := { s.sab with grants := s.sab.grants.sd {} k v } }

/-- A key slot of the AUT key RAM, none when it is not loaded (R93). -/
def State.keySlot (s : State) (k : Nat) : Option (BitVec 256) := s.aut.keyRam.gd none k

/-- The state with a key slot replaced. -/
def State.setKeySlot (s : State) (k : Nat) (v : Option (BitVec 256)) : State :=
  { s with aut := { s.aut with keyRam := s.aut.keyRam.sd none k v } }

/-- A DMA channel (R404). -/
def State.dma (s : State) (k : Nat) : Dma := s.hst.dma.gd {} k

/-- The state with that record replaced: DMA channel (R404). -/
def State.setDma (s : State) (k : Nat) (v : Dma) : State :=
  { s with hst := { s.hst with dma := s.hst.dma.sd {} k v } }

/-- A MSI-X vector (1024 link + 512 pf + vector; R421). -/
def State.msix (s : State) (k : Nat) : MsixVec := s.hst.msix.gd {} k

/-- The state with that record replaced: MSI-X vector (1024 link + 512 pf + vector; R421). -/
def State.setMsix (s : State) (k : Nat) (v : MsixVec) : State :=
  { s with hst := { s.hst with msix := s.hst.msix.sd {} k v } }

/-- A management port (R410). -/
def State.mport (s : State) (k : Nat) : MgtPort := s.hst.ports.gd {} k

/-- The state with that record replaced: management port (R410). -/
def State.setMport (s : State) (k : Nat) (v : MgtPort) : State :=
  { s with hst := { s.hst with ports := s.hst.ports.sd {} k v } }

/-- A recording set (R451). -/
def State.recSet (s : State) (k : Nat) : RecSet := s.ddr.sets.gd {} k

/-- The state with that record replaced: recording set (R451). -/
def State.setRecSet (s : State) (k : Nat) (v : RecSet) : State :=
  { s with ddr := { s.ddr with sets := s.ddr.sets.sd {} k v } }

/-- A instruction sampler of a cluster (R461). -/
def State.sampler (s : State) (k : Nat) : Sampler := s.dbg.samplers.gd {} k

/-- The state with that record replaced: instruction sampler of a cluster (R461). -/
def State.setSampler (s : State) (k : Nat) (v : Sampler) : State :=
  { s with dbg := { s.dbg with samplers := s.dbg.samplers.sd {} k v } }

/-- A tag record of a frame (R462). -/
def State.tagRec (s : State) (k : Nat) : TagRec := s.dbg.tags.gd {} k

/-- The state with that record replaced: tag record of a frame (R462). -/
def State.setTagRec (s : State) (k : Nat) (v : TagRec) : State :=
  { s with dbg := { s.dbg with tags := s.dbg.tags.sd {} k v } }

/-- One nanosecond of device time, in the units of `State.time` (R5). -/
def nsU : Nat := 65536

/-- One microsecond. -/
def usU : Nat := 1000 * nsU

/-- One millisecond. -/
def msU : Nat := 1000000 * nsU

/-- One second. -/
def secU : Nat := 1000000000 * nsU

/-- A device time as the 96-bit value of R5: seconds [95:48], nanoseconds [47:16], fraction [15:0]. -/
def time96 (t : Nat) : Nat := t / secU * 2 ^ 48 + t % secU

/-- Word i of a device time as R5 and R7 lay it out, least significant word first. -/
def timeWord (t i : Nat) : Word := BitVec.ofNat 32 (time96 t / 2 ^ (32 * i))

/-- The three words of a device time. -/
def timeWords (t : Nat) : List Word := [timeWord t 0, timeWord t 1, timeWord t 2]

/-- The device time that a 96-bit value of R5 names. -/
def timeOf96 (v : Nat) : Nat := v / 2 ^ 48 * secU + v % 2 ^ 48

/-- The number of words of a list, least significant first. -/
def wordsNat : List Word → Nat
  | [] => 0
  | w :: ws => w.toNat + 4294967296 * wordsNat ws

/-- k words of a number, least significant first. -/
def natWords : Nat → Nat → List Word
  | 0, _ => []
  | k + 1, v => BitVec.ofNat 32 v :: natWords k (v / 4294967296)

/-- Word i of a list, zero past its end. -/
def wordAt (l : List Word) (i : Nat) : Word := l.getD i 0

/-- A list with element i replaced. -/
def setAt {α : Type} (l : List α) (i : Nat) (v : α) : List α := l.set i v

/-- The bytes of words, each least significant byte first. -/
def wordsBytes (ws : List Word) : List Byte := ws.flatMap fun w => leBytes 4 w.toNat

/-- The number a thread has in the device: 128 c + 8 k + t (R194). -/
def tidNat (t : ThreadId) : Nat := 128 * t.cl.val + 8 * t.core.val + t.thr.val

end Sys2Proof.Machine
end

