-- ==== Sys2Proof/Machine/Events.lean ====
section
/-!
DEFINITION. Raising an event: the SQC status register it stands in (R8), and its delivery to MSI-X, a supervisor, the pair link and the
alarm as EVT_ROUTE says (R421, R501). Reading and clearing pending event bits.
-/

namespace Sys2Proof.Machine

/-- Whether the pair link counts as up: UP or DEGRADED (R425). -/
def State.pairUp (s : State) : Bool := 3 ≤ s.rf Reg.PAI_LINK 31 29

/-- Whether an MSI-X message of a function can leave: its link is up, its MSI-X is enabled, it is not in D3hot (R402, R421). -/
def State.msixOpen (s : State) (link pf : Nat) : Bool :=
  s.rb (Reg.PCI_LINK_STATUS link) 31 && s.rb (Reg.PCI_LINK_STATUS link) (20 - pf) && !(s.hst.d3hot.gd false (2 * link + pf))

/-- One MSI-X message on a vector (R421): lost and counted, held in the PBA of a masked vector, or sent. -/
def State.sendMsix (s : State) (link pf vec : Nat) : State :=
  if s.msixOpen link pf then
    (if (s.msix (1024 * link + 512 * pf + vec)).masked then
      s.setMsix (1024 * link + 512 * pf + vec) { s.msix (1024 * link + 512 * pf + vec) with pba := true }
    else s.emit (.msix link pf vec))
  else s.inc Reg.EVT_MSIX_LOST

/-- Delivery of event e to MSI-X, where its route enables it (R421). -/
def State.deliverMsix (s : State) (e : Nat) : State :=
  if s.rb (Reg.EVT_ROUTE e) 31 then
    s.sendMsix (s.rf (Reg.EVT_ROUTE e) 30 30) (s.rf (Reg.EVT_ROUTE e) 29 29) (s.rf (Reg.EVT_ROUTE e) 28 20)
  else s

/-- Delivery of event e to a supervisor (R421). Clusters 6 and 7 are reserved values: nothing is delivered. -/
def State.deliverSup (s : State) (e : Nat) : State :=
  if s.rb (Reg.EVT_ROUTE e) 19 && s.rf (Reg.EVT_ROUTE e) 18 16 < 6 then
    s.setRb (Reg.CLU_EVT_PEND (s.rf (Reg.EVT_ROUTE e) 18 16) (e / 32)) (e % 32) true
  else s

/-- Delivery of event e to the pair partner (R421, R435): an EVT cell, or lost and counted while the link is down. -/
def State.deliverPair (s : State) (e : Nat) : State :=
  if s.rb (Reg.EVT_ROUTE e) 15 then (if s.pairUp then s.emit (.cell 3 [e] []) else s.inc Reg.PAI_EVT_LOST) else s

/-- Delivery of event e to the alarm (R421). -/
def State.deliverAlarm (s : State) (e : Nat) : State :=
  if s.rb (Reg.EVT_ROUTE e) 14 then s.setRb (Reg.EVT_ALARM_PEND (e / 32)) (e % 32) true else s

/-- The event e is raised and delivered to each enabled destination (R421); a reserved event never is (R501). -/
def State.deliver (s : State) (e : Nat) : State :=
  if evReserved e then s else (((s.deliverMsix e).deliverSup e).deliverPair e).deliverAlarm e

/-- A new event of an SQC register (R8): its bit is set and SEQ advances by one modulo 256; the event is raised when the bit goes
from 0 to 1. -/
def State.sqc (s : State) (off bit e : Nat) : State :=
  if s.rb off bit then s.setRf off 31 24 (s.rf off 31 24 + 1)
  else ((s.setRb off bit true).setRf off 31 24 (s.rf off 31 24 + 1)).deliver e

/-- A new event of an SQC register of Indigo (R8, R54): as `sqc`, but the event is raised at every occurrence, since R54 names the occurrence and
not the bit's change (log 142). -/
def State.sqcEach (s : State) (off bit e : Nat) : State :=
  ((s.setRb off bit true).setRf off 31 24 (s.rf off 31 24 + 1)).deliver e

/-- The pending bits of ten words: the lowest event set, if there is one (R421). -/
def State.lowestPending (s : State) (base : Nat → Nat) : Option Nat :=
  (List.range 320).find? fun e => s.rb (base (e / 32)) (e % 32)

/-- ALARM_N is driven low while any alarm bit is set (R421). -/
def State.alarmLow (s : State) : Bool := (s.lowestPending Reg.EVT_ALARM_PEND).isSome

/-- Messages of one command to one vector are one message (R421): repeated ones among the first n are dropped. -/
def mergeMsix : Nat → List Emit → List Emit
  | 0, l => l
  | _, [] => []
  | n + 1, e :: l =>
    match e with
    | .msix _ _ _ => if (l.take n).contains e then mergeMsix n l else e :: mergeMsix n l
    | _ => e :: mergeMsix n l

/-- The state s' that a command reached from s, with the messages it sent to one vector merged (R421). -/
def State.closed (s s' : State) : State := { s' with out := mergeMsix (s'.out.length - s.out.length) s'.out }

/-- The end of a command that started in s and led to s'. -/
def done (s s' : State) : Host.Outcome State Fault Refusal := .next (s.closed s')

end Sys2Proof.Machine
end

