-- ==== Sys2Proof/Machine/Roles.lean ====
section
/-!
DEFINITION. Who may do what: the role of an accessor (R408, R414), the partitions an OWNER session owns (R326, R414), which register
writes each accessor may make (R227, R408, R464), and what a refused write does (R408, R409).
-/

namespace Sys2Proof.Machine

/-- The roles a register access or command can carry (R387, R408), and the threads' own authority (R227). -/
inductive Role where
  | admin | owner | observer | supervisor | laneCode | jtag | noSession
  deriving DecidableEq, Repr

/-- The role of a credential code: 0 ADMIN, 1 OWNER, 2 OBSERVER (R387). -/
def roleOfCode (n : Nat) : Role := if n = 0 then .admin else if n = 1 then .owner else .observer

/-- The role of the session of management port n. -/
def State.portRole (s : State) (n : Nat) : Role :=
  match (s.mport n).sess with
  | some x => roleOfCode x.role
  | none => .noSession

/-- The management port whose session an accessor's role is that of: port l for PF0 of link l (R408). -/
def portOf : Accessor → Option Nat
  | .bar0 l => some l.val
  | .session p => some p.val
  | .thread _ => none
  | .jtag => none

/-- The role of an accessor. -/
def State.roleOf (s : State) (who : Accessor) : Role :=
  match who with
  | .bar0 l => s.portRole l.val
  | .session p => s.portRole p.val
  | .thread t => if (s.thr (tidNat t)).priv = .s then .supervisor else .laneCode
  | .jtag => .jtag

/-- The credential slot that the effective envelope of partition p names (R326). -/
def State.credOf (s : State) (p : Nat) : Option Nat :=
  if tbit (wordAt (s.env p).w 0) 31 && !(s.env p).derived then some (fld (wordAt (s.env p).w 1) 11 8) else none

/-- Whether the session of port n is OWNER of partition p (R414). -/
def State.portOwns (s : State) (n p : Nat) : Bool :=
  match (s.mport n).sess with
  | some x => x.role == 1 && s.credOf p == some x.slot
  | none => false

/-- Whether an accessor's session is ADMIN, or OWNER of partition p. -/
def State.adminOrOwner (s : State) (who : Accessor) (p : Nat) : Bool :=
  match portOf who with
  | some n => s.portRole n == .admin || s.portOwns n p
  | none => false

/-- Whether an accessor's session is ADMIN. -/
def State.isAdmin (s : State) (who : Accessor) : Bool := s.roleOf who == .admin

/-- The partition of tile j (R18). -/
def State.tilePart (s : State) (j : Nat) : Nat := s.rf (Reg.CFG_TILE j) 23 20

/-- The tile a thread number lies in: four cores a tile (R2). -/
def tileOfTid (k : Nat) : Nat := k / 32

/-- The partition of a thread. -/
def State.thrPart (s : State) (k : Nat) : Nat := s.tilePart (tileOfTid k)

/-- The partition of a task (R261): W0 of its TCB holds PART at [24:21]. -/
def State.taskPart (s : State) (k : Nat) : Nat := fld (s.task k).w0 24 21

/-- The select registers (R408). -/
def selReg (off : Nat) : Bool :=
  [Reg.CLS_STR_SEL, Reg.AUT_CTX_SEL, Reg.SPE_STR_SEL, Reg.VRM_PCB_SEL, Reg.CFG_UNIT_SEL, Reg.DBG_CTX_SEL].contains off ||
  (0x100000 ≤ off && off < 0x160000 && off % 0x10000 == Reg.CLU_TCB_SEL 0 % 0x10000)

/-- Command registers whose chapters apply a role check of their own and report DENIED (R80, R100, R182, R189, R208, R280, R314, R320,
R454, R466), with the registers that stage their arguments: any session may write them. -/
def ownCheckReg (off : Nat) : Bool :=
  [Reg.AUT_CTX_CMD, Reg.OCH_CMD, Reg.VRM_CMD, Reg.FIO_CMD, Reg.REC_CMD, Reg.DBG_CMD, Reg.DBG_MEM_ADDR, Reg.DBG_MEM_DATA,
   Reg.CLS_CMD 0, Reg.FWD_CMD 0].contains off ||
  (List.range 10).any (fun w => off == Reg.CLS_CMD_KEY 0 w) || (List.range 6).any (fun w => off == Reg.CLS_CMD_RES 0 w) ||
  (List.range 4).any (fun w => off == Reg.FWD_CMD_ENT 0 w) ||
  (Reg.DBG_CTX_DATA 0 ≤ off && off ≤ Reg.DBG_CTX_DATA 40) ||
  (0x100000 ≤ off && off < 0x160000 &&
    ([Reg.CLU_CTL_CMD 0, Reg.CLU_CTL_ARG 0, Reg.CLU_CHN_CMD 0, Reg.CLU_DSP_CMD 0, Reg.CLU_DSP_CMD_ARG 0].any
      (fun r => off % 0x10000 == r % 0x10000) ||
     (0x4000 ≤ off % 0x10000 && off % 0x10000 < 0x5000) ||
     (0xE00 ≤ off % 0x10000 && off % 0x10000 < 0x1000)))

/-- The registers a link may write without a session (R408): its MGT_REQ/MGT_RSP registers and its PCI_BANK. -/
def noSessionReg (l off : Nat) : Bool :=
  (Reg.MGT_REQ_ADDR_LO l ≤ off && off ≤ Reg.MGT_DOORBELL l) || off == Reg.MGT_RSP_VEC l || off == Reg.PCI_BANK l

/-- The registers P0 lane code reaches at K or S, and the supervisor in its own cluster (R227). -/
def State.threadReg (s : State) (t : ThreadId) (off : Nat) : Bool :=
  ((s.thr (tidNat t)).priv == .s && 0x100000 + t.cl.val * 0x10000 ≤ off && off < 0x105000 + t.cl.val * 0x10000) ||
  ((s.thr (tidNat t)).priv != .u && s.thrPart (tidNat t) == 0 &&
    (off == Reg.CLS_CMD 1 || off == Reg.CLS_CMD_STATUS 1 || (List.range 10).any (fun w => off == Reg.CLS_CMD_KEY 1 w) ||
     (List.range 6).any (fun w => off == Reg.CLS_CMD_RES 1 w) || off == Reg.FWD_CMD 1 || off == Reg.FWD_CMD_STATUS 1 ||
     (List.range 4).any (fun w => off == Reg.FWD_CMD_ENT 1 w) || off == Reg.FWD_LQ_COUNT || off == Reg.FWD_LQ_POP ||
     (List.range 4).any (fun w => off == Reg.FWD_LQ_DATA w)))

/-- The SYS identification registers (R500). -/
def idReg (off : Nat) : Bool := off < 0x100

/-- The registers DBGACC reaches (R464): before a proof, the three registers of the proof alone. -/
def State.jtagReg (s : State) (off : Nat) : Bool :=
  (Reg.DBG_CHAL 0 ≤ off && off ≤ Reg.DBG_JTAG) ||
  (s.dbg.bound.isSome && (idReg off || off / 0x1000 == 0x1D ||
    (0x100000 ≤ off && off < 0x160000 && 0xE00 ≤ off % 0x10000 && off % 0x10000 < 0x1000)))

/-- Whether an accessor may write a register (R227, R408, R464). -/
def State.mayWrite (s : State) (who : Accessor) (off : Nat) : Bool :=
  match s.roleOf who, who with
  | .admin, _ => true
  | .owner, _ => selReg off || ownCheckReg off || (match who with | .bar0 l => noSessionReg l.val off | _ => false)
  | .observer, _ => selReg off || ownCheckReg off || (match who with | .bar0 l => noSessionReg l.val off | _ => false)
  | .noSession, .bar0 l => noSessionReg l.val off
  | .noSession, _ => false
  | .supervisor, .thread t => s.threadReg t off
  | .laneCode, .thread t => s.threadReg t off
  | _, .jtag => s.jtagReg off
  | _, _ => false

/-- Whether an accessor's reads return values (R408, R464): without a session, the SYS identification registers and the PCI and MGT
pages alone. -/
def State.mayRead (s : State) (who : Accessor) (off : Nat) : Bool :=
  match who with
  | .thread t => s.threadReg t off
  | .jtag => s.jtagReg off
  | _ => (match s.roleOf who with
    | .noSession => idReg off || off / 0x1000 == 0x17 || off / 0x1000 == 0x18
    | _ => true)

/-- A register write that the accessor's role does not permit (R408): ignored, counted, EV015. From a thread it is a fault of its own
instruction (R227) and from JTAG it reaches nothing (R464): no count. -/
def State.denyWrite (s : State) (who : Accessor) : State :=
  match portOf who with
  | some _ => (s.inc Reg.MGT_DENIED_WR).sqc Reg.PCI_STATUS 5 15
  | none => s

/-- A write of a command register by an accessor: its effect where R408 admits the write, and the refusal elsewhere. -/
def State.writeCmd (s : State) (who : Accessor) (off : Nat) (f : State → State) : State :=
  if s.mayWrite who off then f s else s.denyWrite who

/-- Whether a read of an RTT register takes (R8, R408): that of ADMIN, and of the supervisor and lane code on the registers they reach. -/
def State.mayTake (s : State) (who : Accessor) (off : Nat) : Bool :=
  match s.roleOf who with
  | .admin => true
  | .supervisor => s.mayRead who off
  | .laneCode => s.mayRead who off
  | _ => false

/-- A read of an RTT register (R8, R408): the take for an accessor whose role permits it; every other read returns zero and takes nothing. -/
def State.rttRead (s : State) (who : Accessor) (off : Nat) (take : Word × State) : State :=
  if s.mayTake who off then take.2.emit (.readData off take.1) else s.emit (.readData off 0)

/-- The master number that PCI_LOCKWR_LAST shows: 0-5 ports, 6 threads (R422). -/
def masterOf (who : Accessor) : Nat :=
  match portOf who with
  | some n => n
  | none => 6

/-- A write refused under RWL (R409): counted in PCI_LOCKWR(b), recorded, EV014. -/
def State.lockedWrite (s : State) (who : Accessor) (off : Nat) : State :=
  ((s.inc (Reg.PCI_LOCKWR (blockOf off))).setReg Reg.PCI_LOCKWR_LAST
    (BitVec.ofNat 32 (masterOf who * 2 ^ 29 + off))).sqc Reg.PCI_STATUS 4 14

end Sys2Proof.Machine
end

