-- ==== Sys2Proof/Machine/Pmu.lean ====
section
/-!
DEFINITION. The performance counters (R456-R459): the events that other files report here, the filters, and the wrap.
-/

namespace Sys2Proof.Machine

/-- The attributes of an event that filters compare (R458): privilege level (0 U, 1 K, 2 S), master, traffic class, access address. -/
structure PmuAttr where
  priv : Option Nat := none
  master : Option Nat := none
  tc : Option Nat := none
  addr : Option Nat := none

/-- Whether filters act (R458): in BOOT, TEST and RECOVERY alone. -/
def State.filtersAct (s : State) : Bool := s.pwr.st == .boot || s.pwr.st == .test || s.pwr.st == .recovery

/-- Whether a filter that is set matches an attribute: an event without the attribute never matches. -/
def attrIn (set_ : Bool) (a : Option Nat) (p : Nat → Bool) : Bool := !set_ || (match a with | some x => p x | none => false)

/-- Whether an event passes the filters of a counter configuration (R458); lo and hi are the level's address range. -/
def pmuPass (cfg : Word) (lo hi : Nat) (a : PmuAttr) : Bool :=
  attrIn (fld cfg 27 25 != 0) a.priv (fun p => tbit cfg (25 + p)) &&
  attrIn (fld cfg 23 16 != 255) a.master (fun m => m == fld cfg 23 16) &&
  attrIn (fld cfg 15 8 != 0) a.tc (fun t => tbit cfg (8 + t)) &&
  attrIn (tbit cfg 28) a.addr (fun x => lo ≤ x && x ≤ hi)

/-- A 48-bit counter, its configuration at admin offset `off`, advanced by n (R456). -/
def State.pmuAdd (s : State) (off n : Nat) : State :=
  let v := (s.reg (off + 4)).toNat + 4294967296 * s.rf (off + 8) 15 0 + n
  let s1 := (s.setReg (off + 4) (BitVec.ofNat 32 v)).setReg (off + 8) (BitVec.ofNat 32 (v / 4294967296 % 65536))
  if 2 ^ 48 ≤ v then s1.setRb off 30 true else s1

/-- The counters of a group (from admin offset `base`, `count` of them) that count event ev with attributes a. A counter that nothing has
configured is not enabled, so only the registers that the store lists are asked. -/
def State.pmuHits (s : State) (base count ev lo hi : Nat) (a : PmuAttr) : List Nat :=
  (s.regs.filter fun p =>
    base ≤ p.1 && p.1 < base + 16 * count && (p.1 - base) % 16 == 0 && tbit p.2 31 && fld p.2 7 0 == ev &&
    (!tbit p.2 29 || !s.filtersAct || pmuPass p.2 lo hi a)).map Prod.fst

/-- An event counted n times by a group of counters, unless counting is frozen (R457, R459). -/
def State.pmu (s : State) (base count ev lo hi : Nat) (a : PmuAttr) (n : Nat) : State :=
  if s.rb Reg.PMU_CTRL 0 || n == 0 then s else each (s.pmuHits base count ev lo hi a) (fun x off => x.pmuAdd off n) s

/-- An event of core k (0-15) of cluster c. -/
def State.pmuCore (s : State) (c k ev : Nat) (a : PmuAttr) (n : Nat) : State :=
  s.pmu (Reg.CLU_PMU_CTR_CFG c k 0) 4 ev (s.reg (Reg.CLU_PMU_ALO c)).toNat (s.reg (Reg.CLU_PMU_AHI c)).toNat a n

/-- An event of cluster c. -/
def State.pmuClu (s : State) (c ev : Nat) (a : PmuAttr) (n : Nat) : State :=
  s.pmu (Reg.CLU_PMU_CCTR_CFG c 0) 16 ev (s.reg (Reg.CLU_PMU_ALO c)).toNat (s.reg (Reg.CLU_PMU_AHI c)).toNat a n

/-- An event of the fabric. -/
def State.pmuFab (s : State) (ev : Nat) (a : PmuAttr) (n : Nat) : State :=
  s.pmu (Reg.PMU_CTR_CFG 0) 64 ev (s.reg Reg.PMU_ALO).toNat (s.reg Reg.PMU_AHI).toNat a n

/-- The privilege attribute of a thread. -/
def State.privAttr (s : State) (k : Nat) : PmuAttr :=
  { priv := some (match (s.thr k).priv with | .u => 0 | .k => 1 | .s => 2) }

end Sys2Proof.Machine
end

