-- ==== Sys2Proof/Machine/Rings.lean ====
section
/-!
DEFINITION. DRAM as bytes, and the rings that records are written to (R165, R279, R319, R447, R461, R462), each through a FIFO: a record goes into
its ring at once where DRAM takes it, and waits in the FIFO while a refresh holds every access (R444).
-/

namespace Sys2Proof.Machine

/-- Whether DRAM is RUNNING (R446). -/
def State.dramUp (s : State) : Bool := s.rf Reg.DDR_STATUS 1 0 == 2

/-- Bytes written to DRAM at an address; a line written holds no uncorrectable error any more. -/
def State.dramWrite : Nat → List Byte → State → State
  | _, [], s => s
  | a, b :: bs, s =>
    State.dramWrite (a + 1) bs { s with ddr := { s.ddr with mem := s.ddr.mem.sd 0 a b, bad := s.ddr.bad.sd false (a / 64) false } }

/-- An access of n bytes at DRAM address a, counted once for each 64-byte line it touches (R457, R458): 0x8C reads, 0x8D writes. -/
def State.pmuDram (s : State) (ev a n : Nat) (master : Option Nat) : State :=
  each (List.range ((a + n + 63) / 64 - a / 64)) (fun x i => x.pmuFab ev { addr := some (a / 64 + i), master := master } 1) s

/-- n bytes read from DRAM at an address. -/
def State.dramRead (s : State) (a n : Nat) : List Byte := (List.range n).map fun i => s.ddr.mem.gd 0 (a + i)

/-- Where a ring lies and how it behaves: its key in `Dram.ringOff`, the base registers, the write and read index registers, log2 of its
records, MODE, the records its FIFO holds, and what a record dropped or overwritten counts. -/
structure Ring where
  key : Nat
  baseLo : Nat
  baseHi : Nat
  wr : Nat
  rd : Nat
  size : Nat
  overwrite : Bool
  depth : Nat
  lost : State → State

/-- The base address of a ring. -/
def State.ringBase (s : State) (r : Ring) : Nat := (s.reg r.baseLo).toNat + 4294967296 * (s.reg r.baseHi).toNat

/-- The unread records of a ring. -/
def State.ringUnread (s : State) (r : Ring) : Nat := ((s.reg r.wr).toNat + 2 ^ r.size - (s.reg r.rd).toNat % 2 ^ r.size) % 2 ^ r.size

/-- A record put where the write index points, which then advances. -/
def State.ringStore (s : State) (r : Ring) (bytes : List Byte) : State :=
  let a := s.ringBase r + (s.reg r.wr).toNat % 2 ^ r.size * bytes.length
  ((s.dramWrite a bytes).setReg r.wr (BitVec.ofNat 32 (((s.reg r.wr).toNat + 1) % 2 ^ r.size))).pmuDram 0x8D a bytes.length none

/-- A record that leaves the FIFO of a ring (R165, R279, R446): dropped and counted while DRAM is not RUNNING; with 2^SIZE - 1 records unread, MODE 0
drops it and MODE 1 overwrites the oldest. -/
def State.ringTake (s : State) (r : Ring) (bytes : List Byte) : State :=
  if !s.dramUp then s.inc Reg.REC_DOWN_DROP
  else if s.ringUnread r + 1 < 2 ^ r.size then s.ringStore r bytes
  else if r.overwrite then
    r.lost ((s.ringStore r bytes).setReg r.rd (BitVec.ofNat 32 (((s.reg r.rd).toNat + 1) % 2 ^ r.size)))
  else r.lost s

/-- The records in the FIFO of a ring. -/
def State.ringFifo (s : State) (r : Ring) : List (List Byte) := s.ddr.fifo.gd [] r.key

/-- The FIFO of a ring replaced. -/
def State.setRingFifo (s : State) (r : Ring) (q : List (List Byte)) : State := { s with ddr := { s.ddr with fifo := s.ddr.fifo.sd [] r.key q } }

/-- Whether a refresh holds every access to DRAM (R444). -/
def State.dramHeld (s : State) : Bool := s.dramUp && s.up < s.ddr.busyTo

/-- A record for a ring (R165, R279): nothing where placement has disabled the ring (R447); into the ring where nothing holds it up; else into the FIFO,
and dropped and counted where that is full. -/
def State.ringPut (s : State) (r : Ring) (bytes : List Byte) : State :=
  if s.ddr.ringOff.gd false r.key then s
  else if !s.dramHeld && (s.ringFifo r).isEmpty then s.ringTake r bytes
  else if r.depth ≤ (s.ringFifo r).length then r.lost s
  else s.setRingFifo r (s.ringFifo r ++ [bytes])

/-- The FIFO of a ring drains, oldest first, once DRAM takes accesses again. -/
def State.ringDrain (s : State) (r : Ring) : State :=
  if s.dramHeld || (s.ringFifo r).isEmpty then s
  else each (s.ringFifo r) (fun x b => x.ringTake r b) (s.setRingFifo r [])

/-- Words as the bytes of a record, each least significant byte first (R4). -/
def recordBytes (ws : List Word) : List Byte := wordsBytes ws

end Sys2Proof.Machine
end

