-- ==== Sys2Proof/Machine/Threads.lean ====
section
/-!
DEFINITION. Threads and tasks of a cluster: configuration, roles and states (R194, R195, R262), hardware loops (R235, R236), the scheduling
trace (R279), wakes and ready lists (R264, R266), and the completion of waits (R209, R269).
-/

namespace Sys2Proof.Machine

/-- The CLU_THR_CFG register of thread 128 c + 8 k + t. -/
def thrCfgReg (k : Nat) : Nat := Reg.CLU_THR_CFG (k / 128) (k % 128 / 8) (k % 8)

/-- Whether a thread is enabled. -/
def State.thrEn (s : State) (k : Nat) : Bool := s.rb (thrCfgReg k) 31

/-- Whether a thread is the supervisor of its cluster (R194). -/
def isSup (k : Nat) : Bool := k % 128 == 0

/-- Whether a thread is bound to a lane stage (R194). -/
def State.thrBound (s : State) (k : Nat) : Bool := s.rb (thrCfgReg k) 30 && !isSup k

/-- Lane and stage of a bound thread. -/
def State.thrLane (s : State) (k : Nat) : Nat := s.rf (thrCfgReg k) 18 17
def State.thrStage (s : State) (k : Nat) : Nat := s.rf (thrCfgReg k) 16 14

/-- Whether a thread is pooled (R194). -/
def State.thrPooled (s : State) (k : Nat) : Bool := s.thrEn k && !s.rb (thrCfgReg k) 30 && !isSup k

/-- The state with thread k passed through f. -/
def State.updThr (s : State) (k : Nat) (f : Thread → Thread) : State := s.setThr k (f (s.thr k))

/-- The tile of the device thread k lies on (R2). -/
def tileOf (k : Nat) : Nat := k / 32

/-- The program word at an address of the tile of thread k (R221). -/
def State.pmemAt (s : State) (k : Nat) (a : BitVec 16) : PWord := s.pmemW (65536 * tileOf k + a.toNat)

/-- The two words a thread's fetch stage takes at its PC (R218). -/
def State.fetchWords (s : State) (k : Nat) : PWord × PWord :=
  (s.pmemAt k (s.thr k).ctx.pc, s.pmemAt k ((s.thr k).ctx.pc + 1))

/-- A thread that goes on at a new PC: its fetch stage takes the words there (R218), and nothing is known to stall it. -/
def State.refetch (s : State) (k : Nat) : State := s.updThr k fun t => { t with fetched := some (s.fetchWords k), stall := none }

/-- The state with task k (1024 c + i) passed through f. -/
def State.updTask (s : State) (k : Nat) (f : Task → Task) : State := s.setTask k (f (s.task k))

/-- The thread a task holds, as 128 c + 8 k + t. -/
def State.taskThr (s : State) (k : Nat) : Nat := 128 * (k / 1024) + (s.task k).thread

/-- The state of a task (R262): while it holds a thread, what the thread does decides among RUNNING, WAITING, HALTED and FAULTED. -/
def State.taskState (s : State) (k : Nat) : TaskSt :=
  if (s.task k).st = .running then
    (match (s.thr (s.taskThr k)).st with
     | .waiting => .waiting
     | .halted => .halted
     | .faulted => .faulted
     | _ => .running)
  else (s.task k).st

/-- Fields of a task's image words (R280). -/
def Task.prio (t : Task) : Nat := fld t.w0 29 25
def Task.part (t : Task) : Nat := fld t.w0 24 21
def Task.wgrp (t : Task) : Nat := fld t.w0 20 17
def Task.en (t : Task) : Bool := tbit t.w0 31
def Task.entry (t : Task) : Nat := fld t.w1 15 0

/-- The level a task runs at. -/
def Task.level (t : Task) : Priv := if tbit t.w0 30 then .k else .u

/-- The words of the direct page that DPN saves (R270). -/
def Task.dpn (t : Task) : Nat :=
  match fld t.w0 13 12 with
  | 0 => 0 | 1 => 8 | 2 => 16 | _ => 32

/-- Who acts for a thread (R210, R289): its task for a pooled thread, else the thread. -/
def State.agentOf (s : State) (k : Nat) : Agent :=
  match (s.thr k).task with
  | some i => .task (k / 128) i
  | none => .thread k

/-- The thread an agent acts on, where it holds one. -/
def State.agentThr (s : State) (a : Agent) : Option Nat :=
  match a with
  | .thread k => some k
  | .task c i => if (s.task (1024 * c + i)).st = .running then some (s.taskThr (1024 * c + i)) else none

/-- The wait of an agent, on its thread or in its saved context. -/
def State.agentWait (s : State) (a : Agent) : Option Wait :=
  match s.agentThr a, a with
  | some k, _ => (s.thr k).wait
  | none, .task c i => (s.task (1024 * c + i)).wait
  | none, .thread _ => none

/-- Whether an agent's thread is halted. -/
def State.agentHalted (s : State) (a : Agent) : Bool :=
  match s.agentThr a with
  | some k => (s.thr k).st == .halted
  | none => false

/-! ## Hardware loops -/

/-- The number of active loop levels (R235): levels whose LC is not zero, from level 0 up. -/
def Ctx.levels (x : Ctx) : Nat :=
  if x.lc[0] = 0 then 0 else if x.lc[1] = 0 then 1 else if x.lc[2] = 0 then 2 else if x.lc[3] = 0 then 3 else 4

/-- Element k of four loop registers. -/
def loopReg (v : Vector (BitVec 16) 4) (k : Nat) : BitVec 16 := v.toList.getD k 0

/-- Four loop registers with element k set. -/
def setLoopReg (v : Vector (BitVec 16) 4) (k : Nat) (x : BitVec 16) : Vector (BitVec 16) 4 := v.setIfInBounds k x

/-- The test at the end of an instruction whose last word lies at `last` (R236), from the level below n outwards. -/
def Ctx.loopTest (last next : BitVec 16) : Nat → Ctx → Ctx
  | 0, x => { x with pc := next }
  | n + 1, x =>
    if loopReg x.le n = last then
      (if 1 < (loopReg x.lc n).toNat then { x with lc := setLoopReg x.lc n (loopReg x.lc n - 1), pc := loopReg x.ls n }
       else Ctx.loopTest last next n { x with lc := setLoopReg x.lc n 0 })
    else { x with pc := next }

/-- A context after an instruction of `len` words that transfers no control (R236). -/
def Ctx.advance (x : Ctx) (len : Nat) : Ctx := Ctx.loopTest (x.pc + BitVec.ofNat 16 len - 1) (x.pc + BitVec.ofNat 16 len) x.levels x

/-- The levels that a taken BC, BR or JMPF to `target` leaves end, from the level below n outwards (R236). -/
def Ctx.leaveLoops (target : BitVec 16) : Nat → Ctx → Ctx
  | 0, x => x
  | n + 1, x =>
    if (loopReg x.ls n).toNat ≤ target.toNat ∧ target.toNat ≤ (loopReg x.le n).toNat then x
    else Ctx.leaveLoops target n { x with lc := setLoopReg x.lc n 0 }

/-- A context after a taken BC, BR or JMPF. -/
def Ctx.branchTo (x : Ctx) (target : BitVec 16) : Ctx := { Ctx.leaveLoops target x.levels x with pc := target }

/-! ## The scheduling trace -/

/-- The trace ring of cluster c (R279). -/
def State.traceRing (s : State) (c : Nat) : Ring :=
  { key := 16 + c
    baseLo := Reg.CLU_DSP_TRC_BASE_LO c
    baseHi := Reg.CLU_DSP_TRC_BASE_HI c
    wr := Reg.CLU_DSP_TRC_WR c
    rd := Reg.CLU_DSP_TRC_RD c
    size := s.rf (Reg.CLU_DSP_CFG c) 20 16
    overwrite := s.rb (Reg.CLU_DSP_CFG c) 30
    depth := 16
    lost := fun x => (x.inc (Reg.CLU_DSP_TRC_DROP c)).sqc (Reg.CLU_DSP_STATUS c) 2 (230 + 8 * c) }

/-- The second word field a trace record uses for a task that may be absent. -/
def optTask (o : Option Nat) : Nat := o.getD 0

/-- A record of the scheduling trace (R279), for tasks of a traced partition. `prio` and `aux` are those of the task concerned. -/
def State.trace (s : State) (c part : Nat) (out inn : Option Nat) (thread reason prio : Nat) (aux : Word) : State :=
  if s.rb (Reg.CLU_DSP_CFG c) 31 && s.rb (Reg.CLU_DSP_CFG c) part then
    s.ringPut (s.traceRing c) (recordBytes
      [BitVec.ofNat 32 (s.time % secU / nsU), BitVec.ofNat 32 (s.time / secU),
       BitVec.ofNat 32 ((if out.isSome then 2147483648 else 0) + (if inn.isSome then 1073741824 else 0) + optTask out * 1048576 +
         optTask inn * 1024 + thread % 128),
       BitVec.ofNat 32 (reason * 134217728 + c * 16777216 + prio * 65536 + fld aux 15 0)])
  else s

/-! ## Wakes -/

/-- A task put at the tail of the ready list of its level (R267). -/
def State.readyTail (s : State) (k : Nat) : State :=
  let l := 32 * (k / 1024) + (s.task k).prio
  (s.updTask k fun t => { t with st := .ready }).setReady l (s.ready l ++ [k % 1024])

/-- A task put at the head of the ready list of its level (R268). -/
def State.readyHead (s : State) (k : Nat) : State :=
  let l := 32 * (k / 1024) + (s.task k).prio
  (s.updTask k fun t => { t with st := .ready }).setReady l (k % 1024 :: s.ready l)

/-- A task taken out of every ready list of its cluster, and from the thread it was assigned to and has not reached. -/
def State.unready (s : State) (k : Nat) : State :=
  let s1 := each (List.range 32) (fun x p => x.setReady (32 * (k / 1024) + p) ((x.ready (32 * (k / 1024) + p)).filter (· ≠ k % 1024))) s
  { s1 with clu := { s1.clu with thr := s1.clu.thr.mapD {} fun n t =>
      if n / 128 == k / 1024 && t.incoming == some (k % 1024) then { t with incoming := none, leaving := false } else t } }

/-- The bits of the cause bitmap (R270). -/
def causeEval : Nat := 1
def causeTimer : Nat := 2
def causeFill : Nat := 4
def causeMbox : Nat := 8
def causeChan : Nat := 16
def causeRetr : Nat := 32
def causeActivate : Nat := 64

/-- Whether the partition of task k is DRAINING, so that the task receives no wakes (R347). -/
def State.taskDrains (s : State) (k : Nat) : Bool := (s.part (s.task k).part).st == 5

/-- TASK_WAKE (R266): task 1024 c + i is woken for a cause, with the auxiliary word of the wake. -/
def State.wake (s0 : State) (k cause : Nat) (aux : Word) : State :=
  let s := s0.pmuClu (k / 1024) 0x40 {} 1
  if s0.taskDrains k then s0
  else match (s.task k).st with
  | .disabled => s
  | .dormant => (s.updTask k fun t => { t with causes := cause, aux := aux }).readyTail k
  | _ =>
    if (s.task k).pend then
      ((((s.updTask k fun t => { t with lost := true }).inc (Reg.CLU_DSP_WAKE_LOST (k / 1024))).trace (k / 1024) (s.task k).part none
        (some (k % 1024)) (s.task k).thread 9 (s.task k).prio aux)).sqc (Reg.CLU_DSP_STATUS (k / 1024)) 1 (230 + 8 * (k / 1024))
    else s.updTask k fun t => { t with pend := true, pendCauses := cause, pendAux := aux }

/-- The next run of a task whose run has ended (R266, R276): READY where PEND or RETR_PEND asks for it, else DORMANT, as it is in a partition
that drains (R347). -/
def State.nextRun (s : State) (k : Nat) : State :=
  let t := s.task k
  if s.taskDrains k then s.updTask k fun t => { t with st := .dormant, inRun := false, pend := false, retrPend := false }
  else if t.pend then
    (s.updTask k fun t => { t with causes := t.pendCauses, aux := t.pendAux, pend := false, pendCauses := 0, pendAux := 0, inRun := false }).readyTail k
  else if t.retrPend then (s.updTask k fun t => { t with causes := causeRetr, aux := 0, inRun := false }).readyTail k
  else s.updTask k fun t => { t with st := .dormant, inRun := false }

/-- The tasks of cluster c that the store lists, in ascending index. -/
def State.tasksOf (s : State) (c : Nat) : List Nat := (s.clu.tasks.map Prod.fst).filter fun k => k / 1024 == c

/-! ## Budget, halts and wait groups -/

/-- Core cycles in a span of time of 2^-16 ns units: 1.25 cycles a nanosecond. -/
def coreCycles (u : Nat) : Nat := u * 5 / (4 * nsU)

/-- The time of n core cycles, rounded up. -/
def cyclesTime (n : Nat) : Nat := ceilDiv (n * 4 * nsU) 5

/-- The core cycles a run has used (R274): what earlier segments used, and the segment under way unless the thread is halted. -/
def State.runUsed (s : State) (k : Nat) : Nat :=
  if s.taskState k = .running ∨ s.taskState k = .waiting ∨ s.taskState k = .faulted then
    (s.task k).used + coreCycles (s.up - (s.task k).segStart)
  else (s.task k).used

/-- The count of a run frozen into `used`, at the end of a segment or at a halt. -/
def State.bookUsed (s : State) (k : Nat) : State := s.updTask k fun t => { t with used := s.runUsed k, segStart := s.up }

/-- The channels that an agent is filling. -/
def State.fillingOf (s : State) (a : Agent) : List Nat :=
  (s.clu.chans.filter fun p => p.2.filler == some a && (p.2.st == .filling || p.2.st == .held)).map Prod.fst

/-- Channels an agent fills become HELD when its thread halts, and FILLING when it resumes (R215). -/
def State.holdChans (s : State) (a : Agent) : State :=
  each (s.fillingOf a) (fun x k => if (x.chan k).st = .filling then x.setChan k { x.chan k with st := .held } else x) s

/-- The HELD channels of an agent become FILLING (R215). -/
def State.unholdChans (s : State) (a : Agent) : State :=
  each (s.fillingOf a) (fun x k => if (x.chan k).st = .held then x.setChan k { x.chan k with st := .filling } else x) s

/-- A halt recorded in DBG_STATUS (R471): cause 1 breakpoint, 2 command, 3 step; b is the breakpoint. -/
def State.recordHalt (s : State) (k cause b : Nat) : State :=
  s.setReg Reg.DBG_STATUS (BitVec.ofNat 32 ((s.rf Reg.DBG_STATUS 31 24 + 1) % 256 * 16777216 + k / 128 * 2097152 + k % 128 * 16384 +
    cause * 4096 + b * 1024 + s.rf Reg.DBG_STATUS 0 0))

/-- A switch that was due at the boundary of a halt (R468): the task stays, and the one that was coming in is ready again. -/
def State.stayOn (s : State) (k : Nat) : State :=
  match (s.thr k).task, (s.thr k).incoming with
  | some _, some i => (s.readyHead (1024 * (k / 128) + i)).updThr k fun t => { t with incoming := none, leaving := false }
  | _, _ => s

/-- The halt of thread k at its boundary (R214, R468): its budget is frozen and the channels it fills become HELD. -/
def State.haltThread (s0 : State) (k cause b : Nat) : State :=
  let s := s0.stayOn k
  let s1 := match (s.thr k).task with
    | some i => s.bookUsed (1024 * (k / 128) + i)
    | none => s
  ((s1.updThr k fun t => { t with
      st := .halted, haltedIn := t.st, haltWhy := if cause = 1 then .breakpoint else .debug, stepping := false }).holdChans
    (s.agentOf k)).recordHalt k cause b

/-- A member of a wait group that stops being blocked-internal ends the group's episode (R212). -/
def State.breakGroup (s : State) (a : Agent) : State :=
  match a with
  | .task c i =>
    if (s.task (1024 * c + i)).wgrp = 0 then s
    else s.setWgroup (16 * c + (s.task (1024 * c + i)).wgrp)
      { s.wgroup (16 * c + (s.task (1024 * c + i)).wgrp) with since := none, posted := none, esc := false }
  | .thread _ => s

/-! ## The instruction sampler -/

/-- The sample ring of cluster c (R463). -/
def State.sampleRing (s : State) (c : Nat) : Ring :=
  { key := 23 + c
    baseLo := Reg.CLU_PMU_SMP_BASE_LO c
    baseHi := Reg.CLU_PMU_SMP_BASE_HI c
    wr := Reg.CLU_PMU_SMP_WR c
    rd := Reg.CLU_PMU_SMP_RD c
    size := s.rf (Reg.CLU_PMU_SMP_CFG c) 20 16
    overwrite := s.rb (Reg.CLU_PMU_SMP_CFG c) 30
    depth := 16
    lost := fun x => x.inc (Reg.CLU_PMU_SMP_DROP c) }

/-- The sampled instruction of thread k retires now (R461): its record is written and counting goes on. -/
def State.retireSample (s : State) (k : Nat) : State :=
  let c := k / 128
  match (s.sampler c).out with
  | some (at_, k', ws) =>
    if k' = k then
      (s.setSampler c { s.sampler c with out := none }).ringPut (s.sampleRing c)
        (recordBytes (ws.take 3 ++ [BitVec.ofNat 32 (min (coreCycles (s.up - at_)) 65535 * 65536 + (wordAt ws 3).toNat % 65536)]))
    else s
  | none => s

/-! ## Completion of waits -/

/-- The direct-page words a receive writes (R223, R239): words 0 to 3 to 0x1F8 to 0x1FB, the length to 0x1FC. -/
def recvWords (ch : Chan) : List (Nat × Word) :=
  (List.range 4).map (fun i => (0x1F8 + i, ch.words.toList.getD i 0)) ++ [(0x1FC, BitVec.ofNat 32 (ch.len + 1))]

/-- Words written to a direct page. -/
def dpWrite (dp : SMap Word) (ws : List (Nat × Word)) : SMap Word := ws.foldl (fun m p => m.sd 0 p.1 p.2) dp

/-- A context with G register i set. -/
def Ctx.setG (x : Ctx) (i : Nat) (v : Word) : Ctx := { x with g := x.g.setIfInBounds i v }

/-- G register i of a context. -/
def Ctx.getG (x : Ctx) (i : Nat) : Word := x.g.toList.getD i 0

/-- What a completed receive brings (R210): the words and the marks of the message. -/
structure Received where
  words : List (Nat × Word) := []
  taint : Bool := false
  mark : Bool := false

/-- A context with the marks of a message received (R105). -/
def Ctx.marked (x : Ctx) (r : Received) : Ctx := { x with taint := x.taint || r.taint, mark := x.mark || r.mark }

/-- The completion of a blocking instruction with a status (R209): the status goes to the G register it names and the thread goes on after
it; for a BLOCKED task, in its saved context, and it becomes READY at the tail of its level (R269). -/
def State.finishWait (s : State) (a : Agent) (status : Nat) (r : Received) : State :=
  match s.agentThr a, a with
  | some k, _ =>
    (match (s.thr k).wait with
     | some w =>
       let s1 := (s.breakGroup a).updThr k fun t =>
         { t with
           st := if t.st = .waiting then .ready else t.st
           haltedIn := if t.haltedIn = .waiting then .ready else t.haltedIn
           wait := none
           ctx := ((t.ctx.setG w.ga (BitVec.ofNat 32 status)).marked r).advance 1
           dp := dpWrite t.dp r.words }
       let s2 := s1.retireSample k
       if (s.thr k).stepping then s2.haltThread k 3 0 else s2
     | none => s)
  | none, .task c i =>
    (match (s.task (1024 * c + i)).wait with
     | some w => ((s.breakGroup a).updTask (1024 * c + i) fun t =>
         { t with
           wait := none
           ctx := ((t.ctx.setG w.ga (BitVec.ofNat 32 status)).marked r).advance 1
           dpSaved := dpWrite t.dpSaved r.words }).readyTail (1024 * c + i) |>.retireSample (s.taskThr (1024 * c + i))
     | none => s)
  | none, .thread _ => s

end Sys2Proof.Machine
end

