-- ==== Sys2Proof/Machine/Sync.lean ====
section
/-!
DEFINITION. Channels (R210, R211) and queued locks (R287-R292): the operations on them, the waits they complete, and the loss of a holder.
-/

namespace Sys2Proof.Machine

/-! ## Channels -/

/-- Fields of CLU_CHN_CFG of channel 64 c + i. -/
def chanCfgReg (k : Nat) : Nat := Reg.CLU_CHN_CFG (k / 64) (k % 64)
def State.chanEn (s : State) (k : Nat) : Bool := s.rb (chanCfgReg k) 31
def State.chanTx (s : State) (k : Nat) : Nat := s.rf (chanCfgReg k) 27 24
def State.chanRx (s : State) (k : Nat) : Nat := s.rf (chanCfgReg k) 23 20
def State.chanWgrp (s : State) (k : Nat) : Nat := s.rf (chanCfgReg k) 19 16

/-- The first waiter of a list that is not halted (R214): a halted one completes only after it resumes. -/
def State.nextWaiter (s : State) (l : List Agent) : Option Agent := l.find? fun a => !s.agentHalted a

/-- The partition of an agent (R289). -/
def State.agentPart (s : State) (a : Agent) : Nat :=
  match a with
  | .task c i => (s.task (1024 * c + i)).part
  | .thread k => s.thrPart k

/-- Whether an agent may open, or receive from, channel k (R210): one of the partition, or the supervisor, on a channel that is enabled. -/
def State.servesTx (s : State) (k : Nat) (a : Agent) : Bool := s.chanEn k && (a == .thread (128 * (k / 64)) || s.chanTx k == s.agentPart a)
def State.servesRx (s : State) (k : Nat) (a : Agent) : Bool := s.chanEn k && (a == .thread (128 * (k / 64)) || s.chanRx k == s.agentPart a)

/-- A channel that goes to FILLING with a filler (R210); words not written read as zero. -/
def Chan.fill (ch : Chan) (a : Agent) : Chan :=
  { ch with st := .filling, words := Vector.replicate 4 0, len := 0, taint := false, prov := false, filler := some a }

/-- A channel that goes to EMPTY. -/
def Chan.clear (ch : Chan) : Chan :=
  { ch with st := .empty, words := Vector.replicate 4 0, len := 0, taint := false, prov := false, filler := none }

/-- What a receiver takes from a FULL channel (R210). -/
def Chan.message (ch : Chan) : Received := { words := recvWords ch, taint := ch.taint, mark := ch.prov }

/-- An EMPTY channel is opened for the first waiter in OPENW that may open it (R209, R210). -/
def State.serveTx (s : State) (k : Nat) : State :=
  if (s.chan k).st = .empty then
    (match s.nextWaiter ((s.chan k).txWait.filter (s.servesTx k)) with
     | some a => (s.setChan k { (s.chan k).fill a with txWait := (s.chan k).txWait.erase a }).finishWait a 0 {}
     | none => s)
  else s

/-- A FULL channel is taken by the first waiter in RECVW that may receive from it (R209, R210), and an opener that waits is then served. -/
def State.serveChan (s : State) (k : Nat) : State :=
  if (s.chan k).st = .full then
    (match s.nextWaiter ((s.chan k).rxWait.filter (s.servesRx k)) with
     | some a =>
       ((s.setChan k { (s.chan k).clear with rxWait := (s.chan k).rxWait.erase a }).finishWait a 0 (s.chan k).message).serveTx k
     | none => s)
  else s.serveTx k

/-- A FILLING or HELD message is aborted (R210): EMPTY, counted, reported. -/
def State.abortChan (s : State) (k : Nat) : State :=
  ((((s.setChan k (s.chan k).clear).inc (Reg.CLU_CHN_ABORTS (k / 64) (k % 64))).sqc (Reg.CLU_CORE_STATUS (k / 64)) 5 (229 + 8 * (k / 64)))).serveChan k

/-- Every message an agent is filling is aborted (R210). -/
def State.abortFilling (s : State) (a : Agent) : State := each (s.fillingOf a) State.abortChan s

/-- SEND of length n by the filler (R210, R211): FULL with the marks of the sender, the channel wake, and a waiting receiver. -/
def State.sendChan (s : State) (k n : Nat) (taint mark : Bool) : State :=
  let s1 := s.setChan k { s.chan k with st := .full, len := n - 1, taint := taint, prov := mark, filler := none }
  let s2 := if s.rb (chanCfgReg k) 30 then
      s1.wake (1024 * (k / 64) + s.rf (chanCfgReg k) 9 0) causeChan (BitVec.ofNat 32 (k % 64)) else s1
  (s2.pmuClu (k / 64) 0x46 {} 1).serveChan k

/-- The taking of a FULL message by a receive that does not wait. -/
def State.takeChan (s : State) (k : Nat) : State := (s.setChan k (s.chan k).clear).serveTx k

/-! ## Locks -/

/-- A lock by kind (true global) and number: 64 c + i for a local lock, i for a global one. -/
def State.lock (s : State) (glob : Bool) (k : Nat) : Lock := if glob then s.glock k else s.llock k

/-- The state with a lock replaced. -/
def State.setLock (s : State) (glob : Bool) (k : Nat) (l : Lock) : State := if glob then s.setGlock k l else s.setLlock k l

/-- PART_MASK of a lock (R287). -/
def State.lockMask (s : State) (glob : Bool) (k : Nat) : Word :=
  if glob then s.reg (Reg.CLU_LCK_GCFG 0 k) else s.reg (Reg.CLU_LCK_LCFG (k / 64) (k % 64))

/-- The cluster of an agent. -/
def Agent.cl : Agent → Nat
  | .task c _ => c
  | .thread k => k / 128

/-- The event of CLU_LCK_STATUS (R299): bit `b` of cluster c. -/
def State.lckEvent (s : State) (c b : Nat) : State := s.sqc (Reg.CLU_LCK_STATUS c) b (231 + 8 * c)

/-- The status of a grant (R288, R292). -/
def grantStatus (l : Lock) : Nat := if l.abandoned then 9 else 0

/-- A lock granted to an agent. -/
def State.grantLock (s : State) (glob : Bool) (k : Nat) (a : Agent) : State :=
  ((s.setLock glob k { s.lock glob k with holder := some a }).inc (Reg.CLU_LCK_GRANTS a.cl)).pmuClu a.cl 0x44 {} 1

/-- A released lock passes to its head waiter or becomes free (R291). A waiter that is halted holds it while halted. -/
def State.passLock (s : State) (glob : Bool) (k : Nat) : State :=
  match (s.lock glob k).queue with
  | [] => s.setLock glob k { s.lock glob k with holder := none }
  | a :: rest =>
    let s1 := (s.setLock glob k { s.lock glob k with queue := rest }).grantLock glob k a
    if s.agentHalted a then s1 else s1.finishWait a (grantStatus (s.lock glob k)) {}

/-- A request for a lock by an agent of a partition (R287-R289): the status, none where the requester joins the queue. `try_` marks the
form that never waits. -/
def State.requestLock (s : State) (glob : Bool) (k : Nat) (a : Agent) (part : Nat) (try_ : Bool) : Option Nat × State :=
  if !tbit (s.lockMask glob k) part then (some 10, (s.inc (Reg.CLU_LCK_DENIED a.cl)).lckEvent a.cl 4)
  else if (s.lock glob k).holder = some a then (some 13, s)
  else if (s.lock glob k).holder = none ∧ (s.lock glob k).queue = [] then (some (grantStatus (s.lock glob k)), s.grantLock glob k a)
  else if try_ then (some 2, s)
  else (none, s.setLock glob k { s.lock glob k with queue := (s.lock glob k).queue ++ [a] })

/-- UNLOCK by an agent of a partition (R287, R288, R291): the status and the state. -/
def State.releaseLock (s : State) (glob : Bool) (k : Nat) (a : Agent) (part : Nat) : Nat × State :=
  if !tbit (s.lockMask glob k) part then (10, (s.inc (Reg.CLU_LCK_DENIED a.cl)).lckEvent a.cl 4)
  else if (s.lock glob k).holder = none then (11, s.inc (Reg.CLU_LCK_NONHOLDER a.cl))
  else if (s.lock glob k).stuck then (14, (s.inc (Reg.CLU_LCK_NONHOLDER a.cl)).lckEvent a.cl 0)
  else if (s.lock glob k).holder = some a then (0, (s.setLock glob k { s.lock glob k with abandoned := false }).passLock glob k)
  else (8, ((s.inc (Reg.CLU_LCK_NONHOLDER a.cl)).lckEvent a.cl 0).passLock glob k)

/-- The local locks, but for those that are STUCK and that a reset alone frees (R292), and the global locks an agent holds. -/
def State.heldLocal (s : State) (a : Agent) : List Nat := (s.clu.llocks.filter fun p => p.2.holder == some a && !p.2.stuck).map Prod.fst
def State.heldGlobal (s : State) (a : Agent) : List Nat := (s.clu.glocks.filter fun p => p.2.holder == some a).map Prod.fst

/-- The release of every lock a task holds at TEND (R292). -/
def State.releaseAll (s : State) (a : Agent) : State :=
  let f := fun (glob : Bool) (x : State) (k : Nat) =>
    (((x.setLock glob k { x.lock glob k with abandoned := false }).passLock glob k).inc (Reg.CLU_LCK_TEND_REL a.cl)).lckEvent a.cl 3
  each (s.heldGlobal a) (f true) (each (s.heldLocal a) (f false) s)

/-- HOLDER_LOST (R292): the local locks of a lost holder become STUCK, its global locks ABANDONED and pass on. -/
def State.loseHolder (s : State) (a : Agent) : State :=
  let s1 := each (s.heldLocal a) (fun x k =>
    ((x.setLlock k { x.llock k with stuck := true }).inc (Reg.CLU_LCK_STUCK a.cl)).lckEvent a.cl 2) s
  each (s.heldGlobal a) (fun x k =>
    (((x.setGlock k { x.glock k with abandoned := true }).passLock true k).inc (Reg.CLU_LCK_ABANDONED a.cl)).lckEvent a.cl 1) s1

/-- An agent leaves every queue it waits in. -/
def State.leaveQueues (s : State) (a : Agent) : State :=
  { s with clu := { s.clu with
      chans := s.clu.chans.mapD {} fun _ x => { x with rxWait := x.rxWait.erase a, txWait := x.txWait.erase a }
      llocks := s.clu.llocks.mapD {} fun _ x => { x with queue := x.queue.erase a }
      glocks := s.clu.glocks.mapD {} fun _ x => { x with queue := x.queue.erase a } } }

/-- The wait of an agent completes with ABORTED (R209). -/
def State.abortWait (s : State) (a : Agent) : State := (s.leaveQueues a).finishWait a 3 {}

/-- A wait that was held up because the agent's thread was halted (R214, R289): granted or served once the thread has resumed. -/
def State.resumeWait (s : State) (a : Agent) : State :=
  match s.agentWait a with
  | some w =>
    (match w.what with
     | .lock kind i =>
       if (s.lock (kind == 1) i).holder = some a then s.finishWait a (grantStatus (s.lock (kind == 1) i)) {} else s
     | .recvw k => s.serveChan k
     | .openw k => s.serveChan k)
  | none => s

end Sys2Proof.Machine
end

