-- ==== Sys2Proof/Machine/Sched.lean ====
section
/-!
DEFINITION. The dispatcher's operations on threads and tasks (R267-R278): saving and restoring contexts, the start and the ends of a run,
squash (R255), faults (R205, R206), KILL and RESUME (R207).
-/

namespace Sys2Proof.Machine

/-! ## Budget -/

/-- USED_LAST and USED_MAX at the end of a run (R274), and whether it overran (R270). -/
def State.bookRun (s : State) (k : Nat) : State :=
  let n := min (s.runUsed k / 16) 65535
  s.updTask k fun t => { t with usedLast := n, usedMax := max t.usedMax n, prevOvr := t.ovr, ovr := false, used := 0 }

/-! ## Contexts -/

/-- The direct-page words of a task that a switch saves (R270). -/
def savedWords (t : Task) : List Nat := List.range t.dpn ++ (List.range 5).map (0x1F8 + ·)

/-- Results pending beside the pipe, other than those of the coprocessor, written into a context (R201). -/
def Ctx.land (x : Ctx) (ps : List PendResult) : Ctx :=
  ps.foldl (fun c p =>
    if !p.ready || p.ecc then c
    else match p.dest with
      | .acc => { c with acc := p.val }
      | .g i => { c with g := c.g.set i.val (p.val.setWidth 32) }
      | .ix i => if i.val = 0 then { c with ix0 := p.val.setWidth 32 } else { c with ix1 := p.val.setWidth 32 }) x

/-- The context of thread k saved as that of task i (R270). -/
def State.saveCtx (s : State) (k i : Nat) : State :=
  let th := s.thr k
  (s.updTask i fun t =>
    { t with ctx := th.ctx.land th.pend, dpSaved := (savedWords t).foldl (fun m w => m.sd 0 w (th.dp.gd 0 w)) t.dpSaved }).updThr k fun t =>
    { t with ctx := t.ctx.land t.pend, pend := t.pend.filter fun p => !p.ready }

/-- The writes of a thread's store buffer, in program order (R286). -/
def State.sramWrite (s : State) (b : BufStore) : State :=
  (List.range b.bytes.length).foldl (fun x i =>
    { x with clu := { x.clu with
        sram := x.clu.sram.sd 0 (2097152 * b.cl + b.addr + i) (byteAt b.bytes i)
        sramBad := x.clu.sramBad.sd false (262144 * b.cl + (b.addr + i) / 8) false } }) s

/-- Every store of thread k made visible (R286): what a release does first. -/
def State.drainStores (s : State) (k : Nat) : State :=
  ((s.thr k).sb.foldl State.sramWrite s).updThr k fun t => { t with sb := [] }

/-- Whether a thread has coprocessor commands outstanding (R257). -/
def State.cpxBusy (s : State) (k : Nat) : Bool := s.cpx.cmds.any fun p => p.2.live && p.2.tid == k && !p.2.squashed

/-- CPX_SQUASH (R255): the outstanding commands of a thread; what has not started goes, what has started runs on with its writes
suppressed. -/
def State.squash (s : State) (k : Nat) : State :=
  let n := (s.cpx.cmds.filter fun p => p.2.live && p.2.tid == k && !p.2.squashed).length
  ({ s with cpx := { s.cpx with cmds := s.cpx.cmds.mapD {} fun _ c =>
      if c.live && c.tid == k && !c.squashed then (if c.started then { c with squashed := true } else {}) else c } }.add
    (Reg.CPX_SQUASHED (k / 32)) n).updThr k fun t => { t with pend := t.pend.filter (·.ready) }

/-! ## Runs -/

/-- The run descriptor (R270, R276): 0x1F0-0x1F5. -/
def runDescriptor (t : Task) : List (Nat × Word) :=
  let r : Retraction := if t.retrPend then t.retr.getD ⟨0, 0, 0, 0, 0, 0⟩ else ⟨0, 0, 0, 0, 0, 0⟩
  let c := (BitVec.ofNat 32 t.causes ||| (if t.retrPend then 32#32 else 0#32)).toNat +
    (if t.lost then 128 else 0) + (if t.prevOvr then 256 else 0) + (if t.merged then 512 else 0)
  [(0x1F0, BitVec.ofNat 32 (r.code * 65536 + r.stream)), (0x1F1, BitVec.ofNat 32 (r.lastSmp * 65536 + r.firstSmp)),
   (0x1F2, BitVec.ofNat 32 r.firstG), (0x1F3, BitVec.ofNat 32 r.lastG), (0x1F4, BitVec.ofNat 32 c), (0x1F5, t.aux)]

/-- A task switched into thread k (R270, R271): its context restored; at the start of a run PC, LC, the marks, the descriptor and the
provisional-read record are set. -/
def State.switchIn (s : State) (k i : Nat) : State :=
  let t := s.task i
  let ctx := if t.inRun then t.ctx
    else { t.ctx with pc := BitVec.ofNat 16 t.entry, lc := Vector.replicate 4 0, taint := false, mark := false }
  let dp := dpWrite (s.thr k).dp ((savedWords t).map fun w => (w, t.dpSaved.gd 0 w))
  let s1 := s.updThr k fun th =>
    { th with
      st := .ready, task := some (i % 1024), priv := t.level, incoming := none, leaving := false, outTask := none
      ctx := ctx, dp := if t.inRun then dp else dpWrite dp (runDescriptor t) }
  let s2 := s1.refetch k
  if t.inRun then s2.updTask i fun t => { t with st := .running, thread := k % 128, segStart := s.up }
  else s2.updTask i fun t =>
    { t with
      st := .running, thread := k % 128, segStart := s.up, inRun := true, runs := t.runs + 1, lastStart := s.time % secU / nsU
      used := 0, ovr := false, lost := false, prevOvr := false, retrPend := false, retr := none, merged := false, reads := [], any := false }

/-- A thread left by its task with a reason for the trace (R279): IDLE, or waiting for the task coming in. -/
def State.vacate (s : State) (k reason : Nat) : State :=
  s.updThr k fun t =>
    { t with
      st := .idle, task := none, priv := .u, wait := none, idleAt := s.up, leaving := false, fetched := none, stall := none
      outTask := (match t.task with | some i => some i | none => t.outTask), outReason := reason }

/-- The normal end of the run of the task on thread k (R273): context saved, locks released, an open message aborted. -/
def State.endTask (s : State) (k : Nat) : State :=
  match (s.thr k).task with
  | some i =>
    let n := 1024 * (k / 128) + i
    let a := Agent.task (k / 128) i
    let s1 := (((s.drainStores k).saveCtx k n).bookRun n).updTask n fun t => { t with endCtx := t.ctx, endDp := t.dpSaved }
    (((s1.vacate k 3).nextRun n).abortFilling a).releaseAll a
  | none => s

/-- A forced end (R275) of task 1024 c + i, with the reason its trace shows. -/
def State.forceEnd (s : State) (n reason : Nat) : State :=
  let a := Agent.task (n / 1024) (n % 1024)
  let s1 := ((s.bookRun n).leaveQueues a).breakGroup a
  let s2 := match s.agentThr a with
    | some k => ((s1.squash k).updThr k fun t => { t with pend := [], sb := [] }).vacate k reason
    | none => s1.unready n
  let s3 := ((s2.updTask n fun t => { t with ctx := t.endCtx, dpSaved := t.endDp, wait := none }).nextRun n).abortFilling a
  ((s3.loseHolder a).inc (Reg.CLU_DSP_FORCED (n / 1024))).sqc (Reg.CLU_DSP_STATUS (n / 1024)) 4 (230 + 8 * (n / 1024))

/-! ## Packets held by bound threads -/

/-- The release of the packet thread k holds, out of the stage it was taken in, with a disposition (R147) and, for RECIRC, lane and stage (R151). -/
def State.releasePkt (s : State) (k disp lane stage : Nat) : State :=
  match (s.thr k).packet with
  | some f =>
    let at_ := match (s.frame f).loc with
      | .held l st _ => FrameLoc.reorder l st
      | _ => .reorder (s.thrLane k) (s.thrStage k)
    (s.setFrame f { s.frame f with loc := at_, relAt := s.up, relDisp := disp + 4 * lane + 16 * stage }).updThr k fun t =>
        { t with packet := none }
  | none => s

/-! ## Faults -/

/-- An error of tile j counted toward ERR_MAX (R351). -/
def State.tileError (s : State) (j : Nat) : State :=
  { s with cfg := { s.cfg with errs := s.cfg.errs.sd [] j (s.up :: (s.cfg.errs.gd [] j).filter fun t => s.up < t + secU) } }

/-- A fault record (R206). -/
def State.faultRecord (s : State) (k code : Nat) (imprecise : Bool) (addr : Word) (pc : BitVec 16) (iw : PWord) : List Word :=
  [BitVec.ofNat 32 (code * 268435456 + s.thrPart k * 16777216 + k % 128 * 131072 + (if imprecise then 65536 else 0) +
     (if s.thrBound k then 32768 else 0) + (s.thr k).task.getD 0),
   BitVec.ofNat 32 (iw.toNat * 65536 + pc.toNat), addr, BitVec.ofNat 32 (s.time % secU / nsU)]

/-- A fault record posted to the queue of cluster c, or lost (R206). -/
def State.postFault (s : State) (c : Nat) (r : List Word) : State :=
  if 16 ≤ (s.fltq c).length then (s.inc (Reg.CLU_FLT_OVF c)).sqc (Reg.CLU_CORE_STATUS c) 1 (225 + 8 * c)
  else ((s.setFltq c (s.fltq c ++ [r]))).sqc (Reg.CLU_CORE_STATUS c) 0 (224 + 8 * c)

/-- A fault stops thread k (R205, R207): FAULTED, the record, the packet of a bound thread dropped, messages it fills aborted, and for the
supervisor its own event. -/
def State.faultAt (s : State) (k code : Nat) (imprecise : Bool) (addr : Word) (pc : BitVec 16) (iw : PWord) : State :=
  let c := k / 128
  let s00 := if code = 6 ∨ code = 7 then s.tileError (k / 32) else s
  let s0 := if (s.thr k).wait.isSome then s00.leaveQueues (s.agentOf k) else s00
  let s1 := (((s0.inc (Reg.CLU_FAULTS c)).pmuCore c (k % 128 / 8) 0x0E (s.privAttr k) 1).postFault c (s.faultRecord k code imprecise addr pc iw)).updThr k fun t =>
    { t with st := .faulted, faultAt := s.up, wait := none, stepping := false }
  let s2 := if s.thrBound k then s1.releasePkt k 2 0 0 else s1
  let s3 := s2.abortFilling (s.agentOf k)
  if isSup k then s3.sqc (Reg.CLU_CORE_STATUS c) 2 (226 + 8 * c) else s3

/-- The supervisor of cluster c (re)started at ENTRY (R194, R207). -/
def State.startSup (s : State) (c : Nat) : State :=
  (s.updThr (128 * c) fun t =>
    { t with
      st := .ready, priv := .s, wait := none, ie := false, maskAt := some s.up
      ctx := { t.ctx with pc := BitVec.ofNat 16 (s.rf (Reg.CLU_SUP_CFG c) 31 16) } }).refetch (128 * c)

/-- KILL of thread k (R207): a pooled thread's task ends as faulted; a bound thread goes to IDLE; the supervisor starts again at ENTRY. -/
def State.killThread (s : State) (k : Nat) : State :=
  match (s.thr k).task with
  | some i => s.forceEnd (1024 * (k / 128) + i) 7
  | none =>
    let s1 := (((s.squash k).leaveQueues (.thread k)).abortFilling (.thread k)).loseHolder (.thread k)
    let s2 := s1.updThr k fun t => { t with pend := [], sb := [], wait := none }
    if isSup k then s2.startSup (k / 128) else s2.updThr k fun t => { t with st := .idle, idleAt := s.up, fetched := none, stall := none, overrun := false }

/-- RESUME of thread k at an address (R207). -/
def State.resumeThread (s : State) (k : Nat) (pc : BitVec 16) : State :=
  (s.updThr k fun t => { t with st := .ready, ctx := { t.ctx with pc := pc } }).refetch k

end Sys2Proof.Machine
end

