-- ==== Sys2Proof/Machine/TimeOps.lean ====
section
/-!
DEFINITION. Indigo's operations (R27-R50, R504): the TimeQuality octet, the time state machine, steps of device time, validation and
firing of named instants, the value, rate and history of an angle clock, evaluation points, and the port timestamp.
-/

namespace Sys2Proof.Machine

/-- An event number that names no event: for SQC bits that no event stands for. -/
def noEvent : Nat := 511

/-- The TimeQuality octet (R33). -/
def State.timeQuality (s : State) : Nat :=
  (if s.rb Reg.IND_UTC_OFFSET 16 then 128 else 0) + (if s.ind.pllLock then 0 else 64) +
  (match s.ind.st with
   | .freerun => 32 + 31
   | .acquiring => 32 + 31
   | .locked => s.rf Reg.IND_SRC_CFG 25 21
   | .holdover => if s.ind.holdExp then 32 + 31 else s.rf Reg.IND_SRC_CFG 25 21)

/-- The code of a time state in IND_TIME_STATUS (R53). -/
def timeStateCode : TimeState → Nat
  | .freerun => 0
  | .acquiring => 1
  | .locked => 2
  | .holdover => 3

/-- HOLD_EXPIRED and ClockNotSynchronized of HOLDOVER (R33): set once an episode, with EV047. -/
def State.expireHold (s : State) : State :=
  { s with ind := { s.ind with holdExp := true } }.sqcEach Reg.IND_TIME_STATUS 18 47

/-- A change of time state (R31): EV032 where it changes. FREERUN is unsteered; entering HOLDOVER sets its flag, and with HOLD_MAX 0 expires
at once. -/
def State.setTimeState (s : State) (x : TimeState) : State :=
  if s.ind.st = x then s
  else
    let s0 := if x = .freerun then s.setReg Reg.IND_STEER 0 else s
    let s1 := ({ s0 with ind := { s0.ind with st := x, lockN := 0, stepUsed := false, holdAt := s0.up, holdExp := false } }).deliver 32
    if x = .holdover then
      (if s.rf Reg.IND_SRC_CFG 15 0 = 0 then (s1.sqc Reg.IND_TIME_STATUS 5 noEvent).expireHold
       else s1.sqc Reg.IND_TIME_STATUS 5 noEvent)
    else s1

/-- The signal a time input carries: 0 1PPS, 1 IRIG-B, 2 10 MHz (R36). -/
def State.tinSig (s : State) (n : Nat) : Nat := s.rf (Reg.IND_TIN_CFG n) 30 29

/-- The record of a time input. -/
def State.tinSrc (s : State) (n : Nat) : SourceState := if n = 0 then s.ind.tin0 else s.ind.tin1

/-- The state with the record of a time input replaced. -/
def State.setTinSrc (s : State) (n : Nat) (x : SourceState) : State :=
  if n = 0 then { s with ind := { s.ind with tin0 := x } } else { s with ind := { s.ind with tin1 := x } }

/-- Whether the 10 MHz of input n held its count in the last second (R30). -/
def State.tenOk (s : State) (n : Nat) : Bool := if n = 0 then s.ind.ten0 else s.ind.ten1

/-- Whether time source x (1 PTP, 2 TIN0, 3 TIN1) is qualified (R30). An input of 10 MHz and the 1PPS on the other input are one
source, and naming either names the pair. -/
def State.srcQualified (s : State) (x : Nat) : Bool :=
  if x = 1 then s.ind.gmSel && s.ind.ptp.qual
  else if x = 2 ∨ x = 3 then
    (if !s.rb (Reg.IND_TIN_CFG (x - 2)) 31 then false
     else if s.tinSig (x - 2) = 2 then s.tenOk (x - 2) && (s.tinSrc (3 - x)).qual && s.tinSig (3 - x) == 0
     else if s.tinSig (x - 2) = 0 ∧ s.tinSig (3 - x) = 2 ∧ s.rb (Reg.IND_TIN_CFG (3 - x)) 31 then
       s.tenOk (3 - x) && (s.tinSrc (x - 2)).qual
     else (s.tinSrc (x - 2)).qual)
  else false

/-- The configured sources in their order (R31): a source named twice counts at the higher place only. -/
def State.srcOrder (s : State) : List Nat :=
  ([s.rf Reg.IND_SRC_CFG 31 30, s.rf Reg.IND_SRC_CFG 29 28, s.rf Reg.IND_SRC_CFG 27 26].filter (· ≠ 0)).eraseDups

/-- The qualified source that stands highest in the order, 0 for none. -/
def State.bestSrc (s : State) : Nat := (s.srcOrder.find? fun x => s.srcQualified x).getD 0

/-- The measured offset of a source in ns (R32). A pair of 1PPS and 10 MHz has the offset of its 1PPS input. -/
def State.offsetOf (s : State) (x : Nat) : Int :=
  if x = 1 then s.ind.ptp.off
  else if x = 2 then (if s.tinSig 0 = 2 then s.ind.tin1.off else s.ind.tin0.off)
  else (if s.tinSig 1 = 2 then s.ind.tin0.off else s.ind.tin1.off)

/-- The offset registers show what was measured as signed ns, saturated to 32 bits (R32, R53; the saturation is the model's, log 140). -/
def State.showOffsets (s : State) : State :=
  ((s.setReg Reg.IND_OFFSET_PTP (wordOfInt (satS 32 s.ind.ptp.off))).setReg Reg.IND_OFFSET_TIN0 (wordOfInt (satS 32 s.ind.tin0.off))).setReg
    Reg.IND_OFFSET_TIN1 (wordOfInt (satS 32 s.ind.tin1.off))

/-- A change of the selected source (R31, EV033); the count of updates starts afresh. -/
def State.selectSrc (s : State) (x : Nat) : State :=
  if s.ind.src = x then s
  else ({ s with ind := { s.ind with src := x, lockN := 0 } }).sqcEach Reg.IND_TIME_STATUS 6 33

/-- What a change in the qualification of sources does to the time state at once (R31): a qualified configured source ends FREERUN;
none left ends ACQUIRING, and LOCKED goes to HOLDOVER. -/
def State.judgeSources (s : State) : State :=
  if s.bestSrc = 0 then
    (match s.ind.st with
     | .acquiring => (s.selectSrc 0).setTimeState .freerun
     | .locked => (s.selectSrc 0).setTimeState .holdover
     | .holdover => s.selectSrc 0
     | .freerun => s)
  else if s.ind.st = .freerun then s.setTimeState .acquiring else s

/-- Whether a commit named by a PTP instant is armed (R28, R31). -/
def State.ptpCommitArmed (s : State) : Bool :=
  match s.ind.commit with
  | some a => (match a.inst with | .ptp _ => true | .angle _ _ => false | .elapsed _ => false)
  | none => false

/-- Whether R28 permits a step of device time. -/
def State.stepAllowed (s : State) : Bool :=
  s.rb Reg.IND_TIME_CTRL 0 && (s.ind.st == .freerun || s.ind.st == .acquiring) && !s.ptpCommitArmed

/-- An armed instant as a step from device time t to t' leaves it (R29): marked LATE where a forward step passes it. -/
def lateAfter (t t' : Nat) (a : ArmedInstant) : ArmedInstant :=
  match a.inst with
  | .ptp i => if t < i ∧ i ≤ t' then { a with late := true } else a
  | .angle _ _ => a
  | .elapsed _ => a

/-- A step of device time to t' (R28, R29): EV035; pending PTP-named instants that it passes are marked LATE. -/
def State.stepTime (s : State) (t' : Nat) : State :=
  ({ s with
      time := t'
      ind := { s.ind with
        commit := s.ind.commit.map (lateAfter s.time t')
        units := s.ind.units.mapD none fun _ => Option.map (lateAfter s.time t')
        aclk := s.ind.aclk.mapD {} fun _ c => { c with hist := ((t', c.val) :: (s.time, c.val) :: c.hist).take 64 } }
      clu := { s.clu with timers := s.clu.timers.mapD none fun _ => Option.map (lateAfter s.time t') } }).sqcEach
    Reg.IND_TIME_STATUS 7 35

/-- E of an angle clock (R45, E_SEL). -/
def eSel (n : Nat) : Nat :=
  match n with
  | 0 => 8 | 1 => 16 | 2 => 24 | 3 => 32 | 4 => 48 | 5 => 64 | 6 => 96 | _ => 128

/-- Evaluations per cycle of clock n. -/
def State.aclkE (s : State) (n : Nat) : Nat := eSel (s.rf (Reg.IND_ACLK_CFG n) 26 24)

/-- Grid points per cycle of clock n (R121): 32, 64 or 128; the reserved code is held as 128 (the checker bounds it). -/
def State.aclkG (s : State) (n : Nat) : Nat :=
  match s.rf (Reg.IND_ACLK_CFG n) 23 22 with
  | 0 => 32 | 1 => 64 | _ => 128

/-- The nominal frequency of clock n in Hz. -/
def State.aclkNom (s : State) (n : Nat) : Nat := if s.rb (Reg.IND_ACLK_CFG n) 27 then 60 else 50

/-- One hertz in the units of IND_ACLK_FREQ. -/
def hzU : Nat := 16777216

/-- One cycle in the units of `AngleClock.val`. -/
def cycU : Nat := 4294967296 * 1000000000

/-- Whether a clock runs: LOCKED, HELD or FIXED (R42). -/
def AngleClock.running (c : AngleClock) : Bool := c.st == .locked || c.st == .held || c.st == .fixed

/-- The 64-bit value of a clock (R6), zero where it does not run (R43). -/
def AngleClock.value (c : AngleClock) : Nat := if c.running then c.val / 1000000000 % 18446744073709551616 else 0

/-- What a clock's value gains in one tick, in the units of `val`: (freq + corr) × 4 ns. -/
def AngleClock.perTick (c : AngleClock) : Nat := (((c.freq : Int) + c.corr) * 1024).toNat

/-- A clock after one tick. -/
def AngleClock.tick (c : AngleClock) : AngleClock := if c.running then { c with val := c.val + c.perTick } else c

/-- A clock with a breakpoint of its history at the device time t: taken wherever its rate or run changes. -/
def AngleClock.mark (c : AngleClock) (t : Nat) : AngleClock := { c with hist := ((t, c.val) :: c.hist).take 64 }

/-- The lowest evaluation point at or after the value v (in whole units of 2^-32 cycle) for E points a cycle. -/
def firstPoint (v e : Nat) : Nat × Nat :=
  match (List.range e).find? fun k => v % 4294967296 ≤ k * 4294967296 / e with
  | some k => (v / 4294967296, k)
  | none => (v / 4294967296 + 1, 0)

/-- The value of evaluation point k of cycle c, in the units of `val`. -/
def pointVal (c k e : Nat) : Nat := (c * 4294967296 + k * 4294967296 / e) * 1000000000

/-- The value from which a clock aims and its grid begins: the cycle boundary where the tick that has just passed reached one (R45, R505: a commit
named on a boundary finds the value at or past it by less than a tick), else the value. -/
def AngleClock.base (c : AngleClock) : Nat := if c.val % cycU < c.perTick then c.val - c.val % cycU else c.val

/-- A clock whose next evaluation point is set to the first at or after its base; a value inside a unit has passed that unit. -/
def AngleClock.aim (c : AngleClock) (e : Nat) : AngleClock :=
  let p := firstPoint (ceilDiv c.base 1000000000) e
  { c with nextC := p.1, nextK := p.2 }

/-- Whether an evaluation point of clock n has been reached and not strobed (R45). -/
def State.evalDue (s : State) (n : Nat) : Bool :=
  (s.aclk n).running && pointVal (s.aclk n).nextC (s.aclk n).nextK (s.aclkE n) ≤ (s.aclk n).val

/-- Whether an armed instant is reached (R48): device time or angle value is at or past it. -/
def State.instReached (s : State) (a : ArmedInstant) : Bool :=
  match a.inst with
  | .elapsed t => t ≤ s.up
  | .ptp t => a.late || t ≤ s.time
  | .angle n v => (s.aclk n).running && (((s.aclk n).value + 18446744073709551616 - v) % 18446744073709551616 < 9223372036854775808)

/-- The result code of a firing (R47). -/
def fireCode (a : ArmedInstant) : Nat := if a.late then 6 else 5

/-- Whether a commit is due: armed, preloaded and reached (R49, R333). -/
def State.commitDue (s : State) : Bool :=
  match s.ind.commit with
  | some a => s.instReached a
  | none => false

/-- Whether general unit u is due. -/
def State.unitDue (s : State) (u : Nat) : Bool :=
  match s.unit u with
  | some a => s.instReached a
  | none => false

/-- The descriptor a list of four words holds, as KIND, ACLK, and the value (R46). -/
def descKind (d : List Word) : Nat := fld (wordAt d 0) 31 30

/-- The 96-bit VALUE of a descriptor. -/
def descValue (d : List Word) : Nat := wordsNat (d.drop 1 |>.take 3)

/-- Whether a descriptor is malformed (R47, BAD_INSTANT); `onCommit` where it is for the commit unit. -/
def descBad (d : List Word) (onCommit : Bool) : Bool :=
  descKind d == 3 || fld (wordAt d 0) 29 28 != 0 || fld (wordAt d 0) 23 0 != 0 ||
  (descKind d == 1 && (fld (wordAt d 0) 27 24 != 0 || nfld (descValue d) 47 16 ≥ 1000000000)) ||
  (descKind d == 2 && ((wordAt d 3).toNat != 0 || (onCommit && (wordAt d 1).toNat != 0)))

/-- The instant a well-formed descriptor names. -/
def descInstant (d : List Word) : Instant :=
  if descKind d = 2 then .angle (fld (wordAt d 0) 27 24) (descValue d % 18446744073709551616) else .ptp (timeOf96 (descValue d))

/-- Whether an instant is PAST (R47). -/
def State.instPast (s : State) (i : Instant) : Bool :=
  match i with
  | .elapsed t => t ≤ s.up
  | .ptp t => t ≤ s.time + 256 * nsU
  | .angle n v =>
    (v + 18446744073709551616 - (s.aclk n).value) % 18446744073709551616 < 16777216 ||
    (v + 18446744073709551616 - (s.aclk n).value) % 18446744073709551616 ≥ 9223372036854775808

/-- Whether the clock an instant needs is not ready (R47). -/
def State.instNotReady (s : State) (i : Instant) (onCommit : Bool) : Bool :=
  match i with
  | .elapsed _ => false
  | .ptp _ => onCommit && (s.ind.st == .freerun || s.ind.st == .acquiring)
  | .angle n _ => !(s.aclk n).running

/-- The validation of a descriptor at the moment it is received (R47): BAD_INSTANT, BUSY, CLOCK_NOT_READY, PAST, else ACCEPTED. -/
def State.validate (s : State) (d : List Word) (onCommit busy : Bool) : Nat :=
  if descBad d onCommit then 3
  else if busy then 4
  else if s.instNotReady (descInstant d) onCommit then 2
  else if s.instPast (descInstant d) then 1
  else 0

/-- The armed instant of a unit after it fires in this tick (R504): the next instant of its series that lies after now, if it has a
period. A period counts ns for a PTP instant and 2^-32 cycle for an angle instant. -/
def State.rearm (s : State) (a : ArmedInstant) : Option ArmedInstant :=
  if a.period = 0 then none
  else
    match a.inst with
    | .elapsed _ => none
    | .ptp t => some { a with inst := .ptp (t + ((s.time - t) / (a.period * nsU) + 1) * (a.period * nsU)), late := false }
    | .angle n v =>
      some { a with
        inst := .angle n ((v + (((s.aclk n).value + 18446744073709551616 - v) % 18446744073709551616 / a.period + 1) * a.period) %
          18446744073709551616)
        late := false }

/-- A time as a descriptor's device time, rounded down to 1 ns (R36, R59). -/
def floorNs (t : Nat) : Nat := t / nsU * nsU

/-- A device time less a signed number of nanoseconds, not below zero. -/
def lessNs (t : Nat) (ns : Int) : Nat := ((t : Int) - ns * (nsU : Int)).toNat

/-! ## Redundancy groups (R64) -/

/-- MODE and the ports of redundancy group r. -/
def State.redMode (s : State) (r : Nat) : Nat := s.rf (Reg.ETH_RED_CFG r) 31 29
def State.redA (s : State) (r : Nat) : Nat := s.rf (Reg.ETH_RED_CFG r) 23 20
def State.redB (s : State) (r : Nat) : Nat := s.rf (Reg.ETH_RED_CFG r) 19 16
def State.redI (s : State) (r : Nat) : Nat := s.rf (Reg.ETH_RED_CFG r) 15 12

/-- Whether group r has a role. -/
def State.redOn (s : State) (r : Nat) : Bool := 1 ≤ s.redMode r && s.redMode r ≤ 4

/-- Whether group r is on PRP, or on an HSR ring. -/
def State.redPrp (s : State) (r : Nat) : Bool := s.redMode r == 1 || s.redMode r == 2
def State.redHsr (s : State) (r : Nat) : Bool := s.redMode r == 3 || s.redMode r == 4

/-- The group of which port p is port A or B. -/
def State.redOf (s : State) (p : Nat) : Option Nat :=
  (List.range 8).find? fun r => s.redOn r && (s.redA r == p || s.redB r == p) && p < 16

/-- Whether port p is port A or B of a group of an HSR ring, or of PRP. -/
def State.onRing (s : State) (p : Nat) : Bool := match s.redOf p with | some r => s.redHsr r | none => false
def State.onPrp (s : State) (p : Nat) : Bool := match s.redOf p with | some r => s.redPrp r | none => false

/-- The other port of A and B of the group of port p. -/
def State.redTwin (s : State) (p : Nat) : Nat :=
  match s.redOf p with
  | some r => if s.redA r = p then s.redB r else s.redA r
  | none => p

/-! ## Stamps -/

/-- The instant of an edge that comes `sub` ns after the last tick, at the 1 ns resolution of the four capturing interfaces (R17). -/
def State.stampNs (s : State) (sub : Nat) : Nat := floorNs s.time + sub * nsU

/-- The timestamp of a frame whose SFD crosses the ball of port p `sub` ns after the last tick (R17, R59, R61): less the fixed PHY delay of the
port's mode and the signed ETH_TS_COMP. -/
def State.portStamp (s : State) (p sub : Nat) : Nat :=
  if p < 16 then
    lessNs (s.stampNs sub) ((Config.phyDelay (s.rf (Reg.ETH_PORT_CFG p) 31 29) : Int) + wordInt (s.reg (Reg.ETH_TS_COMP p)))
  else s.stampNs sub

/-- A change of an angle clock: its flags set in IND_ACLK_STATUS (SEQ advances by one), EV048 + n where the state changes or a flag
is set (R54, log 142). -/
def State.aclkEvent (s : State) (n flags : Nat) (changed : Bool) : State :=
  let old := s.rf (Reg.IND_ACLK_STATUS n) 14 10
  let new := (BitVec.ofNat 5 old ||| BitVec.ofNat 5 flags).toNat
  if !changed && flags == 0 then s
  else
    ((s.setRf (Reg.IND_ACLK_STATUS n) 14 10 new).setRf (Reg.IND_ACLK_STATUS n) 31 24
      (s.rf (Reg.IND_ACLK_STATUS n) 31 24 + 1)).deliver (48 + n)

/-- The flags of IND_ACLK_STATUS as `aclkEvent` takes them, bit 0 for register bit 10. -/
def aclkReacq : Nat := 1
def aclkLoss : Nat := 2
def aclkHoldExpired : Nat := 8
def aclkSlewLimit : Nat := 16

end Sys2Proof.Machine
end

