-- ==== Sys2Proof/Machine/Dsp.lean ====
section
/-!
DEFINITION. The task dispatcher (R261-R280): eligibility, assignment, preemption, switching, staging, timers, budgets, the commands ACTIVATE
and CANCEL, retraction delivery, and the snapshot of a task control block.
-/

namespace Sys2Proof.Machine

/-! ## Assignment -/

/-- Whether thread k is eligible for task n (R263): an enabled pooled thread of its partition on a core of CORE_MASK. -/
def State.eligible (s : State) (n k : Nat) : Bool :=
  s.thrPooled k && s.thrPart k == (s.task n).part && tbit (s.task n).w1 (16 + k % 128 / 8)

/-- The threads of cluster c that are eligible for task n, in ascending index. -/
def State.eligibleThreads (s : State) (n : Nat) : List Nat :=
  ((List.range 128).map (128 * (n / 1024) + ·)).filter fun k => s.eligible n k

/-- Whether a thread is IDLE and nothing is assigned to it. -/
def State.thrFree (s : State) (k : Nat) : Bool := (s.thr k).st == .idle && (s.thr k).incoming.isNone

/-- The better of two IDLE threads for task i (R267): a staged one, else the one idle longest; the first keeps ties. -/
def State.betterIdle (s : State) (i : Nat) (a b : Nat) : Nat :=
  let sa := (s.thr a).staged == some i
  let sb := (s.thr b).staged == some i
  if sa != sb then (if sb then b else a) else if (s.thr b).idleAt < (s.thr a).idleAt then b else a

/-- The better of two candidates of a list that is not empty. -/
def pick (f : Nat → Nat → Nat) : List Nat → Option Nat
  | [] => none
  | k :: ks => some (ks.foldl f k)

/-- The IDLE thread that rule 1 of R267 takes for task n. -/
def State.idleFor (s : State) (n : Nat) : Option Nat := pick (s.betterIdle (n % 1024)) ((s.eligibleThreads n).filter s.thrFree)

/-- Whether the task of thread k may be preempted by task n (R267). -/
def State.preemptible (s : State) (n k : Nat) : Bool :=
  match (s.thr k).task with
  | some i =>
    ((s.thr k).st == .ready || (s.thr k).st == .waiting) && (s.thr k).incoming.isNone && (s.task n).prio < (s.task (1024 * (k / 128) + i)).prio
  | none => false

/-- The task of a thread, as 1024 c + i. -/
def State.taskOn (s : State) (k : Nat) : Nat := 1024 * (k / 128) + (s.thr k).task.getD 0

/-- The better of two threads to preempt (R267): the lower priority, then the segment that started last. -/
def State.betterVictim (s : State) (a b : Nat) : Nat :=
  let ta := s.task (s.taskOn a)
  let tb := s.task (s.taskOn b)
  if ta.prio < tb.prio then b else if tb.prio < ta.prio then a else if ta.segStart < tb.segStart then b else a

/-- The thread that rule 2 of R267 preempts for task n. -/
def State.victimFor (s : State) (n : Nat) : Option Nat := pick s.betterVictim ((s.eligibleThreads n).filter (s.preemptible n))

/-- The ready tasks of cluster c in order of level and list position. -/
def State.readyOrder (s : State) (c : Nat) : List Nat :=
  (List.range 32).flatMap fun p => (s.ready (32 * c + p)).map (1024 * c + ·)

/-- The first ready task that gets a thread, with the thread and whether it is preempted (R267). -/
def State.firstAssignable (s : State) (c : Nat) : Option (Nat × Nat × Bool) :=
  (s.readyOrder c).findSome? fun n =>
    match s.idleFor n with
    | some k => some (n, k, false)
    | none => (s.victimFor n).map fun k => (n, k, true)

/-- A ready task taken out of its list and assigned to thread k; where it preempts, the task there is to leave. -/
def State.assignTo (s : State) (n k : Nat) (preempt : Bool) : State :=
  (s.unready n).updThr k fun t => { t with incoming := some (n % 1024), leaving := t.leaving || preempt }

/-- TASK_ASSIGN (R267): the dispatcher's next assignment. -/
def execTaskAssign (c : Fin 6) (s : State) : Host.Outcome State Fault Refusal :=
  done s (match s.firstAssignable c.val with
    | some (n, k, preempt) => s.assignTo n k preempt
    | none => s)

/-! ## Leaving and switching -/

/-- Whether nothing holds the context of thread k back: no coprocessor command outstanding (R257) and no load that is to fault. -/
def State.drained (s : State) (k : Nat) : Bool := !s.cpxBusy k && (s.thr k).pend.all fun p => !p.ecc

/-- The context of the task on thread k is saved and the thread vacated, with the reason of the trace (R268, R269, R273); the run goes on. -/
def State.leaveThread (s : State) (k reason : Nat) : State :=
  let n := s.taskOn k
  ((((s.drainStores k).saveCtx k n).bookUsed n).updTask n fun t => { t with wait := (s.thr k).wait, st := .blocked }).vacate k reason

/-- TASK_PREEMPT (R268): the outgoing task at its boundary, once its coprocessor commands have completed. A WAITING task becomes BLOCKED,
any other goes to the head of its level. -/
def execTaskPreempt (t : ThreadId) (s : State) : Host.Outcome State Fault Refusal :=
  done s (
    let k := tidNat t
    let th := s.thr k
    if th.leaving && th.task.isSome && (th.st == .ready || th.st == .waiting) && s.drained k then
      let s1 := (((s.leaveThread k 2).inc (Reg.CLU_DSP_PREEMPTS (k / 128)))).pmuClu (k / 128) 0x43 {} 1
      if th.st = .waiting then s1 else s1.readyHead (s.taskOn k)
    else s)

/-- TASK_SWITCH (R271): the swap of the incoming task into an idle thread. -/
def execTaskSwitch (t : ThreadId) (s : State) : Host.Outcome State Fault Refusal :=
  done s (
    let k := tidNat t
    let c := k / 128
    let th := s.thr k
    match th.incoming with
    | some i =>
      if th.st == .idle then
        let n := 1024 * c + i
        let s1 := ((s.inc (Reg.CLU_DSP_SWITCHES c)).pmuClu c 0x41 {} 1).pmuCore c (k % 128 / 8) 0x0D {} 1
        let s2 := if th.staged = some i then s1 else (s1.inc (Reg.CLU_DSP_UNSTAGED c)).pmuClu c 0x42 {} 1
        ((s2.switchIn k n).updThr k fun x => { x with staged := none }).trace c (s.task n).part th.outTask (some i) k
          (if th.outTask.isSome then th.outReason else 1) (s.task n).prio (s.task n).aux
      else s
    | none => s)

/-- Whether task n is due to wake at an evaluation strobe within the next 1,250 core cycles (R271). -/
def State.dueSoon (s : State) (n : Nat) : Bool :=
  let w2 := (s.task n).w2
  let a := fld w2 27 24
  let c := s.aclk a
  fld w2 31 29 == 1 && c.running && pointVal c.nextC c.nextK (s.aclkE a) ≤ c.val + 250 * c.perTick &&
    (c.nextC % 4294967296 * s.aclkE a + c.nextK) % (fld w2 23 17 + 1) == fld w2 16 10

/-- The tasks of the cluster of thread k that a staging slot may hold, ranked as R267 ranks them (R271): by level, the ready ones in list order before
those due soon. -/
def State.stageOrder (s : State) (k : Nat) : List Nat :=
  let c := k / 128
  (List.range 32).flatMap fun p => (s.ready (32 * c + p)).map (1024 * c + ·) ++
    (s.tasksOf c).filter fun n => (s.task n).st == .dormant && (s.task n).prio == p && s.dueSoon n

/-- The task that would next be assigned to thread k (R271). -/
def State.stageFor (s : State) (k : Nat) : Option Nat := (s.stageOrder k).find? fun n => s.eligible n k

/-- STAGING_LOAD (R271): the staging slot of a thread comes to hold the task that would next be assigned to it. -/
def execStagingLoad (t : ThreadId) (task : Fin 1024) (s : State) : Host.Outcome State Fault Refusal :=
  done s (
    let k := tidNat t
    if s.stageFor k = some (1024 * (k / 128) + task.val) then
      s.updThr k fun x => { x with staged := some task.val }
    else s)

/-! ## Wakes from a source -/

/-- The tasks of cluster c that the given source wakes (R264), in ascending index. -/
def State.tasksOfSource (s : State) (c wsrc idx : Nat) : List Nat :=
  (s.tasksOf c).filter fun n => (s.task n).en && fld (s.task n).w2 31 29 == wsrc && fld (s.task n).w2 9 0 == idx

/-- Every task of cluster c that a source names is woken. -/
def State.wakeSource (s : State) (c wsrc idx cause : Nat) (aux : Word) : State :=
  each (s.tasksOfSource c wsrc idx) (fun x n => x.wake n cause aux) s

/-- Evaluation wakes of angle clock a with evaluation number m (R264). -/
def State.wakeEval (s : State) (a m : Nat) : State :=
  each (List.range 6) (fun x c =>
    each ((x.tasksOf c).filter fun n =>
      let w2 := (x.task n).w2
      (x.task n).en && fld w2 31 29 == 1 && fld w2 27 24 == a && m % (fld w2 23 17 + 1) == fld w2 16 10)
      (fun y n => y.wake n causeEval (BitVec.ofNat 32 m)) x) s

/-- The result of a firing in an SQC status register of an instant unit: its code in [2:0] and FIRED (R47, R265). -/
def State.fireResult (s : State) (off : Nat) (code : Nat) : State := (s.setRf off 2 0 code).sqc off 7 noEvent

/-- DISPATCHER_TIMER_FIRE (R265, R29): a timer whose instant is reached fires, wakes its tasks and re-arms if it has a period; a late one is
reported. -/
def execDispatcherTimerFire (c : Fin 6) (u : Fin 32) (s : State) : Host.Outcome State Fault Refusal :=
  done s (
    match s.timer (32 * c.val + u.val) with
    | some a =>
      if s.instReached a then
        let s1 := (s.setTimer (32 * c.val + u.val) (s.rearm a)).fireResult (Reg.CLU_DSP_TMR_STATUS c.val u.val) (fireCode a)
        let s2 := if a.late then (s1.sqc (Reg.CLU_DSP_STATUS c.val) 5 (230 + 8 * c.val)).deliver 42 else s1
        s2.wakeSource c.val 2 u.val causeTimer (BitVec.ofNat 32 u.val)
      else s
    | none => s)

/-! ## Budgets -/

/-- BUDGET_OVERRUN (R274): a run whose count exceeds BUDGET × 16, once a run; with OVR_ACT 1 it ends forced. -/
def execBudgetOverrun (t : ThreadId) (s : State) : Host.Outcome State Fault Refusal :=
  done s (
    let k := tidNat t
    let c := k / 128
    let n := s.taskOn k
    let x := s.task n
    if (s.thr k).task.isSome && (s.thr k).st != .halted && fld x.w3 31 16 != 0 && !x.ovr && fld x.w3 31 16 * 16 < s.runUsed n then
      let s1 := (((s.updTask n fun y => { y with ovr := true }).inc (Reg.CLU_DSP_OVERRUNS c)).trace c x.part none (some (n % 1024)) k 8 x.prio
        x.aux).sqc (Reg.CLU_DSP_STATUS c) 0 (230 + 8 * c)
      if tbit x.w0 14 then s1.forceEnd n 6 else s1
    else s)

/-! ## Retraction -/

/-- Whether a provisional-read record matches a retraction (R276). -/
def Task.readMatches (t : Task) (r : Retraction) : Bool :=
  t.any || t.reads.any fun x => x.stream == r.stream && x.lo ≤ r.lastG && r.firstG ≤ x.hi

/-- A retraction delivered to task n (R276). -/
def State.deliverRetraction (s : State) (r : Retraction) (n : Nat) : State :=
  let c := n / 1024
  let t := s.task n
  let s1 := (((s.inc (Reg.CLU_DSP_RETRACT_DLV c)).pmuClu c 0x4A {} 1).trace c t.part none (some (n % 1024)) t.thread 10 t.prio t.aux).sqc
    (Reg.CLU_DSP_STATUS c) 3 (230 + 8 * c)
  if tbit t.w0 15 then
    let s2 := s1.updTask n fun x => { x with retrPend := true, merged := x.merged || x.retr.isSome, retr := some r }
    if t.st = .dormant then (s2.updTask n fun x => { x with causes := 0, aux := 0 }).readyTail n else s2
  else s1

/-- A retraction event matched against every record of every dispatcher (R110, R276). -/
def State.retractTasks (s : State) (r : Retraction) : State :=
  each ((s.clu.tasks.filter fun p => p.2.en && p.2.readMatches r).map Prod.fst) (fun x n => x.deliverRetraction r n) s

/-! ## Commands -/

/-- Whether a writer has authority over a task or thread of partition p (R208): the supervisor, ADMIN, or OWNER of p. -/
def State.ctlAllowed (s : State) (who : Accessor) (p : Nat) : Bool := s.roleOf who == .supervisor || s.adminOrOwner who p

/-- A result in CLU_DSP_CMD_STATUS, with the command's fields stored. -/
def State.dspResult (s : State) (c : Nat) (val : Word) (res : Nat) : State :=
  (s.setReg (Reg.CLU_DSP_CMD c) (putBit val 31 false &&& 0x700003FF#32)).setReg (Reg.CLU_DSP_CMD_STATUS c) (BitVec.ofNat 32 res)

/-- A command of CLU_DSP_CMD (R280): DENIED, STATE_REJECT on a DISABLED task, BAD_INDEX for a reserved OP. -/
def State.dspRun (s : State) (who : Accessor) (c : Nat) (val : Word) : State :=
  let n := 1024 * c + fld val 9 0
  let op := fld val 30 28
  if !s.ctlAllowed who (s.taskPart n) then s.dspResult c val 5
  else if op ≠ 1 ∧ op ≠ 2 then s.dspResult c val 6
  else if (s.task n).st == .disabled then s.dspResult c val 7
  else if op = 1 then (s.wake n causeActivate (s.reg (Reg.CLU_DSP_CMD_ARG c))).dspResult c val 0
  else
    (s.updTask n fun t => { t with pend := false, pendCauses := 0, pendAux := 0, retrPend := false, retr := none, merged := false }).dspResult
      c val 0

/-- ACTIVATE (R264, R280). -/
def execActivate (who : Accessor) (c : Fin 6) (val : Word) (s : State) : Host.Outcome State Fault Refusal :=
  done s (s.writeCmd who (Reg.CLU_DSP_CMD c.val) fun x => x.dspRun who c.val (putFld val 31 28 9))

/-- CANCEL (R280): PEND and RETR_PEND clear. -/
def execCancel (who : Accessor) (c : Fin 6) (val : Word) (s : State) : Host.Outcome State Fault Refusal :=
  done s (s.writeCmd who (Reg.CLU_DSP_CMD c.val) fun x => x.dspRun who c.val (putFld val 31 28 10))

/-- The code of a task state (R262). -/
def taskStateCode : TaskSt → Nat
  | .disabled => 0 | .dormant => 1 | .ready => 2 | .running => 3 | .waiting => 4 | .blocked => 5 | .halted => 6 | .faulted => 7

/-- The eight words of a task control block (R280). -/
def State.tcbWords (s : State) (n : Nat) : List Word :=
  let t := s.task n
  [t.w0, t.w1, t.w2, t.w3,
   BitVec.ofNat 32 (taskStateCode (s.taskState n) * 536870912 + (if t.pend then 268435456 else 0) + (if t.retrPend then 134217728 else 0) +
     (if t.ovr then 67108864 else 0) + (if t.st = .running then t.thread * 524288 else 0) + (if t.any then 262144 else 0)),
   t.runs, BitVec.ofNat 32 (t.usedLast * 65536 + t.usedMax), BitVec.ofNat 32 t.lastStart]

/-- A write of CLU_TCB_SEL: the snapshot in CLU_TCB_DATA. -/
def State.tcbSelect (s : State) (c : Nat) (val : Word) : State :=
  let ws := s.tcbWords (1024 * c + fld val 9 0)
  each (List.range 8) (fun x w => x.setReg (Reg.CLU_TCB_DATA c w) (wordAt ws w)) (s.setReg (Reg.CLU_TCB_SEL c) (BitVec.ofNat 32 (fld val 9 0)))

/-- TCB_SELECT (R280). -/
def execTcbSelect (who : Accessor) (c : Fin 6) (val : Word) (s : State) : Host.Outcome State Fault Refusal :=
  done s (s.writeCmd who (Reg.CLU_TCB_SEL c.val) fun x => x.tcbSelect c.val val)

end Sys2Proof.Machine
end

