-- ==== Sys2Proof/Machine/Control.lean ====
section
/-!
DEFINITION. Control of a cluster (R203-R215): commands of CLU_CTL_CMD, the supervisor's interrupts, fault and deadlock queues, the
deadlock monitor, the abort of a held channel, and the authority a debug grant gives (R394, R464).
-/

namespace Sys2Proof.Machine

/-! ## The supervisor's commands -/

/-- The thread a control command names, where it names one: by task, the thread that task holds (R219). -/
def State.ctlThread (s : State) (c : Nat) (val : Word) : Option Nat :=
  if tbit val 27 then s.agentThr (.task c (fld val 25 16)) else some (128 * c + fld val 14 8)

/-- The agent a control command names. -/
def State.ctlAgent (s : State) (c : Nat) (val : Word) : Agent :=
  if tbit val 27 then .task c (fld val 25 16) else s.agentOf (128 * c + fld val 14 8)

/-- The partition of the target of a control command. -/
def State.ctlPart (s : State) (c : Nat) (val : Word) : Nat :=
  if tbit val 27 then s.taskPart (1024 * c + fld val 25 16) else s.thrPart (128 * c + fld val 14 8)

/-- A result in CLU_CTL_STATUS, with the command's fields stored. -/
def State.ctlResult (s : State) (c : Nat) (val : Word) (res : Nat) : State :=
  (s.setReg (Reg.CLU_CTL_CMD c) (val &&& 0x7BFF7F00#32)).setReg (Reg.CLU_CTL_STATUS c) (BitVec.ofNat 32 res)

/-- Whether an agent is WAITING, or BLOCKED with a wait that the dispatcher switched out (R209). -/
def State.agentWaiting (s : State) (a : Agent) : Bool :=
  match s.agentThr a with
  | some k => (s.thr k).st == .waiting && (s.thr k).wait.isSome
  | none => (s.agentWait a).isSome

/-- A command of CLU_CTL_CMD (R207, R208). -/
def State.ctlRun (s : State) (who : Accessor) (c : Nat) (val : Word) : State :=
  if !s.ctlAllowed who (s.ctlPart c val) then s.ctlResult c val 5
  else
    match fld val 30 28 with
    | 1 => (match s.ctlThread c val with
        | some k =>
          if (s.thr k).st = .faulted then (s.resumeThread k (BitVec.ofNat 16 (s.rf (Reg.CLU_CTL_ARG c) 15 0))).ctlResult c val 0
          else s.ctlResult c val 7
        | none => s.ctlResult c val 7)
    | 2 => (match s.ctlThread c val with
        | some k => if (s.thr k).st = .faulted then (s.killThread k).ctlResult c val 0 else s.ctlResult c val 7
        | none => s.ctlResult c val 7)
    | 3 => if s.agentWaiting (s.ctlAgent c val) then (s.abortWait (s.ctlAgent c val)).ctlResult c val 0 else s.ctlResult c val 7
    | _ => s.ctlResult c val 6

/-- A write of CLU_CTL_CMD with the operation named by the row. -/
def State.ctlWrite (s : State) (who : Accessor) (c op : Nat) (val : Word) : State :=
  s.writeCmd who (Reg.CLU_CTL_CMD c) fun x => x.ctlRun who c (putFld val 31 28 (8 + op))

/-- CTL_RESUME (R207): a FAULTED thread restarts at the PC in CLU_CTL_ARG. -/
def execCtlResume (who : Accessor) (c : Fin 6) (val : Word) (s : State) : Host.Outcome State Fault Refusal := done s (s.ctlWrite who c.val 1 val)

/-- CTL_KILL (R207). -/
def execCtlKill (who : Accessor) (c : Fin 6) (val : Word) (s : State) : Host.Outcome State Fault Refusal := done s (s.ctlWrite who c.val 2 val)

/-- CTL_ABORT_WAIT (R209). -/
def execCtlAbortWait (who : Accessor) (c : Fin 6) (val : Word) (s : State) : Host.Outcome State Fault Refusal :=
  done s (s.ctlWrite who c.val 3 val)

/-- FAULT_TIMEOUT_KILL (R207): a thread FAULTED for FAULT_TMO µs is killed by its cluster. -/
def execFaultTimeoutKill (t : ThreadId) (s : State) : Host.Outcome State Fault Refusal :=
  done s (
    let k := tidNat t
    if (s.thr k).st == .faulted && (s.thr k).faultAt + s.rf (Reg.CLU_SUP_TMO (k / 128)) 15 0 * usU ≤ s.up then
      (s.killThread k).inc (Reg.CLU_FLT_TMO_KILL (k / 128))
    else s)

/-! ## Supervisor interrupts -/

/-- Whether an event routed to the supervisor of cluster c is pending (R203, R421). -/
def State.supEvent (s : State) (c : Nat) : Bool := (s.lowestPending (Reg.CLU_EVT_PEND c)).isSome

/-- Whether DL_ESC is pending at the supervisor of cluster c. -/
def State.dlEscPending (s : State) (c : Nat) : Bool := (List.range 16).any fun g => (s.wgroup (16 * c + g)).esc

/-- The lowest pending interrupt cause of cluster c (R203). -/
def State.supCause (s : State) (c : Nat) : Option Nat :=
  if s.supEvent c then some 0
  else if !(s.fltq c).isEmpty then some 1
  else if !(s.dlq c).isEmpty then some 2
  else if s.dlEscPending c then some 3
  else none

/-- Whether the supervisor of cluster c takes an interrupt at its next boundary. -/
def State.supTakes (s : State) (c : Nat) : Bool :=
  (s.thr (128 * c)).ie && ((s.thr (128 * c)).st == .ready || (s.thr (128 * c)).st == .waiting) && (s.supCause c).isSome

/-- SUPERVISOR_INTERRUPT (R203): word 0x1FF takes the address, IE clears, and the handler of the cause follows. A waiting instruction is
abandoned without effect. -/
def execSupervisorInterrupt (c : Fin 6) (s : State) : Host.Outcome State Fault Refusal :=
  done s (
    match s.supCause c.val with
    | some n =>
      if s.supTakes c.val then
        ((s.leaveQueues (.thread (128 * c.val))).updThr (128 * c.val) fun t =>
          { t with
            st := .ready, wait := none, ie := false, maskAt := some s.up
            dp := t.dp.sd 0 0x1FF (BitVec.ofNat 32 t.ctx.pc.toNat)
            ctx := { t.ctx with pc := BitVec.ofNat 16 (s.rf (Reg.CLU_SUP_CFG c.val) 31 16 + 16 * (1 + n)) } }).refetch (128 * c.val)
      else s
    | none => s)

/-- MASK_MAX_EXCEEDED (R204): a masked interval longer than MASK_MAX × 16 core cycles, counted once. -/
def execMaskMaxExceeded (c : Fin 6) (s : State) : Host.Outcome State Fault Refusal :=
  done s (
    match (s.thr (128 * c.val)).maskAt with
    | some m =>
      if !(s.thr (128 * c.val)).ie && s.rf (Reg.CLU_SUP_CFG c.val) 9 0 * 16 < coreCycles (s.up - m) then
        ((s.updThr (128 * c.val) fun t => { t with maskAt := none }).inc (Reg.CLU_MASK_EXP c.val)).sqc (Reg.CLU_CORE_STATUS c.val) 2
          (226 + 8 * c.val)
      else s
    | none => s)

/-! ## The deadlock monitor -/

/-- The members of wait group g of cluster c (R212), in ascending task index. -/
def State.members (s : State) (c g : Nat) : List Nat := (s.tasksOf c).filter fun n => (s.task n).en && (s.task n).wgrp == g

/-- Whether a lock of cluster c is held by a member of group g. -/
def State.heldInGroup (s : State) (c g k : Nat) : Bool :=
  match (s.llock k).holder with
  | some (.task c' i) => c' == c && (s.task (1024 * c + i)).en && (s.task (1024 * c + i)).wgrp == g
  | _ => false

/-- What an internal wait of group g is for: kind and index as the deadlock record shows them (R213), none where it is not internal. -/
def State.internalWait (s : State) (c g n : Nat) : Option (Nat × Nat) :=
  match s.agentWait (.task c (n % 1024)) with
  | some w =>
    (match w.what with
     | .recvw k => if s.chanWgrp k = g then some (1, k % 64) else none
     | .openw k => if s.chanWgrp k = g then some (2, k % 64) else none
     | .lock kind k => if kind = 0 ∧ s.heldInGroup c g k then some (3, k % 64) else none)
  | none => none

/-- Whether every member of group g of cluster c is blocked-internal (R212). -/
def State.groupBlocked (s : State) (c g : Nat) : Bool :=
  s.rb (Reg.CLU_DL_CFG c g) 31 && !(s.members c g).isEmpty && (s.members c g).all fun n => (s.internalWait c g n).isSome

/-- Whether a member of the group is HALTED, so that the duration does not advance. -/
def State.groupHalted (s : State) (c g : Nat) : Bool := (s.members c g).any fun n => s.taskState n == .halted

/-- The monitor of one group as a tick of `dt` begins (R212): the duration starts, goes on, stands still, or ends. -/
def State.watchGroup (s : State) (c g dt : Nat) : State :=
  let w := s.wgroup (16 * c + g)
  if s.groupBlocked c g then
    (match w.since with
     | none => s.setWgroup (16 * c + g) { w with since := some (if s.groupHalted c g then s.up + dt else s.up) }
     | some x => if s.groupHalted c g then s.setWgroup (16 * c + g) { w with since := some (x + dt) } else s)
  else if w.since.isSome ∨ w.posted.isSome ∨ w.esc then
    s.setWgroup (16 * c + g) { w with since := none, posted := none, esc := false }
  else s

/-- Every monitored group. -/
def State.watchGroups (s : State) (dt : Nat) : State :=
  each ((List.range 6).flatMap fun c => ((s.tasksOf c).map fun n => 16 * c + (s.task n).wgrp).eraseDups)
    (fun x k => if k % 16 = 0 then x else x.watchGroup (k / 16) (k % 16) dt) s

/-- A deadlock record (R213). -/
def State.deadlockRecord (s : State) (c g : Nat) : List Word :=
  let ms := s.members c g
  [BitVec.ofNat 32 (g * 268435456 + ms.length * 65536 + (s.wgroup (16 * c + g)).episode % 65536)] ++ timeWords s.time ++
    (List.range 8).map fun j =>
      match ms[j]? with
      | some n =>
        let w := (s.internalWait c g n).getD (0, 0)
        BitVec.ofNat 32 (n % 1024 * 4194304 + w.1 * 524288 + w.2)
      | none => 0

/-- DEADLOCK_DETECT (R212): every member blocked-internal for DL_TIME. The record is kept, or lost where four wait (R213). -/
def execDeadlockDetect (c : Fin 6) (g : Fin 16) (s : State) : Host.Outcome State Fault Refusal :=
  done s (
    let k := 16 * c.val + g.val
    let w := s.wgroup k
    match w.since with
    | some x =>
      if s.groupBlocked c.val g.val && w.posted.isNone && !s.groupHalted c.val g.val &&
          x + s.rf (Reg.CLU_DL_CFG c.val g.val) 15 0 * usU ≤ s.up then
        let s1 := s.setWgroup k { w with posted := some s.up, episode := w.episode + 1 }
        let s2 := if 4 ≤ (s.dlq c.val).length then s1.inc (Reg.CLU_DL_OVF c.val)
          else s1.setDlq c.val (s.dlq c.val ++ [s1.deadlockRecord c.val g.val])
        (s2.inc (Reg.CLU_DL_RECORDS c.val)).sqc (Reg.CLU_CORE_STATUS c.val) 3 (227 + 8 * c.val)
      else s
    | none => s)

/-- DEADLOCK_ESCALATE (R213): the episode goes on DL_ESC µs after its record. -/
def execDeadlockEscalate (c : Fin 6) (g : Fin 16) (s : State) : Host.Outcome State Fault Refusal :=
  done s (
    let k := 16 * c.val + g.val
    let w := s.wgroup k
    match w.posted with
    | some x =>
      if s.groupBlocked c.val g.val && !w.esc && x + s.rf (Reg.CLU_SUP_TMO c.val) 31 16 * usU ≤ s.up then
        (s.setWgroup k { w with esc := true }).sqc (Reg.CLU_CORE_STATUS c.val) 4 (228 + 8 * c.val)
      else s
    | none => s)

/-! ## Queues that a read takes from -/

/-- A taking read of CLU_FLT_POP (R206): the answer and the state. -/
def State.fltPop (s : State) (c : Nat) : Word × State :=
  match s.fltq c with
  | [] => (0, s)
  | r :: rest =>
    (BitVec.ofNat 32 (2147483648 + rest.length), each (List.range 4) (fun x w => x.setReg (Reg.CLU_FLT_DATA c w) (wordAt r w)) (s.setFltq c rest))

/-- A taking read of CLU_DL_POP (R213). -/
def State.dlPop (s : State) (c : Nat) : Word × State :=
  match s.dlq c with
  | [] => (0, s)
  | r :: rest =>
    (BitVec.ofNat 32 (2147483648 + rest.length), each (List.range 12) (fun x w => x.setReg (Reg.CLU_DL_DATA c w) (wordAt r w)) (s.setDlq c rest))

/-- FLT_POP (R206). -/
def execFltPop (who : Accessor) (c : Fin 6) (s : State) : Host.Outcome State Fault Refusal :=
  done s (s.rttRead who (Reg.CLU_FLT_POP c.val) (s.fltPop c.val))

/-- DL_POP (R213). -/
def execDlPop (who : Accessor) (c : Fin 6) (s : State) : Host.Outcome State Fault Refusal :=
  done s (s.rttRead who (Reg.CLU_DL_POP c.val) (s.dlPop c.val))

/-! ## Debug authority and the abort of a held channel -/

/-- Whether an accessor may take a debug action on partition p (R394, R464): an ACTIVE grant for p that names the path, of level CONTROL
where the action needs it; the session must be ADMIN or OWNER of p, the JTAG path bound to p. -/
def State.dbgAllowed (s : State) (who : Accessor) (p : Nat) (control : Bool) : Bool :=
  let g := s.grant p
  g.active && (!control || g.control) &&
    (match who with
     | .jtag => g.jtag && s.dbg.bound == some p
     | .thread _ => false
     | _ => g.session && s.adminOrOwner who p)

/-- CHN_ABORT (R215): a HELD message returned to EMPTY by a session authorised for the channel's TX_PART. -/
def State.chnAbort (s : State) (who : Accessor) (c : Nat) (val : Word) : State :=
  let k := 64 * c + fld val 5 0
  if !s.dbgAllowed who (s.chanTx k) true then (s.inc Reg.DBG_DENIED).setReg (Reg.CLU_CHN_CMD_STATUS c) 5
  else if (s.chan k).st ≠ .held then s.setReg (Reg.CLU_CHN_CMD_STATUS c) 7
  else (s.abortChan k).setReg (Reg.CLU_CHN_CMD_STATUS c) 0

/-- CHN_ABORT (R215): a write of CLU_CHN_CMD with ABORT set. -/
def execChnAbort (who : Accessor) (c : Fin 6) (val : Word) (s : State) : Host.Outcome State Fault Refusal :=
  done s (s.writeCmd who (Reg.CLU_CHN_CMD c.val) fun x => x.chnAbort who c.val val)

end Sys2Proof.Machine
end

