-- ==== Sys2Proof/Machine/Crc.lean ====
section
/-!
DEFINITION. The cyclic redundancy checks of the device: the CRC instructions' update (R237), CRC-32 and CRC-32C with a seed (R75), and
the CRC-64 of NAME_DIGEST (R73).
-/

namespace Sys2Proof.Machine

/-- The low w bits of a number in reverse order. -/
def bitrev (w v : Nat) : Nat := (List.range w).foldl (fun acc i => 2 * acc + v / 2 ^ i % 2) 0

/-- One bit step of a reflected CRC: `p` is the polynomial already reversed (R237). -/
def crcStepR (p s : Nat) : Nat := if s % 2 = 1 then (s / 2) ^^^ p else s / 2

/-- One byte of a reflected CRC. -/
def crcByteR (p s b : Nat) : Nat :=
  crcStepR p (crcStepR p (crcStepR p (crcStepR p (crcStepR p (crcStepR p (crcStepR p (crcStepR p (s ^^^ b))))))))

/-- One bit step of a CRC that takes the most significant bit first (R237). -/
def crcStepM (w p s : Nat) : Nat := if s / 2 ^ (w - 1) = 1 then ((2 * s) ^^^ p) % 2 ^ w else 2 * s % 2 ^ w

/-- One byte of a CRC that takes the most significant bit first. A width below 8 shifts nothing in from above. -/
def crcByteM (w p s b : Nat) : Nat :=
  (List.range 8).foldl (fun x _ => crcStepM w p x) ((s ^^^ (b * 2 ^ (w - 8))) % 2 ^ w)

/-- The state of a CRC of width w and polynomial p after a byte (R237). -/
def crcUpdate (w p : Nat) (reflect : Bool) (s b : Nat) : Nat :=
  if reflect then crcByteR (bitrev w p) s b else crcByteM w p s b

/-- A reflected 32-bit CRC with a seed (R75): initial state all ones xor the seed, final XOR all ones. `p` is reversed. -/
def crcSeed (p seed : Nat) (bs : List Byte) : Nat :=
  (bs.foldl (fun s b => crcByteR p s b.toNat) (0xFFFFFFFF ^^^ (seed % 65536))) ^^^ 0xFFFFFFFF

/-- CRC-32C with a seed; 0x82F63B78 is 0x1EDC6F41 reversed. -/
def crc32c (seed : Nat) (bs : List Byte) : Nat := crcSeed 0x82F63B78 seed bs

/-- CRC-32 with a seed; 0xEDB88320 is 0x04C11DB7 reversed. -/
def crc32 (seed : Nat) (bs : List Byte) : Nat := crcSeed 0xEDB88320 seed bs

/-- The CRC-64 of NAME_DIGEST (R73): 0x42F0E1EBA9EA3693 reflected, initial value and final XOR all ones. -/
def crc64 (bs : List Byte) : Nat :=
  (bs.foldl (fun s b => crcByteR 0xC96C5795D7870F42 s b.toNat) 0xFFFFFFFFFFFFFFFF) ^^^ 0xFFFFFFFFFFFFFFFF

end Sys2Proof.Machine
end

