-- ==== Sys2Proof/Machine/Encoding.lean ====
section
/-!
DEFINITION. The encodings of the Rospel instructions (R230-R232, R239, R251): the decoder that the core applies to the words it fetches, and
the encoder, each written from the tables of 09_instruction_set.md and 10_phasor_coprocessor.md.
-/

namespace Sys2Proof.Machine

/-! ## Decoding -/

/-- A three-bit register number. -/
def r8 (w hi : Nat) : Fin 8 := Fin.ofNat 8 (nfld w hi (hi - 2))

/-- D format: OP at [13:9], DA at [8:0]. -/
def decodeD (t : ThreadId) (w : Nat) : Option Instr :=
  let da := BitVec.ofNat 9 (nfld w 8 0)
  match nfld w 13 9 with
  | 0 => some (.ld t da) | 1 => some (.ldu t da) | 2 => some (.st t da) | 3 => some (.sts t da)
  | 4 => some (.add t da) | 5 => some (.addu t da) | 6 => some (.sub t da) | 7 => some (.andDp t da)
  | 8 => some (.orDp t da) | 9 => some (.xorDp t da) | 10 => some (.mul t da) | 11 => some (.mulh t da)
  | _ => none

/-- X format: XOP at [10:8], X at [7], P at [6], D6 at [5:0]. -/
def decodeX (t : ThreadId) (w : Nat) : Option Instr :=
  let x : Fin 2 := Fin.ofNat 2 (nfld w 7 7)
  let p := nfld w 6 6 == 1
  let d := BitVec.ofNat 6 (nfld w 5 0)
  match nfld w 10 8 with
  | 0 => some (.ldw t x p d) | 1 => some (.ldh t x p d) | 2 => some (.ldhu t x p d) | 3 => some (.ldb t x p d)
  | 4 => some (.ldbu t x p d) | 5 => some (.stw t x p d) | 6 => some (.sth t x p d) | _ => some (.stb t x p d)

/-- An instruction where a condition on its fields holds, and no instruction elsewhere (R232). -/
def must (c : Bool) (i : Instr) : Option Instr := if c then some i else none

/-- R format: ROP at [10:6], Ga at [5:3], Gb at [2:0]. -/
def decodeR (t : ThreadId) (w : Nat) : Option Instr :=
  let ga := r8 w 5
  let gb := r8 w 2
  let p : Fin 4 := Fin.ofNat 4 (nfld w 5 4)
  match nfld w 10 6 with
  | 0 => some (.movg t ga gb)
  | 1 => must (nfld w 2 0 == 0) (.mva t ga)
  | 2 => must (nfld w 2 0 == 0) (.mvg t ga)
  | 3 => some (.addg t ga gb) | 4 => some (.subg t ga gb) | 5 => some (.andg t ga gb) | 6 => some (.org t ga gb)
  | 7 => some (.xorg t ga gb) | 8 => some (.ceq t ga gb) | 9 => some (.cne t ga gb) | 10 => some (.clt t ga gb)
  | 11 => some (.cge t ga gb) | 12 => some (.cltu t ga gb) | 13 => some (.cgeu t ga gb) | 14 => some (.par t ga gb)
  | 15 => some (.brev t ga gb) | 16 => some (.bswp t ga gb)
  | 17 => must (nfld w 3 3 == 0) (.crcb t p gb)
  | 18 => must (nfld w 3 3 == 0) (.crcw t p gb)
  | 19 => some (.crcm t p (Fin.ofNat 2 (nfld w 3 3)) gb)
  | 20 => some (.chanOpen t ga gb) | 21 => some (.chanOpenw t ga gb) | 22 => some (.recv t ga gb) | 23 => some (.recvw t ga gb)
  | 24 => some (.chw t 0 ga gb) | 25 => some (.chw t 1 ga gb) | 26 => some (.chw t 2 ga gb) | 27 => some (.chw t 3 ga gb)
  | 28 => must (nfld w 2 0 < 4) (.send t ga (Fin.ofNat 4 (nfld w 2 0)))
  | 29 => some (.lock t ga gb) | 30 => some (.unlock t ga gb)
  | _ => must (nfld w 2 0 == 0) (.mvau t ga)

/-- I and L formats: [13:10] is 0b1100 or 0b1101. -/
def decodeIL (t : ThreadId) (w : Nat) : Option Instr :=
  let imm := BitVec.ofNat 8 (nfld w 7 0)
  if nfld w 10 10 = 0 then
    match nfld w 9 8 with
    | 0 => some (.ldi t imm)
    | 1 => some (.addi t imm)
    | 2 => some (.andi t imm)
    | _ => must (nfld w 5 0 < 40) (.shf t (Fin.ofNat 4 (nfld w 7 6)) (BitVec.ofNat 6 (nfld w 5 0)))
  else if nfld w 9 9 = 0 then some (.loop t (r8 w 8) (Fin.ofNat 64 (nfld w 5 0)))
  else some (.loopi t (Fin.ofNat 32 (nfld w 8 4)) (Fin.ofNat 16 (nfld w 3 0)))

/-- W format: KIND at [7:6] of the first word; the payload is [5:0] of the first and [13:0] of the second. -/
def decodeW (t : ThreadId) (w w2 : Nat) : Option Instr :=
  let pay := nfld w 5 0 * 16384 + nfld w2 13 0
  match nfld w 7 6 with
  | 0 => some (.ldl t (BitVec.ofNat 20 pay))
  | 1 => some (.ldlh t (BitVec.ofNat 20 pay))
  | 2 => must (pay < 65536) (.jmpf t (BitVec.ofNat 16 pay))
  | _ => must (pay < 65536) (.callf t (BitVec.ofNat 16 pay))

/-- S format: SOP at [7:3], Gs at [2:0]. -/
def decodeS (t : ThreadId) (w rel : Nat) : Option Instr :=
  let g := r8 w 2
  let z := nfld w 2 0 == 0
  match nfld w 7 3 with
  | 0 => must z (.nop t) | 1 => must z (.synci t) | 2 => must z (.ret t) | 3 => must z (.reti t)
  | 4 => must z (.ei t) | 5 => must z (.di t) | 6 => must z (.tend t) | 7 => must z (.yield t)
  | 8 => some (.mtx t 0 g) | 9 => some (.mtx t 1 g) | 10 => some (.mfx t 0 g) | 11 => some (.mfx t 1 g)
  | 12 => some (.adx t 0 g) | 13 => some (.adx t 1 g)
  | 14 => (match rel % 4 with
      | 0 => some (.relNext t g) | 1 => some (.relExit t g) | 2 => some (.relDrop t g) | _ => some (.relRecirc t g))
  | 15 => some (.vwait t g) | 16 => some (.vpost t g) | 17 => some (.pmw t g) | 18 => some (.pmr t g) | 19 => some (.mfs t g)
  | 20 => some (.div t g)
  | 21 => must z (.sqrt t)
  | _ => none

/-- BC, BR, W and S formats: [13:11] is 0b111. -/
def decodeBWS (t : ThreadId) (w w2 rel : Nat) : Option Instr :=
  if nfld w 10 10 = 0 then
    (if nfld w 9 9 = 0 then some (.bz t (r8 w 8) (BitVec.ofNat 6 (nfld w 5 0)))
     else some (.bnz t (r8 w 8) (BitVec.ofNat 6 (nfld w 5 0))))
  else if nfld w 9 9 = 0 then some (.bra t (BitVec.ofNat 9 (nfld w 8 0)))
  else if nfld w 8 8 = 0 then decodeW t w w2
  else decodeS t w rel

/-- C format (R251): CPOP at [10:5] and Cd at [4:2] of the first word, Ca, Cb, Gs and M in the second. A field that the operation does not use
must be zero, and a used field must not hold a reserved value. -/
def decodeC (t : ThreadId) (w w2 : Nat) : Option Instr :=
  let cd := r8 w 4
  let ca := r8 w2 13
  let cb := r8 w2 10
  let gs := r8 w2 7
  let m := BitVec.ofNat 5 (nfld w2 4 0)
  let d0 := nfld w 4 2 == 0
  let a0 := nfld w2 13 11 == 0
  let b0 := nfld w2 10 8 == 0
  let g0 := nfld w2 7 5 == 0
  let m0 := nfld w2 4 0 == 0
  let c6 := nfld w2 4 0 < 6
  if nfld w 1 0 ≠ 0 then none
  else
    match nfld w 10 5 with
    | 0 => must (a0 && b0 && m0) (.cmtr t cd gs)
    | 1 => must (a0 && b0 && m0) (.cmti t cd gs)
    | 2 => must (d0 && b0 && m0) (.cmfr t gs ca)
    | 3 => must (d0 && b0 && m0) (.cmfi t gs ca)
    | 4 => must (b0 && g0 && m0) (.cmov t cd ca)
    | 5 => must (a0 && b0) (.ccvt t cd gs m)
    | 6 => must (a0 && b0) (.ccvtc t cd gs m)
    | 7 => must (d0 && b0) (.cfix t gs ca m)
    | 16 => must (g0 && m0) (.cadd t cd ca cb)
    | 17 => must (g0 && m0) (.csub t cd ca cb)
    | 18 => must (g0 && m0) (.cmul t cd ca cb)
    | 19 => must (g0 && m0) (.cmac t cd ca cb)
    | 20 => must (g0 && m0) (.cmsc t cd ca cb)
    | 21 => must (g0 && m0) (.ccmul t cd ca cb)
    | 22 => must (g0 && m0) (.ccmac t cd ca cb)
    | 23 => must (b0 && m0) (.crmul t cd ca gs)
    | 24 => must (b0 && g0) (.cscl t cd ca m)
    | 25 => must (b0 && g0 && m0) (.cconj t cd ca)
    | 26 => some (.cdft t cd ca cb gs m)
    | 32 => must (b0 && m0) (.crot t cd ca gs)
    | 33 => must (b0 && g0 && m0) (.cmag t cd ca)
    | 34 => must (d0 && b0 && m0) (.carg t gs ca)
    | 40 => must (b0 && g0 && m0 && nfld w 4 2 < 6 && nfld w2 13 11 < 6) (.cfsq t cd ca)
    | 44 => must (g0 && m0) (.cdiv t cd ca cb)
    | 48 => must (d0 && c6) (.ccmpr t gs ca cb m)
    | 49 => must (d0 && c6) (.ccmpi t gs ca cb m)
    | 50 => must (d0 && c6) (.ccmpm t gs ca cb m)
    | 51 => must (g0 && m0) (.cmin t cd ca cb)
    | 52 => must (g0 && m0) (.cmax t cd ca cb)
    | _ => none

/-- The instruction that two words spell for thread t: the first word, the word after it, and [1:0] of the register that REL names, which say
which of its four dispositions the release has (R147). -/
def rosDecode (t : ThreadId) (w w2 rel : Nat) : Option Instr :=
  if nfld w 13 9 < 12 then decodeD t w
  else
    match nfld w 13 11 with
    | 3 => decodeC t w w2
    | 4 => decodeX t w
    | 5 => decodeR t w
    | 6 => decodeIL t w
    | _ => decodeBWS t w w2 rel

/-- The words an instruction at this first word has (R231): the C and W formats have two. -/
def wordsOf (w : Nat) : Nat :=
  if nfld w 13 9 < 12 then 1 else if nfld w 13 11 = 3 ∨ nfld w 13 8 = 62 then 2 else 1

/-! ## Encoding -/

/-- Words of each format from its fields (R230). -/
def encD (op : Nat) (da : BitVec 9) : Nat := op * 512 + da.toNat
def encX (op : Nat) (x : Fin 2) (p : Bool) (d : BitVec 6) : Nat :=
  0b100 * 2048 + op * 256 + x.val * 128 + (if p then 64 else 0) + d.toNat
def encR (op a b : Nat) : Nat := 0b101 * 2048 + op * 64 + a * 8 + b
def encI (op imm : Nat) : Nat := 0b1100 * 1024 + op * 256 + imm
def encS (op g : Nat) : Nat := 0b111111 * 256 + op * 8 + g
def encW (kind pay : Nat) : Nat × Nat := (0b111110 * 256 + kind * 64 + pay / 16384, pay % 16384)
def encC (op cd ca cb gs m : Nat) : Nat × Nat := (0b011 * 2048 + op * 32 + cd * 4, ca * 2048 + cb * 256 + gs * 32 + m)

/-- The first word of an instruction with the word after it, zero for a one-word form; none for a command that is no instruction. -/
def rosEncode : Instr → Option (Nat × Nat)
  | .ld _ da => some (encD 0 da, 0) | .ldu _ da => some (encD 1 da, 0) | .st _ da => some (encD 2 da, 0)
  | .sts _ da => some (encD 3 da, 0) | .add _ da => some (encD 4 da, 0) | .addu _ da => some (encD 5 da, 0)
  | .sub _ da => some (encD 6 da, 0) | .andDp _ da => some (encD 7 da, 0) | .orDp _ da => some (encD 8 da, 0)
  | .xorDp _ da => some (encD 9 da, 0) | .mul _ da => some (encD 10 da, 0) | .mulh _ da => some (encD 11 da, 0)
  | .ldw _ x p d => some (encX 0 x p d, 0) | .ldh _ x p d => some (encX 1 x p d, 0) | .ldhu _ x p d => some (encX 2 x p d, 0)
  | .ldb _ x p d => some (encX 3 x p d, 0) | .ldbu _ x p d => some (encX 4 x p d, 0) | .stw _ x p d => some (encX 5 x p d, 0)
  | .sth _ x p d => some (encX 6 x p d, 0) | .stb _ x p d => some (encX 7 x p d, 0)
  | .movg _ a b => some (encR 0 a b, 0) | .mva _ a => some (encR 1 a 0, 0) | .mvg _ a => some (encR 2 a 0, 0)
  | .addg _ a b => some (encR 3 a b, 0) | .subg _ a b => some (encR 4 a b, 0) | .andg _ a b => some (encR 5 a b, 0)
  | .org _ a b => some (encR 6 a b, 0) | .xorg _ a b => some (encR 7 a b, 0) | .ceq _ a b => some (encR 8 a b, 0)
  | .cne _ a b => some (encR 9 a b, 0) | .clt _ a b => some (encR 10 a b, 0) | .cge _ a b => some (encR 11 a b, 0)
  | .cltu _ a b => some (encR 12 a b, 0) | .cgeu _ a b => some (encR 13 a b, 0) | .par _ a b => some (encR 14 a b, 0)
  | .brev _ a b => some (encR 15 a b, 0) | .bswp _ a b => some (encR 16 a b, 0)
  | .crcb _ p b => some (encR 17 (p.val * 2) b, 0) | .crcw _ p b => some (encR 18 (p.val * 2) b, 0)
  | .crcm _ p x n => some (encR 19 (p.val * 2 + x.val) n, 0)
  | .chanOpen _ a b => some (encR 20 a b, 0) | .chanOpenw _ a b => some (encR 21 a b, 0)
  | .recv _ a b => some (encR 22 a b, 0) | .recvw _ a b => some (encR 23 a b, 0)
  | .chw _ w a b => some (encR (24 + w.val) a b, 0) | .send _ a n => some (encR 28 a n.val, 0)
  | .lock _ a b => some (encR 29 a b, 0) | .unlock _ a b => some (encR 30 a b, 0) | .mvau _ a => some (encR 31 a 0, 0)
  | .ldi _ i => some (encI 0 i.toNat, 0) | .addi _ i => some (encI 1 i.toNat, 0) | .andi _ i => some (encI 2 i.toNat, 0)
  | .shf _ ty n => some (encI 3 (ty.val * 64 + n.toNat), 0)
  | .loop _ g b => some (0b1101 * 1024 + g.val * 64 + b.val, 0)
  | .loopi _ n b => some (0b1101 * 1024 + 512 + n.val * 16 + b.val, 0)
  | .bz _ g r => some (0b1110 * 1024 + g.val * 64 + r.toNat, 0)
  | .bnz _ g r => some (0b1110 * 1024 + 512 + g.val * 64 + r.toNat, 0)
  | .bra _ r => some (0b11110 * 512 + r.toNat, 0)
  | .ldl _ i => some (encW 0 i.toNat) | .ldlh _ i => some (encW 1 i.toNat)
  | .jmpf _ a => some (encW 2 a.toNat) | .callf _ a => some (encW 3 a.toNat)
  | .nop _ => some (encS 0 0, 0) | .synci _ => some (encS 1 0, 0) | .ret _ => some (encS 2 0, 0) | .reti _ => some (encS 3 0, 0)
  | .ei _ => some (encS 4 0, 0) | .di _ => some (encS 5 0, 0) | .tend _ => some (encS 6 0, 0) | .yield _ => some (encS 7 0, 0)
  | .mtx _ x g => some (encS (8 + x.val) g, 0) | .mfx _ x g => some (encS (10 + x.val) g, 0) | .adx _ x g => some (encS (12 + x.val) g, 0)
  | .relNext _ g => some (encS 14 g, 0) | .relExit _ g => some (encS 14 g, 0) | .relDrop _ g => some (encS 14 g, 0)
  | .relRecirc _ g => some (encS 14 g, 0)
  | .vwait _ g => some (encS 15 g, 0) | .vpost _ g => some (encS 16 g, 0) | .pmw _ g => some (encS 17 g, 0)
  | .pmr _ g => some (encS 18 g, 0) | .mfs _ g => some (encS 19 g, 0) | .div _ g => some (encS 20 g, 0) | .sqrt _ => some (encS 21 0, 0)
  | .cmtr _ d g => some (encC 0 d 0 0 g 0) | .cmti _ d g => some (encC 1 d 0 0 g 0)
  | .cmfr _ g a => some (encC 2 0 a 0 g 0) | .cmfi _ g a => some (encC 3 0 a 0 g 0) | .cmov _ d a => some (encC 4 d a 0 0 0)
  | .ccvt _ d g m => some (encC 5 d 0 0 g m.toNat) | .ccvtc _ d g m => some (encC 6 d 0 0 g m.toNat)
  | .cfix _ g a m => some (encC 7 0 a 0 g m.toNat)
  | .cadd _ d a b => some (encC 16 d a b 0 0) | .csub _ d a b => some (encC 17 d a b 0 0) | .cmul _ d a b => some (encC 18 d a b 0 0)
  | .cmac _ d a b => some (encC 19 d a b 0 0) | .cmsc _ d a b => some (encC 20 d a b 0 0) | .ccmul _ d a b => some (encC 21 d a b 0 0)
  | .ccmac _ d a b => some (encC 22 d a b 0 0) | .crmul _ d a g => some (encC 23 d a 0 g 0) | .cscl _ d a m => some (encC 24 d a 0 0 m.toNat)
  | .cconj _ d a => some (encC 25 d a 0 0 0) | .cdft _ d a b g h => some (encC 26 d a b g h.toNat)
  | .crot _ d a g => some (encC 32 d a 0 g 0) | .cmag _ d a => some (encC 33 d a 0 0 0) | .carg _ g a => some (encC 34 0 a 0 g 0)
  | .cfsq _ d a => some (encC 40 d a 0 0 0) | .cdiv _ d a b => some (encC 44 d a b 0 0)
  | .ccmpr _ g a b m => some (encC 48 0 a b g m.toNat) | .ccmpi _ g a b m => some (encC 49 0 a b g m.toNat)
  | .ccmpm _ g a b m => some (encC 50 0 a b g m.toNat) | .cmin _ d a b => some (encC 51 d a b 0 0) | .cmax _ d a b => some (encC 52 d a b 0 0)
  | _ => none

/-- [1:0] of the register that a release names, as its disposition requires it; zero for every other command. -/
def relCode : Instr → Nat
  | .relExit _ _ => 1 | .relDrop _ _ => 2 | .relRecirc _ _ => 3 | _ => 0

/-- Which commands are instructions whose fields an encoding can hold (R232): a shift below 40, a compare condition below 6, and the three
registers of CFSQ in the bank. -/
def rosWf : Instr → Bool
  | .shf _ _ n => n.toNat < 40
  | .ccmpr _ _ _ _ m => m.toNat < 6
  | .ccmpi _ _ _ _ m => m.toNat < 6
  | .ccmpm _ _ _ _ m => m.toNat < 6
  | .cfsq _ d a => d.val < 6 && a.val < 6
  | _ => true

/-- The thread of an instruction, none for a command that is no instruction. -/
def rosThread : Instr → Option ThreadId
  | .ld t _ | .ldu t _ | .st t _ | .sts t _ | .add t _ | .addu t _ | .sub t _ | .andDp t _ | .orDp t _ | .xorDp t _ | .mul t _ | .mulh t _
  | .ldw t _ _ _ | .ldh t _ _ _ | .ldhu t _ _ _ | .ldb t _ _ _ | .ldbu t _ _ _ | .stw t _ _ _ | .sth t _ _ _ | .stb t _ _ _
  | .movg t _ _ | .mva t _ | .mvau t _ | .mvg t _ | .addg t _ _ | .subg t _ _ | .andg t _ _ | .org t _ _ | .xorg t _ _ | .ceq t _ _
  | .cne t _ _ | .clt t _ _ | .cge t _ _ | .cltu t _ _ | .cgeu t _ _ | .par t _ _ | .brev t _ _ | .bswp t _ _ | .crcb t _ _ | .crcw t _ _
  | .crcm t _ _ _ | .chanOpen t _ _ | .chanOpenw t _ _ | .recv t _ _ | .recvw t _ _ | .chw t _ _ _ | .send t _ _ | .lock t _ _
  | .unlock t _ _ | .ldi t _ | .addi t _ | .andi t _ | .shf t _ _ | .loop t _ _ | .loopi t _ _ | .bz t _ _ | .bnz t _ _ | .bra t _
  | .ldl t _ | .ldlh t _ | .jmpf t _ | .callf t _ | .nop t | .synci t | .ret t | .reti t | .ei t | .di t | .tend t | .yield t
  | .mtx t _ _ | .mfx t _ _ | .adx t _ _ | .relNext t _ | .relExit t _ | .relDrop t _ | .relRecirc t _ | .vwait t _ | .vpost t _ | .pmw t _
  | .pmr t _ | .mfs t _ | .div t _ | .sqrt t
  | .cmtr t _ _ | .cmti t _ _ | .cmfr t _ _ | .cmfi t _ _ | .cmov t _ _ | .ccvt t _ _ _ | .ccvtc t _ _ _ | .cfix t _ _ _ | .cadd t _ _ _
  | .csub t _ _ _ | .cmul t _ _ _ | .cmac t _ _ _ | .cmsc t _ _ _ | .ccmul t _ _ _ | .ccmac t _ _ _ | .crmul t _ _ _ | .cscl t _ _ _
  | .cconj t _ _ | .cdft t _ _ _ _ _ | .crot t _ _ _ | .cmag t _ _ | .carg t _ _ | .cfsq t _ _ | .cdiv t _ _ _ | .ccmpr t _ _ _ _
  | .ccmpi t _ _ _ _ | .ccmpm t _ _ _ _ | .cmin t _ _ _ | .cmax t _ _ _ => some t
  | _ => none

end Sys2Proof.Machine
end

