-- ==== Sys2Proof/Machine/Operands.lean ====
section
/-!
DEFINITION. The operand forms of the Rospel instructions (R223, R233): the direct page, the G and index registers, immediates, effective
addresses; and the destinations whose pending results hold an instruction back (R200).
-/

namespace Sys2Proof.Machine

/-- A direct-page word of thread k (R223). -/
def State.dpW (s : State) (k : Nat) (da : BitVec 9) : Word := (s.thr k).dp.gd 0 da.toNat

/-- The accumulator of thread k. -/
def State.accOf (s : State) (k : Nat) : Acc := (s.thr k).ctx.acc

/-- ACC[31:0] of thread k. -/
def State.accW (s : State) (k : Nat) : Word := (s.accOf k).setWidth 32

/-- A G register of thread k. -/
def State.gOf (s : State) (k : Nat) (g : Fin 8) : Word := (s.thr k).ctx.g[g]

/-- IX0 or IX1 of thread k. -/
def State.ixOf (s : State) (k : Nat) (x : Fin 2) : Word := if x.val = 0 then (s.thr k).ctx.ix0 else (s.thr k).ctx.ix1

/-- The context of thread k passed through f. -/
def State.updCtx (s : State) (k : Nat) (f : Ctx → Ctx) : State := s.updThr k fun t => { t with ctx := f t.ctx }

/-- The state with ACC of thread k set. -/
def State.setAcc (s : State) (k : Nat) (v : Acc) : State := s.updCtx k fun c => { c with acc := v }

/-- The state with a G register of thread k set. -/
def State.setG (s : State) (k : Nat) (g : Fin 8) (v : Word) : State := s.updCtx k fun c => { c with g := c.g.set g.val v }

/-- The state with an index register of thread k set. -/
def State.setIx (s : State) (k : Nat) (x : Fin 2) (v : Word) : State :=
  s.updCtx k fun c => if x.val = 0 then { c with ix0 := v } else { c with ix1 := v }

/-- The state with a direct-page word of thread k set. -/
def State.setDp (s : State) (k : Nat) (da : BitVec 9) (v : Word) : State := s.updThr k fun t => { t with dp := t.dp.sd 0 da.toNat v }

/-- A word or immediate extended to the accumulator by its sign. -/
def sext {n : Nat} (w : BitVec n) : Acc := w.signExtend 40

/-- A word extended to the accumulator by zeros. -/
def zext {n : Nat} (w : BitVec n) : Acc := w.setWidth 40

/-- The effective address of an X-format access and the index register after it (R233): with P 0 IX + D6 × s, with P 1 IX itself, and then
IX + D6 × s. -/
def effAddr (ix : Word) (p : Bool) (d6 : BitVec 6) (size : Nat) : Word × Word :=
  let next := ix + d6.signExtend 32 * BitVec.ofNat 32 size
  if p then (ix, next) else (next, ix)

/-- The target of a branch with a signed displacement, from the address of its first word (R234). -/
def relTarget {n : Nat} (pc : BitVec 16) (rel : BitVec n) : BitVec 16 := pc + 1 + rel.signExtend 16

/-- The results of thread k that are pending for a destination (R200), oldest first. -/
def Thread.pendingFor (t : Thread) (d : Dest) : List PendResult := t.pend.filter fun p => p.dest == d

/-- Whether a result is pending for one of the destinations an instruction reads or writes, so that it is STALLED (R200). -/
def State.stalledOn (s : State) (k : Nat) (ds : List Dest) : Bool := ds.any fun d => !((s.thr k).pendingFor d).isEmpty

end Sys2Proof.Machine
end

