-- ==== Sys2Proof/Machine/Flags.lean ====
section
/-!
DEFINITION. The arithmetic of the Rospel instructions (R228, R229, R237, R238, R239). The core has no condition flags (R228): a carry stands
in ACC[32], an overflow shows in ACC[39:31], and a compare writes a G register. Here are the result classes, the saturating store, the
compares, products, quotients, roots, shifts, CRCs, parity and bit orders.
-/

namespace Sys2Proof.Machine

/-- Class L (R228): ACC[31:0] written, ACC[39:32] copies of bit 31. -/
def classL (w : Word) : Acc := sext w

/-- Class Z (R228): ACC[31:0] written, ACC[39:32] cleared. -/
def classZ (w : Word) : Acc := zext w

/-- ACC saturated to a signed word (STS, R228). -/
def satWord (a : Acc) : Word := wordOfInt (satS 32 (sgn 40 a.toNat))

/-- The value of a compare (R229). -/
def boolWord (b : Bool) : Word := if b then 1 else 0

/-- MUL: the signed product of two words modulo 2^40. -/
def mulAcc (a b : Word) : Acc := BitVec.ofNat 40 (usg 40 (wordInt a * wordInt b))

/-- MULH: the signed product divided by 2^31, rounded down. -/
def mulhAcc (a b : Word) : Acc := BitVec.ofNat 40 (usg 40 (wordInt a * wordInt b / 2147483648))

/-- DIV (R239): truncated toward zero; a zero divisor and -2^39 / -1 give the bounds of the accumulator. -/
def divAcc (a : Acc) (b : Word) : Acc :=
  let x := sgn 40 a.toNat
  let y := wordInt b
  if y = 0 then (if 0 ≤ x then BitVec.ofNat 40 (2 ^ 39 - 1) else BitVec.ofNat 40 (2 ^ 39))
  else if x = -((2 ^ 39 : Nat) : Int) ∧ y = -1 then BitVec.ofNat 40 (2 ^ 39 - 1)
  else BitVec.ofNat 40 (usg 40 (x.tdiv y))

/-- The floor of the square root of a number below 2^(2 n), bit by bit from the top. -/
def natSqrt (n v : Nat) : Nat :=
  (List.range n).foldl (fun r i => let c := r + 2 ^ (n - 1 - i); if c * c ≤ v then c else r) 0

/-- SQRT (R239). -/
def sqrtAcc (w : Word) : Acc := BitVec.ofNat 40 (natSqrt 16 w.toNat)

/-- SHF (R239): 0 LSL, 1 LSR, 2 ASR over 40 bits; 3 ROR of ACC[31:0] by s mod 32, class L. -/
def shiftAcc (a : Acc) (ty : Fin 4) (n : Nat) : Acc :=
  match ty with
  | 0 => a <<< n
  | 1 => a >>> n
  | 2 => a.sshiftRight n
  | 3 => classL ((a.setWidth 32).rotateRight (n % 32))

/-- The parity of a word (R238). -/
def parity (w : Word) : Bool := (setBits 32 w.toNat).length % 2 == 1

/-- A word with its bits reversed (R238). -/
def brevWord (w : Word) : Word := BitVec.ofNat 32 (bitrev 32 w.toNat)

/-- A word with its bytes reversed (R238). -/
def bswpWord (w : Word) : Word := BitVec.ofNat 32 (beNat (leBytes 4 w.toNat))

/-- Width, polynomial and bit order of CRC selection P on the tile of thread k (R237). -/
def State.crcParams (s : State) (k : Nat) (p : Fin 4) : Nat × Nat × Bool :=
  let c := k / 128
  let j := k % 128 / 32
  match p with
  | 0 => (16, 0x1021, false)
  | 1 => (32, 0x04C11DB7, true)
  | 2 => (32, 0x1EDC6F41, true)
  | 3 => if s.rb (Reg.CLU_CRC_CFG c j) 1 then (32, (s.reg (Reg.CLU_CRC_POLY c j)).toNat, s.rb (Reg.CLU_CRC_CFG c j) 0)
         else (16, (s.reg (Reg.CLU_CRC_POLY c j)).toNat % 65536, s.rb (Reg.CLU_CRC_CFG c j) 0)

/-- The CRC state after bytes (R237): the state is ACC[15:0] for width 16, ACC[31:0] for width 32; class Z. -/
def crcAcc (ps : Nat × Nat × Bool) (a : Acc) (bs : List Byte) : Acc :=
  classZ (BitVec.ofNat 32 (bs.foldl (fun x b => crcUpdate ps.1 ps.2.1 ps.2.2 x b.toNat) (a.toNat % 2 ^ ps.1)))

end Sys2Proof.Machine
end

