-- ==== Sys2Proof/Machine/Issue.lean ====
section
/-!
DEFINITION. The issue of a Rospel instruction (R195-R202, R218, R221, R222): what a thread fetches, when its instruction can issue, which
faults of the fetch and of the roles come first, and what follows an instruction that completes, transfers, waits or faults.
-/

namespace Sys2Proof.Machine

/-! ## Fetch -/

/-- The words of a thread's next instruction: those its fetch stage holds, else those it fetches now. -/
def State.nextWords (s : State) (k : Nat) : PWord × PWord := (s.thr k).fetched.getD (s.fetchWords k)

/-- Whether an address lies in region v of the tile of thread k (R222, R243). -/
def State.inRegion (s : State) (k v : Nat) (a : BitVec 16) : Bool :=
  let r := s.reg (Reg.CLU_PMEM_RGN (k / 128) (k % 128 / 32) v)
  fld r 15 0 ≤ a.toNat && a.toNat ≤ fld r 31 16

/-- Whether a thread may fetch at an address (R222). -/
def State.fetchAllowed (s : State) (k : Nat) (a : BitVec 16) : Bool :=
  match (s.thr k).priv with
  | .u => s.inRegion k 0 a
  | .k => s.inRegion k 0 a || s.inRegion k 1 a
  | .s => s.inRegion k 0 a || s.inRegion k 1 a || s.inRegion k 2 a || s.inRegion k 3 a

/-- Whether a program word has an uncorrectable error (R221). -/
def State.pmemBadAt (s : State) (k : Nat) (a : BitVec 16) : Bool := s.clu.pmemBad.gd false (65536 * tileOf k + a.toNat)

/-- The fault of the fetch at the PC of thread k, for an instruction of `len` words (R205): PMEM, FETCH_ECC. -/
def State.fetchFault (s : State) (k len : Nat) : Option Nat :=
  let as := (List.range len).map fun i => (s.thr k).ctx.pc + BitVec.ofNat 16 i
  if as.any fun a => !s.fetchAllowed k a then some 5 else if as.any (s.pmemBadAt k) then some 6 else none

/-- The instruction that thread t's next words spell (R230-R232), none where they are undefined. -/
def State.nextInstr (s : State) (t : ThreadId) : Option Instr :=
  let ws := s.nextWords (tidNat t)
  rosDecode t ws.1.toNat ws.2.toNat ((s.thr (tidNat t)).ctx.getG (ws.1.toNat % 8)).toNat

/-! ## Breakpoints -/

/-- Whether breakpoint b of the core of thread k matches at its boundary (R467). -/
def State.bpMatches (s : State) (k b : Nat) : Bool :=
  let r := s.reg (Reg.CLU_DBG_BP (k / 128) (k % 128 / 8) b)
  tbit r 31 && fld r 15 0 == (s.thr k).ctx.pc.toNat &&
    (!tbit r 30 || s.rf (Reg.CLU_DBG_BP_THR (k / 128) (k % 128 / 8) b) 6 0 == k % 128) &&
    (!tbit r 29 || (s.thr k).task == some (fld r 25 16))

/-- The lowest breakpoint that stops thread k before its next instruction; none for one it has just been resumed from. -/
def State.bpHit (s : State) (k : Nat) : Option Nat :=
  if (s.thr k).st == .ready && !(s.thr k).bpSkip then (List.range 4).find? (s.bpMatches k) else none

/-! ## Issue -/

/-- Whether thread k can issue at all: READY, not about to be switched out, stopped by no breakpoint, and, for a supervisor, with no
interrupt to take first (R197, R201, R203, R268, R467). -/
def State.canIssue (s : State) (k : Nat) : Bool :=
  (s.thr k).st == .ready && !(s.thr k).leaving && (s.bpHit k).isNone && !(isSup k && s.supTakes (k / 128))

/-- What an instruction does: completes and falls through; transfers control (its effect has set PC); waits; gives its thread away; faults
with a code and a data address, in the state the fault finds; or is STALLED on something and does not issue. -/
inductive Eff where
  | next (s : State)
  | jump (s : State)
  | wait (s : State)
  | gone (s : State)
  | fault (s : State) (code : Nat) (addr : Word)
  | stall (why : StallOn)

/-- The number of a stall's cause in a sample record (R461), of those that have one. -/
def StallOn.code : StallOn → Option Nat
  | .operand _ => some 1
  | .unit => some 2
  | .buffer _ => some 3
  | .queue => some 4
  | .bytes _ => none
  | .verdict => none
  | .drain => none

/-- The stall fields of a sample record (R461): the cycles up to now, saturating, and the cause. -/
def State.stallFields (s : State) (k cycles cause : Nat) : Nat :=
  match (s.thr k).stall with
  | some (why, at_) => min (coreCycles (s.up - at_)) 255 * 256 + why.code.getD cause * 16
  | none => cycles * 256 + cause * 16

/-- The instruction sampler sees an issue (R461): it counts one of a pooled thread that runs a task of a sampled partition with an ACTIVE
grant, and selects the one at which its count reaches the value drawn. The stall fields of the record are those of the stall noted last (R195);
where none was, or its cause has no number, they are free values: the model times no other stall. -/
def State.sampleIssue (s : State) (k : Nat) (iw : PWord) : State :=
  let c := k / 128
  let cfg := s.reg (Reg.CLU_PMU_SMP_CFG c)
  let p := s.thrPart k
  let m := s.sampler c
  if tbit cfg 31 && (s.thr k).task.isSome && tbit cfg p && (s.grant p).active && m.out.isNone then
    let d := match m.target with
      | some n => (n, s)
      | none => let r := s.freeN (2 ^ fld cfg 28 24); (r.1 + 2 ^ fld cfg 28 24 / 2, r.2)
    if m.count + 1 < d.1 then d.2.setSampler c { m with count := m.count + 1, target := some d.1 }
    else
      let a := d.2.freeN 256
      let b := a.2.freeN 6
      let lvl := match (s.thr k).priv with | .u => 0 | .k => 1 | .s => 2
      b.2.setSampler c
        { count := 0, target := none
          out := some (s.up, k,
            [BitVec.ofNat 32 (s.time % secU / nsU),
             BitVec.ofNat 32 ((s.thr k).ctx.pc.toNat * 65536 + c * 8192 + k % 128 * 64),
             BitVec.ofNat 32 ((s.thr k).task.getD 0 * 4194304 + lvl * 1048576 + p * 65536 + iw.toNat),
             BitVec.ofNat 32 (s.stallFields k a.1 b.1 + (if (s.thr k).ctx.taint then 8 else 0))]) }
  else s

/-- Whether the instruction thread k has just issued was sampled. -/
def State.sampledNow (s0 s1 : State) (k : Nat) : Bool :=
  (s0.sampler (k / 128)).out.isNone &&
    (match (s1.sampler (k / 128)).out with | some (_, k', _) => k' == k | none => false)

/-- What an issue counts (R457): the instruction, its slots, and the sampler's view of it. -/
def State.countIssue (s : State) (k len : Nat) (iw : PWord) : State :=
  let c := k / 128
  let a := s.privAttr k
  ((((s.pmuCore c (k % 128 / 8) 0x01 a 1).pmuCore c (k % 128 / 8) 0x02 a len).sampleIssue k iw)).updThr k fun t => { t with bpSkip := false, slots := t.slots + len }

/-- The halt of a thread that was stepping, after the one instruction it ran (R468). -/
def State.stepHalt (s : State) (k : Nat) : State :=
  if (s.thr k).stepping && ((s.thr k).st == .ready || (s.thr k).st == .idle) then s.haltThread k 3 0 else s

/-- The retirement of a sampled instruction (R461): with its pending result, when it completes its wait, or at issue. -/
def State.noteSample (s0 s1 : State) (k : Nat) (pended waits : Bool) : State :=
  if waits || !s0.sampledNow s1 k then s1
  else if pended then s1.updThr k fun t =>
    { t with pend := t.pend.dropLast ++ (t.pend.getLast?.toList.map fun p => { p with smp := true }) }
  else s1.retireSample k

/-- A sampled instruction that faults never retires: its sample is dropped and counting goes on. -/
def State.dropSample (s0 s1 : State) (k : Nat) : State :=
  if s0.sampledNow s1 k then s1.setSampler (k / 128) { s1.sampler (k / 128) with out := none } else s1

/-- Thread k is found STALLED (R195), since now unless its instruction waited for the same before; a stall on the DIV unit or on a full store
buffer is counted (R457). -/
def State.noteStall (s : State) (k : Nat) (why : StallOn) : State :=
  if (s.thr k).stall.any (·.1 == why) then s
  else
    let s1 := match why with
      | .unit => s.pmuCore (k / 128) (k % 128 / 8) 0x07 (s.privAttr k) 1
      | .buffer _ => s.pmuCore (k / 128) (k % 128 / 8) 0x08 (s.privAttr k) 1
      | _ => s
    s1.updThr k fun t => { t with stall := some (why, s.up) }

/-- The end of an instruction that started in s0 with its words fetched: what its effect leads to (R218, R234, R236). -/
def State.finishInstr (s0 : State) (k len : Nat) (iw : PWord) (e : Eff) : State :=
  let more := fun (s : State) => (s0.thr k).pend.length < (s.thr k).pend.length
  match e with
  | .next s =>
    let s1 := s.updCtx k fun c => c.advance len
    let s2 := s1.updThr k fun t => { t with fetched := some (s0.pmemAt k t.ctx.pc, s0.pmemAt k (t.ctx.pc + 1)), stall := none }
    (State.noteSample s0 s2 k (more s2) (s2.cpx.cmds.any fun p => p.2.live && p.2.tid == k && p.2.smp)).stepHalt k
  | .jump s =>
    let s1 := (s.refetch k).pmuCore (k / 128) (k % 128 / 8) 0x04 (s0.privAttr k) 1
    (State.noteSample s0 s1 k (more s1) false).stepHalt k
  | .wait s => s.updThr k fun t =>
      { t with fetched := some (s0.pmemAt k (t.ctx.advance len).pc, s0.pmemAt k ((t.ctx.advance len).pc + 1)), stall := none }
  | .gone s => (State.noteSample s0 s k false (s.task (s0.taskOn k)).wait.isSome).stepHalt k
  | .fault s code addr => (State.dropSample s0 s k).faultAt k code false addr (s0.thr k).ctx.pc iw
  | .stall why => s0.noteStall k why

/-- The issue of instruction i by thread t, of `len` words: nothing where the thread cannot issue, where its next words spell another
instruction; STALLED where a destination in `ds` has a result pending; a fault of its fetch or of its role (`perm`); else its effect. -/
def State.issue (s : State) (t : ThreadId) (i : Instr) (len : Nat) (ds : List Dest) (perm : Option Nat) (act : State → Eff) : State :=
  let k := tidNat t
  let iw := (s.nextWords k).1
  if !s.canIssue k then s
  else
    match s.fetchFault k (wordsOf iw.toNat) with
    | some code => s.faultAt k code false 0 (s.thr k).ctx.pc iw
    | none =>
      if s.nextInstr t ≠ some i then s
      else
        match perm with
        | some code => (s.dropSample (s.countIssue k len iw) k).faultAt k code false 0 (s.thr k).ctx.pc iw
        | none =>
          if s.stalledOn k ds then s.noteStall k (.operand ds) else State.finishInstr s k len iw (act (s.countIssue k len iw))

/-- The fault code of a role that does not hold (R240). -/
def need (ok : Bool) : Option Nat := if ok then none else some 2

/-- A simple instruction: it completes and falls through. -/
def State.simple (s : State) (t : ThreadId) (i : Instr) (len : Nat) (ds : List Dest) (f : State → State) : Host.Outcome State Fault Refusal :=
  done s (s.issue t i len ds none fun x => .next (f x))

end Sys2Proof.Machine
end

