-- ==== Sys2Proof/Machine/Alu.lean ====
section
/-!
DEFINITION. The Rospel instructions that work on the accumulator, the direct page, the G and index registers, and those that transfer
control (R234-R239): one definition an instruction.
-/

namespace Sys2Proof.Machine

/-- A result put beside the pipe for thread k (R200). -/
def State.pendRes (s : State) (k : Nat) (p : PendResult) : State := s.updThr k fun t => { t with pend := t.pend ++ [p] }

/-- A result for ACC put beside the pipe. -/
def State.pendAcc (s : State) (k : Nat) (v : Acc) : State := s.pendRes k { dest := .acc, val := v }

/-- Whether the divide and root unit of the core of thread k is busy (R200). -/
def State.divBusy (s : State) (k : Nat) : Bool := s.clu.thr.any fun p => p.1 / 8 == k / 8 && p.2.pend.any (·.busyUnit)

/-- Since when thread k has been STALLED on the divide and root unit, now where it has not. -/
def State.unitSince (s : State) (k : Nat) : Nat :=
  match (s.thr k).stall with
  | some (.unit, u) => u
  | _ => s.up

/-- Whether a thread of the core that became STALLED on the divide and root unit before thread k goes before it, the lower index in equal
cycles (R200). -/
def State.unitTaken (s : State) (k : Nat) : Bool :=
  s.clu.thr.any fun p => p.1 / 8 == k / 8 && p.1 != k && s.canIssue p.1 && p.2.stall.any (·.1 == .unit) &&
    (s.unitSince p.1 < s.unitSince k || (s.unitSince p.1 == s.unitSince k && p.1 < k))

/-- Whether what thread k is STALLED on still stands (R195). -/
def State.stallHolds (s : State) (k : Nat) : StallOn → Bool
  | .operand ds => s.stalledOn k ds
  | .unit => s.divBusy k || s.unitTaken k
  | .buffer n => 4 < (s.thr k).sb.length + n
  | .bytes n => (match (s.thr k).packet with
      | some f => (s.frame f).tailAt.isNone && (s.frame f).bytes.length < n
      | none => false)
  | .verdict => (match (s.thr k).packet with
      | some f => (s.frame f).verdict == 0
      | none => false)
  | .queue => 4 ≤ (s.cpx.cmds.filter fun p => p.2.live && p.2.tid == k).length ||
      (List.range 16).all fun i => (s.cpxCmd (16 * (k / 8) + i)).live
  | .drain => s.cpxBusy k || (s.thr k).pend.any fun p => p.ecc

/-- Whether thread k is STALLED (R195): READY, with an instruction that still waits for what stopped it. -/
def State.isStalled (s : State) (k : Nat) : Bool := (s.thr k).st == .ready && (s.thr k).stall.any fun p => s.stallHolds k p.1

/-- A DIV or SQRT: STALLED while the unit of the core is busy, or another thread is served first (R200). -/
def State.divUnit (s : State) (k : Nat) (v : Acc) : Eff :=
  if s.divBusy k || s.unitTaken k then .stall .unit else .next (s.pendRes k { dest := .acc, val := v, busyUnit := true })

/-- LOOP and LOOPI (R235, R236): level k with LS, LE and LC; a fifth level faults LOOP; a count of zero opens none and continues after the
body. -/
def State.openLoop (s : State) (k : Nat) (count : BitVec 16) (b : Nat) : Eff :=
  let c := (s.thr k).ctx
  let n := c.levels
  if n = 4 then .fault s 9 0
  else if count = 0 then .jump (s.updCtx k fun c => { c with pc := c.pc + 1 + BitVec.ofNat 16 b })
  else .next (s.updCtx k fun c =>
    { c with ls := setLoopReg c.ls n (c.pc + 1), le := setLoopReg c.le n (c.pc + BitVec.ofNat 16 b), lc := setLoopReg c.lc n count })

/-- A taken branch, which ends the loop levels that its target leaves (R236). -/
def State.branch (s : State) (k : Nat) (target : BitVec 16) : Eff := .jump (s.updCtx k fun c => c.branchTo target)

/-- IE set or cleared (R203, R204): a masked interval begins where it is cleared. -/
def State.setIe (s : State) (k : Nat) (b : Bool) : State :=
  s.updThr k fun t => { t with ie := b, maskAt := if b then none else if t.ie then some s.up else t.maskAt }

/-- LD (R239): ACC := sext(dp). -/
def execLd (t : ThreadId) (da : BitVec 9) (s : State) : Host.Outcome State Fault Refusal :=
  let k := tidNat t
  s.simple t (.ld t da) 1 [.acc] fun x => x.setAcc k (sext (x.dpW k da))

/-- LDU (R239): ACC := zext(dp). -/
def execLdu (t : ThreadId) (da : BitVec 9) (s : State) : Host.Outcome State Fault Refusal :=
  let k := tidNat t
  s.simple t (.ldu t da) 1 [.acc] fun x => x.setAcc k (zext (x.dpW k da))

/-- ST (R239): dp := ACC[31:0]. -/
def execSt (t : ThreadId) (da : BitVec 9) (s : State) : Host.Outcome State Fault Refusal :=
  let k := tidNat t
  s.simple t (.st t da) 1 [.acc] fun x => x.setDp k da (x.accW k)

/-- STS (R239): dp := ACC saturated to 32 bits. -/
def execSts (t : ThreadId) (da : BitVec 9) (s : State) : Host.Outcome State Fault Refusal :=
  let k := tidNat t
  s.simple t (.sts t da) 1 [.acc] fun x => x.setDp k da (satWord (x.accOf k))

/-- ADD (R239): ACC := ACC + sext(dp). -/
def execAdd (t : ThreadId) (da : BitVec 9) (s : State) : Host.Outcome State Fault Refusal :=
  let k := tidNat t
  s.simple t (.add t da) 1 [.acc] fun x => x.setAcc k (x.accOf k + sext (x.dpW k da))

/-- ADDU (R239): ACC := ACC + zext(dp). -/
def execAddu (t : ThreadId) (da : BitVec 9) (s : State) : Host.Outcome State Fault Refusal :=
  let k := tidNat t
  s.simple t (.addu t da) 1 [.acc] fun x => x.setAcc k (x.accOf k + zext (x.dpW k da))

/-- SUB (R239): ACC := ACC - sext(dp). -/
def execSub (t : ThreadId) (da : BitVec 9) (s : State) : Host.Outcome State Fault Refusal :=
  let k := tidNat t
  s.simple t (.sub t da) 1 [.acc] fun x => x.setAcc k (x.accOf k - sext (x.dpW k da))

/-- AND (R239): ACC[31:0] and dp, class L. -/
def execAndDp (t : ThreadId) (da : BitVec 9) (s : State) : Host.Outcome State Fault Refusal :=
  let k := tidNat t
  s.simple t (.andDp t da) 1 [.acc] fun x => x.setAcc k (classL (x.accW k &&& x.dpW k da))

/-- OR (R239): ACC[31:0] or dp, class L. -/
def execOrDp (t : ThreadId) (da : BitVec 9) (s : State) : Host.Outcome State Fault Refusal :=
  let k := tidNat t
  s.simple t (.orDp t da) 1 [.acc] fun x => x.setAcc k (classL (x.accW k ||| x.dpW k da))

/-- XOR (R239): ACC[31:0] xor dp, class L. -/
def execXorDp (t : ThreadId) (da : BitVec 9) (s : State) : Host.Outcome State Fault Refusal :=
  let k := tidNat t
  s.simple t (.xorDp t da) 1 [.acc] fun x => x.setAcc k (classL (x.accW k ^^^ x.dpW k da))

/-- MUL (R200, R239): the product is written beside the pipe. -/
def execMul (t : ThreadId) (da : BitVec 9) (s : State) : Host.Outcome State Fault Refusal :=
  let k := tidNat t
  s.simple t (.mul t da) 1 [.acc] fun x => x.pendAcc k (mulAcc (x.accW k) (x.dpW k da))

/-- MULH (R200, R239): the high part of the product, beside the pipe. -/
def execMulh (t : ThreadId) (da : BitVec 9) (s : State) : Host.Outcome State Fault Refusal :=
  let k := tidNat t
  s.simple t (.mulh t da) 1 [.acc] fun x => x.pendAcc k (mulhAcc (x.accW k) (x.dpW k da))

/-- MOVG (R239): Ga := Gb. -/
def execMovg (t : ThreadId) (ga gb : Fin 8) (s : State) : Host.Outcome State Fault Refusal :=
  let k := tidNat t
  s.simple t (.movg t ga gb) 1 [.g ga, .g gb] fun x => x.setG k ga (x.gOf k gb)

/-- MVA (R239): ACC := sext(Ga). -/
def execMva (t : ThreadId) (ga : Fin 8) (s : State) : Host.Outcome State Fault Refusal :=
  let k := tidNat t
  s.simple t (.mva t ga) 1 [.acc, .g ga] fun x => x.setAcc k (sext (x.gOf k ga))

/-- MVAU (R239): ACC := zext(Ga). -/
def execMvau (t : ThreadId) (ga : Fin 8) (s : State) : Host.Outcome State Fault Refusal :=
  let k := tidNat t
  s.simple t (.mvau t ga) 1 [.acc, .g ga] fun x => x.setAcc k (zext (x.gOf k ga))

/-- MVG (R239): Ga := ACC[31:0]. -/
def execMvg (t : ThreadId) (ga : Fin 8) (s : State) : Host.Outcome State Fault Refusal :=
  let k := tidNat t
  s.simple t (.mvg t ga) 1 [.acc, .g ga] fun x => x.setG k ga (x.accW k)

/-- ADDG (R239): Ga := Ga op Gb, modulo 2^32. -/
def execAddg (t : ThreadId) (ga gb : Fin 8) (s : State) : Host.Outcome State Fault Refusal :=
  let k := tidNat t
  s.simple t (.addg t ga gb) 1 [.g ga, .g gb] fun x => x.setG k ga (x.gOf k ga + x.gOf k gb)

/-- SUBG (R239): Ga := Ga op Gb, modulo 2^32. -/
def execSubg (t : ThreadId) (ga gb : Fin 8) (s : State) : Host.Outcome State Fault Refusal :=
  let k := tidNat t
  s.simple t (.subg t ga gb) 1 [.g ga, .g gb] fun x => x.setG k ga (x.gOf k ga - x.gOf k gb)

/-- ANDG (R239): Ga := Ga op Gb, modulo 2^32. -/
def execAndg (t : ThreadId) (ga gb : Fin 8) (s : State) : Host.Outcome State Fault Refusal :=
  let k := tidNat t
  s.simple t (.andg t ga gb) 1 [.g ga, .g gb] fun x => x.setG k ga (x.gOf k ga &&& x.gOf k gb)

/-- ORG (R239): Ga := Ga op Gb, modulo 2^32. -/
def execOrg (t : ThreadId) (ga gb : Fin 8) (s : State) : Host.Outcome State Fault Refusal :=
  let k := tidNat t
  s.simple t (.org t ga gb) 1 [.g ga, .g gb] fun x => x.setG k ga (x.gOf k ga ||| x.gOf k gb)

/-- XORG (R239): Ga := Ga op Gb, modulo 2^32. -/
def execXorg (t : ThreadId) (ga gb : Fin 8) (s : State) : Host.Outcome State Fault Refusal :=
  let k := tidNat t
  s.simple t (.xorg t ga gb) 1 [.g ga, .g gb] fun x => x.setG k ga (x.gOf k ga ^^^ x.gOf k gb)

/-- CEQ (R229, R239): Ga := (ACC[31:0] = Gb). -/
def execCeq (t : ThreadId) (ga gb : Fin 8) (s : State) : Host.Outcome State Fault Refusal :=
  let k := tidNat t
  s.simple t (.ceq t ga gb) 1 [.acc, .g ga, .g gb] fun x => x.setG k ga (boolWord (x.accW k == x.gOf k gb))

/-- CNE (R229, R239): Ga := (ACC[31:0] is not Gb). -/
def execCne (t : ThreadId) (ga gb : Fin 8) (s : State) : Host.Outcome State Fault Refusal :=
  let k := tidNat t
  s.simple t (.cne t ga gb) 1 [.acc, .g ga, .g gb] fun x => x.setG k ga (boolWord (x.accW k != x.gOf k gb))

/-- CLT (R229, R239): Ga := (ACC < sext(Gb)), signed over 40 bits. -/
def execClt (t : ThreadId) (ga gb : Fin 8) (s : State) : Host.Outcome State Fault Refusal :=
  let k := tidNat t
  s.simple t (.clt t ga gb) 1 [.acc, .g ga, .g gb] fun x => x.setG k ga (boolWord ((x.accOf k).slt (sext (x.gOf k gb))))

/-- CGE (R229, R239): Ga := (ACC is at least sext(Gb)), signed over 40 bits. -/
def execCge (t : ThreadId) (ga gb : Fin 8) (s : State) : Host.Outcome State Fault Refusal :=
  let k := tidNat t
  s.simple t (.cge t ga gb) 1 [.acc, .g ga, .g gb] fun x => x.setG k ga (boolWord (!(x.accOf k).slt (sext (x.gOf k gb))))

/-- CLTU (R229, R239): Ga := (ACC[31:0] < Gb), unsigned. -/
def execCltu (t : ThreadId) (ga gb : Fin 8) (s : State) : Host.Outcome State Fault Refusal :=
  let k := tidNat t
  s.simple t (.cltu t ga gb) 1 [.acc, .g ga, .g gb] fun x => x.setG k ga (boolWord ((x.accW k).ult (x.gOf k gb)))

/-- CGEU (R229, R239): Ga := (ACC[31:0] is at least Gb), unsigned. -/
def execCgeu (t : ThreadId) (ga gb : Fin 8) (s : State) : Host.Outcome State Fault Refusal :=
  let k := tidNat t
  s.simple t (.cgeu t ga gb) 1 [.acc, .g ga, .g gb] fun x => x.setG k ga (boolWord (!(x.accW k).ult (x.gOf k gb)))

/-- PAR (R238): Ga := the XOR of the 32 bits of Gb. -/
def execPar (t : ThreadId) (ga gb : Fin 8) (s : State) : Host.Outcome State Fault Refusal :=
  let k := tidNat t
  s.simple t (.par t ga gb) 1 [.g ga, .g gb] fun x => x.setG k ga (boolWord (parity (x.gOf k gb)))

/-- BREV (R238): Ga := Gb bit-reversed. -/
def execBrev (t : ThreadId) (ga gb : Fin 8) (s : State) : Host.Outcome State Fault Refusal :=
  let k := tidNat t
  s.simple t (.brev t ga gb) 1 [.g ga, .g gb] fun x => x.setG k ga (brevWord (x.gOf k gb))

/-- BSWP (R238): Ga := Gb byte-reversed. -/
def execBswp (t : ThreadId) (ga gb : Fin 8) (s : State) : Host.Outcome State Fault Refusal :=
  let k := tidNat t
  s.simple t (.bswp t ga gb) 1 [.g ga, .g gb] fun x => x.setG k ga (bswpWord (x.gOf k gb))

/-- CRCB (R237, R238): ACC takes Gb[7:0]. -/
def execCrcb (t : ThreadId) (p : Fin 4) (gb : Fin 8) (s : State) : Host.Outcome State Fault Refusal :=
  let k := tidNat t
  s.simple t (.crcb t p gb) 1 [.acc, .g gb] fun x => x.setAcc k (crcAcc (x.crcParams k p) (x.accOf k) [(x.gOf k gb).setWidth 8])

/-- CRCW (R237, R238): ACC takes the four bytes of Gb, least significant first. -/
def execCrcw (t : ThreadId) (p : Fin 4) (gb : Fin 8) (s : State) : Host.Outcome State Fault Refusal :=
  let k := tidNat t
  s.simple t (.crcw t p gb) 1 [.acc, .g gb] fun x => x.setAcc k (crcAcc (x.crcParams k p) (x.accOf k) (leBytes 4 (x.gOf k gb).toNat))

/-- LDI (R239): ACC := sext(IMM8). -/
def execLdi (t : ThreadId) (imm : BitVec 8) (s : State) : Host.Outcome State Fault Refusal :=
  let k := tidNat t
  s.simple t (.ldi t imm) 1 [.acc] fun x => x.setAcc k (sext imm)

/-- ADDI (R239): ACC := ACC + sext(IMM8). -/
def execAddi (t : ThreadId) (imm : BitVec 8) (s : State) : Host.Outcome State Fault Refusal :=
  let k := tidNat t
  s.simple t (.addi t imm) 1 [.acc] fun x => x.setAcc k (x.accOf k + sext imm)

/-- ANDI (R239): ACC[31:0] and zext(IMM8), class L. -/
def execAndi (t : ThreadId) (imm : BitVec 8) (s : State) : Host.Outcome State Fault Refusal :=
  let k := tidNat t
  s.simple t (.andi t imm) 1 [.acc] fun x => x.setAcc k (classL (x.accW k &&& imm.setWidth 32))

/-- SHF (R239). -/
def execShf (t : ThreadId) (ty : Fin 4) (n : BitVec 6) (s : State) : Host.Outcome State Fault Refusal :=
  let k := tidNat t
  s.simple t (.shf t ty n) 1 [.acc] fun x => x.setAcc k (shiftAcc (x.accOf k) ty n.toNat)

/-- LOOP (R235): a level with the count in Gs[15:0]. -/
def execLoop (t : ThreadId) (gs : Fin 8) (b1 : Fin 64) (s : State) : Host.Outcome State Fault Refusal :=
  let k := tidNat t
  done s (s.issue t (.loop t gs b1) 1 [.g gs] none fun x => x.openLoop k ((x.gOf k gs).setWidth 16) (b1.val + 1))

/-- LOOPI (R235): a level with an immediate count. -/
def execLoopi (t : ThreadId) (n1 : Fin 32) (b1 : Fin 16) (s : State) : Host.Outcome State Fault Refusal :=
  done s (s.issue t (.loopi t n1 b1) 1 [] none fun x => x.openLoop (tidNat t) (BitVec.ofNat 16 (n1.val + 1)) (b1.val + 1))

/-- BZ (R234): a branch where Gs is zero. -/
def execBz (t : ThreadId) (gs : Fin 8) (rel : BitVec 6) (s : State) : Host.Outcome State Fault Refusal :=
  let k := tidNat t
  done s (s.issue t (.bz t gs rel) 1 [.g gs] none fun x => if x.gOf k gs = 0 then x.branch k (relTarget (x.thr k).ctx.pc rel) else .next x)

/-- BNZ (R234): a branch where Gs is not zero. -/
def execBnz (t : ThreadId) (gs : Fin 8) (rel : BitVec 6) (s : State) : Host.Outcome State Fault Refusal :=
  let k := tidNat t
  done s (s.issue t (.bnz t gs rel) 1 [.g gs] none fun x => if x.gOf k gs = 0 then .next x else x.branch k (relTarget (x.thr k).ctx.pc rel))

/-- BRA (R234). -/
def execBra (t : ThreadId) (rel : BitVec 9) (s : State) : Host.Outcome State Fault Refusal :=
  done s (s.issue t (.bra t rel) 1 [] none fun x => x.branch (tidNat t) (relTarget (x.thr (tidNat t)).ctx.pc rel))

/-- LDL (R239): ACC[19:0] := the payload, ACC[39:20] copies of its bit 19. -/
def execLdl (t : ThreadId) (imm : BitVec 20) (s : State) : Host.Outcome State Fault Refusal :=
  s.simple t (.ldl t imm) 2 [.acc] fun x => x.setAcc (tidNat t) (sext imm)

/-- LDLH (R239): ACC[39:20] := the payload, ACC[19:0] unchanged. -/
def execLdlh (t : ThreadId) (imm : BitVec 20) (s : State) : Host.Outcome State Fault Refusal :=
  let k := tidNat t
  s.simple t (.ldlh t imm) 2 [.acc] fun x => x.setAcc k (imm ++ (x.accOf k).setWidth 20)

/-- JMPF (R234). -/
def execJmpf (t : ThreadId) (addr : BitVec 16) (s : State) : Host.Outcome State Fault Refusal :=
  done s (s.issue t (.jmpf t addr) 2 [] none fun x => x.branch (tidNat t) addr)

/-- CALLF (R234): G7 takes a + 2; no loop level ends (R236). -/
def execCallf (t : ThreadId) (addr : BitVec 16) (s : State) : Host.Outcome State Fault Refusal :=
  let k := tidNat t
  done s (s.issue t (.callf t addr) 2 [.g 7] none fun x =>
    .jump ((x.setG k 7 (BitVec.ofNat 32 ((x.thr k).ctx.pc + 2).toNat)).updCtx k fun c => { c with pc := addr }))

/-- NOP (R239). -/
def execNop (t : ThreadId) (s : State) : Host.Outcome State Fault Refusal :=
  let k := tidNat t
  done s (s.issue t (.nop t) 1 [] none fun x => let _ := k; .next x)

/-- SYNCI (R218): the fetched instruction is discarded, so the next one is fetched now. -/
def execSynci (t : ThreadId) (s : State) : Host.Outcome State Fault Refusal :=
  let k := tidNat t
  done s (s.issue t (.synci t) 1 [] none fun x => .jump (x.updCtx k fun c => c.advance 1))

/-- RET (R234): PC := G7[15:0]; no loop level ends. -/
def execRet (t : ThreadId) (s : State) : Host.Outcome State Fault Refusal :=
  let k := tidNat t
  done s (s.issue t (.ret t) 1 [.g 7] none fun x => .jump (x.updCtx k fun c => { c with pc := (c.g[7]).setWidth 16 }))

/-- RETI (R203, R240): PC := direct-page word 0x1FF, IE := 1. -/
def execReti (t : ThreadId) (s : State) : Host.Outcome State Fault Refusal :=
  let k := tidNat t
  done s (s.issue t (.reti t) 1 [] (need (isSup k)) fun x => .jump ((x.setIe k true).updCtx k fun c => { c with pc := (x.dpW k 0x1FF).setWidth 16 }))

/-- EI (R239, R240). -/
def execEi (t : ThreadId) (s : State) : Host.Outcome State Fault Refusal :=
  let k := tidNat t
  done s (s.issue t (.ei t) 1 [] (need (isSup k)) fun x => .next (x.setIe k true))

/-- DI (R239, R240). -/
def execDi (t : ThreadId) (s : State) : Host.Outcome State Fault Refusal :=
  let k := tidNat t
  done s (s.issue t (.di t) 1 [] (need (isSup k)) fun x => .next (x.setIe k false))

/-- MTX0, MTX1 (R239): IXx := Gs. -/
def execMtx (t : ThreadId) (x : Fin 2) (gs : Fin 8) (s : State) : Host.Outcome State Fault Refusal :=
  let k := tidNat t
  s.simple t (.mtx t x gs) 1 [.g gs, .ix x] fun y => y.setIx k x (y.gOf k gs)

/-- MFX0, MFX1 (R239): Gs := IXx. -/
def execMfx (t : ThreadId) (x : Fin 2) (gs : Fin 8) (s : State) : Host.Outcome State Fault Refusal :=
  let k := tidNat t
  s.simple t (.mfx t x gs) 1 [.g gs, .ix x] fun y => y.setG k gs (y.ixOf k x)

/-- ADX0, ADX1 (R239): IXx := IXx + Gs. -/
def execAdx (t : ThreadId) (x : Fin 2) (gs : Fin 8) (s : State) : Host.Outcome State Fault Refusal :=
  let k := tidNat t
  s.simple t (.adx t x gs) 1 [.g gs, .ix x] fun y => y.setIx k x (y.ixOf k x + y.gOf k gs)

/-- DIV (R200, R239): beside the pipe, in the unit that DIV and SQRT share. -/
def execDiv (t : ThreadId) (gs : Fin 8) (s : State) : Host.Outcome State Fault Refusal :=
  let k := tidNat t
  done s (s.issue t (.div t gs) 1 [.acc, .g gs] none fun x => x.divUnit k (divAcc (x.accOf k) (x.gOf k gs)))

/-- SQRT (R200, R239): the integer square root of ACC[31:0]. -/
def execSqrt (t : ThreadId) (s : State) : Host.Outcome State Fault Refusal :=
  let k := tidNat t
  done s (s.issue t (.sqrt t) 1 [.acc] none fun x => x.divUnit k (sqrtAcc (x.accW k)))

end Sys2Proof.Machine
end

