-- ==== Sys2Proof/Machine/Frames.lean ====
section
/-!
DEFINITION. Frames inside the device (R154, R226): their lengths and byte times, their metadata, packet tags (R462), the capture rings (R165,
R166), and the end of a frame's record.
-/

namespace Sys2Proof.Machine

/-- The state with frame f passed through g. -/
def State.updFrame (s : State) (f : Nat) (g : Frame → Frame) : State := s.setFrame f (g (s.frame f))

/-- MAXLEN of an ingress (R57, R61). Injected frames and frames of the partner have no register: the greatest MAXLEN of a port. -/
def State.maxLen (s : State) (p : Nat) : Nat := if p < 16 then s.rf (Reg.ETH_PORT_CFG p) 13 0 else if p < 20 then 1536 else 9600

/-- The byte time of a port or egress in hundredths of a nanosecond (R55, R160): the pair link runs at 25 Gb/s. -/
def State.byteTime (s : State) (p : Nat) : Nat :=
  if p < 16 then (match s.rf (Reg.ETH_PORT_CFG p) 31 29 with | 1 => 32 | 2 => 80 | _ => 800)
  else if p < 20 then 80000 else 32

/-- A span of hundredths of a nanosecond, in units of `up`, rounded up. -/
def spanU (n : Nat) : Nat := ceilDiv (n * nsU) 100

/-- L of a frame (R154), 0 when unknown. -/
def Frame.lenL (x : Frame) : Nat :=
  match x.parse with
  | some p => p.l
  | none => 0

/-- The size requested for a buffer of frame f: L, or the ingress MAXLEN (R154). -/
def State.frameSize (s : State) (f : Nat) : Nat := if (s.frame f).lenL = 0 then s.maxLen (s.frame f).port else (s.frame f).lenL

/-- The parse of a frame, the empty one where it has none. -/
def Frame.par (x : Frame) : Parse := x.parse.getD {}

/-- Bytes of a frame as its lane's code has left them (R225). -/
def Frame.patched (x : Frame) (b : List Byte) : List Byte := (List.range b.length).map fun i => (x.patch.gd none i).getD (byteAt b i)

/-- Whether a verdict is a passing code, or a failing one (R101). -/
def verdictPass (v : Nat) : Bool := 1 ≤ v && v ≤ 3
def verdictFail (v : Nat) : Bool := 8 ≤ v

/-- Word i of the result of a frame (R79). -/
def Frame.resW (x : Frame) (i : Nat) : Word := wordAt x.res i

/-- The ACTION of a frame (R79, R82). -/
def Frame.action (x : Frame) : Nat := x.act

/-! ## Metadata -/

/-- EGRESS, HOSTQ, CAP and TC as the metadata window shows them (R226). -/
def Frame.egress (x : Frame) : Nat := nfld x.w16 21 0
def Frame.hostq (x : Frame) : Nat := nfld x.w17 21 16
def Frame.cap (x : Frame) : Nat := nfld x.w17 11 8
def Frame.tc (x : Frame) : Nat := nfld x.w17 2 0

/-- Word i of the packet metadata window (R226). -/
def Frame.metaWord (x : Frame) (i : Nat) : Word :=
  let p := x.par
  let b := fun (c : Bool) (n : Nat) => if c then n else 0
  if i < 6 then x.resW i
  else if i < 9 then timeWord x.ts (i - 6)
  else
    match i with
    | 9 => BitVec.ofNat 32 (x.port * 134217728 + p.reason * 33554432 + p.sub * 2097152 + p.kind * 262144 + b x.test 131072 + b x.sim 65536 +
        b x.dup 32768 + b x.lan 16384 + x.hit * 4096)
    | 10 => BitVec.ofNat 32 (p.dialect.toNat * 16777216 + (match p.name with | some n => n.length % 256 | none => 0) * 65536 + p.l % 16384)
    | 11 => BitVec.ofNat 32 p.digest.toNat
    | 12 => BitVec.ofNat 32 (p.digest.toNat / 4294967296)
    | 13 => BitVec.ofNat 32 (x.verdict * 268435456 + b x.recirc 134217728 + x.epoch % 65536)
    | 14 => BitVec.ofNat 32 (b x.fwdHit 2147483648 + x.fwdEgress % 4194304)
    | 15 => BitVec.ofNat 32 (x.fwdUser % 65536)
    | 16 => BitVec.ofNat 32 (x.w16 % 4194304)
    | 17 => BitVec.ofNat 32 (x.hostq * 65536 + x.cap * 256 + x.tc)
    | _ => 0

/-! ## Packet tags (R462) -/

/-- The key of the tag record of frame f in the pass under way. -/
def State.tagKey (s : State) (f : Nat) : Nat := 2 * f + (if (s.frame f).recirc then 1 else 0)

/-- The tag record of frame f passed through g, where the frame is tagged. -/
def State.updTag (s : State) (f : Nat) (g : TagRec → TagRec) : State :=
  if (s.frame f).tag then s.setTagRec (s.tagKey f) (g (s.tagRec (s.tagKey f))) else s

/-- The time now as ns after the port timestamp of a frame. -/
def State.tagNs (s : State) (f : Nat) : Nat := (s.time - (s.frame f).ts) / nsU % 4294967296

/-- Word w of the tag record of frame f stamped with the time now. -/
def State.tagTime (s : State) (f w : Nat) : State :=
  s.updTag f fun r => { r with times := r.times.sd 4294967295 w (s.tagNs f) }

/-- The end of a tagged frame in its lane, with its code (R462). -/
def State.tagEnd (s : State) (f code : Nat) : State := s.updTag f fun r => if r.done then r else { r with ending := code, done := true }

/-- The tag ring of the device (R463). -/
def State.tagRing (s : State) : Ring :=
  { key := 29
    baseLo := Reg.PMU_TAG_BASE_LO
    baseHi := Reg.PMU_TAG_BASE_HI
    wr := Reg.PMU_TAG_WR
    rd := Reg.PMU_TAG_RD
    size := s.rf Reg.PMU_TAG_CFG 4 0
    overwrite := s.rb Reg.PMU_TAG_CFG 30
    depth := 16
    lost := fun x => x.inc Reg.PMU_TAG_DROP }

/-- The copies of frame f that are in a queue or on a line. -/
def State.copiesOf (s : State) (f : Nat) : List Nat :=
  (s.pkt.copies.filter fun p => p.2.live && p.2.fid == f && p.2.kind == .frame).map Prod.fst

/-- The 16 words of a tag record. -/
def State.tagWords (s : State) (f : Nat) (second : Bool) (r : TagRec) : List Word :=
  let x := s.frame f
  timeWords x.ts ++
  [BitVec.ofNat 32 (x.port * 134217728 + r.lane * 33554432 + r.stage * 4194304 + x.verdict * 262144 + (if second then 131072 else 0) +
     r.ending * 16384)] ++
  (List.range 12).map fun i => BitVec.ofNat 32 (r.times.gd 4294967295 (4 + i))

/-- The tag record of a pass of frame f is written once its verdict and the start of its last copy, or its discard, have happened. -/
def State.tagFlush1 (s : State) (f : Nat) (second : Bool) : State :=
  let k := 2 * f + (if second then 1 else 0)
  let r := s.tagRec k
  if (s.frame f).tag && r.done && (s.frame f).verdict != 0 &&
      (s.copiesOf f).all (fun c => (s.copy c).startedAt.isSome) then
    (s.setTagRec k {}).ringPut s.tagRing (recordBytes (s.tagWords f second r))
  else s

/-- Both passes of a tagged frame judged. -/
def State.tagFlush (s : State) (f : Nat) : State := (s.tagFlush1 f false).tagFlush1 f true

/-! ## Capture rings (R165, R166) -/

/-- Capture ring c. -/
def State.capRing (s : State) (c : Nat) : Ring :=
  { key := c
    baseLo := Reg.SWC_CAP_BASE_LO c
    baseHi := Reg.SWC_CAP_BASE_HI c
    wr := Reg.SWC_CAP_WR c
    rd := Reg.SWC_CAP_RD c
    size := s.rf (Reg.SWC_CAP_CFG c) 4 0
    overwrite := s.rb (Reg.SWC_CAP_CFG c) 30
    depth := 32
    lost := fun x => (x.inc (Reg.SWC_CAP_DROP c)).sqc Reg.SWC_STATUS 2 199 }

/-- A capture record (R166) of a frame's bytes: a timestamp, PORT_ID or egress index, direction, verdict, HIT, length. -/
def capRecord (bytes : List Byte) (t who : Nat) (out : Bool) (verdict hit len : Nat) : List Byte :=
  ((List.range 128).map fun i => byteAt bytes i) ++
  recordBytes (timeWords t ++ [BitVec.ofNat 32 (who % 32 * 134217728 + (if out then 67108864 else 0) + verdict % 16 * 4194304 +
    hit % 4 * 1048576 + len % 16384)])

/-- A record put into ring c where it is enabled (R165). -/
def State.capture (s : State) (c : Nat) (rec : List Byte) : State := if s.rb (Reg.SWC_CAP_CFG c) 31 then s.ringPut (s.capRing c) rec else s

/-- The record of a frame whose CAP names a ring, at its V or at its lane exit, whichever is later (R165). -/
def State.captureFrame (s : State) (f : Nat) : State :=
  let x := s.frame f
  if 1 ≤ x.cap && x.cap ≤ 8 then
    s.capture (x.cap - 1) (capRecord x.bytes x.ts x.port false x.verdict x.hit x.bytes.length)
  else s

/-! ## The verdict instant -/

/-- V of a frame whose tail and classification are known (R101): the later of the two and 120 ns. -/
def Frame.vAt (x : Frame) : Option Nat :=
  match x.tailAt, x.clsAt with
  | some a, some b => some (max a b + 120 * nsU)
  | _, _ => none

/-- Whether a frame awaits its verdict and V has come. -/
def State.verdictDue (s : State) (x : Frame) : Bool :=
  x.live && !x.thruOnly && x.verdict == 0 && (match x.vAt with | some t => t ≤ s.up | none => false)

/-! ## The end of a frame -/

/-- Whether a copy of frame f, its own or passed through, is left. -/
def State.hasCopy (s : State) (f : Nat) : Bool := s.pkt.copies.any fun p => p.2.live && p.2.fid == f && p.2.kind != .publication

/-- A frame that is out of its lane, has its verdict (or, passed through alone, its tail) and no copy left leaves the model's store. -/
def State.retire (s : State) (f : Nat) : State :=
  let s1 := s.tagFlush f
  let x := s1.frame f
  if x.live && x.loc == .gone && (x.verdict != 0 || (x.thruOnly && x.tailAt.isSome)) && !s1.hasCopy f then s1.setFrame f {} else s1

/-- A frame that goes without a verdict (a runt, a consumed or removed frame). -/
def State.dropFrame (s : State) (f : Nat) : State := s.setFrame f {}

end Sys2Proof.Machine
end

