-- ==== Sys2Proof/Machine/Aut.lean ====
section
/-!
DEFINITION. Frame authentication (R90-R103, R111-R113): contexts, key stamps, the receive engines, the verdict's code, the replay window, signing,
and the commands of the AUT page.
-/

namespace Sys2Proof.Machine

/-! ## Contexts -/

/-- Fields of a context (R113). -/
def AutCtx.en (c : AutCtx) : Bool := tbit c.w0 31
def AutCtx.transmit (c : AutCtx) : Bool := tbit c.w0 30
def AutCtx.alg (c : AutCtx) : Nat := fld c.w0 29 27
def AutCtx.ctrSrc (c : AutCtx) : Nat := fld c.w0 26 25
def AutCtx.allowProv (c : AutCtx) : Bool := tbit c.w0 24
def AutCtx.win (c : AutCtx) : Nat := fld c.w0 22 16
def AutCtx.smpMod (c : AutCtx) : Nat := fld c.w0 15 0
def AutCtx.owner (c : AutCtx) : Nat := fld c.w10 31 28

/-- The context a frame has (R101): 0 where its AUT_IDX names none, a disabled one or a transmit context. -/
def State.rxCtx (s : State) (idx : Nat) : Nat := if idx != 0 && (s.autCtx idx).en && !(s.autCtx idx).transmit then idx else 0

/-- The number of a stream's context: that of the frame which brought it. A frame or stream without a context counts as ALLOW_PROV 0 (R105). -/
def State.frameAllowProv (s : State) (f : Nat) : Bool := (s.frame f).aut != 0 && (s.autCtx (s.frame f).aut).allowProv

/-! ## Keys (R93-R96) -/

/-- What a key name stands for: no key where its identifier is 0 (R93), else the identifier with what its slot holds. -/
def State.keyOf (s : State) (k : KeyName) : Option (Word × Option (BitVec 256)) :=
  if k.id = 0 then none else some (k.id, s.keySlot k.slot.toNat)

/-- The stamp of a frame classified now (R95, R96): the keys of the current epoch, and those of the previous one while PREV_HOLD runs. -/
def State.keyStamp (s : State) (idx : Nat) : KeyStamp :=
  let c := s.autCtx idx
  let prev := fun (k : KeyName) => if s.aut.prevActive then s.keyOf k else none
  { epoch := s.reg Reg.AUT_EPOCH_CUR, curA := s.keyOf c.keyA, curB := s.keyOf c.keyB, prevA := prev c.prevA, prevB := prev c.prevB }

/-- Whether a named key has an identifier. -/
def hasId (k : Option (Word × Option (BitVec 256))) (i : Word) : Bool := match k with | some p => p.1 == i | none => false

/-- The name that a frame's identifier matches among two: KEY_A before KEY_B (R93). Identifier 0 matches none. -/
def idMatch (a b : Option (Word × Option (BitVec 256))) (i : Word) : Option (Word × Option (BitVec 256)) :=
  if i = 0 then none else if hasId a i then a else if hasId b i then b else none

/-- The key that a frame's identifier names, and whether it is of the previous epoch (R93, R96), which is asked only where no current identifier
matches. A name whose slot is cleared gives no key. -/
def KeyStamp.find (k : KeyStamp) (i : Word) : Option (BitVec 256 × Bool) :=
  match idMatch k.curA k.curB i with
  | some p => p.2.map (·, false)
  | none =>
    match idMatch k.prevA k.prevB i with
    | some p => p.2.map (·, true)
    | none => none

/-! ## The receive engines (R102) -/

/-- The instant at which the work of a frame of len bytes would end in an engine of `rate` bits a nanosecond / 8, in units of 2^-16 ns / rate,
behind the work the engine has accepted. -/
def engineEnd (busy now len rate : Nat) : Nat := max busy (now * rate) + len * nsU

/-- V of a frame as its classification knows it: by its tail where that has come, else by L or the ingress MAXLEN. -/
def State.expectV (s : State) (f : Nat) : Nat :=
  let x := s.frame f
  max (x.tailAt.getD (x.headAt + spanU (s.frameSize f * s.byteTime x.port))) s.up + 120 * nsU

/-- The work of frame f enters the engine of its context's family, or the frame is not accepted (R102). -/
def State.enterEngine (s : State) (f : Nat) : State :=
  let x := s.frame f
  let alg := (s.autCtx x.aut).alg
  if x.aut = 0 then s
  else if 1 ≤ alg && alg ≤ 3 then
    let e := engineEnd s.aut.busyHmac s.up (s.frameSize f) 15
    if s.expectV f * 15 < e then s.updFrame f fun y => { y with overload := true } else { s with aut := { s.aut with busyHmac := e } }
  else if 4 ≤ alg && alg ≤ 5 then
    let e := engineEnd s.aut.busyGmac s.up (s.frameSize f) 50
    if s.expectV f * 50 < e then s.updFrame f fun y => { y with overload := true } else { s with aut := { s.aut with busyGmac := e } }
  else s

/-! ## Replay (R98-R100) -/

/-- The value congruent to r modulo m that lies nearest to h, a tie going to the higher (R98). -/
def nearestCongruent (h r m : Nat) : Nat :=
  if m = 0 then r
  else
    let b := h - h % m + r % m
    let cands := (if m ≤ b then [b - m] else []) ++ [b, b + m]
    cands.foldl (fun best c =>
      if (if c < h then h - c else c - h) ≤ (if best < h then h - best else best - h) then c else best) (cands.headD b)

/-- The counter value of a frame in a context (R98), none where the context makes no replay check. -/
def AutCtx.counter (c : AutCtx) (p : Parse) : Option Nat :=
  match c.ctrSrc with
  | 0 => none
  | 1 => some p.spdu.toNat
  | 2 => some (p.stNum * 4294967296 + p.sqNum)
  | _ => some (match c.high with | some h => nearestCongruent h p.smpCnt c.smpMod | none => p.smpCnt)

/-- The replay check (R99). -/
def AutCtx.fresh (c : AutCtx) (v : Nat) (dup : Bool) : Bool :=
  match c.high with
  | none => true
  | some h => h < v || (h - v < c.win && (!tbit c.window (h - v) || dup))

/-- H and the window after a passing frame (R99, R100). -/
def AutCtx.accept (c : AutCtx) (v : Nat) : AutCtx :=
  match c.high with
  | none => { c with high := some v, window := 1 }
  | some h =>
    if h < v then { c with high := some v, window := BitVec.ofNat 64 (if v - h < 64 then c.window.toNat * 2 ^ (v - h) + 1 else 1) }
    else if h - v < 64 then { c with window := putBit c.window (h - v) true }
    else c

/-! ## The verdict (R101) -/

/-- AUTH_REQ of a frame's result (R79). -/
def Frame.needsTag (x : Frame) : Bool := tbit (x.resW 0) 10 && x.hit != 0

/-- The octets of the tag of an algorithm (R90): 80, 128, 256, 64 and 128 bits for ALG 1 to 5. -/
def tagLen (alg : Nat) : Nat :=
  match alg with
  | 1 => 10 | 2 => 16 | 3 => 32 | 4 => 8 | _ => 16

/-- The tag of bytes under a key: what the algorithm gives, truncated to the length that ALG has. -/
def tagFor (alg : Nat) (key : BitVec 256) (iv b : List Byte) : List Byte :=
  (Config.frameTag alg key iv b ++ List.replicate (tagLen alg) 0).take (tagLen alg)

/-- The security fields of a frame (R91): those of the extension that its header declares, or of its 90-5 session header. -/
def Frame.secExt (x : Frame) : Option SecExt := if x.par.extPresent || 3 ≤ x.par.kind then x.ext else none

/-- The outcome of the tag of frame x in context c: 0 where it verifies with a current key, 1 with a previous one, else the failing code. -/
def tagOutcome (c : AutCtx) (x : Frame) (e : SecExt) : Nat :=
  if e.alg.toNat != c.alg then 11
  else
    match x.keys.find e.keyId with
    | none => 12
    | some (k, prev) => if tagFor c.alg k e.iv x.bytes = e.tag then (if prev then 1 else 0) else 13

/-- The verdict of frame f (R101): the lowest failing code, or the passing one. -/
def State.verdictCode (s : State) (f : Nat) : Nat :=
  let x := s.frame f
  let c := s.autCtx x.aut
  if x.fcsBad then 8
  else if x.lenBad then 9
  else if x.par.reason != 0 then 1
  else if x.aut = 0 then (if x.needsTag then 12 else 1)
  else
    let stale := match c.counter x.par with | some v => !c.fresh v x.dup | none => false
    match x.secExt with
    | none => if x.needsTag then 10 else if stale then 14 else if x.overload then 15 else 2
    | some e =>
      let t := tagOutcome c x e
      if 11 ≤ t then t else if stale then 14 else if x.overload then 15 else if t = 1 then 3 else 1

/-- The context of frame f after its verdict: its counters, and H with the window where the verdict is PASS or PASS_PREV_KEY (R99). -/
def State.bookCtx (s : State) (f code : Nat) : State :=
  let x := s.frame f
  if x.aut = 0 then s
  else
    let c := s.autCtx x.aut
    let c1 := if verdictPass code then { c with passCnt := c.passCnt + 1 } else { c with failCnt := c.failCnt + 1, lastFail := code }
    s.setAutCtx x.aut (
      if code = 1 || code = 3 then (match c.counter x.par with | some v => c1.accept v | none => c1) else c1)

/-- Whether a frame that failed KEY_UNKNOWN names a key of the previous epoch, and no current one, after PREV_HOLD has expired (R96, EV148). -/
def State.prevKeyGone (s : State) (f : Nat) : Bool :=
  let x := s.frame f
  let c := s.autCtx x.aut
  match x.secExt with
  | some e =>
    x.aut != 0 && e.keyId != 0 && (c.prevA.id == e.keyId || c.prevB.id == e.keyId) &&
      (idMatch x.keys.curA x.keys.curB e.keyId).isNone && (idMatch x.keys.prevA x.keys.prevB e.keyId).isNone && !s.aut.prevActive
  | none => false

/-- The counters and events of a verdict (R101, R113, R114). -/
def State.bookVerdict (s : State) (f code : Nat) : State :=
  match code with
  | 1 => s.inc Reg.AUT_PASS
  | 2 => s.inc Reg.AUT_NOTAG_PASS
  | 3 => (s.inc Reg.AUT_PREV_KEY).sqc Reg.AUT_STATUS 7 147
  | 10 => (s.inc (Reg.AUT_FAIL 10)).sqc Reg.AUT_STATUS 3 143
  | 11 => (s.inc (Reg.AUT_FAIL 11)).sqc Reg.AUT_STATUS 0 140
  | 12 =>
    let s1 := (s.inc (Reg.AUT_FAIL 12)).sqc Reg.AUT_STATUS 0 140
    if s.prevKeyGone f then s1.sqc Reg.AUT_STATUS 8 148 else s1
  | 13 => (s.inc (Reg.AUT_FAIL 13)).sqc Reg.AUT_STATUS 0 140
  | 14 => (s.inc (Reg.AUT_FAIL 14)).sqc Reg.AUT_STATUS 1 141
  | 15 => (s.inc (Reg.AUT_FAIL 15)).sqc Reg.AUT_STATUS 2 142
  | k => s.inc (Reg.AUT_FAIL k)

/-! ## Signing (R97, R111, R112) -/

/-- Bytes of the extension of an algorithm (R90, R111): its identifier, the key identifier, any initialisation vector, the tag. -/
def extBytes (alg : Nat) : Nat :=
  match alg with
  | 1 => 15 | 2 => 21 | 3 => 37 | 4 => 25 | 5 => 33 | _ => 0

/-- The key a transmit context signs with now, with its identifier (R111): none where KEY_A holds no key (R97), and none once every value of the
64-bit transmit counter has been used, since no value is reused. -/
def State.txKey (s : State) (i : Nat) : Option (Word × BitVec 256) :=
  let c := s.autCtx i
  match s.keyOf c.keyA with
  | some (id, some k) => if c.txCtr < 18446744073709551616 then some (id, k) else none
  | _ => none

/-- What signing a publication of transmit context i comes to: none without a key (R97); the signed bytes, the delay in units of `up`, and the state
with the transmit counter advanced. Routed GOOSE takes the 90-5 signature, tag 0x85 and the length of the value before it (PRESUMED, log 156). -/
def State.signPub (s : State) (i : Nat) (routed : Bool) (b : List Byte) : Option (List Byte × Nat) × State :=
  let c := s.autCtx i
  match s.txKey i with
  | some (id, k) =>
    let iv := leBytes 4 c.salt.toNat ++ leBytes 8 c.txCtr
    let tag := tagFor c.alg k (if 4 ≤ c.alg then iv else []) b
    let ext := [BitVec.ofNat 8 c.alg] ++ beBytes 4 id.toNat ++ (if 4 ≤ c.alg then iv else []) ++ tag
    let sig := if routed then [0x85, BitVec.ofNat 8 tag.length] ++ tag else ext
    let s1 := (s.setAutCtx i { c with txCtr := c.txCtr + 1 }).inc Reg.AUT_TX_SIGNED
    let s2 := if c.txCtr ≤ 9223372036854775808 && 9223372036854775808 < c.txCtr + 1 then s1.sqc Reg.AUT_STATUS 9 149 else s1
    (some (b ++ sig, (if 4 ≤ c.alg then 16 else 96) * nsU), s2)
  | none => (none, (s.inc Reg.AUT_TX_NOKEY).sqc Reg.AUT_STATUS 10 150)

/-! ## Commands -/

/-- PREV_HOLD_EXPIRE (R96). -/
def execPrevHoldExpire (s : State) : Host.Outcome State Fault Refusal :=
  done s (
    if s.aut.prevActive && s.aut.prevUntil ≤ s.up then
      { s.setRb Reg.AUT_EPOCH_STATUS 1 false with aut := { s.aut with prevActive := false } }
    else s)

/-- RESET_WINDOW on the selected context (R100). -/
def State.resetWindow (s : State) (who : Accessor) : State :=
  let i := s.rf Reg.AUT_CTX_SEL 11 0
  let c := s.autCtx i
  if s.rxCtx i = 0 then s.setReg Reg.AUT_CTX_CMD_STATUS 6
  else if !s.adminOrOwner who c.owner then (s.setReg Reg.AUT_CTX_CMD_STATUS 5).sqc Reg.AUT_STATUS 11 151
  else (s.setAutCtx i { c with high := none, window := 0 }).setReg Reg.AUT_CTX_CMD_STATUS 0

/-- RESET_WINDOW (R100): a write of AUT_CTX_CMD with bit 0 set. -/
def execResetWindow (who : Accessor) (_val : Word) (s : State) : Host.Outcome State Fault Refusal :=
  done s (s.writeCmd who Reg.AUT_CTX_CMD fun x => x.resetWindow who)

/-- The snapshot of context i (R113). -/
def State.ctxWords (s : State) (i : Nat) : List Word :=
  let c := s.autCtx i
  let h := if c.transmit then c.txCtr else c.high.getD 0
  [c.w0, BitVec.ofNat 32 (c.keyA.slot.toNat * 65536 + c.keyB.slot.toNat), c.keyA.id, c.keyB.id] ++ natWords 2 h ++ natWords 2 c.window.toNat ++
  [c.passCnt, c.failCnt, putFld c.w10 27 24 c.lastFail, c.salt]

/-- AUT_CTX_SELECT (R113). -/
def execAutCtxSelect (who : Accessor) (val : Word) (s : State) : Host.Outcome State Fault Refusal :=
  done s (s.writeCmd who Reg.AUT_CTX_SEL fun x =>
    each (List.range 12) (fun y i => y.setReg (Reg.AUT_CTX_DATA i) (wordAt (x.ctxWords (fld val 11 0)) i))
      (x.setReg Reg.AUT_CTX_SEL (BitVec.ofNat 32 (fld val 11 0))))

end Sys2Proof.Machine
end

