-- ==== Sys2Proof/Machine/Ber.lean ====
section
/-!
DEFINITION. The basic encoding rules as the parser and the SPE use them (R70, R71, R116): one tag with its length, and the ASDU of an SV frame
with its fields in the order of IEC 61850-9-2.
-/

namespace Sys2Proof.Machine

/-- What a walk over bytes finds: a value with the offset reached, bytes still missing up to an offset, or a MALFORMED sub-code. -/
inductive Walk (α : Type) where
  | ok (v : α) (at_ : Nat)
  | more (upTo : Nat)
  | bad (sub : Nat)
  deriving DecidableEq, Repr

/-- The walk goes on with what it has found. -/
def Walk.bind {α β : Type} (w : Walk α) (f : α → Nat → Walk β) : Walk β :=
  match w with
  | .ok v n => f v n
  | .more n => .more n
  | .bad k => .bad k

/-- A TLV: its tag, where its contents begin, and where they end. -/
structure Tlv where
  tag : Nat
  start : Nat
  stop : Nat
  deriving DecidableEq, Repr

/-- Bytes up to offset n are needed before the walk goes on. -/
def needTo {α : Type} (b : List Byte) (n : Nat) (w : Walk α) : Walk α := if b.length < n then .more n else w

/-- The TLV at an offset, inside an enclosing one that ends at `stop`: SUB 7 for an indefinite length or one of more than 4 octets, SUB 8 where
it extends beyond what encloses it (R71). The walk goes on at its contents. -/
def readTlv (b : List Byte) (i stop : Nat) : Walk Tlv :=
  if stop < i + 2 then .bad 8
  else needTo b (i + 2) (
    let n := (byteAt b (i + 1)).toNat
    if n < 128 then
      (if stop < i + 2 + n then .bad 8 else .ok { tag := (byteAt b i).toNat, start := i + 2, stop := i + 2 + n } (i + 2))
    else if n = 128 || 132 < n then .bad 7
    else
      let k := n - 128
      if stop < i + 2 + k then .bad 8
      else needTo b (i + 2 + k) (
        let m := beAt b (i + 2) k
        if stop < i + 2 + k + m then .bad 8
        else .ok { tag := (byteAt b i).toNat, start := i + 2 + k, stop := i + 2 + k + m } (i + 2 + k)))

/-- The TLV at an offset, whose tag must be `tag`: SUB 9 otherwise. -/
def readTag (b : List Byte) (i stop tag : Nat) : Walk Tlv :=
  (readTlv b i stop).bind fun t n => if t.tag = tag then .ok t n else .bad 9

/-- A TLV with a given tag whose contents the walk examines and passes. -/
def passTag (b : List Byte) (i stop tag : Nat) : Walk Tlv :=
  (readTag b i stop tag).bind fun t _ => needTo b t.stop (.ok t t.stop)

/-- A TLV with a given tag where one stands, and whether it does. Nothing stands past the end of what encloses it. -/
def optTag (b : List Byte) (i stop tag : Nat) : Walk (Option Tlv) :=
  if stop ≤ i then .ok none i
  else needTo b (i + 1) (
    if (byteAt b i).toNat = tag then (passTag b i stop tag).bind fun t n => .ok (some t) n else .ok none i)

/-- The unsigned value of a TLV's contents. -/
def tlvNat (b : List Byte) (t : Tlv) : Nat := beAt b t.start (t.stop - t.start)

/-- The contents of a TLV. -/
def tlvBytes (b : List Byte) (t : Tlv) : List Byte := (b.drop t.start).take (t.stop - t.start)

/-- The fields of one ASDU (IEC 61850-9-2): name, smpCnt, confRev, smpSynch, smpRate where it stands, its seqData, and whether datSet,
refrTm, smpRate or smpMod stands in it (R74): the walk ends at the contents of seqData, and an ASDU that goes on after them holds smpMod (PRESUMED,
log 36). `next` is where the ASDU ends. -/
structure Asdu where
  name : List Byte
  smpCnt : Nat
  confRev : Nat
  smpSynch : Nat
  smpRate : Option Nat
  data : Nat
  dataLen : Nat
  opts : Bool
  next : Nat
  deriving DecidableEq, Repr

/-- The ASDU at an offset, walked up to the contents of its seqData (R70): SUB 12 for a name above 129 octets. -/
def readAsdu (b : List Byte) (i stop : Nat) : Walk Asdu :=
  (readTag b i stop 0x30).bind fun a n0 =>
  (readTag b n0 a.stop 0x80).bind fun nm _ =>
  if 129 < nm.stop - nm.start then .bad 12 else needTo b nm.stop (
  (optTag b nm.stop a.stop 0x81).bind fun ds n1 =>
  (passTag b n1 a.stop 0x82).bind fun sc n2 =>
  (passTag b n2 a.stop 0x83).bind fun cr n3 =>
  (optTag b n3 a.stop 0x84).bind fun rt n4 =>
  (passTag b n4 a.stop 0x85).bind fun ss n5 =>
  (optTag b n5 a.stop 0x86).bind fun sr n6 =>
  (readTag b n6 a.stop 0x87).bind fun sd n7 =>
  .ok { name := tlvBytes b nm, smpCnt := tlvNat b sc, confRev := tlvNat b cr, smpSynch := tlvNat b ss, smpRate := sr.map (tlvNat b)
        data := sd.start, dataLen := sd.stop - sd.start
        opts := ds.isSome || rt.isSome || sr.isSome || decide (sd.stop < a.stop), next := a.stop } n7)

end Sys2Proof.Machine
end

