-- ==== Sys2Proof/Machine/Float.lean ====
section
/-!
DEFINITION. The number format of the phasor coprocessor (R244, R245): binary32 values taken exactly, added and multiplied exactly, and rounded
once to nearest with ties to even; subnormals are zero. Sines, cosines and arguments are taken to far more bits than a result has, for the
operations whose results the spec only bounds (CROT, CMAG, CARG, CFSQ).
-/

namespace Sys2Proof.Machine

/-- An exact value: not a number, an infinity, or plus or minus n × 2^e. -/
inductive FX where
  | nan
  | inf (neg : Bool)
  | fin (neg : Bool) (n : Nat) (e : Int)
  deriving DecidableEq, Repr

/-- The canonical quiet NaN (R245). -/
def qNaN : Word := 0x7FC00000

/-- The exact value of a binary32 operand; a subnormal is read as zero of the same sign (R245). -/
def fxOf (w : Word) : FX :=
  let neg := tbit w 31
  match fld w 30 23 with
  | 255 => if fld w 22 0 = 0 then .inf neg else .nan
  | 0 => .fin neg 0 0
  | x => .fin neg (8388608 + fld w 22 0) ((x : Int) - 150)

/-- The exact value of an integer; zero is +0. -/
def fxInt (z : Int) : FX := .fin (decide (z < 0)) z.natAbs 0

/-- The negated value. -/
def FX.neg : FX → FX
  | .nan => .nan
  | .inf s => .inf (!s)
  | .fin s n e => .fin (!s) n e

/-- The exact product; 0 × ∞ is invalid (R245). -/
def FX.mul : FX → FX → FX
  | .nan, _ => .nan
  | _, .nan => .nan
  | .inf a, .inf b => .inf (a != b)
  | .inf a, .fin b n _ => if n = 0 then .nan else .inf (a != b)
  | .fin a n _, .inf b => if n = 0 then .nan else .inf (a != b)
  | .fin a n e, .fin b m f => .fin (a != b) (n * m) (e + f)

/-- The signed significand at the exponent f, at or below its own. -/
def sigAt (neg : Bool) (n : Nat) (e f : Int) : Int :=
  let v : Nat := n * 2 ^ (e - f).toNat
  if neg then -(v : Int) else (v : Int)

/-- The exact sum; ∞ - ∞ is invalid (R245). A zero sum has the sign its terms share, else plus. -/
def FX.add : FX → FX → FX
  | .nan, _ => .nan
  | _, .nan => .nan
  | .inf a, .inf b => if a = b then .inf a else .nan
  | .inf a, .fin _ _ _ => .inf a
  | .fin _ _ _, .inf b => .inf b
  | .fin a n e, .fin b m f =>
    if n = 0 ∧ m = 0 then .fin (a && b) 0 0
    else
      let g := min e f
      let z := sigAt a n e g + sigAt b m f g
      .fin (decide (z < 0)) z.natAbs g

/-- The exact difference. -/
def FX.sub (a b : FX) : FX := a.add b.neg

/-- The value scaled by a power of two. -/
def FX.scale (x : FX) (m : Int) : FX :=
  match x with
  | .fin s n e => .fin s n (e + m)
  | y => y

/-- A rounded component: its bits, whether it overflowed, whether it is invalid (R245). -/
structure Rnd where
  w : Word
  ovf : Bool := false
  inv : Bool := false

/-- The binary32 code of a sign, an exponent of the last place and a 24-bit significand, with overflow and flush of subnormals (R245). -/
def packF (neg : Bool) (f : Nat) (q : Int) : Rnd :=
  let s := if neg then 2147483648 else 0
  if q + 23 > 127 then { w := BitVec.ofNat 32 (s + 0x7F800000), ovf := true }
  else if q + 23 < -126 then { w := BitVec.ofNat 32 s }
  else { w := BitVec.ofNat 32 (s + (q + 150).toNat * 8388608 + (f - 8388608)) }

/-- a / b rounded to nearest with ties to even. -/
def roundDiv (a b : Nat) : Nat :=
  if 2 * (a % b) > b ∨ (2 * (a % b) = b ∧ a / b % 2 = 1) then a / b + 1 else a / b

/-- n / d × 2^e, for n > 0 and d > 0, rounded to 24 significant bits: the significand and the exponent of its last place. -/
def roundSig (n d : Nat) (e : Int) : Nat × Int :=
  let q0 : Int := (Nat.log2 n : Int) - (Nat.log2 d : Int) + e - 24
  let at_ := fun (q : Int) => (n * 2 ^ (e - q).toNat, d * 2 ^ (q - e).toNat)
  let q := if (at_ q0).1 < 16777216 * (at_ q0).2 then q0 else q0 + 1
  let f := roundDiv (at_ q).1 (at_ q).2
  if f = 16777216 then (8388608, q + 1) else (f, q)

/-- x / d rounded once (R245). -/
def FX.roundBy (x : FX) (d : Nat) : Rnd :=
  match x with
  | .nan => { w := qNaN, inv := true }
  | .inf s => { w := if s then 0xFF800000 else 0x7F800000 }
  | .fin s n e =>
    if n = 0 then { w := if s then 0x80000000 else 0 }
    else packF s (roundSig n d e).1 (roundSig n d e).2

/-- x rounded once. -/
def FX.round (x : FX) : Rnd := x.roundBy 1

/-- x rounded to the nearest integer, ties to even; none for what is not finite. -/
def FX.toInt (x : FX) : Option Int :=
  match x with
  | .fin s n e =>
    let v := if 0 ≤ e then n * 2 ^ e.toNat else roundDiv n (2 ^ (-e).toNat)
    some (if s then -(v : Int) else (v : Int))
  | _ => none

/-- x compared with y: none where one is a NaN, else negative, zero or positive. -/
def FX.cmp : FX → FX → Option Int
  | .nan, _ => none
  | _, .nan => none
  | .inf a, .inf b => some (if a = b then 0 else if a then -1 else 1)
  | .inf a, .fin _ _ _ => some (if a then -1 else 1)
  | .fin _ _ _, .inf b => some (if b then 1 else -1)
  | .fin a n e, .fin b m f => some (sigAt a n e (min e f) - sigAt b m f (min e f))

/-- The condition c of a compare (R251): 0 LT, 1 LE, 2 EQ, 3 GE, 4 GT, 5 UNORD. -/
def cmpHolds (c : Nat) (r : Option Int) : Bool :=
  match r with
  | none => c == 5
  | some z =>
    match c with
    | 0 => z < 0 | 1 => z ≤ 0 | 2 => z == 0 | 3 => 0 ≤ z | 4 => 0 < z | _ => false

/-! ## Irrational operands -/

/-- 2^120: the unit of the fixed-point values below. -/
def fixOne : Nat := 2 ^ 120

/-- π × 2^120, rounded down. -/
def fixPi : Nat := 4175892906503776358826876457663557747

/-- √3 / 2 × 2^120, rounded down. -/
def fixHalfRoot3 : Nat := 1151145211771211880406591623772527645

/-- Cosine and sine of an angle in the first quadrant, in units of 2^-120, by 30 terms of their series. -/
def fixCosSin (theta : Nat) : Int × Int :=
  let r := (List.range 30).foldl (fun (a : Int × Int × Int × Int) i =>
      let t1 := a.1 * theta / ((fixOne : Int) * ((i : Int) + 1))
      match i % 4 with
      | 0 => (t1, a.2.1, a.2.2.1 + t1, 0)
      | 1 => (t1, a.2.1 - t1, a.2.2.1, 0)
      | 2 => (t1, a.2.1, a.2.2.1 - t1, 0)
      | _ => (t1, a.2.1 + t1, a.2.2.1, 0)) ((fixOne : Int), (fixOne : Int), (0 : Int), (0 : Int))
  (r.2.1, r.2.2.1)

/-- The exact value of a fixed-point number. -/
def fxFix (z : Int) : FX := if z = 0 then .fin false 0 0 else .fin (decide (z < 0)) z.natAbs (-120)

/-- Cosine and sine of a turn fraction of 32 bits (R251, CROT), exact at the quarter turns. -/
def turnCosSin (phi : Nat) : FX × FX :=
  let q := phi / 1073741824 % 4
  let r := phi % 1073741824
  let cs := if r = 0 then ((fixOne : Int), (0 : Int)) else fixCosSin (fixPi * r / 2147483648)
  match q with
  | 0 => (fxFix cs.1, fxFix cs.2)
  | 1 => (fxFix (-cs.2), fxFix cs.1)
  | 2 => (fxFix (-cs.1), fxFix (-cs.2))
  | _ => (fxFix cs.2, fxFix (-cs.1))

/-- atan(2^-i) in units of 2^-64 turn, for i = 0 to 47. -/
def atanTable : List Int :=
  [2305843009213693952, 1361218612134873190, 719230530580881038, 365092647525521947, 183254791493294829, 91716730292036216,
   45869556482713130, 22936177926750895, 11468263948075831, 5734153847876408, 2867079658191483, 1433540170878135, 716770128161890,
   358385069421298, 179192535378193, 89596267772540, 44798133896700, 22399066949654, 11199533474990, 5599766737515, 2799883368760,
   1399941684380, 699970842190, 349985421095, 174992710548, 87496355274, 43748177637, 21874088818, 10937044409, 5468522205, 2734261102,
   1367130551, 683565276, 341782638, 170891319, 85445659, 42722830, 21361415, 10680707, 5340354, 2670177, 1335088, 667544, 333772, 166886,
   83443, 41722, 20861]

/-- The angle of (x, y), x > 0 or y > 0 and both not negative, in units of 2^-64 turn, by rotations of 2^-i. -/
def atanQuad (x y : Nat) : Int :=
  if y = 0 then 0
  else if x = 0 then 4611686018427387904
  else if x = y then 2305843009213693952
  else
  let k := 200 - Nat.log2 (max x y)
  ((atanTable.zipIdx).foldl (fun (a : Int × Int × Int) p =>
    let dx := a.1 / (2 ^ p.2 : Nat)
    let dy := a.2.1 / (2 ^ p.2 : Nat)
    if 0 ≤ a.2.1 then (a.1 + dy, a.2.1 - dx, a.2.2 + p.1) else (a.1 - dy, a.2.1 + dx, a.2.2 - p.1))
    ((x * 2 ^ k : Nat), (y * 2 ^ k : Nat), (0 : Int))).2.2

/-- The angle of two finite components that are not both zero, in units of 2^-64 turn, from 0 up. -/
def angle64 (re im : FX) : Int :=
  match re, im with
  | .fin a n e, .fin b m f =>
    let g := min e f
    let t := atanQuad (n * 2 ^ (e - g).toNat) (m * 2 ^ (f - g).toNat)
    (match a && n != 0, b && m != 0 with
     | false, false => t
     | true, false => 9223372036854775808 - t
     | true, true => 9223372036854775808 + t
     | false, true => 18446744073709551616 - t)
  | _, _ => 0

/-- cos(2πn/128) for n = 0 to 32, rounded to binary32: the table of CDFT (R253). -/
def cosTable : List Nat :=
  [0x3F800000, 0x3F7FB10F, 0x3F7EC46D, 0x3F7D3AAC, 0x3F7B14BE, 0x3F7853F8, 0x3F74FA0B, 0x3F710908, 0x3F6C835E, 0x3F676BD8, 0x3F61C598,
   0x3F5B941A, 0x3F54DB31, 0x3F4D9F02, 0x3F45E403, 0x3F3DAEF9, 0x3F3504F3, 0x3F2BEB4A, 0x3F226799, 0x3F187FC0, 0x3F0E39DA, 0x3F039C3D,
   0x3EF15AEA, 0x3EDAE880, 0x3EC3EF15, 0x3EAC7CD4, 0x3E94A031, 0x3E78CFCC, 0x3E47C5C2, 0x3E164083, 0x3DC8BD36, 0x3D48FB30, 0x00000000]

/-- cos(2πn/128) rounded to binary32. -/
def cos128 (n : Nat) : FX :=
  let t := fun (i : Nat) => fxOf (BitVec.ofNat 32 (cosTable.getD i 0))
  let neg := fun (x : FX) => match x with | .fin s m e => if m = 0 then FX.fin false 0 0 else FX.fin (!s) m e | y => y
  match n % 128 / 32 with
  | 0 => t (n % 32)
  | 1 => neg (t (32 - n % 32))
  | 2 => neg (t (n % 32))
  | _ => t (32 - n % 32)

/-- sin(2πn/128) rounded to binary32. -/
def sin128 (n : Nat) : FX := cos128 (n + 96)

end Sys2Proof.Machine
end

