-- ==== Sys2Proof/Machine/Cpx.lean ====
section
/-!
DEFINITION. The phasor coprocessor (R244-R260): what each command computes, its start and its result write, and the C-format
instructions that issue commands.
-/

namespace Sys2Proof.Machine

/-! ## Values -/

/-- What a command computes: the components of its destinations in order, the invalid operations and the components that overflowed. -/
structure CpxVal where
  ws : List Word
  inv : Bool := false
  ovf : Nat := 0

/-- Rounded components as the value of a command. -/
def cpxOf (rs : List Rnd) : CpxVal := { ws := rs.map (·.w), inv := rs.any (·.inv), ovf := (rs.filter (·.ovf)).length }

/-- A complex operand. -/
abbrev CX := FX × FX

/-- The value of a C register. -/
def cxOf (r : CReg) : CX := (fxOf r.re, fxOf r.im)

/-- The exact product of two complex values. -/
def CX.mul (a b : CX) : CX := ((a.1.mul b.1).sub (a.2.mul b.2), (a.1.mul b.2).add (a.2.mul b.1))

/-- The conjugate. -/
def CX.conj (a : CX) : CX := (a.1, a.2.neg)

/-- The exact sum and difference. -/
def CX.add (a b : CX) : CX := (a.1.add b.1, a.2.add b.2)
def CX.sub (a b : CX) : CX := (a.1.sub b.1, a.2.sub b.2)

/-- The negated value. -/
def CX.neg (a : CX) : CX := (a.1.neg, a.2.neg)

/-- Both components rounded once. -/
def CX.round (a : CX) : CpxVal := cpxOf [a.1.round, a.2.round]

/-- The exact squared magnitude (R251). -/
def CX.mag2 (a : CX) : FX :=
  match a with
  | (.nan, _) => .nan
  | (_, .nan) => .nan
  | (x, y) => (x.mul x).add (y.mul y)

/-- Whether a component is a NaN or an infinity. -/
def FX.isNan : FX → Bool
  | .nan => true
  | _ => false
def FX.isInf : FX → Bool
  | .inf _ => true
  | _ => false
def FX.isZero : FX → Bool
  | .fin _ n _ => n == 0
  | _ => false

/-- An operand with its subnormal components read as zero (R245). -/
def flushW (w : Word) : Word := if fld w 30 23 = 0 then (if tbit w 31 then 0x80000000 else 0) else w

/-- The NaN of an invalid operation in both components. -/
def cpxNaN (n : Nat) : CpxVal := { ws := List.replicate n qNaN, inv := true }

/-- CDIV (R245, R251): the exact quotient of each component, rounded once. -/
def cdivVal (a b : CX) : CpxVal :=
  if [a.1, a.2, b.1, b.2].any (fun x => x.isNan || x.isInf) || (b.1.isZero && b.2.isZero) then cpxNaN 2
  else
    let n := CX.mul a b.conj
    match b.mag2 with
    | .fin _ d e => cpxOf [(n.1.scale (-e)).roundBy d, (n.2.scale (-e)).roundBy d]
    | _ => cpxNaN 2

/-- The unit in the last place of a magnitude: the exponent of the last place of its rounding. -/
def ulpExp (x : FX) : Int :=
  match x with
  | .fin _ n e => if n = 0 then -149 else max (roundSig n 1 e).2 (-149)
  | _ => -149

/-- A component that the spec bounds within 2 ulp of a value (R251, R254): any representable one within the bound, as the free number z in
0 .. 2^26 selects it; `q` is the exponent of that ulp. -/
def within2 (x : FX) (d : Nat) (q : Int) (z : Nat) : Rnd :=
  match x with
  | .fin s n e =>
    let off : FX := fxInt ((z : Int) - 33554432)
    let y := ((FX.fin s n e).add ((off.scale (q - 24)).mul (fxInt d))).roundBy d
    let diff := ((fxOf y.w).mul (fxInt d)).sub (.fin s n e)
    let bound := ((FX.fin false 2 q)).mul (fxInt d)
    (match diff.cmp bound, diff.neg.cmp bound with
     | some a, some b => if a ≤ 0 ∧ b ≤ 0 ∧ !y.ovf then y else (FX.fin s n e).roundBy d
     | _, _ => (FX.fin s n e).roundBy d)
  | v => v.roundBy d

/-- The square root of n × 2^e rounded down to 24 bits: significand, exponent of its last place, and whether it is exact. -/
def rootSig (n : Nat) (e : Int) : Nat × Int × Bool :=
  let n2 := if e % 2 = 0 then n else 2 * n
  let e2 := if e % 2 = 0 then e else e - 1
  let l := Nat.log2 n2
  let sh : Int := (48 : Int) - (l : Int)
  let sh := if sh % 2 = 0 then sh else sh - 1
  let v := if 0 ≤ sh then n2 * 2 ^ sh.toNat else n2 / 2 ^ (-sh).toNat
  let r := natSqrt 25 v
  let f := if 16777216 ≤ r then r / 2 else r
  let k : Int := if 16777216 ≤ r then 1 else 0
  let q := (e2 - sh) / 2 + k
  (f, q, ((FX.fin false (f * f) (2 * q)).cmp (.fin false n e)) == some 0)

/-- CMAG (R251): within 1 ulp of the magnitude; the free number z selects. -/
def cmagVal (a : CX) (z : Nat) : CpxVal :=
  match a.mag2 with
  | .nan => { ws := [qNaN, 0], inv := true }
  | .inf _ => { ws := [0x7F800000, 0] }
  | .fin _ n e =>
    if n = 0 then { ws := [0, 0] }
    else
      let r := rootSig n e
      let f := if r.2.2 then r.1 + z % 3 - 1 else r.1 + z % 2
      let p := if f < 8388608 then packF false (2 * f) (r.2.1 - 1) else if f = 16777216 then packF false 8388608 (r.2.1 + 1) else packF false f r.2.1
      { ws := [p.w, 0], ovf := if p.ovf then 1 else 0 }

/-- CARG (R251): the argument in units of 2^-32 turn, within 64 units; the free number z in 0 .. 127 selects. -/
def cargVal (a : CX) (z : Nat) : CpxVal :=
  if a.1.isNan || a.2.isNan then { ws := [0], inv := true }
  else if a.1.isZero && a.2.isZero then { ws := [0] }
  else
    let x : FX := if a.1.isInf then .fin (a.1.cmp (fxInt 0) == some (-1)) 1 0 else if a.2.isInf then fxInt 0 else a.1
    let y : FX := if a.2.isInf then .fin (a.2.cmp (fxInt 0) == some (-1)) 1 0 else if a.1.isInf then fxInt 0 else a.2
    let t := angle64 x y
    { ws := [BitVec.ofNat 32 (usg 32 (t / 4294967296 + (z : Int) - 63))] }

/-- CROT (R251): each component within 2 ulp of the magnitude of the operand. -/
def crotVal (a : CX) (phi z1 z2 : Nat) : CpxVal :=
  let w := turnCosSin phi
  let v := CX.mul a w
  match a.mag2 with
  | .fin _ n e =>
    if n = 0 then cpxOf [v.1.round, v.2.round]
    else let q := max (rootSig n e).2.1 (-149); cpxOf [within2 v.1 1 q z1, within2 v.2 1 q z2]
  | _ => v.round

/-- CFSQ (R254): the sequence components, each within 2 ulp of the largest input magnitude. -/
def cfsqVal (a b c : CX) (zs : List Nat) : CpxVal :=
  let h : FX := .fin true 1 (-1)
  let r := fxFix (fixHalfRoot3 : Int)
  let w : CX := (h, r)
  let w2 : CX := (h, r.neg)
  let outs : List CX :=
    [(a.add b).add c, (a.add (CX.mul w b)).add (CX.mul w2 c), (a.add (CX.mul w2 b)).add (CX.mul w c)]
  let big := [a, b, c].foldl (fun m x => match x.mag2.cmp m with | some d => if 0 < d then x.mag2 else m | none => m) (fxInt 0)
  let q : Int := match big with | .fin _ n e => if n = 0 then -149 else max (rootSig n e).2.1 (-149) | _ => -149
  let comps := outs.flatMap fun x => [x.1, x.2]
  cpxOf (comps.zipIdx.map fun p => within2 p.1 3 q (zs.getD p.2 0))

/-- CDFT (R253). -/
def cdftVal (d : CX) (are bre : FX) (g : Word) (h : Nat) : CpxVal :=
  if fld g 9 8 = 3 ∨ fld g 31 10 ≠ 0 ∨ tbit g 7 then cpxNaN 2
  else
    let gg := 32 * 2 ^ fld g 9 8
    let n := h * (fld g 6 0 % gg) % gg * (128 / gg)
    let diff := are.sub bre
    let w : CX := (cos128 n, match sin128 n with | .fin s m e => if m = 0 then FX.fin false 0 0 else .fin (!s) m e | x => x)
    (d.1.add (diff.mul w.1), d.2.add (diff.mul w.2)) |> CX.round

/-- CFIX (R251): rounded to an integer and saturated. -/
def cfixVal (x : FX) (m : Nat) : CpxVal :=
  match x with
  | .nan => { ws := [0], inv := true }
  | .inf s => { ws := [if s then 0x80000000 else 0x7FFFFFFF] }
  | v => { ws := [wordOfInt (satS 32 ((v.scale m).toInt.getD 0))] }

/-- CMIN and CMAX (R251): a NaN operand is never selected unless both are NaN; Ca on a tie. -/
def cselVal (a b : CReg) (larger : Bool) : CpxVal :=
  let x := (cxOf a).mag2
  let y := (cxOf b).mag2
  let take := fun (r : CReg) => [flushW r.re, flushW r.im]
  match x.isNan, y.isNan with
  | true, true => cpxNaN 2
  | true, false => { ws := take b, inv := true }
  | false, true => { ws := take a, inv := true }
  | false, false =>
    let d := (y.cmp x).getD 0
    { ws := if (larger && 0 < d) || (!larger && d < 0) then take b else take a }

/-- A compare (R251). -/
def ccmpVal (x y : FX) (c : Nat) : CpxVal := { ws := [boolWord (cmpHolds c (x.cmp y))], inv := x.isNan || y.isNan }

/-- M read as a signed value (R251, CSCL). -/
def signedM (m : Nat) : Int := sgn 5 m

/-- What a command with its operand registers and free numbers computes (R251-R254). -/
def cpxCompute (c : CpxCmd) (d a b b2 : CReg) (zs : List Nat) : CpxVal :=
  let x := cxOf a
  let y := cxOf b
  let g := c.gval
  match c.cpop with
  | 0 => { ws := [g] }
  | 1 => { ws := [g] }
  | 2 => { ws := [a.re] }
  | 3 => { ws := [a.im] }
  | 4 => { ws := [a.re, a.im] }
  | 5 => cpxOf [((fxInt (wordInt g)).scale (-(c.m : Int))).round, { w := 0 }]
  | 6 => cpxOf [((fxInt (sgn 24 (fld g 31 8))).scale (-(c.m : Int))).round, { w := 0 }]
  | 7 => cfixVal x.1 c.m
  | 16 => (x.add y).round
  | 17 => (x.sub y).round
  | 18 => (CX.mul x y).round
  | 19 => ((cxOf d).1.add (x.1.mul y.1) |>.sub (x.2.mul y.2), (cxOf d).2.add (x.1.mul y.2) |>.add (x.2.mul y.1)) |> CX.round
  | 20 => ((cxOf d).1.sub (x.1.mul y.1) |>.add (x.2.mul y.2), (cxOf d).2.sub (x.1.mul y.2) |>.sub (x.2.mul y.1)) |> CX.round
  | 21 => (CX.mul x y.conj).round
  | 22 => let p := CX.mul x y.conj; ((cxOf d).add p).round
  | 23 => cpxOf [(x.1.mul (fxOf g)).round, (x.2.mul (fxOf g)).round]
  | 24 => cpxOf [(x.1.scale (signedM c.m)).round, (x.2.scale (signedM c.m)).round]
  | 25 => { ws := [a.re, putBit a.im 31 (!tbit a.im 31)] }
  | 26 => cdftVal (cxOf d) x.1 y.1 g c.m
  | 32 => crotVal x g.toNat (zs.getD 0 0) (zs.getD 1 0)
  | 33 => cmagVal x (zs.getD 0 0)
  | 34 => cargVal x (zs.getD 0 0 % 128)
  | 40 => cfsqVal x y (cxOf b2) zs
  | 44 => cdivVal x y
  | 48 => ccmpVal x.1 y.1 c.m
  | 49 => ccmpVal x.2 y.2 c.m
  | 50 => ccmpVal x.mag2 y.mag2 c.m
  | 51 => cselVal a b false
  | _ => cselVal a b true

/-! ## What a command reads and writes -/

/-- Whether a command writes a G register. -/
def cpxToG (op : Nat) : Bool := [2, 3, 7, 34, 48, 49, 50].contains op

/-- Whether a command names a G register at all. -/
def cpxUsesG (op : Nat) : Bool := cpxToG op || [0, 1, 5, 6, 23, 26, 32].contains op

/-- The components that a command reads: C register, real part, imaginary part (R251, R258). -/
def CpxCmd.reads (c : CpxCmd) : List (Nat × Bool × Bool) :=
  match c.cpop with
  | 0 => [] | 1 => [] | 5 => [] | 6 => []
  | 2 => [(c.ca, true, false)] | 3 => [(c.ca, false, true)] | 7 => [(c.ca, true, false)]
  | 19 => [(c.cd, true, true), (c.ca, true, true), (c.cb, true, true)]
  | 20 => [(c.cd, true, true), (c.ca, true, true), (c.cb, true, true)]
  | 22 => [(c.cd, true, true), (c.ca, true, true), (c.cb, true, true)]
  | 26 => [(c.cd, true, true), (c.ca, true, false), (c.cb, true, false)]
  | 40 => [(c.ca, true, true), (c.ca + 1, true, true), (c.ca + 2, true, true)]
  | 48 => [(c.ca, true, false), (c.cb, true, false)]
  | 49 => [(c.ca, false, true), (c.cb, false, true)]
  | op => if [16, 17, 18, 21, 44, 50, 51, 52].contains op then [(c.ca, true, true), (c.cb, true, true)] else [(c.ca, true, true)]

/-- The C registers that a command writes. -/
def CpxCmd.dests (c : CpxCmd) : List Nat :=
  if cpxToG c.cpop then [] else if c.cpop = 40 then [c.cd, c.cd + 1, c.cd + 2] else [c.cd]

/-- The unit of a command (R249). -/
def cpxUnit (op : Nat) : Nat := if op < 8 then 0 else if op < 32 then 1 else if op < 40 then 2 else if op < 44 then 3 else if op < 48 then 4 else 5

/-- The earlier commands of the same thread that are outstanding. -/
def State.cpxBefore (s : State) (c : CpxCmd) : List CpxCmd :=
  (s.cpx.cmds.map Prod.snd).filter fun x => x.live && !x.squashed && x.tid == c.tid && x.order < c.order

/-- Whether a command could start if its unit were free (R248): the earlier commands of its thread have started, and none of them has still
to write a register it reads. -/
def State.cpxReady (s : State) (c : CpxCmd) : Bool :=
  c.live && !c.started &&
    (s.cpxBefore c).all fun x => x.started && !(x.dests.any fun d => c.reads.any fun r => r.1 == d)

/-- Whether a command is the first of its tile that is ready for its unit (R249). -/
def State.cpxFirst (s : State) (key : Nat) (c : CpxCmd) : Bool :=
  s.cpx.cmds.all fun p =>
    !(p.1 / 64 == key / 64 && cpxUnit p.2.cpop == cpxUnit c.cpop && s.cpxReady p.2) || c.order ≤ p.2.order

/-- A C register of thread k. -/
def State.cregOf (s : State) (k n : Nat) : CReg := (s.thr k).ctx.c.toList.getD n {}

/-- The first C register among those read whose parity is bad in a component that is read (R258). -/
def State.cpxParity (s : State) (c : CpxCmd) : Option Nat :=
  (c.reads.find? fun r => (r.2.1 && (s.cregOf c.tid r.1).badRe) || (r.2.2 && (s.cregOf c.tid r.1).badIm)).map (·.1)

/-- How many components a command writes. -/
def CpxCmd.width (c : CpxCmd) : Nat := if cpxToG c.cpop ∨ c.cpop < 2 then 1 else 2 * c.dests.length

/-- Free numbers for the operations whose results are bounded and not fixed (R251, R254). -/
def State.cpxFree (s : State) (op : Nat) : List Nat × State :=
  if [32, 33, 34, 40].contains op then
    ((List.range 6).map fun i => Config.freeNat (s.fv + i) % 67108865, { s with fv := s.fv + 6 })
  else ([], s)

/-- A command starts (R248): its operands are read and its results computed; a component with bad parity makes every result a NaN. -/
def State.cpxStart (s : State) (key : Nat) : State :=
  let c := s.cpxCmd key
  let j := key / 64
  match s.cpxParity c with
  | some n =>
    (s.setCpxCmd key { c with started := true, res := List.replicate c.width qNaN, badReg := some n }).inc (Reg.CPX_PARITY j)
  | none =>
    let fr := s.cpxFree c.cpop
    let b := if c.cpop = 40 then c.ca + 1 else c.cb
    let v := cpxCompute c (s.cregOf c.tid c.cd) (s.cregOf c.tid c.ca) (s.cregOf c.tid b) (s.cregOf c.tid (c.ca + 2)) fr.1
    (((fr.2.setCpxCmd key { c with started := true, res := v.ws }).add (Reg.CPX_INVALID j) (if v.inv then 1 else 0)).add (Reg.CPX_OVERFLOW j)
      v.ovf)

/-- CPX_COMMAND_START (R249): a command that is ready and first for its unit starts; the cycles it waited for the unit are counted. -/
def execCpxCommandStart (core : Fin 96) (tag : Fin 16) (waited : Nat) (s : State) : Host.Outcome State Fault Refusal :=
  done s (
    let key := 16 * core.val + tag.val
    let c := s.cpxCmd key
    if s.cpxReady c && s.cpxFirst key c then
      ((s.cpxStart key).add (Reg.CPX_WAIT_CYC (core.val / 4)) waited).pmuClu (core.val / 16) 0x49 {} waited
    else s)

/-! ## Result writes -/

/-- A C register of thread k replaced; the parity of what is written is good (R258). -/
def State.setCreg (s : State) (k n : Nat) (f : CReg → CReg) : State :=
  s.updCtx k fun x => { x with c := x.c.setIfInBounds n (f (x.c.toList.getD n {})) }

/-- The results of a command written to its destinations (R250, R251). -/
def State.cpxStore (s : State) (c : CpxCmd) : State :=
  if cpxToG c.cpop then (s.updCtx c.tid fun x => x.setG c.gs (wordAt c.res 0)).updThr c.tid fun t =>
    { t with pend := t.pend.filter fun p => p.ready || p.dest != .g (Fin.ofNat 8 c.gs) }
  else if c.cpop = 0 then s.setCreg c.tid c.cd fun r => { r with re := wordAt c.res 0, badRe := false }
  else if c.cpop = 1 then s.setCreg c.tid c.cd fun r => { r with im := wordAt c.res 0, badIm := false }
  else each (c.dests.zipIdx) (fun x p => x.setCreg c.tid p.1 fun _ => { re := wordAt c.res (2 * p.2), im := wordAt c.res (2 * p.2 + 1) }) s

/-- Whether an earlier command of the thread has still to write a destination of this one (R248). -/
def State.cpxWawFree (s : State) (c : CpxCmd) : Bool :=
  (s.cpxBefore c).all fun x =>
    !(x.dests.any fun d => c.dests.contains d) && !(cpxToG x.cpop && cpxToG c.cpop && x.gs == c.gs)

/-- A command that has started ends (R250, R255, R258): its results are written, or suppressed where it was squashed; its tag is free; a bad
parity then stops the thread with an imprecise DATA_ECC record. -/
def State.cpxFinish (s : State) (key : Nat) : State :=
  let c := s.cpxCmd key
  let s1 := s.setCpxCmd key {}
  if c.squashed then s1
  else
    let s2 := s1.cpxStore c
    let s3 := if c.smp then s2.retireSample c.tid else s2
    match c.badReg with
    | some n => s3.faultAt c.tid 7 true (BitVec.ofNat 32 (0xFFFFFFF0 + n)) c.pc c.iw
    | none => s3

/-- CPX_RESULT_WRITE (R250). -/
def execCpxResultWrite (core : Fin 96) (tag : Fin 16) (s : State) : Host.Outcome State Fault Refusal :=
  done s (
    let key := 16 * core.val + tag.val
    let c := s.cpxCmd key
    if c.live && c.started && (c.squashed || s.cpxWawFree c) then s.cpxFinish key else s)

/-- The keys of the outstanding commands of thread k, in issue order. -/
def State.cpxKeysOf (s : State) (k : Nat) : List Nat :=
  ((s.cpx.cmds.filter fun p => p.2.live && !p.2.squashed && p.2.tid == k).insertionSort fun a b => a.2.order ≤ b.2.order).map Prod.fst

/-- Every outstanding command of thread k completed in issue order (R256, R470). -/
def State.cpxDrain (s : State) (k : Nat) : State :=
  each (s.cpxKeysOf k) (fun x key => (if (x.cpxCmd key).started then x else x.cpxStart key).cpxFinish key) s

/-! ## Issue -/

/-- The level enable of CPX_CFG for thread k (R259). -/
def State.cpxEnabled (s : State) (k : Nat) : Bool :=
  match (s.thr k).priv with
  | .u => s.rb (Reg.CPX_CFG (tileOf k)) 0
  | .k => s.rb (Reg.CPX_CFG (tileOf k)) 1
  | .s => s.rb (Reg.CPX_CFG (tileOf k)) 2

/-- The fault of a level that may not use the coprocessor (R246). -/
def State.cpxPerm (s : State) (k : Nat) : Option Nat := if s.cpxEnabled k then none else some 8

/-- A command queued for thread k (R246, R247): STALLED where the thread holds four entries, those of squashed commands that still run among them, or the core's queue is full; else the lowest free
tag, with the value its G register holds. -/
def State.cpxQueue (s : State) (k op cd ca cb gs m : Nat) : Eff :=
  let core := k / 8
  let mine := s.cpx.cmds.filter fun p => p.2.live && p.2.tid == k
  match (List.range 16).find? fun i => !(s.cpxCmd (16 * core + i)).live with
  | some tag =>
    if 4 ≤ mine.length then .stall .queue
    else
      let c : CpxCmd :=
        { live := true, tid := k, cpop := op, cd := cd, ca := ca, cb := cb, gs := gs, m := m
          gval := (s.thr k).ctx.getG gs, order := s.cpx.nextOrder, pc := (s.thr k).ctx.pc, iw := (s.nextWords k).1
          smp := match (s.sampler (k / 128)).out with
            | some (_, k', _) => k' == k && !((s.thr k).pend.any (·.smp)) && !(mine.any (·.2.smp))
            | none => false }
      let s1 := (s.setCpxCmd (16 * core + tag) c)
      let s2 := { s1 with cpx := { s1.cpx with nextOrder := s1.cpx.nextOrder + 1 } }
      let s3 := if cpxToG op then
          s2.pendRes k { dest := .g (Fin.ofNat 8 gs), val := 0, ready := false, tag := tag }
        else s2
      .next ((s3.inc (Reg.CPX_CMDS (tileOf k))).pmuCore (k / 128) (k % 128 / 8) 0x09 (s.privAttr k) 1)
  | none => .stall .queue

/-- The issue of a C-format instruction (R246): its permission, a pending write of the G register it names, then its command. -/
def State.cpxIssue (s : State) (t : ThreadId) (i : Instr) (op : Nat) (cd ca cb gs : Fin 8) (m : BitVec 5) : Host.Outcome State Fault Refusal :=
  let k := tidNat t
  done s (s.issue t i 2 (if cpxUsesG op then [.g gs] else []) (s.cpxPerm k) fun x => x.cpxQueue k op cd.val ca.val cb.val gs.val m.toNat)

/-- CMTR (R251): its command goes to the coprocessor. CMTR: Cd.re := the bits of Gs. -/
def execCmtr (t : ThreadId) (cd gs : Fin 8) (s : State) : Host.Outcome State Fault Refusal :=
  s.cpxIssue t (.cmtr t cd gs) 0 cd 0 0 gs 0

/-- CMTI (R251): its command goes to the coprocessor. CMTI: Cd.im := the bits of Gs. -/
def execCmti (t : ThreadId) (cd gs : Fin 8) (s : State) : Host.Outcome State Fault Refusal :=
  s.cpxIssue t (.cmti t cd gs) 1 cd 0 0 gs 0

/-- CMFR (R251): its command goes to the coprocessor. CMFR: Gs := the bits of Ca.re. -/
def execCmfr (t : ThreadId) (gs ca : Fin 8) (s : State) : Host.Outcome State Fault Refusal :=
  s.cpxIssue t (.cmfr t gs ca) 2 0 ca 0 gs 0

/-- CMFI (R251): its command goes to the coprocessor. CMFI: Gs := the bits of Ca.im. -/
def execCmfi (t : ThreadId) (gs ca : Fin 8) (s : State) : Host.Outcome State Fault Refusal :=
  s.cpxIssue t (.cmfi t gs ca) 3 0 ca 0 gs 0

/-- CMOV (R251): its command goes to the coprocessor. CMOV: Cd := Ca. -/
def execCmov (t : ThreadId) (cd ca : Fin 8) (s : State) : Host.Outcome State Fault Refusal :=
  s.cpxIssue t (.cmov t cd ca) 4 cd ca 0 0 0

/-- CCVT (R251): its command goes to the coprocessor. CCVT: an integer in Gs scaled by 2^-m. -/
def execCcvt (t : ThreadId) (cd gs : Fin 8) (m : BitVec 5) (s : State) : Host.Outcome State Fault Refusal :=
  s.cpxIssue t (.ccvt t cd gs m) 5 cd 0 0 gs m

/-- CCVTC (R251): its command goes to the coprocessor. CCVTC: the sample of a cell in Gs scaled by 2^-m. -/
def execCcvtc (t : ThreadId) (cd gs : Fin 8) (m : BitVec 5) (s : State) : Host.Outcome State Fault Refusal :=
  s.cpxIssue t (.ccvtc t cd gs m) 6 cd 0 0 gs m

/-- CFIX (R251): its command goes to the coprocessor. CFIX: Ca.re × 2^m as an integer. -/
def execCfix (t : ThreadId) (gs ca : Fin 8) (m : BitVec 5) (s : State) : Host.Outcome State Fault Refusal :=
  s.cpxIssue t (.cfix t gs ca m) 7 0 ca 0 gs m

/-- CADD (R251): its command goes to the coprocessor. CADD. -/
def execCadd (t : ThreadId) (cd ca cb : Fin 8) (s : State) : Host.Outcome State Fault Refusal :=
  s.cpxIssue t (.cadd t cd ca cb) 16 cd ca cb 0 0

/-- CSUB (R251): its command goes to the coprocessor. CSUB. -/
def execCsub (t : ThreadId) (cd ca cb : Fin 8) (s : State) : Host.Outcome State Fault Refusal :=
  s.cpxIssue t (.csub t cd ca cb) 17 cd ca cb 0 0

/-- CMUL (R251): its command goes to the coprocessor. CMUL. -/
def execCmul (t : ThreadId) (cd ca cb : Fin 8) (s : State) : Host.Outcome State Fault Refusal :=
  s.cpxIssue t (.cmul t cd ca cb) 18 cd ca cb 0 0

/-- CMAC (R251): its command goes to the coprocessor. CMAC, fused. -/
def execCmac (t : ThreadId) (cd ca cb : Fin 8) (s : State) : Host.Outcome State Fault Refusal :=
  s.cpxIssue t (.cmac t cd ca cb) 19 cd ca cb 0 0

/-- CMSC (R251): its command goes to the coprocessor. CMSC, fused. -/
def execCmsc (t : ThreadId) (cd ca cb : Fin 8) (s : State) : Host.Outcome State Fault Refusal :=
  s.cpxIssue t (.cmsc t cd ca cb) 20 cd ca cb 0 0

/-- CCMUL (R251): its command goes to the coprocessor. CCMUL: the product with the conjugate. -/
def execCcmul (t : ThreadId) (cd ca cb : Fin 8) (s : State) : Host.Outcome State Fault Refusal :=
  s.cpxIssue t (.ccmul t cd ca cb) 21 cd ca cb 0 0

/-- CCMAC (R251): its command goes to the coprocessor. CCMAC, fused. -/
def execCcmac (t : ThreadId) (cd ca cb : Fin 8) (s : State) : Host.Outcome State Fault Refusal :=
  s.cpxIssue t (.ccmac t cd ca cb) 22 cd ca cb 0 0

/-- CRMUL (R251): its command goes to the coprocessor. CRMUL: the product with the real number in Gs. -/
def execCrmul (t : ThreadId) (cd ca gs : Fin 8) (s : State) : Host.Outcome State Fault Refusal :=
  s.cpxIssue t (.crmul t cd ca gs) 23 cd ca 0 gs 0

/-- CSCL (R251): its command goes to the coprocessor. CSCL: Ca × 2^m, m signed. -/
def execCscl (t : ThreadId) (cd ca : Fin 8) (m : BitVec 5) (s : State) : Host.Outcome State Fault Refusal :=
  s.cpxIssue t (.cscl t cd ca m) 24 cd ca 0 0 m

/-- CCONJ (R251): its command goes to the coprocessor. CCONJ. -/
def execCconj (t : ThreadId) (cd ca : Fin 8) (s : State) : Host.Outcome State Fault Refusal :=
  s.cpxIssue t (.cconj t cd ca) 25 cd ca 0 0 0

/-- CDFT (R251): its command goes to the coprocessor. CDFT (R253): one step of a recursive DFT. -/
def execCdft (t : ThreadId) (cd ca cb gs : Fin 8) (h : BitVec 5) (s : State) : Host.Outcome State Fault Refusal :=
  s.cpxIssue t (.cdft t cd ca cb gs h) 26 cd ca cb gs h

/-- CROT (R251): its command goes to the coprocessor. CROT: rotation by Gs × 2^-32 turn. -/
def execCrot (t : ThreadId) (cd ca gs : Fin 8) (s : State) : Host.Outcome State Fault Refusal :=
  s.cpxIssue t (.crot t cd ca gs) 32 cd ca 0 gs 0

/-- CMAG (R251): its command goes to the coprocessor. CMAG. -/
def execCmag (t : ThreadId) (cd ca : Fin 8) (s : State) : Host.Outcome State Fault Refusal :=
  s.cpxIssue t (.cmag t cd ca) 33 cd ca 0 0 0

/-- CARG (R251): its command goes to the coprocessor. CARG. -/
def execCarg (t : ThreadId) (gs ca : Fin 8) (s : State) : Host.Outcome State Fault Refusal :=
  s.cpxIssue t (.carg t gs ca) 34 0 ca 0 gs 0

/-- CFSQ (R251): its command goes to the coprocessor. CFSQ (R254): the sequence components. -/
def execCfsq (t : ThreadId) (cd ca : Fin 8) (s : State) : Host.Outcome State Fault Refusal :=
  s.cpxIssue t (.cfsq t cd ca) 40 cd ca 0 0 0

/-- CDIV (R251): its command goes to the coprocessor. CDIV. -/
def execCdiv (t : ThreadId) (cd ca cb : Fin 8) (s : State) : Host.Outcome State Fault Refusal :=
  s.cpxIssue t (.cdiv t cd ca cb) 44 cd ca cb 0 0

/-- CCMPR (R251): its command goes to the coprocessor. CCMPR: compare of the real parts. -/
def execCcmpr (t : ThreadId) (gs ca cb : Fin 8) (m : BitVec 5) (s : State) : Host.Outcome State Fault Refusal :=
  s.cpxIssue t (.ccmpr t gs ca cb m) 48 0 ca cb gs m

/-- CCMPI (R251): its command goes to the coprocessor. CCMPI: compare of the imaginary parts. -/
def execCcmpi (t : ThreadId) (gs ca cb : Fin 8) (m : BitVec 5) (s : State) : Host.Outcome State Fault Refusal :=
  s.cpxIssue t (.ccmpi t gs ca cb m) 49 0 ca cb gs m

/-- CCMPM (R251): its command goes to the coprocessor. CCMPM: compare of the exact squared magnitudes. -/
def execCcmpm (t : ThreadId) (gs ca cb : Fin 8) (m : BitVec 5) (s : State) : Host.Outcome State Fault Refusal :=
  s.cpxIssue t (.ccmpm t gs ca cb m) 50 0 ca cb gs m

/-- CMIN (R251): its command goes to the coprocessor. CMIN. -/
def execCmin (t : ThreadId) (cd ca cb : Fin 8) (s : State) : Host.Outcome State Fault Refusal :=
  s.cpxIssue t (.cmin t cd ca cb) 51 cd ca cb 0 0

/-- CMAX (R251): its command goes to the coprocessor. CMAX. -/
def execCmax (t : ThreadId) (cd ca cb : Fin 8) (s : State) : Host.Outcome State Fault Refusal :=
  s.cpxIssue t (.cmax t cd ca cb) 52 cd ca cb 0 0

end Sys2Proof.Machine
end

