-- ==== Sys2Proof/Machine/Mail.lean ====
section
/-!
DEFINITION. Host and peer mailboxes (R293-R297) and the try request that a read of a lock's REQ is (R289). A mailbox is named by m: 0-127 a
host mailbox, 128 + p peer mailbox p.
-/

namespace Sys2Proof.Machine

/-- The configuration of mailbox m as cluster c shows it. -/
def mbCfgReg (c m : Nat) : Nat := if m < 128 then Reg.MB_CFG c m else Reg.CLU_PMB_CFG 0 (m - 128)

/-- The partition, cluster and direction of a mailbox (R293). -/
def State.mbPart (s : State) (c m : Nat) : Nat := s.rf (mbCfgReg c m) 26 23
def State.mbCl (s : State) (c m : Nat) : Nat := s.rf (mbCfgReg c m) 29 27
def State.mbDir (s : State) (c m : Nat) : Bool := s.rb (mbCfgReg c m) 30
def State.mbEn (s : State) (c m : Nat) : Bool := s.rb (mbCfgReg c m) 31 && s.mbCl c m == c

/-- Whether thread k may reach mailbox m (R293, R297): a thread of PART in CLUSTER. -/
def State.mbThread (s : State) (k m : Nat) : Bool := s.mbEn (k / 128) m && s.thrPart k == s.mbPart (k / 128) m

/-- Whether an accessor's session reaches host mailbox m of cluster c (R293): ADMIN, or OWNER of PART. -/
def State.mbHost (s : State) (who : Accessor) (c m : Nat) : Bool := m < 128 && s.mbEn c m && s.adminOrOwner who (s.mbPart c m)

/-- Whether an accessor reaches mailbox m of cluster c at all, and whether it stands on the sending side: threads send where DIR is 1, the
host where it is 0. -/
def State.mbReach (s : State) (who : Accessor) (c m : Nat) : Bool :=
  match who with
  | .thread t => t.cl.val == c && s.mbThread (tidNat t) m
  | _ => s.mbHost who c m
def State.mbSends (s : State) (who : Accessor) (c m : Nat) : Bool :=
  match who with
  | .thread _ => s.mbDir c m
  | _ => !s.mbDir c m

/-- A word written to MB_DATA by the sending side (R294). -/
def State.mbStage (s : State) (m w : Nat) (val : Word) : State :=
  s.setMbox m { s.mbox m with stage := (s.mbox m).stage.setIfInBounds w val }

/-- The words of a post of length n (R294): words beyond it are zero. -/
def mailWords (ws : Vector Word 4) (n : Nat) : Vector Word 4 :=
  Vector.ofFn fun i => if i.val < n then ws[i] else 0

/-- A post that arrives at mailbox m of cluster c (R294, R295): MSEQ advances, FULL is set, and a post over an untaken message collides.
A mailbox that threads receive from wakes their tasks. -/
def State.mbArrive (s : State) (c m : Nat) (ws : Vector Word 4) (wakes : Bool) : State :=
  let b := s.mbox m
  let s1 := s.setMbox m { b with
    msg := ws, mseq := b.mseq + 1, full := true, coll := b.coll || b.full
    collCnt := if b.full then min (b.collCnt + 1) 65535 else b.collCnt }
  let s2 := if b.full then (s1.inc (Reg.CLU_MB_COLL c)).lckEvent c 5 else s1
  if wakes then s2.wakeSource c 4 m causeMbox (BitVec.ofNat 32 m) else s2

/-- A write of MB_POST by the sending side (R294, R297): [1:0] is LEN - 1. A post on a send peer mailbox is carried by the pair link, or
discarded while it is down. -/
def State.mbPostNow (s : State) (c m : Nat) (val : Word) : State :=
  let n := fld val 1 0 + 1
  let ws := mailWords (s.mbox m).stage n
  if m < 128 then s.mbArrive c m ws (!s.mbDir c m)
  else if s.pairUp then
    (({ s with pai := { s.pai with mbxSeq := s.pai.mbxSeq + 1 } }).inc Reg.PAI_MB_TX).emit
      (.cell 2 ([m - 128, n] ++ ws.toList.map BitVec.toNat ++ [s.pai.mbxSeq.toNat]) [])
  else ((s.setMbox m { s.mbox m with lost := true }).inc (Reg.CLU_MB_PEER_LOST c)).lckEvent c 6

/-- The answer of MB_TAKE (R295) as it stands. -/
def State.mbTakeWord (s : State) (m : Nat) : Word :=
  BitVec.ofNat 32 ((if (s.mbox m).full then 2147483648 else 0) + (if (s.mbox m).coll then 1073741824 else 0) + (s.mbox m).mseq.toNat * 65536)

/-- A read of MB_TAKE by the receiving side (R295): FULL and COLLIDED clear, and a message goes to the take shadow. -/
def State.mbTakeNow (s : State) (m : Nat) : State :=
  if (s.mbox m).full then s.setMbox m { s.mbox m with take := (s.mbox m).msg, full := false, coll := false } else s

/-- MB_STATUS and PMB_STATUS (R298). -/
def State.mbStatus (s : State) (m : Nat) : Word :=
  let b := s.mbox m
  BitVec.ofNat 32 ((if b.full then 2147483648 else 0) + (if b.coll then 1073741824 else 0) + (if b.lost then 536870912 else 0) +
    b.mseq.toNat * 65536 + b.collCnt)

/-- A write to a mailbox register by an accessor: done on the sending side, ignored on the receiving side; a session that may not reach the
mailbox is refused as R408 refuses. -/
def State.mbWrite (s : State) (who : Accessor) (c m : Nat) (f : State → State) : State :=
  if !s.mbEn c m then s
  else if !s.mbReach who c m then s.denyWrite who
  else if s.mbSends who c m then f s
  else s

/-- MB_DATA_WRITE (R294). -/
def execMbDataWrite (who : Accessor) (c : Fin 6) (m : BitVec 8) (w : Fin 4) (val : Word) (s : State) : Host.Outcome State Fault Refusal :=
  done s (s.mbWrite who c.val m.toNat fun x => x.mbStage m.toNat w.val val)

/-- The stores a thread makes visible before a post takes effect (R286). -/
def State.releaseBy (s : State) (who : Accessor) : State :=
  match who with
  | .thread t => s.drainStores (tidNat t)
  | _ => s

/-- MB_POST (R294). -/
def execMbPost (who : Accessor) (c : Fin 6) (m : BitVec 8) (val : Word) (s : State) : Host.Outcome State Fault Refusal :=
  done s (s.mbWrite who c.val m.toNat fun x => (x.releaseBy who).mbPostNow c.val m.toNat val)

/-- MB_TAKE (R295): a taking read on the receiving side; on the sending side, or without the reach, it returns zero and nothing
is taken (R8, R408). -/
def execMbTake (who : Accessor) (c : Fin 6) (m : BitVec 8) (s : State) : Host.Outcome State Fault Refusal :=
  done s (
    let off := Reg.MB_TAKE c.val (m.toNat % 128)
    if s.mbReach who c.val m.toNat then
      (if s.mbSends who c.val m.toNat then s.emit (.readData off 0)
       else (s.mbTakeNow m.toNat).emit (.readData off (s.mbTakeWord m.toNat)))
    else s.emit (.readData off 0))

/-! ## Lock tries -/

/-- A read of a lock's REQ by thread k (R289, R298): STATUS in [19:16], QLEN in [12:0]. -/
def State.lockTry (s : State) (k : Nat) (glob : Bool) (i : Nat) : Word × State :=
  let n := if glob then i else 64 * (k / 128) + i % 64
  let r := s.requestLock glob n (s.agentOf k) (s.thrPart k) true
  (BitVec.ofNat 32 (r.1.getD 2 * 65536 + (r.2.lock glob n).queue.length % 8192), r.2)

/-- The address of REQ of a lock in the lock window (R298). -/
def lockReqAddr (glob : Bool) (i : Nat) : Nat := if glob then 0x06000800 + 8 * i else 0x06000000 + 8 * (i % 64)

/-- LOCK_TRY_READ (R289). -/
def execLockTryRead (t : ThreadId) (global : Bool) (i : BitVec 8) (s : State) : Host.Outcome State Fault Refusal :=
  done s (
    if !global && 64 ≤ i.toNat then s
    else
      let r := s.lockTry (tidNat t) global i.toNat
      r.2.emit (.readData (lockReqAddr global i.toNat) r.1))

end Sys2Proof.Machine
end

