-- ==== Sys2Proof/Machine/Blocking.lean ====
section
/-!
DEFINITION. The Rospel instructions that meet other threads and the dispatcher: channels (R209-R211), locks (R287-R291), TEND and YIELD
(R273), MFS (R241), and the write of a result computed beside the pipe (R200).
-/

namespace Sys2Proof.Machine

/-! ## Waiting -/

/-- Whether a thread never waits (R209): a bound thread. -/
def State.neverWaits (s : State) (k : Nat) : Bool := s.thrBound k

/-- A blocking instruction of thread k waits (R209): the agent stands last in the queue that `q` enters it into. A task with WAIT_REL gives
its thread away as BLOCKED once its coprocessor commands have completed (R257, R269). -/
def State.startWait (s : State) (k : Nat) (what : WaitFor) (ga : Fin 8) (q : State → State) : Eff :=
  let s1 := (q s).updThr k fun t => { t with st := .waiting, wait := some { what := what, ga := ga.val, since := s.up } }
  if (s.thr k).task.isSome && tbit (s.task (s.taskOn k)).w0 16 then (if s.drained k then .gone (s1.leaveThread k 5) else .stall .drain)
  else .wait s1

/-! ## Channels -/

/-- The channel that a G register names (R210): bits [5:0], of the thread's cluster. -/
def chanKey (k : Nat) (w : Word) : Nat := 64 * (k / 128) + fld w 5 0

/-- Whether thread k may open, or receive from, a channel (R210): a thread of the partition, or the supervisor. -/
def State.mayOpen (s : State) (k ch : Nat) : Bool := s.chanEn ch && (isSup k || s.chanTx ch == s.thrPart k)
def State.mayRecv (s : State) (k ch : Nat) : Bool := s.chanEn ch && (isSup k || s.chanRx ch == s.thrPart k)

/-- The CHANNEL fault (R205); its data address is the channel number. -/
def chanFault (s : State) (ch : Nat) : Eff := .fault s 10 (BitVec.ofNat 32 (ch % 64))

/-- OPEN and OPENW by thread k (R210). -/
def State.openChan (s : State) (k : Nat) (ga gb : Fin 8) (blocking : Bool) : Eff :=
  let ch := chanKey k (s.gOf k gb)
  if !s.mayOpen k ch then chanFault s ch
  else if (s.chan ch).st = .empty then .next ((s.setChan ch ((s.chan ch).fill (s.agentOf k))).setG k ga 0)
  else if !blocking ∨ s.neverWaits k then .next (s.setG k ga 2)
  else s.startWait k (.openw ch) ga fun x => x.setChan ch { x.chan ch with txWait := (x.chan ch).txWait ++ [x.agentOf k] }

/-- RECV and RECVW by thread k (R210, R239): the words, the length and the marks of the message. -/
def State.recvChan (s : State) (k : Nat) (ga gb : Fin 8) (blocking : Bool) : Eff :=
  let ch := chanKey k (s.gOf k gb)
  if !s.mayRecv k ch then chanFault s ch
  else if (s.chan ch).st = .full then
    let m := (s.chan ch).message
    .next (((s.takeChan ch).updThr k fun t => { t with dp := dpWrite t.dp m.words, ctx := t.ctx.marked m }).setG k ga 0)
  else if !blocking ∨ s.neverWaits k then .next (s.setG k ga 1)
  else s.startWait k (.recvw ch) ga fun x => x.setChan ch { x.chan ch with rxWait := (x.chan ch).rxWait ++ [x.agentOf k] }

/-- Whether thread k is the filler of a FILLING channel (R210). -/
def State.fills (s : State) (k ch : Nat) : Bool :=
  s.chanEn ch && (s.chan ch).st == .filling && (s.chan ch).filler == some (s.agentOf k)

/-- OPEN (R210). -/
def execChanOpen (t : ThreadId) (ga gb : Fin 8) (s : State) : Host.Outcome State Fault Refusal :=
  done s (s.issue t (.chanOpen t ga gb) 1 [.g ga, .g gb] none fun x => x.openChan (tidNat t) ga gb false)

/-- OPENW (R209, R210). -/
def execChanOpenw (t : ThreadId) (ga gb : Fin 8) (s : State) : Host.Outcome State Fault Refusal :=
  done s (s.issue t (.chanOpenw t ga gb) 1 [.g ga, .g gb] none fun x => x.openChan (tidNat t) ga gb true)

/-- RECV (R210). -/
def execRecv (t : ThreadId) (ga gb : Fin 8) (s : State) : Host.Outcome State Fault Refusal :=
  done s (s.issue t (.recv t ga gb) 1 [.g ga, .g gb] none fun x => x.recvChan (tidNat t) ga gb false)

/-- RECVW (R209, R210). -/
def execRecvw (t : ThreadId) (ga gb : Fin 8) (s : State) : Host.Outcome State Fault Refusal :=
  done s (s.issue t (.recvw t ga gb) 1 [.g ga, .g gb] none fun x => x.recvChan (tidNat t) ga gb true)

/-- CHW0-CHW3 (R210): word w of the channel in Ga, by its filler. -/
def execChw (t : ThreadId) (w : Fin 4) (ga gb : Fin 8) (s : State) : Host.Outcome State Fault Refusal :=
  let k := tidNat t
  done s (s.issue t (.chw t w ga gb) 1 [.g ga, .g gb] none fun x =>
    let ch := chanKey k (x.gOf k ga)
    if x.fills k ch then .next (x.setChan ch { x.chan ch with words := (x.chan ch).words.set w.val (x.gOf k gb) }) else chanFault x ch)

/-- SEND (R210, R286): FULL with a length, after every earlier store of the thread; the message carries the thread's marks. -/
def execSend (t : ThreadId) (ga : Fin 8) (n1 : Fin 4) (s : State) : Host.Outcome State Fault Refusal :=
  let k := tidNat t
  done s (s.issue t (.send t ga n1) 1 [.g ga] none fun x =>
    let ch := chanKey k (x.gOf k ga)
    if x.fills k ch then .next ((x.drainStores k).sendChan ch (n1.val + 1) (x.thr k).ctx.taint (x.thr k).ctx.mark) else chanFault x ch)

/-! ## Locks -/

/-- The lock that Gb names for a thread of cluster c (R287): kind and key, none for a name that is no lock. -/
def lockName (c : Nat) (w : Word) : Option (Bool × Nat) :=
  if fld w 31 10 ≠ 0 then none
  else
    match fld w 9 8 with
    | 0 => if fld w 7 0 < 64 then some (false, 64 * c + fld w 7 0) else none
    | 1 => some (true, fld w 7 0)
    | _ => none

/-- LOCK (R289): a queued request, or a try by a bound thread. -/
def execLock (t : ThreadId) (ga gb : Fin 8) (s : State) : Host.Outcome State Fault Refusal :=
  let k := tidNat t
  done s (s.issue t (.lock t ga gb) 1 [.g ga, .g gb] none fun x =>
    match lockName (k / 128) (x.gOf k gb) with
    | none => .next (x.setG k ga 12)
    | some (glob, n) =>
      match (x.requestLock glob n (x.agentOf k) (x.thrPart k) (x.neverWaits k)).1 with
      | some st => .next ((x.requestLock glob n (x.agentOf k) (x.thrPart k) (x.neverWaits k)).2.setG k ga (BitVec.ofNat 32 st))
      | none => x.startWait k (.lock (if glob then 1 else 0) n) ga fun y => (y.requestLock glob n (y.agentOf k) (y.thrPart k) false).2)

/-- UNLOCK (R286, R291): after every earlier store of the thread. -/
def execUnlock (t : ThreadId) (ga gb : Fin 8) (s : State) : Host.Outcome State Fault Refusal :=
  let k := tidNat t
  done s (s.issue t (.unlock t ga gb) 1 [.g ga, .g gb] none fun x =>
    match lockName (k / 128) (x.gOf k gb) with
    | none => .next (x.setG k ga 12)
    | some (glob, n) =>
      let y := x.drainStores k
      .next ((y.releaseLock glob n (y.agentOf k) (y.thrPart k)).2.setG k ga
        (BitVec.ofNat 32 (y.releaseLock glob n (y.agentOf k) (y.thrPart k)).1)))

/-! ## TEND, YIELD -/

/-- TEND (R257, R273): the end of the run, once the coprocessor commands of the thread have completed. -/
def execTend (t : ThreadId) (s : State) : Host.Outcome State Fault Refusal :=
  let k := tidNat t
  done s (s.issue t (.tend t) 1 [] (need (s.thr k).task.isSome) fun x =>
    if x.drained k then .gone ((x.updCtx k fun c => c.advance 1).endTask k) else .stall .drain)

/-- The first ready task of the priority of the task on thread k that is eligible for the thread (R273). -/
def State.yieldTo (s : State) (k : Nat) : Option Nat :=
  ((s.ready (32 * (k / 128) + (s.task (s.taskOn k)).prio)).map (1024 * (k / 128) + ·)).find? fun n => s.eligible n k

/-- YIELD (R273): the thread goes to the first eligible ready task of the same priority; without one there is no effect. -/
def execYield (t : ThreadId) (s : State) : Host.Outcome State Fault Refusal :=
  let k := tidNat t
  done s (s.issue t (.yield t) 1 [] (need (s.thr k).task.isSome) fun x =>
    match x.yieldTo k with
    | none => .next (x.drainStores k)
    | some n =>
      if x.drained k then
        let y := (x.updCtx k fun c => c.advance 1).unready n
        .gone (((y.leaveThread k 4).readyTail (x.taskOn k)).updThr k fun th => { th with incoming := some (n % 1024) })
      else .stall .drain)

/-! ## Special registers -/

/-- The level of a thread as MFS 0x13 and CLU_THR_STATUS code it (R219, R241). -/
def privCode : Priv → Nat
  | .u => 0 | .k => 1 | .s => 2

/-- The read shadow of device time that the cluster of thread k holds (R7, R409). -/
def timeShadow (k : Nat) : Nat := 2097152 * (6 + k / 128) + Reg.IND_TIME_NOW 0

/-- A special register of thread k (R241), with the state after the read (the read shadow of R7); none for a number not in the table. -/
def State.special (s : State) (k n : Nat) : Option (Word × State) :=
  let c := (s.thr k).ctx
  let loopW := fun (v : Vector (BitVec 16) 4) (i : Nat) => some (BitVec.ofNat 32 (loopReg v i).toNat, s)
  if n < 4 then loopW c.ls n
  else if n < 8 then loopW c.le (n - 4)
  else if n < 12 then loopW c.lc (n - 8)
  else
    match n with
    | 0x0C => some (BitVec.ofNat 32 c.levels, s)
    | 0x10 => some (BitVec.ofNat 32 (k / 128 * 256 + k % 128), s)
    | 0x11 => some (BitVec.ofNat 32 (s.thrPart k), s)
    | 0x12 => some (BitVec.ofNat 32 ((s.thr k).task.getD 0), s)
    | 0x13 => some (BitVec.ofNat 32 (privCode (s.thr k).priv), s)
    | 0x14 => some (boolWord c.taint, s)
    | 0x15 => some (boolWord c.mark, s)
    | 0x18 => some (timeWord s.time 0, { s with rdShadow := s.rdShadow.sd [] (timeShadow k) [timeWord s.time 1, timeWord s.time 2] })
    | 0x19 => some (wordAt (s.rdShadow.gd [] (timeShadow k)) 0, s)
    | 0x1A => some (wordAt (s.rdShadow.gd [] (timeShadow k)) 1, s)
    | n => if 0x20 ≤ n ∧ n < 0x24 then some (s.reg (Reg.CLU_PMU_CTR_LO (k / 128) (k % 128 / 8) (n - 0x20)), s) else none

/-- MFS (R240, R241): ILLEGAL for a number not in the table, PRIV for a counter at U without PMU_USER_EN. -/
def execMfs (t : ThreadId) (gs : Fin 8) (s : State) : Host.Outcome State Fault Refusal :=
  let k := tidNat t
  done s (s.issue t (.mfs t gs) 1 [.g gs] none fun x =>
    let n := fld (x.gOf k gs) 7 0
    match x.special k n with
    | none => .fault x 1 0
    | some r => if 0x20 ≤ n ∧ (x.thr k).priv = .u ∧ !x.rb Reg.PMU_CFG 0 then .fault x 2 0 else .next (r.2.setG k gs r.1))

/-! ## Results beside the pipe -/

/-- A pending result written into its register (R200). -/
def Ctx.put (c : Ctx) (d : Dest) (v : Acc) : Ctx :=
  match d with
  | .acc => { c with acc := v }
  | .g i => { c with g := c.g.set i.val (v.setWidth 32) }
  | .ix i => if i.val = 0 then { c with ix0 := v.setWidth 32 } else { c with ix1 := v.setWidth 32 }

/-- RESULT_WRITEBACK (R200, R205): result i of a thread, the oldest for its destination, is written. A load that met an uncorrectable word
leaves its register unchanged and faults DATA_ECC, imprecisely. -/
def execResultWriteback (t : ThreadId) (i : Nat) (s : State) : Host.Outcome State Fault Refusal :=
  done s (
    let k := tidNat t
    match (s.thr k).pend[i]? with
    | some p =>
      if !p.ready || ((s.thr k).pend.take i).any (fun q => q.dest == p.dest) then s
      else
        let s1 := s.updThr k fun th => { th with pend := th.pend.eraseIdx i }
        let s2 := if p.ecc then (s1.faultAt k 7 true p.addr p.pc p.iw) else s1.updCtx k fun c => c.put p.dest p.val
        if p.smp then s2.retireSample k else s2
    | none => s)

/-- STORE_VISIBLE (R286): the oldest store of a thread's buffer is written into its bank. -/
def execStoreVisible (t : ThreadId) (s : State) : Host.Outcome State Fault Refusal :=
  done s (
    let k := tidNat t
    match (s.thr k).sb with
    | b :: rest => (s.sramWrite b).updThr k fun th => { th with sb := rest }
    | [] => s)

end Sys2Proof.Machine
end

