-- ==== Sys2Proof/Machine/Image.lean ====
section
/-!
DEFINITION. Ulufold images as bytes (R322-R331): header, section table, records, signature block, and the order in which the device checks them.
-/

namespace Sys2Proof.Machine

/-! ## Layout -/

/-- The bytes of the signature block (R322). -/
def sigBytes : Nat := 2888

/-- An entry of the section table with the stored bytes it names (R323). -/
structure ImgSect where
  typ : Nat
  flags : Nat
  off : Nat
  len : Nat
  zero : Nat
  digest : List Byte
  body : List Byte

/-- The section table of an image (R322, R323). -/
def imgSects (bs : List Byte) : List ImgSect :=
  (List.range (leAt bs 20 2)).map fun i =>
    let e := (bs.drop (64 + 48 * i)).take 48
    { typ := leAt e 0 2, flags := leAt e 2 2, off := leAt e 4 4, len := leAt e 8 4, zero := leAt e 12 4, digest := e.drop 16
      body := (bs.drop (leAt e 4 4)).take (leAt e 8 4) }

/-- KIND, PART, FORMAT, ROOT, VERSION and FLAGS.ENCRYPTED of an image (R322). -/
def imgKind (bs : List Byte) : Nat := leAt bs 6 1
def imgPart (bs : List Byte) : Nat := leAt bs 7 1
def imgFormat (bs : List Byte) : Nat := leAt bs 4 2
def imgRoot (bs : List Byte) : Nat := leAt bs 11 1
def imgVersion (bs : List Byte) : Nat := leAt bs 12 4
def imgEncrypted (bs : List Byte) : Bool := leAt bs 22 2 % 2 == 1

/-- The header and section table: what is signed, and what the measurement digests (R327, R331). -/
def imgSigned (bs : List Byte) : List Byte := bs.take (64 + 48 * leAt bs 20 2)

/-- Whether ranges [offset, offset + length) do not overlap (R323). -/
def disjoint : List (Nat × Nat) → Bool
  | [] => true
  | (a, n) :: r => r.all (fun x => a + n ≤ x.1 || x.1 + x.2 ≤ a) && disjoint r

/-- Whether header and section table have the form of R322, R323, R328 and R329. -/
def imgFormOk (bs : List Byte) : Bool :=
  let ss := imgSects bs
  let n := leAt bs 20 2
  let f := imgFormat bs
  bs.take 4 == [0x55, 0x4C, 0x46, 0x44] && (f == 2 || f == 3) && imgKind bs ≤ 2 &&
    (if imgKind bs = 1 then 1 ≤ imgPart bs && imgPart bs ≤ 15 else imgPart bs == 0) &&
    leAt bs 16 4 == bs.length && bs.length ≤ 16777216 && 1 ≤ n && n ≤ 64 && leAt bs 22 2 ≤ 1 && 1 ≤ imgVersion bs &&
    (imgKind bs == 1 || (bs.drop 24).take 32 == List.replicate 32 0) && leAt bs 56 8 == 0 &&
    (f == 3 || (imgKind bs == 0 && leAt bs 22 2 == 0)) && 64 + 48 * n + sigBytes ≤ bs.length &&
    ss.all (fun s => s.zero == 0 && s.flags ≤ 1 && s.off % 8 == 0 && 64 + 48 * n ≤ s.off && s.off + s.len + sigBytes ≤ bs.length &&
      1 ≤ s.typ && s.typ ≤ 16 && (s.flags == 0 || (imgEncrypted bs && s.typ != 1)) && (s.typ != 1 || s.len == 1088)) &&
    disjoint (ss.map fun s => (s.off, s.len)) &&
    (!imgEncrypted bs || (match ss with | s :: _ => s.typ == 1 | [] => false))

/-! ## Records -/

/-- The records of a section's bytes (R324); none where they do not divide into records. The first argument bounds their number. -/
def recsOf (sect : Nat) : Nat → List Byte → Option (List Rec)
  | _, [] => some []
  | 0, _ => none
  | k + 1, bs =>
    let n := leAt bs 0 4 % 1048576
    if bs.length < 8 + 4 * n then none
    else
      (recsOf sect k (bs.drop (8 + 4 * n))).map fun rs =>
        { sect := sect, rkind := leAt bs 0 4 / 268435456, cls := leAt bs 0 4 / 1048576 % 256, target := leAt bs 4 4
          words := (List.range n).map fun i => BitVec.ofNat 32 (leAt bs (8 + 4 * i) 4) } :: rs

/-- The words of an object of a class (R325), none for a class that is not one. -/
def objWords : Nat → Option Nat
  | 1 => some 12 | 2 => some 1 | 3 => some 14 | 4 => some 8 | 5 => some 16 | 6 => some 128 | 7 => some 8 | 8 => some 8 | _ => none

/-- The status and counter words of an object, which must be zero (R325). -/
def objZeros : Nat → List Nat
  | 1 => [4, 5, 6, 7, 8, 9] | 3 => [8, 9, 10, 11, 12, 13] | 4 => [4, 5, 6, 7] | 5 => [4, 5, 6, 7] | 8 => [7] | _ => []

/-- Whether a class has an object with that index (R92, R94, R115, R261, R265, R308, R326). -/
def objIndexOk (cls target : Nat) : Bool :=
  match cls with
  | 1 => target < 4096
  | 2 => target == 0
  | 3 => target < 1024
  | 4 => target / 268435456 < 6 && target % 268435456 < 1024
  | 5 => target < 512
  | 6 => target < 512
  | 7 => 1 ≤ target && target ≤ 15
  | 8 => target / 268435456 < 6 && target % 268435456 < 32
  | _ => false

/-- Whether a record header is a good one (R324, R325): REG records name only registers that images set. -/
def recFormOk (r : Rec) : Bool :=
  match r.rkind with
  | 0 => r.target % 4 == 0 && (List.range r.words.length).all fun i =>
      (match regRow (r.target + 4 * i) with | some x => x.img != 0 | none => false)
  | 1 => objWords r.cls == some r.words.length && objIndexOk r.cls r.target && ((objZeros r.cls).all fun w => wordAt r.words w == 0) && (r.cls != 1 || fld (wordAt r.words 10) 27 24 == 0)
  | 2 => (match r.target / 1073741824 with
      | 0 => r.words.length % 16 == 0
      | 1 => r.words.length % 16 == 0
      | 2 => r.words.length % 4 == 0
      | _ => false)
  | 3 => r.target < 2097152 && r.target / 65536 < 24 && r.words.all fun w => fld w 15 14 == 0 && fld w 31 30 == 0
  | 4 => r.target / 536870912 < 6 && r.target / 2097152 % 256 == 0 && r.target % 2097152 + 4 * r.words.length ≤ 2097152
  | _ => false

/-! ## Scope -/

/-- Whether a section type may appear in an image of a KIND and FORMAT (R323, R329). -/
def sectAllowed (kind fmt typ : Nat) : Bool :=
  match kind with
  | 0 => typ ≤ 16 && (fmt == 3 || (typ != 1 && typ != 10 && typ != 16))
  | 1 => typ == 1 || typ == 9 || (12 ≤ typ && typ ≤ 14)
  | _ => typ == 6

/-- Whether a record belongs in the section it stands in (R323, R369). -/
def recInSection (r : Rec) : Bool :=
  match r.rkind with
  | 0 => (List.range r.words.length).all fun i =>
      (match regRow (r.target + 4 * i) with | some x => x.img == r.sect | none => false)
  | 1 => (match r.cls with
      | 1 => r.sect == 6 | 2 => r.sect == 6 | 3 => r.sect == 7 | 4 => r.sect == 12 | 5 => r.sect == 15 | 6 => r.sect == 15
      | 7 => r.sect == 10 | _ => r.sect == 12)
  | 2 => if r.target / 1073741824 = 2 then r.sect == 8 else r.sect == 5
  | 3 => r.sect == 13
  | _ => r.sect == 14

/-- TILES of an envelope record (R326). -/
def envTiles (w : List Word) : Nat := fld (wordAt w 0) 23 0

/-- Whether an envelope admits task i of cluster c (R326). -/
def envTask (w : List Word) (c i : Nat) : Bool := fld (wordAt w (2 + c)) 9 0 ≤ i && i ≤ fld (wordAt w (2 + c)) 25 16

/-- Whether a REG record of a partition image names only U, K and W program regions of tiles in TILES (R326). -/
def envReg (w : List Word) (r : Rec) : Bool :=
  r.sect == 9 && (List.range r.words.length).all fun i =>
    let off := r.target + 4 * i
    let x := off % 65536
    0x100000 ≤ off && off < 0x160000 && 0x600 ≤ x && x < 0x680 && x % 32 < 16 && x % 32 != 8 &&
      envTiles w / 2 ^ (4 * ((off - 0x100000) / 65536) + (x - 0x600) / 32) % 2 == 1

/-- Whether a record of an image of partition p keeps within the envelope (R326); `region` says whether bytes of a cluster's SRAM lie in a
region of p. -/
def envRec (w : List Word) (p : Nat) (region : Nat → Nat → Nat → Bool) (r : Rec) : Bool :=
  match r.rkind with
  | 0 => envReg w r
  | 1 => r.cls == 4 && fld (wordAt r.words 0) 24 21 == p && envTask w (r.target / 268435456) (r.target % 268435456)
  | 3 => envTiles w / 2 ^ (r.target / 65536) % 2 == 1
  | 4 => region (r.target / 536870912) (r.target % 2097152) (4 * r.words.length)
  | _ => false

/-! ## Verification -/

/-- The content key of an encrypted image (R328, R382). -/
def imgKey (bs : List Byte) : List Byte :=
  Config.kmac256 (Config.kemDecap (match imgSects bs with | s :: _ => s.body | [] => [])) (bs.take 64) 256 "ULUFOLD IMAGE"

/-- The contents of section i of an image, decrypted where it is encrypted (R328). -/
def sectPlain (bs : List Byte) (key : List Byte) (i : Nat) (s : ImgSect) : Option (List Byte) :=
  if s.flags % 2 = 1 then Config.gcmOpen key (List.replicate 4 0 ++ leBytes 8 i) (bs.take 64) s.body else some s.body

/-- Every section's contents, none where a tag fails. -/
def imgPlain (bs : List Byte) : Option (List (Nat × List Byte)) :=
  let ss := imgSects bs
  (List.range ss.length).mapM fun i =>
    match ss[i]? with
    | some s => (sectPlain bs (imgKey bs) i s).map fun b => (s.typ, b)
    | none => none

/-- Every record of plain sections, in order; none where a section is not a sequence of good records. -/
def imgRecs (ps : List (Nat × List Byte)) : Option (List Rec) :=
  (ps.mapM fun p => if p.1 = 1 then some [] else
    (recsOf p.1 (p.2.length + 1) p.2).bind fun rs => if rs.all recFormOk then some rs else none).map List.flatten

/-- The 32 bytes of a digest. -/
def digestBytes (d : BitVec 256) : List Byte := leBytes 32 d.toNat

/-- The SHAKE256 digest of bytes, as the 32 bytes a field holds. -/
def shakeBytes (bs : List Byte) : List Byte := digestBytes (Config.shake256 bs)

/-- What the device holds that a verification is judged against (R327, R330, R331): usable, valid and revoked roots with their digests, the
version floor of the image's KIND and PART, the envelope its partition is judged by, and the SRAM regions of the partition. -/
structure ImgCtx where
  valid : Nat
  revoked : Nat
  digest : Nat → BitVec 256
  floor : Nat
  env : List Word
  region : Nat → Nat → Nat → Bool

/-- Whether the signature of an image verifies under its root (R327). -/
def imgSigOk (x : ImgCtx) (bs : List Byte) : Bool :=
  let sig := bs.drop (bs.length - sigBytes)
  imgRoot bs < 4 && x.valid / 2 ^ imgRoot bs % 2 == 1 && Config.shake256 (sig.take 68) == x.digest (imgRoot bs) &&
    Config.xmssVerify (sig.take 68) (imgSigned bs) (sig.drop 68)

/-- Whether the root of an image is usable for it (R327, R330). -/
def imgRootOk (x : ImgCtx) (bs : List Byte) : Bool :=
  x.revoked / 2 ^ imgRoot bs % 2 == 0 && (imgKind bs != 1 || fld (wordAt x.env 1) 3 0 / 2 ^ imgRoot bs % 2 == 1)

/-- The first of a list of (code, passes) that does not pass. -/
def firstFail : List (Nat × Bool) → Option Nat
  | [] => none
  | (c, ok) :: r => if ok then firstFail r else some c

/-- The result of a verification (R331) and, for an accepted image, the records it holds. What an encrypted section holds can be judged only
after its tag. -/
def imgVerify (x : ImgCtx) (bs : List Byte) : Nat × List Rec :=
  if !imgFormOk bs then (1, [])
  else
    let ss := imgSects bs
    let clear := (ss.filter fun s => s.flags % 2 == 0).map fun s => (s.typ, s.body)
    match firstFail
      [(1, (imgRecs clear).isSome), (2, leAt bs 8 2 == 0x7340 && leAt bs 10 1 / 2 % 2 == 1), (3, imgSigOk x bs), (4, imgRootOk x bs),
       (5, ss.all fun s => shakeBytes s.body == s.digest), (6, (imgPlain bs).isSome)] with
    | some c => (c, [])
    | none =>
      match (imgPlain bs).bind imgRecs with
      | none => (1, [])
      | some rs =>
        match firstFail
          [(7, x.floor ≤ imgVersion bs),
           (8, imgKind bs != 1 || (x.env.length == 8 && (bs.drop 24).take 32 == shakeBytes (wordsBytes x.env))),
           (9, ss.all (fun s => sectAllowed (imgKind bs) (imgFormat bs) s.typ) && rs.all recInSection &&
             (imgKind bs != 1 || rs.all (envRec x.env (imgPart bs) x.region)))] with
        | some c => (c, [])
        | none => (0, rs)

/-- The part of the shadow that an accepted image makes (R332). -/
def imgShadow (bs : List Byte) (rs : List Rec) : ImgPart :=
  { kind := imgKind bs, part := imgPart bs, format := imgFormat bs, root := imgRoot bs, version := imgVersion bs
    meas := Config.shake256 (imgSigned bs), encrypted := imgEncrypted bs, recs := rs }

end Sys2Proof.Machine
end

