-- ==== Sys2Proof/Machine/Fwd.lean ====
section
/-!
DEFINITION. The MAC table (R183-R191): lookup, learning, the command engine with relocation, aging.
-/

namespace Sys2Proof.Machine

/-- The 8-byte key of (FID, MAC) (R183): four zero bits, FID, MAC, most significant first. -/
def fwdKey (fid : Nat) (mac : BitVec 48) : List Byte := beBytes 2 (fid % 4096) ++ beBytes 6 mac.toNat

/-- SEED of way w. -/
def State.fwdSeed (s : State) (w : Nat) : Nat :=
  s.rf (if w < 2 then Reg.FWD_SEED_LO else Reg.FWD_SEED_HI) (16 * (w % 2) + 15) (16 * (w % 2))

/-- The INDEX of a key's one candidate slot in way w (R183). -/
def State.fwdSlot (s : State) (w fid : Nat) (mac : BitVec 48) : Nat :=
  w * 16384 + nfld (crc32c (s.fwdSeed w) (fwdKey fid mac)) 31 18

/-- FID of a slot. -/
def MacSlot.fid (m : MacSlot) : Nat := fld m.w1 27 16

/-- The MAC address of a slot. -/
def MacSlot.mac (m : MacSlot) : BitVec 48 := BitVec.ofNat 48 (fld m.w1 15 0 * 4294967296 + m.w0.toNat)

/-- VALID, STATIC and HIT of a slot (R184). -/
def MacSlot.valid (m : MacSlot) : Bool := tbit m.w2 31
def MacSlot.static_ (m : MacSlot) : Bool := tbit m.w2 30
def MacSlot.hit (m : MacSlot) : Bool := tbit m.w2 29

/-- EGRESS of a slot. -/
def MacSlot.egress (m : MacSlot) : Nat := fld m.w2 21 0

/-- The parity of a number below 2^n. -/
def parityOf (n v : Nat) : Bool := (List.range n).foldl (fun b i => b != (v / 2 ^ i % 2 == 1)) false

/-- The even parity over every bit of a slot except VALID, HIT and PAR (R184). -/
def MacSlot.parity (m : MacSlot) : Bool :=
  parityOf 32 m.w0.toNat != (parityOf 32 m.w1.toNat != (parityOf 32 m.w3.toNat !=
    parityOf 32 (putBit (putBit (putBit m.w2 31 false) 29 false) 28 false).toNat))

/-- Whether a slot is bad (R185). -/
def MacSlot.isBad (m : MacSlot) : Bool := m.bad || tbit m.w2 28 != m.parity

/-- A slot with PAR written (R184). -/
def MacSlot.withPar (m : MacSlot) : MacSlot := { m with w2 := putBit m.w2 28 m.parity }

/-- Whether a slot holds a key. -/
def MacSlot.holds (m : MacSlot) (fid : Nat) (mac : BitVec 48) : Bool := m.fid == fid % 4096 && m.mac == mac

/-- The detection of a bad slot (R185). -/
def State.fwdBad (s : State) : State := (s.inc Reg.FWD_BAD_ENTRY).sqc Reg.FWD_STATUS 2 216

/-- A lookup of (FID, MAC) (R185, R186): the slot in the lowest way that is good and holds it. -/
def State.fwdFind (s : State) (fid : Nat) (mac : BitVec 48) : Option Nat :=
  ((List.range 4).map fun w => s.fwdSlot w fid mac).find? fun k =>
    (s.mac k).valid && !(s.mac k).isBad && (s.mac k).holds fid mac

/-- The bad slots that a lookup of a key reads are each detected (R185). -/
def State.fwdDetect (s : State) (fid : Nat) (mac : BitVec 48) : State :=
  each ((List.range 4).map fun w => s.fwdSlot w fid mac) (fun x k => if (s.mac k).isBad then x.fwdBad else x) s

/-- FID of a frame (R183). -/
def State.fwdFid (s : State) (vlans : List (BitVec 16)) : Nat :=
  if s.rb Reg.FWD_CFG 30 then (match vlans with | v :: _ => fld v 11 0 | [] => 0) else 0

/-! ## Learning -/

/-- HIT of slot k set by a source lookup, which the sweep of the same cycle finds out (R191). -/
def State.macHit (s : State) (k : Nat) : State :=
  let s1 := s.setMac k { s.mac k with w2 := putBit (s.mac k).w2 29 true }
  { s1 with och := { s1.och with macHits := k :: (if s.och.macHitAt = s.up then s.och.macHits else []), macHitAt := s.up } }

/-- The record of a notification (R188). -/
def State.learnRec (s : State) (kind port index fid : Nat) (mac : BitVec 48) : List Word :=
  [BitVec.ofNat 32 (kind * 536870912 + port * 16777216 + fld mac 47 32), BitVec.ofNat 32 (fld mac 31 0),
   BitVec.ofNat 32 (index * 65536 + fid), timeWordNs s.time]
where
  /-- The nanoseconds field of a device time (R5). -/
  timeWordNs (t : Nat) : Word := BitVec.ofNat 32 (t % secU / nsU)

/-- A notification (R188): not posted where an equal NEW or MOVED is queued; lost where the queue is full. -/
def State.learnPost (s : State) (kind port index fid : Nat) (mac : BitVec 48) : State :=
  let r := s.learnRec kind port index fid mac
  if kind < 2 && s.och.learn.any (fun q => wordAt q 0 == wordAt r 0 && wordAt q 1 == wordAt r 1 && fld (wordAt q 2) 11 0 == fid) then
    s.inc Reg.FWD_LQ_DEDUP
  else if 256 ≤ s.och.learn.length then (s.inc Reg.FWD_LQ_OVF).sqc Reg.FWD_STATUS 1 215
  else
    let s1 := { s with och := { s.och with learn := s.och.learn ++ [r] } }
    if kind = 0 then s1.inc Reg.FWD_LEARN_NEW else if kind = 1 then s1.inc Reg.FWD_LEARN_MOVED else s1

/-- The EGRESS bit of an ingress port (R187). -/
def egressBitOf (port : Nat) : Nat := if port = 30 then 20 else if port = 31 then 21 else port

/-- SA_LEARN (R187): the source lookup at V of a frame that passed and is not DUP. -/
def State.saLearn (s : State) (port fid : Nat) (sa : BitVec 48) : State :=
  if s.rb Reg.FWD_CFG 29 && s.rb Reg.FWD_PORT_EN port then
    if tbit sa 40 then s.inc Reg.FWD_LEARN_SKIP
    else
      let s0 := s.fwdDetect fid sa
      match s0.fwdFind fid sa with
      | none => s0.learnPost 0 port 0 fid sa
      | some k =>
        let m := s0.mac k
        let s1 := s0.macHit k
        if m.egress == 2 ^ egressBitOf port then s1
        else
          let s2 := s1.learnPost 1 port k fid sa
          if m.static_ then (s2.inc Reg.FWD_STATIC_MOVE).sqc Reg.FWD_STATUS 3 217 else s2
  else s

/-- FWD_DA_LOOKUP (R186): hit, EGRESS and USER of (FID, destination MAC). -/
def State.daLookup (s : State) (port fid : Nat) (da : BitVec 48) : (Bool × Nat × Nat) × State :=
  if s.rb Reg.FWD_CFG 31 && s.rb Reg.FWD_PORT_EN port then
    let s0 := s.fwdDetect fid da
    match s0.fwdFind fid da with
    | some k => ((true, (s0.mac k).egress, fld (s0.mac k).w3 15 0), s0.inc Reg.FWD_DA_HIT)
    | none => ((false, 0, 0), s0.inc Reg.FWD_DA_MISS)
  else ((false, 0, 0), s)

/-! ## Commands -/

/-- Slot k written by a command or an image, and with it the static entries of the retained copy (R352). -/
def State.putMac (s : State) (k : Nat) (m : MacSlot) : State :=
  let s1 := s.setMac k m
  { s1 with cfg := { s1.cfg with retMac := s1.cfg.retMac.sd {} k (if m.valid && m.static_ then m else {}) } }

/-- The slot staged on interface i. -/
def State.fwdStaged (s : State) (i : Nat) : MacSlot :=
  { w0 := s.reg (Reg.FWD_CMD_ENT i 0), w1 := s.reg (Reg.FWD_CMD_ENT i 1), w2 := s.reg (Reg.FWD_CMD_ENT i 2), w3 := s.reg (Reg.FWD_CMD_ENT i 3) }

/-- A slot returned in the staging registers of interface i. -/
def State.fwdReturn (s : State) (i : Nat) (m : MacSlot) : State :=
  (((s.setReg (Reg.FWD_CMD_ENT i 0) m.w0).setReg (Reg.FWD_CMD_ENT i 1) m.w1).setReg (Reg.FWD_CMD_ENT i 2) m.w2).setReg
    (Reg.FWD_CMD_ENT i 3) m.w3

/-- The end of a command on interface i: its fields and its result (R189). -/
def State.fwdResult (s : State) (i : Nat) (val : Word) (res : Nat) : State :=
  (s.setReg (Reg.FWD_CMD i) (putFld (putBit val 31 false) 27 16 0)).setReg (Reg.FWD_CMD_STATUS i) (BitVec.ofNat 32 res)

/-- Whether a key resolves to a bad slot (R189, PARITY): no good slot holds it and a bad candidate does. -/
def State.fwdParity (s : State) (fid : Nat) (mac : BitVec 48) : Bool :=
  (s.fwdFind fid mac).isNone &&
  ((List.range 4).any fun w => (s.mac (s.fwdSlot w fid mac)).isBad && (s.mac (s.fwdSlot w fid mac)).holds fid mac)

/-- LOOKUP (R189). -/
def State.fwdLookupCmd (s : State) (i : Nat) (val : Word) : State :=
  let e := s.fwdStaged i
  let s0 := s.fwdDetect e.fid e.mac
  match s0.fwdFind e.fid e.mac with
  | some k => (s0.fwdReturn i (s0.mac k)).fwdResult i (putFld val 15 0 k) 0
  | none => s0.fwdResult i val (if s0.fwdParity e.fid e.mac then 7 else 2)

/-- An entry as INSERT and UPDATE write it: reserved bits zero, VALID 1. -/
def fwdEntry (fid : Nat) (mac : BitVec 48) (static : Bool) (egress user : Nat) (hit : Bool) : MacSlot :=
  MacSlot.withPar {
    w0 := BitVec.ofNat 32 (fld mac 31 0)
    w1 := BitVec.ofNat 32 (fid % 4096 * 65536 + fld mac 47 32)
    w2 := BitVec.ofNat 32 (2147483648 + (if static then 1073741824 else 0) + (if hit then 536870912 else 0) + egress % 4194304)
    w3 := BitVec.ofNat 32 (user % 65536) }

/-- Whether a slot is empty: not bad and not VALID (R190). -/
def MacSlot.empty (m : MacSlot) : Bool := !m.isBad && !m.valid

/-- The way a victim is taken from, at or after way w: the first whose candidate slot of the key is not bad (R190). `ways` are the ways to
try, in order. -/
def State.fwdNextSlot (s : State) (fid : Nat) (mac : BitVec 48) (ways : List Nat) : Option Nat :=
  (ways.map fun w => s.fwdSlot (w % 4) fid mac).find? fun k => !(s.mac k).isBad

/-- The search for a relocation path (R190): from the victim in slot k, with `path` the slots before it, latest first. The answer is the
path from the last victim back to the first, headed by the empty slot; none where no path ends within the victims left, or where the
search comes back to a slot already on it. -/
def State.fwdPath (s : State) : Nat → Nat → List Nat → Option (List Nat)
  | 0, _, _ => none
  | n + 1, k, path =>
    let m := s.mac k
    let w := k / 16384
    match ((List.range 4).filter (· ≠ w)).map (fun v => s.fwdSlot v m.fid m.mac) |>.find? fun j => (s.mac j).empty with
    | some j => some (j :: k :: path)
    | none =>
      (match s.fwdNextSlot m.fid m.mac [w + 1, w + 2, w + 3] with
       | some j => if (k :: path).contains j then none else s.fwdPath n j (k :: path)
       | none => none)

/-- The bad slots that the search for a path reads (R185): of each victim's candidates, those before an empty one. -/
def State.fwdPathBad (s : State) : Nat → Nat → List Nat → List Nat
  | 0, _, _ => []
  | n + 1, k, path =>
    let m := s.mac k
    let w := k / 16384
    let cands := ((List.range 4).filter (· ≠ w)).map (fun v => s.fwdSlot v m.fid m.mac)
    let seen := (cands.takeWhile fun j => !(s.mac j).empty).filter fun j => (s.mac j).isBad
    if cands.any fun j => (s.mac j).empty then seen
    else
      match s.fwdNextSlot m.fid m.mac [w + 1, w + 2, w + 3] with
      | some j => if (k :: path).contains j then seen else seen ++ State.fwdPathBad s n j (k :: path)
      | none => seen

/-- The moves of a path, from the last victim back to the first (R190): each copy keeps HIT, each original is cleared. -/
def State.fwdMoves : List Nat → State → State
  | j :: k :: rest, s => State.fwdMoves (k :: rest) (((s.putMac j (s.mac k)).putMac k {}).inc Reg.FWD_RELOC)
  | _, s => s

/-- An entry that is not inserted (R189, R190, EV214). -/
def State.fwdInsFail (s : State) : State := (s.inc Reg.FWD_INS_FAIL).sqc Reg.FWD_STATUS 0 214

/-- A new entry written for its key (R190): the result code, the INDEX, and the state. -/
def State.fwdPlace (s : State) (e : MacSlot) : Nat × Nat × State :=
  let fid := e.fid
  let mac := e.mac
  let new := fwdEntry fid mac e.static_ e.egress (fld e.w3 15 0) false
  let rot := s.rf Reg.FWD_SWEEP 17 16
  let s0 := s.setRf Reg.FWD_SWEEP 17 16 (rot + 1)
  match s.fwdFind fid mac with
  | some k => (1, k, s0)
  | none =>
    match ((List.range 4).map fun w => s.fwdSlot w fid mac).find? fun k => (s.mac k).empty with
    | some k => (0, k, s0.putMac k new)
    | none =>
      let first := s.fwdNextSlot fid mac [rot, rot + 1, rot + 2, rot + 3]
      let s1 := each (match first with | some v => s.fwdPathBad 8 v [] | none => []) (fun x _ => x.fwdBad) s0
      (match first.bind fun v => (s.fwdPath 8 v []).map fun p => (v, p) with
       | some (v, p) => (0, v, (s1.fwdMoves p).putMac v new)
       | none => (3, 0, s1.fwdInsFail))

/-- INSERT (R189, R190). -/
def State.fwdInsertCmd (s : State) (i : Nat) (val : Word) : State :=
  let e := s.fwdStaged i
  if e.egress = 0 then s.fwdResult i val 4
  else
    let s0 := s.fwdDetect e.fid e.mac
    if s0.fwdParity e.fid e.mac then s0.fwdResult i val 7
    else
      let r := s0.fwdPlace e
      r.2.2.fwdResult i (if r.1 = 3 then val else putFld val 15 0 r.2.1) r.1

/-- A slot with STATIC, EGRESS and W3 rewritten (R189, UPDATE). -/
def MacSlot.update (m e : MacSlot) : MacSlot := fwdEntry m.fid m.mac e.static_ e.egress (fld e.w3 15 0) m.hit

/-- UPDATE (R189). -/
def State.fwdUpdateCmd (s : State) (i : Nat) (val : Word) : State :=
  let e := s.fwdStaged i
  if e.egress = 0 then s.fwdResult i val 4
  else
    let s0 := s.fwdDetect e.fid e.mac
    match s0.fwdFind e.fid e.mac with
    | some k => (s0.putMac k ((s0.mac k).update e)).fwdResult i (putFld val 15 0 k) 0
    | none => s0.fwdResult i val (if s0.fwdParity e.fid e.mac then 7 else 2)

/-- A slot with VALID cleared. -/
def MacSlot.drop (m : MacSlot) : MacSlot := { m with w2 := putBit m.w2 31 false }

/-- DELETE (R189). -/
def State.fwdDeleteCmd (s : State) (i : Nat) (val : Word) : State :=
  let e := s.fwdStaged i
  let s0 := s.fwdDetect e.fid e.mac
  match s0.fwdFind e.fid e.mac with
  | some k => (s0.putMac k (s0.mac k).drop).fwdResult i val 0
  | none => s0.fwdResult i val (if s0.fwdParity e.fid e.mac then 7 else 2)

/-- READ (R189): it names no key, so a bad slot is detected and returned as it stands. -/
def State.fwdReadCmd (s : State) (i : Nat) (val : Word) : State :=
  let s0 := if (s.mac (fld val 15 0)).isBad then s.fwdBad else s
  (s0.fwdReturn i (s.mac (fld val 15 0))).fwdResult i val 0

/-- FLUSH (R189). A slot that is empty or bad is left as it stands; every bad one that it reads is detected (R185). -/
def State.fwdFlushCmd (s : State) (i : Nat) (val : Word) : State :=
  let e := s.fwdStaged i
  let s1 := { s with och := { s.och with mac := s.och.mac.mapD {} fun _ m =>
    if m.valid && !m.isBad && !m.static_ && !((BitVec.ofNat 22 m.egress &&& BitVec.ofNat 22 e.egress) == 0) then m.drop else m } }
  (each (s.och.mac.filter fun p => p.2.isBad) (fun x _ => x.fwdBad) s1).fwdResult i val 0

/-- CLEAR (R189). -/
def State.fwdClearCmd (s : State) (i : Nat) (val : Word) : State := (s.putMac (fld val 15 0) {}).fwdResult i val 0

/-- A command of interface i by its OP (R189): on interface 0, LOOKUP and READ for any role, the rest for ADMIN. OP 7 is reserved. -/
def State.fwdRun (s : State) (who : Accessor) (i : Nat) (val : Word) : State :=
  let op := fld val 30 28
  if i = 0 ∧ op ≠ 0 ∧ op ≠ 4 ∧ !s.isAdmin who then s.fwdResult i val 5
  else
    match op with
    | 0 => s.fwdLookupCmd i val
    | 1 => s.fwdInsertCmd i val
    | 2 => s.fwdUpdateCmd i val
    | 3 => s.fwdDeleteCmd i val
    | 4 => s.fwdReadCmd i val
    | 5 => s.fwdFlushCmd i val
    | 6 => s.fwdClearCmd i val
    | _ => s.fwdResult i val 6

/-- A write of FWD_CMD(i) by an accessor, the command named by `op`. -/
def State.fwdWrite (s : State) (who : Accessor) (i op : Nat) (val : Word) : State :=
  s.writeCmd who (Reg.FWD_CMD i) fun x => x.fwdRun who i (putFld val 31 28 (8 + op))

/-- STATIC_ENTRY_APPLY (R189): a static entry of an applied image, an UPDATE where its key is present and otherwise an INSERT. One that cannot be
inserted, for its EGRESS or a bad slot of its key as for a full table, is counted. -/
def State.fwdApply (s : State) (e : MacSlot) : State :=
  if e.egress = 0 then s.fwdInsFail
  else
    let s0 := s.fwdDetect e.fid e.mac
    match s0.fwdFind e.fid e.mac with
    | some k => s0.putMac k ((s0.mac k).update e)
    | none => if s0.fwdParity e.fid e.mac then s0.fwdInsFail else (s0.fwdPlace e).2.2

/-- FWD_LOOKUP (R189). -/
def execFwdLookup (who : Accessor) (i : Fin 2) (val : Word) (s : State) : Host.Outcome State Fault Refusal :=
  done s (s.fwdWrite who i.val 0 val)

/-- FWD_INSERT (R190). -/
def execFwdInsert (who : Accessor) (i : Fin 2) (val : Word) (s : State) : Host.Outcome State Fault Refusal :=
  done s (s.fwdWrite who i.val 1 val)

/-- FWD_UPDATE (R189). -/
def execFwdUpdate (who : Accessor) (i : Fin 2) (val : Word) (s : State) : Host.Outcome State Fault Refusal :=
  done s (s.fwdWrite who i.val 2 val)

/-- FWD_DELETE (R189). -/
def execFwdDelete (who : Accessor) (i : Fin 2) (val : Word) (s : State) : Host.Outcome State Fault Refusal :=
  done s (s.fwdWrite who i.val 3 val)

/-- FWD_READ (R189). -/
def execFwdRead (who : Accessor) (i : Fin 2) (val : Word) (s : State) : Host.Outcome State Fault Refusal :=
  done s (s.fwdWrite who i.val 4 val)

/-- FWD_FLUSH (R189). -/
def execFwdFlush (who : Accessor) (i : Fin 2) (val : Word) (s : State) : Host.Outcome State Fault Refusal :=
  done s (s.fwdWrite who i.val 5 val)

/-- FWD_CLEAR (R189). -/
def execFwdClear (who : Accessor) (i : Fin 2) (val : Word) (s : State) : Host.Outcome State Fault Refusal :=
  done s (s.fwdWrite who i.val 6 val)

/-! ## The learning queue and aging -/

/-- A taking read of FWD_LQ_POP (R188): the oldest record goes to FWD_LQ_DATA, [31] of the answer says that one was taken. -/
def State.fwdPop (s : State) : Word × State :=
  match s.och.learn with
  | [] => (0, s)
  | r :: rest =>
    (BitVec.ofNat 32 (2147483648 + rest.length),
     each (List.range 4) (fun x w => x.setReg (Reg.FWD_LQ_DATA w) (wordAt r w)) { s with och := { s.och with learn := rest } })

/-- FWD_LQ_POP (R188): a read that takes, for an accessor whose reads take (R8, R408). -/
def execFwdLqPop (who : Accessor) (s : State) : Host.Outcome State Fault Refusal :=
  done s (s.rttRead who Reg.FWD_LQ_POP s.fwdPop)

/-- What the sweep does to slot k (R191, R185): a source lookup that hit the slot in the same cycle wins. -/
def State.sweepSlot (s : State) (k : Nat) : State :=
  let m := s.mac k
  if m.isBad then s.fwdBad.learnPost 3 0 k 0 0
  else if m.valid && !m.static_ then
    (if s.och.macHitAt = s.up ∧ k ∈ s.och.macHits then s
     else if m.hit then s.setMac k { m with w2 := putBit m.w2 29 false }
     else ((s.setMac k m.drop).learnPost 2 0 k m.fid m.mac).inc Reg.FWD_AGED)
  else s

/-- The spacing of the sweep's visits (R191): AGE_SEC seconds over 65,536 slots. -/
def State.sweepStep (s : State) : Nat := s.rf Reg.FWD_CFG 15 0 * (secU / 65536)

/-- Whether the next visit of the sweep is due and no verdict, whose source lookup would win, is due in this cycle (R191). -/
def State.sweepDue (s : State) : Bool :=
  s.rf Reg.FWD_CFG 15 0 != 0 && s.och.sweepAt + s.sweepStep ≤ s.up && !s.pkt.frames.any fun p => s.verdictDue p.2

/-- The visit that is due: the next slot in INDEX order. -/
def State.sweepVisit (s : State) : State :=
  let k := s.rf Reg.FWD_SWEEP 15 0
  let s1 := (s.sweepSlot k).setRf Reg.FWD_SWEEP 15 0 (k + 1)
  { s1 with och := { s1.och with sweepAt := s.och.sweepAt + s.sweepStep } }

/-- AGING_SWEEP_VISIT (R191). -/
def execAgingSweepVisit (s : State) : Host.Outcome State Fault Refusal := done s (if s.sweepDue then s.sweepVisit else s)

end Sys2Proof.Machine
end

