-- ==== Sys2Proof/Machine/Parser.lean ====
section
/-!
DEFINITION. The parser (R70-R74): a walk over the bytes that have arrived, which ends with what it found, or wants more bytes.
-/

namespace Sys2Proof.Machine

/-- What the parser must know beside the bytes: whether the port is on an HSR ring, whether PTP frames on it are Indigo's, the UDP port of
90-5, and the MAXLEN of the ingress. -/
structure ParseEnv where
  ring : Bool
  ptpOwn : Bool
  r905 : Nat
  maxLen : Nat

/-- A walk under way: at offset `go`'s second argument with a number of units walked; more bytes wanted; or ended with the last offset
examined. -/
inductive Parsed where
  | go (p : Parse) (at_ units : Nat)
  | more (upTo : Nat)
  | stop (p : Parse) (at_ : Nat)
  deriving DecidableEq, Repr

/-- The walk goes on from where it stands. -/
def Parsed.andThen (r : Parsed) (f : Parse → Nat → Nat → Parsed) : Parsed :=
  match r with
  | .go p i u => f p i u
  | .more n => .more n
  | .stop p i => .stop p i

/-- The walk ends out of depth (R70), or MALFORMED with a sub-code (R71). -/
def endDeep (p : Parse) (i : Nat) : Parsed := .stop { p with reason := 1 } i
def endBad (p : Parse) (i sub : Nat) : Parsed := .stop { p with reason := 2, sub := sub } i

/-- A unit is entered whose first n bytes at offset i are examined (R70): at most ten units, at most 256 bytes. -/
def enterUnit (b : List Byte) (p : Parse) (i u n : Nat) (f : Nat → Parsed) : Parsed :=
  if 10 ≤ u then endDeep p i
  else if 256 < i + n then endDeep p 256
  else if b.length < i + n then .more (i + n)
  else f (u + 1)

/-- n bytes at offset i examined inside a unit. -/
def examine (b : List Byte) (p : Parse) (i n : Nat) (f : Parsed) : Parsed :=
  if 256 < i + n then endDeep p 256 else if b.length < i + n then .more (i + n) else f

/-- A walk over tagged fields taken as part of the parser's. -/
def onWalk {α : Type} (w : Walk α) (p : Parse) (i : Nat) (f : α → Nat → Parsed) : Parsed :=
  match w with
  | .ok v n => f v n
  | .more n => if 256 < n then endDeep p 256 else .more n
  | .bad k => endBad p i k

/-! ## Link layer -/

/-- VLAN tags (R70, R71): at most two. -/
def parseVlans (b : List Byte) : Nat → Parse → Nat → Nat → Parsed
  | 0, p, i, u => .go p i u
  | fuel + 1, p, i, u =>
    if p.etype = 0x8100 ∨ p.etype = 0x88A8 then
      if 2 ≤ p.vlans.length then endBad p i 1
      else
        enterUnit b p i u 4 fun u1 =>
          parseVlans b fuel
            { p with vlans := p.vlans ++ [BitVec.ofNat 16 (beAt b i 2)], etype := BitVec.ofNat 16 (beAt b (i + 2) 2) } (i + 4) u1
    else .go p i u

/-- The Ethernet header, VLAN tags and, on a ring, the HSR tag. -/
def parseLink (e : ParseEnv) (b : List Byte) : Parsed :=
  (enterUnit b {} 0 0 14 fun u =>
    .go { da := BitVec.ofNat 48 (beAt b 0 6), sa := BitVec.ofNat 48 (beAt b 6 6), etype := BitVec.ofNat 16 (beAt b 12 2) } 14 u).andThen fun p i u =>
  (parseVlans b 3 p i u).andThen fun p i u =>
  if e.ring && p.etype = 0x892F then
    enterUnit b p i u 6 fun u1 =>
      .go { p with
        hsrSeq := some (BitVec.ofNat 16 (beAt b (i + 2) 2))
        hsrSize := beAt b i 2 % 4096
        etype := BitVec.ofNat 16 (beAt b (i + 4) 2) } (i + 6) u1
  else .go p i u

/-! ## APDUs -/

/-- NAME_DIGEST and the name of a stream or control block (R73). -/
def Parse.named (p : Parse) (n : List Byte) : Parse := { p with name := some n, digest := BitVec.ofNat 64 (crc64 n) }

/-- The fields of an SV PDU up to the contents of the first ASDU's seqData (R70). -/
def parseSv (b : List Byte) (p : Parse) (t : Tlv) (i u : Nat) : Parsed :=
  onWalk (passTag b i t.stop 0x80) p i fun n i1 =>
  if tlvNat b n < 1 || 16 < tlvNat b n then endBad p i1 10
  else
    onWalk (optTag b i1 t.stop 0x81) p i1 fun _ i2 =>
    onWalk (readTag b i2 t.stop 0xA2) p i2 fun q i3 =>
    if 10 ≤ u then endDeep p i3
    else
      onWalk (readAsdu b i3 q.stop) p i3 fun a i4 =>
      .stop ({ p with
        noAsdu := tlvNat b n
        asduAt := i3
        asduEnd := q.stop
        smpCnt := a.smpCnt
        dialect := BitVec.ofNat 8 (p.dialect.toNat + (if a.opts then 2 else 0) + (if 1 < a.smpSynch then 4 else 0)) }.named a.name) i4

/-- The fields of a GOOSE PDU up to the contents of allData (R70). -/
def parseGoose (b : List Byte) (p : Parse) (t : Tlv) (i u : Nat) : Parsed :=
  if 10 ≤ u then endDeep p i
  else
    onWalk (readTag b i t.stop 0x80) p i fun nm _ =>
    if 129 < nm.stop - nm.start then endBad p i 12
    else
      onWalk (needTo b nm.stop (.ok () nm.stop)) p i fun _ i1 =>
      onWalk (passTag b i1 t.stop 0x81) p i1 fun _ i2 =>
      onWalk (passTag b i2 t.stop 0x82) p i2 fun _ i3 =>
      onWalk (optTag b i3 t.stop 0x83) p i3 fun _ i4 =>
      onWalk (passTag b i4 t.stop 0x84) p i4 fun _ i5 =>
      onWalk (passTag b i5 t.stop 0x85) p i5 fun st i6 =>
      onWalk (passTag b i6 t.stop 0x86) p i6 fun sq i7 =>
      onWalk (optTag b i7 t.stop 0x87) p i7 fun f7 i8 =>
      onWalk (passTag b i8 t.stop 0x88) p i8 fun _ i9 =>
      onWalk (optTag b i9 t.stop 0x89) p i9 fun _ i10 =>
      onWalk (passTag b i10 t.stop 0x8A) p i10 fun _ i11 =>
      onWalk (readTag b i11 t.stop 0xAB) p i11 fun _ i12 =>
      .stop ({ p with
        stNum := tlvNat b st % 4294967296
        sqNum := tlvNat b sq % 4294967296
        f7 := match f7 with | some x => tlvNat b x != 0 | none => false }.named (tlvBytes b nm)) i12

/-- The IEC 61850 header from APPID to Reserved 2, with the extension it declares, and the APDU (R70, R71). `room` is where the UDP payload of a
routed frame ends, which encloses the Length field. The length of the IEC 62351-6 extension is the low octet of Reserved 1 and the CRC in Reserved 2
is not checked (PRESUMED, log 36); a Length that passes `room` is APDU_LEN, for which the spec names no sub-code (DESIGN CHOICE, log 148). -/
def parseApp (e : ParseEnv) (b : List Byte) (goose : Bool) (routed : Option Nat) (p : Parse) (i u : Nat) : Parsed :=
  enterUnit b p i u 8 fun u1 =>
    let len := beAt b (i + 2) 2
    let r1 := beAt b (i + 4) 2
    let ext := r1 % 256
    let p1 := { p with
      appid := some (BitVec.ofNat 16 (beAt b i 2))
      kind := (if goose then 2 else 1) + (if routed.isSome then 2 else 0)
      simHdr := 32768 ≤ r1
      extPresent := ext != 0
      appidAt := i
      lenField := len
      apdu := i + 8
      l := if routed.isSome then p.l else max 64 (i + len + 4)
      dialect := BitVec.ofNat 8 ((if 32768 ≤ r1 then 1 else 0) + (if ext != 0 then 8 else 0) + (if routed.isSome then 16 else 0)) }
    if len < 8 || e.maxLen < len then endBad p1 (i + 8) 6
    else if len < 8 + ext then endBad p1 (i + 8) 11
    else if routed.any (fun stop => decide (stop < i + len)) then endBad p1 (i + 8) 13
    else if 10 ≤ u1 then endDeep p1 (i + 8)
    else
      onWalk (readTag b (i + 8) (i + 8 + 4294967296) (if goose then 0x61 else 0x60)) p1 (i + 8) fun t i1 =>
      if t.stop + ext != i + len then endBad p1 i1 13
      else if goose then parseGoose b p1 t i1 (u1 + 1) else parseSv b p1 t i1 (u1 + 1)

/-! ## Routed frames -/

/-- The 90-5 session header (R70, R71; the layout is that of IEC 61850-90-5): transport identifier 0x01 0x40, session identifier, header
length, common header with SPDU length, SPDU number, version, times, algorithms and key identifier. -/
def parseSession (e : ParseEnv) (b : List Byte) (p : Parse) (i u udpEnd : Nat) : Parsed :=
  enterUnit b p i u 28 fun u1 =>
    let si := (byteAt b (i + 2)).toNat
    let p1 := { p with spdu := BitVec.ofNat 32 (beAt b (i + 10) 4), kind := 6 }
    if i + 10 + beAt b (i + 6) 4 != udpEnd || beAt b (i + 14) 2 < 1 || 2 < beAt b (i + 14) 2 then endBad p1 (i + 28) 5
    else if si = 0xA1 then parseApp e b true (some udpEnd) p1 (i + 28) u1
    else if si = 0xA2 then parseApp e b false (some udpEnd) p1 (i + 28) u1
    else .stop { p1 with dialect := 16 } (i + 28)

/-- UDP and TCP headers (R70, R71); `stop` is where the IP payload ends. -/
def parseL4 (e : ParseEnv) (b : List Byte) (p : Parse) (i u stop : Nat) : Parsed :=
  if p.proto = some 17 then
    if stop < i + 8 then endBad p i 4
    else
      enterUnit b p i u 8 fun u1 =>
        let p1 := { p with l4 := some (BitVec.ofNat 16 (beAt b i 2), BitVec.ofNat 16 (beAt b (i + 2) 2)) }
        if beAt b (i + 4) 2 < 8 || stop < i + beAt b (i + 4) 2 then endBad p1 (i + 8) 4
        else if beAt b (i + 2) 2 = e.r905 then parseSession e b p1 (i + 8) u1 (i + beAt b (i + 4) 2)
        else .stop p1 (i + 8)
  else if p.proto = some 6 then
    if stop < i + 20 then endBad p i 4
    else
      enterUnit b p i u 20 fun _ =>
        let n := (byteAt b (i + 12)).toNat / 16 * 4
        let p1 := { p with l4 := some (BitVec.ofNat 16 (beAt b i 2), BitVec.ofNat 16 (beAt b (i + 2) 2)) }
        if n < 20 || stop < i + n then endBad p1 (i + 20) 4 else examine b p1 i n (.stop p1 (i + n))
  else .stop p i

/-- The one's complement sum of n bytes at an offset, two by two (the IPv4 header checksum). -/
def sum16 (b : List Byte) (i n : Nat) : Nat :=
  let s := ((List.range (n / 2)).map fun k => beAt b (i + 2 * k) 2).sum
  let f := s % 65536 + s / 65536
  f % 65536 + f / 65536

/-- The IPv4 header (R71). -/
def parseIp4 (e : ParseEnv) (b : List Byte) (p : Parse) (i u : Nat) : Parsed :=
  enterUnit b p i u 20 fun u1 =>
    let ihl := (byteAt b i).toNat % 16 * 4
    let total := beAt b (i + 2) 2
    if (byteAt b i).toNat / 16 != 4 || ihl < 20 then endBad p (i + 20) 2
    else
      examine b p i ihl (
        let p1 := { p with
          ip4 := some (BitVec.ofNat 32 (beAt b (i + 12) 4), BitVec.ofNat 32 (beAt b (i + 16) 4))
          proto := some (byteAt b (i + 9))
          l := max 64 (i + total + 4) }
        if sum16 b i ihl != 65535 then endBad p1 (i + ihl) 2
        else if beAt b (i + 6) 2 % 16384 != 0 then endBad p1 (i + ihl) 3
        else if total < ihl then endBad p1 (i + ihl) 4
        else parseL4 e b p1 (i + ihl) u1 (i + total))

/-- The IPv6 extension headers (R70): a fragment header marks a fragmented datagram. -/
def parseExts (e : ParseEnv) (b : List Byte) (stop : Nat) : Nat → Parse → Nat → Nat → Parsed
  | 0, p, i, _ => endDeep p i
  | fuel + 1, p, i, u =>
    match p.proto with
    | some nh =>
      if nh = 44 then endBad p i 3
      else if nh = 0 ∨ nh = 43 ∨ nh = 60 ∨ nh = 51 then
        if stop < i + 8 then endBad p i 4
        else
          enterUnit b p i u 8 fun u1 =>
            let n := if nh = 51 then ((byteAt b (i + 1)).toNat + 2) * 4 else ((byteAt b (i + 1)).toNat + 1) * 8
            let p1 := { p with proto := some (byteAt b i) }
            if stop < i + n then endBad p1 (i + 8) 4 else examine b p1 i n (parseExts e b stop fuel p1 (i + n) u1)
      else parseL4 e b p i u stop
    | none => .stop p i

/-- The IPv6 fixed header (R71). -/
def parseIp6 (e : ParseEnv) (b : List Byte) (p : Parse) (i u : Nat) : Parsed :=
  enterUnit b p i u 40 fun u1 =>
    let len := beAt b (i + 4) 2
    let p1 := { p with
      ip6 := some (BitVec.ofNat 128 (beAt b (i + 8) 16), BitVec.ofNat 128 (beAt b (i + 24) 16))
      proto := some (byteAt b (i + 6))
      l := max 64 (i + 40 + len + 4) }
    if (byteAt b i).toNat / 16 != 6 then endBad p (i + 40) 2 else parseExts e b (i + 40 + len) 11 p1 (i + 40) u1

/-! ## The whole walk -/

/-- The walk over the bytes received (R70). Frames of other EtherTypes end after the EtherType. -/
def parseFrame (e : ParseEnv) (bytes : List Byte) : Parsed :=
  let b := bytes.take 256
  (parseLink e b).andThen fun p i u =>
  if p.etype = 0x88BA then parseApp e b false none p i u
  else if p.etype = 0x88B8 then parseApp e b true none p i u
  else if p.etype = 0x0800 then parseIp4 e b p i u
  else if p.etype = 0x86DD then parseIp6 e b p i u
  else .stop (if p.etype = 0x88F7 then { p with kind := 5 } else p) i

/-- The parse of a frame whose tail has arrived: a walk that still wants bytes is TRUNCATED (R71). -/
def parseWhole (e : ParseEnv) (bytes : List Byte) : Parse × Nat :=
  match parseFrame e bytes with
  | .stop p i => (p, i)
  | .go p i _ => (p, i)
  | .more _ => ({ (match parseLink e (bytes.take 256) with | .go p _ _ => p | .stop p _ => p | .more _ => {}) with reason := 2, sub := 14 },
                bytes.length)

/-- TEST and SIMULATED of a frame under a result's GOOSE_ED (R74). -/
def Parse.isTest (p : Parse) (ed2 : Bool) : Bool := p.f7 && !ed2
def Parse.isSim (p : Parse) (ed2 : Bool) : Bool := p.simHdr || (p.f7 && ed2)

end Sys2Proof.Machine
end

