-- ==== Sys2Proof/Machine/Classifier.lean ====
section
/-!
DEFINITION. The classifier (R75-R86): keys, lookups, the command interfaces, default actions, the stranger log, policing.
-/

namespace Sys2Proof.Machine

/-! ## Keys and slots (R75, R76) -/

/-- Buckets of table t. -/
def State.clsBuckets (s : State) (t : Nat) : Nat := s.rf (Reg.CLS_TBL_CFG t) 6 0 * 256

/-- Field code number i of the profile of table t. -/
def State.profileCode (s : State) (t i : Nat) : Nat :=
  s.rf (if i < 4 then Reg.CLS_PROFILE_LO t else Reg.CLS_PROFILE_HI t) (8 * (i % 4) + 7) (8 * (i % 4))

/-- The codes of a profile up to its end. -/
def State.profile (s : State) (t : Nat) : List Nat := ((List.range 8).map (s.profileCode t)).takeWhile (· != 0)

/-- A key field: its bytes, most significant first, where the frame has it, and how many bytes it takes. -/
def keyField (port : Nat) (p : Parse) (c : Nat) : Option (List Byte) × Nat :=
  let vlan := fun (i : Nat) => (p.vlans[i]?).map fun v => beBytes 2 (v.toNat % 4096)
  match c with
  | 1 => (some [BitVec.ofNat 8 port], 1)
  | 2 => (vlan 0, 2)
  | 3 => (vlan 1, 2)
  | 4 => (some (beBytes 6 p.da.toNat), 6)
  | 5 => (some (beBytes 6 p.sa.toNat), 6)
  | 6 => (some (beBytes 2 p.etype.toNat), 2)
  | 7 => (p.appid.map fun a => beBytes 2 a.toNat, 2)
  | 8 => (p.ip4.map fun a => beBytes 4 a.1.toNat, 4)
  | 9 => (p.ip4.map fun a => beBytes 4 a.2.toNat, 4)
  | 10 => (p.ip6.map fun a => beBytes 16 a.1.toNat, 16)
  | 11 => (p.ip6.map fun a => beBytes 16 a.2.toNat, 16)
  | 12 => (p.proto.map fun a => [a], 1)
  | 13 => (p.l4.map fun a => beBytes 2 a.1.toNat, 2)
  | 14 => (p.l4.map fun a => beBytes 2 a.2.toNat, 2)
  | 15 => (p.name.map fun _ => beBytes 8 p.digest.toNat, 8)
  | 16 => (some [BitVec.ofNat 8 p.kind], 1)
  | _ => (none, 0)

/-- PRESENT (R76): bit i for the i-th field of the profile. -/
def presentBits (port : Nat) (p : Parse) (codes : List Nat) : Nat :=
  ((List.range codes.length).map fun i =>
    if codes.getD i 0 = 17 ∨ (keyField port p (codes.getD i 0)).1.isSome then 2 ^ i else 0).sum

/-- The 40 bytes of a frame's key under a profile (R76). -/
def keyBytes (port : Nat) (p : Parse) (codes : List Nat) : List Byte :=
  let b := codes.flatMap fun c =>
    if c = 17 then [BitVec.ofNat 8 (presentBits port p codes)]
    else (keyField port p c).1.getD (List.replicate (keyField port p c).2 0)
  (b ++ List.replicate 40 0).take 40

/-- The two candidate buckets of a key in table t (R75). -/
def State.clsBucketsOf (s : State) (t : Nat) (key : List Byte) : Nat × Nat :=
  let seed := s.rf (Reg.CLS_TBL_CFG t) 31 16
  (crc32c seed key * s.clsBuckets t / two32, crc32 seed key * s.clsBuckets t / two32)

/-- The INDEXes of the slots of bucket b of a table. -/
def bucketSlots (b : Nat) : List Nat := (List.range 4).map fun i => 4 * b + i

/-- Slot n of table t. -/
def State.slotOf (s : State) (t n : Nat) : ClsSlot := s.clsSlot (131072 * t + n)

/-- Slot n of table t written, and with it the retained copy (R352). -/
def State.setSlotOf (s : State) (t n : Nat) (x : ClsSlot) : State :=
  let s1 := s.setClsSlot (131072 * t + n) x
  { s1 with cfg := { s1.cfg with retCls := s1.cfg.retCls.sd {} (131072 * t + n) x } }

/-- A key as a slot holds it. -/
def keyNat (key : List Byte) : BitVec 320 := BitVec.ofNat 320 (leNat key)

/-- The INDEX of the slot of table t that holds a key: an entry in error is a miss (R77). -/
def State.clsFind (s : State) (t : Nat) (key : List Byte) : Option Nat :=
  let b := s.clsBucketsOf t key
  (bucketSlots b.1 ++ bucketSlots b.2).find? fun n =>
    s.clsBuckets t != 0 && (s.slotOf t n).valid && !(s.slotOf t n).bad && (s.slotOf t n).key == keyNat key

/-- Whether an entry in error holds the key (R77). -/
def State.clsBad (s : State) (t : Nat) (key : List Byte) : Bool :=
  let b := s.clsBucketsOf t key
  s.clsBuckets t != 0 && ((bucketSlots b.1 ++ bucketSlots b.2).any fun n =>
    (s.slotOf t n).valid && (s.slotOf t n).bad && (s.slotOf t n).key == keyNat key)

/-- Word i of a result. -/
def resWord (r : BitVec 192) (i : Nat) : Word := BitVec.ofNat 32 (r.toNat / 2 ^ (32 * i))
def resWords (r : BitVec 192) : List Word := (List.range 6).map (resWord r)

/-! ## Lookup of a frame (R76-R78) -/

/-- The lookup of a frame in table t: the result, where it hits, and the state with what the lookup counts (R77). -/
def State.clsTable (s : State) (t port : Nat) (p : Parse) : Option (BitVec 192) × State :=
  if tbit (s.reg (Reg.CLS_KIND_MASK t)) p.kind then
    let key := keyBytes port p (s.profile t)
    let s1 := if s.clsBad t key then (s.inc Reg.CLS_ECC_MISS).sqc Reg.CLS_STATUS 2 133 else s
    match s.clsFind t key with
    | some n =>
      let r := (s.slotOf t n).res
      let want := fld (resWord r 2) 31 24
      if want != 0 && want != (match p.name with | some x => x.length % 256 | none => 0) then (none, s1.inc Reg.CLS_NAME_COLL)
      else (some r, s1)
    | none => (none, s1)
  else (none, s)

/-- Both tables searched at once: A before B (R77). HIT and the result, HIT 0 for a miss. -/
def State.clsSearch (s : State) (port : Nat) (p : Parse) : (Nat × List Word) × State :=
  let a := s.clsTable 0 port p
  let b := a.2.clsTable 1 port p
  match a.1, b.1 with
  | some r, _ => ((1, resWords r), b.2)
  | none, some r => ((2, resWords r), b.2)
  | none, none => ((0, []), b.2)

/-- Whether DIALECT breaks what a result asks of it (R74). -/
def dialectBad (w5 : Word) (d : Nat) : Bool :=
  (BitVec.ofNat 8 d &&& BitVec.ofNat 8 (fld w5 15 8)) != 0 || (BitVec.ofNat 8 d &&& BitVec.ofNat 8 (fld w5 7 0)) != BitVec.ofNat 8 (fld w5 7 0)

/-- A default action of port p as a result (R78, R82, R226): the ports, segments and their defaults are those of PORT_ID 0-19; any other ingress
has no defaults and drops. -/
def State.defaultRes (s : State) (port : Nat) (fail : Bool) : List Word :=
  if port < 20 then
    let d := s.reg (Reg.CLS_PORT_DEF port)
    let act := if fail then fld d 27 24 else fld d 31 28
    let flood := s.rf (Reg.CLS_PORT_FLOOD port) 21 0
    let eg := if act = 1 then 1048576 else if act = 3 then flood - (if flood / 2 ^ port % 2 = 1 then 2 ^ port else 0) else 0
    [BitVec.ofNat 32 (act * 268435456 + fld d 23 22 * 67108864 + fld d 21 19 * 8388608 + fld d 18 16 * 1048576), BitVec.ofNat 32 (fld d 15 10),
     BitVec.ofNat 32 eg, 0, 0, 0]
  else [0, 0, 0, 0, 0, 0]

/-! ## Commands (R80, R81) -/

/-- Whether a result holds a reserved value (R79). -/
def badResult (r : List Word) : Bool := 3 < fld (wordAt r 0) 31 28 || 8 < fld (wordAt r 0) 15 12 || fld (wordAt r 1) 19 18 = 3

/-- The key and the result staged on interface i. -/
def State.clsKey (s : State) (i : Nat) : List Byte := wordsBytes ((List.range 10).map fun w => s.reg (Reg.CLS_CMD_KEY i w))
def State.clsRes (s : State) (i : Nat) : List Word := (List.range 6).map fun w => s.reg (Reg.CLS_CMD_RES i w)

/-- A result returned in the staging registers. -/
def State.clsReturn (s : State) (i : Nat) (r : List Word) : State :=
  each (List.range 6) (fun x w => x.setReg (Reg.CLS_CMD_RES i w) (wordAt r w)) s

/-- The end of a command on interface i. -/
def State.clsResult (s : State) (i : Nat) (val : Word) (res : Nat) : State :=
  (s.setReg (Reg.CLS_CMD i) (putFld (putBit val 31 false) 26 16 0)).setReg (Reg.CLS_CMD_STATUS i) (BitVec.ofNat 32 res)

/-- Free slots of a bucket. -/
def State.freeSlots (s : State) (t b : Nat) : List Nat := (bucketSlots b).filter fun n => !(s.slotOf t n).valid

/-- A result as a slot holds it: its reserved bits are zero (R9, R79). -/
def resNat (r : List Word) : BitVec 192 :=
  BitVec.ofNat 192 (wordsNat [wordAt r 0 &&& 0xFFFFFDFF#32, wordAt r 1 &&& 0xFFFFFFBF#32, wordAt r 2 &&& 0xFF3FFFFF#32, wordAt r 3, wordAt r 4,
    wordAt r 5 &&& 0x0003FFFF#32])

/-- The slot that INSERT takes (R81): the lowest free one of the less-full candidate bucket, the first bucket in a tie. -/
def State.clsPlace (s : State) (t : Nat) (key : List Byte) : Option Nat :=
  let b := s.clsBucketsOf t key
  let f1 := s.freeSlots t b.1
  let f2 := s.freeSlots t b.2
  if f1.length < f2.length then f2.head? else f1.head?

/-- INSERT refused for want of a free slot (R81, EV134). -/
def State.clsFull (s : State) : State := (s.inc Reg.CLS_INS_FAIL).sqc Reg.CLS_STATUS 3 134

/-- LOOKUP and DELETE find a key; an entry in error is a miss. -/
def State.clsLookupCmd (s : State) (i t : Nat) (val : Word) : State :=
  match s.clsFind t (s.clsKey i) with
  | some n => (s.clsReturn i (resWords (s.slotOf t n).res)).clsResult i (putFld val 15 0 n) 0
  | none => s.clsResult i val 2

/-- INSERT (R79, R81). Where two codes apply, BAD_RESULT comes before EXISTS, and for UPDATE before NOT_FOUND (DESIGN CHOICE, log 149). -/
def State.clsInsertCmd (s : State) (i t : Nat) (val : Word) : State :=
  let key := s.clsKey i
  if badResult (s.clsRes i) then s.clsResult i val 4
  else if (s.clsFind t key).isSome then s.clsResult i val 1
  else
    match s.clsPlace t key with
    | some n => (s.setSlotOf t n { valid := true, bad := false, key := keyNat key, res := resNat (s.clsRes i) }).clsResult i (putFld val 15 0 n) 0
    | none => s.clsFull.clsResult i val 3

/-- UPDATE (R79, R81), with the order of codes of log 149. -/
def State.clsUpdateCmd (s : State) (i t : Nat) (val : Word) : State :=
  if badResult (s.clsRes i) then s.clsResult i val 4
  else
    match s.clsFind t (s.clsKey i) with
    | some n => (s.setSlotOf t n { s.slotOf t n with res := resNat (s.clsRes i) }).clsResult i val 0
    | none => s.clsResult i val 2

/-- DELETE (R81). -/
def State.clsDeleteCmd (s : State) (i t : Nat) (val : Word) : State :=
  match s.clsFind t (s.clsKey i) with
  | some n => (s.setSlotOf t n { s.slotOf t n with valid := false }).clsResult i val 0
  | none => s.clsResult i val 2

/-- READ (R81): an INDEX outside the table is BAD_INDEX, a slot that is not VALID is NOT_FOUND. The slot's key comes back in the key staging
registers beside the result (DESIGN CHOICE, log 149). -/
def State.clsReadCmd (s : State) (i t : Nat) (val : Word) : State :=
  let n := fld val 15 0
  if s.clsBuckets t * 4 ≤ n then s.clsResult i val 6
  else if !(s.slotOf t n).valid then s.clsResult i val 2
  else
    (each (List.range 10) (fun x w => x.setReg (Reg.CLS_CMD_KEY i w) (BitVec.ofNat 32 ((s.slotOf t n).key.toNat / 2 ^ (32 * w)))) s
      |>.clsReturn i (resWords (s.slotOf t n).res)).clsResult i val 0

/-- A command of interface i (R80, R81). -/
def State.clsRun (s : State) (who : Accessor) (i : Nat) (val : Word) : State :=
  let op := fld val 30 28
  let t := fld val 27 27
  if 4 < op then s.clsResult i val 6
  else if i = 0 && op != 0 && op != 4 && !s.isAdmin who then s.clsResult i val 5
  else if s.clsBuckets t = 0 then s.clsResult i val 6
  else
    match op with
    | 0 => s.clsLookupCmd i t val
    | 1 => s.clsInsertCmd i t val
    | 2 => s.clsUpdateCmd i t val
    | 3 => s.clsDeleteCmd i t val
    | 4 => s.clsReadCmd i t val
    | _ => s.clsResult i val 6

/-- A write of CLS_CMD(i) by an accessor, the command named by `op`. -/
def State.clsWrite (s : State) (who : Accessor) (i op : Nat) (val : Word) : State :=
  s.writeCmd who (Reg.CLS_CMD i) fun x => x.clsRun who i (putFld val 31 28 (8 + op))

/-- ENTRY_APPLY (R80): an ENTRY record of an applied image, an UPDATE where its key is present and otherwise an INSERT. -/
def State.clsApply (s : State) (t : Nat) (key : List Byte) (res : List Word) : State :=
  match s.clsFind t key with
  | some n => s.setSlotOf t n { s.slotOf t n with res := resNat res }
  | none =>
    match s.clsPlace t key with
    | some n => s.setSlotOf t n { valid := true, bad := false, key := keyNat key, res := resNat res }
    | none => s.clsFull

/-- CLS_LOOKUP (R81). -/
def execClsLookup (who : Accessor) (i : Fin 2) (val : Word) (s : State) : Host.Outcome State Fault Refusal := done s (s.clsWrite who i.val 0 val)

/-- CLS_INSERT (R81). -/
def execClsInsert (who : Accessor) (i : Fin 2) (val : Word) (s : State) : Host.Outcome State Fault Refusal := done s (s.clsWrite who i.val 1 val)

/-- CLS_UPDATE (R81). -/
def execClsUpdate (who : Accessor) (i : Fin 2) (val : Word) (s : State) : Host.Outcome State Fault Refusal := done s (s.clsWrite who i.val 2 val)

/-- CLS_DELETE (R81). -/
def execClsDelete (who : Accessor) (i : Fin 2) (val : Word) (s : State) : Host.Outcome State Fault Refusal := done s (s.clsWrite who i.val 3 val)

/-- CLS_READ (R81). -/
def execClsRead (who : Accessor) (i : Fin 2) (val : Word) (s : State) : Host.Outcome State Fault Refusal := done s (s.clsWrite who i.val 4 val)

/-! ## Buckets and policing (R83, R85, R86) -/

/-- One token, in units of a bucket. -/
def tokenU : Nat := 16777216

/-- The tokens of a bucket now: a bucket never used stands at its burst. -/
def Bucket.now (b : Bucket) (rate burst up : Nat) : Nat :=
  if b.used then min (burst * tokenU) (b.tok + (up - b.at_) * rate * tokenU / secU) else burst * tokenU

/-- The bucket after one token is taken. -/
def Bucket.take (b : Bucket) (rate burst up : Nat) : Bucket := { used := true, tok := b.now rate burst up - tokenU, at_ := up }

/-- The default RATE of a port policer (R86): line rate / 2,208 bits, rounded down; nothing for a port that is disabled. -/
def State.lineRate (s : State) (p : Nat) : Nat :=
  if p < 16 then
    (match s.rf (Reg.ETH_PORT_CFG p) 31 29 with
     | 1 => 25000000000 / 2208
     | 2 => 10000000000 / 2208
     | 3 => 1000000000 / 2208
     | 4 => 1000000000 / 2208
     | _ => 0)
  else 10000000 / 2208

/-- RATE and BURST of a port policer (R86), and of a flow policer (R85). -/
def State.portRate (s : State) (p : Nat) : Nat × Nat :=
  if s.ing.polSet.gd false p then (s.rf (Reg.CLS_PORT_POL p) 23 0, s.rf (Reg.CLS_PORT_POL p) 31 24) else (s.lineRate p, 64)
def State.flowRate (s : State) (i : Nat) : Nat × Nat := (s.rf (Reg.CLS_FLOW_POL i 0) 23 0, s.rf (Reg.CLS_FLOW_POL i 0) 31 24)

/-- The policing of frame f (R85): whether every bucket that applies holds a token, with one taken from each if so. -/
def State.police (s : State) (f : Nat) : Bool × State :=
  let x := s.frame f
  let w0 := x.resW 0
  let i := fld w0 8 0
  let flow := !x.dflt && s.rb (Reg.CLS_FLOW_POL i 1) 0
  let port := x.port < 20 && (x.dflt || !tbit w0 11)
  let rf := s.flowRate i
  let rp := s.portRate x.port
  if x.act = 0 then (true, s)
  else if (flow && (s.flowPol i).now rf.1 rf.2 s.up < tokenU) || (port && (s.portPol x.port).now rp.1 rp.2 s.up < tokenU) then (false, s)
  else
    let s1 := if flow then s.setFlowPol i ((s.flowPol i).take rf.1 rf.2 s.up) else s
    (true, if port then s1.setPortPol x.port ((s.portPol x.port).take rp.1 rp.2 s.up) else s1)

/-! ## The stranger log (R83, R84) -/

/-- What names a stranger: PORT_ID, source MAC, APPID and NAME_DIGEST, the last two zero on a field segment. -/
def State.strangerKey (s : State) (f : Nat) : BitVec 16 × BitVec 64 :=
  let x := s.frame f
  if 16 ≤ x.port && x.port < 20 then (0, 0) else (x.par.appid.getD 0, x.par.digest)

/-- Whether a record is of the stranger that frame f comes from. -/
def State.sameStranger (s : State) (f : Nat) (r : Stranger) : Bool :=
  let x := s.frame f
  r.port.toNat == x.port && r.mac == x.par.sa && r.appid == (s.strangerKey f).1 && r.digest == (s.strangerKey f).2

/-- The record of a new stranger. -/
def State.newStranger (s : State) (f : Nat) : Stranger :=
  let x := s.frame f
  { port := BitVec.ofNat 5 x.port, kind := BitVec.ofNat 3 x.par.kind
    nameLen := BitVec.ofNat 8 (match x.par.name with | some n => n.length | none => 0)
    appid := (s.strangerKey f).1, mac := x.par.sa, vid := BitVec.ofNat 12 (match x.par.vlans with | v :: _ => v.toNat | [] => 0)
    digest := (s.strangerKey f).2, first := s.time, last := s.time, count := 1 }

/-- Whether record i of the log is that of the stranger of frame f. -/
def State.strangerIs (s : State) (f i : Nat) : Bool := match s.stranger i with | some r => s.sameStranger f r | none => false

/-- Whether the record of the stranger of frame f was cleared in this very cycle (R83). -/
def State.strangerGone (s : State) (f : Nat) : Bool := s.ing.strGoneAt == s.up && s.ing.strGone.any (s.sameStranger f)

/-- A stranger (R83). An update in the cycle in which its record is cleared leaves the record cleared. A new stranger takes the lowest free record;
with the log full it is an overflow whether or not the bucket holds a token, and STR_FULL rises at the first overflow (DESIGN CHOICE, log 150). -/
def State.noteStranger (s : State) (f : Nat) : State :=
  let rate := s.rf Reg.CLS_STR_CFG 7 0
  if s.strangerGone f then s
  else
  match (List.range 256).find? fun i => s.strangerIs f i with
  | some i => s.setStranger i ((s.stranger i).map fun r => { r with last := s.time, count := min (r.count + 1) 4294967295 })
  | none =>
    match (List.range 256).find? fun i => (s.stranger i).isNone with
    | none => (s.inc Reg.CLS_STR_OVF).sqc Reg.CLS_STATUS 1 132
    | some i =>
      if s.ing.strBucket.now rate 16 s.up < tokenU then s.inc Reg.CLS_STR_RATE_DROP
      else
        ({ s with ing := { s.ing with strBucket := s.ing.strBucket.take rate 16 s.up } }.setStranger i (some (s.newStranger f))).sqc
          Reg.CLS_STATUS 0 131

/-- The words of a stranger record (R84). -/
def Stranger.words (r : Stranger) : List Word :=
  [BitVec.ofNat 32 (r.port.toNat * 134217728 + r.kind.toNat * 16777216 + r.nameLen.toNat * 65536 + r.appid.toNat),
   BitVec.ofNat 32 r.mac.toNat, BitVec.ofNat 32 (r.vid.toNat * 65536 + r.mac.toNat / 4294967296)] ++ natWords 2 r.digest.toNat ++
  timeWords r.first ++ timeWords r.last ++ [BitVec.ofNat 32 r.count]

/-- STRANGER_SELECT (R84): an empty record reads as zeros. -/
def execStrangerSelect (who : Accessor) (val : Word) (s : State) : Host.Outcome State Fault Refusal :=
  done s (s.writeCmd who Reg.CLS_STR_SEL fun x =>
    let ws := match x.stranger (fld val 7 0) with | some r => r.words | none => []
    each (List.range 12) (fun y i => y.setReg (Reg.CLS_STR_DATA i) (wordAt ws i)) (x.setReg Reg.CLS_STR_SEL (BitVec.ofNat 32 (fld val 7 0))))

/-- STRANGER_CLEAR (R83): one record, or all of them. -/
def execStrangerClear (who : Accessor) (val : Word) (s : State) : Host.Outcome State Fault Refusal :=
  done s (s.writeCmd who Reg.CLS_STR_CLR fun x =>
    let gone := if tbit val 8 then x.ing.strangers.filterMap (·.2) else (x.stranger (fld val 7 0)).toList
    let y := { x with ing := { x.ing with
      strGone := (if x.ing.strGoneAt = x.up then x.ing.strGone else []) ++ gone, strGoneAt := x.up } }
    if tbit val 8 then { y with ing := { y.ing with strangers := [] } } else y.setStranger (fld val 7 0) none)

end Sys2Proof.Machine
end

