-- ==== Sys2Proof/Machine/Planes.lean ====
section
/-!
DEFINITION. The angle grid and the history of an angle clock (R121), and the SV streams bound to it (R115-R118): exact fractions, the value of
a clock at a device time, the device time of a value, the fields of a stream, and the start of a stream's run.
-/

namespace Sys2Proof.Machine

/-! ## Fractions -/

/-- An exact fraction; `den` is never zero where the operations below make it. -/
structure Frac where
  num : Int
  den : Nat
  deriving DecidableEq, Repr

/-- An integer as a fraction. -/
def Frac.ofInt (z : Int) : Frac := ⟨z, 1⟩

/-- Sum, difference and product of fractions. -/
def Frac.add (a b : Frac) : Frac := ⟨a.num * b.den + b.num * a.den, a.den * b.den⟩
def Frac.sub (a b : Frac) : Frac := ⟨a.num * b.den - b.num * a.den, a.den * b.den⟩
def Frac.mul (a b : Frac) : Frac := ⟨a.num * b.num, a.den * b.den⟩

/-- A fraction divided by a positive one. -/
def Frac.div (a b : Frac) : Frac := ⟨a.num * b.den, a.den * b.num.toNat⟩

/-- Order of fractions. -/
def Frac.le (a b : Frac) : Bool := a.num * b.den ≤ b.num * a.den
def Frac.lt (a b : Frac) : Bool := a.num * b.den < b.num * a.den

/-- The greatest integer not above a fraction. -/
def Frac.floor (a : Frac) : Int := a.num / (a.den : Int)

/-- The nearest integer, ties up (R121). -/
def Frac.nearUp (a : Frac) : Int := (2 * a.num + a.den) / (2 * (a.den : Int))

/-- The nearest integer, ties away from zero (R122). -/
def Frac.nearAway (a : Frac) : Int := divNearAway a.num a.den

/-! ## The history of a clock -/

/-- The points (device time, value) of a clock's history, newest first, headed by its value now. -/
def State.aclkPoints (s : State) (n : Nat) : List (Nat × Nat) := (s.time, (s.aclk n).val) :: (s.aclk n).hist

/-- Neighbouring points, the newer first. -/
def pairs {α : Type} : List α → List (α × α)
  | a :: b :: l => (a, b) :: pairs (b :: l)
  | _ => []

/-- The value of clock n at device time t (R121), in the units of `AngleClock.val`: on the straight line between the points that enclose t;
none before its run, after now, or in a span that a step skipped or made two ticks carry. -/
def State.theta (s : State) (n : Nat) (t : Frac) : Option Frac :=
  let ps := pairs (s.aclkPoints n)
  let twice := ps.any fun p => p.1.1 < p.2.1 && Frac.le ⟨p.1.1, 1⟩ t && Frac.le t ⟨p.2.1, 1⟩
  if twice then none
  else
    match ps.find? fun p => p.2.1 < p.1.1 && p.2.2 < p.1.2 && Frac.le ⟨p.2.1, 1⟩ t && Frac.le t ⟨p.1.1, 1⟩ with
    | some (b, a) => some (Frac.add ⟨a.2, 1⟩ (Frac.mul (Frac.sub t ⟨a.1, 1⟩) ⟨(b.2 : Int) - a.2, b.1 - a.1⟩))
    | none => none

/-- The device time at which clock n reached a value, none where its history does not hold it. -/
def State.timeOfVal (s : State) (n : Nat) (v : Nat) : Option Frac :=
  match (pairs (s.aclkPoints n)).find? fun p => p.2.1 < p.1.1 && p.2.2 < p.1.2 && p.2.2 ≤ v && v ≤ p.1.2 with
  | some (b, a) => some (Frac.add ⟨a.1, 1⟩ (Frac.mul ⟨(v : Int) - a.2, 1⟩ ⟨(b.1 : Int) - a.1, b.2 - a.2⟩))
  | none => none

/-- The value of grid point g for G points a cycle (R121), in the units of `AngleClock.val`. -/
def gridVal (g G : Nat) : Nat := (g / G * 4294967296 + g % G * 4294967296 / G) * 1000000000

/-- The first grid point at or after a value. -/
def firstGrid (v G : Nat) : Nat :=
  let c := v / cycU
  c * G + ((List.range G).find? fun j => v ≤ gridVal (c * G + j) G).getD G

/-! ## Streams -/

/-- Fields of a stream's image words (R140). -/
def Stream.en (x : Stream) : Bool := tbit (wordAt x.w 0) 31
def Stream.rate (x : Stream) : Nat :=
  match fld (wordAt x.w 0) 30 29 with
  | 0 => 4000 | 1 => 4800 | 2 => 12800 | _ => 14400
def Stream.nch (x : Stream) : Nat := fld (wordAt x.w 0) 28 25 + 1
def Stream.layout (x : Stream) : Nat := fld (wordAt x.w 0) 24 24
def Stream.aclk (x : Stream) : Nat := fld (wordAt x.w 0) 23 20
def Stream.taps (x : Stream) : Nat := if tbit (wordAt x.w 0) 19 then 8 else 4
def Stream.gapPol (x : Stream) : Nat := fld (wordAt x.w 0) 18 17
def Stream.maxGap (x : Stream) : Nat := fld (wordAt x.w 0) 16 15
def Stream.unsyncPol (x : Stream) : Bool := tbit (wordAt x.w 0) 14
def Stream.questValid (x : Stream) : Bool := tbit (wordAt x.w 0) 13
def Stream.csBase (x : Stream) : Nat := fld (wordAt x.w 0) 12 0
def Stream.confRev (x : Stream) : Word := wordAt x.w 1
def Stream.dueUs (x : Stream) : Nat := fld (wordAt x.w 2) 27 16
def Stream.fillN (x : Stream) : Nat := fld (wordAt x.w 2) 15 8
def Stream.toff (x : Stream) : Int := wordInt (wordAt x.w 3)
def Stream.merge (x : Stream) : Bool := tbit (wordAt x.w 4) 31
def Stream.mergeA (x : Stream) : Nat := fld (wordAt x.w 4) 19 10
def Stream.mergeB (x : Stream) : Nat := fld (wordAt x.w 4) 9 0
def Stream.disThr (x : Stream) : Nat := fld (wordAt x.w 5) 23 0
def Stream.shift (x : Stream) (i : Nat) : Nat := nfld ((wordAt x.w 6).toNat + 4294967296 * (wordAt x.w 7).toNat) (4 * i + 3) (4 * i)

/-- Octets of one channel in a dataset (R116). -/
def Stream.entry (x : Stream) : Nat := if x.layout = 0 then 8 else 4

/-- The streams that the store lists and that are enabled, in ascending index. -/
def State.streamsOn (s : State) : List Nat := ((s.spe.streams.filter fun p => p.2.en).map Prod.fst)

/-- The code of a stream state (R118). -/
def streamCode : StreamSt → Nat
  | .disabled => 0 | .waitClock => 1 | .running => 2 | .paused => 3

/-- A stream in a state, with its bit of SPE_PAUSE_MAP. -/
def State.setStreamSt (s : State) (k : Nat) (x : StreamSt) : State :=
  (s.setStream k { s.stream k with st := x }).setRb (Reg.SPE_PAUSE_MAP (k / 32)) (k % 32) (x == .paused)

/-- The lowest number from n on that a list does not hold. -/
def skipHeld (l : List Nat) : Nat → Nat → Nat
  | 0, n => n
  | fuel + 1, n => if l.contains n then skipHeld l fuel (n + 1) else n

/-- The grid point after the newest that a stream has written: HEAD + 1, unwrapped (R135). -/
def Stream.fin (x : Stream) : Nat := match x.next with | some n => x.ahead.foldl (fun m g => max m (g + 1)) n | none => 0

/-- Whether stream k has written cell g in its present run. -/
def Stream.wrote (x : Stream) (g : Nat) : Bool := match x.next with | some n => x.base ≤ g && (g < n || x.ahead.contains g) | none => false

/-- A stream with cell g among those it has written. -/
def Stream.putWritten (x : Stream) (g : Nat) : Stream :=
  match x.next with
  | some n =>
    let l := g :: x.ahead
    let m := skipHeld l l.length n
    { x with next := some m, ahead := l.filter (m ≤ ·) }
  | none => x

/-- The grid of a stream begins with the first point at or after the value of its clock, where that runs. -/
def State.startGrid (s : State) (k : Nat) : State :=
  let x := s.stream k
  if (s.aclk x.aclk).running then
    let g := firstGrid (s.aclk x.aclk).val (s.aclkG x.aclk)
    s.setStream k { x with base := g, next := some g, due := some g, ahead := [] }
  else s.setStream k { x with next := none, due := none, ahead := [] }

/-- A stream with an empty tap history (R118). -/
def Stream.empty (x : Stream) : Stream := { x with slots := [], missed := [], ivs := [] }

/-- A stream begins to run (R118): its grid begins, and its taps are empty. -/
def State.runStream (s : State) (k : Nat) : State := ((s.setStream k (s.stream k).empty).startGrid k).setStreamSt k .running

/-- Clock n runs (R118): the streams that waited for it run, and the grid of one that is RUNNING or PAUSED begins anew. -/
def State.runStreams (s : State) (n : Nat) : State :=
  each (s.streamsOn.filter fun k => (s.stream k).aclk == n)
    (fun x k => if (x.stream k).st = .waitClock then x.runStream k else if (x.stream k).st = .disabled then x else x.startGrid k) s

/-- A plane's cells of the channel-streams of a stream are zero and without a record (R505). -/
def State.clearCells (s : State) (k : Nat) : State :=
  let x := s.stream k
  let other := fun (n : Nat) => n / 256 < x.csBase || x.csBase + x.nch ≤ n / 256
  { s with spe := { s.spe with
      cells := s.spe.cells.filter fun p => other p.1
      info := s.spe.info.filter fun p => other p.1
      ecc := s.spe.ecc.filter fun p => other p.1
      flip := s.spe.flip.filter fun p => other p.1 } }

/-- A stream whose clock has changed its grid at a boundary of cycle c (R505): its points begin with c × G of the new grid, HEAD stands one before,
and its cells read INVALID; the tap history is kept. -/
def State.newGrid (s : State) (k : Nat) : State :=
  let x := s.stream k
  let g := (s.aclk x.aclk).base / cycU * s.aclkG x.aclk
  (s.setStream k { x with
    base := g, next := some g, due := some g, ahead := [], mark := 0, head := wordOfInt ((g : Int) - 1) }).clearCells k

/-- The streams bound to clock n wait when it stops (R118, EV170). -/
def State.waitStreams (s : State) (n : Nat) : State :=
  each (s.streamsOn.filter fun k => (s.stream k).aclk == n && (s.stream k).st == .running)
    (fun x k => (x.setStreamSt k .waitClock).sqc Reg.SPE_STATUS 8 170) s

end Sys2Proof.Machine
end

