-- ==== Sys2Proof/Machine/Rec.lean ====
section
/-!
DEFINITION. History, its fetch units, and disturbance records (R449-R453).
-/

namespace Sys2Proof.Machine

/-! ## Regions and history -/

/-- The base address of DRAM region k (R447). -/
def State.regionBase (s : State) (k : Nat) : Nat := s.rf (Reg.REC_RGN k) 11 0 * 8388608

/-- The size of DRAM region k (R447). -/
def State.regionSize (s : State) (k : Nat) : Nat := s.rf (Reg.REC_RGN k) 23 12 * 8388608

/-- Whether channel-stream cs has a history ring (R449). -/
def State.histOn (s : State) (cs : Nat) : Bool := s.rb (Reg.REC_HIST_MAP (cs / 32)) (cs % 32)

/-- The cells of a history ring (R449). -/
def State.histLen (s : State) : Nat := 2 ^ s.rf Reg.REC_HIST_CFG 4 0

/-- The DRAM address of cell g of channel-stream cs (R449). -/
def State.histAddr (s : State) (cs g : Nat) : Nat := s.regionBase 1 + (cs * s.histLen + g % s.histLen) * 4

/-- The grid points that the ring of cs holds: from `histLo` up to, not including, `histHi`. -/
def State.histLo (s : State) (cs : Nat) : Nat := s.ddr.histLo.gd 0 cs
def State.histHi (s : State) (cs : Nat) : Nat := s.ddr.histHi.gd 0 cs
def State.histHolds (s : State) (cs g : Nat) : Bool := s.histLo cs ≤ g && g < s.histHi cs

/-- The cell word of channel-stream cs at grid point g, as it reads (R139). -/
def State.cellWord (s : State) (cs g : Nat) : Word :=
  if s.spe.ecc.gd false (256 * cs + g % 256) then 0 else s.cell (256 * cs + g % 256)

/-- A single-bit error of a plane word corrected and counted, where it has one (R139): by a read of it. -/
def State.fixCell (s : State) (k : Nat) : State :=
  if s.spe.flip.gd false k then ({ s with spe := { s.spe with flip := s.spe.flip.sd false k false } }).inc Reg.SPE_ECC_CORR else s

/-! ## Disturbance records -/

/-- Fields of set r (R454). -/
def State.setN (s : State) (r : Nat) : Nat := s.rf (Reg.REC_SET_CFG r) 26 20 + 1
def State.setSlots (s : State) (r : Nat) : Nat := s.rf (Reg.REC_SET_CFG r) 7 0
def State.setFirst (s : State) (r : Nat) : Nat := s.rf (Reg.REC_SET_SPAN r) 12 0

/-- The enabled stream that channel-stream cs belongs to (R115). -/
def State.streamOfCs (s : State) (cs : Nat) : Option Nat :=
  s.streamsOn.find? fun k => (s.stream k).csBase ≤ cs && cs < (s.stream k).csBase + (s.stream k).nch

/-- The stream of CS_FIRST of set r, and G of its clock. -/
def State.setStreamOf (s : State) (r : Nat) : Nat := (s.streamOfCs (s.setFirst r)).getD 0
def State.recGrid (s : State) (r : Nat) : Nat := s.aclkG (s.stream (s.setStreamOf r)).aclk

/-- PRE and POST of set r in grid points. -/
def State.setPre (s : State) (r : Nat) : Nat := s.rf (Reg.REC_SET_SPAN r) 31 24 * s.recGrid r
def State.setPost (s : State) (r : Nat) : Nat := s.rf (Reg.REC_SET_SPAN r) 23 15 * s.recGrid r

/-- The size of a record of set r, and the stride of its slots (R452, R453). -/
def State.recordSize (s : State) (r : Nat) : Nat := 128 + s.setN r * (s.setPre r + s.setPost r) * 4
def State.recordStride (s : State) (r : Nat) : Nat := ceilDiv (s.recordSize r) 4096 * 4096

/-- Where slot n of set r lies. -/
def State.slotAddr (s : State) (r n : Nat) : Nat := s.regionBase 2 + (s.reg (Reg.REC_SET_BASE r)).toNat * 4096 + n * s.recordStride r

/-- Where the record under way in set r holds cell g of its channel-stream i, where it covers g. -/
def State.recCellAddr (s : State) (r i g : Nat) (j : RecJob) : Option Nat :=
  if j.gt + 1 ≤ g + s.setPre r && g ≤ j.gt + s.setPost r then
    some (s.slotAddr r j.slot + 128 + (i * (s.setPre r + s.setPost r) + (g + s.setPre r - j.gt - 1)) * 4)
  else none

/-- A word put into the record under way of set r for cell g of its channel-stream i. -/
def State.recCell (s : State) (r i g : Nat) (w : Word) (j : RecJob) : State :=
  match s.recCellAddr r i g j with
  | some a => (s.dramWrite a (leBytes 4 w.toNat)).pmuDram 0x8D a 4 none
  | none => s

/-- The levels of the contact inputs and of the outputs, bit by bit (R319). -/
def State.inLevels (s : State) : Word := BitVec.ofNat 32 (((List.range 32).map fun i => if (s.finp i).level then 2 ^ i else 0).sum)
def State.outLevels (s : State) : Word := BitVec.ofNat 32 (((List.range 32).map fun i => if (s.fout i).on then 2 ^ i else 0).sum)

/-- The header of a record (R453). -/
def State.recordHeader (s : State) (r : Nat) (j : RecJob) (complete : Bool) : List Byte :=
  [0x55, 0x52, 0x45, 0x43] ++ leBytes 2 r ++ leBytes 2 (s.setN r) ++ wordsBytes (timeWords j.time) ++ leBytes 8 j.gt ++
  [BitVec.ofNat 8 j.src, BitVec.ofNat 8 ((if complete then 1 else 0) + (if j.gap then 2 else 0))] ++ leBytes 2 (s.setFirst r) ++
  [BitVec.ofNat 8 (s.recGrid r), BitVec.ofNat 8 (s.rf (Reg.REC_SET_SPAN r) 31 24)] ++ leBytes 2 (s.rf (Reg.REC_SET_SPAN r) 23 15) ++
  wordsBytes [j.ins, j.outs] ++ wordsBytes j.chans ++ [BitVec.ofNat 8 j.tq, BitVec.ofNat 8 (s.stream (s.setStreamOf r)).aclk] ++
  List.replicate 50 0

/-- The header of the record under way written. -/
def State.putHeader (s : State) (r : Nat) (complete : Bool) : State :=
  match (s.recSet r).job with
  | some j => (s.dramWrite (s.slotAddr r j.slot) (s.recordHeader r j complete)).pmuDram 0x8D (s.slotAddr r j.slot) 128 none
  | none => s

/-- The cells of channel-stream i of a new record that history holds are copied; those it has lost, and all of a channel-stream without
history, are zero and set HIST_GAP (R452). -/
def State.recStart (s : State) (r i : Nat) (j : RecJob) : State :=
  let cs := s.setFirst r + i
  let span := s.setPre r + s.setPost r
  each (List.range span) (fun x n =>
    let g := j.gt + 1 + n - x.setPre r
    if j.gt + 1 + n < x.setPre r then x
    else if !x.histOn cs || g < x.histLo cs then
      let y := x.recCell r i g 0 j
      y.setRecSet r { job := ((y.recSet r).job).map fun q => { q with gap := true } }
    else if x.histHolds cs g then x.recCell r i g (BitVec.ofNat 32 (leNat (x.dramRead (x.histAddr cs g) 4))) j
    else x) s

/-- A record dropped or overwritten (R452, EV316). -/
def State.recDrop (s : State) : State := (s.inc Reg.REC_REC_DROP).sqc Reg.REC_STATUS 2 316

/-- The word of 32 channel states: TRIPPED 1 (R453). -/
def State.tripWord (s : State) (w : Nat) : Word :=
  BitVec.ofNat 32 (((List.range 32).map fun i => if (s.vch (32 * w + i)).st = 1 then 2 ^ i else 0).sum)

/-- A new record of set r (R451-R453). -/
def State.recBegin (s : State) (r src : Nat) : State :=
  let n := s.setSlots r
  let wr := (s.reg (Reg.REC_SET_WR r)).toNat
  let rd := (s.reg (Reg.REC_SET_RD r)).toNat
  let full := (wr + n - rd % max n 1) % max n 1 + 1 = n || n = 0
  if !s.dramUp then s.inc Reg.REC_DOWN_DROP
  else if full && !s.rb (Reg.REC_SET_CFG r) 30 then s.recDrop
  else
    let s1 := if full then (s.setReg (Reg.REC_SET_RD r) (BitVec.ofNat 32 ((rd + 1) % max n 1))).recDrop else s
    let st := s.stream (s.setStreamOf r)
    let j : RecJob :=
      { slot := wr, time := s.time, gt := st.fin - 1, src := src, ins := s.inLevels, outs := s.outLevels
        chans := (List.range 8).map s.tripWord, tq := s.timeQuality, at_ := s.up, gap := false }
    let s2 := s1.setRecSet r { job := some j }
    (each (List.range (s.setN r)) (fun x i => x.recStart r i j) s2).putHeader r false

/-- A trigger of set r from a source (R451): bit 0 channel, 1 input, 2 instant, 3 command. -/
def State.recTrigger (s : State) (r src : Nat) : State :=
  if s.rb (Reg.REC_SET_CFG r) 31 then
    match (s.recSet r).job with
    | some j =>
      if j.at_ = s.up then (s.setRecSet r { job := some { j with src := j.src ||| src } }).putHeader r false
      else (s.inc Reg.REC_RETRIG).sqc Reg.REC_STATUS 3 317
    | none => s.recBegin r src
  else s

/-- Channel ch enters TRIPPED (R451). -/
def State.recChannel (s : State) (ch : Nat) : State :=
  each (List.range 16) (fun x r =>
    if x.rb (Reg.REC_SET_CFG r) 29 && x.rf (Reg.REC_SET_CFG r) 15 8 == ch then x.recTrigger r 1 else x) s

/-- Contact input i changes (R451). -/
def State.recInput (s : State) (i : Nat) : State :=
  each (List.range 16) (fun x r => if x.rb (Reg.REC_SET_INMASK r) i then x.recTrigger r 2 else x) s

/-! ## Copies to history (R449) -/

/-- The record under way of set r as cell g of its channel-stream i is copied: the cells before it that were never copied, from `hi` on, are zero and
set HIST_GAP (R452), and cell g takes the word. -/
def State.recTake (s : State) (r i hi g : Nat) (w : Word) (j : RecJob) : State :=
  let first := max hi (j.gt + 1 - s.setPre r)
  let gap := min g (j.gt + s.setPost r + 1) - first
  let s1 := each (List.range gap) (fun x n => x.recCell r i (first + n) 0 j) s
  let s2 := if gap = 0 then s1 else s1.setRecSet r { job := ((s1.recSet r).job).map fun q => { q with gap := true } }
  s2.recCell r i g w j

/-- Cell g of channel-stream cs copied into its ring, and into every record under way that covers it. -/
def State.histCopy1 (s : State) (cs g : Nat) : State :=
  if !s.histOn cs then s
  else if !s.dramUp then
    { s.inc Reg.REC_DOWN_DROP with ddr :=
        { (s.inc Reg.REC_DOWN_DROP).ddr with histLo := s.ddr.histLo.sd 0 cs (g + 1), histHi := s.ddr.histHi.sd 0 cs (g + 1) } }
  else
    let w := s.cellWord cs g
    let lo := if s.histHi cs = g then max (s.histLo cs) (g + 1 - s.histLen) else g
    let s1 := (s.dramWrite (s.histAddr cs g) (leBytes 4 w.toNat)).pmuDram 0x8D (s.histAddr cs g) 4 none
    let s2 := { s1 with ddr := { s1.ddr with histLo := s1.ddr.histLo.sd 0 cs lo, histHi := s1.ddr.histHi.sd 0 cs (g + 1) } }
    each (List.range 16) (fun x r =>
      match (x.recSet r).job with
      | some j => if x.setFirst r ≤ cs && cs < x.setFirst r + x.setN r then x.recTake r (cs - x.setFirst r) (s.histHi cs) g w j else x
      | none => x) s2

/-- The cells g of a stream copied when g + 8 falls due. -/
def State.histCopy (s : State) (k g : Nat) : State :=
  each (List.range (s.stream k).nch) (fun x i => x.histCopy1 ((s.stream k).csBase + i) g) s

/-- Whether the last cell of the record under way in set r has been copied. -/
def State.recordFull (s : State) (r : Nat) (j : RecJob) : Bool :=
  (List.range (s.setN r)).all fun i => !s.histOn (s.setFirst r + i) || j.gt + s.setPost r < s.histHi (s.setFirst r + i)

/-- RECORD_COMPLETE (R452, R453): COMPLETE is written last, REC_SET_WR advances, EV315. -/
def execRecordComplete (r : Fin 16) (s : State) : Host.Outcome State Fault Refusal :=
  done s (match (s.recSet r.val).job with
    | some j =>
      if s.recordFull r.val j then
        (((s.putHeader r.val true).setRecSet r.val { job := none }).setReg (Reg.REC_SET_WR r.val)
          (BitVec.ofNat 32 ((j.slot + 1) % max (s.setSlots r.val) 1))).sqc Reg.REC_STATUS 1 315
      else s
    | none => s)

/-- The result of REC_CMD (R454, R81). -/
def State.recResult (s : State) (val : Word) (res : Nat) : State :=
  (s.setReg Reg.REC_CMD (masked Reg.REC_CMD val)).setReg Reg.REC_CMD_STATUS (BitVec.ofNat 32 res)

/-- The command TRIGGER of REC_CMD (R451): ADMIN only; a set that is not enabled is no set to name. -/
def State.recCmd (s : State) (who : Accessor) (val : Word) : State :=
  if !s.isAdmin who then s.recResult val 5
  else if fld val 30 28 != 1 || !s.rb (Reg.REC_SET_CFG (fld val 3 0)) 31 then s.recResult val 6
  else (s.recTrigger (fld val 3 0) 8).recResult val 0

/-- REC_CMD_TRIGGER (R451). -/
def execRecCmdTrigger (who : Accessor) (val : Word) (s : State) : Host.Outcome State Fault Refusal :=
  done s (s.writeCmd who Reg.REC_CMD fun x => x.recCmd who (putFld val 31 28 9))

/-! ## History fetch (R450) -/

/-- Whether n bytes at address a of the SRAM of cluster c lie in a region of a partition (R283). -/
def State.sramRegion (s : State) (c part a n : Nat) : Bool :=
  (List.range 16).any fun r =>
    let w := s.reg (Reg.CLU_SRAM_RGN c r)
    tbit w 31 && fld w 29 26 == part && fld w 14 4 * 1024 ≤ a && a + n ≤ (fld w 25 15 + 1) * 1024

/-- Whether a fetch of a unit by a partition may start. -/
def State.fetchOk (s : State) (c part : Nat) (u : FetchUnit) : Bool :=
  let cs := fld u.w0 12 0
  u.status != 1 && Config.csGranted part cs && s.histOn cs && s.sramRegion c part u.w3.toNat ((fld u.w2 27 16 + 1) * 4)

/-- A fetch that ends BAD or GONE (R450, EV318). -/
def State.fetchErr (s : State) : State := (s.inc Reg.REC_FETCH_ERR).sqc Reg.REC_STATUS 4 318

/-- The start of a fetch (R450). A start at a unit that is BUSY is refused and leaves the fetch under way alone. -/
def State.fetchStart (s : State) (c f part : Nat) : State :=
  let u := s.fetchU (8 * c + f)
  if s.fetchOk c part u then s.setFetchU (8 * c + f) { u with status := 1 }
  else if u.status = 1 then s.fetchErr
  else s.fetchErr.setFetchU (8 * c + f) { u with status := 3 }

/-- Whether the threads of a partition reach unit f of cluster c. -/
def State.fetchUnitOf (s : State) (c f part : Nat) : Bool := s.rb (Reg.REC_FETCH_CFG c f) 31 && s.rf (Reg.REC_FETCH_CFG c f) 3 0 == part

/-- HIST_FETCH_START (R450): the write of the third word with bit 31 set, by a thread of the unit's partition. -/
def execHistFetchStart (t : ThreadId) (f : Fin 8) (val : Word) (s : State) : Host.Outcome State Fault Refusal :=
  done s (
    let k := tidNat t
    let n := 8 * t.cl.val + f.val
    if s.fetchUnitOf t.cl.val f.val (s.thrPart k) then
      (if (s.fetchU n).status = 1 then s else s.setFetchU n { s.fetchU n with w2 := putBit val 31 true }).fetchStart t.cl.val f.val (s.thrPart k)
    else s)

/-- The grid point whose low 32 bits a fetch names: the one nearest below or at the end of what history holds. -/
def fetchFirst (hi : Nat) (low : Word) : Nat := hi - ((hi + two32 - low.toNat % two32) % two32)

/-- The cells of a fetch, written to cluster SRAM. -/
def State.fetchCopy (s : State) (c : Nat) (u : FetchUnit) (g n : Nat) : State :=
  let bytes := (List.range n).flatMap fun i => s.dramRead (s.histAddr (fld u.w0 12 0) (g + i)) 4
  (s.sramWrite { cl := c, addr := u.w3.toNat, bytes := bytes }).pmuDram 0x8C (s.histAddr (fld u.w0 12 0) g) (4 * n) none

/-- HIST_FETCH_DONE (R450, R445): DONE, GONE where history does not hold the whole range, BAD where a line is uncorrectable. -/
def execHistFetchDone (c : Fin 6) (f : Fin 8) (s : State) : Host.Outcome State Fault Refusal :=
  done s (
    let n := 8 * c.val + f.val
    let u := s.fetchU n
    let cs := fld u.w0 12 0
    let cnt := fld u.w2 27 16 + 1
    let g := fetchFirst (s.histHi cs) u.w1
    if u.status = 1 then
      let lines := (List.range cnt).map fun i => s.histAddr cs (g + i) / 64
      if !(s.histHolds cs g && s.histHolds cs (g + cnt - 1)) then s.fetchErr.setFetchU n { u with status := 4 }
      else if lines.any (fun l => s.ddr.bad.gd false l) then s.fetchErr.setFetchU n { u with status := 3 }
      else (s.fetchCopy c.val u g cnt).setFetchU n { u with status := 2 }
    else s)

end Sys2Proof.Machine
end

