-- ==== Sys2Proof/Machine/Spe.lean ====
section
/-!
DEFINITION. The sample planes (R115-R139): the samples of a frame, twins, the resampler, cells and their flags, due times and gaps, merged
streams, retraction and recovery, shape changes, the snapshot of a stream.
-/

namespace Sys2Proof.Machine

/-! ## The samples of a frame -/

/-- Up to n ASDUs at an offset, and how many of the n fail their checks, counted from the first that does (R116). -/
def frameAsdus (b : List Byte) (stop : Nat) : Nat → Nat → List Asdu × Nat
  | 0, _ => ([], 0)
  | n + 1, i =>
    match readAsdu b i stop with
    | .ok a _ =>
      if a.data + a.dataLen ≤ b.length then
        let r := frameAsdus b stop n a.next
        (a :: r.1, r.2)
      else ([], n + 1)
    | _ => ([], n + 1)

/-- Whether an ASDU changes the shape of a stream (R132). -/
def Stream.reshaped (x : Stream) (a : Asdu) : Bool :=
  a.confRev != x.confRev.toNat || a.dataLen != x.nch * x.entry || (match a.smpRate with | some r => r != x.rate | none => false)

/-- The value and the quality of channel i of an ASDU (R116). -/
def Stream.chanVal (x : Stream) (b : List Byte) (a : Asdu) (i : Nat) : Int := sgn 32 (beAt b (a.data + i * x.entry) 4)
def Stream.chanQual (x : Stream) (b : List Byte) (a : Asdu) (i : Nat) : Word :=
  if x.layout = 0 then BitVec.ofNat 32 (beAt b (a.data + i * x.entry + 4) 4) else 0

/-- S × RATE of R117: S is the whole second for which -100 µs ≤ TS - t < 999,900 µs. -/
def Stream.secondOf (x : Stream) (ts smp : Nat) : Int :=
  ((((ts : Int) + 100 * (usU : Int) - x.toff * (nsU : Int)) * (x.rate : Int) - (smp : Int) * (secU : Int)) / ((secU : Int) * (x.rate : Int)))

/-- The instant of an ASDU in units of 2^-16 ns / RATE, and its sample number (R117). One without synchronisation is timed by its arrival; it
is a copy of the sample of its smpCnt among the slots, where there is one (R119), and else is numbered after the sample before it. -/
def Stream.instant (x : Stream) (ts : Nat) (a : Asdu) : Int × Nat :=
  if a.smpSynch = 0 then
    let t := ((ts : Int) - x.toff * (nsU : Int)) * (x.rate : Int)
    match x.slots.find? fun q => q.pri.smp == a.smpCnt && 2 * (t - q.pri.t).natAbs < secU * x.rate with
    | some q => (t, q.pri.num)
    | none =>
      let last := match x.slots with | q :: _ => q.pri.num | [] => ts / secU * x.rate
      (t, last + (a.smpCnt + x.rate - last % x.rate) % x.rate)
  else
    let sec := x.secondOf ts a.smpCnt
    (sec * (secU : Int) * (x.rate : Int) + (a.smpCnt : Int) * (secU : Int) + x.toff * (nsU : Int) * (x.rate : Int),
     (sec * (x.rate : Int) + (a.smpCnt : Int)).toNat)

/-- The sample of an ASDU of frame f. -/
def Stream.sample (x : Stream) (f : Nat) (fr : Frame) (a : Asdu) : Sample :=
  let t := x.instant fr.ts a
  { num := t.2, smp := a.smpCnt, t := t.1, fid := f, vals := (List.range x.nch).map (x.chanVal fr.bytes a)
    quals := (List.range x.nch).map (x.chanQual fr.bytes a), sim := fr.sim
    ver := if fr.verdict = 0 then 0 else if verdictPass fr.verdict then 1 else 2 }

/-- The instant of a sample as a fraction of device time. -/
def Stream.at_ (x : Stream) (p : Sample) : Frac := ⟨p.t, x.rate⟩

/-! ## Quality -/

/-- The validity of a quality word (IEC 61850): 0 good, 1 questionable, 2 invalid or reserved. -/
def validity (q : Word) : Nat := if fld q 1 0 = 0 then 0 else if fld q 1 0 = 3 then 1 else 2

/-- The detail bits overflow and test of a quality word. -/
def qOverflow (q : Word) : Bool := tbit q 2
def qTest (q : Word) : Bool := tbit q 11

/-- The quality of a tap bridged from two samples (R126): the worse validity, and the OR of the other bits. -/
def worseQual (a b : Word) : Word := putFld (a ||| b) 1 0 (fld (if validity a < validity b then b else a) 1 0)

/-- Whether a quality lets a value be used (R126). -/
def Stream.qualOk (x : Stream) (q : Word) : Bool := validity q = 0 || (validity q = 1 && x.questValid)

/-! ## The tracker of an angle clock (R40, R43) -/

/-- A reference sample of clock n judged: the run of samples that are not valid, and the mark of the cycle under way. -/
def State.trackClock (s : State) (n : Nat) (sec valid : Bool) : State :=
  let c := s.aclk n
  s.setAclk n (
    if sec then { c with badSec := if valid then 0 else c.badSec + 1, cycBadSec := c.cycBadSec || !valid }
    else { c with badPri := if valid then 0 else c.badPri + 1, cycBadPri := c.cycBadPri || !valid })

/-- Whether the sample p of stream k is valid as a reference of clock n on channel-stream cs, none where cs is not of the stream. Without a
sample (a missing one) it is not valid. -/
def State.refSample (s : State) (n k cs : Nat) (p : Option Sample) : Option Bool :=
  let x := s.stream k
  let mode := s.rf (Reg.IND_ACLK_CFG n) 30 28
  if x.csBase ≤ cs && cs < x.csBase + x.nch then
    match p with
    | none => some false
    | some q =>
      some ((List.range (if mode = 1 then 3 else 1)).all fun j =>
        x.qualOk (wordAt q.quals (cs - x.csBase + j)) && q.ver != 2 &&
        ((!qTest (wordAt q.quals (cs - x.csBase + j)) && !q.sim) || s.rb (Reg.IND_ACLK_CFG n) 20))
  else none

/-- A sample of stream k, or one that is missing, reaches the trackers of every clock that refers to it. -/
def State.track (s : State) (k : Nat) (p : Option Sample) : State :=
  each (List.range 16) (fun y n =>
    if y.rb (Reg.IND_ACLK_CFG n) 31 && y.rf (Reg.IND_ACLK_CFG n) 30 28 < 2 then
      let y1 := match y.refSample n k (y.rf (Reg.IND_ACLK_CFG n) 12 0) p with
        | some v => y.trackClock n false v
        | none => y
      if y.rb (Reg.IND_ACLK_SRC2 n) 31 then
        match y.refSample n k (y.rf (Reg.IND_ACLK_SRC2 n) 12 0) p with
        | some v => y1.trackClock n true v
        | none => y1
      else y1
    else y) s

/-! ## Counters of a stream -/

/-- The stream with record changed by g. -/
def State.updStream (s : State) (k : Nat) (g : Stream → Stream) : State := s.setStream k (g (s.stream k))

/-- A twin discarded (R119). -/
def State.twinDiscard (s : State) (k : Nat) : State := (s.inc Reg.SPE_TWIN_DISCARD).updStream k fun x => { x with twin := x.twin + 1 }

/-- A late sample (R129). -/
def State.lateSample (s : State) (k : Nat) : State :=
  ((s.inc Reg.SPE_LATE).updStream k fun x => { x with late := x.late + 1 }).sqc Reg.SPE_STATUS 1 162

/-- Sample number m counted missing, once (R128); one that has come and failed has been before the trackers already. -/
def State.missSample (s : State) (k m : Nat) : State :=
  if (s.stream k).missed.contains m then s
  else
    let s1 := (s.inc Reg.SPE_MISSING).updStream k fun x => { x with missing := x.missing + 1, missed := (m :: x.missed).take 64 }
    if (s.stream k).slots.any fun q => q.pri.num == m then s1 else s1.track k none

/-! ## Taps -/

/-- The sample number m of a stream, where it is present: one whose frame failed is absent (R128). -/
def Stream.sampleAt (x : Stream) (m : Int) : Option Sample :=
  (x.slots.find? fun q => (q.pri.num : Int) == m && q.pri.ver != 2).map (·.pri)

/-- A tap: the values of the channels, their qualities, SIMULATED, its frames with those that have no verdict, the newest sample it rests on
(number and smpCnt), and how it was substituted. -/
structure Tap where
  vals : List Frac
  quals : List Word
  sim : Bool
  fids : List Nat
  waits : List Nat
  last : Nat × Nat
  interp : Bool := false
  held : Bool := false

/-- A sample as a tap. -/
def Sample.tap (p : Sample) : Tap :=
  { vals := p.vals.map Frac.ofInt, quals := p.quals, sim := p.sim, fids := [p.fid], waits := if p.ver = 0 then [p.fid] else []
    last := (p.num, p.smp) }

/-- A tap bridged between the sample a and the later sample b (R128). -/
def bridgeTap (m : Int) (a b : Sample) : Tap :=
  let f : Frac := ⟨m - (a.num : Int), b.num - a.num⟩
  { vals := List.zipWith (fun u v => Frac.add (Frac.ofInt u) (Frac.mul f (Frac.ofInt (v - u)))) a.vals b.vals
    quals := List.zipWith worseQual a.quals b.quals, sim := a.sim || b.sim, fids := [a.fid, b.fid]
    waits := a.tap.waits ++ b.tap.waits, last := (b.num, b.smp), interp := true }

/-- The nearest present samples before and after number m. -/
def Stream.before (x : Stream) (m : Int) : Option Sample := (x.slots.find? fun q => (q.pri.num : Int) < m && q.pri.ver != 2).map (·.pri)
def Stream.after (x : Stream) (m : Int) : Option Sample :=
  (x.slots.reverse.find? fun q => m < (q.pri.num : Int) && q.pri.ver != 2).map (·.pri)

/-- Tap m at a due time (R128). -/
def Stream.dueTap (x : Stream) (m : Int) : Option Tap :=
  match x.sampleAt m with
  | some p => some p.tap
  | none =>
    if x.gapPol = 0 then none
    else
      match x.before m, x.after m with
      | some a, some b => if b.num - a.num ≤ x.maxGap + 1 then some (bridgeTap m a b) else none
      | some a, none =>
        if x.gapPol = 2 && m - (a.num : Int) ≤ (x.maxGap : Int) then some { a.tap with held := true } else none
      | _, _ => none

/-- The tap offsets of a stream (R122): nodes n - 1 to n + 2, or n - 3 to n + 4. -/
def Stream.nodes (x : Stream) : List Int := if x.taps = 8 then [-3, -2, -1, 0, 1, 2, 3, 4] else [-1, 0, 1, 2]

/-! ## The resampler -/

/-- The Lagrange weight of node k among the nodes ks at position mu × 2^-24 (R122). -/
def lagrange (ks : List Int) (mu k : Int) : Frac :=
  (ks.filter (· != k)).foldl (fun acc j =>
    let d := k - j
    let n := mu - j * 16777216
    Frac.mul acc ⟨if d < 0 then -n else n, d.natAbs * 16777216⟩) ⟨1, 1⟩

/-- The resampled value of channel i with its SHIFT, not yet saturated (R122). -/
def resample (ks : List Int) (mu : Int) (taps : List Tap) (i shift : Nat) : Int :=
  let sum := (List.zipWith (fun k t => Frac.mul (lagrange ks mu k) (t.vals.getD i ⟨0, 1⟩)) ks taps).foldl Frac.add ⟨0, 1⟩
  Frac.nearAway ⟨sum.num, sum.den * 2 ^ shift⟩

/-- The position of an angle between two others, rounded to 2^-24 (R121). -/
def muOf (v a b : Frac) : Int := Frac.nearUp (Frac.mul (Frac.div (Frac.sub v a) (Frac.sub b a)) ⟨16777216, 1⟩)

/-- Whether a cell word is usable (R120). -/
def cellValid (w : Word) : Bool := tbit w 7

/-- The word of channel i of a cell from its taps (R125, R126), and whether its value saturates. -/
def Stream.cellOf (x : Stream) (mu : Int) (taps : List Tap) (i : Nat) : Word × Bool :=
  let v := resample x.nodes mu taps i (x.shift i)
  let sat := satS 24 v != v
  let ok := taps.all fun t => x.qualOk (wordAt t.quals i)
  let b := fun (c : Bool) (n : Nat) => if c then n else 0
  let flags := b (taps.any fun t => !t.waits.isEmpty) 64 + b (taps.any (·.interp)) 32 + b (taps.any (·.held)) 16 +
    b (taps.any fun t => qTest (wordAt t.quals i)) 4 + b (taps.any (·.sim)) 2 + b (sat || taps.any fun t => qOverflow (wordAt t.quals i)) 1
  (BitVec.ofNat 32 (if ok then usg 24 (satS 24 v) * 256 + 128 + flags else flags), sat)

/-! ## Writing cells -/

/-- A cell written (R134, R139): whatever error its word held is gone. -/
def State.writeCell (s : State) (cs g : Nat) (w : Word) (info : CellInfo) : State :=
  let k := 256 * cs + g % 256
  let s1 := (s.setCell k w).setCellInfo k info
  ({ s1 with spe := { s1.spe with ecc := s1.spe.ecc.sd false k false, flip := s1.spe.flip.sd false k false } }).pmuFab 0x85 {} 1

/-- Stream k has written cell g: HEAD is the newest written (R135), and the fill mark it may complete (R138). A cell below HEAD, written after
those above it (R123, R127), leaves HEAD. -/
def State.advanceHead (s : State) (k g : Nat) : State :=
  let x := s.stream k
  let n := x.mark + (g + 1 - x.fin)
  let full := x.fin ≤ g && 1 ≤ x.fillN && x.fillN ≤ 128 && x.fillN ≤ n
  let s1 := s.setStream k { x.putWritten g with head := if x.fin ≤ g then BitVec.ofNat 32 g else x.head, mark := if full then 0 else n }
  if full then each (List.range 6) (fun y c => y.wakeSource c 3 k causeFill (BitVec.ofNat 32 g)) s1 else s1

/-- The word of a merged cell from those of its constituents (R120), and whether they disagree. -/
def mergeWord (thr : Nat) (a b : Word) : Word × Bool :=
  let va := sgn 24 (fld a 31 8)
  let vb := sgn 24 (fld b 31 8)
  if cellValid a && cellValid b then
    let w := if tbit b 6 then putBit a 6 true else a
    let dis := thr < (va - vb).natAbs
    (if dis then putBit w 3 true else w, dis)
  else if cellValid a then (a, false) else if cellValid b then (b, false) else (0, false)

/-- The word of channel i of a constituent at grid point g: INVALID where it has not written that cell. -/
def State.partWord (s : State) (k i g : Nat) : Word := if (s.stream k).wrote g then s.cellWord ((s.stream k).csBase + i) g else 0

/-- Cell g of merged stream m written from its constituents: a new disagreement is counted. -/
def State.mergeCell (s : State) (m g : Nat) : State :=
  let x := s.stream m
  each (List.range x.nch) (fun y i =>
    let r := mergeWord x.disThr (y.partWord x.mergeA i g) (y.partWord x.mergeB i g)
    let old := tbit (y.cell (256 * (x.csBase + i) + g % 256)) 3 && (y.cellInfo (256 * (x.csBase + i) + g % 256)).g == g
    let y1 := y.writeCell (x.csBase + i) g r.1 { g := g }
    if r.2 && !old then (y1.inc Reg.SPE_DISAGREE).sqc Reg.SPE_STATUS 3 164 else y1) s

/-- The enabled merged streams of which stream k is a constituent. -/
def State.mergesOf (s : State) (k : Nat) : List Nat :=
  s.streamsOn.filter fun m => (s.stream m).merge && ((s.stream m).mergeA == k || (s.stream m).mergeB == k)

/-- Cell g of stream k has been written: a RUNNING merged stream whose other constituent has written it follows (R120). -/
def State.mergeAfter (s : State) (k g : Nat) : State :=
  each (s.mergesOf k) (fun y m =>
    let x := y.stream m
    if x.st == .running && x.next.isSome && x.base ≤ g && !x.wrote g && (y.stream x.mergeA).wrote g && (y.stream x.mergeB).wrote g then
      (y.mergeCell m g).advanceHead m g
    else y) s

/-- Cell g of stream k has changed: merged cells are recomputed (R120). -/
def State.remerge (s : State) (k g : Nat) : State :=
  each (s.mergesOf k) (fun y m => if (y.stream m).wrote g then y.mergeCell m g else y) s

/-- The newest sample that taps rest on (number and smpCnt). -/
def newestUsed (taps : List Tap) : Option (Nat × Nat) :=
  taps.foldl (fun m p => match m with | some b => if b.1 < p.last.1 then some p.last else m | none => some p.last) none

/-- The cells of grid point g of stream k written from taps of interval n (R122, R123): every channel, in channel order. -/
def State.fillCell (s : State) (k g : Nat) (n mu : Int) (taps : List Tap) : State :=
  let x := s.stream k
  let fids := (taps.flatMap (·.fids)).eraseDups
  let waits := (taps.flatMap (·.waits)).eraseDups
  let s1 := each (List.range x.nch) (fun y i =>
    let r := x.cellOf mu taps i
    let y1 := y.writeCell (x.csBase + i) g r.1 { g := g, fids := fids, waits := waits }
    if r.2 then (y1.inc Reg.SPE_SATURATE).sqc Reg.SPE_STATUS 6 168 else y1) s
  let smp := match newestUsed taps with | some p => if x.fin ≤ g then p.2 else x.lastSmp | none => x.lastSmp
  ((s1.updStream k fun y => { y with ivs := ((g, n) :: y.ivs).take 64, lastSmp := smp }).advanceHead k g).mergeAfter k g

/-- The cells of grid point g written INVALID. -/
def State.voidCell (s : State) (k g : Nat) : State :=
  let x := s.stream k
  ((each (List.range x.nch) (fun y i => y.writeCell (x.csBase + i) g 0 { g := g }) s).advanceHead k g).mergeAfter k g

/-! ## Cells completed by samples -/

/-- The value of the clock of stream k at sample p. -/
def State.thetaOf (s : State) (k : Nat) (p : Sample) : Option Frac := s.theta (s.stream k).aclk ((s.stream k).at_ p)

/-- The input interval that holds an angle, among present neighbouring samples, with its position (R121). -/
def State.intervalOf (s : State) (k v : Nat) : Option (Int × Int) :=
  let x := s.stream k
  x.slots.findSome? fun q =>
    match x.sampleAt q.pri.num, x.sampleAt (q.pri.num + 1) with
    | some a, some b =>
      (match s.thetaOf k a, s.thetaOf k b with
       | some ta, some tb => if Frac.le ta ⟨v, 1⟩ && Frac.lt ⟨v, 1⟩ tb then some ((a.num : Int), muOf ⟨v, 1⟩ ta tb) else none
       | _, _ => none)
    | _, _ => none

/-- Grid point g of stream k written, where its samples complete it (R122). -/
def State.completeCell (s : State) (k g : Nat) : State :=
  let x := s.stream k
  match s.intervalOf k (gridVal g (s.aclkG x.aclk)) with
  | some (n, mu) =>
    let ps := x.nodes.map fun j => x.sampleAt (n + j)
    if ps.all (·.isSome) then s.fillCell k g n mu ((ps.filterMap id).map Sample.tap) else s
  | none => s

/-- The grid points that the clock of stream k has reached and the stream has not written, in grid order. -/
def State.openPoints (s : State) (k : Nat) : List Nat :=
  let x := s.stream k
  match x.next with
  | some n =>
    ((List.range 256).map (n + ·)).filter fun g => !x.wrote g && gridVal g (s.aclkG x.aclk) ≤ (s.aclk x.aclk).val
  | none => []

/-- The grid points of stream k that its samples now complete, written in grid order (R123): one that waits for a missing sample does not hold up
those after it (log 146). -/
def State.completeCells (s : State) (k : Nat) : State :=
  if (s.stream k).st == .running then each (s.openPoints k) (fun y g => y.completeCell k g) s else s

/-- A list put in smpCnt order (R116). -/
def insertAsdu (a : Asdu) : List Asdu → List Asdu
  | [] => [a]
  | b :: l => if a.smpCnt < b.smpCnt then a :: b :: l else b :: insertAsdu a l

/-- The ASDUs of frame f that its stream may use, in smpCnt order, and those discarded (R116, R117). -/
def State.usableAsdus (s : State) (k f : Nat) : List Asdu × Nat :=
  let x := s.stream k
  let p := (s.frame f).par
  let r := frameAsdus (s.frame f).bytes p.asduEnd p.noAsdu p.asduAt
  let good := r.1.takeWhile fun a => a.smpCnt < x.rate
  (good.foldl (fun l a => insertAsdu a l) [], r.1.length - good.length + r.2)

/-- The stream that a frame's result names, where it names one (R79, R115). -/
def Frame.streamIdx (x : Frame) : Option Nat := if fld (x.resW 1) 19 18 = 1 && x.hit != 0 then (let k := fld (x.resW 1) 17 7; if k < 1024 then some k else none) else none

/-- The shape change that frame f carries (R132): confRev and seqData length of the first ASDU that shows it. -/
def State.shapeOf (s : State) (k f : Nat) : Option (Nat × Word × Nat) :=
  let p := (s.frame f).par
  let r := frameAsdus (s.frame f).bytes p.asduEnd p.noAsdu p.asduAt
  (r.1.find? (s.stream k).reshaped).map fun a => (k, BitVec.ofNat 32 a.confRev, a.dataLen)

/-- A stream paused by a frame that changes its shape (R132, EV160). -/
def State.pauseStream (s : State) (k : Nat) (confRev : Word) (len : Nat) : State :=
  if (s.stream k).st == .running then
    ((s.updStream k fun x => { x with rxConfrev := confRev, rxNch := len / x.entry - 1, rxSeqLen := len }).setStreamSt k .paused).sqc
      Reg.SPE_STATUS 0 160
  else s

/-- A shape change judged by its frame's verdict (R132). -/
def State.judgeShape (s : State) (sh : Option (Nat × Word × Nat)) (pass : Bool) : State :=
  match sh with
  | some (k, cr, len) =>
    if pass then s.pauseStream k cr len
    else (s.inc Reg.SPE_SHAPE_FAIL).updStream k fun x => { x with shapeFail := x.shapeFail + 1 }
  | none => s

/-! ## Due times (R127, R128) -/

/-- The instant of sample number m: its own, or counted in periods from the present sample p. -/
def Stream.nominal (x : Stream) (m : Int) (p : Sample) : Frac :=
  match x.sampleAt m with
  | some q => x.at_ q
  | none => ⟨p.t + (m - (p.num : Int)) * (secU : Int), x.rate⟩

/-- The present sample nearest to an instant. -/
def Stream.nearest (x : Stream) (t : Frac) : Option Sample :=
  (x.slots.filter fun q => q.pri.ver != 2).foldl (fun b q =>
    match b with
    | none => some q.pri
    | some p =>
      let d := fun (y : Sample) => (Frac.sub t (x.at_ y))
      if (d q.pri).num.natAbs * (d p).den < (d p).num.natAbs * (d q.pri).den then some q.pri else some p) none

/-- The input interval of a grid point that its clock reached at t, and the position in it (R121), where samples are missing. -/
def State.dueInterval (s : State) (k v : Nat) (t : Frac) : Int × Int :=
  match s.intervalOf k v with
  | some r => r
  | none =>
    let x := s.stream k
    match x.nearest t with
    | some p =>
      let n := (p.num : Int) + Frac.floor (Frac.mul (Frac.sub t (x.at_ p)) ⟨x.rate, secU⟩)
      let a := x.nominal n p
      let b := x.nominal (n + 1) p
      (match s.theta x.aclk a, s.theta x.aclk b with
       | some ta, some tb => if Frac.lt ta tb then (n, muOf ⟨v, 1⟩ ta tb) else (n, muOf t a b)
       | _, _ => (n, muOf t a b))
    | none => (Frac.floor (Frac.mul (Frac.sub t ⟨x.toff * (nsU : Int), 1⟩) ⟨x.rate, secU⟩), 0)

/-- Grid point g of RUNNING stream k completed at its due time: missing samples are counted, and a cell that a tap cannot be found for is
INVALID. -/
def State.completeDue (s : State) (k g : Nat) (t : Frac) : State :=
  let x := s.stream k
  let r := s.dueInterval k (gridVal g (s.aclkG x.aclk)) t
  let s1 := each (x.nodes.map fun j => r.1 + j) (fun y m => if (x.sampleAt m).isNone && 0 ≤ m then y.missSample k m.toNat else y) s
  let ts := x.nodes.map fun j => x.dueTap (r.1 + j)
  if ts.all (·.isSome) then
    let s2 := s1.fillCell k g r.1 r.2 (ts.filterMap id)
    if (List.range x.nch).all fun i => cellValid (s2.cell (256 * (x.csBase + i) + g % 256)) then s2 else s2.sqc Reg.SPE_STATUS 2 163
  else ((s1.updStream k fun y => { y with ivs := ((g, r.1) :: y.ivs).take 64 }).voidCell k g).sqc Reg.SPE_STATUS 2 163

/-- The device time at which grid point g of stream k falls due, where its clock has reached it (R127). -/
def State.dueTime (s : State) (k g : Nat) : Option Frac :=
  (s.timeOfVal (s.stream k).aclk (gridVal g (s.aclkG (s.stream k).aclk))).map fun t =>
    Frac.add t ⟨(s.stream k).dueUs * usU, 1⟩

/-- Cell g of merged stream k at its due time (R120, R127): what a constituent has not written counts as not usable. -/
def State.mergeDue (s : State) (k g : Nat) : State :=
  let x := s.stream k
  let s1 := (s.mergeCell k g).advanceHead k g
  if (List.range x.nch).all fun i => cellValid (s1.cell (256 * (x.csBase + i) + g % 256)) then s1 else s1.sqc Reg.SPE_STATUS 2 163

/-- CELL_DUE (R127, R449): the next grid point of stream k falls due; what is not written is completed, and the cell 8 before it goes to
history. -/
def State.cellDue (s : State) (k : Nat) : State :=
  let x := s.stream k
  match x.due with
  | some g =>
    let reached := match s.dueTime k g with | some t => Frac.le t ⟨s.time, 1⟩ | none => false
    if (x.st == .running || x.st == .paused) && reached then
      let s1 :=
        if x.wrote g then s
        else if x.st == .paused then (s.voidCell k g).sqc Reg.SPE_STATUS 2 163
        else if x.merge then s.mergeDue k g
        else
          match s.timeOfVal x.aclk (gridVal g (s.aclkG x.aclk)) with
          | some t => s.completeDue k g t
          | none => s
      if (s1.stream k).wrote g then
        let s2 := s1.updStream k fun y => { y with due := some (g + 1) }
        if 8 ≤ g then s2.histCopy k (g - 8) else s2
      else s1
    else s
  | none => s

def execCellDue (k : BitVec 10) (s : State) : Host.Outcome State Fault Refusal := done s (s.cellDue k.toNat)

/-! ## Verdicts (R110, R119, R130, R131) -/

/-- The slots of a stream after a passing verdict of frame f: its twins are discarded, its own sample has passed. The count of twins. -/
def Stream.passSlots (x : Stream) (f : Nat) : Stream × Nat :=
  ({ x with slots := x.slots.map fun q =>
       if q.pri.fid = f then { q with pri := { q.pri with ver := 1 }, twin := none }
       else { q with twin := q.twin.map fun p => if p.fid = f then { p with ver := 1 } else p } },
   (x.slots.filter fun q => q.pri.fid == f && q.twin.isSome).length)

/-- The slots of a stream after a failing verdict of frame f: its twin takes its place, or it is absent; a failing twin is discarded. -/
def Stream.failSlots (x : Stream) (f : Nat) : Stream :=
  { x with slots := x.slots.map fun q =>
      if q.pri.fid = f then
        (match q.twin with
         | some p => { q with pri := p, twin := none, failed := some f }
         | none => { q with pri := { q.pri with ver := 2 }, failed := some f })
      else
        match q.twin with
        | some p => if p.fid = f then { q with twin := none } else q
        | none => q }

/-- The grid points of stream k whose cells hold a tap of frame f, in grid order. -/
def State.cellsOf (s : State) (k f : Nat) : List Nat :=
  let x := s.stream k
  let n := x.fin
  ((List.range (min n 256)).map fun i => n - min n 256 + i).filter fun g =>
    let c := s.cellInfo (256 * x.csBase + g % 256)
    x.wrote g && c.g == g && c.fids.contains f

/-- The cells of grid point g of stream k passed through a function of word and record, and merged cells after them. -/
def State.mapCells (s : State) (k g : Nat) (h : Word → CellInfo → Word × CellInfo) : State :=
  let x := s.stream k
  (each (List.range x.nch) (fun y i =>
    let n := 256 * (x.csBase + i) + g % 256
    let r := h (y.cell n) (y.cellInfo n)
    (y.setCell n r.1).setCellInfo n r.2) s).remerge k g

/-- A cell after a passing verdict of frame f (R104): PROVISIONAL clears with the last frame waited for. -/
def passCell (f : Nat) (w : Word) (c : CellInfo) : Word × CellInfo :=
  let left := c.waits.filter (· != f)
  (if left.isEmpty then putBit w 6 false else w, { c with waits := left })

/-- A cell retracted by a failing verdict of frame f (R110). -/
def failCell (f : Nat) (_ : Word) (c : CellInfo) : Word × CellInfo := (0, { c with failed := c.failed ++ [f], waits := c.waits.filter (· != f) })

/-- A grid point retracted for frame f recomputed from what has taken the frame's place (R131), once no other failure holds it: the samples of
its taps must all be here. -/
def State.recoverCell (s : State) (k f g : Nat) : State :=
  let x := s.stream k
  let rest := (s.cellInfo (256 * x.csBase + g % 256)).failed.filter (· != f)
  if !rest.isEmpty then s.mapCells k g fun w c => (w, { c with failed := rest })
  else
    match s.timeOfVal x.aclk (gridVal g (s.aclkG x.aclk)) with
    | none => s
    | some t =>
      let r := s.dueInterval k (gridVal g (s.aclkG x.aclk)) t
      let ts := x.nodes.map fun j => x.dueTap (r.1 + j)
      if ts.all (·.isSome) then
        let taps := ts.filterMap id
        let s1 := each (List.range x.nch) (fun y i =>
          let v := x.cellOf r.2 taps i
          let y1 := y.writeCell (x.csBase + i) g v.1
            { g := g, fids := (taps.flatMap (·.fids)).eraseDups, waits := (taps.flatMap (·.waits)).eraseDups }
          let y2 := (y1.inc Reg.SPE_TWIN_RECOVER).sqc Reg.SPE_STATUS 10 165
          if v.2 then (y2.inc Reg.SPE_SATURATE).sqc Reg.SPE_STATUS 6 168 else y2) s
        s1.remerge k g
      else s

/-- The grid points of stream k that a failure of frame f holds retracted. -/
def State.retractedFor (s : State) (k f : Nat) : List Nat :=
  (s.cellsOf k f).filter fun g => (s.cellInfo (256 * (s.stream k).csBase + g % 256)).failed.contains f

/-- Every cell retracted for the failed primaries that frame f's samples have replaced, recomputed (R131). -/
def State.recoverFor (s : State) (k f : Nat) : State :=
  let failed := ((s.stream k).slots.filter fun q => q.pri.fid == f && q.pri.ver == 1).filterMap (·.failed)
  each failed.eraseDups (fun y h => each (y.retractedFor k h) (fun z g => z.recoverCell k h g) y) s

/-! ## Samples and twins (R119, R129) -/

/-- A slot put among the slots of a stream, newest sample number first; 16 are kept (R119). -/
def insertSlot (q : Slot) : List Slot → List Slot
  | [] => [q]
  | a :: l => if a.pri.num < q.pri.num then q :: a :: l else a :: insertSlot q l

/-- The slot of sample number m passed through g. -/
def Stream.updSlot (x : Stream) (m : Nat) (g : Slot → Slot) : Stream :=
  { x with slots := x.slots.map fun q => if q.pri.num = m then g q else q }

/-- Whether sample number m reaches the SPE late (R129): a cell that needs it has been written. `own` is the failed frame whose place it takes:
cells that rested on that one did not lack the sample (R131). -/
def State.isLate (s : State) (k m : Nat) (own : Option Nat) : Bool :=
  let x := s.stream k
  x.ivs.any fun p =>
    x.nodes.contains ((m : Int) - p.2) &&
    !(match own with
      | some f => (s.cellInfo (256 * x.csBase + p.1 % 256)).g == p.1 && (s.cellInfo (256 * x.csBase + p.1 % 256)).fids.contains f
      | none => false)

/-- Whether a frame's samples go to the trackers at once (R40): it has passed, or it has no context. -/
def Frame.trackNow (x : Frame) : Bool := x.aut = 0 || verdictPass x.verdict

/-- A sample that becomes its slot's sample: it reaches the trackers if it may, late or not it is counted so, and it completes what it can. -/
def State.useSample (s : State) (k : Nat) (p : Sample) (own : Option Nat) : State :=
  let s1 := if p.ver = 2 then s.track k none else if (s.frame p.fid).trackNow then s.track k (some p) else s
  (if s.isLate k p.num own then s1.lateSample k else s1).completeCells k

/-- A sample reaches the SPE (R119): the first copy is the primary, the second its twin, and a third is discarded. -/
def State.takeSample (s : State) (k : Nat) (p : Sample) : State :=
  let x := s.stream k
  match x.slots.find? fun q => q.pri.num == p.num with
  | none =>
    if 16 ≤ x.slots.length && x.slots.all fun q => p.num < q.pri.num then (if s.isLate k p.num none then s.lateSample k else s)
    else
      ((s.inc Reg.SPE_SAMPLES).updStream k fun y =>
        { y with slots := (insertSlot { pri := p, failed := if p.ver = 2 then some p.fid else none } y.slots).take 16 }).useSample k p none
  | some q =>
    if q.second then s.twinDiscard k
    else
      let s1 := s.updStream k fun y => y.updSlot p.num fun z => { z with second := true }
      if p.ver = 2 then s1
      else if q.pri.ver = 2 then
        let s2 := ((s1.inc Reg.SPE_SAMPLES).updStream k fun y => y.updSlot p.num fun z => { z with pri := p }).useSample k p q.failed
        if p.ver = 1 then s2.recoverFor k p.fid else s2
      else if q.pri.ver = 1 then s1.twinDiscard k
      else s1.updStream k fun y => y.updSlot p.num fun z => { z with twin := some p }

/-- A stale sample (R121): before the last 8 ms, or at an instant that has no angle. -/
def State.staleSample (s : State) (k : Nat) (p : Sample) : Bool :=
  let t := (s.stream k).at_ p
  Frac.lt t ⟨(s.time : Int) - 8 * (msU : Int), 1⟩ || (Frac.le t ⟨s.time, 1⟩ && (s.thetaOf k p).isNone)

/-- One ASDU of frame f (R117, R119, R121). -/
def State.takeAsdu (s : State) (k f : Nat) (a : Asdu) : State :=
  let x := s.stream k
  let s1 := if a.smpSynch = 0 then s.sqc Reg.SPE_STATUS 7 169 else s
  if a.smpSynch = 0 && !x.unsyncPol then s1
  else
    let p := x.sample f (s.frame f) a
    if s1.staleSample k p then (s1.inc Reg.SPE_STALE).sqc Reg.SPE_STATUS 5 167 else s1.takeSample k p

/-- The samples of frame f go to the SPE (R115-R123, R132), with the verdict state they have. -/
def State.takeSamples (s : State) (f : Nat) : State :=
  match (s.frame f).streamIdx with
  | none => s
  | some k =>
    if (s.stream k).st == .running && (s.stream k).en && !(s.stream k).merge then
      match s.shapeOf k f with
      | some sh =>
        if (s.frame f).verdict = 0 then s.updFrame f fun x => { x with shape := some sh }
        else s.judgeShape (some sh) (verdictPass (s.frame f).verdict)
      | none =>
        let r := s.usableAsdus k f
        let s1 := if r.2 = 0 then s else (s.add Reg.SPE_ASDU_ERR r.2).sqc Reg.SPE_STATUS 4 166
        each r.1 (fun y a => y.takeAsdu k f a) s1
    else s

/-- At its lane exit a frame's samples are taken; where its ASDUs have not all come, when the tail has (R24, R153). -/
def State.offerSamples (s : State) (f : Nat) : State :=
  if (s.frame f).par.asduEnd ≤ (s.frame f).bytes.length || (s.frame f).tailAt.isSome then s.takeSamples f
  else s.updFrame f fun x => { x with speDue := true }

/-! ## The SPE at a verdict -/

/-- The SPE at a passing verdict of frame f: its samples reach the trackers now, where they could not at their lane exit (R40). -/
def State.spePass (s : State) (f : Nat) : State :=
  match (s.frame f).streamIdx with
  | none => s
  | some k =>
    let ours := (s.stream k).slots.filter fun q => q.pri.fid == f
    let r := (s.stream k).passSlots f
    let s1 := each (List.range r.2) (fun y _ => y.twinDiscard k) (s.setStream k r.1)
    let s2 := if (s.frame f).aut = 0 then s1 else each ours.reverse (fun y q => y.track k (some q.pri)) s1
    let s3 := each (s2.cellsOf k f) (fun y g => y.mapCells k g (passCell f)) s2
    (s3.recoverFor k f).judgeShape (s.frame f).shape true

/-- The retraction event of frame f of stream k over the grid points gs (R110). -/
def State.retraction (s : State) (k f : Nat) (gs : List Nat) : Retraction :=
  let a := (s.usableAsdus k f).1
  { code := (s.frame f).verdict, stream := k, firstSmp := (a.map (·.smpCnt)).headD 0, lastSmp := (a.map (·.smpCnt)).getLastD 0
    firstG := gs.headD 0, lastG := gs.getLastD 0 }

/-- The cells of grid points gs of stream k, and of the streams merged from it, as a read sees them for 16 ns after V (R110): as they were in s. -/
def State.keepSeen (s t : State) (k : Nat) (gs : List Nat) : State :=
  each (gs.flatMap fun g => (k :: s.mergesOf k).flatMap fun j =>
      (List.range (s.stream j).nch).map fun i => 256 * ((s.stream j).csBase + i) + g % 256) (fun y n =>
    if s.cell n = y.cell n then y else y.setCellInfo n { y.cellInfo n with was := s.cell n, wasUntil := s.up + 16 * nsU }) t

/-- The SPE at a failing verdict of frame f (R110): retraction, its event, and recovery from a twin that has passed. The verdict is in the frame's
metadata already. To the trackers a sample that fails is not valid, and the twin that takes its place comes in its stead (R40, R43). -/
def State.speFail (s : State) (f : Nat) : State :=
  match (s.frame f).streamIdx with
  | none => s
  | some k =>
    let ours := (s.stream k).slots.filter fun q => q.pri.fid == f
    let gs := (s.cellsOf k f).filter fun g => (s.cellInfo (256 * (s.stream k).csBase + g % 256)).failed.isEmpty
    let s0 := s.setStream k ((s.stream k).failSlots f)
    let s1 := if (s.frame f).aut = 0 then s0 else each ours.reverse (fun y q =>
      match q.twin with
      | some p => if p.ver = 1 then y.track k (some p) else if p.ver = 0 then y else y.track k none
      | none => y.track k none) s0
    let s2 := each (s1.cellsOf k f) (fun y g => y.mapCells k g (failCell f)) s1
    let s3 := if gs.isEmpty then s2
      else ((s2.inc Reg.AUT_RETRACT).sqc Reg.AUT_STATUS 5 145).retractTasks (s.retraction k f gs)
    let twins := ((s3.stream k).slots.filter fun q => q.failed == some f && q.pri.ver == 1).map (·.pri.fid)
    (s.keepSeen (each twins.eraseDups (fun y h => y.recoverFor k h) s3) k (s.cellsOf k f)).judgeShape (s.frame f).shape false

/-! ## Reading (R135, R136, R140) -/

/-- The evaluation strobe of clock a reaches the SPE (R136): HEAD is latched for every stream bound to it. -/
def State.latchHeads (s : State) (a num : Nat) : State :=
  each (s.streamsOn.filter fun k => (s.stream k).aclk == a)
    (fun y k => y.updStream k fun x => { x with evalHead := x.head, evalNum := BitVec.ofNat 32 num }) s

/-- Word i of the head table entry of stream k (R135). -/
def State.headWord (s : State) (k i : Nat) : Word :=
  let x := s.stream k
  match i with
  | 0 => x.head
  | 1 => x.evalHead
  | 2 => x.evalNum
  | _ => BitVec.ofNat 32 (x.lastSmp % 65536 * 65536 + streamCode x.st)

/-- The snapshot of stream k (R140). -/
def State.streamWords (s : State) (k : Nat) : List Word :=
  let x := s.stream k
  [wordAt x.w 0, wordAt x.w 1, wordAt x.w 2 &&& 0x0FFFFF00#32, wordAt x.w 3, wordAt x.w 4 &&& 0x800FFFFF#32, wordAt x.w 5 &&& 0x00FFFFFF#32,
    wordAt x.w 6, wordAt x.w 7] ++
    [x.missing, x.late, x.twin, x.shapeFail, x.rxConfrev, BitVec.ofNat 32 (x.rxNch % 16 * 65536 + x.rxSeqLen % 65536)]

/-- STREAM_SELECT (R140). -/
def execStreamSelect (who : Accessor) (val : Word) (s : State) : Host.Outcome State Fault Refusal :=
  done s (s.writeCmd who Reg.SPE_STR_SEL fun x =>
    each (List.range 14) (fun y i => y.setReg (Reg.SPE_STR_DATA i) (wordAt (x.streamWords (fld val 9 0)) i))
      (x.setReg Reg.SPE_STR_SEL (BitVec.ofNat 32 (fld val 9 0))))

end Sys2Proof.Machine
end

