-- ==== Sys2Proof/Machine/Ochre.lean ====
section
/-!
DEFINITION. Ochre (R171-R182): pools and buffers, owners and their reserves, ALLOC, TRANSFER, FREE, quarantine, and the commands QUERY and
FREE. RECLAIM, which reaches into the queues, stands in Machine/Switch.lean.
-/

namespace Sys2Proof.Machine

/-- SIZE of pool p in bytes (R171). -/
def State.poolSize (s : State) (p : Nat) : Nat := s.rf (Reg.OCH_POOL_CFG p) 31 23 * 64

/-- COUNT of pool p (R171). -/
def State.poolCount (s : State) (p : Nat) : Nat := s.rf (Reg.OCH_POOL_CFG p) 15 0

/-- The lowest handle of pool p (R172). -/
def State.poolBase (s : State) (p : Nat) : Nat := ((List.range p).map s.poolCount).sum

/-- The pool a handle belongs to, 4 where none does (R172). -/
def State.poolOf (s : State) (h : Nat) : Nat :=
  ((List.range 4).find? fun p => s.poolBase p ≤ h && h < s.poolBase p + s.poolCount p).getD 4

/-- Fr of pool p: the free buffers on its stack. -/
def State.poolFree (s : State) (p : Nat) : Nat := (s.poolCount p - (s.pool p).fresh) + (s.pool p).pushed.length

/-- H of owner o in pool p, as OCH_OWN_HELD shows it (R192). -/
def State.heldBy (s : State) (o p : Nat) : Nat :=
  if p < 2 then s.rf (Reg.OCH_OWN_HELD_LO o) (16 * p + 15) (16 * p)
  else s.rf (Reg.OCH_OWN_HELD_HI o) (16 * (p - 2) + 15) (16 * (p - 2))

/-- The state with H of owner o in pool p set. -/
def State.setHeld (s : State) (o p v : Nat) : State :=
  if p < 2 then s.setRf (Reg.OCH_OWN_HELD_LO o) (16 * p + 15) (16 * p) v
  else s.setRf (Reg.OCH_OWN_HELD_HI o) (16 * (p - 2) + 15) (16 * (p - 2)) v

/-- RSV of owner o in pool p (R192). -/
def State.rsvOf (s : State) (o p : Nat) : Nat := s.rf (Reg.OCH_OWN_RSV o) (8 * p + 7) (8 * p)

/-- U of pool p: what its owners are short of their reserves. -/
def State.poolU (s : State) (p : Nat) : Nat := ((List.range 64).map fun o => s.rsvOf o p - s.heldBy o p).sum

/-- The shared free count of pool p, not below zero. -/
def State.poolShared (s : State) (p : Nat) : Nat := s.poolFree p - s.poolU p

/-- SHORT of pool p (R179). -/
def State.poolShort (s : State) (p : Nat) : Bool := s.poolFree p < s.poolU p

/-- F in bytes (R178). -/
def State.freeF (s : State) : Nat := ((List.range 4).map fun p => s.poolShared p * s.poolSize p).sum

/-- The handle on top of the stack of pool p. -/
def State.poolTop (s : State) (p : Nat) : Nat :=
  match (s.pool p).pushed with
  | h :: _ => h
  | [] => s.poolBase p + (s.pool p).fresh

/-- The stack of pool p without its top. -/
def PoolStack.pop (q : PoolStack) : PoolStack :=
  match q.pushed with
  | _ :: hs => { q with pushed := hs }
  | [] => { q with fresh := q.fresh + 1 }

/-- SHORT of a pool raised where it was not before (R179, EV213). -/
def State.noteShort (s0 s1 : State) : State :=
  each (List.range 4) (fun s p => if s1.poolShort p && !s0.poolShort p then s.sqc Reg.OCH_STATUS 5 213 else s) s1

/-- The low-water mark of pool p follows Fr down (R192). -/
def State.noteLow (s : State) (p : Nat) : State :=
  if s.poolFree p < (s.reg (Reg.OCH_POOL_LOW p)).toNat then s.setReg (Reg.OCH_POOL_LOW p) (BitVec.ofNat 32 (s.poolFree p)) else s

/-- The stack of pool p without handle h, which stands on it (R181). -/
def State.unstack (s : State) (p h : Nat) : PoolStack :=
  let q := s.pool p
  if q.pushed.contains h then { q with pushed := q.pushed.filter (· != h) }
  else
    { q with
      pushed := q.pushed ++ ((List.range (s.poolCount p - q.fresh)).map (s.poolBase p + q.fresh + ·)).filter (· != h)
      fresh := s.poolCount p }

/-- A descriptor read with an uncorrectable error (R181): its buffer is neither owned nor on a stack. -/
def State.quarantineBuf (s : State) (h : Nat) : State :=
  let p := s.poolOf h
  let o := (s.buf h).owner
  let q := if (s.buf h).held then s.pool p else s.unstack p h
  let s1 := (s.setBuf h { s.buf h with held := false, quar := true, bad := false }).setPool p { q with quar := q.quar + 1 }
  let s2 := if (s.buf h).held then s1.setHeld o p (s.heldBy o p - 1) else s1
  (s.noteShort s2).inc Reg.OCH_DESC_UNCORR |>.sqc Reg.OCH_STATUS 3 211

/-- Pool p with every bad descriptor that the next grant would read quarantined; the number bounds the search. -/
def State.purgeTop (p : Nat) : Nat → State → State
  | 0, s => s
  | n + 1, s =>
    if 0 < s.poolFree p ∧ (s.buf (s.poolTop p)).bad = true then State.purgeTop p n (s.quarantineBuf (s.poolTop p)) else s

/-- A grant from pool p to owner o: the top buffer, now owned with no bytes written. -/
def State.grantFrom (s : State) (o p : Nat) : Nat × State :=
  let h := s.poolTop p
  let s1 := (s.setPool p (s.pool p).pop).setBuf h { held := true, quar := false, owner := o, len := 0 }
  (h, ((s1.setHeld o p (s.heldBy o p + 1)).noteLow p).pmuFab 0x8A {} 1)

/-- Whether an ALLOC by o is grantable from the reserve in pool p (R176). -/
def State.reserveGrant (s : State) (o p : Nat) : Bool := s.heldBy o p < s.rsvOf o p && 0 < s.poolFree p

/-- Whether an ALLOC by o is a shared grant in pool p (R176). -/
def State.sharedGrant (s : State) (o p : Nat) : Bool := s.rsvOf o p ≤ s.heldBy o p && 0 < s.poolShared p

/-- A contest for the last shared buffer of pool p (R177): another claimant of this tick took it. -/
def State.noteContest (s : State) (p : Nat) : State := if (s.pool p).lastShared = some s.up then s.inc Reg.OCH_CONTEST else s

/-- The tick in which the last shared buffer of pool p went. -/
def State.noteLast (s : State) (p : Nat) : State :=
  if s.poolShared p = 0 then s.setPool p { s.pool p with lastShared := some s.up } else s

/-- An ALLOC by owner o from the first grantable of a list of pools, smallest first (R176). -/
def State.allocFrom (o : Nat) : List Nat → State → Option Nat × State
  | [], s => (none, ((s.inc Reg.OCH_ALLOC_FAIL).inc (Reg.OCH_OWN_FAIL o)).sqc Reg.OCH_STATUS 0 208)
  | p :: ps, s0 =>
    let s := State.purgeTop p (s0.poolFree p) s0
    if s.reserveGrant o p then (some (s.grantFrom o p).1, (s.grantFrom o p).2)
    else if s.sharedGrant o p then (some (s.grantFrom o p).1, (s.grantFrom o p).2.noteLast p)
    else State.allocFrom o ps ((if ps.isEmpty then s else (s.inc (Reg.OCH_POOL_FALLBACK p)).pmuFab 0x8B {} 1).noteContest p)

/-- ALLOC by owner o of a size (R176): the handle, none where it fails. A request above SIZE_3 fails at once. -/
def State.alloc (s : State) (o size : Nat) : Option Nat × State :=
  State.allocFrom o ((List.range 4).filter fun p => size ≤ s.poolSize p) s

/-- The code of OCH_FREE_ERR (R192). -/
def freeErr (foreign : Bool) (h claimant owner : Nat) : Word :=
  BitVec.ofNat 32 ((if foreign then 2147483648 else 0) + h % 32768 * 65536 + claimant % 64 * 256 + (if foreign then owner % 64 else 0))

/-- FREE of a handle by a claimant (R180): whether it was done, and the state. A descriptor that reads bad is quarantined; a quarantined buffer is
neither free nor owned, so its FREE is neither of the two refusals and does nothing (R181). -/
def State.freeBuf (s : State) (h claimant : Nat) : Bool × State :=
  if (s.buf h).quar then (false, s)
  else if (s.buf h).bad then (false, s.quarantineBuf h)
  else if !(s.buf h).held then
    (false, ((s.inc Reg.OCH_DOUBLE_FREE).setReg Reg.OCH_FREE_ERR (freeErr false h claimant 0)).sqc Reg.OCH_STATUS 1 209)
  else if (s.buf h).owner != claimant then
    (false, ((s.inc Reg.OCH_FOREIGN_FREE).setReg Reg.OCH_FREE_ERR (freeErr true h claimant (s.buf h).owner)).sqc Reg.OCH_STATUS 2 210)
  else
    let p := s.poolOf h
    (true, ((s.setBuf h { s.buf h with held := false }).setPool p { s.pool p with pushed := h :: (s.pool p).pushed }).setHeld claimant p
      (s.heldBy claimant p - 1))

/-- FREE where the outcome does not matter to the caller. -/
def State.free (s : State) (h claimant : Nat) : State := (s.freeBuf h claimant).2

/-- TRANSFER of a buffer to owner o (R175): one write of OWNER, and the charge moves. A descriptor that reads bad is quarantined (R181). -/
def State.transfer (s : State) (h o : Nat) : State :=
  if (s.buf h).quar then s
  else if (s.buf h).bad then s.quarantineBuf h
  else
  let p := s.poolOf h
  let s1 := (s.setBuf h { s.buf h with owner := o }).setHeld (s.buf h).owner p (s.heldBy (s.buf h).owner p - 1)
  State.noteShort s (s1.setHeld o p (s1.heldBy o p + 1))

/-- The bytes written into a buffer, as its descriptor counts them. -/
def State.fillBuf (s : State) (h n : Nat) : State := s.setBuf h { s.buf h with len := n }

/-- The pools rebuilt with all buffers free (R173). -/
def State.rebuildPools (s : State) : State :=
  let s1 := { s with och := { s.och with desc := [], poolStacks := [] } }
  let s2 := each (List.range 64) (fun x o => (x.setReg (Reg.OCH_OWN_HELD_LO o) 0).setReg (Reg.OCH_OWN_HELD_HI o) 0) s1
  each (List.range 4) (fun x p => x.setReg (Reg.OCH_POOL_LOW p) (BitVec.ofNat 32 (x.poolCount p))) s2

/-- The owner of a copy for egress e (R174): 0-19 and 21 are the egress indexes, 20 is Vermilion; 64 + h is host queue h, whose buffers
belong to the group that OCH_HQ_MAP names. -/
def State.ownerOfEgress (s : State) (e : Nat) : Nat :=
  if e < 64 then e else 32 + s.rf (Reg.OCH_HQ_MAP ((e - 64) / 8)) (4 * ((e - 64) % 8) + 3) (4 * ((e - 64) % 8))

/-- LEN of a buffer (R192): the bytes of its frame that have come so far, for a frame or a copy that holds it. -/
def State.bufLen (s : State) (h : Nat) : Nat :=
  match s.pkt.frames.find? fun p => p.2.live && p.2.buf == some h with
  | some p => p.2.bytes.length
  | none =>
    match s.pkt.copies.find? fun p => p.2.live && p.2.buf == h with
    | some p => if p.2.kind == .publication || (s.frame p.2.fid).tailAt.isSome then p.2.len else min p.2.len (s.frame p.2.fid).bytes.length
    | none => (s.buf h).len

/-- The descriptor that QUERY returns (R192). -/
def State.descWord (s : State) (h : Nat) : Word :=
  BitVec.ofNat 32 ((if (s.buf h).held then 2147483648 else 0) + (if (s.buf h).quar then 1073741824 else 0) +
    (s.buf h).owner % 64 * 16777216 + s.poolOf h % 4 * 4194304 + s.bufLen h % 16384)

/-- Whether a handle names a buffer. -/
def State.handleOk (s : State) (h : Nat) : Bool := s.poolOf h < 4

/-- A command of OCH_CMD with its fields stored and its result in OCH_CMD_STATUS (R192). -/
def State.ochResult (s : State) (val : Word) (res : Nat) : State :=
  (s.setReg Reg.OCH_CMD (masked Reg.OCH_CMD val)).setReg Reg.OCH_CMD_STATUS (BitVec.ofNat 32 res)

/-- QUERY (R182). -/
def State.ochQueryCmd (s : State) (val : Word) : State :=
  let h := fld val 14 0
  let s1 := if (s.buf h).bad then s.quarantineBuf h else s
  if s.handleOk h then (s1.setReg Reg.OCH_CMD_RES (s1.descWord h)).ochResult val 0 else s.ochResult val 6

/-- FREE (R182): ADMIN only, and only in RECOVERY; on behalf of the owner the command names, under R180. -/
def State.ochFreeCmd (s : State) (who : Accessor) (val : Word) : State :=
  if !s.isAdmin who then s.ochResult val 5
  else if s.pwr.st != .recovery then s.ochResult val 7
  else if !s.handleOk (fld val 14 0) then s.ochResult val 6
  else
    let r := s.freeBuf (fld val 14 0) (fld val 27 22)
    r.2.ochResult val (if r.1 then 0 else 8)

/-- OCH_QUERY (R182). -/
def execOchQuery (who : Accessor) (val : Word) (s : State) : Host.Outcome State Fault Refusal :=
  done s (s.writeCmd who Reg.OCH_CMD fun x => x.ochQueryCmd (putFld val 31 28 8))

/-- OCH_CMD_FREE (R182). -/
def execOchCmdFree (who : Accessor) (val : Word) (s : State) : Host.Outcome State Fault Refusal :=
  done s (s.writeCmd who Reg.OCH_CMD fun x => x.ochFreeCmd who (putFld val 31 28 9))

/-- POOL_LOW_RESET (R192): any write sets the mark to Fr. -/
def execPoolLowReset (who : Accessor) (p : Fin 4) (s : State) : Host.Outcome State Fault Refusal :=
  done s (s.writeCmd who (Reg.OCH_POOL_LOW p.val) fun x => x.setReg (Reg.OCH_POOL_LOW p.val) (BitVec.ofNat 32 (x.poolFree p.val)))

end Sys2Proof.Machine
end

