-- ==== Sys2Proof/Machine/Switch.lean ====
section
/-!
DEFINITION. The switch core (R153-R164, R169, R175): redundancy copies (R64), admission, start points, transmission with preemption, the end
of a transmission, PAUSE.
-/

namespace Sys2Proof.Machine

/-! ## The bytes of a copy -/

/-- n bytes that nothing constrains: what a frame that ended early is filled with (R161). -/
def State.freeBytes : Nat → State → List Byte × State
  | 0, s => ([], s)
  | n + 1, s =>
    let r := s.freeW
    let q := State.freeBytes n r.2
    (r.1.setWidth 8 :: q.1, q.2)

/-- The offset of a frame's outermost EtherType that is no VLAN tag. -/
def typeOff (x : Frame) : Nat := 12 + 4 * (x.par.vlans.length)

/-- One's complement sum of a number's 16-bit words folded into 16 bits. -/
def fold16 (n : Nat) : Nat := let a := n % 65536 + n / 65536; a % 65536 + a / 65536

/-- A body whose ECN field is set to CE (R157), the IP header at offset i: for IPv4 the checksum is updated incrementally. -/
def ecnMark (b : List Byte) (i : Nat) : List Byte :=
  if leAt b i 1 / 16 = 4 then
    let old := beAt b i 2
    let b1 := setAt b (i + 1) (byteAt b (i + 1) ||| 3)
    let c := 65535 - fold16 ((65535 - beAt b (i + 10) 2) + (65535 - old) + beAt b1 i 2)
    setAt (setAt b1 (i + 10) (BitVec.ofNat 8 (c / 256))) (i + 11) (BitVec.ofNat 8 c)
  else setAt b (i + 1) (byteAt b (i + 1) ||| 0x30)

/-- The offset of the IP header of a frame, where it has one. -/
def ipOff (x : Frame) : Nat := typeOff x + (if x.par.hsrSeq.isSome then 6 else 0) + 2

/-- The ECN field of the frame's IP header, 0 where it has none. -/
def ecnField (x : Frame) : Nat :=
  let b := x.patched (x.bytes.take (ipOff x + 2))
  if x.par.ip4.isSome then beAt b (ipOff x + 1) 1 % 4
  else if x.par.ip6.isSome then beAt b (ipOff x + 1) 1 / 16 % 4 else 0

/-- The RCT of IEC 62439-3 (R64): sequence number, LanId 1010 or 1011 with the LSDU size, suffix 0x88FB. -/
def rctBytes (seq : BitVec 16) (lanB : Bool) (size : Nat) : List Byte :=
  beBytes 2 seq.toNat ++ beBytes 2 ((if lanB then 0xB000 else 0xA000) + size % 4096) ++ beBytes 2 0x88FB

/-- The HSR tag of IEC 62439-3 (R64): EtherType 0x892F, path with the LSDU size, sequence number. -/
def hsrTag (seq : BitVec 16) (portB : Bool) (size : Nat) : List Byte :=
  beBytes 2 0x892F ++ beBytes 2 ((if portB then 0x1000 else 0) + size % 4096) ++ beBytes 2 seq.toNat

/-- The body of a frame (destination address to the byte before the FCS) with the trailer or tag of the group that sends it on egress e. -/
def State.redBody (s : State) (e : Nat) (seq : Option (BitVec 16)) (at_ : Nat) (hsr : Bool) (b : List Byte) : List Byte :=
  let b0 := if hsr && e < 20 && !s.onRing e then b.take at_ ++ b.drop (at_ + 6) else b
  match seq, s.redOf e with
  | some q, some r =>
    let lanB := s.redB r == e
    let size := b0.length - (at_ + 2) + 6
    if s.redPrp r then b0 ++ rctBytes q lanB size
    else if hsr then b0
    else b0.take at_ ++ hsrTag q lanB size ++ b0.drop at_
  | _, _ => b0

/-- The length of a copy on egress e of a frame of n bytes, with what redundancy adds and takes away (R64). -/
def State.wireLen (s : State) (x : Frame) (e n : Nat) (seq : Bool) : Nat :=
  let hsr := x.par.hsrSeq.isSome
  let n0 := if hsr && e < 20 && !s.onRing e then n - 6 else n
  if seq && !(hsr && s.onRing e) then n0 + 6 else n0

/-- The offset of the first EtherType of a publication that is no VLAN tag. -/
def pubTypeOff (b : List Byte) : Nat := if beAt b 12 2 = 0x8100 then 16 else 12

/-- The body of copy c, with what fills a frame that ended early. -/
def State.copyBody (s : State) (c : Copy) : List Byte × State :=
  match c.own with
  | some b => (s.redBody c.eg c.redSeq (pubTypeOff b) false b, s)
  | none =>
    let x := s.frame c.fid
    let n := if c.startAt.isSome && c.kind == .frame then x.lenL - 4 else (if c.kind == .passThrough then c.len - 4 else x.bytes.length - 4)
    let f := State.freeBytes (n - x.bytes.length) s
    let b := if c.kind == .frame then x.patched ((x.bytes ++ f.1).take n) else (x.bytes ++ f.1).take n
    let b1 := if c.ecn then ecnMark b (ipOff x) else b
    ((if c.kind == .passThrough then b1 else s.redBody c.eg c.redSeq (typeOff x) x.par.hsrSeq.isSome b1), f.2)

/-- The FCS that a transmitting MAC sends after a body, inverted where it says so (R159, R108). -/
def fcsBytes (b : List Byte) (inv : Bool) : List Byte :=
  leBytes 4 (if inv then 4294967295 - crc32 0 b else crc32 0 b)

/-! ## Field segments under PLCA (R61, R62) -/

/-- Whether segment g is enabled; whether PLCA governs it now. -/
def State.segOn (s : State) (g : Nat) : Bool := s.rb (Reg.T1S_SEG_CFG g) 31
def State.plcaOn (s : State) (g : Nat) : Bool := s.segOn g && s.rb (Reg.T1S_SEG_CFG g) 30 && !s.pkt.plcaFail.gd false g

/-- The opportunities of segment g. -/
def State.plca (s : State) (g : Nat) : PlcaState := s.pkt.plca.gd {} g
def State.setPlca (s : State) (g : Nat) (x : PlcaState) : State := { s with pkt := { s.pkt with plca := s.pkt.plca.sd {} g x } }

/-- NODE_ID and NODE_CNT of segment g. -/
def State.plcaNode (s : State) (g : Nat) : Nat := s.rf (Reg.T1S_SEG_CFG g) 28 26
def State.plcaCount (s : State) (g : Nat) : Nat := s.rf (Reg.T1S_SEG_CFG g) 25 22

/-- n bit times of a segment at 10 Mb/s. -/
def bitU (n : Nat) : Nat := n * 100 * nsU

/-- Whether a frame is on the medium of segment g. -/
def State.segBusy (s : State) (g : Nat) : Bool :=
  (s.sending (16 + g)).isSome || s.pkt.frames.any fun p => p.2.live && p.2.port == 16 + g && p.2.tailAt.isNone

/-- The node whose transmit opportunity is open on segment g now, NODE_CNT or more once the cycle is over: one that nobody uses lasts TO_TIMER bit
times, and one that is used as long as its frames (R61; Clause 148, log 147). -/
def State.plcaTurnOf (s : State) (g : Nat) : Option Nat :=
  match (s.plca g).at_ with
  | none => none
  | some t =>
    if s.segBusy g then some (s.plca g).node
    else if s.up < t then none
    else some ((s.plca g).node + (s.up - t) / bitU (max 1 (s.rf (Reg.T1S_SEG_CFG g) 21 14)))

/-- Whether the device may transmit on segment g: in its own opportunity under PLCA, at any time under CSMA/CD. -/
def State.plcaTurn (s : State) (g : Nat) : Bool :=
  !s.plcaOn g || (s.plcaNode g < s.plcaCount g && s.plcaTurnOf g == some (s.plcaNode g))

/-- The opportunity open on segment g is taken by a frame. -/
def State.plcaTake (s : State) (g : Nat) : State :=
  match s.plcaTurnOf g with
  | some n => s.setPlca g { s.plca g with node := n, at_ := some s.up }
  | none => s

/-- The frame in an opportunity of segment g has ended: the next node's opens, or, within BURST_CNT, the device's own stays open. -/
def State.plcaDone (s : State) (g : Nat) (own : Bool) : State :=
  let x := s.plca g
  if x.at_.isNone then s
  else if own && x.burst < s.rf (Reg.T1S_SEG_CFG g) 13 6 then s.setPlca g { x with at_ := some s.up, burst := x.burst + 1 }
  else s.setPlca g { node := x.node + 1, at_ := some s.up, burst := 0 }

/-! ## Queues -/

/-- The key of a queue: class tc of egress e, or host queue e - 64. -/
def egKey (e tc : Nat) : Nat := if e < 64 then 8 * e + tc else 512 + (e - 64)

/-- The registers of a queue: its depth, drops, configuration (R169). -/
def depthReg (e tc : Nat) : Nat := if e < 64 then Reg.SWC_Q_DEPTH e tc else Reg.SWC_HQ_DEPTH (e - 64)
def dropReg (e tc : Nat) : Nat := if e < 64 then Reg.SWC_Q_DROP e tc else Reg.SWC_HQ_DROP (e - 64)
def queueCfgReg (e tc : Nat) : Nat := if e < 64 then Reg.SWC_Q_CFG e tc else Reg.SWC_HQ_CFG (e - 64)

/-- A copy dropped at admission (R155). -/
def State.admitDrop (s : State) (e tc : Nat) : State :=
  let s1 := (s.inc (dropReg e tc)).pmuFab 0x89 { tc := some tc } 1
  if e < 64 then (s1.sqc Reg.SWC_STATUS 0 197).sqc (Reg.SWC_EG_STATUS e) 0 noEvent else s1.sqc Reg.SWC_STATUS 1 198

/-- F as the next admission of this fabric cycle sees it (R178). -/
def State.cycleF (s : State) : Nat := if s.och.cycAt = some s.up then s.och.cycF else s.freeF

/-- A new fabric cycle begins: F as the counts stand now (R178). -/
def State.beginFabricCycle (s : State) : State := { s with och := { s.och with cycAt := some s.up, cycF := s.freeF } }

/-- SIZE of the smallest pool that fits a size, zero where none does. -/
def State.fitSize (s : State) (size : Nat) : Nat :=
  match (List.range 4).find? fun p => size ≤ s.poolSize p with
  | some p => s.poolSize p
  | none => 0

/-- Whether a copy of a size may join queue (e, tc) (R155, R156); f is the F that the decision sees. -/
def State.mayQueue (s : State) (e tc size f : Nat) (pub : Bool) : Bool :=
  let cfg := s.reg (queueCfgReg e tc)
  let d := (s.reg (depthReg e tc)).toNat
  d + size ≤ fld cfg 15 0 * 256 && (pub || 16 * d < 2 ^ fld cfg 31 29 * f)

/-- Admission of a copy with its buffer (R155, R156, R175): the handle, none where the copy is dropped. -/
def State.takeIn (s : State) (e tc size f : Nat) (pub : Bool) : Option Nat × State :=
  if s.mayQueue e tc size f pub then
    match s.alloc (if pub then 20 else s.ownerOfEgress e) size with
    | (some h, s1) =>
      (some h, (s1.add (depthReg e tc) (s1.poolSize (s1.poolOf h))).pmuFab 0x88 { tc := some tc } 1)
    | (none, s1) => (none, s1.admitDrop e tc)
  else (none, s.admitDrop e tc)

/-- The F left for the next admission of the cycle (R178). -/
def State.lowerF (s : State) (f size : Nat) : State :=
  { s with och := { s.och with cycAt := some s.up, cycF := f - s.fitSize size } }

/-- A new copy at the end of its queue; its number. -/
def State.enqueue (s : State) (c : Copy) : Nat × State :=
  let n := s.pkt.nextCopy
  let s1 := { s with pkt := { s.pkt with nextCopy := n + 1 } }
  (n, ((s1.setCopy n c).setEgq (egKey c.eg c.tc) (s1.egq (egKey c.eg c.tc) ++ [n])).fillBuf c.buf c.len)

/-- The buffer of copy n freed by its owner, or quarantined (R175, R181), and its bytes taken off D_q. -/
def State.releaseBuf (s : State) (n : Nat) (descBad : Bool) : State :=
  let c := s.copy n
  let size := s.poolSize (s.poolOf c.buf)
  let s1 := s.setReg (depthReg c.eg c.tc) (BitVec.ofNat 32 ((s.reg (depthReg c.eg c.tc)).toNat - size))
  if descBad then s1.quarantineBuf c.buf else s1.free c.buf c.owner

/-- Copy n out of its queue. -/
def State.unqueue (s : State) (n : Nat) : State :=
  let k := egKey (s.copy n).eg (s.copy n).tc
  s.setEgq k ((s.egq k).filter (· != n))

/-- Copy n, out of any queue, ends: its buffer is freed and its record goes. -/
def State.endCopy (s : State) (n : Nat) (descBad : Bool) : State :=
  let f := (s.copy n).fid
  let own := (s.copy n).kind == .publication
  let s1 := ((s.releaseBuf n descBad).unqueue n).setCopy n {}
  if own then s1 else s1.retire f

/-- The queues of an egress flushed (R163, R436). -/
def State.flushQueues (s : State) (e : Nat) : State :=
  each (List.range 8) (fun x tc => each (x.egq (egKey e tc)) (fun y n => y.endCopy n false) x) s

/-! ## Start points (R160) -/

/-- The predicted verdict instant V_p of a frame whose L is known. -/
def State.predictV (s : State) (x : Frame) : Nat :=
  max (x.tHead + spanU (x.lenL * s.byteTime x.port)) (x.clsAt.getD 0) + 120 * nsU

/-- Whether a copy of frame x for egress e may be cut through. -/
def State.cutThrough (s : State) (x : Frame) (e : Nat) : Bool :=
  e < 16 && s.rb (Reg.SWC_EG_CFG e) 31 && x.lenL != 0 && !x.pre

/-- The instant before which an egress would overtake the bytes that arrive. -/
def State.arrivalBound (s : State) (x : Frame) (e len : Nat) : Nat :=
  x.tHead + spanU (s.byteTime x.port + (len - 1) * (s.byteTime x.port - s.byteTime e)) + 8 * nsU

/-- S of a copy of frame x that is cut through, at its lane exit. -/
def State.cutStart (s : State) (x : Frame) (e : Nat) : Nat :=
  max s.up (max (s.arrivalBound x e x.lenL) (s.predictV x - (x.lenL - 4) * s.byteTime e * nsU / 100))

/-- S of copy n, none while it is not known: V of a copy that is stored and forwarded. -/
def State.startPoint (s : State) (n : Nat) : Option Nat :=
  let c := s.copy n
  match c.startAt with
  | some t => some t
  | none =>
    if c.kind == .passThrough then (s.frame c.fid).tailAt
    else if (s.frame c.fid).verdict = 0 then none else some (s.frame c.fid).verdictAt

/-- Whether copy n has reached its start point, and no backoff holds it (R62). -/
def State.reachedS (s : State) (n : Nat) : Bool :=
  (match s.startPoint n with | some t => t ≤ s.up | none => false) && (s.copy n).backTo ≤ s.up

/-! ## Copies at lane exit -/

/-- Whether group r is a RedBox (R64). -/
def State.redBox (s : State) (r : Nat) : Bool := s.redMode r == 2 || s.redMode r == 4

/-- The egress bits of frame f with both ports of each redundancy group that sends it (R64): a frame that came in on the group's own A or B is
not sent by it again. A RedBox sends what comes from its interlink on A and B, and what comes from A or B to its interlink. -/
def State.egressSet (s : State) (f : Nat) : List Nat :=
  let x := s.frame f
  let bits := setBits 22 x.egress
  let more := (List.range 8).flatMap fun r =>
    if !s.redOn r then []
    else if x.port == s.redA r || x.port == s.redB r then (if s.redBox r then [s.redI r] else [])
    else if bits.contains (s.redA r) || bits.contains (s.redB r) || (s.redBox r && x.port == s.redI r) then [s.redA r, s.redB r]
    else []
  ((List.range 20).filter fun e => bits.contains e || more.contains e) ++ [20, 21].filter fun e => bits.contains e

/-- The sequence number under which group r sends frame x, if it does. -/
def State.redSeqFor (s : State) (x : Frame) (e : Nat) : Option (BitVec 16) :=
  match s.redOf e with
  | some r => if x.port != s.redA r && x.port != s.redB r then some (s.group r).txSeq else none
  | none => none

/-- One copy of frame f for egress bit e (R153, R155, R157); fCyc is the F its decision sees. -/
def State.copyTo (s : State) (f e fCyc : Nat) : Bool × State :=
  let x := s.frame f
  let eg := if e = 20 then 64 + x.hostq else e
  let tc := if e = 20 then 0 else x.tc
  let size := s.frameSize f
  let cfg := s.reg (queueCfgReg eg tc)
  let mark := eg < 64 && tbit cfg 28 && fld cfg 27 16 * 256 ≤ (s.reg (depthReg eg tc)).toNat && (ecnField x == 1 || ecnField x == 2)
  match s.takeIn eg tc size fCyc false with
  | (some h, s1) =>
    let seq := s.redSeqFor x e
    let c : Copy :=
      { live := true, kind := .frame, fid := f, eg := eg, tc := tc, buf := h, owner := s.ownerOfEgress eg, size := size
        len := s.wireLen x eg (if x.lenL = 0 then x.bytes.length else x.lenL) seq.isSome
        startAt := if s.cutThrough x eg then some (s.cutStart x eg) else none
        queuedAt := s.up
        cut := s.cutThrough x eg && x.tailAt.isSome && x.bytes.length != x.lenL
        ecn := mark
        redSeq := seq }
    (true, (if mark then s1.inc (Reg.SWC_Q_ECN eg tc) else s1).enqueue c |>.2)
  | (none, s1) => (false, s1)

/-- The copies of a frame, one after another (R175); the first is decided against F as the cycle left it (R178), each later one a cycle on. -/
def State.copiesTo (f : Nat) : List Nat → Bool → Bool → State → Bool × State
  | [], _, any, s => (any, s)
  | e :: es, first, any, s =>
    let fc := if first then s.cycleF else s.freeF
    let r := s.copyTo f e fc
    let s1 := if first && r.1 then r.2.lowerF fc (s.frameSize f) else r.2
    State.copiesTo f es false (any || r.1) s1

/-- The groups that send frame f take a new sequence number. -/
def State.bumpSeq (s : State) (x : Frame) (es : List Nat) : State :=
  each (List.range 8) (fun y r =>
    if y.redOn r && x.port != y.redA r && x.port != y.redB r && (es.contains (y.redA r) || es.contains (y.redB r)) then
      y.setGroup r { y.group r with txSeq := (y.group r).txSeq + 1 } else y) s

/-- The lane buffer of frame f freed on behalf of the owner it was granted or handed to (R175, R180). -/
def State.freeLaneBuf (s : State) (f : Nat) : State :=
  match (s.frame f).buf with
  | some h => (s.free h (s.frame f).bufBy).updFrame f fun x => { x with buf := none }
  | none => s

/-- The copies of frame f that its EGRESS names (R153 step 4). The lane's buffer is freed once the last byte is in every copy, at once where
there is none (R175). -/
def State.makeCopies (s : State) (f : Nat) : State :=
  let es := s.egressSet f
  let r := State.copiesTo f es true false s
  let s1 := r.2.bumpSeq (s.frame f) es
  let s2 := s1.updTag f fun t => { t with low := ((s1.copiesOf f).map fun n => (s1.copy n).eg).min? }
  if !r.1 || (s.frame f).tailAt.isSome then s2.freeLaneBuf f else s2

/-! ## Transmission -/

/-- Whether class tc of egress e is express (R162), and whether its port may preempt (R60). -/
def State.express (s : State) (e tc : Nat) : Bool := e < 16 && s.rb (Reg.SWC_EG_CFG e) (23 + tc)
def State.mayPreempt (s : State) (e : Nat) : Bool :=
  e < 16 && s.rb (Reg.ETH_PREEMPT e) 31 && (s.rb (Reg.ETH_PREEMPT e) 30 || s.rf (Reg.ETH_PORT_STATUS e) 7 5 == 3)

/-- Bytes of copy n sent by now. -/
def State.sentBytes (s : State) (n : Nat) : Nat :=
  let c := s.copy n
  match c.startedAt with
  | some t => c.doneBytes + (s.up - t) * 100 / (s.byteTime c.eg * nsU)
  | none => c.doneBytes

/-- Whether the preemptable copy n under way can be cut into a fragment here: at least the minimum non-final fragment of R60 has gone since it
last started, and a last fragment of 64 bytes is left. -/
def State.canCut (s : State) (n : Nat) : Bool :=
  let c := s.copy n
  !s.express c.eg c.tc && 64 * (1 + s.rf (Reg.ETH_PREEMPT c.eg) 29 28) ≤ s.sentBytes n - c.doneBytes + 4 && s.sentBytes n + 64 ≤ c.len

/-- Whether the line of egress e may carry frames: link up, or a segment that PLCA or its fallback lets transmit (R56, R62), or the pair link
up (R425). -/
def State.lineUp (s : State) (e : Nat) : Bool :=
  if e < 16 then s.rb (Reg.ETH_PORT_STATUS e) 2
  else if e < 20 then
    s.rb (Reg.T1S_SEG_CFG (e - 16)) 31 &&
      (!s.rb (Reg.T1S_SEG_CFG (e - 16)) 30 || !s.pkt.plcaFail.gd false (e - 16) || s.rb (Reg.T1S_SEG_CFG (e - 16)) 29)
  else s.pairUp

/-- Whether a port is stopped by PAUSE (R163). -/
def State.paused (s : State) (e : Nat) : Bool := e < 16 && s.rb (Reg.SWC_EG_STATUS e) 2

/-- Credit of class tc of the pair link, in bytes (R436). -/
def State.credit (s : State) (tc : Nat) : Nat := s.pai.credit.gd 0 tc

/-- Whether the head of class tc of egress e competes (R158): it has reached S and, on the pair link, finds credit. -/
def State.competes (s : State) (e tc : Nat) : Bool :=
  match s.egq (egKey e tc) with
  | n :: _ => s.reachedS n && (e != 21 || (s.copy n).len ≤ s.credit tc)
  | [] => false

/-- Whether class t of egress e contends for the line now: it competes, and with a preemptable frame cut short or under way it is express (R162). -/
def State.contends (s : State) (e t : Nat) : Bool :=
  s.competes e t && (s.express e t || ((s.pkt.preempted.gd none e).isNone && (s.sending e).isNone))

/-- Whether class tc of egress e may start now (R158, R162): nothing under way or what is under way can be preempted, and no higher class
contends. -/
def State.mayStart (s : State) (e tc : Nat) : Bool :=
  s.lineUp e && !s.paused e && (e < 16 || 20 ≤ e || s.plcaTurn (e - 16)) && s.contends e tc && (List.range 8).all (fun t => !(tc < t && s.contends e t)) &&
  (match s.sending e with
   | none => s.pkt.lineAt.gd 0 e ≤ s.up
   | some n => s.mayPreempt e && (s.pkt.preempted.gd none e).isNone && s.canCut n)

/-- Whether the first m bytes of copy n, whose last is leaving now, went before they had come (R161). -/
def State.lacks (s : State) (n m : Nat) : Bool :=
  let c := s.copy n
  let x := s.frame c.fid
  c.kind != .publication && x.tailAt.isNone && decide (s.up < x.headAt + spanU (m * s.byteTime x.port))

/-- The copy under way cut into a fragment (R60). -/
def State.cutFragment (s : State) (e : Nat) : State :=
  match s.sending e with
  | some n =>
    let s1 := s.setCopy n { s.copy n with doneBytes := s.sentBytes n, startedAt := none, under := (s.copy n).under || s.lacks n (s.sentBytes n) }
    ({ s1 with pkt := { s1.pkt with preempted := s1.pkt.preempted.sd none e (some n) } }.inc (Reg.ETH_TX_FRAGMENTS e)).setSending e none
  | none => s

/-- Copy n starts on egress e, after a fragment's CRC and gap where it cut one off. -/
def State.startCopy (s : State) (e tc n : Nat) (cut : Bool) : State :=
  let t := s.up + (if cut then spanU (24 * s.byteTime e) else 0)
  let c := s.copy n
  let s1 := ((s.unqueue n).setCopy n { c with startedAt := some t, startTs := s.time + (t - s.up) }).setSending e (some n)
  let s2 := if e = 21 then
      { s1 with pai := { s1.pai with credit := s1.pai.credit.sd 0 tc (s.credit tc - c.len), spentAt := s1.pai.spentAt.sd 0 tc s.up } }
    else s1
  if c.kind == .frame then
    (s2.updTag c.fid fun r => if r.low = some e then { r with times := r.times.sd 4294967295 15 (s.tagNs c.fid) } else r).tagFlush c.fid
  else s2

/-- Whether an express frame contends for egress e. -/
def State.expressWaits (s : State) (e : Nat) : Bool := (List.range 8).any fun t => s.express e t && s.competes e t

/-- The copy that egress e preempted goes on at an instant. -/
def State.resumeCopy (s : State) (e n t : Nat) : State :=
  let s1 := s.setCopy n { s.copy n with startedAt := some t }
  { s1 with pkt := { s1.pkt with preempted := s1.pkt.preempted.sd none e none } }.setSending e (some n)

/-- The copy that egress e may go on with: preempted, the line free, and no express frame left to go before it (R162). -/
def State.mayResume (s : State) (e : Nat) : Option Nat :=
  if s.lineUp e && (s.sending e).isNone && !s.expressWaits e && s.pkt.lineAt.gd 0 e ≤ s.up then s.pkt.preempted.gd none e else none

/-- EGRESS_START (R158, R160); a preempted copy that nothing holds any more goes on first (R162). -/
def State.egressStart (s : State) (e tc : Nat) : State :=
  match s.mayResume e with
  | some n => s.resumeCopy e n s.up
  | none =>
  if s.mayStart e tc then
    match s.egq (egKey e tc) with
    | n :: _ => (if (s.sending e).isSome then s.cutFragment e else s).startCopy e tc n (s.sending e).isSome
    | [] => s
  else s

def execEgressStart (e : Fin 22) (tc : Fin 8) (s : State) : Host.Outcome State Fault Refusal := done s (s.egressStart e.val tc.val)

/-- When the last byte of copy n has left. -/
def State.copyEnds (s : State) (n : Nat) : Nat :=
  let c := s.copy n
  c.startedAt.getD 0 + spanU ((c.len - c.doneBytes) * s.byteTime c.eg)

/-- Whether a copy under way has been sent as bytes that had not arrived (R161): one of its fragments was, or its frame's tail is not here although
the frame ends no later than L, or came after the last byte was due. -/
def State.underrun (s : State) (n : Nat) : Bool :=
  let c := s.copy n
  let x := s.frame c.fid
  c.under || (c.kind != .publication &&
  (match x.tailAt with
   | some t => decide (s.copyEnds n < t)
   | none => s.lacks n c.len))

/-- A frame longer than the length its copy was given, still arriving at the end of the copy (R161). -/
def State.overlong (s : State) (n : Nat) : Bool :=
  let c := s.copy n
  c.kind != .publication && (s.frame c.fid).tailAt.isNone && !s.underrun n

/-- A length mismatch or underrun on egress e (R161, EV201). -/
def State.noteCut (s : State) (e : Nat) (under : Bool) : State :=
  ((s.inc (if under then Reg.SWC_UNDERRUN e else Reg.SWC_LEN_MISMATCH e)).sqc Reg.SWC_STATUS 4 201).sqc (Reg.SWC_EG_STATUS e) 1 noEvent

/-- A copy that leaves stomped under R108. -/
def State.noteStomp (s : State) (e : Nat) : State :=
  (if e < 16 then s.inc (Reg.ETH_TX_STOMPED e) else if e < 20 then s.inc Reg.AUT_STOMP_T1S else s).sqc Reg.AUT_STATUS 4 144

/-- A frame sent, counted (R88). -/
def State.noteSent (s : State) (e : Nat) (fragments : Bool) : State :=
  if e < 16 then (if fragments then (s.inc (Reg.ETH_TX_FRAMES e)).inc (Reg.ETH_TX_FRAGMENTS e) else s.inc (Reg.ETH_TX_FRAMES e))
  else if e < 20 then s.inc (Reg.T1S_TX_FRAMES (e - 16)) else s

/-- The next use of the line after a frame: preamble, SFD and gap, 20 byte times (R162); a copy that was preempted goes on where no express
frame competes. -/
def State.lineNext (s : State) (e : Nat) : State :=
  let t := s.up + (if e < 20 then spanU (20 * s.byteTime e) else 0)
  let s1 := { s.setSending e none with pkt := { (s.setSending e none).pkt with lineAt := s.pkt.lineAt.sd 0 e t } }
  match s1.pkt.preempted.gd none e with
  | some n => if s1.expressWaits e then s1 else s1.resumeCopy e n t
  | none => s1

/-- The capture record of a transmitted frame (R165). -/
def State.captureEgress (s : State) (e : Nat) (c : Copy) (b : List Byte) : State :=
  let k := s.rf (Reg.SWC_CAP_EGR e) 3 0
  let x := if c.kind == .publication then {} else s.frame c.fid
  if 1 ≤ k && k ≤ 8 then s.capture (k - 1) (capRecord b c.startTs e true x.verdict x.hit b.length) else s

/-- What leaves: a frame, or on the pair link a FRAME cell with its class, its verdict code and the frame (R436). -/
def State.sendCopy (s : State) (e : Nat) (c : Copy) (b : List Byte) (inv : Bool) : State :=
  if e = 21 then s.emit (.cell 5 [c.tc, if c.kind == .publication then 1 else (s.frame c.fid).verdict] b) else s.emit (.frame e b inv)

/-- EGRESS_END (R108, R161, R175, R181): the last byte of the copy under way has left, after the verdict of its frame where V has come (R109). -/
def State.egressEnd (s : State) (e : Nat) (descBad dataBad : Bool) : State :=
  match s.sending e with
  | some n =>
    let c := s.copy n
    if s.copyEnds n ≤ s.up ∧ (c.kind = .frame → s.verdictDue (s.frame c.fid) = false) then
      let under := s.underrun n
      let long := c.cut || s.overlong n
      let inv := c.stomp || long || under || dataBad
      let r := s.copyBody c
      let b := r.1 ++ fcsBytes r.1 inv
      let s1 := (r.2.sendCopy e c b inv).noteSent e (c.doneBytes != 0)
      let s2 := if c.stomp then s1.noteStomp e else s1
      let s3 := if under then s2.noteCut e true else if long then s2.noteCut e false else s2
      let s4 := if dataBad then (s3.inc Reg.OCH_DATA_UNCORR).sqc Reg.OCH_STATUS 4 212 else s3
      let s5 := if c.kind == .publication then s4.pmuFab 0x90 {} 1 else s4
      let s6 := ((s5.captureEgress e c b).endCopy n descBad).lineNext e
      if 16 ≤ e ∧ e < 20 then s6.plcaDone (e - 16) true else s6
    else s
  | none => s

def execEgressEnd (e : Fin 22) (descBad dataBad : Bool) (s : State) : Host.Outcome State Fault Refusal :=
  done s (s.egressEnd e.val descBad dataBad)

/-! ## PAUSE (R163) -/

/-- The port no longer paused. -/
def State.unpause (s : State) (p : Nat) : State :=
  (s.setPause p { s.pause p with until_ := 0, since := none }).setRb (Reg.SWC_EG_STATUS p) 2 false

/-- A received PAUSE of a number of quanta of 512 bit times. Every one is counted as a received frame of 64 bytes. -/
def State.pauseRx (s : State) (p quanta : Nat) : State :=
  let s1 := (s.inc (Reg.ETH_RX_FRAMES p)).add (Reg.ETH_RX_OCTETS_LO p) 64
  let s2 := if s1.reg (Reg.ETH_RX_OCTETS_LO p) < 64 then s1.inc (Reg.ETH_RX_OCTETS_HI p) else s1
  if !s.rb (Reg.ETH_PORT_CFG p) 26 || s.up < (s.pause p).ignoreUntil then s2
  else if quanta = 0 then s2.unpause p
  else
    let z := s.pause p
    (s2.setPause p { z with until_ := s.up + spanU (quanta * 64 * s.byteTime p), since := some (z.since.getD s.up) }).setRb
      (Reg.SWC_EG_STATUS p) 2 true

def execPauseRx (p : Fin 16) (quanta : BitVec 16) (s : State) : Host.Outcome State Fault Refusal :=
  done s (if s.rf (Reg.ETH_PORT_CFG p.val) 31 29 = 0 then s else s.pauseRx p.val quanta.toNat)

/-- PAUSE_QUANTA_EXPIRE. -/
def execPauseQuantaExpire (p : Fin 16) (s : State) : Host.Outcome State Fault Refusal :=
  done s (if s.paused p.val && (s.pause p.val).until_ ≤ s.up then s.unpause p.val else s)

/-- PAUSE_FLUSH: every queue of the port flushed, EV200, PAUSE ignored for the next second. -/
def State.pauseFlush (s : State) (p : Nat) : State :=
  let s1 := (((s.flushQueues p).inc (Reg.SWC_PAUSE_FLUSH p)).sqc Reg.SWC_STATUS 3 200).sqc (Reg.SWC_EG_STATUS p) 3 noEvent
  (s1.setPause p { s1.pause p with ignoreUntil := s.up + secU }).unpause p

/-- Whether port p has been paused without a break for PAUSE_MAX. -/
def State.pauseOld (s : State) (p : Nat) : Bool :=
  match (s.pause p).since with
  | some t => s.paused p && t + s.rf (Reg.SWC_EG_CFG p) 15 0 * usU ≤ s.up
  | none => false

def execPauseFlush (p : Fin 16) (s : State) : Host.Outcome State Fault Refusal :=
  done s (if s.pauseOld p.val then s.pauseFlush p.val else s)

end Sys2Proof.Machine
end

