-- ==== Sys2Proof/Machine/Ingress.lean ====
section
/-!
DEFINITION. The ports (R55-R69): links, the head, bytes and tail of a frame, redundancy, HSR pass-through, field segments; and the
classification of a frame (R78), which brings the parser, the classifier, the MAC table and AUT together.
-/

namespace Sys2Proof.Machine

/-! ## Links (R55, R56, R60) -/

/-- A status bit of port p with its event: bits 15-12 raise EV064 + 4p to EV067 + 4p (R89). -/
def State.portEvent (s : State) (p bit : Nat) : State := s.sqc (Reg.ETH_PORT_STATUS p) bit (64 + 4 * p + (15 - bit))

/-- The verify state a link starts with (R60): DISABLED, or INITIAL where preemption is enabled with verification. -/
def State.verifyStart (s : State) (p : Nat) : Nat := if s.rb (Reg.ETH_PREEMPT p) 31 && !s.rb (Reg.ETH_PREEMPT p) 30 then 1 else 0

/-- PORT_LINK_UP (R56). -/
def execPortLinkUp (p : Fin 16) (s : State) : Host.Outcome State Fault Refusal :=
  done s (
    let mode := s.rf (Reg.ETH_PORT_CFG p.val) 31 29
    if 1 ≤ mode && mode ≤ 4 && !s.rb (Reg.ETH_PORT_STATUS p.val) 2 then
      let s1 := (s.setRb (Reg.ETH_PORT_STATUS p.val) 2 true).setRb (Reg.ETH_PORT_STATUS p.val) 3 true
      let s2 := s1.setRb (Reg.ETH_PORT_STATUS p.val) 4 (3 ≤ mode && s.rb (Reg.ETH_PORT_CFG p.val) 25)
      ((s2.setRf (Reg.ETH_PORT_STATUS p.val) 7 5 (s.verifyStart p.val)).setVerify p.val {}).portEvent p.val 15
    else s)

/-- PORT_LINK_DOWN (R56, R89): PCS_LOCK goes with the lock alone; the other port of its group reports a redundancy fault. -/
def State.linkDown (s : State) (p : Nat) (why : LinkLoss) : State :=
  let s0 := (s.setRb (Reg.ETH_PORT_STATUS p) 2 false).setRb (Reg.ETH_PORT_STATUS p) 4 false
  let s1 := if why = .lock then s0.setRb (Reg.ETH_PORT_STATUS p) 3 false else s0
  let s2 := ((s1.setRf (Reg.ETH_PORT_STATUS p) 7 5 (s.verifyStart p)).setVerify p {}).portEvent p 15
  let s3 := if why = .highBer then s2.portEvent p 14 else s2
  if (s.redOf p).isSome then s3.portEvent (s.redTwin p) 13 else s3

def execPortLinkDown (p : Fin 16) (why : LinkLoss) (s : State) : Host.Outcome State Fault Refusal :=
  done s (if s.rb (Reg.ETH_PORT_STATUS p.val) 2 then s.linkDown p.val why else s)

/-- PREEMPT_VERIFY (R60): an attempt every VERIFY_TIME ms, FAILED after three without a response (IEEE 802.3br); the partner's response; or its own
verify packet, which the port answers while preemption is enabled. -/
def State.preemptVerify (s : State) (p : Nat) (what : VerifyEvent) : State :=
  let v := s.verify p
  let st := s.rf (Reg.ETH_PORT_STATUS p) 7 5
  if what = .response then (if st = 2 then s.setRf (Reg.ETH_PORT_STATUS p) 7 5 3 else s)
  else if what = .partner then (if s.rb (Reg.ETH_PREEMPT p) 31 then s.emit (.verifyPacket p true) else s)
  else if st = 1 || (st = 2 && v.at_ + s.rf (Reg.ETH_PREEMPT p) 7 0 * msU ≤ s.up) then
    if 3 ≤ v.tries then (s.setRf (Reg.ETH_PORT_STATUS p) 7 5 4).portEvent p 12
    else ((s.setVerify p { tries := v.tries + 1, at_ := s.up }).setRf (Reg.ETH_PORT_STATUS p) 7 5 2).emit (.verifyPacket p false)
  else s

def execPreemptVerify (p : Fin 16) (what : VerifyEvent) (s : State) : Host.Outcome State Fault Refusal :=
  done s (if s.rb (Reg.ETH_PORT_STATUS p.val) 2 then s.preemptVerify p.val what else s)

/-! ## Field segments (R61-R63) -/

/-- A status bit of segment g with its event (R89). -/
def State.segEvent (s : State) (g bit : Nat) : State := s.sqc (Reg.T1S_SEG_STATUS g) bit (136 + g)

/-- Whether the cycle of opportunities of segment g is over, or has never begun: the coordinator's BEACON is due (R61). -/
def State.beaconDue (s : State) (g : Nat) : Bool :=
  match (s.plca g).at_ with
  | none => true
  | some _ => match s.plcaTurnOf g with | some n => s.plcaCount g ≤ n | none => false

/-- A BEACON of 20 bit times on segment g: the cycle begins with node 0 (R61). -/
def State.beaconCycle (s : State) (g : Nat) : State := s.setPlca g { node := 0, at_ := some (s.up + bitU 20), burst := 0 }

/-- PLCA_BEACON (R61): sent by the coordinator once every opportunity has passed; on a segment with another coordinator it is the BEACON received. -/
def execPlcaBeacon (g : Fin 4) (s : State) : Host.Outcome State Fault Refusal :=
  done s (
    if s.segOn g.val && s.rb (Reg.T1S_SEG_CFG g.val) 30 then
      (if s.plcaNode g.val = 0 then (if s.beaconDue g.val && !s.segBusy g.val then (s.beaconCycle g.val).emit (.beacon g.val) else s)
       else s.beaconCycle g.val)
    else s)

/-- T1S_PLCA_FAIL (R62). -/
def execT1sPlcaFail (g : Fin 4) (s : State) : Host.Outcome State Fault Refusal :=
  done s (
    if s.plcaOn g.val then { s.segEvent g.val 15 with pkt := { s.pkt with plcaFail := s.pkt.plcaFail.sd false g.val true } } else s)

/-- T1S_PLCA_RECOVER (R62). -/
def execT1sPlcaRecover (g : Fin 4) (s : State) : Host.Outcome State Fault Refusal :=
  done s (
    if s.segOn g.val && s.pkt.plcaFail.gd false g.val then { s with pkt := { s.pkt with plcaFail := s.pkt.plcaFail.sd false g.val false } }
    else s)

/-- Under CSMA/CD a collided frame backs off by a number of 512-bit slots below 2^min(attempts, 10), or is abandoned after 16 attempts (R62). -/
def State.backOff (s : State) (g : Nat) : State :=
  match s.sending (16 + g) with
  | none => s
  | some n =>
    let c := s.copy n
    if 16 ≤ c.attempts + 1 then ((((s.setSending (16 + g) none).endCopy n false).inc (Reg.T1S_TX_ABORT g)).segEvent g 12)
    else
      let r := s.freeN (2 ^ min (c.attempts + 1) 10)
      let k := egKey c.eg c.tc
      let c1 := { c with attempts := c.attempts + 1, startedAt := none, backTo := s.up + r.1 * spanU (64 * s.byteTime (16 + g)) }
      ((r.2.setSending (16 + g) none).setCopy n c1).setEgq k (n :: s.egq k)

/-- T1S_COLLISION (R62). -/
def execT1sCollision (g : Fin 4) (s : State) : Host.Outcome State Fault Refusal :=
  done s (
    if s.plcaOn g.val then ((s.inc (Reg.T1S_COLLISIONS g.val)).inc (Reg.T1S_PLCA_COLL g.val)).segEvent g.val 14
    else if s.segOn g.val then (s.inc (Reg.T1S_COLLISIONS g.val)).backOff g.val
    else s)

/-! ## The head of a frame (R59, R462) -/

/-- Whether an ingress receives frames: an Ethernet port with its link up, an enabled segment. -/
def State.canReceive (s : State) (p : Nat) : Bool :=
  if p < 16 then s.rf (Reg.ETH_PORT_CFG p) 31 29 != 0 && s.rb (Reg.ETH_PORT_STATUS p) 2 else if p < 20 then s.segOn (p - 16) else false

/-- The tag of a frame of port p (R462): the low K bits of the port's LFSR, which then advances; its sequence is the device's own. -/
def State.drawTag (s : State) (p : Nat) : Bool × State :=
  if s.rb Reg.PMU_TAG_CFG 31 then
    let l := s.dbg.lfsr.gd 0 p
    let r := s.freeW
    (l.toNat % 2 ^ s.rf Reg.PMU_TAG_CFG 12 8 == 0, { r.2 with dbg := { r.2.dbg with lfsr := r.2.dbg.lfsr.sd 0 p r.1 } })
  else (false, s)

/-- A new frame of ingress p, whose SFD came `sub` ns after the last tick; its number. -/
def State.newFrame (s : State) (p sub : Nat) (pre : Bool) : Nat × State :=
  let n := s.pkt.nextFrame
  let t := s.drawTag p
  let s1 := { t.2 with pkt := { t.2.pkt with nextFrame := n + 1 } }
  (n, (s1.setFrame n { live := true, port := p, ts := s.portStamp p sub, pre := pre, headAt := s.up, tHead := s.up + sub * nsU + s.portStamp p sub - s.stampNs sub, tag := t.1 }).pmuFab 0x80
    { master := some p } 1)

/-! ## The walk of a frame (R65, R68, R70) -/

/-- What the parser must know of frame f. -/
def State.parseEnv (s : State) (f : Nat) : ParseEnv :=
  let p := (s.frame f).port
  { ring := s.onRing p, ptpOwn := p < 16 && s.rb (Reg.ETH_PORT_CFG p) 24, r905 := s.rf Reg.PRS_CFG 15 0, maxLen := s.maxLen p }

/-- Whether port p is A or B of an HSR RedBox, which bridges the ring to its interlink (R64). -/
def State.onRedBoxRing (s : State) (p : Nat) : Bool := match s.redOf p with | some r => s.redMode r == 4 | none => false

/-- A frame that goes to no lane and gets no classification: PTP messages of a PTP port, MAC control, supervision frames of a group, untagged
ring frames, own frames come round the ring, and ring frames for another node alone, where no RedBox bridges them (R34, R64, R65, R68, R163). -/
def State.consumed (s : State) (f : Nat) (p : Parse) : Bool :=
  let port := (s.frame f).port
  let ring := s.onRing port
  (p.etype == 0x88F7 && (s.parseEnv f).ptpOwn) || p.etype == 0x8808 ||
  ((s.redOf port).isSome && fld p.da 47 8 == 0x01154E0001) ||
  (ring && (p.hsrSeq.isNone || p.sa == Config.ownMac || (!tbit p.da 40 && p.da != Config.ownMac && !s.onRedBoxRing port)))

/-- A frame consumed by its port. Every untagged frame of a ring is counted (R65). -/
def State.consume (s : State) (f : Nat) (p : Parse) : State :=
  let s1 := s.updFrame f fun x => { x with thruOnly := true, loc := .gone, parse := some p }
  if s.onRing (s.frame f).port && p.hsrSeq.isNone then s1.inc (Reg.ETH_RX_UNTAGGED_RING (s.frame f).port) else s1

/-- What a walk over the bytes so far comes to. A frame is consumed once it is known to be no runt (R57). -/
def State.walk (s : State) (f : Nat) : State :=
  let x := s.frame f
  if !x.live || x.parse.isSome || x.thruOnly then s
  else
    match parseLink (s.parseEnv f) (x.bytes.take 256), parseFrame (s.parseEnv f) x.bytes with
    | .go p _ _, r =>
      if s.consumed f p then (if 64 ≤ x.bytes.length then s.consume f p else s)
      else
        match r with
        | .stop q _ => s.updFrame f fun y => { y with parse := some q, parsedAt := s.up }
        | _ => s
    | .stop p _, _ => s.updFrame f fun y => { y with parse := some p, parsedAt := s.up }
    | .more _, _ => s

/-- Bytes of frame f arrive. -/
def State.bytesIn (s : State) (f : Nat) (b : List Byte) : State :=
  if (s.frame f).live && (s.frame f).tailAt.isNone then
    (s.updFrame f fun x => { x with bytes := x.bytes ++ b }).walk f
  else s

/-- PARSE_WALK (R70). -/
def execParseWalk (f : Nat) (bytes : List Byte) (s : State) : Host.Outcome State Fault Refusal := done s (s.bytesIn f bytes)

/-- PACKET_BYTE_ARRIVAL (R225): bytes that a lane's thread may wait for. -/
def execPacketByteArrival (f : Nat) (bytes : List Byte) (s : State) : Host.Outcome State Fault Refusal := done s (s.bytesIn f bytes)

/-! ## The duplicate memory (R65-R67) -/

/-- An entry of a group's memory that is still alive. -/
def State.dupAlive (s : State) (r : Nat) (e : DupEntry) : Bool := s.up < e.at_ + s.rf (Reg.ETH_RED_CFG r) 8 0 * msU

/-- An entry of (source, sequence number). -/
def DupEntry.matches (e : DupEntry) (src : BitVec 48) (seq : BitVec 16) : Bool := e.src == src && e.seq == seq

/-- An entry added at the end of a group's memory: the oldest goes where it is full (R66). -/
def State.dupAdd (s : State) (r port : Nat) (e : DupEntry) : State :=
  let g := s.group r
  if 4096 ≤ g.dup.length then
    ((s.setGroup r { g with dup := g.dup.drop 1 ++ [e] }).inc (Reg.ETH_RED_EVICT r)).portEvent port 13
  else s.setGroup r { g with dup := g.dup ++ [e] }

/-- Frame f, classified with a source and a sequence number, meets the memory of its group (R66): DUP where an entry made by the classification
of another frame is there. -/
def State.dupCheck (s : State) (f : Nat) (seq : BitVec 16) : State :=
  let x := s.frame f
  match s.redOf x.port with
  | none => s
  | some r =>
    let g := s.group r
    match g.dup.find? fun e => e.matches x.par.sa seq && s.dupAlive r e with
    | some e =>
      if e.cls && e.fid != f then
        ((s.updFrame f fun y => { y with dup := true }).inc (Reg.ETH_RED_DUP_DISCARD r)).setGroup r
          { g with dup := g.dup.map fun z => if z = e then { z with dups := z.dups + 1 } else z }
      else s.setGroup r { g with dup := g.dup.map fun z => if z = e then { z with cls := true, fid := f } else z }
    | none => s.dupAdd r x.port { src := x.par.sa, seq := seq, at_ := s.up, fid := f, cls := true, dups := 0 }

/-- The entry that the pass-through of a runt made goes (R57). -/
def State.dupForget (s : State) (f : Nat) : State :=
  match s.redOf (s.frame f).port with
  | some r => s.setGroup r { s.group r with dup := (s.group r).dup.filter fun e => e.cls || e.fid != f }
  | none => s

/-- The entry that frame f made goes when the frame fails its FCS (R67). -/
def State.dupLost (s : State) (f : Nat) : State :=
  match s.redOf (s.frame f).port with
  | none => s
  | some r =>
    let g := s.group r
    let n := ((g.dup.filter fun e => e.cls && e.fid == f).map (·.dups)).sum
    (s.setGroup r { g with dup := g.dup.filter fun e => !(e.cls && e.fid == f) }).add (Reg.ETH_RED_DUP_LOST r) n

/-- DUP_ENTRY_EXPIRE (R66). -/
def execDupEntryExpire (r : Fin 8) (src : BitVec 48) (seq : BitVec 16) (s : State) : Host.Outcome State Fault Refusal :=
  done s (s.setGroup r.val { s.group r.val with
    dup := (s.group r.val).dup.filter fun e => !(e.matches src seq && !s.dupAlive r.val e) })

/-- SUPERVISION_FRAME_RX (R65): the node table of up to 1,024 nodes. -/
def execSupervisionFrameRx (r : Fin 8) (src : BitVec 48) (s : State) : Host.Outcome State Fault Refusal :=
  done s (
    let g := s.group r.val
    if !s.redOn r.val then s
    else if g.nodes.any (·.src == src) then
      s.setGroup r.val { g with nodes := g.nodes.map fun n => if n.src = src then { n with at_ := s.up } else n }
    else if g.nodes.length < 1024 then s.setGroup r.val { g with nodes := g.nodes ++ [{ src := src, at_ := s.up }] }
    else s.inc (Reg.ETH_RED_NODE_FULL r.val))

/-- SUPERVISION_FRAME_TX (R65): every 2 s. -/
def execSupervisionFrameTx (r : Fin 8) (s : State) : Host.Outcome State Fault Refusal :=
  done s (
    let g := s.group r.val
    if s.redOn r.val && g.supAt + 2 * secU ≤ s.up then
      (s.setGroup r.val { g with supAt := s.up, supSeq := g.supSeq + 1 }).emit (.supervision r.val g.supSeq.toNat)
    else s)

/-- NODE_FORGET (R65): after 60 s. -/
def execNodeForget (r : Fin 8) (src : BitVec 48) (s : State) : Host.Outcome State Fault Refusal :=
  done s (s.setGroup r.val { s.group r.val with
    nodes := (s.group r.val).nodes.filter fun n => !(n.src == src && n.at_ + 60 * secU ≤ s.up) })

/-! ## HSR pass-through (R68, R69) -/

/-- The class that the PCP of a frame's outer VLAN tag gives; 0 without a tag. -/
def pcpOf (p : Parse) : Nat := match p.vlans with | v :: _ => v.toNat / 8192 | [] => 0

/-- The size requested for a pass-through frame: by the tag's LSDU size with the bytes before it, or MAXLEN. -/
def State.thruSize (s : State) (port : Nat) (p : Parse) : Nat :=
  let n := typeOff { parse := some p } + 2 + p.hsrSize + 4
  if s.maxLen port < n then s.maxLen port else n

/-- S of a pass-through copy: R160 without the verdict; none where it waits for the tail. -/
def State.thruStart (s : State) (x : Frame) (e size : Nat) : Option Nat :=
  if s.rb (Reg.SWC_EG_CFG e) 31 && !x.pre then some (max s.up (s.arrivalBound x e size)) else none

/-- A ring frame forwarded to the other ring port (R69), unless the memory says that it, or its twin, has been (R68). -/
def State.passThrough (s : State) (f : Nat) (p : Parse) (seq : BitVec 16) (r : Nat) : State :=
  let x := s.frame f
  let e := s.redTwin x.port
  let tc := pcpOf p
  let size := s.thruSize x.port p
  let s0 := s.updFrame f fun y => { y with hsrDone := true }
  if (s.group r).dup.any fun q => q.matches p.sa seq && s.dupAlive r q && q.thru then s0.inc (Reg.ETH_RED_DUP_DISCARD r)
  else
    let s1 := if (s.group r).dup.any fun q => q.matches p.sa seq && s.dupAlive r q then
        s0.setGroup r { s0.group r with
          dup := (s0.group r).dup.map fun q => if q.matches p.sa seq && s.dupAlive r q then { q with thru := true } else q }
      else s0.dupAdd r x.port { src := p.sa, seq := seq, at_ := s.up, fid := f, cls := false, thru := true, dups := 0 }
    let fc := s1.cycleF
    match s1.takeIn e tc size fc false with
    | (some h, s2) =>
      (((s2.lowerF fc size).enqueue
        { live := true, kind := .passThrough, fid := f, eg := e, tc := tc, buf := h, owner := e, size := size, len := size
          startAt := s.thruStart x e size
          queuedAt := s.up
          cut := x.tailAt.isSome && (x.fcsBad || x.bytes.length != size) }).2)
    | (none, s2) => s2

/-- The link header of frame f where it is to pass through now: a tagged ring frame that is neither the node's own nor addressed to it alone. -/
def State.thruLink (s : State) (f : Nat) : Option (Parse × BitVec 16 × Nat) :=
  let x := s.frame f
  if x.live && !x.hsrDone && s.onRing x.port then
    match parseLink (s.parseEnv f) (x.bytes.take 256), s.redOf x.port with
    | .go p _ _, some r =>
      (match p.hsrSeq with
       | some seq => if p.sa = Config.ownMac ∨ p.da = Config.ownMac then none else some (p, seq, r)
       | none => none)
    | _, _ => none
  else none

/-- Whether a pass-through other than frame f's waits that comes before it: on a port of lower PORT_ID, or there before it (R69). -/
def State.thruBefore (s : State) (f : Nat) : Bool :=
  s.pkt.frames.any fun p =>
    p.1 != f && (p.2.port < (s.frame f).port || (p.2.port == (s.frame f).port && p.1 < f)) && (s.thruLink p.1).isSome

/-- Whether any pass-through waits: the requests of the ETH block come before those of the lanes (R69, R155). -/
def State.thruWaits (s : State) : Bool := s.pkt.frames.any fun p => (s.thruLink p.1).isSome

/-- HSR_PASS_THROUGH (R68, R69). -/
def execHsrPassThrough (f : Nat) (s : State) : Host.Outcome State Fault Refusal :=
  done s (
    match s.thruLink f with
    | some (p, seq, r) => if s.thruBefore f then s else s.passThrough f p seq r
    | none => s)

/-! ## Classification (R74, R78) -/

/-- What the parser's end counts (R89). -/
def State.noteReason (s : State) (p : Parse) : State :=
  if p.reason = 1 then (s.inc Reg.PRS_DEEP_CNT).sqc Reg.PRS_STATUS 0 128
  else if p.reason = 2 then (s.inc (Reg.PRS_MAL_CNT p.sub)).sqc Reg.PRS_STATUS 1 129
  else s

/-- The action that frame f takes: HIT, its result or its port's default, and the state with what the lookup counts (R74, R77, R82). A frame
refused under R74 has REASON 2, SUB 0 and HIT 0. -/
def State.lookupFrame (s : State) (f : Nat) : State :=
  let x := s.frame f
  let p := x.par
  if p.reason != 0 then
    (s.noteReason p).updFrame f fun y => { y with hit := 0, dflt := true, res := s.defaultRes x.port true }
  else
    let r := s.clsSearch x.port p
    if r.1.1 = 0 then
      let s1 := (r.2.pmuFab 0x82 { master := some x.port } 1).updFrame f fun y => { y with hit := 0, dflt := true, res := s.defaultRes x.port false }
      if (1 ≤ p.kind && p.kind ≤ 4) || (16 ≤ x.port && x.port < 20) then s1.noteStranger f else s1
    else
      let s1 := r.2.pmuFab 0x81 { master := some x.port } 1
      let w5 := wordAt r.1.2 5
      let s2 := if dialectBad w5 p.dialect.toNat then (s1.inc Reg.PRS_DIALECT_CNT).sqc Reg.PRS_STATUS 2 130 else s1
      if dialectBad w5 p.dialect.toNat && tbit w5 17 then
        s2.updFrame f fun y =>
          { y with hit := 0, dflt := true, res := s.defaultRes x.port true, parse := some { p with reason := 2, sub := 0 }, dialectRef := true }
      else s2.updFrame f fun y => { y with hit := r.1.1, dflt := false, res := r.1.2 }

/-- The context, key stamp and engine of a frame (R95, R101, R102). -/
def State.authFrame (s : State) (f : Nat) : State :=
  let x := s.frame f
  let i := if x.hit = 0 then 0 else s.rxCtx (fld (x.resW 1) 31 20)
  (s.updFrame f fun y => { y with aut := i, keys := if i = 0 then {} else s.keyStamp i }).enterEngine f

/-- The sequence number under which a frame meets its group's memory, where it is known at classification. -/
def Frame.redSeq (x : Frame) : Option (BitVec 16) := match x.par.hsrSeq with | some q => some q | none => x.dupSeq

/-- Classification of frame f (R78). A frame whose action is DROP is discarded here (R82); no register counts it, and its tag record and its V do
(log 152). -/
def State.classifyFrame (s : State) (f : Nat) : State :=
  let x := s.frame f
  let s0 := s.updFrame f fun y =>
    { y with clsAt := some s.up, lan := match s.redOf x.port with | some r => s.redB r == x.port | none => false }
  let s1 := match x.redSeq with | some q => s0.dupCheck f q | none => s0
  let s2 := s1.lookupFrame f
  let ed2 := tbit ((s2.frame f).resW 5) 16
  let s3 := s2.updFrame f fun y => { y with act := fld (y.resW 0) 31 28, test := y.par.isTest ed2, sim := y.par.isSim ed2 }
  let d := s3.daLookup x.port (s3.fwdFid x.par.vlans) x.par.da
  let s4 := (d.2.updFrame f fun y => { y with fwdHit := d.1.1, fwdEgress := d.1.2.1, fwdUser := d.1.2.2 }).authFrame f
  let s5 := s4.tagTime f 4
  let r := s5.police f
  if !r.1 then
    let s6 := ((if x.port < 20 then r.2.inc (Reg.CLS_POL_SHED x.port) else r.2).sqc Reg.CLS_STATUS 4 135).updFrame f fun y =>
      { y with shed := true, loc := .gone }
    (s6.tagEnd f 1).freeLaneBuf f
  else if (s5.frame f).act = 0 then ((r.2.updFrame f fun y => { y with loc := .gone }).tagEnd f 2).freeLaneBuf f
  else r.2

/-- Whether frame x is to be classified (R78, R57): 180 ns after the last byte the parser examined, once it is known to be no runt. On a PRP group the
RCT is the last thing examined, since the frame's entry and its DUP mark are made at classification (R64, R66, log 153). -/
def State.clsReady (s : State) (x : Frame) : Bool :=
  x.live && x.clsAt.isNone && !x.thruOnly && x.parse.isSome && x.parsedAt + 180 * nsU ≤ s.up && 64 ≤ x.bytes.length &&
    (!s.onPrp x.port || x.tailAt.isSome)

/-- Whether another frame is to be classified before frame f: parsed before it, or in the same cycle on a port of lower PORT_ID (R66, R85, R102). -/
def State.clsBefore (s : State) (f : Nat) : Bool :=
  let x := s.frame f
  s.pkt.frames.any fun p =>
    p.1 != f && s.clsReady p.2 &&
    (p.2.parsedAt < x.parsedAt || (p.2.parsedAt == x.parsedAt && (p.2.port < x.port || (p.2.port == x.port && p.1 < f))))

/-- CLASSIFY (R78). In the cycle of a commit strobe it follows the strobe (R95). -/
def execClassify (f : Nat) (s : State) : Host.Outcome State Fault Refusal :=
  done s (if s.clsReady (s.frame f) && !s.clsBefore f && !s.commitDue then s.classifyFrame f else s)

/-! ## The tail of a frame (R57, R58, R64, R72) -/

/-- The RCT of a frame on a PRP group (R64): sequence number and LanId, where the bytes before the FCS hold one whose LSDU size fits. -/
def rctOf (b : List Byte) (at_ : Nat) : Option (BitVec 16 × Nat) :=
  let n := b.length
  if n < 70 then none
  else if beAt b (n - 6) 2 = 0x88FB ∧ beAt b (n - 8) 2 % 4096 = n - 4 - (at_ + 2) then
    some (BitVec.ofNat 16 (beAt b (n - 10) 2), beAt b (n - 8) 2 / 4096)
  else none

/-- A frame's bytes without its RCT. -/
def stripRct (b : List Byte) : List Byte := b.take (b.length - 10) ++ b.drop (b.length - 4)

/-- A received RCT taken off, with its LanId judged (R64, R65). -/
def State.takeRct (s : State) (f : Nat) : State :=
  let x := s.frame f
  let at_ := match parseLink (s.parseEnv f) (x.bytes.take 256) with | .go p _ _ => typeOff { parse := some p } | _ => 12
  match s.redOf x.port with
  | none => s
  | some r =>
    if !s.redPrp r then s
    else
      match rctOf x.bytes at_ with
      | none => s
      | some (q, lan) =>
        let s1 := s.updFrame f fun y => { y with bytes := stripRct y.bytes, dupSeq := some q }
        if lan = (if s.redB r = x.port then 11 else 10) then s1 else (s1.inc (Reg.ETH_RED_WRONG_LAN r)).portEvent x.port 13

/-- The tail length checks (R72): of every frame whose Length field the walk has passed, and of every tagged ring frame. -/
def Frame.tailLenBad (x : Frame) : Bool :=
  let p := x.par
  ((p.kind == 1 || p.kind == 2) && p.appid.isSome && x.bytes.length != max 64 (p.appidAt + p.lenField + 4)) ||
  (p.hsrSeq.isSome && x.bytes.length != max 64 (typeOff x + 2 + p.hsrSize + 4))

/-- A frame received, as its ingress counts it (R87, R88). -/
def State.countRx (s : State) (p n : Nat) (fcsBad reasm : Bool) : State :=
  if p < 16 then
    let s1 := (s.inc (Reg.ETH_RX_FRAMES p)).add (Reg.ETH_RX_OCTETS_LO p) n
    let s2 := if (s1.reg (Reg.ETH_RX_OCTETS_LO p)).toNat < n then s1.inc (Reg.ETH_RX_OCTETS_HI p) else s1
    let s3 := if fcsBad then s2.inc (Reg.ETH_RX_FCS_ERR p) else s2
    if reasm then (s3.inc (Reg.ETH_RX_REASM_ERR p)).portEvent p 12 else s3
  else if p < 20 then (let s1 := s.inc (Reg.T1S_RX_FRAMES (p - 16)); if fcsBad then s1.inc (Reg.T1S_RX_ERR (p - 16)) else s1)
  else s

/-- The copies of frame f, of its own or passed through, once its length is known: a cut-through copy of another length leaves with its FCS
inverted (R161, R69), a stored one has the frame's length. -/
def State.settleCopies (s : State) (f : Nat) : State :=
  let x := s.frame f
  let ns := (s.pkt.copies.filter fun p => p.2.live && p.2.fid == f && p.2.kind != .publication).map Prod.fst
  each ns (fun y n =>
    let c := y.copy n
    if c.kind == .passThrough then y.setCopy n { c with cut := x.fcsBad || x.bytes.length != c.len }
    else if c.startAt.isSome then y.setCopy n { c with cut := c.cut || x.bytes.length != x.lenL }
    else (y.setCopy n { c with len := y.wireLen x c.eg x.bytes.length c.redSeq.isSome }).fillBuf c.buf x.bytes.length) s

/-- The end of frame f: its walk is closed, its length judged, its buffer and copies settled, and what waited for its bytes goes on. -/
def State.closeFrame (s : State) (f : Nat) : State :=
  let x := s.frame f
  let p := parseWhole (s.parseEnv f) x.bytes
  let s1 := if x.parse.isSome then s
    else if s.consumed f p.1 then s.consume f p.1
    else s.updFrame f fun y => { y with parse := some p.1, parsedAt := s.up }
  let bad := !(s1.frame f).thruOnly && (s1.frame f).tailLenBad
  let s2 := s1.updFrame f fun y =>
    { y with tailAt := some s.up, lenBad := bad, parsedAt := if s.onPrp x.port && y.clsAt.isNone then s.up else y.parsedAt }
  let s3 := if bad then s2.inc Reg.PRS_TAIL_LEN else s2
  let s4 := if 16 ≤ x.port && x.port < 20 then s3.plcaDone (x.port - 16) false else s3
  let s5 := if x.fcsBad then s4.dupLost f else s4
  let s6 := (s5.settleCopies f)
  let s7 := if (s6.frame f).loc == .gone && (s6.frame f).buf.isSome then s6.freeLaneBuf f else s6
  let s8 := if (s7.frame f).speDue then (s7.takeSamples f).updFrame f fun y => { y with speDue := false } else s7
  if (s8.frame f).thruOnly then s8.retire f else s8

/-- The end of a runt (R57): a pass-through entry of it goes, and a copy that has passed through leaves with its FCS inverted (R69). -/
def State.runtEnd (s : State) (f : Nat) (all : List Byte) : State :=
  let s1 := s.dupForget f
  let s2 := if 16 ≤ (s.frame f).port && (s.frame f).port < 20 then s1.plcaDone ((s.frame f).port - 16) false else s1
  if s2.hasCopy f then
    (s2.updFrame f fun y => { y with bytes := all, fcsBad := true, tailAt := some s.up, thruOnly := true, loc := .gone }).settleCopies f
  else s2.dropFrame f

/-- The tail of frame f with what its MAC reports (R57, R58). Bytes past MAXLEN are cut off with a bad FCS; a frame below 64 bytes is a runt,
counted as such alone; on a field segment, which has no runt counter, in T1S_RX_ERR (DESIGN CHOICE, log 154). -/
def State.frameTail (s : State) (f : Nat) (rest : List Byte) (fcsGood reasm : Bool) (ext : Option SecExt) : State :=
  let x := s.frame f
  let p := x.port
  if !x.live || x.tailAt.isSome then s
  else
    let all := x.bytes ++ rest
    let over_ := s.maxLen p < all.length
    if all.length < 64 then (if p < 16 then s.inc (Reg.ETH_RX_RUNT p) else if p < 20 then s.inc (Reg.T1S_RX_ERR (p - 16)) else s).runtEnd f all
    else
      let bad := over_ || !fcsGood || reasm
      let s1 := s.updFrame f fun y => { y with bytes := all.take (s.maxLen p), fcsBad := bad, ext := ext }
      let s2 := if over_ && p < 16 then s1.inc (Reg.ETH_RX_OVERSIZE p) else s1
      (((s2.countRx p (min all.length (s.maxLen p)) bad reasm).takeRct f).closeFrame f)

/-- The FEC codewords of a frame on a port that has FEC (R56, R88): those corrected, and those that could not be. -/
def State.countFec (s : State) (p corr uncorr : Nat) : State :=
  if p < 16 && s.rf (Reg.ETH_PORT_CFG p) 28 27 != 0 then
    let s1 := (s.add (Reg.ETH_RX_FEC_CORR p) corr).add (Reg.ETH_RX_FEC_UNCORR p) uncorr
    if uncorr = 0 then s1 else s1.portEvent p 14
  else s

/-- FRAME_TAIL_RX (R58): a frame that holds an uncorrectable codeword fails its FCS (R56). -/
def execFrameTailRx : Nat → List Byte → TailCheck → Bool → Option SecExt → State → Host.Outcome State Fault Refusal
  | f, rest, ⟨fcsGood, fecCorr, fecUncorr⟩, reasmError, ext, s =>
    done s (
      let x := s.frame f
      if x.live && x.tailAt.isNone && x.port < 20 then
        let fec := x.port < 16 && s.rf (Reg.ETH_PORT_CFG x.port) 28 27 != 0
        (s.countFec x.port fecCorr.toNat fecUncorr.toNat).frameTail f rest (fcsGood && (!fec || fecUncorr == 0)) reasmError ext
      else s)

/-- The preemptable frames of port p that are still being assembled. -/
def State.assembling (s : State) (p : Nat) : List Nat :=
  (s.pkt.frames.filter fun q => q.2.live && q.2.port == p && q.2.pre && q.2.tailAt.isNone).map Prod.fst

/-- FRAME_HEAD_RX (R59): a preemptable frame is received only where preemption is enabled; one that starts before the final fragment of another ends
that as a reassembly error (R60). A frame on a field segment takes the transmit opportunity that is open (R61). Frames of PORT_ID 30 and 31 come by
DMA_INJECT and PAIR_FRAME_RX. -/
def execFrameHeadRx : Edge (BitVec 5) → Bool → State → Host.Outcome State Fault Refusal
  | ⟨port, sub⟩, preemptable, s =>
    done s (
      let p := port.toNat
      if s.canReceive p && (!preemptable || (p < 16 && s.rb (Reg.ETH_PREEMPT p) 31)) then
        let s1 := if preemptable then each (s.assembling p) (fun x f => x.frameTail f [] false true none) s else s
        ((if 16 ≤ p then s1.plcaTake (p - 16) else s1).newFrame p sub.val preemptable).2
      else s)

/-- FRAME_OVERSIZE_CUT (R57): a frame still arriving at MAXLEN is cut there. -/
def execFrameOversizeCut (f : Nat) (s : State) : Host.Outcome State Fault Refusal :=
  done s (
    let x := s.frame f
    if x.live && x.tailAt.isNone && x.port < 20 && s.maxLen x.port ≤ x.bytes.length then
      let s1 := s.updFrame f fun y => { y with bytes := y.bytes.take (s.maxLen x.port), fcsBad := true }
      let s2 := if x.port < 16 then s1.inc (Reg.ETH_RX_OVERSIZE x.port) else s1
      (s2.countRx x.port (s.maxLen x.port) true false).closeFrame f
    else s)

/-- T1S_JABBER_CUTOFF (R63): receive activity of segment g longer than 3 ms is cut off and counted. Where it is a frame still arriving, that ends with
a bad FCS; it may also be what goes on after a frame was cut at its greatest length, or no frame at all. -/
def execT1sJabberCutoff (g : Fin 4) (f : Nat) (s : State) : Host.Outcome State Fault Refusal :=
  done s (
    let x := s.frame f
    let count := (s.inc (Reg.T1S_JABBER g.val)).segEvent g.val 13
    if !s.segOn g.val then s
    else if x.live && x.port = 16 + g.val then
      (if x.headAt + 3 * msU < s.up then (if x.tailAt.isNone then count.frameTail f [] false false none else count) else s)
    else if s.segBusy g.val then s
    else count)

end Sys2Proof.Machine
end

