-- ==== Sys2Proof/Machine/Lanes.lean ====
section
/-!
DEFINITION. The packet lanes (R142-R153): lane entry, the stage queues and their threads, release, the reorder buffers, recirculation,
rule-set epochs, lane exit; and RECLAIM of Ochre (R182), which reaches into the queues.
-/

namespace Sys2Proof.Machine

/-! ## Configuration -/

/-- A lane register as the rule-set epoch e has it: the register itself under CUR, what it was under PREV (R152). -/
def State.laneReg (s : State) (e r : Nat) : Word := if e = s.rf Reg.LAN_EPOCH 15 0 then s.reg r else s.pkt.prevLan.gd 0 r

/-- Whether lane l is enabled under epoch e; its number of stages; the depth of an input queue; the hold limit of a stage (R142, R149). -/
def State.laneOn (s : State) (e l : Nat) : Bool := tbit (s.laneReg e (Reg.LAN_CFG l)) 31
def State.laneStages (s : State) (e l : Nat) : Nat := fld (s.laneReg e (Reg.LAN_CFG l)) 28 26 + 1
def State.laneDepth (s : State) (e l st : Nat) : Nat := fld (s.laneReg e (Reg.LAN_STG_CFG l st)) 21 13
def State.laneTmax (s : State) (e l st : Nat) : Nat := fld (s.laneReg e (Reg.LAN_STG_CFG l st)) 12 0

/-- The descriptors of lane l that its stage queues hold, of 512 (R142). -/
def State.laneUsed (s : State) (l : Nat) : Nat := ((List.range 8).map fun st => (s.queue (8 * l + st)).length).sum

/-- Whether stage st of lane l has a free place in its input queue for a packet of epoch e. -/
def State.hasPlace (s : State) (e l st : Nat) : Bool := (s.queue (8 * l + st)).length < s.laneDepth e l st && s.laneUsed l < 512

/-- Whether a packet of epoch e may enter lane l at stage st (R145, R151). -/
def State.mayEnter (s : State) (e l st : Nat) : Bool := s.laneOn e l && st < s.laneStages e l && s.hasPlace e l st

/-! ## Lane entry (R143-R145, R226) -/

/-- The key-field codes that the bits of FIELDS select, in the bit order of `LAN_HASH_CFG` (R144). -/
def hashCodes : List Nat := [1, 2, 4, 5, 6, 8, 9, 10, 11, 12, 13, 14]

/-- The flow hash of a frame (R144). -/
def State.flowHash (s : State) (x : Frame) : Nat :=
  let cfg := s.reg Reg.LAN_HASH_CFG
  let codes := ((List.range 12).filter (tbit cfg ·)).map fun i => hashCodes.getD i 0
  crc32c (fld cfg 31 16) (codes.flatMap fun c => (keyField x.port x.par c).1.getD (List.replicate (keyField x.port x.par c).2 0))

/-- Lane and entry stage of a frame by its action (R143). -/
def State.laneFor (s : State) (x : Frame) : Nat × Nat :=
  if x.action = 2 then (fld (x.resW 0) 27 26, fld (x.resW 0) 25 23)
  else let i := s.flowHash x % 16; (s.rf Reg.LAN_HASH_MAP (2 * i + 1) (2 * i), 0)

/-- The words W16 and W17 that a frame's action sets at its first lane entry (R226). -/
def Frame.entryMeta (x : Frame) : Nat × Nat :=
  (if x.action = 1 then 1048576 else fld (x.resW 2) 21 0,
   fld (x.resW 1) 5 0 * 65536 + (if x.dflt then 0 else fld (x.resW 0) 15 12 * 256) + fld (x.resW 0) 22 20)

/-- The packets at the end of a queue that came into it in this cycle, a NEXT exit or a new frame, latest first: a recirculated one goes before
them (R148). -/
def State.justJoined (s : State) (q : List Nat) : List Nat := q.reverse.takeWhile fun g => (s.frame g).joinedAt == some s.up

/-- Frame f joins the input queue of a stage, recirculated or not (R146, R148); the high-water mark follows (R169). -/
def State.joinQueue (s : State) (f l st : Nat) (re : Bool) : State :=
  let q := s.queue (8 * l + st)
  let late := if re then s.justJoined q else []
  let s1 := (s.updFrame f fun y => { y with loc := .queued l st, joinedAt := if re then none else some s.up }).setQueue (8 * l + st)
    (q.take (q.length - late.length) ++ f :: late.reverse)
  let n := (s1.queue (8 * l + st)).length
  if (s.reg (Reg.LAN_STG_QHWM l st)).toNat < n then s1.setReg (Reg.LAN_STG_QHWM l st) (BitVec.ofNat 32 n) else s1

/-- The end of frame f in the packet path: its buffer is freed, its tag record ends with a code (R175, R462). -/
def State.discard (s : State) (f code : Nat) : State :=
  (((s.updFrame f fun y => { y with loc := .gone }).freeLaneBuf f).tagEnd f code).retire f

/-- The lane buffer of a frame (R175): a new one of the lane owner, or, for an injected frame, its own handed over. -/
def State.laneBuf (s : State) (f l : Nat) : Option Nat × State :=
  match (s.frame f).buf with
  | some h => (some h, s.transfer h (22 + l))
  | none => s.alloc (22 + l) (s.frameSize f)

/-- LANE_ENTRY of frame f into lane l at stage st (R145, R152, R226). -/
def State.enterLane (s : State) (f l st : Nat) : State :=
  let lost := fun (y : State) => ((y.inc (Reg.LAN_ENTRY_DROP l)).sqc Reg.LAN_STATUS 0 192).discard f 2
  if !s.mayEnter (s.rf Reg.LAN_EPOCH 15 0) l st then lost s
  else
    match s.laneBuf f l with
    | (none, s1) => lost s1
    | (some h, s1) =>
      let x := s1.frame f
      let m := x.entryMeta
      let n := x.bytes.length
      let s2 := (s1.updFrame f fun y =>
        { y with entered := true, buf := some h, bufBy := 22 + l, w16 := m.1, w17 := m.2, epoch := s.rf Reg.LAN_EPOCH 15 0, enterAt := s.up }).fillBuf h n
      let s3 := ((s2.inc (Reg.LAN_IN l)).pmuFab 0x86 { master := some x.port } 1).updTag f fun r => { r with lane := l, stage := st }
      (s3.tagTime f 6).joinQueue f l st false

/-- LANE_ENTRY (R145): after classification, with 64 bytes there, of a frame that has an action with a lane. -/
def execLaneEntry (f : Nat) (s : State) : Host.Outcome State Fault Refusal :=
  done s (
    let x := s.frame f
    if x.live && x.loc == .ingress && x.clsAt.isSome && !x.thruOnly && 1 ≤ x.action && x.action ≤ 3 && 64 ≤ x.bytes.length then
      s.enterLane f (s.laneFor x).1 (s.laneFor x).2
    else s)

/-! ## Epochs (R152) -/

/-- Whether a frame's rule-set epoch is neither of the two resident ones. -/
def State.retiredEpoch (s : State) (x : Frame) : Bool := x.epoch != s.rf Reg.LAN_EPOCH 15 0 && x.epoch != s.rf Reg.LAN_EPOCH 31 16

/-- The number of packets in the lanes that are stamped with an epoch. -/
def State.epochRefs (s : State) (e : Nat) : Nat :=
  (s.pkt.frames.filter fun p => p.2.live && p.2.epoch == e &&
    (match p.2.loc with
     | .queued _ _ => true
     | .held _ _ _ => true
     | .reorder _ _ => true
     | _ => false)).length

/-- A packet of a retired epoch discarded at a stage boundary of lane l. -/
def State.epochDrop (s : State) (f l : Nat) : State := ((s.inc (Reg.LAN_EPOCH_DROP l)).sqc Reg.LAN_STATUS 3 195).discard f 4

/-! ## Stages (R146, R150) -/

/-- The bound threads of a stage that are idle. -/
def State.idleBound (s : State) (l st : Nat) : List Nat :=
  (List.range 768).filter fun k =>
    s.thrEn k && s.thrBound k && s.thrLane k == l && s.thrStage k == st && (s.thr k).st == .idle && (s.thr k).packet.isNone

/-- The thread that has been idle longest, the lowest of equals. -/
def State.longestIdle (s : State) : List Nat → Option Nat
  | [] => none
  | k :: ks =>
    match s.longestIdle ks with
    | some j => some (if (s.thr j).idleAt < (s.thr k).idleAt then j else k)
    | none => some k

/-- Whether a frame passes its stages without a thread (R150). -/
def State.bypasses (s : State) (l : Nat) (x : Frame) : Bool := tbit (s.laneReg x.epoch (Reg.LAN_CFG l)) 30 && (x.action == 1 || x.action == 3)

/-- The thread with a number 128 c + 8 k + t below 768. -/
def tidOf (k : Nat) : ThreadId := ⟨⟨k / 128 % 6, by omega⟩, ⟨k % 128 / 8, by omega⟩, ⟨k % 8, by omega⟩⟩

/-- Thread k takes frame f (R146): it starts at the stage program of the frame's epoch (R152) with its marks clear (R105). -/
def State.takePacket (s : State) (f l st k : Nat) : State :=
  let pc := Config.stageEntry l st (s.frame f).epoch
  ((s.updFrame f fun y => { y with loc := .held l st (tidOf k), takenAt := s.up }).updThr k fun t =>
    { t with
      st := .ready, priv := .k, packet := some f, overrun := false
      ctx := { t.ctx with pc := pc, taint := false, mark := false } }).refetch k

/-- The head of a stage's queue out of it and into the reorder buffer (R146, R148). -/
def State.takeHead (s : State) (f l st : Nat) : State :=
  (s.setQueue (8 * l + st) (s.queue (8 * l + st)).tail).setRob (8 * l + st) (s.rob (8 * l + st) ++ [f])

/-- A bypassing frame counts as released at once (R150). -/
def State.bypassStage (s : State) (f l st : Nat) : State :=
  let s1 := (s.takeHead f l st).updFrame f fun y => { y with loc := .reorder l st, relAt := s.up, relDisp := 0, byp := true }
  if (s.frame f).byp then s1 else s1.inc (Reg.LAN_BYPASS l)

/-- STAGE_DISPATCH (R146, R150, R152). -/
def State.dispatch (s : State) (l st : Nat) : State :=
  match s.queue (8 * l + st) with
  | [] => s
  | f :: q =>
    if s.retiredEpoch (s.frame f) then (s.setQueue (8 * l + st) q).epochDrop f l
    else if 64 ≤ (s.rob (8 * l + st)).length then s
    else if s.bypasses l (s.frame f) then s.bypassStage f l st
    else
      match s.longestIdle (s.idleBound l st) with
      | some k => (s.takeHead f l st).takePacket f l st k
      | none => s

def execStageDispatch (l : Fin 4) (st : Fin 8) (s : State) : Host.Outcome State Fault Refusal := done s (s.dispatch l.val st.val)

/-! ## Release (R147, R149) -/

/-- A bound thread with no packet. -/
def State.idleThread (s : State) (k : Nat) : State :=
  s.updThr k fun t => { t with st := .idle, idleAt := s.up, fetched := none, stall := none, overrun := false }

/-- REL by thread k: the packet goes with a disposition once the thread's stores are visible (R286); the first REL after R149 has taken the
packet is ignored and counted; any other without a packet faults ACCESS. -/
def State.relEff (s : State) (k disp lane stage : Nat) : Eff :=
  if (s.thr k).packet.isSome then .gone (((s.drainStores k).releasePkt k disp lane stage).idleThread k)
  else if (s.thr k).overrun then .gone (((s.drainStores k).inc (Reg.LAN_STG_LATE_REL (s.thrLane k) (s.thrStage k))).idleThread k)
  else .fault s 3 0x02010000

/-- The REL instructions (R147): Gs holds the disposition in [1:0], for RECIRC lane [5:4] and stage [10:8]. -/
def execRelNext (t : ThreadId) (gs : Fin 8) (s : State) : Host.Outcome State Fault Refusal :=
  done s (s.issue t (.relNext t gs) 1 [.g gs] (need (s.thrBound (tidNat t))) fun x => x.relEff (tidNat t) 0 0 0)

/-- REL with EXIT. -/
def execRelExit (t : ThreadId) (gs : Fin 8) (s : State) : Host.Outcome State Fault Refusal :=
  done s (s.issue t (.relExit t gs) 1 [.g gs] (need (s.thrBound (tidNat t))) fun x => x.relEff (tidNat t) 1 0 0)

/-- REL with DROP. -/
def execRelDrop (t : ThreadId) (gs : Fin 8) (s : State) : Host.Outcome State Fault Refusal :=
  done s (s.issue t (.relDrop t gs) 1 [.g gs] (need (s.thrBound (tidNat t))) fun x => x.relEff (tidNat t) 2 0 0)

/-- REL with RECIRC (R151). -/
def execRelRecirc (t : ThreadId) (gs : Fin 8) (s : State) : Host.Outcome State Fault Refusal :=
  let k := tidNat t
  done s (s.issue t (.relRecirc t gs) 1 [.g gs] (need (s.thrBound k)) fun x =>
    x.relEff k 3 (fld (x.gOf k gs) 5 4) (fld (x.gOf k gs) 10 8))

/-- Whether thread k has held its packet longer than TMAX of the stage it took it in (R149). -/
def State.heldTooLong (s : State) (k : Nat) : Bool :=
  match (s.thr k).packet with
  | some f =>
    (match (s.frame f).loc with
     | .held l st _ => s.laneTmax (s.frame f).epoch l st != 0 && 64 * s.laneTmax (s.frame f).epoch l st * nsU < 5 * (s.up - (s.frame f).takenAt)
     | _ => false)
  | none => false

/-- STAGE_OVERRUN (R149): the packet is released as DROP, the thread goes on. -/
def execStageOverrun (t : ThreadId) (s : State) : Host.Outcome State Fault Refusal :=
  done s (
    let k := tidNat t
    if s.heldTooLong k then
      (((s.releasePkt k 2 0 0).updThr k fun th => { th with overrun := true }).inc (Reg.LAN_STG_OVERRUN (s.thrLane k) (s.thrStage k))).sqc
        Reg.LAN_STATUS 1 193
    else s)

/-! ## Stage exit (R148, R151) -/

/-- A recirculation of frame f out of lane l (R151). -/
def State.recirculate (s : State) (f l tl ts : Nat) : State :=
  let x := s.frame f
  if tbit (s.laneReg x.epoch (Reg.LAN_CFG tl)) 29 && !x.recirc && s.mayEnter x.epoch tl ts then
    let old := (s.tagRec (s.tagKey f)).times
    let s1 := ((s.tagEnd f 4).tagFlush f).updFrame f fun y => { y with recirc := true, bufBy := 22 + tl }
    let s2 := s1.updTag f fun r =>
      { r with lane := tl, stage := ts, times := (old.filter fun p => p.1 = 4 ∨ p.1 = 5) }
    let s3 := match x.buf with | some h => s2.transfer h (22 + tl) | none => s2
    ((s3.tagTime f 6).inc (Reg.LAN_RECIRC l)).joinQueue f tl ts true
  else ((s.inc (Reg.LAN_RECIRC_DROP l)).sqc Reg.LAN_STATUS 2 194).discard f 4

/-- What becomes of frame f as it leaves stage st of lane l; its place in the next stage has been seen to. -/
def State.leaveStage (s : State) (f l st : Nat) : State :=
  let d := (s.frame f).relDisp
  let s1 := { s.setRob (8 * l + st) (s.rob (8 * l + st)).tail with
    pkt := { (s.setRob (8 * l + st) (s.rob (8 * l + st)).tail).pkt with lastExit := s.pkt.lastExit.sd 0 (8 * l + st) s.up } }
  let s2 := s1.tagTime f (7 + st)
  if d % 4 = 2 then (s2.inc (Reg.LAN_CODE_DROP l)).discard f 3
  else if s2.retiredEpoch (s2.frame f) then s2.epochDrop f l
  else if d % 4 = 3 then s2.recirculate f l (d / 4 % 4) (d / 16)
  else if d % 4 = 0 && st + 1 < s.laneStages (s.frame f).epoch l then s2.joinQueue f l (st + 1) false
  else s2.updFrame f fun y => { y with loc := .left l, leftAt := s.up }

/-- Whether frame f, released from stage st of lane l, waits for a place in the next stage (R148). -/
def State.waitsPlace (s : State) (f l st : Nat) : Bool :=
  (s.frame f).relDisp % 4 == 0 && st + 1 < s.laneStages (s.frame f).epoch l && !s.retiredEpoch (s.frame f) &&
    !s.hasPlace (s.frame f).epoch l (st + 1)

/-- STAGE_EXIT (R148): the head of the reorder buffer, 8 ns after its release and after the exit before it. -/
def State.stageExit (s : State) (l st : Nat) : State :=
  match s.rob (8 * l + st) with
  | [] => s
  | f :: _ =>
    let x := s.frame f
    if x.loc == .reorder l st && max x.relAt (s.pkt.lastExit.gd 0 (8 * l + st)) + 8 * nsU ≤ s.up && !s.waitsPlace f l st then s.leaveStage f l st
    else s

def execStageExit (l : Fin 4) (st : Fin 8) (s : State) : Host.Outcome State Fault Refusal := done s (s.stageExit l.val st.val)

/-! ## Lane exit (R153) -/

/-- The exit of frame f from lane l. -/
def State.exitLane (s : State) (f l : Nat) : State :=
  let x := s.frame f
  let s1 := s.inc (Reg.LAN_OUT l)
  let s2 := if x.egress = 0 && x.cap = 0 then s1.inc (Reg.LAN_CODE_DROP l) else s1
  let s3 := (s2.offerSamples f).updFrame f fun y => { y with loc := .gone, exitAt := s.up }
  let s4 :=
    if verdictFail x.verdict then (s3.inc Reg.AUT_EGRESS_DROP).freeLaneBuf f
    else if x.dup then s3.freeLaneBuf f
    else s3.makeCopies f
  let s5 := if x.verdict != 0 && !x.dup then s4.captureFrame f else s4
  (s5.tagEnd f 0).retire f

/-- The lane whose last stage frame x has left, if it has not left the lane. -/
def Frame.leftLane (x : Frame) : Option Nat := match x.loc with | .left l => if x.live then some l else none | _ => none

/-- Whether another frame leaves the lanes before frame f: it left its last stage before, or in the same cycle in a lower lane (R24, R153, R155). -/
def State.exitBefore (s : State) (f l : Nat) : Bool :=
  s.pkt.frames.any fun p =>
    p.1 != f &&
    (match p.2.leftLane with
     | some k => p.2.leftAt < (s.frame f).leftAt || (p.2.leftAt == (s.frame f).leftAt && (k < l || (k == l && p.1 < f)))
     | none => false)

/-- LANE_EXIT (R153), after the pass-through requests of its cycle (R155). -/
def execLaneExit (f : Nat) (s : State) : Host.Outcome State Fault Refusal :=
  done s (
    match (s.frame f).leftLane with
    | some l => if s.exitBefore f l || s.thruWaits then s else s.exitLane f l
    | none => s)

/-- QHWM_RESET (R169). -/
def execQhwmReset (who : Accessor) (l : Fin 4) (st : Fin 8) (s : State) : Host.Outcome State Fault Refusal :=
  done s (s.writeCmd who (Reg.LAN_STG_QHWM l.val st.val) fun x => x.setReg (Reg.LAN_STG_QHWM l.val st.val) 0)

/-! ## RECLAIM (R182) -/

/-- The copies in queues whose buffer owner o holds; the frames before a lane or in a stage's queue whose buffer it holds. -/
def State.queuedCopies (s : State) (o : Nat) : List Nat :=
  (s.pkt.copies.filter fun p =>
    p.2.live && p.2.owner == o && (s.egq (egKey p.2.eg p.2.tc)).contains p.1).map Prod.fst
def State.queuedFrames (s : State) (o : Nat) : List Nat :=
  (s.pkt.frames.filter fun p =>
    p.2.live && (match p.2.buf with | some h => (s.buf h).owner == o | none => false) &&
    (match p.2.loc with
     | .ingress => true
     | .queued _ _ => true
     | _ => false)).map Prod.fst

/-- Frame f out of the stage queue it is in. -/
def State.dequeueFrame (s : State) (f : Nat) : State :=
  match (s.frame f).loc with
  | .queued l st => s.setQueue (8 * l + st) ((s.queue (8 * l + st)).filter (· != f))
  | _ => s

/-- RECLAIM of owner o. -/
def State.reclaim (s : State) (o : Nat) : State :=
  each (s.queuedFrames o) (fun y f => (y.dequeueFrame f).discard f 4) (each (s.queuedCopies o) (fun y n => y.endCopy n false) s)

/-- OCH_RECLAIM (R182): ADMIN only, and only in RECOVERY. -/
def execOchReclaim (who : Accessor) (val : Word) (s : State) : Host.Outcome State Fault Refusal :=
  done s (s.writeCmd who Reg.OCH_CMD fun x =>
    let v := putFld val 31 28 10
    if !x.isAdmin who then x.ochResult v 5
    else if x.pwr.st != .recovery then x.ochResult v 7
    else (x.reclaim (fld v 27 22)).ochResult v 0)

end Sys2Proof.Machine
end

