-- ==== Sys2Proof/Machine/Verdict.lean ====
section
/-!
DEFINITION. The verdict of a frame (R101, R103) and what it does (R108, R110, R165, R187).
-/

namespace Sys2Proof.Machine

/-- Whether another frame is due its verdict before frame f (R103): one of the same port that was classified before it, or one of another port whose
V is earlier, or falls in the same cycle on a port of lower PORT_ID. -/
def State.verdictBefore (s : State) (f : Nat) : Bool :=
  let x := s.frame f
  s.pkt.frames.any fun p =>
    p.1 != f && s.verdictDue p.2 &&
    (if p.2.port = x.port then p.2.clsAt.getD 0 < x.clsAt.getD 0 || (p.2.clsAt == x.clsAt && p.1 < f)
     else p.2.vAt.getD 0 < x.vAt.getD 0 || (p.2.vAt == x.vAt && p.2.port < x.port))

/-- What a failing verdict does to copy n (R108). -/
def State.failCopy (s : State) (n : Nat) : State :=
  let c := s.copy n
  if c.eg = 21 then s
  else if 64 ≤ c.eg then
    if s.rb Reg.AUT_CFG 0 then s else ((s.inc (Reg.SWC_HQ_DROP (c.eg - 64))).sqc Reg.SWC_STATUS 1 198).endCopy n false
  else if c.startedAt.isSome || c.doneBytes != 0 then s.setCopy n { c with stomp := true }
  else (s.inc Reg.AUT_EGRESS_DROP).endCopy n false

/-- The word of a tag record that holds V, in the records of both passes (R462). -/
def State.tagV (s : State) (f : Nat) : State :=
  if (s.frame f).tag then
    each [2 * f, 2 * f + 1] (fun y k =>
      if y.tagRec k = {} then y else y.setTagRec k { y.tagRec k with times := (y.tagRec k).times.sd 4294967295 5 (y.tagNs f) }) s
  else s

/-- The verdict of frame f, written into its metadata, counted and acted on. -/
def State.giveVerdict (s : State) (f : Nat) : State :=
  let code := s.verdictCode f
  let s1 := ((s.bookCtx f code).bookVerdict f code).updFrame f fun y => { y with verdict := code, verdictAt := s.up }
  let x := s1.frame f
  let s2 := (s1.tagV f).pmuFab (if verdictPass code then 0x83 else 0x84) { master := some x.port } 1
  let s3 := if verdictPass code then s2.spePass f else (each (s2.copiesOf f) (fun y n => y.failCopy n) s2).speFail f
  let s4 := if x.exitAt != 0 && !x.dup then s3.captureFrame f else s3
  let s5 := if verdictPass code && !x.dup then s4.saLearn x.port (s4.fwdFid x.par.vlans) x.par.sa else s4
  s5.retire f

/-- VERDICT (R101). -/
def execVerdict (f : Nat) (s : State) : Host.Outcome State Fault Refusal :=
  done s (if s.verdictDue (s.frame f) && !s.verdictBefore f then s.giveVerdict f else s)

end Sys2Proof.Machine
end

