-- ==== Sys2Proof/Machine/Voter.lean ====
section
/-!
DEFINITION. Vermilion and field I/O (R300-R321): channels, slots and the vote, strobes, disagreement records, publications, hardwired
outputs, contact inputs, the sequence of events; and the commands of the VRM and FIO pages.
-/

namespace Sys2Proof.Machine

/-! ## Configuration of a channel (R300, R320) -/

/-- MODE, angle clock, WIN, K and the number of used slots of channel ch. The reserved modes use no slot. -/
def State.chMode (s : State) (ch : Nat) : Nat := s.rf (Reg.VRM_CH_CFG ch) 31 29
def State.chClock (s : State) (ch : Nat) : Nat := s.rf (Reg.VRM_CH_CFG ch) 28 25
def State.chWin (s : State) (ch : Nat) : Nat := s.rf (Reg.VRM_CH_CFG ch) 24 21 + 1
def State.chUsed (s : State) (ch : Nat) : Nat := match s.chMode ch with | 1 => 1 | 2 => 2 | 3 => 2 | 4 => 3 | _ => 0
def State.chK (s : State) (ch : Nat) : Nat := match s.chMode ch with | 1 => 1 | 2 => 1 | 3 => 2 | 4 => 2 | _ => 0

/-- Slot k of a channel, and the channel with slot k replaced. -/
def VrmChan.slot (c : VrmChan) (k : Nat) : VrmSlot := match k with | 0 => c.s0 | 1 => c.s1 | _ => c.s2
def VrmChan.setSlot (c : VrmChan) (k : Nat) (v : VrmSlot) : VrmChan :=
  match k with
  | 0 => { c with s0 := v }
  | 1 => { c with s1 := v }
  | _ => { c with s2 := v }

/-- The channel with every slot ABSENT. -/
def VrmChan.absentAll (c : VrmChan) : VrmChan := { c with s0 := {}, s1 := {}, s2 := {}, disRun := 0 }

/-- The state with channel ch passed through g. -/
def State.updVch (s : State) (ch : Nat) (g : VrmChan → VrmChan) : State := s.setVch ch (g (s.vch ch))

/-- The number of the evaluation that clock n made last (R45, R53). -/
def State.evalNumber (s : State) (n : Nat) : Nat :=
  (s.reg (Reg.IND_ACLK_EVAL_LO n)).toNat + 4294967296 * s.rf (Reg.IND_ACLK_EVAL_HI n) 7 0

/-! ## FAILED, H, K', BLOCKED (R304) -/

/-- Whether the partner is in SERVICE (R304), by its last heartbeat. -/
def State.partnerServes (s : State) : Bool :=
  s.pairUp && (match s.pai.lastHb with | some (h, _) => h.state == 4 | none => false)

/-- Whether slot k of channel ch is FAILED now. A partition is live in RUNNING and DRAINING (R344). -/
def State.slotFails (s : State) (ch k : Nat) : Bool :=
  let w := s.reg (Reg.VRM_CH_IN ch k)
  let n := 1024 * fld w 29 27 + fld w 26 17
  let p := (s.part (s.task n).part).st
  (fld w 31 30 == 1 &&
    (s.taskState n == .disabled || s.taskState n == .faulted || !(p == 4 || p == 5) || s.clu.resetting.gd false (fld w 29 27))) ||
  (fld w 31 30 == 2 && !s.partnerServes) ||
  (fld w 7 0 != 0 && fld w 7 0 ≤ ((s.vch ch).slot k).absent)

/-- The used slots of a channel that are not FAILED. -/
def State.liveSlots (s : State) (ch : Nat) : List Nat := (List.range (s.chUsed ch)).filter fun k => !s.slotFails ch k

/-- H, K', BLOCKED and T of a channel (R304, R305). -/
def State.chH (s : State) (ch : Nat) : Nat := (s.liveSlots ch).length
def State.chKeff (s : State) (ch : Nat) : Nat := if s.rb (Reg.VRM_CH_CFG ch) 11 then min (s.chK ch) (s.chH ch) else s.chK ch
def State.chBlocked (s : State) (ch : Nat) : Bool := s.chH ch < s.chKeff ch || s.chH ch == 0
def State.chT (s : State) (ch : Nat) : Nat := ((s.liveSlots ch).filter fun k => ((s.vch ch).slot k).val == 2).length

/-- A slot becomes FAILED or ceases to be (R304, EV275). -/
def State.judgeSlot (s : State) (ch k : Nat) : State :=
  let f := s.slotFails ch k
  let v := (s.vch ch).slot k
  let s1 := if f && !v.failed then s.sqc Reg.VRM_STATUS 3 275 else s
  if f == v.failed then s1 else s1.updVch ch fun c => c.setSlot k { c.slot k with failed := f }

/-- The slots of a channel and its BLOCKED bit judged (R304, EV276). -/
def State.judgeChan (s : State) (ch : Nat) : State :=
  if (s.vch ch).st = 2 then s
  else
    let s1 := each (List.range (s.chUsed ch)) (fun y k => y.judgeSlot ch k) s
    let b := s1.chBlocked ch
    let s2 := if b && !(s1.vch ch).blocked then s1.sqc Reg.VRM_STATUS 4 276 else s1
    if b == (s1.vch ch).blocked then s2 else s2.updVch ch fun c => { c with blocked := b }

/-- The channels that are enabled, ascending. -/
def State.chansOn (s : State) : List Nat := (s.vrm.chans.filter fun p => p.2.st != 2).map Prod.fst

/-- Every enabled channel judged: what a tick does (a task, a partition or the partner may have changed). -/
def State.judgeChans (s : State) : State := each s.chansOn (fun y ch => y.judgeChan ch) s

/-! ## Sequence of events (R319) -/

/-- The ring of the SOE recorder. -/
def State.soeRing (s : State) : Ring :=
  { key := 22
    baseLo := Reg.FIO_SOE_BASE_LO
    baseHi := Reg.FIO_SOE_BASE_HI
    wr := Reg.FIO_SOE_WR
    rd := Reg.FIO_SOE_RD
    size := s.rf Reg.FIO_SOE_CFG 4 0
    overwrite := s.rb Reg.FIO_SOE_CFG 30
    depth := 64
    lost := fun x => (x.inc Reg.FIO_SOE_DROP).sqc Reg.FIO_STATUS 3 283 }

/-- An SOE entry: kind (0 input, 1 output, 2 channel), index, level, CHATTER, CHAT_END, PROV_TRIP, timestamp. -/
def State.soe (s : State) (kind idx : Nat) (level chat ended prov : Bool) (t : Nat) : State :=
  if s.rb Reg.FIO_SOE_CFG 31 then
    let b := fun (c : Bool) (n : Nat) => if c then n else 0
    let s1 := { s with vrm := { s.vrm with soeSeq := (s.vrm.soeSeq + 1) % 256 } }
    s1.ringPut s1.soeRing (recordBytes (timeWords t ++
      [BitVec.ofNat 32 (kind * 1073741824 + idx % 256 * 4194304 + b level 2097152 + b chat 1048576 + b ended 524288 + b prov 262144 +
        s.timeQuality * 256 + s.vrm.soeSeq)]))
  else s

/-! ## Hardwired outputs (R312-R315) -/

/-- The state with output o passed through g. -/
def State.updFout (s : State) (o : Nat) (g : FioOut → FioOut) : State := s.setFout o (g (s.fout o))

/-- Whether output o is enabled, and whether the votes drive outputs in this device state (R483). -/
def State.outOn (s : State) (o : Nat) : Bool := s.rb (Reg.FIO_OUT_CFG o) 31
def State.votesDrive (s : State) : Bool := s.pwr.st == .service || s.pwr.st == .recovery

/-- Whether channel ch is TRIPPED. -/
def State.tripped (s : State) (ch : Nat) : Bool := (s.vch ch).st == 1

/-- Whether output o is armed (R312, R314). -/
def State.armed (s : State) (o : Nat) : Bool :=
  !s.rb (Reg.FIO_OUT_CFG o) 30 || s.tripped (s.rf (Reg.FIO_OUT_CFG o) 15 8) || s.up < (s.fout o).armUntil ||
  (match (s.fout o).testArm with | some t => s.up < t | none => false)

/-- The level of output o set, with its SOE entry where it changes. -/
def State.driveOut (s : State) (o : Nat) (level : Bool) : State :=
  let s1 := s.updFout o fun x => { x with on := level }
  if (s.fout o).on == level then s1 else s1.soe 1 o level false false false s.time

/-- Output o asserts, or, asserted already, starts its TMIN again (R312, EV280). -/
def State.assertOut (s : State) (o : Nat) : State :=
  let s1 := (s.updFout o fun x => { x with onAt := s.up, ready := false }).driveOut o true
  if (s.fout o).on then s1 else s1.sqc Reg.FIO_STATUS 0 280

/-- A fire refused (R312, R313, EV281). -/
def State.refuseFire (s : State) : State := (s.inc Reg.FIO_FIRE_REFUSED).sqc Reg.FIO_STATUS 1 281

/-- FIRE_CH of output o enters TRIPPED. -/
def State.fireOut (s : State) (o : Nat) : State :=
  if !s.armed o then s.refuseFire
  else if s.rb (Reg.FIO_OUT_CFG o) 29 then s.updFout o fun x => { x with ready := true }
  else s.assertOut o

/-- The enabled outputs that a channel fires, or arms. -/
def State.firedBy (s : State) (ch : Nat) : List Nat := (List.range 32).filter fun o => s.outOn o && s.rf (Reg.FIO_OUT_CFG o) 23 16 == ch
def State.armedBy (s : State) (ch : Nat) : List Nat := (List.range 32).filter fun o => s.outOn o && s.rf (Reg.FIO_OUT_CFG o) 15 8 == ch

/-- A general instant unit fires field I/O with index o (R313). -/
def State.instantOut (s : State) (o : Nat) : State :=
  if s.votesDrive && s.outOn o && (s.fout o).ready && s.armed o && s.tripped (s.rf (Reg.FIO_OUT_CFG o) 23 16) then s.assertOut o else s

/-- What outputs do when a channel leaves TRIPPED: ARM_HOLD starts, a fire that found no instant is refused. -/
def State.outsLeave (s : State) (ch : Nat) : State :=
  let s1 := each (s.armedBy ch) (fun y o =>
    y.updFout o fun x => { x with armUntil := y.up + y.rf (Reg.FIO_OUT_CFG o) 7 4 * 10 * msU }) s
  each (s1.firedBy ch) (fun y o => if (y.fout o).ready then (y.updFout o fun x => { x with ready := false }).refuseFire else y) s1

/-- OUTPUT_RELEASE (R312). -/
def execOutputRelease (o : Fin 32) (s : State) : Host.Outcome State Fault Refusal :=
  done s (
    let x := s.fout o.val
    if x.on && s.pwr.st != .safe && !(s.votesDrive && s.tripped (s.rf (Reg.FIO_OUT_CFG o.val) 23 16)) &&
        x.onAt + s.rf (Reg.FIO_OUT_CFG o.val) 3 0 * 10 * msU ≤ s.up then s.driveOut o.val false
    else s)

/-- ARM_HOLD_EXPIRE (R312). -/
def execArmHoldExpire (o : Fin 32) (s : State) : Host.Outcome State Fault Refusal :=
  done s (if (s.fout o.val).armUntil ≤ s.up then s.updFout o.val fun x => { x with armUntil := 0 } else s)

/-- FIO_ARM_EXPIRE (R314). -/
def execFioArmExpire (o : Fin 32) (s : State) : Host.Outcome State Fault Refusal :=
  done s (
    match (s.fout o.val).testArm with
    | some t => if t ≤ s.up then s.updFout o.val fun x => { x with testArm := none } else s
    | none => s)

/-- FIO_CMD with operation op (R314): its fields are kept, its result goes to FIO_CMD_STATUS. -/
def State.fioRun (s : State) (who : Accessor) (op : Nat) (val : Word) : State :=
  let v := masked Reg.FIO_CMD (putFld val 31 28 op)
  let o := fld val 4 0
  let end_ := fun (y : State) (res : Nat) => (y.setReg Reg.FIO_CMD v).setReg Reg.FIO_CMD_STATUS (BitVec.ofNat 32 res)
  if !s.isAdmin who then end_ s 5
  else if op = 0 || 3 < op then end_ s 6
  else if s.pwr.st != .test || !s.outOn o then end_ s 7
  else
    match op with
    | 1 => end_ (s.updFout o fun x => { x with testArm := some (s.up + secU) }) 0
    | 2 => if s.armed o then end_ (s.assertOut o) 0 else end_ s 7
    | _ => end_ (s.driveOut o false) 0

/-- FIO_ARM (R314). -/
def execFioArm (who : Accessor) (val : Word) (s : State) : Host.Outcome State Fault Refusal :=
  done s (s.writeCmd who Reg.FIO_CMD fun x => x.fioRun who 1 val)

/-- FIO_FIRE (R314). -/
def execFioFire (who : Accessor) (val : Word) (s : State) : Host.Outcome State Fault Refusal :=
  done s (s.writeCmd who Reg.FIO_CMD fun x => x.fioRun who 2 val)

/-- FIO_RELEASE (R314). -/
def execFioRelease (who : Accessor) (val : Word) (s : State) : Host.Outcome State Fault Refusal :=
  done s (s.writeCmd who Reg.FIO_CMD fun x => x.fioRun who 3 val)

/-! ## Publications (R308-R311) -/

/-- Fields of a PCB (R320). -/
def Pcb.en (p : Pcb) : Bool := tbit p.w0 31
def Pcb.dsN (p : Pcb) : Nat := fld p.w0 28 24 + 1
def Pcb.tc (p : Pcb) : Nat := fld p.w0 23 21
def Pcb.hostq (p : Pcb) : Nat := fld p.w0 20 15
def Pcb.ctx (p : Pcb) : Nat := fld p.w0 11 0
def Pcb.egress (p : Pcb) : Nat := fld p.w1 21 0
def Pcb.rtMin (p : Pcb) : Nat := fld p.w2 31 16 * 10 * usU
def Pcb.rtMax (p : Pcb) : Nat := fld p.w2 15 0 * msU

/-- MEM(i) of a PCB. -/
def Pcb.member (p : Pcb) (i : Nat) : Nat := fld (wordAt p.mem (i / 4)) (8 * (i % 4) + 7) (8 * (i % 4))

/-- The state with PCB b passed through g. -/
def State.updPcb (s : State) (b : Nat) (g : Pcb → Pcb) : State := s.setPcb b (g (s.pcb b))

/-- The booleans that a PCB publishes (R308, R315), member i in bit i. -/
def State.pcbVals (s : State) (p : Pcb) : Nat :=
  if s.pwr.st = .safe then p.w3.toNat % 2 ^ p.dsN
  else ((List.range p.dsN).map fun i => if s.tripped (p.member i) then 2 ^ i else 0).sum

/-- A BER length in its shortest form, and an element with its tag. -/
def berLen (n : Nat) : List Byte :=
  if n < 128 then [BitVec.ofNat 8 n] else if n < 256 then [0x81, BitVec.ofNat 8 n] else 0x82 :: beBytes 2 n
def berElem (tag : Nat) (b : List Byte) : List Byte := BitVec.ofNat 8 tag :: (berLen b.length ++ b)

/-- An unsigned number in the fewest bytes of a BER integer. -/
def berNat (n : Nat) : List Byte :=
  if n < 128 then beBytes 1 n else if n < 32768 then beBytes 2 n else if n < 8388608 then beBytes 3 n
  else if n < 2147483648 then beBytes 4 n else beBytes 5 n

/-- A BER boolean. -/
def berBool (b : Bool) : List Byte := if b then [1] else [0]

/-- The contents of the next elements of a template, by tag, with where it stands (R308). -/
def tmplElem (b : List Byte) (i tag : Nat) : List Byte × Nat :=
  if leAt b i 1 != tag then ([], i)
  else
    let l := leAt b (i + 1) 1
    if l < 128 then ((b.drop (i + 2)).take l, i + 2 + l)
    else if l = 129 then ((b.drop (i + 3)).take (leAt b (i + 2) 1), i + 3 + leAt b (i + 2) 1)
    else ((b.drop (i + 4)).take (beAt b (i + 2) 2), i + 4 + beAt b (i + 2) 2)

/-- The t field (R33, R308): device time as UTC, a 24-bit fraction, the TimeQuality octet. -/
def State.utcBytes (s : State) : List Byte :=
  let sec := s.time / secU - s.rf Reg.IND_UTC_OFFSET 15 0
  beBytes 4 sec ++ beBytes 3 (s.time % secU * 16777216 / secU) ++ [BitVec.ofNat 8 s.timeQuality]

/-- Whether the test or simulation element of PCB p is true (R308, R483). -/
def State.pubTest (s : State) (p : Pcb) : Bool := tbit p.w0 29 || s.pwr.st == .test

/-- The goosePdu of PCB p (R308); tal is timeAllowedToLive in ms. The template holds gocbRef, datSet, goID and confRev as elements from `at_`. -/
def State.goosePdu (s : State) (p : Pcb) (at_ tal : Nat) : List Byte :=
  let ref := tmplElem p.tmpl at_ 0x80
  let set_ := tmplElem p.tmpl ref.2 0x82
  let id := tmplElem p.tmpl set_.2 0x83
  let rev := tmplElem p.tmpl id.2 0x88
  let data := (List.range p.dsN).flatMap fun i => berElem 0x83 (berBool (p.vals / 2 ^ i % 2 == 1))
  berElem 0x61 (berElem 0x80 ref.1 ++ berElem 0x81 (berNat tal) ++ berElem 0x82 set_.1 ++ berElem 0x83 id.1 ++ berElem 0x84 s.utcBytes ++
    berElem 0x85 (berNat p.stNum) ++ berElem 0x86 (berNat p.sqNum) ++ berElem 0x87 (berBool (s.pubTest p)) ++ berElem 0x88 rev.1 ++
    berElem 0x89 (berBool false) ++ berElem 0x8A (berNat p.dsN) ++ berElem 0xAB data)

/-- timeAllowedToLive (R309): twice the interval to the next scheduled transmission, in ms, rounded up, at least 1. -/
def Pcb.tal (p : Pcb) : Nat := max 1 (ceilDiv (2 * p.interval) msU)

/-- Whether a template makes routed GOOSE (R111): its EtherType is not that of GOOSE. -/
def Pcb.routed (p : Pcb) : Bool := beAt p.tmpl (pubTypeOff p.tmpl) 2 != 0x88B8

/-- The bytes that signing adds to a publication of PCB p; the extension of IEC 62351-6 alone counts in the header. -/
def State.pubExt (s : State) (p : Pcb) : Nat := if p.ctx = 0 ∨ p.routed = true then 0 else extBytes (s.autCtx p.ctx).alg

/-- The bytes that signing appends to a publication of PCB p (R111). -/
def State.pubSig (s : State) (p : Pcb) : Nat :=
  if p.ctx = 0 then 0 else if p.routed = true then 2 + tagLen (s.autCtx p.ctx).alg else extBytes (s.autCtx p.ctx).alg

/-- The frame of PCB p before any signature, from its template (R308): header, APPID, Length, the reserved fields, goosePdu. The Length and the low
octet of Reserved 1 take in the extension that signing appends (R111; log 36). -/
def State.pubBody (s : State) (p : Pcb) : List Byte :=
  let i := pubTypeOff p.tmpl + 2
  let pdu := s.goosePdu p (i + 8) p.tal
  let n := s.pubExt p
  let res := (p.tmpl.drop (i + 4)).take 4
  p.tmpl.take (i + 2) ++ beBytes 2 (pdu.length + 8 + n) ++ (if n = 0 then res else setAt res 1 (BitVec.ofNat 8 n)) ++ pdu

/-- A frame's body filled up to the least length of Ethernet. -/
def padBody (b : List Byte) : List Byte := b ++ List.replicate (60 - b.length) 0

/-- The egress indexes of a publication (R310), with both ports of a redundancy group that has either (R64); the host queue last but one. -/
def State.pubEgress (s : State) (p : Pcb) : List Nat :=
  let bits := setBits 22 p.egress
  let more := (List.range 8).flatMap fun r =>
    if s.redOn r && (bits.contains (s.redA r) || bits.contains (s.redB r)) then [s.redA r, s.redB r] else []
  ((List.range 20).filter fun e => bits.contains e || more.contains e) ++
    (if bits.contains 20 then [64 + p.hostq] else []) ++ (if bits.contains 21 then [21] else [])

/-- One copy of publication b, ready at an instant (R310, R311). -/
def State.pubCopy (s : State) (b ready : Nat) (body : List Byte) (e : Nat) : State :=
  let p := s.pcb b
  let tc := if 64 ≤ e then 0 else p.tc
  let seq := if e < 20 then (s.redOf e).map fun r => (s.group r).txSeq else none
  let len := body.length + 4 + (if seq.isSome then 6 else 0)
  match s.takeIn e tc len 0 true with
  | (some h, s1) =>
    let c : Copy :=
      { live := true, kind := .publication, fid := b, eg := e, tc := tc, buf := h, owner := 20, size := len, len := len
        own := some body, startAt := some ready, queuedAt := s.up, redSeq := seq }
    ((s1.enqueue c).2.inc Reg.VRM_PUB_SENT).updPcb b fun q => { q with sent := q.sent + 1 }
  | (none, s1) => ((s1.inc Reg.VRM_PUB_LOST).sqc Reg.VRM_STATUS 5 277).updPcb b fun q => { q with lost := q.lost + 1 }

/-- Whether publications are sent in this device state (R483). -/
def State.pubsSent (s : State) : Bool :=
  s.pwr.st == .test || s.pwr.st == .service || s.pwr.st == .recovery || s.pwr.st == .safe

/-- A transmission of PCB b (R308-R311), ready at an instant before signing; a PCB whose key is missing sends none (R97). -/
def State.publish (s : State) (b ready : Nat) : State :=
  let p := s.pcb b
  if !s.pubsSent then s
  else
    let r := if p.ctx = 0 then (some (s.pubBody p, 0), s) else s.signPub p.ctx p.routed (s.pubBody p)
    match r.1 with
    | none => r.2
    | some (body, delay) =>
      let es := r.2.pubEgress p
      let s1 := each es (fun y e => y.pubCopy b (ready + delay) (padBody body) e) r.2
      each (List.range 8) (fun y g =>
        if y.redOn g && es.contains (y.redA g) then y.setGroup g { y.group g with txSeq := (y.group g).txSeq + 1 } else y) s1

/-- The copies of publication b that were built in this tick and not started are taken back, where a further change of the tick replaces them. -/
def State.unpublish (s : State) (b : Nat) : State :=
  let ns := (s.pkt.copies.filter fun p =>
    p.2.live && p.2.kind == .publication && p.2.fid == b && p.2.queuedAt == s.up && p.2.startedAt.isNone).map Prod.fst
  let n := ns.length
  let s1 := (each ns (fun y c => y.endCopy c false) s).updPcb b fun q => { q with sent := q.sent - BitVec.ofNat 32 n }
  s1.setReg Reg.VRM_PUB_SENT (s1.reg Reg.VRM_PUB_SENT - BitVec.ofNat 32 n)

/-- A change of the members of PCB b to v (R309): stNum advances once for the changes of a tick. -/
def State.pubChange (s : State) (b v : Nat) : State :=
  let p := s.pcb b
  let same := p.stNum != 0 && p.sqNum == 0 && p.lastAt == s.up
  let st := if same then p.stNum else if 4294967295 ≤ p.stNum then 1 else p.stNum + 1
  let s0 := if same then s.unpublish b else s
  let s1 := s0.updPcb b fun q => { q with vals := v, stNum := st, sqNum := 0, interval := min q.rtMin q.rtMax, lastAt := s.up }
  s1.publish b (s.up + 40 * nsU)

/-- The PCBs that are enabled, ascending. -/
def State.pcbsOn (s : State) : List Nat := (s.vrm.pcbs.filter fun p => p.2.en).map Prod.fst

/-- Every enabled PCB whose members have changed sends its change frame (R309). -/
def State.publishChanges (s : State) : State :=
  each s.pcbsOn (fun y b => if y.pcbVals (y.pcb b) = (y.pcb b).vals then y else y.pubChange b (y.pcbVals (y.pcb b))) s

/-- sqNum of the next retransmission (R309). -/
def nextSq (n : Nat) : Nat := if 4294967295 ≤ n then 1 else n + 1

/-- A retransmission of PCB b outside its schedule (R309, R49). -/
def State.pubOnce (s : State) (b : Nat) : State :=
  if (s.pcb b).en then (s.updPcb b fun q => { q with sqNum := nextSq q.sqNum }).publish b s.up else s

/-- Whether a pass-through or a lane exit still asks for a queue in this cycle, before Vermilion (R155). -/
def State.lanesAsk (s : State) : Bool := s.thruWaits || s.pkt.frames.any fun p => p.2.leftLane.isSome

/-- PCB_RETRANSMIT (R309): the interval doubles up to RT_MAX. -/
def execPcbRetransmit (b : BitVec 9) (s : State) : Host.Outcome State Fault Refusal :=
  done s (
    let p := s.pcb b.toNat
    if p.en && p.interval != 0 && p.lastAt + p.interval ≤ s.up && !s.lanesAsk then
      (s.updPcb b.toNat fun q =>
        { q with
          sqNum := nextSq q.sqNum, lastAt := s.up
          interval := if 2 * q.interval ≤ q.rtMax then 2 * q.interval else q.rtMax }).publish b.toNat s.up
    else s)

/-! ## The vote (R301-R305) -/

/-- Channel ch enters TRIPPED (R305). -/
def State.trip (s : State) (ch : Nat) : State :=
  let prov := (s.liveSlots ch).any fun k => ((s.vch ch).slot k).val == 2 && ((s.vch ch).slot k).prov
  let s1 := s.updVch ch fun c => { c with st := 1, hold := 0, provTrip := prov }
  let s2 := ((s1.inc (Reg.VRM_CH_TRIPS ch)).inc Reg.VRM_TRIPS).sqc Reg.VRM_STATUS 0 272
  let s3 := (s2.soe 2 ch true false false prov s.time).recChannel ch
  if s3.votesDrive then each (s3.firedBy ch) (fun y o => y.fireOut o) s3 else s3

/-- Channel ch leaves TRIPPED for a state (R305). -/
def State.untrip (s : State) (ch st : Nat) : State :=
  (((s.updVch ch fun c => { c with st := st }).soe 2 ch false false false (s.vch ch).provTrip s.time)).outsLeave ch

/-- The vote of channel ch after a decision (R304, R305). -/
def State.vote (s : State) (ch : Nat) : State :=
  let s1 := s.judgeChan ch
  if (s1.vch ch).st = 0 && !s1.chBlocked ch && s1.chKeff ch ≤ s1.chT ch then s1.trip ch else s1

/-- The used slots of ch that name a task: kind 1 local, 2 the partner's. -/
def State.slotsOf (s : State) (ch kind cl task : Nat) : List Nat :=
  (List.range (s.chUsed ch)).filter fun k =>
    s.rf (Reg.VRM_CH_IN ch k) 31 30 == kind && s.rf (Reg.VRM_CH_IN ch k) 29 27 == cl && s.rf (Reg.VRM_CH_IN ch k) 26 17 == task

/-- A decision held in slot k of ch (R301, R303). -/
def State.hold (s : State) (ch k : Nat) (trip prov : Bool) : State :=
  s.updVch ch fun c => c.setSlot k
    { c.slot k with val := if trip then 2 else 1, prov := prov, evalNo := s.evalNumber (s.chClock ch), absent := 0 }

/-- A refused post makes a slot ABSENT (R301). -/
def State.absentSlot (s : State) (ch k : Nat) : State := s.updVch ch fun c => c.setSlot k { c.slot k with val := 0, prov := false }

/-- A refusal counted (EV274). -/
def State.refusePost (s : State) (off : Nat) : State := (s.inc off).sqc Reg.VRM_STATUS 2 274

/-- A decision for the slots ks of channel ch: refused where it is provisional and PROV_OK is 0, else held and voted (R301). -/
def State.decide_ (s : State) (ch : Nat) (ks : List Nat) (trip prov : Bool) : State :=
  if prov && !s.rb (Reg.VRM_CH_CFG ch) 10 then ((each ks (fun y k => y.absentSlot ch k) s).refusePost Reg.VRM_REFUSED).judgeChan ch
  else
    let s1 := each ks (fun y k => y.hold ch k trip prov) s
    (if prov then s1.inc Reg.VRM_PROV_ACCEPT else s1).vote ch

/-- A held decision forwarded to the partner while the link is up (R302, R433). -/
def State.forwardVote (s : State) (ch cl task : Nat) (trip prov : Bool) : State :=
  if s.rb (Reg.VRM_CH_CFG ch) 9 && s.pairUp && !(prov && !s.rb (Reg.VRM_CH_CFG ch) 10) then
    let s1 := s.emit (.cell 0 [ch, cl, task, if trip then 1 else 0, if prov then 1 else 0, s.pai.voteSeq.toNat] [])
    { s1.inc Reg.PAI_VOTE_TX with pai := { s1.pai with voteSeq := s1.pai.voteSeq + 1 } }
  else s

/-- A decision word posted by task `task` of cluster cl (R301): a tainted post and one with a reserved bit set make the slots it names ABSENT. -/
def State.postVote (s0 : State) (cl task : Nat) (w : Word) (taint mark : Bool) : State :=
  let s := (s0.inc Reg.VRM_POSTS).pmuFab 0x8F {} 1
  let ch := fld w 7 0
  let ks := s.slotsOf ch 1 cl task
  let absent := fun (off : Nat) => ((each ks (fun y k => y.absentSlot ch k) s).refusePost off).judgeChan ch
  if taint then absent Reg.VRM_REFUSED
  else if fld w 31 9 != 0 then absent Reg.VRM_BAD_POST
  else if (s.vch ch).st == 2 || ks.isEmpty then s.refusePost Reg.VRM_BAD_POST
  else ((s.decide_ ch ks (tbit w 8) mark).forwardVote ch cl task (tbit w 8) mark).publishChanges

/-- VPOST (R301, R286): a pooled task posts Gs, once its earlier stores are visible. -/
def execVpost (t : ThreadId) (gs : Fin 8) (s : State) : Host.Outcome State Fault Refusal :=
  let k := tidNat t
  done s (s.issue t (.vpost t gs) 1 [.g gs] (need (s.thr k).task.isSome) fun x =>
    .next ((x.drainStores k).postVote (k / 128) ((x.thr k).task.getD 0) (x.gOf k gs) (x.thr k).ctx.taint (x.thr k).ctx.mark))

/-- A pair-link cell whose CRC-32C is wrong is discarded and counted (R428). -/
def State.cellBad (s : State) : State := s.inc Reg.PAI_CELL_ERR

/-- SEQ q taken, beside the 32,767 taken before it (R428). -/
def keepSeq (l : List (BitVec 16)) (q : BitVec 16) : List (BitVec 16) := (q :: l).take 32768

/-- PAIR_VOTE_RX (R302, R428, R433): a decision of the partner's task, taken once, by every slot that names it. -/
def execPairVoteRx : PairCell VoteName → Fin 6 → BitVec 10 → Bool → Bool → State → Host.Outcome State Fault Refusal
  | ⟨crcGood, seq, ch⟩, cl, task, trip, prov, s =>
    done s (
      if !crcGood then s.cellBad
      else if s.pairUp && !s.pai.rxVote.contains seq then
        let s1 := { s with pai := { s.pai with rxVote := keepSeq s.pai.rxVote seq } }.inc Reg.PAI_VOTE_RX
        let ks := s1.slotsOf ch.toNat 2 cl.val task.toNat
        if (s1.vch ch.toNat).st = 2 || ks.isEmpty then s1 else (s1.decide_ ch.toNat ks trip prov).publishChanges
      else s)

/-! ## Strobes (R303, R305-R307) -/

/-- The code that a slot shows: 0 ABSENT, 1 NOTRIP, 2 TRIP, 3 FAILED (R307); 0 for a slot that is not used. -/
def State.slotCode (s : State) (ch k : Nat) : Nat :=
  if s.chUsed ch ≤ k then 0 else if s.slotFails ch k then 3 else ((s.vch ch).slot k).val

/-- SLOTS and PROV of a channel as its status and a disagreement record show them. -/
def State.slotBits (s : State) (ch : Nat) : Nat :=
  ((List.range 3).map fun k => s.slotCode ch k * 4096 * 4 ^ k + (if ((s.vch ch).slot k).prov then 512 * 2 ^ k else 0)).sum

/-- A disagreement record (R307). -/
def State.disagree (s : State) (ch num : Nat) : State :=
  if 256 ≤ s.vrm.disq.length then (s.inc Reg.VRM_DIS_OVF).sqc Reg.VRM_STATUS 6 278
  else
    let r := timeWords s.time ++ [BitVec.ofNat 32 num,
      BitVec.ofNat 32 (ch * 16777216 + s.chMode ch * 2097152 + (s.vch ch).st * 262144 + s.slotBits ch)]
    ({ s with vrm := { s.vrm with disq := s.vrm.disq ++ [r] } }.inc Reg.VRM_DIS_RECORDS).sqc Reg.VRM_STATUS 1 273

/-- Whether a channel disagrees (R307). -/
def State.disagrees (s : State) (ch : Nat) : Bool :=
  let vs := (s.liveSlots ch).map fun k => ((s.vch ch).slot k).val
  vs.any fun v => v != vs.headD 0

/-- The expiry of slot k at evaluation `num` (R303). -/
def VrmSlot.expire (v : VrmSlot) (num win : Nat) : VrmSlot :=
  let d := (num + 1099511627776 - v.evalNo) % 1099511627776
  if v.val != 0 && win ≤ d && d < 549755813888 then { v with val := 0, prov := false } else v

/-- A strobe of its clock reaches channel ch (R305-R307): the run without a decision, the clear, the disagreement, then expiry. -/
def State.strobeChan (s : State) (ch num : Nat) : State :=
  let upd := fun (y : State) (g : VrmSlot → VrmSlot) =>
    each (List.range (y.chUsed ch)) (fun z k => z.updVch ch fun c => c.setSlot k (g (c.slot k))) y
  let s1 := (upd s fun v => { v with absent := if v.val = 0 then min (v.absent + 1) 255 else 0 }).judgeChan ch
  let s2 := if (s1.vch ch).st = 1 then s1.updVch ch fun c => { c with hold := min (c.hold + 1) 255 } else s1
  let s3 := if (s2.vch ch).st = 1 && !s2.rb (Reg.VRM_CH_CFG ch) 12 && s2.chT ch < s2.chKeff ch &&
      s2.rf (Reg.VRM_CH_CFG ch) 20 13 ≤ (s2.vch ch).hold then s2.untrip ch 0 else s2
  let s4 :=
    if s3.disagrees ch then
      let s5 := s3.updVch ch fun c => { c with disRun := c.disRun + 1 }
      if (s5.vch ch).disRun = s5.rf (Reg.VRM_CH_CFG ch) 7 0 then s5.disagree ch num else s5
    else s3.updVch ch fun c => { c with disRun := 0 }
  upd s4 fun v => v.expire num (s4.chWin ch)

/-- The evaluation strobe of clock n, number `num`, at Vermilion (R306). -/
def State.strobeVoter (s : State) (n num : Nat) : State :=
  (each (s.chansOn.filter fun ch => s.chClock ch == n) (fun y ch => y.strobeChan ch num) s).publishChanges

/-! ## Commands of the VRM page -/

/-- VRM_RESET (R305): a latched channel goes IDLE where T < K'. -/
def execVrmReset (who : Accessor) (val : Word) (s : State) : Host.Outcome State Fault Refusal :=
  done s (s.writeCmd who Reg.VRM_CMD fun x =>
    let ch := fld val 7 0
    let end_ := fun (y : State) (res : Nat) => (y.setReg Reg.VRM_CMD (masked Reg.VRM_CMD (putFld val 31 28 1))).setReg Reg.VRM_CMD_STATUS (BitVec.ofNat 32 res)
    if !x.isAdmin who then end_ x 5
    else if x.tripped ch && x.rb (Reg.VRM_CH_CFG ch) 12 && x.chT ch < x.chKeff ch then end_ (x.untrip ch 0).publishChanges 0
    else end_ x 7)

/-- What a taking read of VRM_DIS_POP does (R307). -/
def State.disPop (s : State) : Word × State :=
  match s.vrm.disq with
  | [] => (0, s)
  | r :: rest =>
    (BitVec.ofNat 32 (2147483648 + rest.length),
     each (List.range 5) (fun x w => x.setReg (Reg.VRM_DIS_DATA w) (wordAt r w)) { s with vrm := { s.vrm with disq := rest } })

/-- VRM_DIS_POP (R307). -/
def execVrmDisPop (who : Accessor) (s : State) : Host.Outcome State Fault Refusal := done s (s.rttRead who Reg.VRM_DIS_POP s.disPop)

/-- The snapshot of PCB b (R320). -/
def State.pcbWords (s : State) (b : Nat) : List Word :=
  let p := s.pcb b
  [p.w0, p.w1, p.w2, p.w3, BitVec.ofNat 32 p.stNum, BitVec.ofNat 32 p.sqNum, p.sent, p.lost] ++ (List.range 8).map fun i => wordAt p.mem i

/-- VRM_PCB_SELECT (R320). -/
def execVrmPcbSelect (who : Accessor) (val : Word) (s : State) : Host.Outcome State Fault Refusal :=
  done s (s.writeCmd who Reg.VRM_PCB_SEL fun x =>
    each (List.range 16) (fun y i => y.setReg (Reg.VRM_PCB_DATA i) (wordAt (x.pcbWords (fld val 8 0)) i))
      (x.setReg Reg.VRM_PCB_SEL (BitVec.ofNat 32 (fld val 8 0))))

/-- The status word of channel ch (R320). -/
def State.chanStatus (s : State) (ch : Nat) : Word :=
  let c := s.vch ch
  BitVec.ofNat 32 (c.st * 1073741824 + (if c.st = 2 then 0 else
    (if s.chBlocked ch then 536870912 else 0) + (if c.provTrip then 268435456 else 0) + s.chKeff ch * 67108864 + c.hold * 262144 + s.slotBits ch))

/-! ## Contact inputs (R316, R317) -/

/-- The state with input i passed through g. -/
def State.updFin (s : State) (i : Nat) (g : FioIn → FioIn) : State := s.setFinp i (g (s.finp i))

/-- The timestamp of a change of input i whose first filtered sample came at t (R316, R51). -/
def State.inputStamp (s : State) (i t : Nat) : Nat :=
  lessNs t (125 + 250 * (s.rf (Reg.FIO_IN_CFG i) 9 8 : Int) + wordInt (s.reg (Reg.FIO_IN_DELAY i)))

/-- A change of input i accepted (R316, R317). -/
def State.acceptInput (s : State) (i : Nat) (level : Bool) (firstAt : Nat) : State :=
  let chat := s.reg (Reg.FIO_IN_CHAT i)
  let recent := s.up :: ((s.finp i).changes.filter fun t => s.up < t + fld chat 23 12 * msU)
  let over_ := s.rb (Reg.FIO_IN_CFG i) 29 && fld chat 31 24 ≤ recent.length
  let s1 := s.updFin i fun x => { x with level := level, chatter := over_, changes := if over_ then [] else recent }
  let s2 := s1.soe 0 i level over_ false false (s.inputStamp i firstAt)
  (if over_ then s2.sqc Reg.FIO_STATUS 2 282 else s2).recInput i

/-- INPUT_ACCEPT (R316): the filtered level has held for the debounce time since device time firstAt, the instant of a sampling strobe (R51). -/
def execInputAccept (i : Fin 32) (level : Bool) (firstAt : Nat) (s : State) : Host.Outcome State Fault Refusal :=
  done s (
    let x := s.finp i.val
    if (s.rb (Reg.FIO_IN_CFG i.val) 31 && !x.chatter && x.level != level) = true ∧
        firstAt % (250 * nsU) = 0 ∧ firstAt + s.rf (Reg.FIO_IN_CFG i.val) 7 0 * 100 * usU ≤ s.time then s.acceptInput i.val level firstAt
    else s)

/-- CHATTER_END (R317): the filtered level has been steady for CHAT_QUIET ms. -/
def execChatterEnd (i : Fin 32) (level : Bool) (s : State) : Host.Outcome State Fault Refusal :=
  done s (
    let x := s.finp i.val
    if x.chatter then
      let t := s.time - s.rf (Reg.FIO_IN_CHAT i.val) 11 0 * msU
      let s1 := (s.updFin i.val fun y => { y with level := level, chatter := false, changes := [] }).soe 0 i.val level false true false t
      if x.level == level then s1 else s1.recInput i.val
    else s)

/-! ## Device states and commits -/

/-- SAFE (R315): the pattern on every output, SAFE_DS of every enabled PCB as a change, EV284. -/
def State.voterSafe (s : State) : State :=
  let s1 := each (List.range 32) (fun y o =>
    (y.driveOut o (y.rb Reg.FIO_SAFE_PAT o)).updFout o fun x => { x with ready := false, testArm := none }) s
  (each s1.pcbsOn (fun y b => y.pubChange b (y.pcbVals (y.pcb b))) s1).sqc Reg.FIO_STATUS 4 284

/-- Outputs that the votes no longer drive go inactive (R483). -/
def State.outsOff (s : State) : State :=
  each (List.range 32) (fun y o => (y.driveOut o false).updFout o fun x => { x with ready := false, testArm := none }) s

/-- Channel ch at a commit that took the state from `old` (R305, R306). -/
def State.commitChan (old : State) (s : State) (ch : Nat) : State :=
  let on := s.chUsed ch != 0
  let st := (s.vch ch).st
  let moved := s.chMode ch != old.chMode ch || s.chClock ch != old.chClock ch ||
    (List.range 3).any fun k => s.reg (Reg.VRM_CH_IN ch k) != old.reg (Reg.VRM_CH_IN ch k)
  if !on then (if st = 1 then s.untrip ch 2 else s).setVch ch {}
  else if st = 2 then s.setVch ch { st := 0 }
  else if moved then s.updVch ch VrmChan.absentAll
  else s

/-- Vermilion and field I/O at a commit (R305, R306, R309, R312): `old` is the state before it. In SAFE the outputs hold the fail-safe pattern of the
image applied now (R12). The first frame of a PCB that the commit enables is a change. -/
def State.commitVoter (old : State) (s : State) : State :=
  let s1 := each (List.range 256) (fun y ch => State.commitChan old y ch) s
  let s2 := each (List.range 32) (fun y o =>
    if y.pwr.st = .safe then y.driveOut o (y.rb Reg.FIO_SAFE_PAT o)
    else if old.outOn o && !y.outOn o then (y.setFout o { y.fout o with ready := false, armUntil := 0, testArm := none }).driveOut o false else y) s1
  let s3 := each (List.range 32) (fun y i => if y.rb (Reg.FIO_IN_CFG i) 31 then y else y.setFinp i {}) s2
  (each s3.pcbsOn (fun y b => if (y.pcb b).stNum = 0 then y.pubChange b (y.pcbVals (y.pcb b)) else y) s3).publishChanges.judgeChans

end Sys2Proof.Machine
end

