-- ==== Sys2Proof/Machine/ConfApply.lean ====
section
/-!
DEFINITION. The configuration that applying the shadow produces (R26, R332, R335): registers and objects as its records set them, partition
envelopes with those that a format 2 image implies (R329). What a block does when its configuration changes stands in Machine/Commit.lean.
-/

namespace Sys2Proof.Machine

/-! ## Records -/

/-- A register set by an image (R26): the bits that images set take the value, others stay. A reserved event has no route (R501); a port policer that
an image sets has its default no longer (R86). -/
def State.imgReg (s : State) (off : Nat) (v : Word) : State :=
  if 0x2000 ≤ off ∧ off < 0x2500 ∧ evReserved ((off - 0x2000) / 4) then s
  else
    let m := BitVec.ofNat 32 (regMask off)
    let s1 := s.setReg off ((s.reg off &&& ~~~m) ||| (v &&& m))
    let p := (off - Reg.CLS_PORT_POL 0) / 4
    if off = Reg.CLS_PORT_POL p ∧ p < 20 then { s1 with ing := { s1.ing with polSet := s1.ing.polSet.sd false p true } } else s1

/-- The image words of an object (R325). -/
def AutCtx.image (c : AutCtx) (w : List Word) : AutCtx :=
  { c with
    w0 := putBit (wordAt w 0) 23 false
    keyA := { slot := BitVec.ofNat 13 (fld (wordAt w 1) 28 16), id := wordAt w 2 }
    keyB := { slot := BitVec.ofNat 13 (fld (wordAt w 1) 12 0), id := wordAt w 3 }
    w10 := putFld (wordAt w 10) 27 24 0
    salt := wordAt w 11 }

def Task.image (t : Task) (w : List Word) : Task :=
  { t with w0 := putFld (wordAt w 0) 11 0 0, w1 := wordAt w 1, w2 := putBit (wordAt w 2) 28 false, w3 := putFld (wordAt w 3) 15 0 0 }

def Pcb.image (b : Pcb) (w : List Word) : Pcb :=
  { b with w0 := putFld (wordAt w 0) 14 12 0, w1 := putFld (wordAt w 1) 31 22 0, w2 := wordAt w 2, w3 := wordAt w 3, mem := (w.drop 8).take 8 }

/-- The key of a task or timer that an object record names: cluster in [31:28], index below. -/
def objCluster (target : Nat) : Nat := target / 268435456
def objIndex (target : Nat) : Nat := target % 268435456

/-- An object record applied (R325). -/
def State.applyObj (s : State) (r : Rec) : State :=
  let c := objCluster r.target
  let i := objIndex r.target
  match r.cls with
  | 1 => if r.target = 0 then s else s.setAutCtx r.target ((s.autCtx r.target).image r.words)
  | 2 => s.setReg Reg.AUT_EPOCH_CUR (wordAt r.words 0)
  | 3 => s.setStream r.target { s.stream r.target with w := r.words.take 8 }
  | 4 => s.setTask (1024 * c + i) ((s.task (1024 * c + i)).image r.words)
  | 5 => s.setPcb r.target ((s.pcb r.target).image r.words)
  | 6 => s.setPcb r.target { s.pcb r.target with tmpl := wordsBytes r.words }
  | 7 => (s.setEnv r.target { w := r.words }).setReg (Reg.CFG_PART_CFG r.target) (BitVec.ofNat 32 (fld (wordAt r.words 1) 31 16))
  | 8 => each (List.range 7) (fun x k => x.setReg (Reg.CLU_DSP_TMR_DESC c i k) (wordAt r.words k)) s
  | _ => s

/-- A record applied: registers and objects at once; entries follow the strobe (R80), program words and data precede it (R339). -/
def State.applyRec (s : State) (r : Rec) : State :=
  match r.rkind with
  | 0 => each (List.range r.words.length) (fun x i => x.imgReg (r.target + 4 * i) (wordAt r.words i)) s
  | 1 => s.applyObj r
  | _ => s

/-! ## Images -/

/-- The tiles that a partition holds, as CFG_TILE shows them: IN_SERVICE or FAILING (R18, R350). -/
def State.tilesOf (s : State) (p : Nat) : List Nat :=
  (List.range 24).filter fun j => s.tilePart j == p && s.rf (Reg.CFG_TILE j) 31 29 % 2 == 0 && s.rf (Reg.CFG_TILE j) 31 29 != 4

/-- The enabled tasks of partition p in cluster c, as indexes. -/
def State.partTasks (s : State) (p c : Nat) : List Nat :=
  ((s.clu.tasks.filter fun t => t.1 / 1024 == c && t.2.en && t.2.part == p).map Prod.fst).map (· % 1024)

/-- The envelope that a format 2 image gives partition p (R329): its tiles, the ranges of its tasks, the image's root, DRAIN_MAX 1,000. -/
def State.derivedEnv (s : State) (p root : Nat) : Envelope :=
  let range := fun c => match s.partTasks p c with
    | [] => BitVec.ofNat 32 1
    | i :: is => BitVec.ofNat 32 ((is.foldl max i) * 65536 + is.foldl min i)
  { w := [BitVec.ofNat 32 (2147483648 + p * 134217728 + ((s.tilesOf p).map fun j => 2 ^ j).sum), BitVec.ofNat 32 (1000 * 65536 + 2 ^ root)] ++
      (List.range 6).map range
    derived := true }

/-- The envelopes of every partition that a format 2 image defines. -/
def State.deriveEnvs (s : State) (root : Nat) : State :=
  each ((List.range 16).filter fun p => p != 0 && !(s.tilesOf p).isEmpty)
    (fun x p => (x.setEnv p (s.derivedEnv p root)).setReg (Reg.CFG_PART_CFG p) 1000) s

/-- Whether an image names the geometry of a pool. -/
def ImgPart.namesPools (p : ImgPart) : Bool :=
  p.recs.any fun r => r.rkind == 0 && (List.range 4).any fun i => r.target ≤ Reg.OCH_POOL_CFG i && Reg.OCH_POOL_CFG i < r.target + 4 * r.words.length

/-- The default pool geometry (R171), which a device image that names none has. -/
def State.defaultPools (s : State) : State :=
  each (List.range 4) (fun x i => x.setReg (Reg.OCH_POOL_CFG i) (State.reset.reg (Reg.OCH_POOL_CFG i))) s

/-- An image applied. -/
def State.applyImg (s : State) (p : ImgPart) : State :=
  let s1 := each p.recs State.applyRec (if p.kind = 0 ∧ p.namesPools = false then s.defaultPools else s)
  if p.kind = 0 ∧ p.format = 2 then s1.deriveEnvs p.root else s1

/-- The parts of the shadow in the order they are applied: device, epoch, partitions ascending. -/
def State.shadowImgs (s : State) : List ImgPart :=
  s.cfg.dev.toList ++ s.cfg.epoch.toList ++ (List.range 15).filterMap fun i => s.partSh (i + 1)

/-- The configuration that applying the whole shadow produces (R335). -/
def State.produced (s : State) : State := each s.shadowImgs State.applyImg s

/-- The partitions that the shadow's parts apply to (R344): those with a part, and those EMPTY ones to which a device part gives an enabled
task. -/
def State.partsApplied (s : State) : List Nat :=
  ((List.range 15).map (· + 1)).filter fun p =>
    (s.partSh p).isSome ||
    ((s.part p).st ≤ 3 && (match s.cfg.dev with
      | some d => d.recs.any fun r => r.rkind == 1 && r.cls == 4 && tbit (wordAt r.words 0) 31 && fld (wordAt r.words 0) 24 21 == p
      | none => false))

/-- Every record of the shadow. -/
def State.shadowRecs (s : State) : List Rec := s.shadowImgs.flatMap (·.recs)

/-! ## What verification is judged against -/

/-- The configuration whose envelopes a partition image is judged by (R331): with the shadow's device part, where it holds one. -/
def State.envBase (s : State) : State := match s.cfg.dev with | some d => s.applyImg d | none => s

/-- Whether n bytes at an address of cluster c's SRAM lie in one region of partition p (R283, R326). -/
def State.sramIn (s : State) (p c a n : Nat) : Bool :=
  (List.range 16).any fun r =>
    let v := s.reg (Reg.CLU_SRAM_RGN c r)
    tbit v 31 && fld v 29 26 == p && fld v 14 4 * 1024 ≤ a && a + n ≤ (fld v 25 15 + 1) * 1024

/-- The version floor of a KIND and PART (R330). -/
def State.imgFloor (s : State) (kind part : Nat) : Nat :=
  match kind with
  | 0 => (s.reg Reg.SAB_FLOOR_DEV).toNat
  | 2 => (s.reg Reg.SAB_FLOOR_EPOCH).toNat
  | _ => (s.reg (Reg.SAB_FLOOR_PART part)).toNat

/-- What the device judges an image by. -/
def State.imgCtx (s : State) (bs : List Byte) : ImgCtx :=
  let b := s.envBase
  { valid := s.sab.otp.rootValid.toNat
    revoked := s.sab.otp.rootRevoked.toNat
    digest := fun r => s.sab.otp.rootDig.gd 0 r
    floor := s.imgFloor (imgKind bs) (imgPart bs)
    env := if tbit (wordAt (b.env (imgPart bs)).w 0) 31 then (b.env (imgPart bs)).w else []
    region := fun c a n => b.sramIn (imgPart bs) c a n }

end Sys2Proof.Machine
end

