-- ==== Sys2Proof/Machine/Latency.lean ====
section
/-!
DEFINITION. Latency bounds as the checker computes them (R361-R369): exact sums over a configuration, one bound for each voter channel that declares
a target. Times are fractions of a nanosecond.
-/

namespace Sys2Proof.Machine

/-- A span of n core cycles (R363): 0.8 ns each. -/
def coreNs (n : Nat) : Frac := ⟨(4 * n : Nat), 5⟩

/-- The larger of two fractions. -/
def Frac.max (a b : Frac) : Frac := if Frac.le a b then b else a

/-- The largest of a list of fractions, none below 0. -/
def Frac.maxOf (l : List Frac) : Frac := l.foldl Frac.max ⟨0, 1⟩

/-- The sum of a list of fractions. -/
def Frac.sum (l : List Frac) : Frac := l.foldl Frac.add ⟨0, 1⟩

/-- The least natural number not below a fraction. -/
def Frac.ceilNat (a : Frac) : Nat := ceilDiv a.num.toNat a.den

/-! ## Lanes (R363, R364) -/

/-- The enabled threads bound to a stage. -/
def State.stageThreads (s : State) (l st : Nat) : List Nat :=
  (List.range 768).filter fun k => s.thrEn k && s.thrBound k && s.thrLane k == l && s.thrStage k == st

/-- H_s + Q_s + 8 ns of a stage. -/
def State.stageNs (s : State) (l st : Nat) : Frac :=
  let h := s.rf (Reg.LAN_STG_CFG l st) 12 0 * 16
  Frac.add (coreNs (h + ceilDiv (s.rf (Reg.LAN_STG_CFG l st) 21 13) (max 1 (s.stageThreads l st).length) * h)) ⟨8, 1⟩

/-- The stages of lane l from an entry stage to its last. -/
def State.stagesFrom (s : State) (l st : Nat) : List Nat := (List.range (s.rf (Reg.LAN_CFG l) 28 26 + 1)).filter (st ≤ ·)

/-- The sum over the stages of lane l from stage st. -/
def State.laneNs (s : State) (l st : Nat) : Frac := Frac.sum ((s.stagesFrom l st).map (s.stageNs l))

/-- The lanes with RECIRC_EN 1, which R364 adds to every path. -/
def State.recircLanes (s : State) : List Nat := (List.range 4).filter fun l => s.rb (Reg.LAN_CFG l) 31 && s.rb (Reg.LAN_CFG l) 29

/-! ## Streams (R364) -/

/-- The streams that a slot task's bound covers: those with a channel-stream granted to its partition, or the constituents of a merged one. -/
def State.grantedStreams (s : State) (p : Nat) : List Nat :=
  s.streamsOn.flatMap fun k =>
    let x := s.stream k
    if (List.range x.nch).any fun i => Config.csGranted p (x.csBase + i) then (if x.merge then [x.mergeA, x.mergeB] else [k]) else []

/-- The classifier results that name a stream. -/
def entriesOf (entries : List (List Word)) (k : Nat) : List (List Word) :=
  entries.filter fun r => fld (wordAt r 1) 19 18 == 1 && fld (wordAt r 1) 17 7 == k

/-- The lanes and entry stages of a result (R364). -/
def resultLanes (r : List Word) : List (Nat × Nat) :=
  match fld (wordAt r 0) 31 28 with
  | 2 => [(fld (wordAt r 0) 27 26, fld (wordAt r 0) 25 23)]
  | 0 => []
  | _ => (List.range 4).map fun l => (l, 0)

/-- The choices of stream, context and lane path of a slot task: stream, ALLOW_PROV of the context, lane, entry stage. -/
def State.pathsOf (s : State) (entries : List (List Word)) (p : Nat) : List (Nat × Bool × Nat × Nat) :=
  (s.grantedStreams p).flatMap fun k => (entriesOf entries k).flatMap fun r =>
    let c := fld (wordAt r 1) 31 20
    (resultLanes r).map fun l => (k, s.rxCtx c != 0 && (s.autCtx c).allowProv, l.1, l.2)

/-! ## The declaration (R369) -/

def State.latEn (s : State) (ch : Nat) : Bool := s.rb (Reg.VRM_CH_LAT ch) 31
def State.latDdrFree (s : State) (ch : Nat) : Bool := s.rb (Reg.VRM_CH_LAT ch) 30
def State.latLmax (s : State) (ch : Nat) : Nat := s.rf (Reg.VRM_CH_LAT ch) 29 16
def State.latTarget (s : State) (ch : Nat) : Nat := s.rf (Reg.VRM_CH_LAT ch) 15 0
def State.latFlow (s : State) (ch : Nat) : Nat := s.rf (Reg.VRM_CH_LDECL ch) 31 24
def State.latBin (s : State) (ch : Nat) : Nat := s.rf (Reg.VRM_CH_LDECL ch) 23 22
def State.latAsdu (s : State) (ch : Nat) : Nat := s.rf (Reg.VRM_CH_LDECL ch) 21 18 + 1
def State.latPmax (s : State) (ch : Nat) : Nat := s.rf (Reg.VRM_CH_LDECL ch) 17 9

/-- The byte time of the declared ingress, in 1/25 ns. -/
def State.latByte (s : State) (ch : Nat) : Nat := match s.latBin ch with | 0 => 8 | 1 => 20 | _ => 200

/-- Whether a declared field lies outside its range (R366). -/
def State.declBad (s : State) (ch : Nat) : Bool :=
  s.latLmax ch < 64 || 9600 < s.latLmax ch || s.latTarget ch == 0 || s.latFlow ch < 79 || 141 < s.latFlow ch || s.latBin ch == 3 ||
  s.latPmax ch == 0 || 256 < s.latPmax ch || s.latLmax ch < s.latPmax ch

/-! ## The terms (R363) -/

/-- D = T_in + T_lane on one path. -/
def State.dNs (s : State) (ch : Nat) (path : Nat × Bool × Nat × Nat) : Frac :=
  let b := s.latByte ch
  let c := max (s.latPmax ch * b + 4500) (64 * b)
  let v := max (s.latLmax ch * b) c + 3000
  let lane := Frac.sum [s.laneNs path.2.2.1 path.2.2.2, Frac.maxOf (s.recircLanes.map fun l => s.laneNs l 0), ⟨(4 * s.latAsdu ch : Nat), 1⟩]
  let through := Frac.add ⟨c, 25⟩ lane
  if path.2.1 && s.rb (Reg.VRM_CH_CFG ch) 10 then through else Frac.max through ⟨v, 25⟩

/-- T_plane of a stream. -/
def State.planeNs (s : State) (ch k : Nat) : Frac :=
  let n := s.latAsdu ch
  ⟨(ceilDiv (if (s.stream k).taps = 8 then 4 else 2) n * n * 1000000000 : Nat), (s.stream k).rate⟩

/-- Evaluations between two wakes of a task, and the angle clock that wakes it. -/
def Task.evDiv (t : Task) : Nat := fld t.w2 23 17 + 1
def Task.evPhase (t : Task) : Nat := fld t.w2 16 10
def Task.wsrc (t : Task) : Nat := fld t.w2 31 29
def Task.wakeClock (t : Task) : Nat := fld t.w2 27 24
def Task.budget (t : Task) : Nat := fld t.w3 31 16

/-- EV_DIV / (E × F) of a task, for a frequency in units of 0.5 Hz. -/
def State.evalNs (s : State) (t : Task) (f2 : Nat) : Frac := ⟨(t.evDiv * 2000000000 : Nat), s.aclkE t.wakeClock * f2⟩

/-- Whether task m ranks ahead of task n at a wake of both (R266, R267). -/
def State.ranksAhead (s : State) (m n : Nat) : Bool :=
  (s.task m).prio < (s.task n).prio || ((s.task m).prio == (s.task n).prio && m < n)

/-- Whether two tasks wake on the same evaluation strobes. -/
def sameStrobes (a b : Task) : Bool :=
  a.wsrc == 1 && b.wsrc == 1 && a.wakeClock == b.wakeClock &&
    a.evPhase % Nat.gcd a.evDiv b.evDiv == b.evPhase % Nat.gcd a.evDiv b.evDiv

/-- The other enabled tasks of the cluster of task n. -/
def State.otherTasks (s : State) (n : Nat) : List Nat := (s.tasksOf (n / 1024)).filter fun m => m != n && (s.task m).en

/-- Whether tasks m and n have an eligible thread in common. -/
def State.shareThread (s : State) (m n : Nat) : Bool := (s.eligibleThreads n).any fun k => s.eligible m k

/-- n_hi of a slot task (R365). -/
def State.nHi (s : State) (n : Nat) : Nat := ((s.otherTasks n).filter fun m => (s.task m).prio ≤ (s.task n).prio && s.shareThread m n).length

/-- t_disp of a slot task (R365). -/
def State.dispNs (s : State) (n : Nat) : Frac :=
  let j := ((s.otherTasks n).filter fun m => sameStrobes (s.task m) (s.task n) && s.ranksAhead m n).length
  let low := (s.eligibleThreads n).filter fun k => (s.otherTasks n).any fun m => (s.task n).prio < (s.task m).prio && s.eligible m k
  let share := (low.map fun k => s.rf (thrCfgReg k) 28 24).foldl max 0
  Frac.add (Frac.max ⟨40, 1⟩ (coreNs (45 + j / 4))) (if low.isEmpty then ⟨0, 1⟩ else coreNs (2 * share + 267))

/-- tRFC of the DRAM that the straps describe (R440, R444), in ns. -/
def tRfcNs : Nat := if tbit Config.ddrStrap 3 then 410 else 295

/-- t_disp + BUDGET of a task. -/
def State.runNs (s : State) (n : Nat) : Frac := Frac.add (s.dispNs n) (coreNs ((s.task n).budget * 16))

/-- T_task (R363, R368). -/
def State.taskNs (s : State) (ch n : Nat) : Frac :=
  if s.latDdrFree ch then s.runNs n
  else Frac.add (s.runNs n) ⟨((ceilDiv ((s.task n).budget * 64) 9750 + 1) * tRfcNs : Nat), 1⟩

/-! ## Routes (R362) -/

/-- The byte time of an Ethernet egress. -/
def State.egByte (s : State) (e : Nat) : Frac := ⟨(s.byteTime e : Nat), 100⟩

/-- The greatest length of the frame that a PCB builds, FCS and any redundancy trailer included. -/
def State.pubLen (s : State) (p : Pcb) (e : Nat) : Nat :=
  let q := { p with stNum := 4294967295, sqNum := 4294967295, interval := p.rtMax, vals := 4294967295 }
  max 60 ((s.pubBody q).length + s.pubSig p) + 4 + (if (s.redOf e).isSome then 6 else 0)

/-- The Ethernet egresses of a PCB. -/
def State.pubPorts (s : State) (p : Pcb) : List Nat := (s.pubEgress p).filter (· < 16)

/-- Whether class tc is express on port e, where preemption is enabled (R162, R363). -/
def State.expressOn (s : State) (e tc : Nat) : Bool := s.rb (Reg.ETH_PREEMPT e) 31 && tbit (s.reg (Reg.SWC_EG_CFG e)) (23 + tc)

/-- W: the wait behind a frame in transmission, in bytes. -/
def State.waitBytes (s : State) (e tc : Nat) : Nat :=
  if s.expressOn e tc then 139 + 64 * s.rf (Reg.ETH_PREEMPT e) 29 28 else s.maxLen e + 20

/-- T_out of PCB b at Ethernet egress e. -/
def State.pubOutNs (s : State) (b e : Nat) : Frac :=
  let p := s.pcb b
  let sign := if p.ctx = 0 then 0 else if (s.autCtx p.ctx).alg ≤ 3 then 96 else 16
  let others := (s.pcbsOn.filter fun a => a != b && p.tc ≤ (s.pcb a).tc && (s.pubPorts (s.pcb a)).contains e).map fun a => s.pubLen (s.pcb a) e
  Frac.add ⟨(40 + sign : Nat), 1⟩ (Frac.mul ⟨(s.waitBytes e p.tc + others.sum + s.pubLen p e : Nat), 1⟩ (s.egByte e))

/-- The routes of a channel with their T_out (R362). -/
def State.routesNs (s : State) (ch : Nat) : List Frac :=
  (s.pcbsOn.flatMap fun b =>
    if (List.range (s.pcb b).dsN).any fun i => (s.pcb b).member i == ch then (s.pubPorts (s.pcb b)).map (s.pubOutNs b) else []) ++
  ((List.range 32).filter fun o => s.outOn o && !s.rb (Reg.FIO_OUT_CFG o) 29 && s.rf (Reg.FIO_OUT_CFG o) 23 16 == ch).map fun _ => (⟨30, 1⟩ : Frac)

/-! ## The bound -/

/-- The task of slot k of a channel, 1024 c + i. -/
def State.slotTaskOf (s : State) (ch k : Nat) : Nat := s.rf (Reg.VRM_CH_IN ch k) 29 27 * 1024 + s.rf (Reg.VRM_CH_IN ch k) 26 17

/-- The bound of a channel's slot without T_out: each term largest over its choices. -/
def State.slotNs (s : State) (entries : List (List Word)) (ch k : Nat) : Frac :=
  let n := s.slotTaskOf ch k
  let t := s.task n
  let paths := s.pathsOf entries t.part
  Frac.sum
    [Frac.maxOf (paths.map (s.dNs ch)), Frac.maxOf ((s.grantedStreams t.part).map (s.planeNs ch)), s.evalNs t (s.latFlow ch), s.taskNs ch n,
     if s.rf (Reg.VRM_CH_IN ch k) 31 30 = 2 then ⟨(200 + s.rf Reg.PAI_CFG 9 0 : Nat), 1⟩ else ⟨0, 1⟩, ⟨20, 1⟩]

/-- L_trip of a channel in whole nanoseconds (R362). -/
def State.tripNs (s : State) (entries : List (List Word)) (ch : Nat) : Nat :=
  Frac.ceilNat (Frac.add (Frac.maxOf ((List.range (s.chUsed ch)).map (s.slotNs entries ch))) (Frac.maxOf (s.routesNs ch)))

/-- The conditions on a slot under which rule 33 fails whatever the bound (R365, R366). -/
def State.slotUnfit (s : State) (entries : List (List Word)) (ch k : Nat) : Bool :=
  let n := s.slotTaskOf ch k
  let t := s.task n
  t.budget == 0 || !tbit t.w0 14 || tbit t.w0 16 || (s.eligibleThreads n).length ≤ s.nHi n ||
  ((s.pathsOf entries t.part).map (fun (p : Nat × Bool × Nat × Nat) => p.2.2) ++ s.recircLanes.map fun l => (l, 0)).any
    (fun p => (s.stagesFrom p.1 p.2).any fun st => s.rf (Reg.LAN_STG_CFG p.1 st) 12 0 == 0) ||
  Frac.lt (s.evalNs t 141) (s.runNs n) ||
  (s.rf (Reg.VRM_CH_IN ch k) 31 30 == 2 && !s.rb (Reg.IND_ACLK_CFG t.wakeClock) 21)

/-- Whether rule 33 fails for a channel (R362, R365, R366). -/
def State.latFails (s : State) (entries : List (List Word)) (ch : Nat) : Bool :=
  s.latEn ch && (s.declBad ch || (s.routesNs ch).isEmpty || ((List.range (s.chUsed ch)).any (s.slotUnfit entries ch)) ||
    s.latTarget ch * 1000 < s.tripNs entries ch)

/-- Whether a partition has history reads from DRAM (R368, R450). -/
def State.readsHistory (s : State) (p : Nat) : Bool :=
  (List.range 6).any fun c => (List.range 8).any fun f => s.rb (Reg.REC_FETCH_CFG c f) 31 && s.rf (Reg.REC_FETCH_CFG c f) 3 0 == p

/-- Whether rule 34 fails for a channel (R368). -/
def State.ddrFails (s : State) (ch : Nat) : Bool :=
  s.latEn ch && s.latDdrFree ch && (List.range (s.chUsed ch)).any fun k => s.readsHistory (s.task (s.slotTaskOf ch k)).part

end Sys2Proof.Machine
end

