-- ==== Sys2Proof/Machine/Checker.lean ====
section
/-!
DEFINITION. The consistency checker (R335, R336): one list of failures for each of the 39 rules, judged on the effective configuration `o` and on the
one that applying the whole shadow produces, `n`.
-/

namespace Sys2Proof.Machine

/-- A failure (R335, R359): rule, result code, object index, second object index. -/
structure ChkErr where
  rule : Nat
  result : Nat
  obj : Nat
  det : Nat

/-- The failures of a rule for the indexes below a bound that satisfy a test. -/
def failsOf (rule result bound : Nat) (bad : Nat → Bool) : List ChkErr :=
  ((List.range bound).filter bad).map fun i => ⟨rule, result, i, 0⟩

/-- The failures of a rule over listed objects. -/
def failsIn (rule result : Nat) (objs : List Nat) (bad : Nat → Bool) : List ChkErr := (objs.filter bad).map fun i => ⟨rule, result, i, 0⟩

/-! ## Common readings of a configuration -/

/-- TSTATE and SPARE of a tile (R350, R359). -/
def State.tileState (s : State) (j : Nat) : Nat := s.rf (Reg.CFG_TILE j) 31 29
def State.tileSpare (s : State) (j : Nat) : Nat := s.rf (Reg.CFG_TILE j) 28 24

/-- Whether partition p holds a tile of cluster c, or any tile. -/
def State.partIn (s : State) (p c : Nat) : Bool := (s.tilesOf p).any fun j => j / 4 == c
def State.partAny (s : State) (p : Nat) : Bool := !(s.tilesOf p).isEmpty

/-- Whether an angle clock is enabled. -/
def State.aclkOn (s : State) (n : Nat) : Bool := s.rb (Reg.IND_ACLK_CFG n) 31

/-- The enabled tasks, as 1024 c + i. -/
def State.tasksOn (s : State) : List Nat := (s.clu.tasks.filter fun p => p.2.en).map Prod.fst

/-- The enabled contexts. -/
def State.ctxsOn (s : State) : List Nat := (s.aut.ctx.filter fun p => p.2.en).map Prod.fst

/-- The cores of CORE_MASK of a task, as device-wide tiles. -/
def State.taskTiles (s : State) (n : Nat) : List Nat := (setBits 16 (fld (s.task n).w1 31 16)).map fun k => 4 * (n / 1024) + k / 4

/-- Whether address a lies in region v of tile j. -/
def State.inRgn (s : State) (j v a : Nat) : Bool :=
  fld (s.reg (Reg.CLU_PMEM_RGN (j / 4) (j % 4) v)) 15 0 ≤ a && a ≤ fld (s.reg (Reg.CLU_PMEM_RGN (j / 4) (j % 4) v)) 31 16

/-- The partitions with content (R336): tiles, an enabled task or an enabled envelope. -/
def State.withContent (s : State) : List Nat :=
  ((List.range 15).map (· + 1)).filter fun p =>
    s.partAny p || s.tasksOn.any (fun n => (s.task n).part == p) || tbit (wordAt (s.env p).w 0) 31

/-- The ENTRY records of the shadow as classifier entries: table, key, result (R324). -/
def State.shadowEntries (o : State) : List (Nat × List Byte × List Word) :=
  (o.shadowRecs.filter fun r => r.rkind == 2 && r.target / 1073741824 < 2).flatMap fun r =>
    (List.range (r.words.length / 16)).map fun i =>
      let w := (r.words.drop (16 * i)).take 16
      (r.target / 1073741824, wordsBytes (w.take 10), w.drop 10)

/-- Whether the commit changes the geometry of the classifier tables, which clears them (R80). -/
def clsGeomMoved (o n : State) : Bool :=
  (List.range 2).any fun t => o.reg (Reg.CLS_TBL_CFG t) != n.reg (Reg.CLS_TBL_CFG t) ||
    o.reg (Reg.CLS_PROFILE_LO t) != n.reg (Reg.CLS_PROFILE_LO t) || o.reg (Reg.CLS_PROFILE_HI t) != n.reg (Reg.CLS_PROFILE_HI t)

/-- Whether the commit changes the geometry of the pools (R173). -/
def poolGeomMoved (o n : State) : Bool := (List.range 4).any fun p => o.reg (Reg.OCH_POOL_CFG p) != n.reg (Reg.OCH_POOL_CFG p)

/-- The classifier results that stand after the commit: those of its records, and those of live entries that it neither clears nor updates. -/
def chkEntries (o n : State) : List (List Word) :=
  let es := o.shadowEntries
  let live := if clsGeomMoved o n then [] else
    (o.ing.slots.filter fun p => p.2.valid && !(es.any fun e => e.1 == p.1 / 131072 && keyNat e.2.1 == p.2.key)).map fun p =>
      natWords 6 p.2.res.toNat
  (es.map fun e => e.2.2) ++ live

/-- An SRAM region of cluster c: enabled, base and end in KiB, owner. -/
def State.rgnOn (s : State) (c r : Nat) : Bool := s.rb (Reg.CLU_SRAM_RGN c r) 31
def State.rgnBase (s : State) (c r : Nat) : Nat := s.rf (Reg.CLU_SRAM_RGN c r) 14 4
def State.rgnEnd (s : State) (c r : Nat) : Nat := s.rf (Reg.CLU_SRAM_RGN c r) 25 15 + 1
def State.rgnPart (s : State) (c r : Nat) : Nat := s.rf (Reg.CLU_SRAM_RGN c r) 29 26

/-! ## Tiles, threads and lanes: rules 1 to 8 -/

def chkTiles (o n : State) : List ChkErr :=
  failsOf 1 1 24 (fun j => n.tileState j != o.tileState j && 2 ≤ n.tileState j) ++
  (if n.partAny 0 then [] else [⟨1, 1, 0, 1⟩]) ++
  (((List.range 15).map (· + 1)).filter fun p =>
    (4 ≤ (o.part p).st || o.partsApplied.contains p) && !n.partAny p).map (fun p => ⟨1, 1, p, 1⟩)

def chkTile0 (n : State) : List ChkErr := (failsOf 2 1 6 fun c => !(n.tilesOf 0).contains (4 * c)).map fun e => { e with obj := 4 * e.obj }

def chkSpares (n : State) : List ChkErr :=
  failsOf 3 3 24 fun j => n.tileSpare j != 31 &&
    (j % 4 == 0 || 24 ≤ n.tileSpare j || n.tileSpare j / 4 != j / 4 || n.tileState (n.tileSpare j) != 1)

def chkBound (n : State) : List ChkErr :=
  failsOf 4 1 768 fun k => n.thrEn k && n.thrBound k &&
    (!(n.tilesOf 0).contains (k / 32) || !n.rb (Reg.LAN_CFG (n.thrLane k)) 31 || n.rf (Reg.LAN_CFG (n.thrLane k)) 28 26 < n.thrStage k)

/-- 720720 is a multiple of every permitted SLOT_N, so that the sum of its quotients is exact. -/
def chkSlots (n : State) : List ChkErr :=
  failsOf 5 4 768 (fun k => n.thrEn k && (n.rf (thrCfgReg k) 28 24 < 2 || 16 < n.rf (thrCfgReg k) 28 24)) ++
  ((List.range 96).filter fun core =>
    720720 < (((List.range 8).filter fun t => n.thrEn (8 * core + t)).map fun t => 720720 / n.rf (thrCfgReg (8 * core + t)) 28 24).sum).map
      (fun core => ⟨5, 4, core, 1⟩)

def chkLanes (n : State) : List ChkErr :=
  failsOf 6 4 32 (fun i => n.rb (Reg.LAN_CFG (i / 8)) 31 && i % 8 ≤ n.rf (Reg.LAN_CFG (i / 8)) 28 26 &&
    ((n.stageThreads (i / 8) (i % 8)).isEmpty || n.rf (Reg.LAN_STG_CFG (i / 8) (i % 8)) 21 13 < 8 || 256 < n.rf (Reg.LAN_STG_CFG (i / 8) (i % 8)) 21 13)) ++
  ((List.range 4).filter fun l => n.rb (Reg.LAN_CFG l) 31 &&
    512 < ((n.stagesFrom l 0).map fun st => n.rf (Reg.LAN_STG_CFG l st) 21 13).sum).map (fun l => ⟨6, 4, 32 + l, 0⟩)

/-- The word addresses that a PROG record writes. -/
def progAddrs (r : Rec) : List Nat := (List.range (2 * r.words.length)).map fun i => (r.target + i) % 65536

def chkPrgLive (o : State) : List ChkErr :=
  failsOf 7 9 24 fun j =>
    let st := (o.part (o.tilePart j)).st
    (st == 4 || st == 5 || st == 7) && o.tileState j != 1 &&
    o.shadowRecs.any fun r => r.rkind == 3 && r.target / 65536 == j && (progAddrs r).any fun a => (List.range 4).any fun v => o.inRgn j v a

def chkPmem (n : State) : List ChkErr :=
  failsOf 8 1 24 (fun j => j % 4 != 0 && fld (n.reg (Reg.CLU_PMEM_RGN (j / 4) (j % 4) 2)) 15 0 ≤ fld (n.reg (Reg.CLU_PMEM_RGN (j / 4) (j % 4) 2)) 31 16) ++
  ((List.range 6).filter fun c => n.thrEn (128 * c) && !(List.range 4).any fun v => n.inRgn (4 * c) v (n.rf (Reg.CLU_SUP_CFG c) 31 16)).map
    (fun c => ⟨8, 1, 4 * c, 1⟩) ++
  (n.tasksOn.filter fun i => (n.taskTiles i).any fun j =>
    !(n.inRgn j 0 (n.task i).entry || (tbit (n.task i).w0 30 && n.inRgn j 1 (n.task i).entry))).map (fun i => ⟨8, 1, i, 2⟩)

/-! ## Memory, tasks and what joins partitions: rules 9 to 13 -/

def chkSramRgn (n : State) : List ChkErr :=
  (List.range 96).flatMap fun i => ((List.range (i % 16)).filter fun q =>
    n.rgnOn (i / 16) (i % 16) && n.rgnOn (i / 16) q && n.rgnBase (i / 16) q < n.rgnEnd (i / 16) (i % 16) &&
      n.rgnBase (i / 16) (i % 16) < n.rgnEnd (i / 16) q).map fun q => ⟨9, 2, i / 16 * 16 + q, i⟩

/-- DATA records of the shadow with the partition they came for, none for a device part. -/
def State.dataRecs (o : State) : List (Option Nat × Rec) :=
  o.shadowImgs.flatMap fun p => (p.recs.filter fun r => r.rkind == 4).map fun r => (if p.kind = 1 then some p.part else none, r)

def chkSramData (o n : State) : List ChkErr :=
  let ds := o.dataRecs
  failsOf 10 9 ds.length fun i =>
    match ds[i]? with
    | none => false
    | some (p, r) =>
      let c := r.target / 536870912
      let a := r.target % 2097152
      let z := a + 4 * r.words.length
      !((List.range 16).any fun q => n.rgnOn c q && (p.isNone || p == some (n.rgnPart c q)) && n.rgnBase c q * 1024 ≤ a && z ≤ n.rgnEnd c q * 1024) ||
      (List.range 16).any fun q => o.rgnOn c q && o.rgnBase c q * 1024 < z && a < o.rgnEnd c q * 1024 && 4 ≤ (o.part (o.rgnPart c q)).st

def chkTcbPart (n : State) : List ChkErr :=
  failsIn 11 3 n.tasksOn fun i =>
    !n.partIn (n.task i).part (i / 1024) || (n.taskTiles i).any fun j => !(n.tilesOf (n.task i).part).contains j

def chkTcbWake (n : State) : List ChkErr :=
  failsIn 12 1 n.tasksOn fun i =>
    let t := n.task i
    t.evDiv ≤ t.evPhase || 4 < t.wsrc || (t.wsrc == 1 && !n.aclkOn t.wakeClock) || (t.wsrc == 2 && 31 < fld t.w2 9 0) ||
      (t.wsrc == 4 && 143 < fld t.w2 9 0)

/-- Whether a mask names a partition for which a test fails. -/
def maskBad (m : Nat) (ok : Nat → Bool) : Bool := (setBits 16 m).any fun p => !ok p

def chkShared (n : State) : List ChkErr :=
  failsOf 13 3 384 (fun k =>
    let t := n.task (1024 * (k / 64) + n.rf (chanCfgReg k) 9 0)
    n.chanEn k && (!n.partIn (n.chanTx k) (k / 64) || !n.partIn (n.chanRx k) (k / 64) ||
      (n.rb (chanCfgReg k) 30 && !(t.en && t.part == n.chanRx k)))) ++
  (failsOf 13 3 384 fun k => maskBad (n.rf (Reg.CLU_LCK_LCFG (k / 64) (k % 64)) 15 0) fun p => n.partIn p (k / 64)).map
    (fun e => { e with obj := 384 + e.obj }) ++
  (failsOf 13 3 128 fun m => (List.range 6).any fun c =>
    n.rb (Reg.MB_CFG c m) 31 && n.rf (Reg.MB_CFG c m) 29 27 == c && !n.partIn (n.rf (Reg.MB_CFG c m) 26 23) c).map (fun e => { e with obj := 768 + e.obj }) ++
  (failsOf 13 3 256 fun i => maskBad (n.rf (Reg.CLU_LCK_GCFG 0 i) 15 0) n.partAny).map (fun e => { e with obj := 896 + e.obj }) ++
  (failsOf 13 3 16 fun p => n.rb (Reg.CLU_PMB_CFG 0 p) 31 && !n.partIn (n.rf (Reg.CLU_PMB_CFG 0 p) 26 23) (n.rf (Reg.CLU_PMB_CFG 0 p) 29 27)).map
    (fun e => { e with obj := 1152 + e.obj })

/-! ## Pools, classifier and ports: rules 14 to 20 -/

/-- The largest frame that any port takes (R57, R61). -/
def State.largestFrame (s : State) : Nat :=
  ((List.range 16).map fun p => s.rf (Reg.ETH_PORT_CFG p) 13 0).foldl max (if (List.range 4).any s.segOn then 1536 else 0)

def chkPools (n : State) : List ChkErr :=
  let size := n.poolSize
  let ok := (List.range 4).all (fun p => 256 ≤ size p && size p ≤ 16384) && (List.range 3).all (fun p => size p < size (p + 1)) &&
    ((List.range 4).map fun p => size p * n.poolCount p).sum ≤ 8388608 && n.poolBase 4 ≤ 32768 && n.largestFrame ≤ size 3
  (if ok then [] else [⟨14, 1, 0, 0⟩]) ++
  failsOf 15 4 4 fun p => n.poolCount p < ((List.range 64).map fun x => n.rsvOf x p).sum

def chkGeomState (o n : State) : List ChkErr :=
  if o.pwr.st = .config then []
  else
    failsOf 16 7 2 (fun t => o.reg (Reg.CLS_TBL_CFG t) != n.reg (Reg.CLS_TBL_CFG t) || o.reg (Reg.CLS_PROFILE_LO t) != n.reg (Reg.CLS_PROFILE_LO t) ||
      o.reg (Reg.CLS_PROFILE_HI t) != n.reg (Reg.CLS_PROFILE_HI t)) ++
    (failsOf 16 7 4 fun p => o.reg (Reg.OCH_POOL_CFG p) != n.reg (Reg.OCH_POOL_CFG p)).map (fun e => { e with obj := 2 + e.obj }) ++
    (if o.rb Reg.PCI_CFG 31 != n.rb Reg.PCI_CFG 31 then [⟨16, 7, 6, 0⟩] else [])

/-- Bytes of the key fields of a profile (R76); none where a code is no field. -/
def profileBytes : List Nat → Option Nat
  | [] => some 0
  | c :: cs => if 17 < c then none else (profileBytes cs).map ((if c = 17 then 1 else (keyField 0 {} c).2) + ·)

def chkClsGeom (n : State) : List ChkErr :=
  (if 64 < n.rf (Reg.CLS_TBL_CFG 0) 6 0 + n.rf (Reg.CLS_TBL_CFG 1) 6 0 then [⟨17, 1, 0, 0⟩] else []) ++
  ((List.range 2).filter fun t => match profileBytes (n.profile t) with | some b => 40 < b | none => true).map (fun t => ⟨17, 1, 1 + t, 0⟩)

def chkFlood (n : State) : List ChkErr := failsOf 18 1 20 fun p => 3 ≤ n.rf (Reg.CLS_PORT_DEF p) 27 24 || 4 ≤ n.rf (Reg.CLS_PORT_DEF p) 31 28

def chkPorts (n : State) : List ChkErr :=
  failsOf 19 1 16 (fun p => (n.rf (Reg.ETH_PORT_CFG p) 28 27 != 0 && n.rf (Reg.ETH_PORT_CFG p) 31 29 != 1) ||
    n.rf (Reg.ETH_PORT_CFG p) 13 0 < 64 || 9600 < n.rf (Reg.ETH_PORT_CFG p) 13 0) ++
  (failsOf 19 1 4 fun g => n.rf (Reg.T1S_SEG_CFG g) 25 22 < 2 || 8 < n.rf (Reg.T1S_SEG_CFG g) 25 22).map fun e => { e with obj := 16 + e.obj }

/-- The ports of a redundancy group. -/
def State.redPorts (s : State) (r : Nat) : List Nat :=
  if s.redMode r = 0 then [] else [s.redA r, s.redB r] ++ (if s.redMode r = 2 ∨ s.redMode r = 4 then [s.redI r] else [])

/-- The speed of a port: MODE 3 and 4 are both 1 Gb/s (R55). -/
def State.portSpeed (s : State) (p : Nat) : Nat := min (s.rf (Reg.ETH_PORT_CFG p) 31 29) 3

def chkGroups (n : State) : List ChkErr :=
  failsOf 20 2 8 fun r =>
    let ps := n.redPorts r
    4 < n.redMode r || ps.eraseDups.length != ps.length || ps.any (fun p => n.portSpeed p != n.portSpeed (n.redA r)) ||
      (List.range r).any fun q => (n.redPorts q).any fun p => ps.contains p

/-! ## Streams, clocks and contexts: rules 21 to 27 -/

def chkStreamMap (n : State) : List ChkErr :=
  n.streamsOn.flatMap fun a =>
    (if 8192 < (n.stream a).csBase + (n.stream a).nch then [⟨21, 2, a, 0⟩] else []) ++
    (n.streamsOn.filter fun b => a < b && (n.stream a).csBase < (n.stream b).csBase + (n.stream b).nch &&
      (n.stream b).csBase < (n.stream a).csBase + (n.stream a).nch).map fun b => ⟨21, 2, a, b⟩

def chkMerge (o n : State) : List ChkErr :=
  let merged := n.streamsOn.filter fun m => (n.stream m).merge
  failsIn 22 1 merged fun m =>
    let a := (n.stream m).mergeA
    let b := (n.stream m).mergeB
    (n.stream a).aclk != (n.stream b).aclk || (n.stream a).nch != (n.stream b).nch || merged.contains a || merged.contains b ||
      !(entriesOf (chkEntries o n) m).isEmpty

def chkStreamClock (n : State) : List ChkErr :=
  failsIn 23 1 n.streamsOn fun k =>
    let x := n.stream k
    !n.aclkOn x.aclk || x.dueUs < 10 || 4000 < x.dueUs || (!x.merge && x.dueUs * x.rate < (if x.taps = 8 then 4000000 else 2000000))

/-- Whether a channel-stream lies in an enabled stream. -/
def State.csOn (s : State) (cs : Nat) : Bool := s.streamsOn.any fun k => (s.stream k).csBase ≤ cs && cs < (s.stream k).csBase + (s.stream k).nch

def chkAclkSrc (n : State) : List ChkErr :=
  failsOf 24 3 16 fun a =>
    let mode := n.rf (Reg.IND_ACLK_CFG a) 30 28
    n.aclkOn a && mode != 2 &&
      (((List.range (if mode = 1 then 3 else 1)).any fun i => !n.csOn (n.rf (Reg.IND_ACLK_CFG a) 12 0 + i)) ||
        (n.rb (Reg.IND_ACLK_SRC2 a) 31 && !n.csOn (n.rf (Reg.IND_ACLK_SRC2 a) 12 0)))

/-- The declared rates of the enabled receive contexts of a family (R102): 0 for ALG 1 to 3, 1 for the rest. -/
def State.famRate (s : State) (fam : Nat) : Nat :=
  ((s.ctxsOn.filter fun i => !(s.autCtx i).transmit && (if (s.autCtx i).alg ≤ 3 then 0 else 1) == fam).map fun i => fld (s.autCtx i).w10 23 0).sum

def chkAutRate (n : State) : List ChkErr := failsOf 25 4 2 fun fam => (if fam = 0 then 120000 else 400000) < n.famRate fam

/-- The key slots that a context names (R93). -/
def AutCtx.namedSlots (c : AutCtx) : List Nat :=
  (if c.keyA.id != 0 then [c.keyA.slot.toNat] else []) ++ (if c.keyB.id != 0 then [c.keyB.slot.toNat] else [])

def chkAutKey (n : State) : List ChkErr :=
  n.ctxsOn.flatMap fun i => ((n.autCtx i).namedSlots.filter fun k => (n.keySlot k).isNone).map fun k => ⟨26, 6, i, k⟩

/-- Whether a context is enabled in a direction. -/
def State.ctxOk (s : State) (i : Nat) (transmit : Bool) : Bool := (s.autCtx i).en && (s.autCtx i).transmit == transmit

def chkAutCtx (o n : State) : List ChkErr :=
  let es := chkEntries o n
  (failsOf 27 3 es.length fun k => let c := fld (wordAt (es.getD k []) 1) 31 20; c != 0 && !n.ctxOk c false) ++
  (n.pcbsOn.filter fun b => (n.pcb b).ctx != 0 && !n.ctxOk (n.pcb b).ctx true).map fun b => ⟨27, 3, b, 1⟩

/-! ## Voting, outputs and instants: rules 28 to 31 -/

def chkVrmSlot (n : State) : List ChkErr :=
  (List.range 256).flatMap fun ch => ((List.range (n.chUsed ch)).filter fun k =>
    let kind := n.rf (Reg.VRM_CH_IN ch k) 31 30
    kind == 0 || kind == 3 || 5 < n.rf (Reg.VRM_CH_IN ch k) 29 27 || (kind == 1 && !(n.task (n.slotTaskOf ch k)).en) ||
      (kind == 2 && !n.rb Reg.PAI_CFG 31)).map fun k => ⟨28, 3, ch, k⟩

def chkVrmPcb (n : State) : List ChkErr :=
  failsIn 29 1 n.pcbsOn fun b =>
    let p := n.pcb b
    (List.range p.dsN).any (fun i => n.chUsed (p.member i) == 0) || fld p.w2 31 16 < 10 || fld p.w2 15 0 * 100 < fld p.w2 31 16

def chkFio (n : State) : List ChkErr :=
  failsOf 30 3 32 fun i =>
    let v := n.reg (Reg.FIO_OUT_CFG i)
    tbit v 31 && (n.chUsed (fld v 23 16) == 0 || (tbit v 30 && n.chUsed (fld v 15 8) == 0) ||
      (tbit v 29 && !(List.range 32).any fun u => n.rf (Reg.IND_INST_TARGET u) 1 0 == 2 && n.rf (Reg.IND_INST_TARGET u) 15 8 == i))

def chkInst (n : State) : List ChkErr :=
  failsOf 31 1 32 fun u =>
    let x := n.rf (Reg.IND_INST_TARGET u) 15 8
    match n.rf (Reg.IND_INST_TARGET u) 1 0 with
    | 0 => false
    | 3 => 15 < x
    | _ => 31 < x

/-! ## Envelopes, latency, keys and routes: rules 32 to 39 -/

def chkEnvelope (o n : State) : List ChkErr :=
  (failsOf 32 8 16 fun p => match o.partSh p with
    | some x => !tbit (wordAt (n.env p).w 0) 31 || !x.recs.all (envRec (n.env p).w p (n.sramIn p))
    | none => false) ++
  (((List.range 15).map (· + 1)).filter fun p => tbit (wordAt (n.env p).w 0) 31 &&
    envTiles (n.env p).w != ((n.tilesOf p).map fun j => 2 ^ j).sum).map fun p => ⟨32, 8, p, 1⟩

def chkLatency (o n : State) : List ChkErr :=
  failsOf 33 5 256 (n.latFails (chkEntries o n)) ++ failsOf 34 5 256 n.ddrFails

def chkCreds (n : State) : List ChkErr :=
  failsIn 35 6 n.withContent fun p => match n.credOf p with | some k => !(n.cred k).loaded | none => false

/-- The shadow's parts by object index: 0 the device part, 16 the epoch part, p the part of partition p. -/
def chkRoots (o : State) : List ChkErr :=
  (o.shadowImgs.filter fun x => o.sab.otp.rootRevoked.toNat / 2 ^ x.root % 2 == 1).map fun x =>
    ⟨36, 6, if x.kind = 1 then x.part else if x.kind = 2 then 16 else 0, 0⟩

def chkRoutes (n : State) : List ChkErr :=
  failsOf 37 1 320 fun e => !evReserved e && n.rb (Reg.EVT_ROUTE e) 19 && 6 ≤ n.rf (Reg.EVT_ROUTE e) 18 16

def chkAutField (n : State) : List ChkErr :=
  failsIn 38 1 n.ctxsOn fun i =>
    let c := n.autCtx i
    c.alg == 0 || 6 ≤ c.alg || 64 < c.win || (c.ctrSrc == 3 && c.smpMod == 0)

/-- The device-wide lock registers that the shadow sets, as written: offset and value, the last value of each offset (R298). -/
def State.globalSets (o : State) : List (Nat × Nat) :=
  o.shadowRecs.foldl (fun l r =>
    if r.rkind = 0 then
      (List.range r.words.length).foldl (fun l i =>
        let off := r.target + 4 * i
        if 0x100000 ≤ off ∧ regKey off != off ∨ (0x100000 ≤ off ∧ off < 0x110000 ∧ regKey (off + 0x10000) = off) then
          (off, (wordAt r.words i).toNat % 2 ^ 32) :: l.filter (fun p => p.1 != off)
        else l) l
    else l) []

def chkGlobal (o : State) : List ChkErr :=
  let l := o.globalSets
  (failsOf 39 2 256 fun i => l.any fun a => regKey a.1 == Reg.CLU_LCK_GCFG 0 i && l.any fun b => regKey b.1 == regKey a.1 && b.2 != a.2) ++
  (failsOf 39 2 16 fun p => l.any fun a => regKey a.1 == Reg.CLU_PMB_CFG 0 p && l.any fun b => regKey b.1 == regKey a.1 && b.2 != a.2).map
    fun e => { e with obj := 256 + e.obj }

/-! ## The check -/

/-- Every failure of the shadow (R335, R336), by rule. Format 2 channels declare no target, so that rules 33 and 34 pass them (R329). -/
def State.checkShadow (o : State) : List ChkErr :=
  let n := o.produced
  let a := chkTiles o n ++ chkTile0 n ++ chkSpares n ++ chkBound n ++ chkSlots n ++ chkLanes n ++ chkPrgLive o ++ chkPmem n
  let b := chkSramRgn n ++ chkSramData o n ++ chkTcbPart n ++ chkTcbWake n ++ chkShared n ++ chkPools n ++ chkGeomState o n ++ chkClsGeom n
  let c := chkFlood n ++ chkPorts n ++ chkGroups n ++ chkStreamMap n ++ chkMerge o n ++ chkStreamClock n ++ chkAclkSrc n ++ chkAutRate n
  let d := chkAutKey n ++ chkAutCtx o n ++ chkVrmSlot n ++ chkVrmPcb n ++ chkFio n ++ chkInst n ++ chkEnvelope o n ++ chkLatency o n
  a ++ b ++ c ++ d ++ chkCreds n ++ chkRoots o ++ chkRoutes n ++ chkAutField n ++ chkGlobal o

/-- Failures put in ascending rule number and then ascending object index (R335). -/
def insertErr (e : ChkErr) : List ChkErr → List ChkErr
  | [] => [e]
  | x :: l => if e.rule < x.rule ∨ (e.rule = x.rule ∧ (e.obj < x.obj ∨ (e.obj = x.obj ∧ e.det < x.det))) then e :: x :: l else x :: insertErr e l

/-- The failures in the order in which they are recorded. -/
def sortErrs (l : List ChkErr) : List ChkErr := l.foldr insertErr []

/-- The check of a passed or failed shadow recorded (R335, R359): up to 32 failures, the count saturating at 63. -/
def State.recordCheck (s : State) (l : List ChkErr) : State :=
  let word := fun (i : Nat) => match l[i]? with | some e => e.rule * 16777216 + e.result * 1048576 + e.obj % 1048576 | none => 0
  let s1 := each (List.range 32) (fun x i =>
    (x.setReg (Reg.CFG_CHK_ERR i) (BitVec.ofNat 32 (word i))).setReg (Reg.CFG_CHK_ERR_DET i)
      (BitVec.ofNat 32 (match l[i]? with | some e => e.det | none => 0))) s
  s1.setReg Reg.CFG_CHK_STATUS (BitVec.ofNat 32
    (match l with
     | [] => 1073741824
     | e :: _ => min l.length 63 * 16777216 + e.rule * 256 + e.result))

end Sys2Proof.Machine
end

