-- ==== Sys2Proof/Machine/Indigo.lean ====
section
/-!
DEFINITION. What the commands of Indigo do (R27-R44): device time, its sources, PTP, the outputs, the angle clocks. The strobes stand in
Machine/Strobes.lean, because what they reach lies in other blocks.
-/

namespace Sys2Proof.Machine

/-! ## Servo and steps -/

/-- The steering a servo update settles on: within 200 ppm, in units of 0.001 ppb (R27). The control law is not described: a free value. -/
def State.steer (s : State) : State :=
  (s.freeN 400000001).2.setReg Reg.IND_STEER (wordOfInt (((s.freeN 400000001).1 : Int) - 200000000))

/-- A source whose offset has become smaller by ns. -/
def SourceState.less (r : SourceState) (ns : Int) : SourceState := { r with off := r.off - ns }

/-- A step that removes an offset of `ns` nanoseconds (R28, R32): every offset changes by as much. -/
def State.stepBy (s : State) (ns : Int) : State :=
  let x := s.stepTime (lessNs s.time ns)
  { x with ind := { x.ind with ptp := x.ind.ptp.less ns, tin0 := x.ind.tin0.less ns, tin1 := x.ind.tin1.less ns } }.showOffsets

/-- The count of updates with an offset within LOCK_THR, and what the sixteenth does (R31). -/
def State.countUpdate (s : State) (off : Int) : State :=
  if off.natAbs ≤ s.rf Reg.IND_SRC_THR 15 0 then
    (if s.ind.lockN + 1 = 16 then s.setTimeState .locked else { s with ind := { s.ind with lockN := s.ind.lockN + 1 } })
  else { s with ind := { s.ind with lockN := 0 } }

/-- Whether an update in ACQUIRING steps (R31): the offset exceeds STEP_THR, no step of this ACQUIRING has been made, R28 permits. -/
def State.stepWanted (s : State) (x : Nat) : Bool :=
  s.ind.st == .acquiring && !s.ind.stepUsed && s.stepAllowed &&
  s.rf Reg.IND_SRC_THR 31 16 < (s.offsetOf x).natAbs

/-- The disagreement of qualified sources (R32): more than DIS_THR between two of them for 4 updates raises EV036. -/
def State.judgeDisagree (s : State) : State :=
  let offs := ([1, 2, 3].filter fun x => s.srcQualified x).map fun x => s.offsetOf x
  if offs.any fun a => offs.any fun b => s.rf Reg.IND_SRC_DIS 31 0 < (a - b).natAbs then
    (if s.ind.disN + 1 = 4 then { s with ind := { s.ind with disN := 4 } }.deliver 36
     else { s with ind := { s.ind with disN := s.ind.disN + 1 } })
  else { s with ind := { s.ind with disN := 0 } }

/-- One servo update with the selected source x (R31): an update that steps counts by the offset it found. -/
def State.servoWith (s : State) (x : Nat) : State :=
  match s.ind.st with
  | .freerun => s
  | .acquiring =>
    (if s.stepWanted x then { s with ind := { s.ind with stepUsed := true } }.stepBy (s.offsetOf x) else s.steer).countUpdate (s.offsetOf x)
  | .locked => s.steer
  | .holdover => s.steer.countUpdate (s.offsetOf x)

/-- SERVO_UPDATE (R31, R32). -/
def execServoUpdate (s : State) : Host.Outcome State Fault Refusal :=
  let s1 := s.judgeSources
  done s (if s1.bestSrc = 0 then s1.judgeDisagree else ((s1.selectSrc s1.bestSrc).servoWith s1.bestSrc).judgeDisagree)

/-- The word of a wide value that was written and is not yet in effect (R7); zero where none was. -/
def State.held (s : State) (off : Nat) : Word := (s.wrHold.gd none off).getD 0

/-- A request to step device time to the 96-bit value whose lower words were written before (R7, R28): where R28 does not permit the
step, offset is corrected by steering alone and nothing steps. A nanoseconds field of 1,000,000,000 or more, which the spec refuses in descriptors
alone (R47), carries into the seconds (DESIGN CHOICE, log 143), so that device time never shows such a value (R5). -/
def State.timeSetWrite (s : State) (val : Word) : State :=
  let x := { s with wrHold := (s.wrHold.sd none (Reg.IND_TIME_SET 0) none).sd none (Reg.IND_TIME_SET 1) none }
  if s.stepAllowed then
    x.stepTime (timeOf96 ((s.held (Reg.IND_TIME_SET 0)).toNat + 2 ^ 32 * (s.held (Reg.IND_TIME_SET 1)).toNat + 2 ^ 64 * val.toNat))
  else x

/-- TIME_SET_STEP_REQUEST: a write of IND_TIME_SET_2 (R28). -/
def execTimeSetStepRequest (who : Accessor) (val : Word) (s : State) : Host.Outcome State Fault Refusal :=
  done s (s.writeCmd who (Reg.IND_TIME_SET 2) fun s => s.timeSetWrite val)

/-- A write of 1 to RESTART (R31): FREERUN, or ignored and flagged while a PTP-named commit is armed. -/
def State.restartTime (s : State) : State :=
  if s.ptpCommitArmed then s.sqcEach Reg.IND_TIME_STATUS 4 40 else (s.selectSrc 0).setTimeState .freerun

/-- TIME_RESTART: the write of 1 to IND_TIME_CTRL.RESTART (R31). -/
def execTimeRestart (who : Accessor) (s : State) : Host.Outcome State Fault Refusal :=
  done s (s.writeCmd who Reg.IND_TIME_CTRL State.restartTime)

/-! ## PTP -/

/-- Whether port p takes part in PTP (R34, R53). -/
def State.ptpOn (s : State) (p : Nat) : Bool :=
  s.rb Reg.IND_PTP_CFG 31 && s.rf (Reg.IND_PTP_PORT p) 31 30 != 0 && s.rb (Reg.ETH_PORT_CFG p) 24

/-- Whether port p is a transparent-clock port (R34). -/
def State.ptpTc (s : State) (p : Nat) : Bool := s.ptpOn p && (s.rf (Reg.IND_PTP_PORT p) 31 30 == 2 || s.rf Reg.IND_PTP_CFG 29 28 == 2)

/-- Whether port p is the slave port of the ordinary or boundary clock. -/
def State.ptpSlave (s : State) (p : Nat) : Bool := s.ptpOn p && !s.ptpTc p && (s.port1588 p).role == .slave

/-- Whether port p hears the grandmaster beside the slave port: the second port of a doubly attached clock on PRP (R34). -/
def State.ptpSecond (s : State) (p : Nat) : Bool := s.ptpOn p && !s.ptpTc p && (s.port1588 p).role == .passiveSlave

/-- PTP message kinds, as `Emit.ptp` names them. -/
def ptpSync : Nat := 0
def ptpFollowUp : Nat := 8
def ptpPdelayReq : Nat := 2
def ptpPdelayResp : Nat := 3
def ptpPdelayRespFu : Nat := 10

/-- domainNumber of the clock instance (R34, R53). -/
def State.ptpDomain (s : State) : Nat := s.rf Reg.IND_PTP_CFG 23 16

/-- Whether a message of a domain concerns the device: its one clock instance works in one domain (R34). -/
def State.ptpOurs (s : State) (dom : BitVec 8) : Bool := dom.toNat == s.ptpDomain

/-- The TCI of the 802.1Q tag of messages that port p sends: PCP and VID where VLAN_EN is 1 (R34, R53). -/
def State.ptpVlan (s : State) (p : Nat) : Option Nat :=
  if s.rb (Reg.IND_PTP_PORT p) 28 then some (s.rf (Reg.IND_PTP_PORT p) 27 25 * 8192 + s.rf (Reg.IND_PTP_PORT p) 23 12) else none

/-- A PTP message that leaves port p. -/
def State.sendPtp (s : State) (p kind seq time : Nat) (corr : Int) : State := s.emit (.ptp p kind s.ptpDomain (s.ptpVlan p) seq time corr)

/-- Whether port p transmits in one step (R34). -/
def State.ptpOneStep (s : State) (p : Nat) : Bool := s.rb (Reg.IND_PTP_PORT p) 29

/-- The ports that messages received on port p are forwarded to (R34, R35): every other transparent port from a transparent one, and the other port
of its HSR ring. -/
def State.ptpTargets (s : State) (p : Nat) : List Nat :=
  (List.range 16).filter fun q => q != p &&
    ((s.ptpTc p && s.ptpTc q) || (s.ptpOn p && s.onRing p && s.redTwin p == q && s.ptpOn q))

/-- A Sync forwarded (R34, R35): its correction advances by the residence time and the delay of the link it came over, in the Sync itself where it
is a one-step one and leaves in one step, else in a Follow_Up, which for a two-step Sync is the one that follows it. -/
def State.forwardSync (s : State) (p : Nat) (twoStep : Bool) (seq origin : Nat) (corr : Int) (residence : Nat) : State :=
  let add := corr + residence + (s.port1588 p).delay
  each (s.ptpTargets p) (fun x q =>
    if twoStep then x.sendPtp q ptpSync seq origin corr
    else if x.ptpOneStep q then x.sendPtp q ptpSync seq origin add
    else (x.sendPtp q ptpSync seq origin corr).sendPtp q ptpFollowUp seq origin add) s

/-- A Follow_Up forwarded with the residence time of its Sync. -/
def State.forwardFollowUp (s : State) (p seq origin : Nat) (corr : Int) (residence : Nat) : State :=
  each (s.ptpTargets p) (fun x q => x.sendPtp q ptpFollowUp seq origin (corr + residence + (s.port1588 p).delay)) s

/-- A Sync complete with its Follow_Up or embedded correction counts toward qualification (R30): consecutive ones have consecutive sequence numbers,
so one without its Follow_Up breaks the run. -/
def SourceState.sync (r : SourceState) (seq : BitVec 16) : SourceState :=
  let good := if r.seq = some (seq - 1) then r.good + 1 else 1
  { r with good := good, qual := r.qual || decide (4 ≤ good), seq := some seq }

/-- The offset of PTP from a Sync received at rxTs whose origin time and correction are known (R32, R34): device time less
(origin + correction + link delay). It counts toward qualification (R30). -/
def State.ptpMeasure (s : State) (p rxTs origin : Nat) (corr : Int) (seq : BitVec 16) : State :=
  let off : Int := ((rxTs : Int) - (origin + corr + (s.port1588 p).delay)) / (nsU : Int)
  ({ s with ind := { s.ind with ptp := { s.ind.ptp.sync seq with off := off } } }.showOffsets).judgeSources

/-- A Sync heard on a port that hears the grandmaster: when it was heard (R30). -/
def State.ptpHeard (s : State) : State := { s with ind := { s.ind with ptp := { s.ind.ptp with seen := true, last := s.up } } }

/-- PTP_SYNC_RX (R34, R35). -/
def execPtpSyncRx : Edge PtpIn → Bool → BitVec 16 → Nat → Int → Nat → State → Host.Outcome State Fault Refusal
  | ⟨⟨p, dom⟩, sub⟩, twoStep, seq, origin, corr, residence, s =>
    done s (
      if !s.ptpOurs dom then s
      else
        let s1 := s.forwardSync p.val twoStep seq.toNat origin corr residence
        if s.ptpSlave p.val then
          (if twoStep then
            s1.ptpHeard.setPort1588 p.val { s1.port1588 p.val with wait := some ⟨seq, s.portStamp p.val sub.val, corr⟩ }
          else s1.ptpHeard.ptpMeasure p.val (s.portStamp p.val sub.val) origin corr seq)
        else if s.ptpSecond p.val then s1.ptpHeard
        else s1)

/-- PTP_FOLLOW_UP_RX (R34). -/
def execPtpFollowUpRx : PtpIn → BitVec 16 → Nat → Int → Nat → State → Host.Outcome State Fault Refusal
  | ⟨p, dom⟩, seq, origin, corr, residence, s =>
    done s (
      if !s.ptpOurs dom then s
      else
        let s1 := s.forwardFollowUp p.val seq.toNat origin corr residence
        match (s.port1588 p.val).wait with
        | some w =>
          if s.ptpSlave p.val && w.seq == seq then
            (s1.setPort1588 p.val { s1.port1588 p.val with wait := none }).ptpMeasure p.val w.rxTs origin (w.corr + corr) seq
          else s1
        | none => s1)

/-- Lexicographic order of numbers. -/
def lexLt : List Nat → List Nat → Bool
  | a :: as, b :: bs => decide (a < b) || (a == b && lexLt as bs)
  | [], _ :: _ => true
  | _, [] => false

/-- The data set the BMCA compares, in its order (IEEE 1588, named by R34). -/
def announceKey (a : AnnounceData) : List Nat :=
  [a.priority1.toNat, a.clockClass.toNat, a.accuracy.toNat, a.variance.toNat, a.priority2.toNat, a.gmId.toNat,
   a.stepsRemoved.toNat, a.sender.toNat]

/-- The identity of port p of the device's clock: the clock identity and the port's number, which IEEE 1588 counts from one. -/
def ptpPortId (p : Nat) : BitVec 80 := Config.ptpClockId ++ BitVec.ofNat 16 (p + 1)

/-- The data set of the device itself, as port p would announce it. -/
def State.ptpOwn (s : State) (p : Nat) : AnnounceData :=
  { priority1 := BitVec.ofNat 8 (s.rf Reg.IND_PTP_CFG 15 8), clockClass := BitVec.ofNat 8 (fld Config.ptpOwnQuality 31 24)
    accuracy := BitVec.ofNat 8 (fld Config.ptpOwnQuality 23 16), variance := BitVec.ofNat 16 (fld Config.ptpOwnQuality 15 0)
    priority2 := BitVec.ofNat 8 (s.rf Reg.IND_PTP_CFG 7 0), gmId := Config.ptpClockId, stepsRemoved := 0, sender := ptpPortId p
    utcOffset := BitVec.ofNat 16 (s.rf Reg.IND_UTC_OFFSET 15 0), utcValid := s.rb Reg.IND_UTC_OFFSET 16
    leap59 := s.rb Reg.IND_UTC_OFFSET 17, leap61 := s.rb Reg.IND_UTC_OFFSET 18 }

/-- The key of the device's own data set. -/
def State.ptpOwnKey (s : State) : List Nat :=
  [s.rf Reg.IND_PTP_CFG 15 8, fld Config.ptpOwnQuality 31 24, fld Config.ptpOwnQuality 23 16, fld Config.ptpOwnQuality 15 0,
   s.rf Reg.IND_PTP_CFG 7 0, Config.ptpClockId.toNat, 0, 0]

/-- The better of two announced masters, each with the port it was heard on. -/
def betterMaster (a b : Nat × AnnounceData) : Nat × AnnounceData := if lexLt (announceKey b.2) (announceKey a.2) then b else a

/-- The best master heard on a port of the ordinary or boundary clock. -/
def State.ptpBest (s : State) : Option (Nat × AnnounceData) :=
  (List.range 16).foldl (fun acc p =>
    if s.ptpOn p && !s.ptpTc p then
      (match (s.port1588 p).best, acc with
       | some a, some m => some (betterMaster m (p, a))
       | some a, none => some (p, a)
       | none, m => m)
    else acc) none

/-- The role the BMCA gives port p when the grandmaster is heard on port g with key k (R34): slave on g; its second port where p and g are the pair
of a PRP group (a doubly attached clock); master where nothing as good is heard, on a boundary clock; else passive. -/
def State.ptpRoleOf (s : State) (g p : Nat) (k : List Nat) : PtpRole :=
  if p = g then .slave
  else if s.onPrp p && s.redTwin p == g then .passiveSlave
  else if s.rf Reg.IND_PTP_CFG 29 28 == 1 &&
      (match (s.port1588 p).best with | some a => lexLt k (announceKey a) | none => true) then .master
  else .passive

/-- The identity of the grandmaster as the two words of IND_PTP_GM_ID; EV034 where it changes, and the count of its Syncs begins afresh (R30). -/
def State.setGm (s : State) (id : BitVec 64) : State :=
  let s1 := (s.setReg (Reg.IND_PTP_GM_ID 0) (BitVec.ofNat 32 id.toNat)).setReg (Reg.IND_PTP_GM_ID 1) (BitVec.ofNat 32 (id.toNat / 4294967296))
  if s.reg (Reg.IND_PTP_GM_ID 0) = s1.reg (Reg.IND_PTP_GM_ID 0) ∧ s.reg (Reg.IND_PTP_GM_ID 1) = s1.reg (Reg.IND_PTP_GM_ID 1) then s1
  else { s1 with ind := { s1.ind with ptp := { s1.ind.ptp with good := 0, seq := none } } }.deliver 34

/-- The UTC offset and leap indicators of the selected grandmaster (R27); a leap second newly announced raises EV041. -/
def State.setUtc (s : State) (a : AnnounceData) : State :=
  let leap := (a.leap59 && !s.rb Reg.IND_UTC_OFFSET 17) || (a.leap61 && !s.rb Reg.IND_UTC_OFFSET 18)
  let s1 := s.setReg Reg.IND_UTC_OFFSET (BitVec.ofNat 32 (a.utcOffset.toNat + (if a.utcValid then 65536 else 0) +
    (if a.leap59 then 131072 else 0) + (if a.leap61 then 262144 else 0)))
  if leap then s1.deliver 41 else s1

/-- The BMCA (R34): grandmaster and port roles. With no better master heard, the device is grandmaster unless it is SLAVE_ONLY. -/
def State.bmca (s : State) : State :=
  match s.ptpBest with
  | some (g, a) =>
    if s.rb Reg.IND_PTP_CFG 27 || lexLt (announceKey a) s.ptpOwnKey then
      ((each (List.range 16) (fun x p => if x.ptpOn p && !x.ptpTc p then
          x.setPort1588 p { x.port1588 p with role := s.ptpRoleOf g p (announceKey a) } else x)
        { s with ind := { s.ind with gmSel := true } }).setGm a.gmId).setUtc a
    else (each (List.range 16) (fun x p => if x.ptpOn p && !x.ptpTc p then
        x.setPort1588 p { x.port1588 p with role := .master } else x) { s with ind := { s.ind with gmSel := false } }).setGm Config.ptpClockId
  | none =>
    if s.rb Reg.IND_PTP_CFG 27 then
      each (List.range 16) (fun x p => x.setPort1588 p { x.port1588 p with role := .passive })
        { s with ind := { s.ind with gmSel := false } }
    else (each (List.range 16) (fun x p => if x.ptpOn p && !x.ptpTc p then
        x.setPort1588 p { x.port1588 p with role := .master } else x) { s with ind := { s.ind with gmSel := false } }).setGm Config.ptpClockId

/-- An Announce that leaves port p with a data set; with the IEEE_C37_238 TLV under that profile (R34). -/
def State.sendAnnounce (s : State) (p seq time : Nat) (a : AnnounceData) : State :=
  s.emit (.announce p s.ptpDomain (s.ptpVlan p) seq time a (s.rb Reg.IND_PTP_CFG 30))

/-- PTP_ANNOUNCE_RX (R34): the BMCA takes the message on a port of the clock; a transparent port or an HSR ring passes it on. -/
def execPtpAnnounceRx : PtpIn → PtpAnnounce → State → Host.Outcome State Fault Refusal
  | ⟨p, dom⟩, ⟨seq, a⟩, s =>
    done s (
      if !s.ptpOurs dom then s
      else
        let s1 := each (s.ptpTargets p.val) (fun x q => x.sendAnnounce q seq.toNat x.time a) s
        if s.ptpOn p.val && !s.ptpTc p.val then
          ((s1.setPort1588 p.val { s1.port1588 p.val with best := some a, bestAt := s.up }).bmca).judgeSources
        else s1)

/-- PTP_PDELAY_REQ_RX (R34): answered by the peer-delay mechanism, with a Follow_Up where the port transmits in two steps. -/
def execPtpPdelayReqRx : Edge PtpIn → BitVec 16 → State → Host.Outcome State Fault Refusal
  | ⟨⟨p, dom⟩, sub⟩, seq, s =>
    done s (
      if s.ptpOn p.val && s.ptpOurs dom then
        let s1 := s.sendPtp p.val ptpPdelayResp seq.toNat (s.portStamp p.val sub.val) 0
        if s.ptpOneStep p.val then s1 else s1.sendPtp p.val ptpPdelayRespFu seq.toNat s.time 0
      else s)

/-- PTP_PDELAY_RESP_RX (R34): the link delay is half of the exchange less the partner's turnaround. -/
def execPtpPdelayRespRx : Edge PtpIn → BitVec 16 → Nat → State → Host.Outcome State Fault Refusal
  | ⟨⟨p, dom⟩, sub⟩, seq, turnaround, s =>
    done s (
      match (s.port1588 p.val).pdT1 with
      | some t1 =>
        if s.ptpOn p.val && s.ptpOurs dom && (s.port1588 p.val).pdSeq == seq then
          s.setPort1588 p.val { s.port1588 p.val with
            delay := (((s.portStamp p.val sub.val : Int) - t1) - turnaround) / 2
            pdT1 := none }
        else s
      | none => s)

/-- PTP_MANAGEMENT_RX (R34): counted and dropped. -/
def execPtpManagementRx (p : Fin 16) (s : State) : Host.Outcome State Fault Refusal := done s (s.inc (Reg.ETH_PTP_MGT_DROP p.val))

/-- Whether port p is a master port of the clock. -/
def State.ptpMaster (s : State) (p : Nat) : Bool := s.ptpOn p && !s.ptpTc p && (s.port1588 p).role == .master

/-- PTP_SYNC_TX (R34): one-step, or two-step with its Follow_Up. -/
def execPtpSyncTx (p : Fin 16) (s : State) : Host.Outcome State Fault Refusal :=
  done s (
    if s.ptpMaster p.val then
      let q := s.port1588 p.val
      let s1 := s.setPort1588 p.val { q with syncSeq := q.syncSeq + 1 }
      if s.ptpOneStep p.val then s1.sendPtp p.val ptpSync q.syncSeq.toNat s.time 0
      else (s1.sendPtp p.val ptpSync q.syncSeq.toNat 0 0).sendPtp p.val ptpFollowUp q.syncSeq.toNat s.time 0
    else s)

/-- The data set that a master port announces (R34): its own of a grandmaster, else that of the grandmaster one step further away. -/
def State.ptpAnnounced (s : State) (p : Nat) : AnnounceData :=
  match s.ptpBest with
  | some (_, a) => if s.ind.gmSel then { a with stepsRemoved := a.stepsRemoved + 1, sender := ptpPortId p } else s.ptpOwn p
  | none => s.ptpOwn p

/-- PTP_ANNOUNCE_TX (R34). -/
def execPtpAnnounceTx (p : Fin 16) (s : State) : Host.Outcome State Fault Refusal :=
  done s (
    if s.ptpMaster p.val then
      (s.setPort1588 p.val { s.port1588 p.val with annSeq := (s.port1588 p.val).annSeq + 1 }).sendAnnounce
        p.val (s.port1588 p.val).annSeq.toNat s.time (s.ptpAnnounced p.val)
    else s)

/-- PTP_PDELAY_REQ_TX (R34). -/
def execPtpPdelayReqTx (p : Fin 16) (s : State) : Host.Outcome State Fault Refusal :=
  done s (
    if s.ptpOn p.val then
      (s.setPort1588 p.val { s.port1588 p.val with pdSeq := (s.port1588 p.val).pdSeq + 1, pdT1 := some s.time }).sendPtp
        p.val ptpPdelayReq ((s.port1588 p.val).pdSeq + 1).toNat s.time 0
    else s)

/-- Loss of PTP as a source (R30): EV039 where it was one. -/
def State.losePtp (s : State) : State :=
  let x := { s with ind := { s.ind with ptp := { s.ind.ptp with seen := false, good := 0, qual := false, seq := none } } }
  (if s.ind.ptp.qual then x.deliver 39 else x).judgeSources

/-- The sync interval of the slave port (R30, SYNC_LOG), in units of `up`; of port 0 where there is no slave port. -/
def State.syncInterval (s : State) : Nat :=
  let p := ((List.range 16).find? fun p => s.ptpSlave p).getD 0
  let l := s.rf (Reg.IND_PTP_PORT p) 11 8
  if l < 8 then secU * 2 ^ l else secU / 2 ^ (16 - l)

/-- PTP_SYNC_TIMEOUT (R30): no Sync for 3 Sync intervals. -/
def execPtpSyncTimeout (s : State) : Host.Outcome State Fault Refusal :=
  done s (if s.ind.ptp.seen && s.ind.ptp.last + 3 * s.syncInterval ≤ s.up then s.losePtp else s)

/-- The ports of the clock whose best Announce is older than the announce receipt timeout. -/
def State.annExpired (s : State) : List Nat :=
  (List.range 16).filter fun p => s.ptpOn p && !s.ptpTc p && (s.port1588 p).best.isSome &&
    (s.port1588 p).bestAt + Config.announceTimeout * nsU ≤ s.up

/-- PTP_ANNOUNCE_TIMEOUT (R30, R34): what is no longer announced is forgotten and the BMCA judges what is left; the slave port's expiry loses PTP. -/
def execPtpAnnounceTimeout (s : State) : Host.Outcome State Fault Refusal :=
  done s (
    let ps := s.annExpired
    if ps.isEmpty then s
    else
      let s1 := (each ps (fun x p => x.setPort1588 p { x.port1588 p with best := none }) s).bmca
      if ps.any s.ptpSlave then s1.losePtp else s1.judgeSources)

/-! ## Time inputs -/

/-- DELAY of a time input in ns (R36). -/
def State.tinDelay (s : State) (n : Nat) : Int := sgn 16 (s.rf (Reg.IND_TIN_CFG n) 15 0)

/-- Loss of time input n: EV037 or EV038 (R30). What it measured last stays shown. -/
def State.loseTin (s : State) (n : Nat) : State :=
  let x := s.setTinSrc n { off := (s.tinSrc n).off }
  if (s.tinSrc n).qual then (x.deliver (37 + n)).judgeSources else x

/-- The 10 MHz of input n judged over the second that a pulse of the other input ends (R30). -/
def State.judgeTen (s : State) (n cycles : Nat) : State :=
  if s.rb (Reg.IND_TIN_CFG n) 31 && s.tinSig n == 2 then
    let ok : Bool := 9999900 ≤ cycles && cycles ≤ 10000100
    let s1 : State := if n = 0 then { s with ind := { s.ind with ten0 := ok } } else { s with ind := { s.ind with ten1 := ok } }
    if s.tenOk n && !ok then s1.deliver (37 + n) else s1
  else s

/-- The distance of a device time from the nearest second, in ns: positive where it lies past the second. -/
def secOffset (t : Nat) : Int := (if 2 * (t % secU) ≤ secU then ((t % secU : Nat) : Int) else ((t % secU : Nat) : Int) - (secU : Int)) / (nsU : Int)

/-- A 1PPS pulse `at_` (`up`) counts toward qualification (R30): 1 s within 1 us of the one before, both taken on the unsteered count `up` (DESIGN
CHOICE, log 141). A pulse at another distance breaks the run; a qualified input is lost only where no pulse comes (R30). -/
def SourceState.pulse (r : SourceState) (at_ : Nat) : SourceState :=
  let good := if r.seen && r.last + secU ≤ at_ + usU && at_ ≤ r.last + secU + usU then r.good + 1 else 0
  { r with seen := true, good := good, qual := r.qual || decide (4 ≤ good), last := at_ }

/-- TIN_EDGE_CAPTURE (R30, R36): a 1PPS edge, captured at 1 ns less DELAY; its offset is its distance from the nearest second. -/
def execTinEdgeCapture : Edge (Fin 2) → Nat → State → Host.Outcome State Fault Refusal
  | ⟨n, sub⟩, cycles, s =>
    done s (
      if s.rb (Reg.IND_TIN_CFG n.val) 31 && s.tinSig n.val == 0 then
        let off := secOffset (lessNs (s.stampNs sub.val) (s.tinDelay n.val))
        (((s.setTinSrc n.val { (s.tinSrc n.val).pulse (s.up + sub.val * nsU) with off := off }).showOffsets).judgeTen (1 - n.val) cycles).judgeSources
      else s)

/-- PPS_INPUT_TIMEOUT (R30): no pulse for 1.5 s. -/
def execPpsInputTimeout (n : Fin 2) (s : State) : Host.Outcome State Fault Refusal :=
  done s (if (s.tinSrc n.val).seen && s.tinSig n.val == 0 && (s.tinSrc n.val).last + 3 * secU / 2 ≤ s.up then s.loseTin n.val else s)

/-- Days from 1970-01-01 to the first day of a year. -/
def yearDays (y : Nat) : Nat := 365 * (y - 1970) + (y - 1969) / 4 - (y - 1901) / 100 + (y - 1601) / 400

/-- The time of an IRIG-B frame in whole TAI seconds (R27, R36): UTC plus the local offset of the extension where it is enabled; the year
from YEAR for B000 to B003. -/
def State.irigSec (s : State) (n : Nat) (f : IrigFrame) : Int :=
  let year := 2000 + (if s.rf (Reg.IND_TIN_CFG n) 28 26 ≤ 3 then s.rf (Reg.IND_TIN_CFG n) 24 18 else f.year.toNat)
  ((((yearDays year + f.day.toNat - 1) * 24 + f.hour.val) * 60 + f.min.val) * 60 + f.sec.val : Nat) -
    (if s.rb (Reg.IND_TIN_CFG n) 25 then f.localOff * 60 else 0) + (s.rf Reg.IND_UTC_OFFSET 15 0 : Int)

/-- A missing or invalid IRIG-B frame (R30): the second in a row loses the input. -/
def State.irigBad (s : State) (n : Nat) : State :=
  if 2 ≤ (s.tinSrc n).missed + 1 then s.loseTin n
  else s.setTinSrc n { s.tinSrc n with good := 0, missed := (s.tinSrc n).missed + 1 }

/-- IRIG_FRAME_RX (R30, R36): the frame's time is that of its on-time mark, one second before the frame is complete. -/
def execIrigFrameRx : Edge (Fin 2) → IrigFrame → State → Host.Outcome State Fault Refusal
  | ⟨n, sub⟩, f, s =>
    done s (
      if s.rb (Reg.IND_TIN_CFG n.val) 31 && s.tinSig n.val == 1 then
        (if f.valid then
          let r := s.tinSrc n.val
          let sec := s.irigSec n.val f
          let good := if r.good ≠ 0 ∧ sec = (r.lastSec : Int) + 1 then r.good + 1 else 1
          let off : Int := (((s.stampNs sub.val : Nat) : Int) / (nsU : Int) - s.tinDelay n.val) - (sec + 1) * 1000000000
          ((s.setTinSrc n.val { r with
              seen := true, good := good, qual := r.qual || decide (2 ≤ good), last := s.up, lastSec := sec.toNat, missed := 0
              off := off }).showOffsets).judgeSources
        else s.irigBad n.val)
      else s)

/-- IRIG_FRAME_MISSING (R30). -/
def execIrigFrameMissing (n : Fin 2) (s : State) : Host.Outcome State Fault Refusal :=
  done s (if s.rb (Reg.IND_TIN_CFG n.val) 31 && s.tinSig n.val == 1 then s.irigBad n.val else s)

/-! ## Holdover, PLL, outputs -/

/-- HOLDOVER_EXPIRE (R33): HOLDOVER has lasted HOLD_MAX seconds. -/
def execHoldoverExpire (s : State) : Host.Outcome State Fault Refusal :=
  done s (
    if s.ind.st == .holdover && !s.ind.holdExp && s.ind.holdAt + s.rf Reg.IND_SRC_CFG 15 0 * secU ≤ s.up then s.expireHold else s)

/-- Whether a second has passed since the always-on counter was last copied (R38). -/
def State.copyDue (s : State) : Bool := match s.pwr.hold with | some (_, u) => u + secU ≤ s.up | none => true

/-- HOLDOVER_COUNTER_COPY (R38): once per second in LOCKED or HOLDOVER. -/
def execHoldoverCounterCopy (s : State) : Host.Outcome State Fault Refusal :=
  done s (
    if (s.ind.st == .locked || s.ind.st == .holdover) && s.copyDue then { s with pwr := { s.pwr with hold := some (s.time, s.up) } } else s)

/-- TIME_BASE_PLL_LOCK_LOSS (R33): ClockFailure becomes 1. -/
def execTimeBasePllLockLoss (s : State) : Host.Outcome State Fault Refusal :=
  .next { s with ind := { s.ind with pllLock := false } }

/-- TIME_BASE_PLL_RELOCK (R33): ClockFailure returns to 0. -/
def execTimeBasePllRelock (s : State) : Host.Outcome State Fault Refusal :=
  .next { s with ind := { s.ind with pllLock := true } }

/-- The device time of the boundary that the tick just passed brought to PPS output n (R37): a second plus its offset (MODE 1, 2), or a cycle boundary
of its angle clock at the clock's rate (MODE 3). -/
def State.ppsEdge (s : State) (n : Nat) : Option Nat :=
  if s.rf (Reg.IND_PPS_CFG n) 31 30 = 3 then
    (let c := s.aclk (s.rf (Reg.IND_PPS_CFG n) 29 26)
     if c.val % cycU < c.perTick then some (s.time - c.val % cycU * (4 * nsU) / c.perTick) else none)
  else
    (let d := lessNs s.time (wordInt (s.reg (Reg.IND_PPS_OFF n))) % secU
     if d < 4 * nsU then some (s.time - d) else none)

/-- Whether a PPS output may pulse (R37): MODE 1; MODE 2 while LOCKED; MODE 3 while its clock runs. -/
def State.ppsAllowed (s : State) (n : Nat) : Bool :=
  match s.rf (Reg.IND_PPS_CFG n) 31 30 with
  | 1 => true
  | 2 => s.ind.st == .locked
  | 3 => (s.aclk (s.rf (Reg.IND_PPS_CFG n) 29 26)).running
  | _ => false

/-- PPS_OUT_PULSE (R37): one pulse of WIDTH us at each boundary, its edges at the device times that they stand for. -/
def execPpsOutPulse (n : Fin 2) (s : State) : Host.Outcome State Fault Refusal :=
  done s (
    match s.ppsEdge n.val with
    | some r =>
      if s.ppsAllowed n.val && s.pps n.val != r + 1 then
        (s.setPps n.val (r + 1)).emit (.pulse n.val r (r + s.rf (Reg.IND_PPS_CFG n.val) 18 0 * usU))
      else s
    | none => s)

/-! ## Angle clocks -/

/-- Whether a reference is qualified for the cycle that has just ended (R43). -/
def State.refQualified (s : State) (n : Nat) (bad : Bool) (e : RefEstimate) : Bool :=
  !bad && s.rf (Reg.IND_ACLK_LIM n) 15 0 ≤ e.amp.toNat && 40 * hzU ≤ e.freq.toNat && e.freq.toNat ≤ 70 * hzU

/-- Whether the estimate of a cycle loses a reference by itself (R43): fundamental below VMIN, or frequency outside 40-70 Hz. -/
def State.refLost (s : State) (n : Nat) (e : RefEstimate) : Bool :=
  e.amp.toNat < s.rf (Reg.IND_ACLK_LIM n) 15 0 || e.freq.toNat < 40 * hzU || 70 * hzU < e.freq.toNat

/-- The phase error of clock n at a zero crossing of its reference (R43): the clock's fraction there, signed, in 2^-32 cycle; its magnitude. -/
def State.phaseErr (s : State) (n : Nat) : Int := sgn 32 ((s.aclk n).value % 4294967296)
def State.phaseMag (s : State) (n : Nat) : Nat := (s.phaseErr n).natAbs

/-- The cycle number a clock enters its run with when its instant is k cycles of nominal frequency after time zero (R44, R431): with
PAIR_ALIGN, the partner's value carried forward to now at its tracked frequency, rounded to the nearest cycle, where a heartbeat with
that clock arrived within the last 1 ms. -/
def State.startCycle (s : State) (n k : Nat) : Nat × Bool :=
  if s.rb (Reg.IND_ACLK_CFG n) 21 then
    (match s.pai.lastHb with
     | some (hb, at_) =>
       (match hb.clocks.find? fun c => c.clk.val == n with
        | some c =>
          if s.pairUp && s.up ≤ at_ + msU then
            let dt : Int := (s.time : Int) + wordInt (s.reg Reg.PAI_TIME_OFF) * (nsU : Int) - (hb.txTime : Int)
            let v : Int := (c.val : Int) + (c.freq : Int) * dt * 256 / ((secU : Nat) : Int)
            (((v + 2147483648) / 4294967296).toNat % 4294967296, false)
          else (k % 4294967296, true)
        | none => (k % 4294967296, true))
     | none => (k % 4294967296, true))
  else (k % 4294967296, false)

/-- A clock that starts its run (R44): its value, state and rate; evaluation aims at the point it stands on. `failed` where it was to be
aligned with the partner and could not be (R431). -/
def State.startClock (s : State) (n cyc extra freq : Nat) (x : AclkState) (failed : Bool) : State :=
  let c := { s.aclk n with
    st := x, val := cyc * cycU + extra, freq := freq, corr := 0, pulling := false, src2 := false, phaseBad := 0, qualPri := 0, qualSec := 0
    hist := [] }
  let c := { c.mark s.time with nextC := cyc, nextK := 0 }
  let s1 := ((s.setAclk n c).aclkEvent n 0 true).runStreams n
  if failed then s1.sqc Reg.PAI_STATUS 4 308 else s1

/-- The entry of clock n to HELD (R43): its rate is the tracked frequency without correction; LOSS is set. -/
def State.holdClock (s : State) (n : Nat) : State :=
  let c := (s.aclk n).mark s.time
  (s.setAclk n { c with
    st := .held, corr := 0, pulling := false, src2 := false, heldFrom := c.val, holdShown := false, phaseBad := 0, qualPri := 0, qualSec := 0 }).aclkEvent
    n aclkLoss true

/-- Loss of the reference that clock n follows (R43): to a qualified secondary, else to HELD. -/
def State.loseRef (s : State) (n : Nat) : State :=
  let c := s.aclk n
  if !c.src2 && s.rb (Reg.IND_ACLK_SRC2 n) 31 && 1 ≤ c.qualSec then
    (s.setAclk n { c with src2 := true, pulling := true, phaseBad := 0, qualPri := 0 }).aclkEvent n aclkLoss false
  else s.holdClock n

/-- The frequency a LOCKED clock takes from an estimate (R41): its own change limited to 10 Hz/s over the cycle, and whether it was. -/
def slewed (old new : Nat) : Nat × Bool :=
  let lim := 10 * hzU * hzU / (max old 1)
  if old + lim < new then (old + lim, true) else if new + lim < old then (old - lim, true) else (new, false)

/-- The pull-in of a LOCKED clock (R42): a correction of at most 0.5 Hz against its phase error, until that is below 0.05 degrees. How large it is in
each cycle the spec does not say: a free value. -/
def State.pullClock (s : State) (n : Nat) : State :=
  let c := s.aclk n
  if c.pulling && 596524 ≤ s.phaseMag n then
    let r := s.freeN (hzU / 2)
    let m : Int := (r.1 : Int) + 1
    r.2.setAclk n { c with corr := if 0 < s.phaseErr n then -m else m }
  else s.setAclk n { c with pulling := false, corr := 0 }

/-- The rate of change that IND_ACLK_ROCOF shows for a change of frequency over one cycle. -/
def rocofOf (old new : Nat) : Int := ((new : Int) - (old : Int)) * (new : Int) / 4294967296

/-- A cycle of a LOCKED clock whose reference is not lost (R41, R42). -/
def State.followRef (s : State) (n : Nat) (e : RefEstimate) : State :=
  let c := (s.aclk n).mark s.time
  let f := slewed c.freq e.freq.toNat
  let c' := { c with freq := f.1, pulling := c.pulling || decide (596524 ≤ s.phaseMag n) }
  (((s.setAclk n c').setReg (Reg.IND_ACLK_ROCOF n) (wordOfInt (rocofOf c.freq f.1))).aclkEvent n (if f.2 then aclkSlewLimit else 0) false).pullClock n

/-- A HELD clock whose reference is qualified again (R43): LOCKED on its primary or secondary, its frequency taken up within 10 Hz/s (R41), pulling
in. -/
def State.relock (s : State) (n : Nat) (e : RefEstimate) (second : Bool) : State :=
  let c := (s.aclk n).mark s.time
  let f := slewed c.freq e.freq.toNat
  (s.setAclk n { c with st := .locked, freq := f.1, pulling := true, src2 := second, phaseBad := 0 }).aclkEvent
    n (if f.2 then aclkReacq + aclkSlewLimit else aclkReacq) true

/-- The runs of qualified cycles after a cycle of the primary (and the secondary) has ended; flags of invalid samples start afresh. Of the four
estimates of SEEKING each is compared with the one before it and not with all of the four (DEDUCED, log 144). -/
def State.countCycle (s : State) (n : Nat) (pri sec : RefEstimate) : State :=
  let c := s.aclk n
  let qp := s.refQualified n c.cycBadPri pri
  let near := c.qualPri == 0 || c.st != .seeking || 10 * ((pri.freq.toNat : Int) - (c.est : Int)).natAbs < hzU
  let q2 := s.rb (Reg.IND_ACLK_SRC2 n) 31 && s.refQualified n c.cycBadSec sec
  s.setAclk n { c with
    qualPri := if qp then (if near then c.qualPri + 1 else 1) else 0
    qualSec := if q2 then c.qualSec + 1 else 0
    est := pri.freq.toNat
    cycBadPri := false
    cycBadSec := false }

/-- ACLK_ZERO_CROSSING (R43): the judgement of the cycle just ended, at the positive-going zero crossing of the reference. -/
def execAclkZeroCrossing (n : Fin 16) (pri sec : RefEstimate) (s : State) : Host.Outcome State Fault Refusal :=
  done s (
    let ready := 4 ≤ (s.aclk n.val).qualPri
    let s1 := s.countCycle n.val pri sec
    let c := s1.aclk n.val
    match c.st with
    | .seeking =>
      if s.rf (Reg.IND_ACLK_CFG n.val) 30 28 < 2 && ready && 5 ≤ c.qualPri then
        let k := (2 * s.time * s.aclkNom n.val + secU) / (2 * secU)
        let a := s.startCycle n.val k
        s1.startClock n.val a.1 0 pri.freq.toNat .locked a.2
      else s1
    | .locked =>
      let e := if c.src2 then sec else pri
      let phaseBad := if 357913941 < s.phaseMag n.val then c.phaseBad + 1 else 0
      let s2 := s1.setAclk n.val { c with phaseBad := phaseBad }
      if s1.refLost n.val e || 2 ≤ phaseBad then s2.loseRef n.val
      else if c.src2 && 4 ≤ c.qualPri then
        s2.setAclk n.val { s2.aclk n.val with src2 := false, pulling := true, phaseBad := 0 }
      else s2.followRef n.val e
    | .held =>
      if 4 ≤ c.qualPri then s1.relock n.val pri false
      else if 4 ≤ c.qualSec then s1.relock n.val sec true
      else s1
    | .fixed => s1
    | .disabled => s)

/-- ACLK_SAMPLE_LOSS (R43): the eighth consecutive invalid sample of the reference a LOCKED clock follows. -/
def execAclkSampleLoss (n : Fin 16) (s : State) : Host.Outcome State Fault Refusal :=
  done s (
    if (s.aclk n.val).st == .locked && 8 ≤ (if (s.aclk n.val).src2 then (s.aclk n.val).badSec else (s.aclk n.val).badPri) then s.loseRef n.val
    else s)

/-- ACLK_FIXED_START (R44): a MODE 2 clock in SEEKING starts at the first instant at which t × f_nom is an integer, in the first tick at
or after it, with the value that instant's value reaches by that tick. -/
def execAclkFixedStart (n : Fin 16) (s : State) : Host.Outcome State Fault Refusal :=
  done s (
    let f := s.aclkNom n.val
    if (s.aclk n.val).st == .seeking && s.rf (Reg.IND_ACLK_CFG n.val) 30 28 == 2 && s.time * f % secU < 4 * nsU * f then
      let a := s.startCycle n.val (s.time * f / secU)
      s.startClock n.val a.1 (s.time * f % secU * (cycU / secU)) (f * hzU) .fixed a.2
    else s)

/-- ACLK_HOLD_EXPIRE (R43): HOLD_MAX cycles spent in HELD; the clock keeps running. -/
def execAclkHoldExpire (n : Fin 16) (s : State) : Host.Outcome State Fault Refusal :=
  done s (
    let m := s.rf (Reg.IND_ACLK_LIM n.val) 31 16
    if (s.aclk n.val).st == .held && m != 0 && !(s.aclk n.val).holdShown && m * cycU + (s.aclk n.val).heldFrom ≤ (s.aclk n.val).val then
      (s.setAclk n.val { s.aclk n.val with holdShown := true }).aclkEvent n.val aclkHoldExpired false
    else s)

end Sys2Proof.Machine
end

