-- ==== Sys2Proof/Machine/Debug.lean ====
section
/-!
DEFINITION. Performance-counter control (R459) and debug (R464-R470): halts and breakpoints, the context window, memory access, the proof of the
JTAG path, the TAP instructions that move no register, and the end of a grant (R395, R469). Reads and writes of registers by JTAG stand with the
register interface (Machine/Mgt.lean).
-/

namespace Sys2Proof.Machine

/-! ## Counter control -/

/-- The registers of every performance counter, LO then HI (R459). -/
def pmuValueRegs : List Nat :=
  (List.range 64).flatMap (fun n => [Reg.PMU_CTR_LO n, Reg.PMU_CTR_HI n]) ++
  (List.range 6).flatMap (fun c =>
    (List.range 16).flatMap (fun n => [Reg.CLU_PMU_CCTR_LO c n, Reg.CLU_PMU_CCTR_HI c n]) ++
    (List.range 16).flatMap (fun k => (List.range 4).flatMap fun n => [Reg.CLU_PMU_CTR_LO c k n, Reg.CLU_PMU_CTR_HI c k n]))

/-- Every counter zeroed (R459). -/
def State.pmuZero (s : State) : State := { s with regs := s.regs.filter fun p => !pmuValueRegs.contains p.1 }

/-- A write of PMU_CTRL (R459). -/
def State.pmuCtrl (s : State) (val : Word) : State :=
  let s1 := s.setReg Reg.PMU_CTRL (BitVec.ofNat 32 (fld val 0 0))
  if tbit val 1 then s1.pmuZero else s1

/-- PMU_FREEZE (R459). -/
def execPmuFreeze (who : Accessor) (val : Word) (s : State) : Host.Outcome State Fault Refusal :=
  done s (s.writeCmd who Reg.PMU_CTRL fun x => x.pmuCtrl (putBit val 0 true))

/-- PMU_UNFREEZE (R459). -/
def execPmuUnfreeze (who : Accessor) (val : Word) (s : State) : Host.Outcome State Fault Refusal :=
  done s (s.writeCmd who Reg.PMU_CTRL fun x => x.pmuCtrl (putBit val 0 false))

/-- PMU_CLEAR (R459). -/
def execPmuClear (who : Accessor) (val : Word) (s : State) : Host.Outcome State Fault Refusal :=
  done s (s.writeCmd who Reg.PMU_CTRL fun x => x.pmuCtrl (putBit val 1 true))

/-! ## Halt, resume, step -/

/-- Whether thread k can be halted: it is at a boundary, and neither off, halted nor faulted (R214). -/
def State.canHalt (s : State) (k : Nat) : Bool := s.thrEn k && ((s.thr k).st == .ready || (s.thr k).st == .waiting || (s.thr k).st == .idle)

/-- A halted thread goes on (R214, R215, R468), past a breakpoint it stands at. A wait that was granted meanwhile completes. -/
def State.goOn (s : State) (k : Nat) (step : Bool) : State :=
  let s1 := (s.updThr k fun t => { t with st := t.haltedIn, stepping := step, bpSkip := true }).unholdChans (s.agentOf k)
  let s2 := match (s.thr k).task with
    | some i => s1.updTask (1024 * (k / 128) + i) fun t => { t with segStart := s.up }
    | none => s1
  if (s.thr k).haltedIn = .waiting then s2.resumeWait (s.agentOf k) else s2

/-! ## Contexts -/

/-- The 41 words of a context (R470). -/
def Ctx.words (x : Ctx) : List Word :=
  let half := fun (v : Vector (BitVec 16) 4) => v.toList.map fun h => h.setWidth 32
  [x.pc.setWidth 32, x.acc.setWidth 32, BitVec.ofNat 32 (x.acc.toNat / two32), x.ix0, x.ix1] ++ x.g.toList ++ half x.ls ++ half x.le ++
    half x.lc ++ x.c.toList.flatMap fun r => [r.re, r.im]

/-- A context with its 41 words written (R470). -/
def Ctx.ofWords (x : Ctx) (ws : List Word) : Ctx :=
  let half := fun (b : Nat) => Vector.ofFn (n := 4) fun i => (wordAt ws (b + i.val)).setWidth 16
  { x with
    pc := (wordAt ws 0).setWidth 16
    acc := BitVec.ofNat 40 ((wordAt ws 1).toNat + fld (wordAt ws 2) 7 0 * two32)
    ix0 := wordAt ws 3
    ix1 := wordAt ws 4
    g := Vector.ofFn fun i => wordAt ws (5 + i.val)
    ls := half 13
    le := half 17
    lc := half 21
    c := Vector.ofFn fun i => { re := wordAt ws (25 + 2 * i.val), im := wordAt ws (26 + 2 * i.val) } }

/-- The context words in DBG_CTX_DATA. -/
def State.dbgCtxData (s : State) : List Word := (List.range 41).map fun w => s.reg (Reg.DBG_CTX_DATA w)

/-- A debug action that is not permitted (R464). -/
def State.dbgDeny (s : State) : State := s.inc Reg.DBG_DENIED

/-- A write of DBG_CTX_SEL (R470): the context of a HALTED thread, its coprocessor commands completed first. -/
def State.dbgCtxSel (s : State) (who : Accessor) (val : Word) : State :=
  let s0 := s.setReg Reg.DBG_CTX_SEL (BitVec.ofNat 32 (fld val 10 8 * 256 + fld val 6 0))
  let k := 128 * fld val 10 8 + fld val 6 0
  if 6 ≤ fld val 10 8 then s0
  else if !s.dbgAllowed who (s.thrPart k) false then s0.dbgDeny
  else if (s.thr k).st ≠ .halted then s0
  else
    let s1 := s0.cpxDrain k
    each (List.range 41) (fun x w => x.setReg (Reg.DBG_CTX_DATA w) (wordAt (s1.thr k).ctx.words w)) s1

/-! ## Memory -/

/-- The partition whose SRAM region holds byte address a of cluster c (R283). -/
def State.sramPart (s : State) (c a : Nat) : Option Nat := (List.range 16).find? fun p => s.sramRegion c p a 4

/-- The little-endian word at a byte address of cluster SRAM. -/
def State.sramWord (s : State) (c a : Nat) : Word :=
  BitVec.ofNat 32 (leNat ((List.range 4).map fun i => s.clu.sram.gd 0 (2097152 * c + a + i)))

/-- The space, address and thread of a debug memory access (R470): 0 cluster SRAM by byte address, 1 program memory by tile [17:16] and word
[15:0], 2 the direct page of a HALTED thread by word, 3 a saved task context by task [25:16] and word [15:0] (its 41 words, then its saved
direct-page words). The partition that must have granted it, or none where no resource has that address. -/
def State.dbgMemPart (s : State) (c k space a : Nat) : Option Nat :=
  match space with
  | 0 => if a % 4 = 0 ∧ a < 2097152 then s.sramPart c a else none
  | 1 => if a < 262144 then some (s.tilePart (4 * c + a / 65536)) else none
  | 2 => if a < 512 then some (s.thrPart k) else none
  | _ => if a / 65536 < 1024 ∧ a % 65536 < 41 + 512 then some (s.taskPart (1024 * c + a / 65536)) else none

/-- The word a debug read returns. -/
def State.dbgRead (s : State) (c k space a : Nat) : Word :=
  match space with
  | 0 => s.sramWord c a
  | 1 => (s.pmemW (65536 * (4 * c + a / 65536) + a % 65536)).setWidth 32
  | 2 => (s.thr k).dp.gd 0 a
  | _ =>
    let t := s.task (1024 * c + a / 65536)
    if a % 65536 < 41 then wordAt t.ctx.words (a % 65536) else t.dpSaved.gd 0 (a % 65536 - 41)

/-- A program word written (R218, R221): what a fetch stage already holds stays. -/
def State.pmemSet (s : State) (j a : Nat) (v : PWord) : State :=
  let s1 := s.setPmemW (65536 * j + a) v
  { s1 with clu := { s1.clu with pmemBad := s1.clu.pmemBad.sd false (65536 * j + a) false } }

/-- Whether a program word lies in region v of a tile. -/
def State.tileRegion (s : State) (j v a : Nat) : Bool :=
  let r := s.reg (Reg.CLU_PMEM_RGN (j / 4) (j % 4) v)
  fld r 15 0 ≤ a && a ≤ fld r 31 16

/-- Whether a debug write is within what CONTROL permits (R466): SRAM regions, the direct page, program memory only in W regions. -/
def State.dbgWritable (s : State) (c space a : Nat) : Bool :=
  match space with
  | 1 => s.tileRegion (4 * c + a / 65536) 3 (a % 65536) && !s.tileRegion (4 * c + a / 65536) 2 (a % 65536)
  | 3 => false
  | _ => true

/-- A debug write. -/
def State.dbgStore (s : State) (c k space a : Nat) (v : Word) : State :=
  match space with
  | 0 => s.sramWrite { cl := c, addr := a, bytes := leBytes 4 v.toNat }
  | 1 => s.pmemSet (4 * c + a / 65536) (a % 65536) (v.setWidth 14)
  | _ => s.updThr k fun t => { t with dp := t.dp.sd 0 a v }

/-! ## The debug command -/

/-- A result in DBG_CMD_STATUS, with the command's fields stored. -/
def State.dbgResult (s : State) (val : Word) (res : Nat) : State :=
  (s.setReg Reg.DBG_CMD (val &&& 0x777F0003#32)).setReg Reg.DBG_CMD_STATUS (BitVec.ofNat 32 res)

/-- A command of DBG_CMD (R466-R470): BAD_INDEX for a reserved OP or what does not exist, DENIED without the grant, STATE_REJECT where the
thread's state does not allow it. -/
def State.dbgRun (s : State) (who : Accessor) (val : Word) : State :=
  let c := fld val 26 24
  let k := 128 * c + fld val 22 16
  let op := fld val 30 28
  let p := s.thrPart k
  let act := fun (ok : Bool) (f : State → State) =>
    if !s.dbgAllowed who p true then s.dbgDeny.dbgResult val 5 else if ok then (f s).dbgResult val 0 else s.dbgResult val 7
  let mem := fun (write : Bool) =>
    let space := fld val 1 0
    let a := (s.reg Reg.DBG_MEM_ADDR).toNat
    match s.dbgMemPart c k space a with
    | none => s.dbgResult val 6
    | some q =>
      if !s.dbgAllowed who q write || (write && !s.dbgWritable c space a) then s.dbgDeny.dbgResult val 5
      else if space = 2 ∧ (s.thr k).st ≠ .halted then s.dbgResult val 7
      else if write then (s.dbgStore c k space a (s.reg Reg.DBG_MEM_DATA)).dbgResult val 0
      else (s.setReg Reg.DBG_MEM_DATA (s.dbgRead c k space a)).dbgResult val 0
  if 6 ≤ c then s.dbgResult val 6
  else
    match op with
    | 1 => act (s.canHalt k) fun x => x.haltThread k 2 0
    | 2 => act ((s.thr k).st == .halted) fun x => x.goOn k false
    | 3 => act ((s.thr k).st == .halted) fun x => x.goOn k true
    | 4 => act ((s.thr k).st == .halted) fun x =>
        ((x.cpxDrain k).updThr k fun t => { t with ctx := t.ctx.ofWords x.dbgCtxData }).refetch k
    | 5 => mem false
    | 6 => mem true
    | _ => s.dbgResult val 6

/-- A write of DBG_CMD with the operation named by the row. -/
def State.dbgWrite (s : State) (who : Accessor) (op : Nat) (val : Word) : State :=
  s.writeCmd who Reg.DBG_CMD fun x => x.dbgRun who (putFld val 31 28 (8 + op))

/-- DBG_HALT (R214, R468). -/
def execDbgHalt (who : Accessor) (val : Word) (s : State) : Host.Outcome State Fault Refusal := done s (s.dbgWrite who 1 val)

/-- DBG_RESUME (R468). -/
def execDbgResume (who : Accessor) (val : Word) (s : State) : Host.Outcome State Fault Refusal := done s (s.dbgWrite who 2 val)

/-- DBG_STEP (R468): one instruction, after which the thread halts again (State.stepHalt). -/
def execDbgStep (who : Accessor) (val : Word) (s : State) : Host.Outcome State Fault Refusal := done s (s.dbgWrite who 3 val)

/-- DBG_WRITE_CTX (R470). -/
def execDbgWriteCtx (who : Accessor) (val : Word) (s : State) : Host.Outcome State Fault Refusal := done s (s.dbgWrite who 4 val)

/-- DBG_MEM_RD (R470). -/
def execDbgMemRd (who : Accessor) (val : Word) (s : State) : Host.Outcome State Fault Refusal := done s (s.dbgWrite who 5 val)

/-- DBG_MEM_WR (R470). -/
def execDbgMemWr (who : Accessor) (val : Word) (s : State) : Host.Outcome State Fault Refusal := done s (s.dbgWrite who 6 val)

/-- DBG_CTX_SELECT (R470). -/
def execDbgCtxSelect (who : Accessor) (val : Word) (s : State) : Host.Outcome State Fault Refusal :=
  done s (s.writeCmd who Reg.DBG_CTX_SEL fun x => x.dbgCtxSel who val)

/-- A write of CLU_DBG_BP or CLU_DBG_BP_THR (R466, R467): accepted only under CONTROL of the partition of the core. -/
def State.bpWrite (s : State) (who : Accessor) (c k off : Nat) (val : Word) : State :=
  if s.dbgAllowed who (s.thrPart (128 * c + 8 * k)) true then s.setReg off val else s.dbgDeny

/-- BREAKPOINT_HIT (R467): the thread halts before the instruction at its PC; with CORE_HALT the core's other enabled threads halt too. -/
def execBreakpointHit (t : ThreadId) (s : State) : Host.Outcome State Fault Refusal :=
  done s (
    let k := tidNat t
    match s.bpHit k with
    | some b =>
      let s1 := if s.rb (Reg.CLU_DBG_BP t.cl.val t.core.val b) 28 then
          each ((List.range 8).filter (· != t.thr.val)) (fun x i =>
            if x.canHalt (k / 8 * 8 + i) then x.haltThread (k / 8 * 8 + i) 1 b else x) s
        else s
      s1.haltThread k 1 b
    | none => s)

/-! ## The end of a grant -/

/-- JTAG unbound from its partition (R465). -/
def State.unbindJtag (s : State) : State :=
  { (s.setRb Reg.DBG_STATUS 0 false) with dbg := { s.dbg with bound := none, boundAdmin := false } }

/-- The threads of partition p. -/
def State.threadsOfPart (s : State) (p : Nat) : List Nat :=
  ((List.range 24).filter fun j => s.tilePart j == p).flatMap fun j => (List.range 32).map (32 * j + ·)

/-- The breakpoints on the cores of partition p cleared (R469). -/
def State.clearBps (s : State) (p : Nat) : State :=
  each ((s.threadsOfPart p).filter (· % 8 == 0)) (fun x k =>
    each (List.range 4) (fun y b =>
      (y.setReg (Reg.CLU_DBG_BP (k / 128) (k % 128 / 8) b) 0).setReg (Reg.CLU_DBG_BP_THR (k / 128) (k % 128 / 8) b) 0) x) s

/-- The grant of partition p ends (R395, R469): EV024, breakpoints cleared, halted threads resumed, JTAG unbound from p. -/
def State.endGrant (s : State) (p : Nat) : State :=
  if (s.grant p).active then
    let s1 := (s.setGrant p { s.grant p with active := false }).sqc Reg.SAB_STATUS 6 24
    let s2 := s1.clearBps p
    let s3 := each ((s2.threadsOfPart p).filter fun k => (s2.thr k).st == .halted) (fun x k => x.goOn k false) s2
    if s3.dbg.bound = some p then s3.unbindJtag else s3
  else s

/-! ## JTAG -/

/-- Whether a proof for partition p by slot i holds (R465). -/
def State.jtagProves (s : State) (p i : Nat) : Bool :=
  let c := s.cred i
  let r := (List.range 8).flatMap fun w => leBytes 4 (s.reg (Reg.DBG_RESP w)).toNat
  c.loaded && r == Config.kmac256 c.key (Config.jtagNonce s.dbg.nonce ++ [BitVec.ofNat 8 p, BitVec.ofNat 8 i]) 256 "DBG JTAG" &&
    (c.role == 0 || (c.role == 1 && s.credOf p == some i)) && (s.grant p).active && (s.grant p).jtag

/-- Whether JTAG proofs are locked out (R465). -/
def State.jtagLocked (s : State) : Bool := s.dbg.lockedUntil.isSome

/-- A write of DBG_JTAG (R465): with GO, one attempt; it consumes the nonce, and the eighth failure in a row locks the path. -/
def State.jtagTry (s : State) (val : Word) : State :=
  let p := fld val 19 16
  let s1 := s.setReg Reg.DBG_JTAG (BitVec.ofNat 32 (p * 65536 + fld val 3 0))
  if !tbit val 31 || s.jtagLocked then s1
  else if s.jtagProves p (fld val 3 0) then
    { (s1.setRb Reg.DBG_STATUS 0 true) with dbg := { s1.dbg with
        nonce := s.dbg.nonce + 1, fails := 0, bound := some p, boundAdmin := (s.cred (fld val 3 0)).role == 0 } }
  else
    { s1 with dbg := { s1.dbg with
        nonce := s.dbg.nonce + 1, fails := if s.dbg.fails = 7 then 0 else s.dbg.fails + 1
        lockedUntil := if s.dbg.fails = 7 then some (s.up + 60 * secU) else none } }

/-- JTAG_PROOF (R465). -/
def execJtagProof (who : Accessor) (val : Word) (s : State) : Host.Outcome State Fault Refusal :=
  done s (s.writeCmd who Reg.DBG_JTAG fun x => x.jtagTry (putBit val 31 true))

/-- JTAG_LOCKOUT_EXPIRE (R465). -/
def execJtagLockoutExpire (s : State) : Host.Outcome State Fault Refusal :=
  done s (
    match s.dbg.lockedUntil with
    | some t => if t ≤ s.up then { s with dbg := { s.dbg with lockedUntil := none } } else s
    | none => s)

/-- IDCODE (R464): SYS_ID_JTAG on TDO. -/
def execJtagIdcode (s : State) : Host.Outcome State Fault Refusal := done s (s.emit (.tdo (s.reg Reg.SYS_ID_JTAG).toNat))

/-- BYPASS (R464): the one-bit register, captured as 0. -/
def State.jtagPass (s : State) : State := ({ s with dbg := { s.dbg with tap := 0 } }).emit (.tdo 0)

/-- JTAG_BYPASS (R464). -/
def execJtagBypass (s : State) : Host.Outcome State Fault Refusal := done s s.jtagPass

/-- SAMPLE/PRELOAD (R464): the levels of the balls come out, as a free value, and the boundary register takes what was shifted in. -/
def execJtagSamplePreload (boundary : Nat) (s : State) : Host.Outcome State Fault Refusal :=
  done s (
    let f := s.freeW
    ({ f.2 with dbg := { f.2.dbg with boundary := boundary, tap := 0 } }).emit (.tdo f.1.toNat))

/-- Whether EXTEST, CLAMP and HIGHZ act (R464): in TEST, with a proven ADMIN slot. -/
def State.tapMayDrive (s : State) : Bool := s.pwr.st == .test && s.dbg.bound.isSome && s.dbg.boundAdmin

/-- EXTEST (R464): the boundary register drives the balls; elsewhere it acts as BYPASS. -/
def execJtagExtest (boundary : Nat) (s : State) : Host.Outcome State Fault Refusal :=
  done s (
    if s.tapMayDrive then
      let f := s.freeW
      ({ f.2 with dbg := { f.2.dbg with boundary := boundary, tap := 1 } }).emit (.tdo f.1.toNat)
    else s.jtagPass)

/-- CLAMP (R464): the balls keep what the boundary register drives, with the one-bit register between TDI and TDO. -/
def execJtagClamp (s : State) : Host.Outcome State Fault Refusal :=
  done s (if s.tapMayDrive then ({ s with dbg := { s.dbg with tap := 2 } }).emit (.tdo 0) else s.jtagPass)

/-- HIGHZ (R464): the balls are released. -/
def execJtagHighz (s : State) : Host.Outcome State Fault Refusal :=
  done s (if s.tapMayDrive then ({ s with dbg := { s.dbg with tap := 3 } }).emit (.tdo 0) else s.jtagPass)

/-- TAP_RESET (R465, R480): TRST_N low resets the TAP and unbinds JTAG. -/
def execTapReset (s : State) : Host.Outcome State Fault Refusal :=
  done s (let x := s.unbindJtag; { x with dbg := { x.dbg with tap := 0, captured := 0 } })

end Sys2Proof.Machine
end

