-- ==== Sys2Proof/Machine/DevState.lean ====
section
/-!
DEFINITION. Device states (R12, R483-R485): the change of state, requests for SAFE, and the request of an ADMIN session.
-/

namespace Sys2Proof.Machine

/-- The code of a device state (R396, R483). -/
def devCode : DevState → Nat
  | .cold => 0 | .boot => 1 | .config => 2 | .test => 3 | .service => 4 | .recovery => 5 | .safe => 6

/-- The device state of a code. -/
def devOfCode : Nat → Option DevState
  | 0 => some .cold | 1 => some .boot | 2 => some .config | 3 => some .test | 4 => some .service | 5 => some .recovery | 6 => some .safe
  | _ => none

/-- A change of device state (R483, EV000): outputs that the votes no longer drive go inactive, and SAFE applies its pattern (R315, EV001). -/
def State.goState (s : State) (d : DevState) : State :=
  let old := s.pwr.st
  let s1 := ({ s with pwr := { s.pwr with st := d, prev := old } }).setReg Reg.SYS_STATE
    (BitVec.ofNat 32 (s.rf Reg.SYS_STATE 31 7 * 128 + devCode old * 16 + devCode d))
  let s2 := s1.sqc Reg.SYS_STATUS 0 0
  match d with
  | .safe => (s2.sqc Reg.SYS_STATUS 1 1).voterSafe
  | .service => if old = .test then s2.outsOff else s2
  | .recovery => if old = .test then s2.outsOff else s2
  | _ => s2.outsOff

/-- A request for SAFE with its cause bit (R485): from BOOT onward the device enters SAFE, and a state request of the same cycle is rejected
(R484). -/
def State.goSafe (s : State) (cause : Nat) : State :=
  if s.pwr.st = .cold then s
  else
    let s1 := s.setRb Reg.SYS_SAFE_CAUSE cause true
    let s2 := if s.pwr.req.isSome then
        ({ s1 with pwr := { s1.pwr with req := none } }).setReg Reg.SYS_STATE_STATUS 7 else s1
    if s.pwr.st = .safe then s2 else s2.goState .safe

/-- Whether a request for a state is accepted (R483, R484). -/
def State.reqOk (s : State) (d : DevState) : Bool :=
  match d, s.pwr.st with
  | .config, .test => true
  | .test, .config => true
  | .test, .service => true
  | .test, .recovery => true
  | .service, .config => (s.part 0).st == 4
  | .service, .test => (s.part 0).st == 4
  | .service, .recovery => (s.part 0).st == 4
  | .recovery, .service => true
  | .recovery, .test => true
  | _, _ => false

/-- An accepted request waits for the next tick of device time; a rejected one changes nothing (R484). -/
def State.askState (s : State) (d : DevState) : State :=
  if d = .safe then
    (if s.pwr.st = .cold ∨ s.pwr.st = .safe then s.setReg Reg.SYS_STATE_STATUS 7 else (s.setReg Reg.SYS_STATE_STATUS 0).goSafe 0)
  else if s.reqOk d then ({ s with pwr := { s.pwr with req := some d } }).setReg Reg.SYS_STATE_STATUS 0x80000000
  else s.setReg Reg.SYS_STATE_STATUS 7

/-- A write of SYS_STATE_REQ (R484). -/
def State.stateReq (s : State) (val : Word) : State :=
  let s1 := s.setReg Reg.SYS_STATE_REQ (BitVec.ofNat 32 (fld val 2 0))
  if !tbit val 31 then s1
  else
    match devOfCode (fld val 2 0) with
    | some d => s1.askState d
    | none => s1.setReg Reg.SYS_STATE_STATUS 7

/-- SYS_STATE_REQ (R484). -/
def execSysStateReq (who : Accessor) (val : Word) (s : State) : Host.Outcome State Fault Refusal :=
  done s (s.writeCmd who Reg.SYS_STATE_REQ fun x => x.stateReq (putBit val 31 true))

/-- The tick at which an accepted request takes effect (R484). -/
def State.stateTick (s : State) : State :=
  match s.pwr.req with
  | some d => (({ s with pwr := { s.pwr with req := none } }).setReg Reg.SYS_STATE_STATUS 0).goState d
  | none => s

end Sys2Proof.Machine
end

