-- ==== Sys2Proof/Machine/Session.lean ====
section
/-!
DEFINITION. Management sessions (R410-R419): the frames that arrive on a port, the checks that let one execute, the response to a command,
and the end of a session. A frame that passes the checks stands on its port until the row of its command executes it.
-/

namespace Sys2Proof.Machine

/-- A management port passed through f. -/
def State.updMport (s : State) (n : Nat) (f : MgtPort → MgtPort) : State := s.setMport n (f (s.mport n))

/-- The end of the session of port n (R414): EV013 unless CLOSE ended it. -/
def State.endSession (s : State) (n : Nat) (byClose : Bool) : State :=
  match (s.mport n).sess with
  | some _ =>
    let s1 := s.updMport n fun p => { p with sess := none }
    if byClose then s1 else s1.sqc Reg.MGT_STATUS 1 13
  | none => s

/-! ## Frames -/

/-- The command codes of R420. -/
def cmdOpenReq : Nat := 0x01
def cmdOpenProof : Nat := 0x02
def cmdImgBegin : Nat := 0x20
def cmdImgData : Nat := 0x21
def cmdKeyLoad : Nat := 0x30
def cmdCredLoad : Nat := 0x31
def cmdRootOrder : Nat := 0x32

/-- BUSY, which R379 gives the code 24, is also the answer of R418. -/
def busyCode : Nat := 24

/-- The lowest version of the protocol that has a command (R415), none for a code that is no command (R420). REG_READ and REG_WRITE of more than
one register came with 2.0. -/
def cmdVersion (cmd : Nat) (pay : List Byte) : Option Nat :=
  if (cmd = 0x10 ∨ cmd = 0x11) ∧ 2 ≤ leAt pay 4 2 ∧ leAt pay 4 2 ≤ 256 then some 0x20
  else if (1 ≤ cmd ∧ cmd ≤ 4) ∨ cmd = 0x10 ∨ cmd = 0x11 then some 0x10
  else if cmd = 0x12 then some 0x22
  else
    match cmd with
    | 0x24 => some 0x11 | 0x28 => some 0x21 | 0x29 => some 0x21 | 0x2A => some 0x21 | 0x2B => some 0x11 | 0x2C => some 0x11
    | 0x35 => some 0x12 | 0x36 => some 0x12
    | _ => if (0x20 ≤ cmd ∧ cmd ≤ 0x2D) ∨ (0x30 ≤ cmd ∧ cmd ≤ 0x34) then some 0x10 else none

/-- Whether a payload has the size of its command (R419), where the spec gives that size. -/
def cmdSizeOk (cmd : Nat) (pay : List Byte) : Bool :=
  let n := pay.length
  match cmd with
  | 0x01 => n == 44
  | 0x02 => n == 32
  | 0x03 => n == 0
  | 0x04 => n == 0
  | 0x10 => n == 8 && 1 ≤ leAt pay 4 2 && leAt pay 4 2 ≤ 256 && leAt pay 0 4 % 4 == 0
  | 0x11 => 8 ≤ n && n == 8 + 4 * leAt pay 4 2 && 1 ≤ leAt pay 4 2 && leAt pay 4 2 ≤ 256 && leAt pay 0 4 % 4 == 0
  | 0x12 => n == 8 && leAt pay 0 4 % 4 == 0
  | 0x26 => n == 16
  | 0x33 => n == 32
  | _ => true

/-- The payload length that a header states (R416). -/
def frameLen (bs : List Byte) : Nat :=
  let n := leAt bs 2 2
  if n = 0 ∧ (leAt bs 0 2 = cmdImgData ∨ leAt bs 0 2 = cmdKeyLoad) ∧ 32 < bs.length then 65536 else n

/-- The frame that bytes hold (R416). -/
def frameOf (bs : List Byte) : MgtFrame :=
  { cmd := leAt bs 0 2, seq := leAt bs 4 4, sid := BitVec.ofNat 32 (leAt bs 8 4), part := (byteAt bs 12).toNat
    payload := (bs.drop 16).take (bs.length - 32) }

/-- A response: header, payload and tag (R416, R417); a key makes the tag, and without one it is zero. -/
def responseBytes (f : MgtFrame) (sid : Word) (res : Nat) (pay : List Byte) (key : Option (List Byte)) : List Byte :=
  let head := leBytes 2 (f.cmd % 32768 + 32768) ++ leBytes 2 pay.length ++ leBytes 4 f.seq ++ leBytes 4 sid.toNat ++
    [BitVec.ofNat 8 f.part, BitVec.ofNat 8 res, 0, 0]
  head ++ pay ++ (match key with | some k => (Config.kmac256 k (head ++ pay) 128 "MGT R").take 16 | none => List.replicate 16 0)

/-! ## Transport of a response -/

/-- Bytes cut into units of at most n (the first argument bounds their number). -/
def chunks (n : Nat) : Nat → List Byte → List (List Byte)
  | 0, _ => []
  | k + 1, bs => if bs.length ≤ n then [bs] else bs.take n :: chunks n k (bs.drop n)

/-- The units of a frame with their segment headers (R411). -/
def unitsOf (size : Nat) (bs : List Byte) : List (List Byte) :=
  let cs := chunks (size - 4) (bs.length + 1) bs
  (List.range cs.length).map fun i =>
    let c := cs.getD i []
    leBytes 4 ((if i + 1 = cs.length then 2147483648 else 0) + i % 32768 * 65536 + c.length) ++ c

/-- A UART unit on the line (R410): its CRC-32, stuffed between flags. -/
def uartUnit (u : List Byte) : List Byte :=
  let body := u ++ leBytes 4 (crc32 0 u)
  [0x7E] ++ body.flatMap (fun b => if b = 0x7E ∨ b = 0x7D then [0x7D, b ^^^ 0x20] else [b]) ++ [0x7E]

/-- The Ethernet header of a unit on port 2 (R410). -/
def State.mgtEthHead (s : State) (dst : BitVec 48) : List Byte :=
  beBytes 6 dst.toNat ++ beBytes 6 ((s.reg Reg.MGT_ETH_CFG_LO).toNat + s.rf Reg.MGT_ETH_CFG_HI 15 0 * two32) ++ [0x88, 0xB5]

/-- A response leaves port n (R410). -/
def State.mgtSend (s : State) (n : Nat) (bs : List Byte) : State :=
  match n with
  | 2 => each (unitsOf 1500 bs) (fun x u => x.emit (.mgt 2 (x.mgtEthHead (x.mport 2).frameSrc ++ u))) s
  | 3 => s.updMport 3 fun p => { p with rspUnits := p.rspUnits ++ unitsOf 255 bs }
  | 4 => each (unitsOf 1024 bs) (fun x u => x.emit (.mgt 4 (uartUnit u))) s
  | 5 => each (unitsOf 1500 bs) (fun x u => if x.rf Reg.PAI_LINK 31 29 < 3 then x else x.emit (.cell 4 [] u)) s
  | l =>
    let sent := bs.take (s.reg (Reg.MGT_RSP_MAX l)).toNat
    let addr := (s.reg (Reg.MGT_RSP_ADDR_LO l)).toNat + (s.reg (Reg.MGT_RSP_ADDR_HI l)).toNat * two32
    let s1 := (s.emit (.hostWrite l addr sent)).setReg (Reg.MGT_RSP_STATUS l)
      (BitVec.ofNat 32 (2147483648 + (if sent.length < bs.length then 1073741824 else 0) + sent.length))
    if s1.rb (Reg.MGT_RSP_VEC l) 31 then s1.sendMsix l 0 (s1.rf (Reg.MGT_RSP_VEC l) 8 0) else s1

/-! ## Admission -/

/-- A refused frame: its response carries a zero tag (R417). -/
def State.mgtRefuse (s : State) (n : Nat) (f : MgtFrame) (res : Nat) : State := s.mgtSend n (responseBytes f f.sid res [] none)

/-- Whether port n takes frames: it is enabled, port 1 exists only with PCIE_BIF high (R410), and boot step B3 is over (R486). -/
def State.portOn (s : State) (n : Nat) : Bool :=
  s.rb (Reg.MGT_PORT_CFG n) 31 && (n != 1 || s.rb Reg.PCI_CFG 30) && s.pwr.st != .cold

/-- Whether a frame that carries SID 0 is accepted (R381, R388, R417): the opening, CRED_LOAD, and an unsigned ROOT_ADD on port 4. -/
def sidZeroOk (n : Nat) (f : MgtFrame) : Bool :=
  f.cmd == cmdOpenReq || f.cmd == cmdOpenProof || f.cmd == cmdCredLoad ||
    (f.cmd == cmdRootOrder && n == 4 && (byteAt f.payload 5).toNat == 3)

/-- A frame waits on its port for the row of its command. -/
def State.mgtQueue (s : State) (n : Nat) (f : MgtFrame) : State := s.updMport n fun p => { p with frame := some f }

/-- A command admitted in a session (R415, R417, R419): refused as unknown or of the wrong length with a response of its own, else queued. -/
def State.mgtAdmit (s : State) (n : Nat) (x : Session) (f : MgtFrame) (lenOk : Bool) : State :=
  let s1 := s.updMport n fun p => { p with sess := some { x with seq := f.seq, badTags := 0, lastAt := s.up } }
  let answer := fun (res : Nat) =>
    let bs := responseBytes f f.sid res [] (some x.key)
    (s1.updMport n fun p => { p with sess := p.sess.map fun y => { y with stored := bs } }).mgtSend n bs
  match cmdVersion f.cmd f.payload with
  | some v => if x.ver < v then answer 35 else if !lenOk || !cmdSizeOk f.cmd f.payload then answer 36 else s1.mgtQueue n f
  | none => answer 35

/-- A wrong tag in a session (R414, R417): the eighth in a row ends it. -/
def State.mgtBadTag (s : State) (n : Nat) (x : Session) (f : MgtFrame) : State :=
  let s1 := ((s.updMport n fun p => { p with sess := some { x with badTags := x.badTags + 1 } }).inc (Reg.MGT_BAD_TAG n)).mgtRefuse n f 32
  if 7 ≤ x.badTags then s1.endSession n false else s1

/-- A frame with a good tag, by its SEQ (R417): the last one again has the stored response sent again, where a command has been answered. -/
def State.mgtJudge (s : State) (n : Nat) (x : Session) (f : MgtFrame) (lenOk : Bool) : State :=
  if f.seq = x.seq ∧ x.stored ≠ [] then (s.inc (Reg.MGT_RESENT n)).mgtSend n x.stored
  else if f.seq ≠ x.seq + 1 then s.mgtRefuse n f 33
  else s.mgtAdmit n x f lenOk

/-- A frame that arrives on port n from a source (R416-R418). -/
def State.mgtArrive (s0 : State) (n : Nat) (src : BitVec 48) (bs : List Byte) : State :=
  let s := s0.updMport n fun p => { p with frameSrc := src }
  let f := frameOf bs
  let lenOk := frameLen bs + 32 == bs.length
  if !s.portOn n || bs.length < 32 then s0
  else if (s.mport n).frame.isSome || (s.mport n).busy.isSome then s.mgtRefuse n f busyCode
  else if f.sid = 0 then
    (if !sidZeroOk n f then s.mgtRefuse n f 34
     else if !lenOk || !cmdSizeOk f.cmd f.payload then s.mgtRefuse n f 36
     else s.mgtQueue n f)
  else if f.cmd = cmdOpenProof && ((s.mport n).opening.map (·.sid)) == some f.sid then
    (if !lenOk || !cmdSizeOk f.cmd f.payload then s.mgtRefuse n f 36 else s.mgtQueue n f)
  else
    match (s.mport n).sess with
    | none => s.mgtRefuse n f 34
    | some x =>
      if x.sid ≠ f.sid ∨ (n = 2 ∧ x.src ≠ src) then s.mgtRefuse n f 34
      else if bs.drop (bs.length - 16) ≠ (Config.kmac256 x.key (bs.take (bs.length - 16)) 128 "MGT C").take 16 then s.mgtBadTag n x f
      else (s.updMport n fun p => { p with sess := some { x with badTags := 0 } }).mgtJudge n x f lenOk

/-! ## Execution -/

/-- The frame on port n whose command has one of the given codes goes into execution; without such a frame nothing happens. -/
def State.onCmd (s : State) (n : Nat) (codes : List Nat) (act : MgtFrame → State → State) : State :=
  match (s.mport n).frame with
  | some f => if codes.contains f.cmd then act f (s.updMport n fun p => { p with frame := none, busy := some f }) else s
  | none => s

/-- The response to the command in execution on port n (R417, R418): tagged and stored in its session. A session whose SEQ has reached its
last value ends (R414). -/
def State.respond (s : State) (n res : Nat) (pay : List Byte) : State :=
  match (s.mport n).busy with
  | none => s
  | some f =>
    let s1 := s.updMport n fun p => { p with busy := none }
    match (s.mport n).sess with
    | some x =>
      if x.sid = f.sid then
        let bs := responseBytes f f.sid res pay (some x.key)
        let s2 := (s1.updMport n fun p => { p with sess := some { x with stored := bs } }).mgtSend n bs
        if f.seq = 4294967295 then s2.endSession n false else s2
      else s1.mgtSend n (responseBytes f f.sid res pay none)
    | none => s1.mgtSend n (responseBytes f f.sid res pay none)

/-- The end of a command with a result, for whoever gave it: a session is answered, the boot engine notes it. -/
def State.answer (s : State) (a : Actor) (res : Nat) (pay : List Byte) : State :=
  match a with
  | .port n => s.respond n res pay
  | .engine => { s with pwr := { s.pwr with engine := { s.pwr.engine with answer := some res } } }
  | .device => s

/-- Whether an actor has ADMIN authority (R334, R489). -/
def State.actAdmin (s : State) (a : Actor) : Bool :=
  match a with
  | .port n => s.portRole n == .admin
  | _ => true

/-- Whether an actor is OWNER of partition p. -/
def State.actOwns (s : State) (a : Actor) (p : Nat) : Bool :=
  match a with
  | .port n => s.portOwns n p
  | _ => false

end Sys2Proof.Machine
end

