-- ==== Sys2Proof/Machine/Pair.lean ====
section
/-!
DEFINITION. The pair link (R424-R438): lanes and states, version negotiation, heartbeats and what is measured by them, and the cells of the
partner. What leaves for the partner is emitted as cells; no cell waits in the device, since commands take no time.
-/

namespace Sys2Proof.Machine

/-! ## States (R425) -/

/-- STATE of the link: 0 DOWN, 1 TRAINING, 2 NEGOTIATING, 3 UP, 4 DEGRADED. -/
def State.linkSt (s : State) : Nat := s.rf Reg.PAI_LINK 31 29

/-- EN of PAI_CFG. -/
def State.pairEn (s : State) : Bool := s.rb Reg.PAI_CFG 31

/-- A change of state raises EV304. -/
def State.setLinkSt (s : State) (st : Nat) : State :=
  if s.linkSt = st then s else (s.setRf Reg.PAI_LINK 31 29 st).sqc Reg.PAI_STATUS 0 304

/-- Class tc of the pair-link queues is flushed and its buffers freed (R436): counted, with EV311. An empty queue has nothing to flush. -/
def State.flushClass (s : State) (tc : Nat) : State :=
  if (s.egq (egKey 21 tc)).isEmpty then s
  else ((each (s.egq (egKey 21 tc)) (fun y n => y.endCopy n false) s).inc Reg.PAI_CREDIT_FLUSH).sqc Reg.PAI_STATUS 7 311

/-- The frame on its way to the partner is lost with the link. -/
def State.dropSending (s : State) : State :=
  match s.sending 21 with
  | some n => (s.setSending 21 none).endCopy n false
  | none => s

/-- The link goes DOWN (R425): the queues are flushed (R436), the session of port 5 ends (R414, R437), partner slots fail in the same cycle
(R304). -/
def State.pairDown (s : State) : State :=
  if s.linkSt = 0 then s
  else
    let s1 := (s.setLinkSt 0).setRf Reg.PAI_LINK 28 27 0
    let s2 := { s1 with pai := { s1.pai with helloSent := false, helloSeen := none, miss := 0, offRun := 0, rxHb := [], rxMbx := [], rxVote := [], helloAt := 0, hbAt := 0, credit := [] } }
    ((each (List.range 8) (fun x tc => x.flushClass tc) s2.dropSending).endSession 5 false).judgeChans

/-- Whether a lane is up. -/
def State.laneUp (s : State) : Bool := s.pai.lane0 || s.pai.lane1

/-- The next state of a link that trains (R425). A lane counts as up from its first millisecond of block lock on. -/
def State.train (s : State) : State :=
  if !s.pairEn || !s.laneUp then s
  else match s.linkSt with
    | 0 => s.setLinkSt 1
    | 1 => s.setLinkSt 2
    | _ => s

/-- The lanes as PAI_LINK shows them. -/
def State.setLanes (s : State) (a b : Bool) : State :=
  let s1 := { s with pai := { s.pai with lane0 := a, lane1 := b } }
  (s1.setRb Reg.PAI_LINK 26 a).setRb Reg.PAI_LINK 25 b

/-- Lane l has held block lock for 1 ms. -/
def State.laneLock (s : State) (l : Nat) : State :=
  let s1 := s.setLanes (s.pai.lane0 || l == 0) (s.pai.lane1 || l != 0)
  if !s1.pairEn then s1
  else if s1.linkSt = 4 then (if s1.pai.lane0 && s1.pai.lane1 then s1.setLinkSt 3 else s1)
  else if s1.linkSt = 0 then s1.train.train
  else if s1.linkSt = 1 then s1.train
  else s1

/-- UMBER_LANE_LOCK (R425). -/
def execUmberLaneLock (lane : Fin 2) (s : State) : Host.Outcome State Fault Refusal := done s (s.laneLock lane.val)

/-- Lane l has lost block lock (R424, R425): the last lane takes the link DOWN, another leaves it DEGRADED. -/
def State.laneDrop (s : State) (l : Nat) : State :=
  let s1 := s.setLanes (s.pai.lane0 && l != 0) (s.pai.lane1 && l == 0)
  if !s1.laneUp then s1.pairDown else if s1.linkSt = 3 then s1.setLinkSt 4 else s1

/-- UMBER_LANE_DROP (R424). -/
def execUmberLaneDrop (lane : Fin 2) (s : State) : Host.Outcome State Fault Refusal := done s (s.laneDrop lane.val)

/-! ## Version negotiation (R426) -/

/-- Whether this side offers PL 2. -/
def State.offersPl2 (s : State) : Bool := !s.rb Reg.PAI_CFG 29

/-- The link comes up with version v: 32 KiB of credit for each class (R436). -/
def State.comeUp (s : State) (v : Nat) : State :=
  let s1 := (s.setRf Reg.PAI_LINK 28 27 v).setLinkSt (if v = 2 && !(s.pai.lane0 && s.pai.lane1) then 4 else 3)
  let s2 := if v = 1 then s1.sqc Reg.PAI_STATUS 1 305 else s1
  { s2 with pai := { s2.pai with
      credit := (List.range 8).map fun tc => (tc, 32768)
      spentAt := (List.range 8).foldl (fun m tc => m.sd 0 tc s.up) []
      miss := 0
      missFrom := s.up } }

/-- The end of negotiation, once HELLOs have gone both ways. -/
def State.agree (s : State) : State :=
  match s.linkSt, s.pai.helloSent, s.pai.helloSeen with
  | 2, true, some (pl1, pl2) =>
    if pl2 && s.offersPl2 then s.comeUp 2
    else if pl1 then s.comeUp 1
    else s.sqc Reg.PAI_STATUS 1 305
  | _, _, _ => s

/-- The version bitmap of a HELLO: bit 1 PL 1, bit 2 PL 2. -/
def State.helloMap (s : State) : Nat := if s.offersPl2 then 6 else 2

/-- HELLO_TX (R426): a HELLO on every up lane, 1 µs after the last one. -/
def execHelloTx (s : State) : Host.Outcome State Fault Refusal :=
  done s (
    if s.linkSt = 2 && s.laneUp && s.pai.helloAt ≤ s.up then
      let hello := Emit.cell 1 [s.helloMap, 0xB0, Config.devId.toNat] []
      let s1 := if s.pai.lane0 then s.emit hello else s
      let s2 := if s.pai.lane1 then s1.emit hello else s1
      ({ s2 with pai := { s2.pai with helloSent := true, helloAt := s.up + usU } }).agree
    else s)

/-- HELLO_RX (R426). -/
def execHelloRx : Bool → HelloVersions → BitVec 8 → BitVec 128 → State → Host.Outcome State Fault Refusal
  | crcGood, ⟨pl1, pl2⟩, step, devId, s =>
    done s (
      if !crcGood then s.cellBad
      else if s.linkSt = 2 then
        let s1 := each (List.range 4) (fun x w => x.setReg (Reg.PAI_PEER_ID w) (wordAt (natWords 4 devId.toNat) w)) s
        let s2 := s1.setRf Reg.PAI_LINK 15 8 step.toNat
        ({ s2 with pai := { s2.pai with helloSeen := some (pl1, pl2) } }).agree
      else s)

/-! ## Heartbeats (R429-R432) -/

/-- The device measurement, and that of partition p, as CFG shows them. -/
def State.devMeas (s : State) : Nat := wordsNat ((List.range 8).map fun w => s.reg (Reg.CFG_DEV_MEAS w))
def State.partMeas (s : State) (p : Nat) : Nat := wordsNat ((List.range 8).map fun w => s.reg (Reg.CFG_PART_MEAS p w))

/-- The angle clocks that a heartbeat carries: those with PAIR_ALIGN 1 that run. -/
def State.pairClocks (s : State) : List Nat := (List.range 16).filter fun n => s.rb (Reg.IND_ACLK_CFG n) 21 && (s.aclk n).running

/-- HEARTBEAT_TX (R429): HB_US µs after the last one. -/
def execHeartbeatTx (s : State) : Host.Outcome State Fault Refusal :=
  done s (
    if s.pairUp && s.pai.hbAt ≤ s.up then
      let last := match s.pai.lastHb with | some (h, _) => [h.txTime, s.pai.lastRx] | none => [0, 0]
      let parts := if s.rf Reg.PAI_LINK 28 27 = 2 then (List.range 16).map s.partMeas else []
      let clocks := s.pairClocks.flatMap fun n => [n, (s.aclk n).value, (s.aclk n).freq]
      let s1 := s.emit (.cell 1 ([s.pai.hbSeq.toNat, s.time] ++ last ++ [devCode s.pwr.st, s.devMeas, (s.reg Reg.AUT_EPOCH_CUR).toNat] ++ parts ++ clocks) [])
      { s1 with pai := { s1.pai with hbSeq := s1.pai.hbSeq + 1, hbAt := s.up + s.rf Reg.PAI_CFG 24 15 * usU } }
    else s)

/-- A match bit takes a value: its loss raises EV310 (R432). -/
def State.setMatch (s : State) (bit : Nat) (m : Bool) : State :=
  let s1 := s.setRb Reg.PAI_LINK bit m
  if s.rb Reg.PAI_LINK bit && !m then s1.sqc Reg.PAI_STATUS 6 310 else s1

/-- The match bits judged by the last heartbeat (R432): also when this device's own measurements or epoch change. -/
def State.judgeMatch (s : State) : State :=
  match s.pai.lastHb with
  | none => s
  | some (h, _) =>
    let same := h.meas.toNat == s.devMeas
    let s1 := (s.setMatch 18 same).setMatch 17 (h.epoch == s.reg Reg.AUT_EPOCH_CUR)
    let bits := (List.range 16).map fun p =>
      if s.rf Reg.PAI_LINK 28 27 = 2 then (match h.parts[p]? with | some m => m.toNat == s.partMeas p | none => false) else same
    s1.setReg Reg.PAI_PART_MATCH (BitVec.ofNat 32 (((List.range 16).map fun p => if bits.getD p false then 2 ^ p else 0).sum))

/-- Offset and one-way delay, in ns rounded down, from the four times of an exchange (R430). Heartbeats are stamped to 1 ns. -/
def pairOffset (t1 t2 t3 t4 : Int) : Int := ((t2 - t1) - (t4 - t3)) / 2
def pairDelay (t1 t2 t3 t4 : Int) : Int := ((t4 - t1) - (t3 - t2)) / 2

/-- A device time in whole nanoseconds. -/
def wholeNs (t : Nat) : Int := (t / nsU : Nat)

/-- What the exchange of heartbeat h, received at device time t4, measures (R430): nothing before the partner has echoed one. -/
def State.measurePair (s : State) (h : Heartbeat) (t4 : Nat) : State :=
  if h.echoTx = 0 && h.echoRx = 0 then s
  else
    let off_ := pairOffset (wholeNs h.echoTx) (wholeNs h.echoRx) (wholeNs h.txTime) (wholeNs t4)
    let delay := pairDelay (wholeNs h.echoTx) (wholeNs h.echoRx) (wholeNs h.txTime) (wholeNs t4)
    let run := if (s.rf Reg.PAI_THR 31 16 : Int) < off_.natAbs then s.pai.offRun + 1 else 0
    let s1 := (s.setReg Reg.PAI_TIME_OFF (wordOfInt off_)).setReg Reg.PAI_DELAY (wordOfInt delay)
    let s2 := { s1 with pai := { s1.pai with offRun := if run = 16 then 0 else run } }
    let s3 := if run = 16 then s2.sqc Reg.PAI_STATUS 2 306 else s2
    if ((s.rf Reg.PAI_CFG 9 0 + 200 : Nat) : Int) < delay then s3.sqc Reg.PAI_STATUS 5 309 else s3

/-- The partner's value of a clock, carried forward to now at its tracked frequency, with the offset taken into account (R431). -/
def State.peerValue (s : State) (h : Heartbeat) (c : PeerClock) : Int :=
  (c.val : Int) + (c.freq : Int) * ((s.time : Int) + wordInt (s.reg Reg.PAI_TIME_OFF) * (nsU : Int) - (h.txTime : Int)) * 256 / ((secU : Nat) : Int)

/-- Whether two angle values lie more than 0.25 cycle apart, as values modulo 2^64 (R6, R431). -/
def anglesApart (a b : Int) : Bool :=
  let d := (a - b) % 18446744073709551616
  (1073741824 : Int) < d && (1073741824 : Int) < 18446744073709551616 - d

/-- The clocks compared with the partner's (R431): a slip raises EV308. -/
def State.judgeAlign (s : State) (h : Heartbeat) : State :=
  if s.pairClocks.any fun n => h.clocks.any fun c => c.clk.val == n && anglesApart ((s.aclk n).value : Int) (s.peerValue h c) then
    s.sqc Reg.PAI_STATUS 4 308
  else s

/-- HEARTBEAT_RX (R428, R430): a copy already taken is discarded. The receipt is stamped `sub` ns after the last tick (R17). -/
def execHeartbeatRx : PairCell (Edge Heartbeat) → State → Host.Outcome State Fault Refusal
  | ⟨crcGood, hb, sub⟩, s =>
    done s (
      if !crcGood then s.cellBad
      else if s.pairUp && !s.pai.rxHb.contains hb.seq then
        let t4 := s.stampNs sub.val
        let s1 := { s with pai := { s.pai with rxHb := keepSeq s.pai.rxHb hb.seq, lastHb := some (hb, s.up), lastRx := t4, miss := 0, missFrom := s.up } }
        let s2 := (s1.setRf Reg.PAI_LINK 21 19 hb.state.toNat).measurePair hb t4
        (s2.judgeAlign hb).judgeMatch.judgeChans
      else s)

/-- HEARTBEAT_MISS (R429): an interval of HB_US without a heartbeat; HB_MISS of them in a row take the link DOWN. -/
def execHeartbeatMiss (s : State) : Host.Outcome State Fault Refusal :=
  done s (
    if s.pairUp && s.pai.missFrom + s.rf Reg.PAI_CFG 24 15 * usU ≤ s.up then
      let s1 := ({ s with pai := { s.pai with miss := s.pai.miss + 1, missFrom := s.up } }).inc Reg.PAI_HB_MISS
      if s.rf Reg.PAI_CFG 28 25 ≤ s.pai.miss + 1 then s1.pairDown else s1
    else s)

/-! ## What the partner sends (R428, R434-R437) -/

/-- PAIR_MBX_RX (R297, R434): the post arrives in the receive peer mailbox of the same number. -/
def execPairMbxRx : PairCell (BitVec 16) → BitVec 8 → Fin 5 → Word → Word → Word → Word → State → Host.Outcome State Fault Refusal
  | ⟨crcGood, seq⟩, m, len, w0, w1, w2, w3, s =>
    done s (
      if !crcGood then s.cellBad
      else if s.pairUp && !s.pai.rxMbx.contains seq then
        let k := 128 + m.toNat % 16
        let c := s.rf (mbCfgReg 0 k) 29 27
        let s1 := { s with pai := { s.pai with rxMbx := keepSeq s.pai.rxMbx seq } }
        if s.rb (mbCfgReg 0 k) 31 && !s.mbDir 0 k && c < 6 then
          (s1.inc Reg.PAI_MB_RX).mbArrive c k (mailWords #v[w0, w1, w2, w3] len.val) true
        else s1
      else s)

/-- PAIR_EVT_RX (R435). -/
def execPairEvtRx : PairCell (BitVec 9) → State → Host.Outcome State Fault Refusal
  | ⟨crcGood, e⟩, s =>
    done s (
      if !crcGood then s.cellBad
      else if s.pairUp && e.toNat < 320 then (s.setRb (Reg.PAI_PEER_EVT_PEND (e.toNat / 32)) (e.toNat % 32) true).sqc Reg.PAI_STATUS 3 307 else s)

/-- PAIR_FRAME_RX (R436): a frame with a failing code is discarded, every other enters the parser with PORT_ID 31. The cells' buffers are
free again once the frame is in, so its credit goes back. -/
def execPairFrameRx : PairCell (Fin 8) → BitVec 4 → List Byte → Option SecExt → State → Host.Outcome State Fault Refusal
  | ⟨crcGood, tc⟩, code, bytes, ext, s =>
    done s (
      if !crcGood then s.cellBad
      else if s.pairUp then
        let s1 := s.emit (.cell 1 [tc.val, bytes.length] [])
        if verdictFail code.toNat then s1.inc Reg.PAI_FRAME_DROP
        else
          let r := s1.newFrame 31 0 false
          r.2.frameTail r.1 bytes true false ext
      else s)

/-- CREDIT_RETURN_RX (R436): never more than the 32 KiB that were granted. -/
def execCreditReturnRx : PairCell (Fin 8) → Nat → State → Host.Outcome State Fault Refusal
  | ⟨crcGood, tc⟩, n, s =>
    done s (
      if !crcGood then s.cellBad
      else if s.pairUp then { s with pai := { s.pai with credit := s.pai.credit.sd 0 tc.val (min 32768 (s.credit tc.val + n)) } } else s)

/-- Whether class tc has waited CREDIT_MAX µs for credit (R436): its head has reached S, and no credit for it has been there since. -/
def State.creditWaited (s : State) (tc : Nat) : Bool :=
  match s.egq (egKey 21 tc) with
  | n :: _ =>
    s.reachedS n && s.credit tc < (s.copy n).len &&
      max (((s.copy n).startAt).getD (s.copy n).queuedAt) (s.pai.spentAt.gd 0 tc) + s.rf Reg.PAI_THR 15 0 * usU ≤ s.up
  | [] => false

/-- CREDIT_TIMEOUT (R436). -/
def execCreditTimeout (tc : Fin 8) (s : State) : Host.Outcome State Fault Refusal :=
  done s (if s.pairUp && s.creditWaited tc.val then s.flushClass tc.val else s)

end Sys2Proof.Machine
end

