-- ==== Sys2Proof/Machine/CommitFab.lean ====
section
/-!
DEFINITION. What each block outside the clusters does at the commit strobe (R343). In every definition `o` is the state before the commit, and the
state it acts on already holds the new registers and objects.
-/

namespace Sys2Proof.Machine

/-- Whether a register differs from what it was. -/
def State.moved (o s : State) (off : Nat) : Bool := o.reg off != s.reg off

/-- Whether any of some registers does. -/
def State.movedAny (o s : State) (offs : List Nat) : Bool := offs.any (o.moved s)

/-! ## Indigo (R44, R45, R48, R504) -/

/-- Every instant armed on clock n is cancelled (R48). -/
def State.cancelOn (s : State) (n : Nat) : State :=
  let on := fun (a : Option ArmedInstant) => match a with | some x => (match x.inst with | .angle k _ => k == n | .ptp _ => false | .elapsed _ => false) | none => false
  let s1 := each (List.range 32) (fun x u => if on (x.unit u) then (x.setUnit u none).setRf (Reg.IND_INST_STATUS u) 2 0 7 else x) s
  each (List.range 192) (fun x k =>
    if on (x.timer k) then (x.setTimer k none).setRf (Reg.CLU_DSP_TMR_STATUS (k / 32) (k % 32)) 2 0 7 else x) s1

/-- The runs of cycles and samples of the primary, or of the secondary, begin afresh under a new binding (R43). -/
def AngleClock.newPri (c : AngleClock) : AngleClock := { c with badPri := 0, cycBadPri := false, qualPri := 0, est := 0 }
def AngleClock.newSec (c : AngleClock) : AngleClock := { c with badSec := 0, cycBadSec := false, qualSec := 0 }

/-- MODE of a clock that keeps EN (R43, R44): the value stays continuous; LOCKED or HELD goes to FIXED for MODE 2, FIXED to HELD for MODE 0 or 1. -/
def State.commitMode (s : State) (n : Nat) : State :=
  let c := s.aclk n
  if s.rf (Reg.IND_ACLK_CFG n) 30 28 = 2 then
    (if c.st = .locked ∨ c.st = .held then
      (s.setAclk n { c.mark s.time with st := .fixed, freq := s.aclkNom n * hzU, corr := 0, pulling := false, src2 := false }).aclkEvent n 0 true
     else if c.st = .fixed ∧ c.freq ≠ s.aclkNom n * hzU then s.setAclk n { c.mark s.time with freq := s.aclkNom n * hzU }
     else s)
  else if c.st = .fixed then
    (s.setAclk n { (c.mark s.time).newPri.newSec with st := .held, heldFrom := c.val, holdShown := false, phaseBad := 0 }).aclkEvent n aclkLoss true
  else s

/-- A change of the reference of a clock that keeps EN (R43): a SEEKING or HELD clock is judged from now on under the new binding; a LOCKED one keeps
its state and pulls in to the new reference it follows, and loses a secondary that is no longer enabled. -/
def State.commitRef (o s : State) (n : Nat) : State :=
  let pri := o.rf (Reg.IND_ACLK_CFG n) 30 28 != s.rf (Reg.IND_ACLK_CFG n) 30 28 || o.rf (Reg.IND_ACLK_CFG n) 12 0 != s.rf (Reg.IND_ACLK_CFG n) 12 0
  let sec := o.reg (Reg.IND_ACLK_SRC2 n) != s.reg (Reg.IND_ACLK_SRC2 n)
  let c := s.aclk n
  let c1 := if pri then c.newPri else c
  let c2 := if sec then c1.newSec else c1
  if c.st = .locked ∧ (if c.src2 then sec else pri) then
    (let s1 := s.setAclk n { c2 with pulling := true, phaseBad := 0 }
     if c.src2 && !s.rb (Reg.IND_ACLK_SRC2 n) 31 then s1.holdClock n else s1)
  else s.setAclk n c2

/-- A change of E (R45): evaluation aims at the new points, from the boundary on which the commit is named. -/
def State.commitE (o s : State) (n : Nat) : State :=
  if (s.aclk n).running && o.aclkE n != s.aclkE n then s.setAclk n ((s.aclk n).aim (s.aclkE n)) else s

/-- A change of the grid (R505): the streams of the clock begin the new grid at the boundary on which the commit is named. -/
def State.commitGrid (o s : State) (n : Nat) : State :=
  if (s.aclk n).running && o.aclkG n != s.aclkG n then
    each (s.streamsOn.filter fun k => (s.stream k).aclk == n && (s.stream k).next.isSome) (fun x k => x.newGrid k) s
  else s

/-- A clock that keeps EN. -/
def State.commitRunning (o s : State) (n : Nat) : State := State.commitGrid o (State.commitE o (State.commitRef o (s.commitMode n) n) n) n

/-- Angle clock n at a commit. -/
def State.commitClock (o s : State) (n : Nat) : State :=
  if !s.aclkOn n then (if o.aclkOn n then (((s.waitStreams n).setAclk n {}).aclkEvent n 0 true).cancelOn n else s)
  else if !o.aclkOn n then (s.setAclk n { st := .seeking }).aclkEvent n 0 true
  else State.commitRunning o s n

/-- The seven registers of a unit or timer that an image sets. -/
def unitRegs (u : Nat) : List Nat := (List.range 7).map fun i => Reg.IND_INST_DESC u 0 + 4 * i
def timerRegs (k : Nat) : List Nat := (List.range 7).map fun i => Reg.CLU_DSP_TMR_DESC (k / 32) (k % 32) 0 + 4 * i

/-- The descriptor and the period that seven registers hold. -/
def State.descOf (s : State) (rs : List Nat) : List Word := (rs.take 4).map s.reg
def State.periodOf (s : State) (rs : List Nat) : Nat := wordsNat ((rs.drop 4).take 2 |>.map s.reg)

/-- The instant that seven registers arm, if they are accepted. -/
def State.armOf (s : State) (rs : List Nat) : ArmedInstant := { inst := descInstant (s.descOf rs), period := s.periodOf rs, late := false }

/-- General unit u at a commit that changes its registers (R504): KIND 0 drops what it held without a result. -/
def State.commitUnit (o s : State) (u : Nat) : State :=
  if !(State.movedAny o s (unitRegs u)) then s
  else if descKind (s.descOf (unitRegs u)) = 0 then s.setUnit u none
  else
    let code := s.validate (s.descOf (unitRegs u)) false false
    (s.setUnit u (if code = 0 then some (s.armOf (unitRegs u)) else none)).setRf (Reg.IND_INST_STATUS u) 2 0 code

/-- Dispatcher timer k at a commit that changes its registers (R265): a refusal sets TMR. -/
def State.commitTimer (o s : State) (k : Nat) : State :=
  if !(State.movedAny o s (timerRegs k)) then s
  else if descKind (s.descOf (timerRegs k)) = 0 then s.setTimer k none
  else
    let code := if descKind (s.descOf (timerRegs k)) = 1 then s.validate (s.descOf (timerRegs k)) false false else 3
    let s1 := (s.setTimer k (if code = 0 then some (s.armOf (timerRegs k)) else none)).setRf (Reg.CLU_DSP_TMR_STATUS (k / 32) (k % 32)) 2 0 code
    if code = 0 then s1 else s1.sqc (Reg.CLU_DSP_STATUS (k / 32)) 5 (230 + 8 * (k / 32))

/-- The time inputs and sources at a commit: an input with another configuration is measured afresh, and the time state follows what is configured
and qualified now (R30, R31). -/
def State.commitTime (o s : State) : State :=
  let s1 := each (List.range 2) (fun x n => if o.moved s (Reg.IND_TIN_CFG n) then x.setTinSrc n { off := (x.tinSrc n).off } else x) s
  if o.moved s Reg.IND_SRC_CFG || (List.range 2).any fun n => o.moved s (Reg.IND_TIN_CFG n) then s1.judgeSources else s1

/-- Indigo at a commit. -/
def State.commitIndigo (o s : State) : State :=
  let s1 := each (List.range 16) (fun x n => State.commitClock o x n) (State.commitTime o s)
  let s2 := each (List.range 32) (fun x u => State.commitUnit o x u) s1
  each (List.range 192) (fun x k => State.commitTimer o x k) s2

/-! ## Ports, parser, classifier (R80, R83, R85, R343) -/

/-- The frames still arriving on an ingress. -/
def State.arriving (s : State) (p : Nat) : List Nat := (s.pkt.frames.filter fun q => q.2.live && q.2.port == p && q.2.tailAt.isNone).map Prod.fst

/-- An ingress that loses its line: what arrives ends as a bad-FCS tail. -/
def State.cutArriving (s : State) (p : Nat) : State := each (s.arriving p) (fun x f => x.frameTail f [] false false none) s

/-- Port p at a commit: a change of MODE or FEC drops the link, one of preemption begins its verification anew. -/
def State.commitPort (o s : State) (p : Nat) : State :=
  let up_ := s.rb (Reg.ETH_PORT_STATUS p) 2
  if o.rf (Reg.ETH_PORT_CFG p) 31 27 != s.rf (Reg.ETH_PORT_CFG p) 31 27 then
    let s1 := s.cutArriving p
    if up_ then s1.linkDown p .lock else s1
  else if up_ && o.moved s (Reg.ETH_PREEMPT p) then (s.setRf (Reg.ETH_PORT_STATUS p) 7 5 (s.verifyStart p)).setVerify p {}
  else s

/-- Segment g at a commit. -/
def State.commitSeg (s : State) (g : Nat) : State :=
  if s.segOn g then s
  else
    let s1 := s.cutArriving (16 + g)
    { s1 with pkt := { s1.pkt with plcaFail := s1.pkt.plcaFail.sd false g false } }

/-- Redundancy group r at a commit: another mode or other ports begin with empty memories. -/
def State.commitGroup (o s : State) (r : Nat) : State :=
  if o.redMode r != s.redMode r || o.redA r != s.redA r || o.redB r != s.redB r then s.setGroup r { s.group r with dup := [], nodes := [] } else s

/-- The policers whose configuration changed begin full (R85). -/
def State.commitPolicers (o s : State) : State :=
  let s1 := each (List.range 20) (fun x p => if o.portRate p != x.portRate p then x.setPortPol p {} else x) s
  each (List.range 512) (fun x i => if State.movedAny o x [Reg.CLS_FLOW_POL i 0, Reg.CLS_FLOW_POL i 1] then x.setFlowPol i {} else x) s1

/-- The ports, the parser and the classifier at a commit: a change of geometry clears both tables (R80). -/
def State.commitIngress (o s : State) : State :=
  let s1 := each (List.range 16) (fun x p => State.commitPort o x p) s
  let s2 := each (List.range 4) State.commitSeg s1
  let s3 := each (List.range 8) (fun x r => State.commitGroup o x r) s2
  let s4 := State.commitPolicers o s3
  if clsGeomMoved o s4 then { s4 with ing := { s4.ing with slots := [] }, cfg := { s4.cfg with retCls := [] } } else s4

/-! ## Frame authentication (R94, R96, R100) -/

/-- H and the window of a context go where its ALG or CTR_SRC changes. -/
def State.commitCtx (o s : State) (i : Nat) : State :=
  if (o.autCtx i).alg != (s.autCtx i).alg || (o.autCtx i).ctrSrc != (s.autCtx i).ctrSrc then
    s.setAutCtx i { s.autCtx i with high := none, window := 0 }
  else s

/-- A context's names of the epoch before. -/
def State.keepKeys (o s : State) (i : Nat) : State :=
  s.setAutCtx i { s.autCtx i with prevA := (o.autCtx i).keyA, prevB := (o.autCtx i).keyB }

/-- The contexts that either configuration lists. -/
def ctxIndexes (o s : State) : List Nat := (List.range 4096).filter fun i => (o.aut.ctx.any (·.1 == i)) || (s.aut.ctx.any (·.1 == i))

/-- AUT at a commit. An epoch is applied where the shadow carries its number. -/
def State.commitAut (o s : State) : State :=
  let s1 := each (ctxIndexes o s) (fun x i => State.commitCtx o x i) s
  if o.shadowRecs.any fun r => r.rkind == 1 && r.cls == 2 then
    let s2 := each (ctxIndexes o s1) (fun x i => State.keepKeys o x i) s1
    let s3 := { s2 with aut := { s2.aut with prevActive := true, prevUntil := s2.up + s2.rf Reg.AUT_CFG 31 16 * msU } }
    (s3.setRb Reg.AUT_EPOCH_STATUS 1 true).sqc Reg.AUT_STATUS 6 146
  else s1

/-! ## Sample planes (R118, R133) -/

/-- Whether a stream's clock runs. -/
def State.clockRuns (s : State) (k : Nat) : Bool := (s.aclk (s.stream k).aclk).running

/-- The fields whose change empties a stream's tap history. -/
def tapFields (x : Stream) : List Nat := [x.rate, x.nch, x.layout, x.aclk, x.taps, x.csBase]

/-- A PAUSED stream whose entry, confRev and shape the commit accepts (R133). -/
def resumes (o : State) (x : Stream) (k : Nat) : Bool :=
  (o.shadowRecs.any fun r => r.rkind == 1 && r.cls == 3 && r.target == k) &&
    x.confRev == x.rxConfrev && x.nch == x.rxNch + 1 && x.nch * x.entry == x.rxSeqLen

/-- Stream k at a commit. -/
def State.commitStream (o s : State) (k : Nat) : State :=
  let x := s.stream k
  let old := o.stream k
  if !x.en then (if old.en then (s.setStream k x.empty).setStreamSt k .disabled else s)
  else if !old.en then (if s.clockRuns k then s.runStream k else s.setStreamSt k .waitClock)
  else if x.st = .paused then
    let s1 := if old.aclk != x.aclk then s.startGrid k else s
    (if resumes o x k then ((s1.setStream k (s1.stream k).empty).setStreamSt k .running).sqc Reg.SPE_STATUS 11 161 else s1)
  else
    let s1 := if tapFields old != tapFields x then s.setStream k x.empty else s
    if old.aclk != x.aclk then
      (if s1.clockRuns k then s1.runStream k
       else if x.st = .running then (s1.setStreamSt k .waitClock).sqc Reg.SPE_STATUS 8 170
       else s1)
    else s1

/-- The SPE at a commit. -/
def State.commitSpe (o s : State) : State :=
  each ((List.range 1024).filter fun k => (o.spe.streams.any (·.1 == k)) || (s.spe.streams.any (·.1 == k))) (fun x k => State.commitStream o x k) s

/-! ## Lanes, packet memory, forwarding (R152, R173, R343) -/

/-- Whether the shadow makes a new rule-set epoch (R152): its device part carries lane registers, thread configuration, or program words. The spec
names no record that holds the entry points, so any of these counts. -/
def newEpoch (o : State) : Bool :=
  match o.cfg.dev with
  | some d => d.recs.any fun r => (r.rkind == 0 && ((0xB000 ≤ r.target && r.target < 0xC000) || r.sect == 9)) || r.rkind == 3
  | none => false

/-- The configuration registers of the lanes and their stages. -/
def laneRegs : List Nat := (List.range 4).flatMap fun l => Reg.LAN_CFG l :: (List.range 8).map (Reg.LAN_STG_CFG l)

/-- The rule-set epoch advances: packets stamped with the one before keep its configuration (R152); the oldest epoch's packets are found at their
next stage boundary. -/
def State.commitLanes (o s : State) : State :=
  if newEpoch o then
    let cur := s.rf Reg.LAN_EPOCH 15 0
    let s1 := { s with pkt := { s.pkt with prevLan := laneRegs.foldl (fun m r => m.sd 0 r (o.reg r)) [] } }
    (s1.setReg Reg.LAN_EPOCH (BitVec.ofNat 32 (cur * 65536 + (cur + 1) % 65536))).sqc Reg.LAN_STATUS 4 196
  else s

/-- Reserve minima or free counts that a commit leaves short of each other (R179). -/
def State.commitShort (o s : State) : State := State.noteShort o s

/-- A thread that holds a packet loses it with the packet memory. -/
def State.dropHeld (s : State) : State :=
  each ((s.clu.thr.filter fun p => p.2.packet.isSome).map Prod.fst)
    (fun x k => (x.updThr k fun t => { t with packet := none }).killThread k) s

/-- Pool geometry changes (R173): every frame in packet memory is discarded, every stack rebuilt. A frame that holds no buffer, before its lane or
after it, is not in packet memory and goes on. -/
def State.commitPools (o s : State) : State :=
  if !poolGeomMoved o s then s
  else
    let q := s.pkt
    let s1 := { s.dropHeld with
      pkt := { nextFrame := q.nextFrame, nextCopy := q.nextCopy, lineAt := q.lineAt, pause := q.pause, plcaFail := q.plcaFail, plca := q.plca
               prevLan := q.prevLan
               frames := q.frames.filter fun p => p.2.buf.isNone && (p.2.loc == .ingress || p.2.loc == .gone) } }
    let s2 := each (List.range 22) (fun x e => each (List.range 8) (fun y tc => y.setReg (depthReg e tc) 0) x) s1
    (each (List.range 64) (fun x h => x.setReg (depthReg (64 + h) 0) 0) s2).rebuildPools

/-- The aging sweep restarts at slot 0 where a device part is applied. -/
def State.commitFwd (o s : State) : State :=
  if o.cfg.dev.isSome then ({ s with och := { s.och with sweepAt := s.up } }).setRf Reg.FWD_SWEEP 15 0 0 else s

/-! ## DRAM rings, history, tags, pair link (R425, R447, R449, R462) -/

/-- A ring that is switched on, as its key, its first byte and the byte after its last. -/
def State.ringSpan (s : State) (r : Ring) (bytes : Nat) : Nat × Nat × Nat := (r.key, s.ringBase r, s.ringBase r + 2 ^ r.size * bytes)

/-- The capture, trace and SOE rings that are switched on. -/
def State.ringsOn (s : State) : List (Nat × Nat × Nat) :=
  (((List.range 8).filter fun c => s.rb (Reg.SWC_CAP_CFG c) 31).map fun c => s.ringSpan (s.capRing c) 144) ++
  (((List.range 6).filter fun c => s.rb (Reg.CLU_DSP_CFG c) 31).map fun c => s.ringSpan (s.traceRing c) 16) ++
  (if s.rb Reg.FIO_SOE_CFG 31 then [s.ringSpan s.soeRing 16] else [])

/-- Whether a ring lies wholly inside RING and overlaps no other (R447). -/
def ringPlaced (lo hi : Nat) (all : List (Nat × Nat × Nat)) (x : Nat × Nat × Nat) : Bool :=
  lo ≤ x.2.1 && x.2.2 ≤ hi && all.all fun y => y.1 == x.1 || x.2.2 ≤ y.2.1 || y.2.2 ≤ x.2.1

/-- The rings judged at a commit that applies a device part: those badly placed are disabled, with EV314. -/
def State.commitRings (o s : State) : State :=
  if o.cfg.dev.isNone then s
  else
    let all := s.ringsOn
    let bad := all.filter fun x => !(ringPlaced (s.regionBase 0) (s.regionBase 0 + s.regionSize 0) all x)
    let off_ := (((s.ddr.ringOff.filter fun p => 23 ≤ p.1)) : SMap Bool)
    let s1 := { s with ddr := { s.ddr with ringOff := bad.foldl (fun m x => m.sd false x.1 true) off_ } }
    each bad (fun x _ => (x.inc Reg.REC_RING_OFF).sqc Reg.REC_STATUS 0 314) s1

/-- A history ring that moves, or one that is switched on, holds nothing yet. -/
def State.commitHistory (o s : State) : State :=
  let s1 := if o.regionBase 1 != s.regionBase 1 || o.histLen != s.histLen then { s with ddr := { s.ddr with histLo := [], histHi := [] } } else s
  let fresh := (List.range 256).flatMap fun w => if o.moved s (Reg.REC_HIST_MAP w) then
      ((List.range 32).filter fun i => o.rb (Reg.REC_HIST_MAP w) i != s.rb (Reg.REC_HIST_MAP w) i).map (32 * w + ·) else []
  { s1 with ddr := { s1.ddr with histLo := fresh.foldl (fun m cs => m.sd 0 cs 0) s1.ddr.histLo, histHi := fresh.foldl (fun m cs => m.sd 0 cs 0) s1.ddr.histHi } }

/-- Tagging that a commit enables seeds each port's LFSR (R462). -/
def State.commitTags (o s : State) : State :=
  if s.rb Reg.PMU_TAG_CFG 31 && !o.rb Reg.PMU_TAG_CFG 31 then
    { s with dbg := { s.dbg with
      lfsr := (List.range 32).foldl (fun m p => m.sd 0 p (s.reg Reg.PMU_TAG_SEED ^^^ BitVec.ofNat 32 p)) [] } }
  else s

/-- The pair link at a commit: clearing EN takes it DOWN; the match bits follow this device's own values. -/
def State.commitPair (s : State) : State := if s.pairEn then s.train.judgeMatch else s.pairDown

/-- Every block outside the clusters and Vermilion, in the order of R343. -/
def State.commitFabric (o s : State) : State :=
  let s1 := State.commitIngress o (State.commitIndigo o s)
  let s2 := State.commitSpe o (State.commitAut o s1)
  let s3 := State.commitFwd o (State.commitShort o (State.commitPools o (State.commitLanes o s2)))
  (State.commitTags o (State.commitHistory o (State.commitRings o s3))).commitPair

end Sys2Proof.Machine
end

