-- ==== Sys2Proof/Machine/CommitClu.lean ====
section
/-!
DEFINITION. What the clusters do at the commit strobe (R194, R210, R277, R283, R292, R343, R351): tasks, threads, channels, locks, SRAM, retirement;
and partitions whose runs are killed (R347-R349). `o` is the state before the commit.
-/

namespace Sys2Proof.Machine

/-! ## Partitions and tiles -/

/-- A partition takes a state: each change raises EV293 (R344). -/
def State.setPartSt (s : State) (p st : Nat) : State :=
  if (s.part p).st = st then s else (s.setPart p { s.part p with st := st }).sqc Reg.CFG_STATUS 5 293

/-- Whether partition p is live: RUNNING or DRAINING (R344). -/
def State.partLive (s : State) (p : Nat) : Bool := (s.part p).st == 4 || (s.part p).st == 5

/-- Whether thread k may run: it is enabled, its tile works, its partition is live, its cluster is not in reset (R195, R350, R482). -/
def State.thrLive (s : State) (k : Nat) : Bool :=
  s.thrEn k && (s.tileState (k / 32) == 0 || s.tileState (k / 32) == 2) && s.partLive (s.thrPart k) &&
    !s.clu.resetting.gd false (k / 128)

/-! ## Tasks (R277) -/

/-- The fields whose change ends a run and zeroes the saved context. -/
def Task.shape (t : Task) : List Nat :=
  [if t.en then 1 else 0, t.part, if tbit t.w0 30 then 1 else 0, t.entry, fld t.w1 31 16, fld t.w0 13 12]

/-- A saved context of zeros. -/
def Task.forget (t : Task) : Task := { t with ctx := {}, dpSaved := [], endCtx := {}, endDp := [], usedMax := 0 }

/-- Whether task n may have runs. -/
def State.taskLive (s : State) (n : Nat) : Bool := (s.task n).en && s.partLive (s.task n).part

/-- A task that is switched off: its run ends forced, PEND and RETR_PEND are discarded. -/
def State.disableTask (s : State) (n : Nat) : State :=
  if (s.task n).st = .disabled then s
  else
    let s1 := if (s.task n).inRun then s.forceEnd n 6 else s
    (s1.unready n).updTask n fun t =>
      { t with st := .disabled, pend := false, retrPend := false, pendCauses := 0, pendAux := 0, inRun := false, wait := none }

/-- Task n at a commit. -/
def State.commitTask (o s : State) (n : Nat) : State :=
  let moved := (o.task n).shape != (s.task n).shape
  let s1 := if moved && (s.task n).inRun then s.forceEnd n 6 else s
  let s2 := if moved then s1.updTask n Task.forget else s1
  if !s2.taskLive n then s2.disableTask n
  else if (s2.task n).st = .disabled then s2.updTask n fun t => { t with st := .dormant }
  else if (s2.task n).st = .ready && (o.task n).prio != (s2.task n).prio then (s2.unready n).readyTail n
  else s2

/-- The tasks that either state lists. -/
def taskIndexes (o s : State) : List Nat :=
  s.clu.tasks.map Prod.fst ++ ((o.clu.tasks.map Prod.fst).filter fun n => !(s.clu.tasks.any (·.1 == n)))

/-! ## Threads (R194, R277, R292) -/

/-- What a thread was doing ends: the task it runs ends forced, a bound thread's packet is dropped, its commands are squashed. -/
def State.stopThread (s : State) (k : Nat) : State :=
  match (s.thr k).task with
  | some i => s.forceEnd (1024 * (k / 128) + i) 6
  | none =>
    let s1 := (((s.squash k).leaveQueues (.thread k)).abortFilling (.thread k)).loseHolder (.thread k)
    (s1.updThr k fun t => { t with pend := [], sb := [], wait := none, fetched := none, stall := none, overrun := false, stepping := false }).releasePkt k 2 0 0

/-- A thread that is switched on: IDLE with a coprocessor bank of zeros, the supervisor at its ENTRY. -/
def State.beginThread (s : State) (k : Nat) : State :=
  let s1 := s.updThr k fun t =>
    { t with st := .idle, priv := if s.thrBound k then .k else .u, idleAt := s.up, wait := none, fetched := none, stall := none
             ctx := { t.ctx with c := Vector.replicate 8 {} } }
  if isSup k then s1.startSup (k / 128) else s1

/-- The role and the binding of a thread: every field of its configuration but SLOT_N. -/
def State.thrRole (s : State) (k : Nat) : Word := putFld (s.reg (thrCfgReg k)) 28 24 0

/-- Thread k at a commit. -/
def State.commitThread (o s : State) (k : Nat) : State :=
  let on := (s.thr k).st != .off
  if !s.thrLive k then (if on then (s.stopThread k).updThr k fun t => { t with st := .off, task := none, incoming := none, leaving := false } else s)
  else if !on then s.beginThread k
  else if o.thrRole k != s.thrRole k then (s.stopThread k).beginThread k
  else s

/-- Every task and then every thread, after a change of configuration or of a partition's state. -/
def State.judgeRuns (o s : State) : State :=
  let s1 := each (taskIndexes o s) (fun x n => State.commitTask o x n) s
  each (List.range 768) (fun x k => State.commitThread o x k) s1

/-- The supervisors start at ENTRY when a device part that sets it is applied (R194). -/
def State.commitSups (o s : State) : State :=
  match o.cfg.dev with
  | none => s
  | some d => each ((List.range 6).filter fun c =>
      s.thrLive (128 * c) && d.recs.any fun r => r.rkind == 0 && r.target ≤ Reg.CLU_SUP_CFG c && Reg.CLU_SUP_CFG c < r.target + 4 * r.words.length)
      (fun x c => if (o.thr (128 * c)).st = .off then x else x.killThread (128 * c)) s

/-! ## Channels and locks (R210, R292) -/

/-- A channel that the commit changes or disables loses its message. -/
def State.commitChan2 (o s : State) (k : Nat) : State :=
  if o.moved s (chanCfgReg k) && (s.chan k).st != .empty then s.abortChan k else s

/-- A lock whose PART_MASK loses partitions: their waits complete with DENIED. -/
def State.commitLock (o s : State) (glob : Bool) (k : Nat) : State :=
  let gone := (s.lock glob k).queue.filter fun a => tbit (o.lockMask glob k) (s.agentPart a) && !tbit (s.lockMask glob k) (s.agentPart a)
  each gone (fun x a => (x.setLock glob k { x.lock glob k with queue := (x.lock glob k).queue.erase a }).finishWait a 10 {}) s

/-- The locks at a commit. -/
def State.commitLocks (o s : State) : State :=
  let s1 := each (s.clu.llocks.map Prod.fst) (fun x k => State.commitLock o x false k) s
  each (s1.clu.glocks.map Prod.fst) (fun x k => State.commitLock o x true k) s1

/-! ## SRAM (R283) -/

/-- The partition that owns a KiB of cluster c's SRAM. -/
def State.kibOwner (s : State) (c kib : Nat) : Option Nat :=
  ((List.range 16).find? fun r => s.rgnOn c r && s.rgnBase c r ≤ kib && kib < s.rgnEnd c r).map (s.rgnPart c)

/-- Whether a byte of SRAM (2^21 c + address) has a new owner. -/
def newOwner (o s : State) (b : Nat) : Bool :=
  let c := b / 2097152
  let kib := b % 2097152 / 1024
  (s.kibOwner c kib).isSome && s.kibOwner c kib != o.kibOwner c kib

/-- A DATA record written to SRAM (R324, R339). -/
def State.putData (s : State) (r : Rec) : State :=
  s.sramWrite { cl := r.target / 536870912, addr := r.target % 2097152, bytes := wordsBytes r.words }

/-- SRAM at a commit: what has a new owner reads as zero, but for the initialisers that the commit brings. -/
def State.commitSram (o s : State) : State :=
  let s1 := { s with clu := { s.clu with
    sram := s.clu.sram.filter fun p => !newOwner o s p.1
    sramBad := s.clu.sramBad.filter fun p => !newOwner o s (8 * p.1) } }
  each (o.shadowRecs.filter (·.rkind == 4)) State.putData s1

/-! ## Program memory (R339) -/

/-- The program words of a PROG record with their addresses (2^16 j + address): two words a record word. -/
def progWords (r : Rec) : List (Nat × PWord) :=
  ((List.range r.words.length).flatMap fun i =>
    [(2 * i, BitVec.ofNat 14 (fld (wordAt r.words i) 13 0)), (2 * i + 1, BitVec.ofNat 14 (fld (wordAt r.words i) 29 16))]).map fun p =>
      (r.target / 65536 * 65536 + (r.target + p.1) % 65536, p.2)

/-- The preload of the shadow (R339): its program words and its SRAM initialisers. -/
def State.preload (s : State) : State :=
  let s1 := each (s.shadowRecs.filter (·.rkind == 3)) (fun x r => each (progWords r) (fun y (p : Nat × PWord) => y.pmemSet (p.1 / 65536) (p.1 % 65536) p.2) x) s
  each (s.shadowRecs.filter (·.rkind == 4)) State.putData s1

/-- The retained copy takes the shadow's program words. -/
def State.retainProg (o s : State) : State :=
  { s with cfg := { s.cfg with
    prog := (o.shadowRecs.filter (·.rkind == 3)).foldl (fun m r => (progWords r).foldl (fun n p => n.sd 0 p.1 p.2) m) s.cfg.prog } }

/-! ## Retirement (R351) -/

/-- The registers of tile j that a spare takes over: its regions, its CPX enables, the configuration of its 32 threads. -/
def tileRegs (j : Nat) : List Nat :=
  (List.range 4).map (fun v => Reg.CLU_PMEM_RGN (j / 4) (j % 4) v) ++ [Reg.CPX_CFG j] ++ (List.range 32).map fun t => thrCfgReg (32 * j + t)

/-- The words of tile j in a store of program words, as words of tile k. -/
def moveTile (m : SMap PWord) (j k : Nat) : SMap PWord :=
  (m.filter fun p => p.1 / 65536 == j).foldl (fun (n : SMap PWord) (p : Nat × PWord) => n.sd 0 (65536 * k + p.1 % 65536) p.2) (m.filter fun p => p.1 / 65536 != k)

/-- The registers, the tile map and the program memory of a retirement of tile j to its spare. -/
def State.retireTile (s : State) (j : Nat) : State :=
  let k := s.tileSpare j
  if 24 ≤ k || s.tileState k != 1 then s
  else
    let s1 := each (List.range 37) (fun x i => x.setReg ((tileRegs k).getD i 0) (x.reg ((tileRegs j).getD i 0))) s
    let s2 := (((s1.setRf (Reg.CFG_TILE k) 23 20 (s.tilePart j)).setRf (Reg.CFG_TILE k) 31 29 0).setRf (Reg.CFG_TILE j) 31 29 3)
    let prog := moveTile s.cfg.prog j k
    let s3 := { s2 with
      cfg := { s2.cfg with prog := prog }
      clu := { s2.clu with
        pmem := (prog.filter fun (p : Nat × PWord) => p.1 / 65536 == k).foldl (fun (n : SMap PWord) (p : Nat × PWord) => n.sd 0 p.1 p.2) (s2.clu.pmem.filter fun p => p.1 / 65536 != k)
        pmemBad := s2.clu.pmemBad.filter fun p => p.1 / 65536 != k } }
    s3.sqc Reg.CFG_STATUS 9 297

/-- Whether a tile has a spare to retire to. -/
def State.retirable (s : State) (j : Nat) : Bool := j % 4 != 0 && s.tileSpare j < 24 && s.tileState (s.tileSpare j) == 1

/-- Staged retirements in the order they were staged (R351), each that still can take place: the state, and the tiles retired. -/
def State.retireAll (s : State) : List Nat → State × List Nat
  | [] => (s, [])
  | j :: js =>
    if s.retirable j then
      let r := (s.retireTile j).retireAll js
      (r.1, j :: r.2)
    else s.retireAll js

/-- The cores of tile k stand for those of j in a CORE_MASK. -/
def aliasMask (m j k : Nat) : Nat :=
  (BitVec.ofNat 16 (m - m / 2 ^ (4 * (j % 4)) % 16 * 2 ^ (4 * (j % 4))) ||| BitVec.ofNat 16 (m / 2 ^ (4 * (j % 4)) % 16 * 2 ^ (4 * (k % 4)))).toNat

/-- The CORE_MASKs of the cluster of a retired tile, once the runs on it have been killed. -/
def State.aliasTasks (s : State) (j : Nat) : State :=
  let k := s.tileSpare j
  each (s.tasksOf (j / 4)) (fun x n => x.updTask n fun t => { t with w1 := putFld t.w1 31 16 (aliasMask (fld t.w1 31 16) j k) }) s

/-! ## The clusters at a commit -/

/-- Tasks with USED_MAX begun anew (R280), threads, channels, locks and SRAM; `js` are the tiles that the commit retires. -/
def State.commitClusters (o s : State) (js : List Nat) : State :=
  let s0 := State.judgeRuns o s
  let s1 := State.commitSups o { s0 with clu := { s0.clu with tasks := s0.clu.tasks.map fun p => (p.1, { p.2 with usedMax := 0 }) } }
  let s2 := each js State.aliasTasks s1
  let s3 := each (s2.clu.chans.map Prod.fst) (fun x k => State.commitChan2 o x k) s2
  State.commitSram o (State.commitLocks o s3)

/-! ## Partitions that stop (R348, R349) -/

/-- The runs of a partition are killed and its threads go OFF with its new state. -/
def State.stopPart (s : State) (p st : Nat) : State := State.judgeRuns s (s.setPartSt p st)

/-- RUNNING to FAULTED (R348, EV294). -/
def State.faultPart (s : State) (p : Nat) : State :=
  if (s.part p).st = 4 then (s.stopPart p 6).sqc Reg.CFG_STATUS 6 294 else s

/-- A retirement staged (R351, R357). -/
def State.stageRetire (s : State) (j : Nat) : State :=
  if s.cfg.retires.contains j then s else { s with cfg := { s.cfg with retires := s.cfg.retires ++ [j] } }

/-- A FAILING tile that cannot be retired (R351): its partition becomes FAULTED, or for P0 the device requests SAFE. -/
def State.loseTile (s : State) (j : Nat) : State := if s.tilePart j = 0 || j % 4 == 0 then s.goSafe 4 else s.faultPart (s.tilePart j)

/-- An IN_SERVICE tile becomes FAILING (R351, EV296): retired where it can be, else its partition becomes FAULTED, or for P0 the device
requests SAFE. -/
def State.failTile (s : State) (j : Nat) : State :=
  if s.tileState j != 0 then s
  else
    let s1 := (s.setRf (Reg.CFG_TILE j) 31 29 2).sqc Reg.CFG_STATUS 8 296
    if s.retirable j then (if s.rb Reg.CFG_CTRL 31 then s1.stageRetire j else s1)
    else s1.loseTile j

end Sys2Proof.Machine
end

