-- ==== Sys2Proof/Machine/Commit.lean ====
section
/-!
DEFINITION. The commit strobe (R49, R333, R342-R347, R356, R357): what is applied, the order in which the blocks take it, and what stands afterwards.
-/

namespace Sys2Proof.Machine

/-! ## The shadow's states as they show (R333, R344) -/

/-- The code of the shadow's state. -/
def shadowCode : ShadowSt → Nat
  | .none => 0 | .staged => 1 | .checked => 2 | .armed => 3

/-- A partition that is not live and was EMPTY goes with the shadow part it has (R340, R344). -/
def State.syncPart (s : State) (p : Nat) : State :=
  if (s.part p).st ≤ 3 && p != 0 then s.setPartSt p (if (s.partSh p).isSome then shadowCode s.cfg.shadow else 0) else s

/-- Every partition's state follows the shadow. -/
def State.syncParts (s : State) : State := each ((List.range 15).map (· + 1)) State.syncPart s

/-- The shadow takes a state. -/
def State.setShadow (s : State) (x : ShadowSt) : State := ({ s with cfg := { s.cfg with shadow := x } }).syncParts

/-- Whether the shadow holds nothing. -/
def State.shadowEmpty (s : State) : Bool :=
  s.cfg.dev.isNone && s.cfg.epoch.isNone && s.cfg.removes.isEmpty && (List.range 15).all fun i => (s.partSh (i + 1)).isNone

/-! ## Requests (R356) -/

/-- The EN of unit (class, index), or its MODE, overridden by a request. -/
def State.overrideUnit (s : State) (cls idx r : Nat) : State :=
  let on := r == 1
  let mode := fun (off hi lo : Nat) =>
    let u := s.unitReq (8192 * cls + idx)
    let m := s.rf off hi lo
    if on then (if m = 0 then s.setRf off hi lo u.saved else s)
    else (s.setUnitReq (8192 * cls + idx) { u with saved := if m = 0 then u.saved else m }).setRf off hi lo 0
  match cls with
  | 2 => if idx < 16 then mode (Reg.ETH_PORT_CFG idx) 31 29 else if idx < 20 then s.setRb (Reg.T1S_SEG_CFG (idx - 16)) 31 on else s
  | 3 => s.setRb (Reg.IND_ACLK_CFG idx) 31 on
  | 4 => s.setStream idx { s.stream idx with w := setAt (s.stream idx).w 0 (putBit (wordAt (s.stream idx).w 0) 31 on) }
  | 5 => mode (Reg.VRM_CH_CFG idx) 31 29
  | 6 => s.setRb (Reg.FIO_OUT_CFG idx) 31 on
  | 7 => s.setPcb idx { s.pcb idx with w0 := putBit (s.pcb idx).w0 31 on }
  | _ => s

/-- A pending request applied. -/
def State.applyRequest (s : State) (k : Nat) : State :=
  match (s.unitReq k).pendReq with
  | some r =>
    let s1 := s.overrideUnit (k / 8192) (k % 8192) r
    s1.setUnitReq k { s1.unitReq k with pendReq := none }
  | none => s

/-- Every pending request applied. -/
def State.applyRequests (s : State) : State := each (s.cfg.units.map Prod.fst) State.applyRequest s

/-! ## Partitions (R344, R345, R347) -/

/-- Partition p runs from the strobe: its grant ends (R395), its requested state is RUNNING (R356). A partition that drains or is QUARANTINED keeps its
state (R344). -/
def State.runPart (s : State) (p : Nat) : State :=
  let st := (s.part p).st
  let s1 := (if st = 5 ∨ st = 7 then s else s.setPartSt p 4).endGrant p
  let s2 := s1.setGrant p { s1.grant p with sinceCommit := false }
  s2.setUnitReq p { s2.unitReq p with req := 1 }

/-- Partition p drains from the strobe (R347): its tasks receive no wakes, and what has not begun to run is dropped. -/
def State.drainPart (s : State) (p : Nat) : State :=
  if (s.part p).st != 4 then s
  else
    let s1 := s.setPartSt p 5
    let s2 := (s1.setPart p { s1.part p with drainAt := s.up }).setUnitReq p { s1.unitReq p with req := 0 }
    each ((s2.clu.tasks.filter fun q => q.2.part == p).map Prod.fst) (fun x n =>
      let y := x.updTask n fun t => { t with pend := false, retrPend := false, pendCauses := 0, pendAux := 0 }
      if (y.task n).st = .ready && !(y.task n).inRun then (y.unready n).updTask n fun t => { t with st := .dormant } else y) s2

/-- The partitions that the shadow changes (R344); P0 runs from the first commit in CONFIG. -/
def State.commitParts (o s : State) : State :=
  let s1 := each o.partsApplied State.runPart s
  let s2 := each o.cfg.removes State.drainPart s1
  if o.pwr.st == .config || (o.cfg.dev.isSome && (s2.part 0).st == 4) then s2.runPart 0 else s2

/-! ## What stands after the strobe (R80, R189, R343) -/

/-- The static MAC entries of the shadow's ENTRY records. -/
def macEntries (o : State) : List MacSlot :=
  (o.shadowRecs.filter fun r => r.rkind == 2 && r.target / 1073741824 == 2).flatMap fun r =>
    (List.range (r.words.length / 4)).map fun i =>
      { w0 := wordAt r.words (4 * i), w1 := wordAt r.words (4 * i + 1), w2 := wordAt r.words (4 * i + 2), w3 := wordAt r.words (4 * i + 3) }

/-- The ENTRY records, in record order. -/
def State.commitEntries (o s : State) : State :=
  let s1 := each o.shadowEntries (fun x e => x.clsApply e.1 e.2.1 e.2.2) s
  each (macEntries o) (fun x m => x.fwdApply m) s1

/-- The measurement and version that an applied part leaves. -/
def State.measurePart (s : State) (p : ImgPart) : State :=
  let ws := natWords 8 p.meas.toNat
  match p.kind with
  | 0 => (each (List.range 8) (fun x w => x.setReg (Reg.CFG_DEV_MEAS w) (wordAt ws w)) s).setReg Reg.CFG_DEV_VER (BitVec.ofNat 32 p.version)
  | 1 => (each (List.range 8) (fun x w => x.setReg (Reg.CFG_PART_MEAS p.part w) (wordAt ws w)) s).setReg (Reg.CFG_PART_VER p.part)
      (BitVec.ofNat 32 p.version)
  | _ => { s with cfg := { s.cfg with epochVersion := p.version } }

/-- The shadow's parts become the effective configuration, and the shadow is empty. -/
def State.retainShadow (o s : State) : State :=
  let s1 := State.retainProg o (each o.shadowImgs State.measurePart s)
  ({ s1 with cfg := { s1.cfg with dev := none, epoch := none, parts := [], removes := [], preloaded := false } }).setShadow .none

/-- IND_COMMIT_LAST, IND_COMMIT_COUNT and IND_COMMIT_STATUS at a firing (R49). -/
def State.noteCommit (s : State) (a : ArmedInstant) : State :=
  let s1 := each (List.range 3) (fun x w => x.setReg (Reg.IND_COMMIT_LAST w) (timeWord s.time w)) s
  let s2 := ((s1.inc Reg.IND_COMMIT_COUNT).setRf Reg.IND_COMMIT_STATUS 2 0 (fireCode a)).sqcEach Reg.IND_COMMIT_STATUS 7 43
  if a.late then s2.deliver 42 else s2

/-! ## The strobe -/

/-- Whether the commit applies the shadow: someone has armed it, not the device for its requests. -/
def State.appliesShadow (s : State) : Bool :=
  match s.cfg.armBy with
  | some .device => false
  | some _ => true
  | none => false

/-- The tiles of program words that the commit due now writes (R242): those of the shadow's PROG records. -/
def State.commitWrites (s : State) : List Nat :=
  if s.appliesShadow then (s.shadowRecs.filter (·.rkind == 3)).map fun r => r.target / 65536 else []

/-- Whether a commit strobe that writes the program memory of tile j falls in this tick (R242): one that is due, or one that has struck. -/
def State.pmwLost (s : State) (j : Nat) : Bool :=
  (s.commitDue && (s.commitWrites ++ s.cfg.retires.map s.tileSpare).contains j) || (s.cfg.wroteAt == s.up && s.cfg.wrote.contains j)

/-- A tile whose last self-test failed becomes FAILING where the commit puts it in service. -/
def State.commitBist (o s : State) (j : Nat) : State :=
  if s.tileState j == 0 && o.tileState j != 0 && s.rb (Reg.CFG_TILE j) 19 then s.failTile j else s

/-- Every block takes its new configuration. -/
def State.applyAll (o n : State) (js : List Nat) : State :=
  let s1 := State.commitClusters o (State.commitFabric o n) js
  State.commitVoter o s1

/-- The commit of the instant a. -/
def State.commitNow (s : State) (a : ArmedInstant) : State :=
  let ap := s.appliesShadow
  let o := if ap && !s.cfg.preloaded then s.preload else s
  let r := ((if ap then o.produced else o).applyRequests).retireAll o.cfg.retires
  let n1 := r.1
  let js := r.2
  let n2 := if ap then State.commitParts o n1 else n1
  let n3 := State.applyAll (if ap then o else { o with cfg := { o.cfg with dev := none, epoch := none, parts := [], removes := [] } }) n2 js
  let n4 := if ap then State.retainShadow o (State.commitEntries o n3)
    else if n3.cfg.shadow = .checked then n3.setShadow .staged else n3
  let n5 := { n4 with
    cfg := { n4.cfg with armBy := none, retires := [], wroteAt := s.up, wrote := s.commitWrites ++ js.map s.tileSpare }
    ind := { n4.ind with commit := none }
    vrm := { n4.vrm with pcbs := n4.vrm.pcbs.map fun (q : Nat × Pcb) => (q.1, { q.2 with lostAt := q.2.lost }) } }
  let n6 := ((n5.setRb Reg.CFG_ARM_STATUS 31 false).inc Reg.CFG_COMMITS).sqc Reg.CFG_STATUS 4 292
  let n7 := each (o.cfg.retires.filter fun j => !js.contains j && n6.tileState j == 2) State.loseTile n6
  (each (List.range 24) (fun x j => State.commitBist o x j) n7).noteCommit a

/-- COMMIT_STROBE (R49): the first of the strobes of its tick (R50). -/
def execCommitStrobe (s : State) : Host.Outcome State Fault Refusal :=
  done s (
    match s.ind.commit with
    | some a => if s.instReached a then s.commitNow a else s
    | none => s)

end Sys2Proof.Machine
end

