-- ==== Sys2Proof/Machine/ConfigCmd.lean ====
section
/-!
DEFINITION. The commands that manage configuration (R333-R341, R349-R351, R356): images into the shadow, the checker, arming, requests, tiles,
partitions; and what the configuration block does by itself: preload, drain, scrubbing, automatic commits, unit mismatches (R339, R347,
R352-R358).
-/

namespace Sys2Proof.Machine

/-! ## Who may, and when (R334) -/

/-- The result codes that every block shares. -/
def codeDenied : Nat := 5
def codeIndex : Nat := 6
def codeReject : Nat := 7

/-- The device states of the image commands, and of arming. -/
def imgStates : List DevState := [.config, .test, .service, .recovery]
def armStates : List DevState := [.config, .test, .service]
def liveStates : List DevState := [.config, .test, .service, .recovery, .safe]

/-- Whether the boot engine runs (R489). -/
def State.bootRuns (s : State) : Bool := s.pwr.engine.phase != .idle

/-- Whether a commit is armed or about to be, its preload under way (R333, R339). -/
def State.arming (s : State) : Bool := s.cfg.armBy.isSome && s.appliesShadow

/-- Whether the shadow holds only what concerns partition p. -/
def State.shadowOnly (s : State) (p : Nat) : Bool :=
  s.cfg.dev.isNone && s.cfg.epoch.isNone && s.cfg.removes.all (· == p) &&
    (List.range 15).all fun i => i + 1 == p || (s.partSh (i + 1)).isNone

/-- The role in which an actor arms: 0 ADMIN, p OWNER of the one partition that the shadow concerns. -/
def State.armRoleOf (s : State) (a : Actor) : Nat :=
  if s.actAdmin a then 0 else (((List.range 15).map (· + 1)).find? fun p => s.actOwns a p && s.shadowOnly p).getD 0

/-- Whether an actor may check and arm the shadow: ADMIN, or OWNER of the one partition that it concerns. -/
def State.mayArm (s : State) (a : Actor) : Bool :=
  s.actAdmin a || ((List.range 15).any fun i => s.actOwns a (i + 1) && s.shadowOnly (i + 1))

/-- A command of port n in execution: refused for its role or the device state, else its effect; a result answers it now, none leaves it in
execution until its DONE row. -/
def State.manage (s : State) (n code : Nat) (allowed : Actor → MgtFrame → State → Bool) (states : List DevState)
    (act : Actor → MgtFrame → State → Option Nat × State) : State :=
  s.onCmd n [code] fun f x =>
    if !allowed (.port n) f x then x.respond n codeDenied []
    else if !states.contains x.pwr.st then x.respond n codeReject []
    else
      match act (.port n) f x with
      | (some r, y) => y.respond n r []
      | (none, y) => y

/-- ADMIN alone; ADMIN, or OWNER of the partition that the frame names. -/
def adminOnly (a : Actor) (_ : MgtFrame) (s : State) : Bool := s.actAdmin a
def adminOrPart (a : Actor) (f : MgtFrame) (s : State) : Bool := s.actAdmin a || s.actOwns a f.part

/-! ## Images (R331, R332, R334) -/

/-- IMG_BEGIN: an empty staging buffer. -/
def State.imgBegin (s : State) (a : Actor) : State := { s with cfg := { s.cfg with staging := some { by_ := a, bytes := [] } } }

/-- IMG_DATA: bytes for the buffer that the same actor began. -/
def State.imgData (s : State) (a : Actor) (bs : List Byte) : Nat × State :=
  match s.cfg.staging with
  | some g => if g.by_ = a then (0, { s with cfg := { s.cfg with staging := some { g with bytes := g.bytes ++ bs } } }) else (codeReject, s)
  | none => (codeReject, s)

/-- IMG_END: the buffer goes into verification. Without ADMIN authority it must hold an image of a partition that the actor owns. -/
def State.imgEnd (s : State) (a : Actor) : Option Nat × State :=
  if s.cfg.verifying.isSome then (some busyCode, s)
  else if s.arming then (some codeReject, s)
  else
    match s.cfg.staging with
    | some g =>
      if g.by_ ≠ a then (some codeReject, s)
      else if !s.actAdmin a && !(imgKind g.bytes == 1 && s.actOwns a (imgPart g.bytes)) then (some codeDenied, s)
      else (none, { s.setRb Reg.CFG_IMG_STATUS 31 true with cfg := { s.cfg with staging := none, verifying := some g } })
    | none => (some codeReject, s)

/-- IMG_BEGIN (R334); without DRAM it is rejected (R446). -/
def execImgBegin (port : Fin 6) (s : State) : Host.Outcome State Fault Refusal :=
  done s (s.manage port.val 0x20 adminOrPart imgStates fun a _ x => 
    if x.bootRuns then (some busyCode, x) else if x.rf Reg.DDR_STATUS 1 0 ≠ 2 then (some codeReject, x) else (some 0, x.imgBegin a))

/-- IMG_DATA (R334). -/
def execImgData (port : Fin 6) (s : State) : Host.Outcome State Fault Refusal :=
  done s (s.manage port.val 0x21 adminOrPart imgStates fun a f x => let r := x.imgData a f.payload; (some r.1, r.2))

/-- IMG_END (R334). -/
def execImgEnd (port : Fin 6) (s : State) : Host.Outcome State Fault Refusal :=
  done s (s.manage port.val 0x22 adminOrPart imgStates fun a _ x => x.imgEnd a)

/-- An accepted image takes the place of the part of its kind (R332); a new part of p stands instead of p's removal. -/
def State.mergeImg (s : State) (p : ImgPart) : State :=
  let s1 := match p.kind with
    | 0 => { s with cfg := { s.cfg with dev := some p } }
    | 1 => (let x := s.setPartSh p.part (some p); { x with cfg := { x.cfg with removes := x.cfg.removes.erase p.part } })
    | _ => { s with cfg := { s.cfg with epoch := some p } }
  s1.setShadow .staged

/-- The end of a verification (R331): its result, and the state. -/
def State.verifyEnd (s : State) (g : Staging) : Nat × State :=
  let r := imgVerify (s.imgCtx g.bytes) g.bytes
  let s1 := { s.setReg Reg.CFG_IMG_STATUS (BitVec.ofNat 32 r.1) with cfg := { s.cfg with verifying := none } }
  (r.1, if r.1 = 0 then s1.mergeImg (imgShadow g.bytes r.2) else (s1.sqc Reg.CFG_STATUS 0 288).inc Reg.SAB_IMG_REFUSED)

/-- IMG_VERIFY_DONE (R331). -/
def execImgVerifyDone (s : State) : Host.Outcome State Fault Refusal :=
  done s (
    match s.cfg.verifying with
    | some g => let r := s.verifyEnd g; r.2.answer g.by_ r.1 []
    | none => s)

/-- The shadow after something left it: NONE where nothing remains, else STAGED. -/
def State.afterDiscard (s : State) : State := s.setShadow (if s.shadowEmpty then .none else .staged)

/-- The part, or the removal, that DISCARD names: KIND 0, 1 of partition p, 2. -/
def State.holdsPart (s : State) (kind p : Nat) : Bool :=
  match kind with
  | 0 => s.cfg.dev.isSome
  | 1 => (s.partSh p).isSome || s.cfg.removes.contains p
  | _ => s.cfg.epoch.isSome

/-- A part leaves the shadow. -/
def State.discardPart (s : State) (kind p : Nat) : State :=
  (match kind with
   | 0 => { s with cfg := { s.cfg with dev := none } }
   | 1 => (let x := s.setPartSh p none; { x with cfg := { x.cfg with removes := x.cfg.removes.erase p } })
   | _ => { s with cfg := { s.cfg with epoch := none } }).afterDiscard

/-- Everything leaves the shadow (R391, R489). -/
def State.discardAll (s : State) : State :=
  ({ s with cfg := { s.cfg with dev := none, epoch := none, parts := [], removes := [] } }).setShadow .none

/-- DISCARD (R334). -/
def execDiscard (port : Fin 6) (what : Fin 3) (s : State) : Host.Outcome State Fault Refusal :=
  done s (s.manage port.val 0x23 (fun a f x => x.actAdmin a || (what.val == 1 && x.actOwns a f.part)) imgStates fun _ f x =>
    if x.bootRuns then (some busyCode, x)
    else if x.arming || !x.holdsPart what.val f.part then (some codeReject, x)
    else (some 0, x.discardPart what.val f.part))

/-- REMOVE (R334): only a RUNNING protection partition can be removed; its removal stands instead of a part for it. -/
def execRemove (port : Fin 6) (s : State) : Host.Outcome State Fault Refusal :=
  done s (s.manage port.val 0x24 adminOrPart imgStates fun _ f x =>
    if x.arming || f.part = 0 || 16 ≤ f.part || (x.part f.part).st != 4 then (some codeReject, x)
    else
      let y := x.setPartSh f.part none
      (some 0, ({ y with cfg := { y.cfg with removes := f.part :: y.cfg.removes.erase f.part } }).setShadow .staged))

/-! ## The checker (R335) -/

/-- CHECK begins. -/
def State.checkBegin (s : State) (a : Actor) : Option Nat × State :=
  if s.cfg.checking.isSome then (some busyCode, s)
  else if s.cfg.shadow = .none || s.arming then (some codeReject, s)
  else (none, { s.setRb Reg.CFG_CHK_STATUS 31 true with cfg := { s.cfg with checking := some a } })

/-- The end of CHECK: its result, the first failure's code, and the state. -/
def State.checkEnd (s : State) : Nat × State :=
  let s0 := { s with cfg := { s.cfg with checking := none } }
  if s.cfg.shadow = .none || s.arming then (codeReject, s0.setRb Reg.CFG_CHK_STATUS 31 false)
  else
    let l := sortErrs s0.checkShadow
    let s1 := s0.recordCheck l
    match l with
    | [] => (0, s1.setShadow .checked)
    | e :: _ => (e.result, s1.inc Reg.CFG_CHK_FAIL)

/-- CHECK (R334). -/
def execCheck (port : Fin 6) (s : State) : Host.Outcome State Fault Refusal :=
  done s (s.manage port.val 0x25 (fun a _ x => x.mayArm a) imgStates fun a _ x => if x.bootRuns then (some busyCode, x) else x.checkBegin a)

/-- CHECK_DONE (R335). -/
def execCheckDone (s : State) : Host.Outcome State Fault Refusal :=
  done s (
    match s.cfg.checking with
    | some a => let r := s.checkEnd; r.2.answer a r.1 []
    | none => s)

/-! ## Arming (R337-R341) -/

/-- The clocks that are enabled and whose E or GRID the shadow changes. -/
def State.gridMoves (s : State) : List Nat :=
  let n := s.produced
  (List.range 16).filter fun k => s.aclkOn k && s.rf (Reg.IND_ACLK_CFG k) 26 22 != n.rf (Reg.IND_ACLK_CFG k) 26 22

/-- Whether an instant lies less than 1 ms ahead (R337). -/
def State.tooSoon (s : State) (i : Instant) : Bool :=
  match i with
  | .elapsed _ => false
  | .ptp t => t < s.time + msU
  | .angle n v => (v + 18446744073709551616 - (s.aclk n).value) % 18446744073709551616 < (s.aclk n).freq * 256 / 1000

/-- The result of ARM for a descriptor (R337, R338, R47). -/
def State.armResult (s : State) (d : List Word) : Nat :=
  if descBad d true then 3
  else if (s.gridMoves.any fun k => !(descKind d == 2 && fld (wordAt d 0) 27 24 == k)) then 9
  else if descKind d = 0 then (if s.ind.commit.isSome || s.cfg.armBy.isSome then 4 else if s.pwr.st == .config then 0 else codeReject)
  else
    let r := s.validate d true (s.ind.commit.isSome || s.cfg.armBy.isSome)
    if r = 0 && s.tooSoon (descInstant d) then 8 else r

/-- A refusal of ARM: EV291, and EV044 where Indigo's commit unit refused. -/
def State.armRefused (s : State) (r : Nat) : State :=
  let s1 := (s.setRf Reg.CFG_ARM_STATUS 3 0 r).sqc Reg.CFG_STATUS 3 291
  if r ≤ 4 then (s1.setRf Reg.IND_COMMIT_STATUS 2 0 r).sqc Reg.IND_COMMIT_STATUS 6 44 else s1

/-- ARM by an actor: accepted, it preloads. An instant of KIND 0 is set when preload completes. -/
def State.arm (s : State) (a : Actor) (d : List Word) : Nat × State :=
  if s.clu.resetting.any (·.2) || s.cfg.verifying.isSome || s.cfg.checking.isSome then (busyCode, s)
  else if s.cfg.shadow != .checked then (codeReject, s)
  else
    let r := s.armResult d
    if r = codeReject then (codeReject, s)
    else if r ≠ 0 then (r, s.armRefused r)
    else
      let s1 := each (List.range 4) (fun x w => x.setReg (Reg.IND_COMMIT_DESC w) (wordAt d w)) ((s.setRf Reg.CFG_ARM_STATUS 3 0 0).setRf Reg.IND_COMMIT_STATUS 2 0 0)
      let c := if descKind d = 0 then none else some { inst := descInstant d, period := 0, late := false }
      (0, { s1 with
        ind := { s1.ind with commit := c }
        cfg := { s1.cfg with armBy := some a, armRole := s.armRoleOf a, preloaded := false } })

/-- The 16 bytes of a descriptor as four words (R420). -/
def descOfBytes (bs : List Byte) : List Word := (List.range 4).map fun i => BitVec.ofNat 32 (leAt bs (4 * i) 4)

/-- ARM (R337). -/
def execArm (port : Fin 6) (s : State) : Host.Outcome State Fault Refusal :=
  done s (s.manage port.val 0x26 (fun a _ x => x.mayArm a) armStates fun a f x =>
    if x.bootRuns then (some busyCode, x) else (let r := x.arm a (descOfBytes f.payload); (some r.1, r.2)))

/-- Preload completes (R339): the shadow is ARMED (EV290); a commit of KIND 0 fires 1 µs later (R338). -/
def State.preloadEnd (s : State) : State :=
  let s1 := s.preload
  let c := match s1.ind.commit with | some a => some a | none => some { inst := .elapsed (s1.up + usU), period := 0, late := false }
  let s2 := { s1 with
    ind := { s1.ind with commit := c }
    cfg := { s1.cfg with preloaded := true } }
  ((s2.setShadow .armed).setRb Reg.CFG_ARM_STATUS 31 true).sqc Reg.CFG_STATUS 2 290

/-- PRELOAD_DONE (R339). -/
def execPreloadDone (s : State) : Host.Outcome State Fault Refusal :=
  done s (if s.arming && !s.cfg.preloaded then s.preloadEnd else s)

/-- The armed commit is cancelled (R341): the shadow is CHECKED again. -/
def State.disarm (s : State) : State :=
  let s1 := { s with
    ind := { s.ind with commit := none }
    cfg := { s.cfg with armBy := none, preloaded := false } }
  let s2 := if s.cfg.shadow = .armed then s1.setShadow .checked else s1
  (s2.setRb Reg.CFG_ARM_STATUS 31 false).sqc Reg.CFG_STATUS 3 291

/-- DISARM (R334, R341): ADMIN, or the role that armed. -/
def execDisarm (port : Fin 6) (s : State) : Host.Outcome State Fault Refusal :=
  done s (s.manage port.val 0x27 (fun a _ x => x.actAdmin a || (x.cfg.armBy.isSome && x.cfg.armRole != 0 && x.actOwns a x.cfg.armRole)) armStates fun _ _ x =>
    if x.cfg.armBy.isNone || x.commitDue then (some codeReject, x) else (some 0, x.disarm))

/-! ## Requests and automatic commits (R356, R357) -/

/-- The indexes of a class that REQUEST reaches (R355, R356). -/
def unitCount (cls : Nat) : Nat := match cls with | 2 => 20 | 3 => 16 | 4 => 1024 | 5 => 256 | 6 => 32 | 7 => 512 | _ => 0

/-- REQUEST (R356). -/
def execRequest (port : Fin 6) (cls : BitVec 4) (idx : BitVec 13) (req : BitVec 4) (s : State) : Host.Outcome State Fault Refusal :=
  done s (s.manage port.val 0x28 adminOnly [.test, .service] fun _ _ x =>
    let k := 8192 * cls.toNat + idx.toNat
    if unitCount cls.toNat ≤ idx.toNat || 1 < req.toNat then (some codeIndex, x)
    else (some 0, x.setUnitReq k { x.unitReq k with pendReq := some req.toNat }))

/-- Whether requests or retirements are pending. -/
def State.commitWanted (s : State) : Bool := (s.cfg.units.any fun p => p.2.pendReq.isSome) || !s.cfg.retires.isEmpty

/-- The descriptor of the first cycle boundary of clock n at least 1 ms ahead. -/
def State.cycleDesc (s : State) (n : Nat) : List Word :=
  let v := ceilDiv ((s.aclk n).value + ceilDiv ((s.aclk n).freq * 256) 1000) 4294967296 * 4294967296 % 18446744073709551616
  [BitVec.ofNat 32 (2147483648 + n * 16777216)] ++ natWords 3 v

/-- The descriptor of the first whole millisecond of device time at least 1 ms ahead. -/
def State.msDesc (s : State) : List Word := BitVec.ofNat 32 1073741824 :: timeWords (ceilDiv (s.time + msU) msU * msU)

/-- The first of the two descriptors that Indigo accepts, if it accepts one. -/
def State.autoDesc (s : State) : Option (List Word) :=
  let n := s.rf Reg.CFG_CP 30 27
  if (s.aclk n).running && s.validate (s.cycleDesc n) true false == 0 then some (s.cycleDesc n)
  else if s.validate s.msDesc true false == 0 then some s.msDesc
  else none

/-- The device arms a commit itself (R357); a failed interval raises EV302. -/
def State.autoArm (s : State) : State :=
  match s.autoDesc with
  | some d =>
    let s1 := each (List.range 4) (fun x w => x.setReg (Reg.IND_COMMIT_DESC w) (wordAt d w)) s
    let s2 := { s1 with
      ind := { s1.ind with commit := some { inst := descInstant d, period := 0, late := false } }
      cfg := { s1.cfg with armBy := some .device, autoAt := none } }
    ((s2.setRf Reg.IND_COMMIT_STATUS 2 0 0).setRb Reg.CFG_ARM_STATUS 31 true).sqc Reg.CFG_STATUS 2 290
  | none => ({ s with cfg := { s.cfg with autoAt := some s.up } }).sqc Reg.CFG_STATUS 14 302

/-- AUTO_COMMIT_ARM (R357): with something pending and nothing armed, again every CP ms. -/
def execAutoCommitArm (s : State) : Host.Outcome State Fault Refusal :=
  done s (
    if s.commitWanted && s.ind.commit.isNone && s.cfg.armBy.isNone &&
        (match s.cfg.autoAt with | some t => t + s.rf Reg.CFG_CP 15 0 * msU ≤ s.up | none => true) then s.autoArm
    else s)

/-! ## Tiles (R350, R351) -/

/-- RETIRE (R351): the tile works or is FAILING, and its spare is SPARE. -/
def execRetire (port : Fin 6) (tile : Fin 24) (s : State) : Host.Outcome State Fault Refusal :=
  done s (s.manage port.val 0x29 adminOnly armStates fun _ _ x =>
    if (x.tileState tile.val == 0 || x.tileState tile.val == 2) && x.retirable tile.val then (some 0, x.stageRetire tile.val)
    else (some codeReject, x))

/-- TILE_BIST (R350). -/
def execTileBist (port : Fin 6) (tile : Fin 24) (s : State) : Host.Outcome State Fault Refusal :=
  done s (s.manage port.val 0x2A adminOnly armStates fun _ _ x =>
    let st := x.tileState tile.val
    if x.cfg.bist.contains tile.val then (some busyCode, x)
    else if st == 1 || st == 3 || (x.tilePart tile.val != 0 && (x.part (x.tilePart tile.val)).st == 0) then
      (some 0, { x with cfg := { x.cfg with bist := x.cfg.bist ++ [tile.val] } })
    else (some codeReject, x))

/-- The end of a self-test (R350, R351). -/
def State.bistEnd (s : State) (j : Nat) (fail : Bool) : State :=
  let s1 := ({ s with cfg := { s.cfg with bist := s.cfg.bist.erase j } }).setRb (Reg.CFG_TILE j) 19 fail
  if !fail then s1 else if s.tileState j == 1 then s1.setRf (Reg.CFG_TILE j) 31 29 4 else s1.failTile j

/-- BIST_DONE (R350). -/
def execBistDone (tile : Fin 24) (fail : Bool) (s : State) : Host.Outcome State Fault Refusal :=
  done s (if s.cfg.bist.contains tile.val then s.bistEnd tile.val fail else s)

/-- SPARE_BIST_PERIOD (R350): in SERVICE, every BIST_PERIOD s, every SPARE tile. -/
def execSpareBistPeriod (s : State) : Host.Outcome State Fault Refusal :=
  done s (
    let n := s.rf Reg.CFG_CTRL 15 0
    if s.pwr.st == .service && n != 0 && s.cfg.bistAt + n * secU ≤ s.up then
      { s with cfg := { s.cfg with
        bistAt := s.up
        bist := s.cfg.bist ++ (List.range 24).filter fun j => s.tileState j == 1 && !s.cfg.bist.contains j } }
    else s)

/-! ## Partitions (R347-R349) -/

/-- A partition that becomes EMPTY (R347): its runs end, its tasks and channels are disabled, its lock holders are lost, its SRAM regions
released, its debug grant ends (R395). -/
def State.emptyPart (s : State) (p : Nat) : State :=
  let mine := (s.clu.tasks.filter fun q => q.2.part == p).map Prod.fst
  let s1 := s.stopPart p 0
  let s2 := each mine (fun x n => (x.updTask n fun t => { t with w0 := putBit t.w0 31 false }).loseHolder (.task (n / 1024) (n % 1024))) s1
  let s3 := each ((List.range 384).filter fun k => s2.chanEn k && (s2.chanTx k == p || s2.chanRx k == p)) (fun x k =>
    (if (x.chan k).st != .empty then x.abortChan k else x).setRb (chanCfgReg k) 31 false) s2
  let s4 := each (List.range 96) (fun x i =>
    if x.rgnOn (i / 16) (i % 16) && x.rgnPart (i / 16) (i % 16) == p then x.setRb (Reg.CLU_SRAM_RGN (i / 16) (i % 16)) 31 false else x) s3
  (s4.endGrant p).syncPart p

/-- QUARANTINE (R349). -/
def execQuarantine (port : Fin 6) (s : State) : Host.Outcome State Fault Refusal :=
  done s (s.manage port.val 0x2B adminOrPart liveStates fun _ f x =>
    if f.part = 0 || 16 ≤ f.part || !((x.part f.part).st == 4 || (x.part f.part).st == 6) then (some codeReject, x)
    else (some 0, (x.stopPart f.part 7).sqc Reg.CFG_STATUS 7 295))

/-- The SRAM regions and the program memory of a partition's tiles zeroed (R349). -/
def State.zeroPart (s : State) (p : Nat) : State :=
  let mine := fun (b : Nat) => s.kibOwner (b / 2097152) (b % 2097152 / 1024) == some p
  let tile := fun (a : Nat) => s.tilePart (a / 65536) == p
  { s with
    clu := { s.clu with
      sram := s.clu.sram.filter fun q => !mine q.1
      sramBad := s.clu.sramBad.filter fun q => !mine (8 * q.1)
      pmem := s.clu.pmem.filter fun q => !tile q.1
      pmemBad := s.clu.pmemBad.filter fun q => !tile q.1 }
    cfg := { s.cfg with prog := s.cfg.prog.filter fun q => !tile q.1 } }

/-- CLEAR (R349). -/
def execClear (port : Fin 6) (s : State) : Host.Outcome State Fault Refusal :=
  done s (s.manage port.val 0x2C adminOnly liveStates fun _ f x =>
    if 16 ≤ f.part || !((x.part f.part).st == 6 || (x.part f.part).st == 7) then (some codeReject, x)
    else (some 0, (x.zeroPart f.part).emptyPart f.part))

/-- The tasks of partition p that hold a thread. -/
def State.holdingTasks (s : State) (p : Nat) : List Nat :=
  (s.clu.tasks.filter fun q => q.2.part == p && q.2.st == .running).map Prod.fst

/-- DRAIN_TIMEOUT (R347): a run that still holds a thread DRAIN_MAX µs after the removal is killed (EV301). -/
def execDrainTimeout (p : Fin 16) (s : State) : Host.Outcome State Fault Refusal :=
  done s (
    if (s.part p.val).st == 5 && (s.part p.val).drainAt + s.rf (Reg.CFG_PART_CFG p.val) 15 0 * usU ≤ s.up then
      each (s.holdingTasks p.val) (fun x n => ((x.forceEnd n 6).inc Reg.CFG_DRAIN_KILL).sqc Reg.CFG_STATUS 13 301) s
    else s)

/-- DRAIN_COMPLETE (R347): no task of the partition holds a thread. -/
def execDrainComplete (p : Fin 16) (s : State) : Host.Outcome State Fault Refusal :=
  done s (if (s.part p.val).st == 5 && (s.holdingTasks p.val).isEmpty then s.emptyPart p.val else s)

/-- RAISE_FLOOR (R330): the floor of a KIND, and partition, becomes the VERSION applied; it never falls. -/
def State.raiseFloor (s : State) (kind p : Nat) : State :=
  let up_ := fun (x : State) (off v : Nat) => if (x.reg off).toNat < v then x.setReg off (BitVec.ofNat 32 v) else x
  match kind with
  | 0 => (up_ s Reg.SAB_FLOOR_DEV (s.reg Reg.CFG_DEV_VER).toNat).setRb Reg.SAB_FLAGS 0 false
  | 1 => up_ s (Reg.SAB_FLOOR_PART p) (s.reg (Reg.CFG_PART_VER p)).toNat
  | _ => up_ s Reg.SAB_FLOOR_EPOCH s.cfg.epochVersion

def execRaiseFloor (port : Fin 6) (kind : Fin 3) (s : State) : Host.Outcome State Fault Refusal :=
  done s (s.manage port.val 0x2D adminOnly imgStates fun _ f x =>
    if kind.val = 1 && (f.part = 0 || 16 ≤ f.part) then (some codeIndex, x) else (some 0, x.raiseFloor kind.val f.part))

/-! ## The scrubber (R352-R354) -/

/-- A domain by number: blocks, object classes, classifier tables, static MAC entries, tiles. -/
def domainCode : ScrubDomain → Nat
  | .blockRegs b => b.val
  | .objects c => 32 + c.val
  | .classifier => 41
  | .macStatic => 42
  | .tileCode j => 43 + j.val

/-- How many domains there are. -/
def domainCount : Nat := 67

/-- A slot without HIT, which is no configuration. -/
def MacSlot.noHit (m : MacSlot) : MacSlot := { m with w2 := putBit m.w2 29 false }

/-- A domain written again from the retained copy, its errors gone (R353): the words of tile j's U, K and S regions, the classifier entries, the static
MAC entries that do not stand as they were applied. Other domains of the applied state hold their applied values at all times in this model. -/
def State.reapply (s : State) (d : ScrubDomain) : State :=
  match d with
  | .tileCode j =>
    let code := fun (a : Nat) => a / 65536 == j.val && (s.inRgn j.val 0 (a % 65536) || s.inRgn j.val 1 (a % 65536) || s.inRgn j.val 2 (a % 65536))
    { s with clu := { s.clu with
      pmem := (s.cfg.prog.filter fun p => code p.1).foldl (fun (m : SMap PWord) (p : Nat × PWord) => m.sd 0 p.1 p.2)
        (s.clu.pmem.filter fun (p : Nat × PWord) => !code p.1)
      pmemBad := s.clu.pmemBad.filter fun p => !code p.1 } }
  | .classifier => { s with ing := { s.ing with slots := s.cfg.retCls } }
  | .macStatic => each s.cfg.retMac (fun x p => if (x.mac p.1).isBad || (x.mac p.1).noHit != p.2.noHit then x.setMac p.1 p.2 else x) s
  | _ => s

/-- Escalation (R354). -/
def State.escalate (s : State) (d : ScrubDomain) : State :=
  let s1 := s.sqc Reg.CFG_STATUS 11 299
  match d with
  | .tileCode j => if s.tilePart j.val = 0 then s1.goSafe 3 else s1.faultPart (s.tilePart j.val)
  | _ => s1.goSafe 3

/-- A domain checked: the sweep counted when the last has been. -/
def State.noteSweep (s : State) (k : Nat) : State :=
  let l := if s.cfg.swept.contains k then s.cfg.swept else k :: s.cfg.swept
  if domainCount ≤ l.length then ({ s with cfg := { s.cfg with swept := [] } }).inc Reg.CFG_SCRUB_SWEEPS
  else { s with cfg := { s.cfg with swept := l } }

/-- The scrubber at a domain whose digest does not match, or whose retained copy is bad. -/
def State.scrubBad (s : State) (d : ScrubDomain) (mismatch retainedBad : Bool) : State :=
  let k := domainCode d
  let again := s.cfg.fixAt.gd 0 k != 0 && s.up < s.cfg.fixAt.gd 0 k - 1 + secU
  let s1 := if mismatch && !retainedBad then
      let s2 := (((s.reapply d).inc Reg.CFG_SCRUB_FIX).setReg Reg.CFG_SCRUB_LAST ((Config.domainNumber k).setWidth 32)).sqc Reg.CFG_STATUS 10 298
      { s2 with cfg := { s2.cfg with fixAt := s2.cfg.fixAt.sd 0 k (s2.up + 1) } }
    else s
  if retainedBad || again then s1.escalate d else s1

/-- SCRUB_DOMAIN_CHECK (R352-R354). -/
def execScrubDomainCheck (d : ScrubDomain) (mismatch retainedBad : Bool) (s : State) : Host.Outcome State Fault Refusal :=
  done s (
    let s1 := s.noteSweep (domainCode d)
    if mismatch || retainedBad then s1.scrubBad d mismatch retainedBad else s1)

/-! ## Requested and effective state (R355, R358) -/

/-- REQ of a unit: what the applied image and the applied requests call for. -/
def State.unitReqOf (s : State) (cls idx : Nat) : Nat :=
  let b := fun (x : Bool) => if x then 1 else 0
  match cls with
  | 0 => (s.unitReq idx).req
  | 1 => (match s.tileState idx with | 2 => 0 | 4 => 1 | n => n)
  | 2 => b (if idx < 16 then s.rf (Reg.ETH_PORT_CFG idx) 31 29 != 0 else s.segOn (idx - 16))
  | 3 => b (s.aclkOn idx)
  | 4 => b (s.stream idx).en
  | 5 => b (s.chUsed idx != 0)
  | 6 => b (s.outOn idx)
  | 7 => b (s.pcb idx).en
  | _ => 0

/-- The code of an angle clock's state (R54). -/
def aclkCode : AclkState → Nat
  | .disabled => 0 | .seeking => 1 | .locked => 2 | .held => 3 | .fixed => 4

/-- EFF of a unit: the state that its own status register shows. -/
def State.unitEff (s : State) (cls idx : Nat) : Nat :=
  let b := fun (x : Bool) => if x then 1 else 0
  match cls with
  | 0 => (s.part idx).st
  | 1 => s.tileState idx
  | 2 => b (if idx < 16 then s.rb (Reg.ETH_PORT_STATUS idx) 2 else s.segOn (idx - 16))
  | 3 => aclkCode (s.aclk idx).st
  | 4 => streamCode (s.stream idx).st
  | 5 => (s.vch idx).st
  | 6 => b (s.outOn idx && s.pwr.st != .safe)
  | 7 => b ((s.pcb idx).en)
  | _ => 0

/-- Whether a PCB sends as asked: its key is present and no copy was lost since the last commit. -/
def State.pcbWell (s : State) (i : Nat) : Bool :=
  let p := s.pcb i
  p.lost == p.lostAt && (p.ctx == 0 || (s.keySlot ((s.autCtx p.ctx).keyA.slot).toNat).isSome)

/-- Whether EFF matches REQ (R355). -/
def State.unitMatches (s : State) (cls idx : Nat) : Bool :=
  let on := s.unitReqOf cls idx == 1
  match cls with
  | 0 => s.unitEff 0 idx == (if on then 4 else 0)
  | 1 => s.unitEff 1 idx == s.unitReqOf 1 idx
  | 2 => if on then s.unitEff 2 idx == 1 else true
  | 3 => if on then (s.aclk idx).st == .locked || (s.aclk idx).st == .fixed else (s.aclk idx).st == .disabled
  | 4 => if on then (s.stream idx).st == .running else (s.stream idx).st == .disabled
  | 5 => if on then (s.vch idx).st != 2 && !(s.vch idx).blocked else (s.vch idx).st == 2
  | 6 => if on then s.pwr.st != .safe else true
  | 7 => if on then s.pcbWell idx else true
  | _ => true

/-- The units whose match is followed: every unit of the small classes, and what the others list. -/
def State.unitList (s : State) : List (Nat × Nat) :=
  ((List.range 15).map fun i => (0, i + 1)) ++ ((List.range 24).map fun i => (1, i)) ++ ((List.range 20).map fun i => (2, i)) ++
  ((List.range 16).map fun i => (3, i)) ++ (s.spe.streams.map fun p => (4, p.1)) ++ ((List.range 256).map fun i => (5, i)) ++
  ((List.range 32).map fun i => (6, i)) ++ (s.vrm.pcbs.map fun p => (7, p.1))

/-- A unit at a tick (R358): when its mismatch began, or the end of its episode. -/
def State.followUnit (s : State) (p : Nat × Nat) : State :=
  let k := 8192 * p.1 + p.2
  if s.unitMatches p.1 p.2 then (if (s.unitReq k).since.isSome then s.setUnitReq k { s.unitReq k with since := none, mismatch := false } else s)
  else if (s.unitReq k).since.isSome then s
  else s.setUnitReq k { s.unitReq k with since := some s.up }

/-- UNIT_MISMATCH (R358): once an episode, after more than 2 × CP. -/
def execUnitMismatch (cls : Fin 8) (idx : BitVec 13) (s : State) : Host.Outcome State Fault Refusal :=
  done s (
    let k := 8192 * cls.val + idx.toNat
    match (s.unitReq k).since with
    | some t =>
      if !s.unitMatches cls.val idx.toNat && !(s.unitReq k).mismatch && t + 2 * s.rf Reg.CFG_CP 15 0 * msU < s.up then
        ((s.setUnitReq k { s.unitReq k with mismatch := true }).inc Reg.CFG_MISMATCHES).sqc Reg.CFG_STATUS 12 300
      else s
    | none => s)

/-- CFG_UNIT_DATA of a unit (R359). -/
def State.unitWord (s : State) (cls idx : Nat) : Word :=
  let u := s.unitReq (8192 * cls + idx)
  let age := match u.since with | some t => min ((s.up - t) / msU) 65535 | none => 0
  BitVec.ofNat 32 (s.unitReqOf cls idx * 268435456 + s.unitEff cls idx * 16777216 + (if u.mismatch then 8388608 else 0) + age)

/-- A write of CFG_UNIT_SEL (R359). -/
def State.unitSelect (s : State) (val : Word) : State :=
  let sel := BitVec.ofNat 32 (fld val 27 24 * 16777216 + fld val 12 0)
  (s.setReg Reg.CFG_UNIT_SEL sel).setReg Reg.CFG_UNIT_DATA (s.unitWord (fld val 27 24) (fld val 12 0))

/-- UNIT_SELECT (R359). -/
def execUnitSelect (who : Accessor) (val : Word) (s : State) : Host.Outcome State Fault Refusal :=
  done s (s.writeCmd who Reg.CFG_UNIT_SEL fun x => x.unitSelect val)

end Sys2Proof.Machine
end

