-- ==== Sys2Proof/Machine/Sable.lean ====
section
/-!
DEFINITION. Sable (16_security.md): packages, credentials, roots, the identity index and attestation, tamper and zeroisation, debug grants.
-/

namespace Sys2Proof.Machine

/-! ## The record of a command (R389) -/

/-- SAB_CMD_STATUS shows the last command and its result. -/
def State.sabResult (s : State) (cmd res : Nat) : State := s.setReg Reg.SAB_CMD_STATUS (BitVec.ofNat 32 (cmd * 65536 + res))

/-- The end of a Sable command: recorded, and answered. -/
def State.sabAnswer (s : State) (a : Actor) (cmd res : Nat) (pay : List Byte) : State := (s.sabResult cmd res).answer a res pay

/-- A command of port n in execution (R389): DENIED, STATE_REJECT, after the kill EXHAUSTED (R392), else its effect. -/
def State.sabCmd (s : State) (n code : Nat) (allowed : Actor → MgtFrame → State → Bool) (states : List DevState)
    (act : Actor → MgtFrame → State → State) : State :=
  s.onCmd n [code] fun f x =>
    if !allowed (.port n) f x then x.sabAnswer (.port n) code codeDenied []
    else if !states.contains x.pwr.st then x.sabAnswer (.port n) code codeReject []
    else if x.sab.otp.kill && code != 0x33 then x.sabAnswer (.port n) code 26 []
    else act (.port n) f x

/-- Every device state but COLD. -/
def warmStates : List DevState := [.boot, .config, .test, .service, .recovery, .safe]

/-! ## Packages (R383-R387) -/

/-- KIND, ROOT, ARG, SEQ and COUNT of a package (R383). -/
def pkgKind (bs : List Byte) : Nat := leAt bs 5 1
def pkgRoot (bs : List Byte) : Nat := leAt bs 6 1
def pkgArg (bs : List Byte) : Nat := leAt bs 7 1
def pkgSeq (bs : List Byte) : Nat := leAt bs 8 4
def pkgCount (bs : List Byte) : Nat := leAt bs 28 2

/-- The length of an entry. -/
def pkgEntry (bs : List Byte) : Nat := if pkgKind bs = 0 then 40 else 88

/-- Whether the header and the length have the form of R383. -/
def pkgFormOk (cmd : Nat) (bs : List Byte) : Bool :=
  let k := pkgKind bs
  let sealed_ := k < 2
  bs.take 4 == [0x55, 0x50, 0x4B, 0x47] && leAt bs 4 1 == 1 && (cmd == 0x30 && k == 0 || cmd == 0x31 && k == 1 || cmd == 0x32 && (k == 2 || k == 3)) &&
    pkgRoot bs < 4 && (if sealed_ then pkgArg bs == 0 else pkgArg bs < 4) && (if sealed_ then 1 ≤ pkgSeq bs else pkgSeq bs == 0) &&
    (if sealed_ then 1 ≤ pkgCount bs && pkgCount bs ≤ (if k = 0 then 512 else 16) else pkgCount bs == 0) && leAt bs 30 2 == 0 &&
    (k == 3 || (bs.drop 32).take 32 == List.replicate 32 0) &&
    bs.length == (if sealed_ then 1168 + pkgCount bs * pkgEntry bs else 64) + sigBytes

/-- DEVICE_ID as 16 bytes (R374). -/
def devIdBytes : List Byte := leBytes 16 Config.devId.toNat

/-- The entries of a package in the clear (R382, R383), none where the tag fails. -/
def pkgPlain (bs : List Byte) : Option (List Byte) :=
  let k := Config.kmac256 (Config.kemDecap ((bs.drop 64).take 1088)) (bs.take 64) 256 "KEY PACKAGE"
  Config.gcmOpen k (List.replicate 12 0) (bs.take 64) ((bs.drop 1152).take (pkgCount bs * pkgEntry bs + 16))

/-- The entries one by one. -/
def pkgEntries (bs plain : List Byte) : List (List Byte) :=
  (List.range (pkgCount bs)).map fun i => (plain.drop (i * pkgEntry bs)).take (pkgEntry bs)

/-- Whether a key entry has the form of R384. -/
def keyEntryOk (e : List Byte) : Bool :=
  leAt e 0 2 < 8192 && leAt e 2 2 ≤ 1 && (leAt e 2 2 == 0 || e.drop 8 == List.replicate 32 0)

/-- Whether a credential entry has the form of R387. -/
def credEntryOk (e : List Byte) : Bool :=
  leAt e 0 1 < 16 && leAt e 1 1 < 3 && leAt e 2 1 < 3 && leAt e 3 1 < 64 && leAt e 5 3 == 0 &&
    (if leAt e 1 1 = 1 then 1 ≤ leAt e 4 1 && leAt e 4 1 ≤ 64 && (e.drop (24 + leAt e 4 1)).all (· == 0) else leAt e 4 1 == 0)

/-- A root slot that is usable (R380). -/
def Otp.usable (o : Otp) (r : Nat) : Bool := o.rootValid.getLsbD r && !o.rootRevoked.getLsbD r

/-- Whether some root is usable. -/
def Otp.anyUsable (o : Otp) : Bool := (List.range 4).any o.usable

/-- Whether a ROOT_ADD needs no signature (R381): no root is usable, the UART, BOOT or CONFIG. -/
def State.freeAdd (s : State) (a : Actor) (bs : List Byte) : Bool :=
  pkgKind bs == 3 && !s.sab.otp.anyUsable && a == .port 4 && (s.pwr.st == .boot || s.pwr.st == .config)

/-- The key slots that R386 protects: named by a context of the effective epoch, of the previous one while it lives, or of the shadow. -/
def State.slotsInUse (s : State) : List Nat :=
  let cur := s.ctxsOn.flatMap fun i => (s.autCtx i).namedSlots
  let waits := s.pkt.frames.any fun p => p.2.live && p.2.authReq && p.2.verdict == 0 && p.2.keys.epoch != s.reg Reg.AUT_EPOCH_CUR
  let prev := if s.aut.prevActive || waits then s.ctxsOn.flatMap fun i =>
      AutCtx.namedSlots { s.autCtx i with keyA := (s.autCtx i).prevA, keyB := (s.autCtx i).prevB } else []
  let sh := if s.cfg.shadow = .none then [] else (let n := s.produced; n.ctxsOn.flatMap fun i => (n.autCtx i).namedSlots)
  cur ++ prev ++ sh

/-- The entries of a package whose form they have, in the clear: a result code otherwise. -/
def pkgOpened (bs : List Byte) : Nat × List (List Byte) :=
  match pkgPlain bs with
  | none => (21, [])
  | some p =>
    let es := pkgEntries bs p
    if es.all (if pkgKind bs = 0 then keyEntryOk else credEntryOk) then (0, es) else (16, [])

/-- The checks of a package by its content alone: form, device, root, signature, sequence (R385). -/
def State.pkgFail (s : State) (a : Actor) (cmd : Nat) (bs : List Byte) : Option Nat :=
  let sig := bs.drop (bs.length - sigBytes)
  let k := pkgKind bs
  let id := (bs.drop 12).take 16
  let free := s.freeAdd a bs
  let floor := if k = 0 then s.reg Reg.SAB_SEQ_KEYS else s.reg Reg.SAB_SEQ_CRED
  firstFail [
    (16, pkgFormOk cmd bs && (k != 3 || !s.sab.otp.rootValid.getLsbD (pkgArg bs))),
    (17, id == devIdBytes || (k == 2 && id == List.replicate 16 0)),
    (18, free || (s.sab.otp.usable (pkgRoot bs) && (k != 2 || pkgRoot bs != pkgArg bs))),
    (19, free || (Config.shake256 (sig.take 68) == s.sab.otp.rootDig.gd 0 (pkgRoot bs) &&
      Config.xmssVerify (sig.take 68) (bs.take (bs.length - sigBytes)) (sig.drop 68))),
    (20, 2 ≤ k || floor.toNat < pkgSeq bs)]

/-- A password stretched (R387): one digest of salt and password, then 65,535 of digest and salt. -/
def stretch : Nat → List Byte → List Byte → List Byte
  | 0, k, _ => k
  | n + 1, k, salt => stretch n (shakeBytes (k ++ salt)) salt

/-- The credential that an entry holds; TYPE 2 clears the slot. -/
def credOfEntry (e : List Byte) : Cred :=
  let salt := (e.drop 8).take 16
  match leAt e 1 1 with
  | 0 => { loaded := true, typ := 0, role := leAt e 2 1, ports := leAt e 3 1, salt := List.replicate 16 0, key := (e.drop 24).take 32 }
  | 1 => { loaded := true, typ := 1, role := leAt e 2 1, ports := leAt e 3 1, salt := salt
           key := stretch 65535 (shakeBytes (salt ++ (e.drop 24).take (leAt e 4 1))) salt }
  | _ => {}

/-- A key entry takes effect (R384). -/
def State.loadKey (s : State) (e : List Byte) : State :=
  s.setKeySlot (leAt e 0 2) (if leAt e 2 2 % 2 = 1 then none else some (BitVec.ofNat 256 (leNat (e.drop 8))))

/-- A key package takes effect, or IN_USE (R386). -/
def State.applyKeys (s : State) (bs : List Byte) (es : List (List Byte)) : Nat × State :=
  let used := s.slotsInUse
  if es.any (fun e => (s.keySlot (leAt e 0 2)).isSome && used.contains (leAt e 0 2)) then (22, s)
  else (0, (each es (fun x e => x.loadKey e) s).setReg Reg.SAB_SEQ_KEYS (BitVec.ofNat 32 (pkgSeq bs)))

/-- The sessions of credential slot i end (R414). -/
def State.endSlotSessions (s : State) (i : Nat) : State :=
  each (List.range 6) (fun x n => if (x.mport n).sess.any (·.slot == i) then x.endSession n false else x) s

/-- A credential package takes effect (R387): the sessions of the slots that it writes or clears end (R414). -/
def State.applyCreds (s : State) (bs : List Byte) (es : List (List Byte)) : Nat × State :=
  (0, (each es (fun x e => (x.setCred (leAt e 0 1) (credOfEntry e)).endSlotSessions (leAt e 0 1)) s).setReg Reg.SAB_SEQ_CRED
    (BitVec.ofNat 32 (pkgSeq bs)))

/-- The OTP with a root added (R381). -/
def Otp.addRoot (o : Otp) (r : Nat) (d : BitVec 256) : Otp :=
  { o with rootValid := o.rootValid ||| BitVec.ofNat 4 (2 ^ r), rootDig := o.rootDig.sd 0 r d }

/-- The OTP with a root revoked. -/
def Otp.revokeRoot (o : Otp) (r : Nat) : Otp := { o with rootRevoked := o.rootRevoked ||| BitVec.ofNat 4 (2 ^ r) }

/-- Whether the shadow holds a part that was verified against root r. -/
def State.shadowOfRoot (s : State) (r : Nat) : Bool :=
  let is := fun (p : Option ImgPart) => match p with | some x => x.root == r | none => false
  is s.cfg.dev || is s.cfg.epoch || (List.range 15).any fun i => is (s.partSh (i + 1))

/-- A root order takes effect (R381): an addition; a revocation, which disarms a commit with a part of that root; LAST_ROOT. -/
def State.applyRoot (s : State) (bs : List Byte) : Nat × State :=
  let r := pkgArg bs
  let put := fun (x : State) (o : Otp) => { x with sab := { x.sab with otp := o } }
  if pkgKind bs = 3 then
    (0, (put s (s.sab.otp.addRoot r (BitVec.ofNat 256 (leNat ((bs.drop 32).take 32))))).sqc Reg.SAB_STATUS 5 21)
  else if s.sab.otp.rootRevoked.getLsbD r then (0, s)
  else if !(s.sab.otp.revokeRoot r).anyUsable then (23, s)
  else
    let s1 := (put s (s.sab.otp.revokeRoot r)).sqc Reg.SAB_STATUS 5 21
    (0, if s1.cfg.armBy.isSome && s1.appliesShadow && s1.shadowOfRoot r && !s1.commitDue then s1.disarm else s1)

/-- A package checked to its end (R385): the result, and the state with what it changes. -/
def State.pkgTry (s : State) (a : Actor) (cmd : Nat) (bs : List Byte) : Nat × State :=
  match s.pkgFail a cmd bs with
  | some r => (r, s)
  | none =>
    if 2 ≤ pkgKind bs then s.applyRoot bs
    else
      let o := pkgOpened bs
      if o.1 ≠ 0 then (o.1, s) else if pkgKind bs = 0 then s.applyKeys bs o.2 else s.applyCreds bs o.2

/-- The end of a check (R385): EV020 or EV019, and the counters. Keys that would be accepted in the cycle of a commit strobe wait, and are
checked again after it. -/
def State.pkgEnd (s : State) (j : PkgJob) : State :=
  let r := { s with sab := { s.sab with job := none } }.pkgTry j.by_ j.cmd j.bytes
  if r.1 = 0 && j.cmd == 0x30 && s.commitDue then s
  else
  let s1 := if r.1 = 0 then (r.2.inc Reg.SAB_PKG_OK).sqc Reg.SAB_STATUS 4 20 else (r.2.inc Reg.SAB_PKG_REFUSED).sqc Reg.SAB_STATUS 3 19
  s1.sabAnswer j.by_ j.cmd r.1 []

/-- PACKAGE_CHECK_DONE (R385). -/
def execPackageCheckDone (s : State) : Host.Outcome State Fault Refusal :=
  done s (match s.sab.job with | some j => s.pkgEnd j | none => s)

/-- A package goes into check; one at a time. -/
def State.pkgBegin (s : State) (a : Actor) (cmd : Nat) (bs : List Byte) : State :=
  if s.sab.job.isSome then s.answer a busyCode []
  else ({ s with sab := { s.sab with job := some { by_ := a, cmd := cmd, bytes := bs } } }).setReg Reg.SAB_CMD_STATUS
    (BitVec.ofNat 32 (2147483648 + cmd * 65536))

/-- KEY_LOAD (R389). -/
def execKeyLoad (port : Fin 6) (s : State) : Host.Outcome State Fault Refusal :=
  done s (s.sabCmd port.val 0x30 adminOnly imgStates fun a f x => x.pkgBegin a 0x30 f.payload)

/-- CRED_LOAD (R388, R389). -/
def execCredLoad (port : Fin 6) (s : State) : Host.Outcome State Fault Refusal :=
  done s (s.sabCmd port.val 0x31 (fun _ _ _ => true) warmStates fun a f x => x.pkgBegin a 0x31 f.payload)

/-- ROOT_ORDER (R381, R389) of a KIND: by ADMIN, or a ROOT_ADD that needs no signature. -/
def State.rootOrder (s : State) (n kind : Nat) : State :=
  match (s.mport n).frame with
  | some f =>
    if pkgKind f.payload ≠ kind then s
    else s.sabCmd n 0x32 (fun a g x => x.actAdmin a || x.freeAdd a g.payload) [.boot, .config, .test, .service, .recovery]
      fun a g x => x.pkgBegin a 0x32 g.payload
  | none => s

/-- ROOT_ADD (R381). -/
def execRootAdd (port : Fin 6) (s : State) : Host.Outcome State Fault Refusal := done s (s.rootOrder port.val 3)

/-- ROOT_REVOKE (R381). -/
def execRootRevoke (port : Fin 6) (s : State) : Host.Outcome State Fault Refusal := done s (s.rootOrder port.val 2)

/-! ## The identity index (R376-R378) -/

/-- The blocks that may still be reserved: unblown, outside the skip mask. -/
def Sable.openBlocks (b : Sable) : List Nat :=
  (List.range 2048).filter fun i => !b.otp.blocks.gd false i && !b.skip.gd false i

/-- BLOCKS_LEFT: the blocks whose fuse is unblown. -/
def Sable.blocksLeft (b : Sable) : Nat := ((List.range 2048).filter fun i => !b.otp.blocks.gd false i).length

/-- Whether the current block has an unused position. -/
def Sable.hasIndex (b : Sable) : Bool := b.block.isSome && b.pos < 512

/-- The next index: of the current block, or the first of the block that would be reserved. -/
def Sable.nextIndex (b : Sable) : Nat :=
  match b.block, b.openBlocks with
  | some k, l => if b.pos < 512 then 512 * k + b.pos else (match l with | j :: _ => 512 * j | [] => 0)
  | none, j :: _ => 512 * j
  | none, [] => 0

/-- No index is left: no unblown fuse outside the skip mask, and no position in a current block (R378). -/
def Sable.exhausted (b : Sable) : Bool := !b.hasIndex && b.openBlocks.isEmpty

/-- XMSS_STATE (R378, R397). -/
def Sable.xmssState (b : Sable) : Nat :=
  if b.signing.isSome && !b.traversal then 2
  else if b.hasIndex then 1
  else if b.openBlocks.isEmpty then 3
  else 0

/-- EV023 where the index has been exhausted since the state s0 (R378). -/
def State.noteExhausted (s0 s : State) : State :=
  if s.sab.exhausted && !s0.sab.exhausted then s.sqc Reg.SAB_STATUS 8 23 else s

/-- The check of LOW_BLOCKS (R378): EV022 once. -/
def State.lowBlocks (s : State) : State :=
  if !s.sab.lowRaised && s.sab.blocksLeft < s.rf Reg.SAB_CFG 23 16 then
    ({ s with sab := { s.sab with lowRaised := true } }).sqc Reg.SAB_STATUS 7 22
  else s

/-- Block b's fuse is blown and reads back blown: it is current. -/
def State.takeBlock (s : State) (b : Nat) : State :=
  ({ s with sab := { s.sab with otp := { s.sab.otp with blocks := s.sab.otp.blocks.sd false b true }, block := some b, pos := 0 } }).lowBlocks

/-- Block b's fuse has failed its read-back twice: it enters the skip mask. -/
def State.skipBlock (s : State) (b : Nat) : State :=
  (({ s with sab := { s.sab with skip := s.sab.skip.sd false b true } }).inc Reg.SAB_FUSE_FAIL).sqc Reg.SAB_STATUS 9 25

/-- A block is reserved (R376): the open blocks in order, each tried twice, with what each read-back shows; a read-back that is not given
shows blown. The third argument is the read-backs. -/
def reserve : List Nat → List Bool → State → State
  | [], _, s => s
  | b :: l, r, s =>
    if r.headD true || r.tail.headD true then s.takeBlock b else reserve l (r.drop 2) (s.skipBlock b)

/-- The next index is taken (R376): none when the index is exhausted; what exhausts it raises EV023. -/
def State.takeIndex (s : State) (fuse : List Bool) : Option Nat × State :=
  let s1 := if s.sab.hasIndex then s else reserve s.sab.openBlocks fuse { s with sab := { s.sab with block := none } }
  match s1.sab.block with
  | some b =>
    let i := 512 * b + s1.sab.pos
    (some i, s.noteExhausted { s1 with sab := { s1.sab with pos := s1.sab.pos + 1 } })
  | none => (none, s.noteExhausted s1)

/-- The rest of the current block is abandoned, with the traversal state (R377). -/
def State.abandonBlock (s : State) : State :=
  let had := s.sab.hasIndex
  let s1 := { s with sab := { s.sab with block := none, pos := 0, traversal := false } }
  s.noteExhausted (if had then s1.sqc Reg.SAB_STATUS 9 25 else s1)

/-! ## Attestation (R379, R396) -/

/-- Whether any key slot is loaded. -/
def State.keysLoaded (s : State) : Bool := s.aut.keyRam.any fun p => p.2.isSome

/-- The FLAGS byte of a report. -/
def State.attFlags (s : State) : Nat :=
  let b := fun (x : Bool) (v : Nat) => if x then v else 0
  b (s.rb Reg.SAB_FLAGS 0) 1 + b ((List.range 16).any fun p => (s.grant p).active) 2 + b (!s.keysLoaded) 4 +
    b (s.sab.blocksLeft < s.rf Reg.SAB_CFG 23 16) 8 + b s.sab.tripped 16

/-- The word AUT_EPOCH_STAGED would read (R113): the epoch that the shadow holds. -/
def State.epochStaged (s : State) : Nat :=
  match s.cfg.epoch with
  | some p => (match p.recs.find? (fun r => r.rkind == 1 && r.cls == 2) with | some r => (wordAt r.words 0).toNat | none => 0)
  | none => 0

/-- TILES of CFG_PART_STATUS (R359): a bit for each tile of a list. -/
def tileMask (l : List Nat) : Nat := ((List.range 24).map fun j => if l.contains j then 2 ^ j else 0).sum

/-- The 48-byte entry of partition p in a report (R396). -/
def State.attPart (s : State) (p : Nat) : List Byte :=
  let g := s.grant p
  let gb := (if g.active then 1 else 0) + (if g.active && g.control then 2 else 0) + (if g.sinceCommit then 4 else 0)
  let st := if p = 0 then 4 else (s.part p).st
  let ver := if p = 0 then s.reg Reg.CFG_DEV_VER else s.reg (Reg.CFG_PART_VER p)
  let floor := if p = 0 then s.reg Reg.SAB_FLOOR_DEV else s.reg (Reg.SAB_FLOOR_PART p)
  let meas := (List.range 8).flatMap fun w => leBytes 4 (s.reg (if p = 0 then Reg.CFG_DEV_MEAS w else Reg.CFG_PART_MEAS p w)).toNat
  [BitVec.ofNat 8 st, BitVec.ofNat 8 gb, 0, 0] ++ leBytes 4 ver.toNat ++ leBytes 4 floor.toNat ++ leBytes 4 (tileMask (s.tilesOf p)) ++ meas

/-- The body of a report (R396). -/
def State.attBody (s : State) (nonce : List Byte) : List Byte :=
  let w := fun (off : Nat) => leBytes 4 (s.reg off).toNat
  let creds := ((List.range 16).filter fun i => (s.cred i).loaded).foldl (fun a i => a + 2 ^ i) 0
  [0x55, 0x41, 0x54, 0x54] ++ leBytes 2 1 ++ leBytes 2 932 ++ nonce ++ devIdBytes ++
    [0xB0, BitVec.ofNat 8 (devCode s.pwr.st), BitVec.ofNat 8 s.timeQuality, BitVec.ofNat 8 s.attFlags] ++ leBytes 12 (time96 s.time) ++
    (List.range 8).flatMap (fun i => w (Reg.CFG_DEV_MEAS i)) ++ w Reg.CFG_DEV_VER ++ w Reg.AUT_EPOCH_CUR ++ leBytes 4 s.epochStaged ++
    [BitVec.ofNat 8 (s.sab.otp.rootValid.toNat + 16 * s.sab.otp.rootRevoked.toNat), 0] ++ leBytes 2 creds ++
    leBytes 2 s.sab.blocksLeft ++ [0, 0] ++ w Reg.SAB_FLOOR_DEV ++ w Reg.SAB_FLOOR_EPOCH ++
    w Reg.CFG_COMMITS ++ w Reg.CFG_SCRUB_FIX ++ w Reg.CFG_MISMATCHES ++ w Reg.SAB_ZEROISE_CNT ++ w Reg.SAB_TAMPER_CNT ++
    w Reg.SAB_PKG_OK ++ w Reg.SAB_IMG_REFUSED ++ w Reg.SAB_DBG_GRANTS ++ (List.range 16).flatMap s.attPart

/-- A request starts its signature (R379): RATE_LIMIT consumes nothing; without an index, EXHAUSTED. After the kill the seeds are used no more
(R392). -/
def State.signStart (s : State) (q : AttReq) : State :=
  let soon : Bool := match s.sab.lastSig with | some t => s.up < t + s.rf Reg.SAB_CFG 15 0 * secU | none => false
  if soon then s.sabAnswer (.port q.port) 0x33 25 []
  else if s.sab.otp.kill then s.sabAnswer (.port q.port) 0x33 26 []
  else
    let r := s.takeIndex q.fuse
    match r.1 with
    | none => r.2.sabAnswer (.port q.port) 0x33 26 []
    | some i => ({ r.2 with sab := { r.2.sab with signing := some (q, i, r.2.attBody q.nonce), lastSig := some r.2.up } }).setReg
        Reg.SAB_CMD_STATUS (BitVec.ofNat 32 (2147483648 + 0x33 * 65536))

/-- An ATTEST request (R379): it starts at once where no signature is under way, else it queues behind at most three others, else BUSY. -/
def State.attest (s : State) (q : AttReq) : State :=
  if s.sab.signing.isNone then s.signStart q
  else if 4 ≤ s.sab.fifo.length then s.sabAnswer (.port q.port) 0x33 busyCode []
  else { s with sab := { s.sab with fifo := s.sab.fifo ++ [q] } }

/-- The first of the queued requests that starts a signature starts it; those before it are answered. -/
def signQueue : List AttReq → State → State
  | [], s => s
  | q :: l, s =>
    let s1 := { s with sab := { s.sab with fifo := l } }.signStart q
    if s1.sab.signing.isSome then s1 else signQueue l s1

/-- ATTEST (R389, R396). -/
def execAttest (port : Fin 6) (fuse : List Bool) (s : State) : Host.Outcome State Fault Refusal :=
  done s (s.sabCmd port.val 0x33 (fun _ _ x => x.portRole port.val != .noSession) liveStates fun _ f x =>
    x.attest { port := port.val, nonce := f.payload, fuse := fuse })

/-- The report goes out, and the next request starts (R379). -/
def State.attestEnd (s : State) (q : AttReq) (i : Nat) (body : List Byte) : State :=
  let s1 := ({ s with sab := { s.sab with signing := none, traversal := true } }).inc Reg.SAB_ATTEST_CNT
  let s2 := s1.sabAnswer (.port q.port) 0x33 0 (body ++ Config.xmssSign i body)
  signQueue s2.sab.fifo s2

/-- ATTEST_DONE (R378). -/
def execAttestDone (s : State) : Host.Outcome State Fault Refusal :=
  done s (match s.sab.signing with | some g => s.attestEnd g.1 g.2.1 g.2.2 | none => s)

/-! ## Zeroisation (R390-R393) -/

/-- What is in progress in Sable is abandoned (R393): STATE_REJECT. An image in verification loses its content key. -/
def State.abandonJobs (s : State) : State :=
  let s1 := match s.sab.job with
    | some j => { s with sab := { s.sab with job := none } }.sabAnswer j.by_ j.cmd codeReject []
    | none => s
  let s2 := match s1.sab.signing with
    | some g => { s1 with sab := { s1.sab with signing := none } }.sabAnswer (.port g.1.port) 0x33 codeReject []
    | none => s1
  match s2.cfg.verifying with
  | some g =>
    if imgEncrypted g.bytes then
      (({ s2 with cfg := { s2.cfg with verifying := none } }).setReg Reg.CFG_IMG_STATUS 7).answer g.by_ codeReject []
    else s2
  | none => s2

/-- The AUT key RAM cleared (R97): no frame keeps a key that its stamp named. -/
def State.clearKeys (s : State) : State :=
  { s with
    aut := { s.aut with keyRam := [] }
    pkt := { s.pkt with frames := s.pkt.frames.map fun (p : Nat × Frame) =>
      (p.1, { p.2 with keys := { p.2.keys with curA := none, curB := none, prevA := none, prevB := none } }) } }

/-- A zeroisation (R391, R393). -/
def State.zeroise (s : State) : State :=
  let s1 := s.abandonJobs.clearKeys
  let s2 := { s1 with sab := { s1.sab with creds := [] } }
  let s3 := each (List.range 6) (fun x n => (x.endSession n false).updMport n fun p => { p with opening := none }) s2
  let s4 := (if s3.cfg.armBy.isSome && s3.appliesShadow then s3.disarm else s3).discardAll
  let s5 := (each (List.range 16) (fun x p => x.endGrant p) s4).abandonBlock
  let s6 := (s5.inc Reg.SAB_ZEROISE_CNT).sqc Reg.SAB_STATUS 2 18
  let s7 := signQueue s6.sab.fifo s6
  if s7.rb Reg.SAB_CFG 30 then s7.goSafe 1 else s7

/-- ZEROISE (R391): answered in the session that it ends. -/
def execZeroise (port : Fin 6) (s : State) : Host.Outcome State Fault Refusal :=
  done s (s.sabCmd port.val 0x34 adminOnly warmStates fun a _ x => (x.sabAnswer a 0x34 0 []).zeroise)

/-- A trip of an enabled input or monitor (R390): its event and counter, then the zeroisation. -/
def State.tamperTrip (s : State) (bit ev : Nat) : State :=
  (({ s with sab := { s.sab with tripped := true } }).inc Reg.SAB_TAMPER_CNT).sqc Reg.SAB_STATUS bit ev |>.zeroise

/-- The KILL fuse blows (R392). -/
def State.blowKill (s : State) : State :=
  ({ s with sab := { s.sab with otp := { s.sab.otp with kill := true } } }).setRb Reg.SAB_FLAGS 1 true |>.goSafe 2

/-- TAMPER_INPUT (R390, R392): input i stands at its active level past the glitch filter. -/
def execTamperInput (i : Fin 4) (s : State) : Host.Outcome State Fault Refusal :=
  done s (
    if s.pwr.vaux && s.rb Reg.SAB_TAMP_CFG (16 + i.val) then
      (let x := s.tamperTrip 0 16; if s.rb Reg.SAB_TAMP_CFG (24 + i.val) then x.blowKill else x)
    else s)

/-- MONITOR_TRIP (R390): VAUX, VDD, clock and temperature from 0; the VDD and clock monitors watch while main power is good. -/
def execMonitorTrip (m : Fin 4) (s : State) : Host.Outcome State Fault Refusal :=
  done s (
    if s.pwr.vaux && s.rb Reg.SAB_TAMP_CFG m.val && (!(m.val == 1 || m.val == 2) || s.pwr.mainGood) then s.tamperTrip 1 17 else s)

/-! ## Debug grants (R394, R395) -/

/-- A grant starts, in the place of an old one (R394, R395): EV024. -/
def State.startGrant (s : State) (p : Nat) (control jtag session : Bool) (secs : Nat) : State :=
  let s1 := s.endGrant p
  let g := { active := true, control := control, jtag := jtag, session := session, until_ := s1.up + secs * secU, sinceCommit := true : Grant }
  ((s1.setGrant p g).inc Reg.SAB_DBG_GRANTS).sqc Reg.SAB_STATUS 6 24

/-- DEBUG_GRANT (R394). -/
def execDebugGrant (port : Fin 6) (p : Fin 16) (control jtag session : Bool) (secs : BitVec 16) (s : State) :
    Host.Outcome State Fault Refusal :=
  done s (s.sabCmd port.val 0x35 (fun a _ x => x.actAdmin a || x.actOwns a p.val) [.config, .test, .service, .recovery, .safe]
    fun a _ x =>
      if control && p.val = 0 && x.pwr.st == .service then x.sabAnswer a 0x35 codeReject []
      else if secs = 0 then x.sabAnswer a 0x35 codeIndex []
      else (x.startGrant p.val control jtag session secs.toNat).sabAnswer a 0x35 0 [])

/-- DEBUG_REVOKE (R395). -/
def execDebugRevoke (port : Fin 6) (p : Fin 16) (s : State) : Host.Outcome State Fault Refusal :=
  done s (s.sabCmd port.val 0x36 (fun a _ x => x.actAdmin a || x.actOwns a p.val) [.config, .test, .service, .recovery, .safe]
    fun a _ x => (x.endGrant p.val).sabAnswer a 0x36 0 [])

/-- DEBUG_GRANT_EXPIRE (R395). -/
def execDebugGrantExpire (p : Fin 16) (s : State) : Host.Outcome State Fault Refusal :=
  done s (if (s.grant p.val).active && (s.grant p.val).until_ ≤ s.up then s.endGrant p.val else s)

end Sys2Proof.Machine
end

