-- ==== Sys2Proof/Machine/Pci.lean ====
section
/-!
DEFINITION. PCI Express (R399-R407): links, resets of a link, the DMA channels, the windows of the BARs, MSI-X.
-/

namespace Sys2Proof.Machine

/-! ## Links (R399, R402) -/

/-- Whether link l exists: B only with PCIE_BIF high (R399). -/
def State.linkThere (s : State) (l : Nat) : Bool := l == 0 || s.rb Reg.PCI_CFG 30

/-- Whether link l is up. -/
def State.linkUp (s : State) (l : Nat) : Bool := s.rb (Reg.PCI_LINK_STATUS l) 31

/-- The link of a DMA channel. -/
def State.dmaLink (s : State) (d : Nat) : Nat := s.rf (Reg.PCI_DMA_CFG d) 29 29

/-- The channels of link l go STOPPED. -/
def State.stopLinkDma (s : State) (l : Nat) : State :=
  each (List.range 16) (fun x d => if x.dmaLink d = l then (x.setRf (Reg.PCI_DMA_STATUS d) 1 0 0).setRf (Reg.PCI_DMA_STATUS d) 7 4 0 else x) s

/-- What a link loses when it goes down or is reset (R402): its channels stop, its functions' MSI-X is disabled, so that messages are lost
(R421), and its session ends. -/
def State.linkLost (s : State) (l : Nat) : State := ((s.stopLinkDma l).setRf (Reg.PCI_LINK_STATUS l) 20 19 0).endSession l false

/-- PERST_DEASSERT (R399): PERST0_N samples PCIE_BIF and PCIE_BAR_CMP. -/
def execPerstDeassert (link : Fin 2) (bifHigh barCmp : Bool) (s : State) : Host.Outcome State Fault Refusal :=
  done s (if link.val = 0 then (s.setRb Reg.PCI_CFG 30 bifHigh).setRb Reg.PCI_CFG 29 barCmp else s)

/-- PCIE_LINK_CHANGE (R402, R423). -/
def execPcieLinkChange (link : Fin 2) (up : Bool) (rate : Fin 8) (width : Fin 32) (flit : Bool) (s : State) :
    Host.Outcome State Fault Refusal :=
  done s (
    let l := link.val
    if !s.linkThere l || (!up && !s.linkUp l) then s
    else
      let keep := s.rf (Reg.PCI_LINK_STATUS l) 21 19 * 524288
      let s1 := s.setReg (Reg.PCI_LINK_STATUS l) (BitVec.ofNat 32
        (if up then 2147483648 + rate.val * 268435456 + width.val * 8388608 + (if flit then 4194304 else 0) + keep else keep))
      let s2 := if up == s.linkUp l then s1 else s1.sqc Reg.PCI_STATUS l (8 + l)
      if up then s2 else s2.linkLost l)

/-- PCIE_HOT_RESET (R402): a hot reset, or PERST of the link. -/
def execPcieHotReset (link : Fin 2) (s : State) : Host.Outcome State Fault Refusal := done s (s.linkLost link.val)

/-- FLR_PF0 (R402). -/
def execFlrPf0 (link : Fin 2) (s : State) : Host.Outcome State Fault Refusal :=
  done s (
    let l := link.val
    let regs := [Reg.MGT_REQ_ADDR_LO l, Reg.MGT_REQ_ADDR_HI l, Reg.MGT_REQ_LEN l, Reg.MGT_RSP_ADDR_LO l, Reg.MGT_RSP_ADDR_HI l,
      Reg.MGT_RSP_MAX l, Reg.MGT_RSP_STATUS l, Reg.MGT_RSP_VEC l, Reg.PCI_BANK l]
    each regs (fun x off => x.setReg off 0) (s.endSession l false))

/-- FLR_PF1 (R402). -/
def execFlrPf1 (link : Fin 2) (s : State) : Host.Outcome State Fault Refusal :=
  done s (
    let l := link.val
    let s1 := s.stopLinkDma l
    { s1 with hst := { s1.hst with msix := s1.hst.msix.filter fun (p : Nat × MsixVec) => p.1 / 512 != 2 * l + 1 } })

/-- A function enters or leaves D3hot. -/
def State.setD3 (s : State) (l pf : Nat) (v : Bool) : State :=
  let s1 := { s with hst := { s.hst with d3hot := s.hst.d3hot.sd false (2 * l + pf) v } }
  s1.setRb (Reg.PCI_LINK_STATUS l) 21 (s1.hst.d3hot.gd false (2 * l) || s1.hst.d3hot.gd false (2 * l + 1))

/-- D3HOT_ENTRY (R402): the function's channels, which are PF1's, stop. -/
def execD3hotEntry (link pf : Fin 2) (s : State) : Host.Outcome State Fault Refusal :=
  done s (
    let s1 := s.setD3 link.val pf.val true
    if pf.val = 1 then s1.stopLinkDma link.val else s1)

/-- RETURN_TO_D0 (R402): the channels stay STOPPED. -/
def execReturnToD0 (link pf : Fin 2) (s : State) : Host.Outcome State Fault Refusal := done s (s.setD3 link.val pf.val false)

/-- AER_UNCORRECTABLE_ERROR (R423). -/
def execAerUncorrectableError (link : Fin 2) (s : State) : Host.Outcome State Fault Refusal :=
  done s ((s.inc (Reg.PCI_AER_CNT link.val)).sqc Reg.PCI_STATUS 2 10)

/-! ## MSI-X (R421) -/

/-- MSIX_VECTOR_UNMASK (R421): a pending message is sent. The host programs a vector with the function's MSI-X enabled. -/
def execMsixVectorUnmask (link pf : Fin 2) (vec : Fin 512) (s : State) : Host.Outcome State Fault Refusal :=
  done s (
    let k := 1024 * link.val + 512 * pf.val + vec.val
    let s1 := s.setRb (Reg.PCI_LINK_STATUS link.val) (20 - pf.val) true
    let v := s1.msix k
    let s2 := s1.setMsix k { masked := false, pba := false }
    if v.pba then s2.sendMsix link.val pf.val vec.val else s2)

/-! ## DMA (R404-R406) -/

/-- Whether channel d is RUNNING and may act: enabled, its link up, its function in D0. -/
def State.dmaRuns (s : State) (d : Nat) : Bool :=
  s.rb (Reg.PCI_DMA_CFG d) 31 && s.rf (Reg.PCI_DMA_STATUS d) 1 0 == 1 && s.linkUp (s.dmaLink d) &&
    !s.hst.d3hot.gd false (2 * s.dmaLink d + 1)

/-- The host queues that channel d names. -/
def State.dmaQueues (s : State) (d : Nat) : List Nat :=
  (List.range 64).filter fun h => if h < 32 then s.rb (Reg.PCI_DMA_HQ_LO d) h else s.rb (Reg.PCI_DMA_HQ_HI d) (h - 32)

/-- Whether channel d serves host queue h: the lowest-numbered channel that names it does (R404). -/
def State.dmaServes (s : State) (d h : Nat) : Bool :=
  ((List.range 16).find? fun k => s.rb (Reg.PCI_DMA_CFG k) 31 && !s.rb (Reg.PCI_DMA_CFG k) 30 && (s.dmaQueues k).contains h) == some d

/-- The host queue that channel d takes its next frame from: round-robin from the one after the last. -/
def State.dmaNext (s : State) (d : Nat) : Option Nat :=
  ((List.range 64).map fun i => ((s.dma d).lastQ + 1 + i) % 64).find? fun h =>
    s.dmaServes d h && (match s.egq (egKey (64 + h) 0) with | n :: _ => s.reachedS n | [] => false)

/-- log2 of the ring of channel d, and whether a descriptor is there. -/
def State.dmaSize (s : State) (d : Nat) : Nat := s.rf (Reg.PCI_DMA_RING_SZ d) 3 0
def State.dmaFull (s : State) (d : Nat) : Bool := s.reg (Reg.PCI_DMA_HEAD d) != s.reg (Reg.PCI_DMA_TAIL d)

/-- The address of the descriptor at HEAD. -/
def State.dmaDescAt (s : State) (d : Nat) : Nat :=
  (s.reg (Reg.PCI_DMA_RING_LO d)).toNat + (s.reg (Reg.PCI_DMA_RING_HI d)).toNat * two32 + 16 * (s.reg (Reg.PCI_DMA_HEAD d)).toNat

/-- A descriptor done (R405, R406): its bytes 10-15, HEAD, and the completion that a signal must follow. -/
def State.dmaDone (s : State) (d outLen hostq verdict flags : Nat) : State :=
  let desc := leBytes 2 outLen ++ [BitVec.ofNat 8 hostq, BitVec.ofNat 8 verdict, BitVec.ofNat 8 flags, 0]
  let s1 := s.emit (.hostWrite (s.dmaLink d) (s.dmaDescAt d + 10) desc)
  let s2 := s1.setReg (Reg.PCI_DMA_HEAD d) (BitVec.ofNat 32 (((s1.reg (Reg.PCI_DMA_HEAD d)).toNat + 1) % 2 ^ s1.dmaSize d))
  s2.setDma d { s2.dma d with unsig := some ((s2.dma d).unsig.getD s2.up) }

/-- The metadata that precedes a frame (R405): its port timestamp, PORT_ID and verdict. -/
def Frame.dmaMeta (x : Frame) : List Byte := leBytes 12 (time96 x.ts) ++ [BitVec.ofNat 8 x.port, BitVec.ofNat 8 x.verdict, 0, 0]

/-- A frame of host queue h goes to the host (R405). -/
def State.dmaOut (s : State) (d h n : Nat) (desc : DmaDesc) : State :=
  let c := s.copy n
  let x := if c.kind == .publication then {} else s.frame c.fid
  let r := s.copyBody c
  let all := (if s.rb (Reg.PCI_DMA_CFG d) 28 then x.dmaMeta else []) ++ r.1 ++ fcsBytes r.1 false
  let sent := all.take desc.len.toNat
  let s1 := (r.2.emit (.hostWrite (s.dmaLink d) desc.addr.toNat sent)).setDma d { s.dma d with lastQ := h }
  let s2 := s1.dmaDone d sent.length h x.verdict (if sent.length < all.length then 3 else 1)
  (s2.inc (Reg.PCI_DMA_FRAMES d)).endCopy n false

/-- DMA_DELIVER (R404, R405): a channel of DIR 0 with a descriptor and a frame to serve. -/
def execDmaDeliver (d : Fin 16) (desc : DmaDesc) (s : State) : Host.Outcome State Fault Refusal :=
  done s (
    if s.dmaRuns d.val && !s.rb (Reg.PCI_DMA_CFG d.val) 30 && s.dmaFull d.val then
      match s.dmaNext d.val with
      | some h => (match s.egq (egKey (64 + h) 0) with | n :: _ => s.dmaOut d.val h n desc | [] => s)
      | none => s
    else s)

/-- A frame that the host injects comes in at PORT_ID 30, its buffer held by the partition (R404). -/
def State.dmaIn (s : State) (d h : Nat) (bytes : List Byte) (ext : Option SecExt) : State :=
  let r := ((s.inc (Reg.PCI_DMA_FRAMES d)).dmaDone d 0 0 0 1).newFrame 30 0 false
  (((r.2.fillBuf h bytes.length).updFrame r.1 fun x => { x with buf := some h, bufBy := 48 + s.rf (Reg.PCI_DMA_CFG d) 27 24 })).frameTail r.1 bytes true false ext

/-- A descriptor in error (R405). -/
def State.dmaBad (s : State) (d : Nat) : State := (s.inc (Reg.PCI_DMA_ERR d)).dmaDone d 0 0 0 5

/-- DMA_INJECT (R404, R405): a channel of DIR 1 with a descriptor and a token. -/
def execDmaInject (d : Fin 16) (desc : DmaDesc) (bytes : List Byte) (ext : Option SecExt) (s : State) : Host.Outcome State Fault Refusal :=
  done s (
    let n := desc.len.toNat
    let rate := s.rf (Reg.PCI_DMA_CFG d.val) 23 0
    if s.dmaRuns d.val && s.rb (Reg.PCI_DMA_CFG d.val) 30 && s.dmaFull d.val && tokenU ≤ (s.dma d.val).tok.now rate 64 s.up then
      let s1 := s.setDma d.val { s.dma d.val with tok := (s.dma d.val).tok.take rate 64 s.up }
      if n < 64 || 9600 < n then s.dmaBad d.val
      else
        match s1.alloc (48 + s1.rf (Reg.PCI_DMA_CFG d.val) 27 24) n with
        | (some h, s2) => s2.dmaIn d.val h ((bytes ++ List.replicate n 0).take n) ext
        | (none, s2) => s2.dmaBad d.val
    else s)

/-- DMA_SIGNAL (R406): at most once per MOD µs. -/
def execDmaSignal (d : Fin 16) (s : State) : Host.Outcome State Fault Refusal :=
  done s (
    let m := s.rf (Reg.PCI_DMA_IRQ d.val) 15 0
    let early : Bool := match (s.dma d.val).sigAt with | some t => s.up < t + m * usU | none => false
    if m != 0 && (s.dma d.val).unsig.isSome && !early then
      (s.setDma d.val { s.dma d.val with unsig := none, sigAt := some s.up }).sendMsix (s.dmaLink d.val) 1 (s.rf (Reg.PCI_DMA_IRQ d.val) 24 16)
    else s)

/-- DMA_FAULT (R406): 1 a completion timeout, 2 Unsupported Request, 3 Completer Abort. -/
def execDmaFault (d : Fin 16) (why : Fin 4) (s : State) : Host.Outcome State Fault Refusal :=
  done s (
    if s.dmaRuns d.val && why.val != 0 then
      (((s.setRf (Reg.PCI_DMA_STATUS d.val) 1 0 2).setRf (Reg.PCI_DMA_STATUS d.val) 7 4 why.val).inc (Reg.PCI_DMA_ERR d.val)).sqc Reg.PCI_STATUS 3 11
    else s)

/-- START of channel d (R406): refused while FAULTED. -/
def State.dmaStart (s : State) (d : Nat) : State :=
  if s.rf (Reg.PCI_DMA_STATUS d) 1 0 = 2 then s
  else ((s.setReg (Reg.PCI_DMA_HEAD d) 0).setReg (Reg.PCI_DMA_TAIL d) 0).setRf (Reg.PCI_DMA_STATUS d) 1 0 1

/-- STOP of channel d (R406): it is STOPPED, its fault cleared. -/
def State.dmaStop (s : State) (d : Nat) : State := (s.setRf (Reg.PCI_DMA_STATUS d) 1 0 0).setRf (Reg.PCI_DMA_STATUS d) 7 4 0

/-- DMA_START (R406). -/
def execDmaStart (who : Accessor) (d : Fin 16) (s : State) : Host.Outcome State Fault Refusal :=
  done s (s.writeCmd who (Reg.PCI_DMA_CTRL d.val) fun x => x.dmaStart d.val)

/-- DMA_STOP (R406). -/
def execDmaStop (who : Accessor) (d : Fin 16) (s : State) : Host.Outcome State Fault Refusal :=
  done s (s.writeCmd who (Reg.PCI_DMA_CTRL d.val) fun x => x.dmaStop d.val)

/-! ## The windows (R403, R407) -/

/-- Whether BAR0 decodes strictly. -/
def State.strict (s : State) : Bool := !s.rb Reg.PCI_CFG 31 && !s.rb Reg.PCI_CFG 29

/-- BAR0_DECODE_MISS (R407): a strict access outside every register. -/
def execBar0DecodeMiss (link : Fin 2) (write : Bool) (off : BitVec 21) (s : State) : Host.Outcome State Fault Refusal :=
  done s (
    let l := link.val
    if s.linkUp l && s.strict && (regRow (off.toNat / 4 * 4)).isNone then
      ((s.inc (Reg.PCI_DECODE_ERR l)).setReg (Reg.PCI_DECODE_LAST l)
        (BitVec.ofNat 32 ((if write then 2147483648 else 0) + off.toNat))).sqc Reg.PCI_STATUS 5 15
    else s)

/-- PCI_BANK_WRITE (R407). -/
def execPciBankWrite (who : Accessor) (link : Fin 2) (val : Word) (s : State) : Host.Outcome State Fault Refusal :=
  done s (s.writeCmd who (Reg.PCI_BANK link.val) fun x => x.setReg (Reg.PCI_BANK link.val) (BitVec.ofNat 32 (fld val 4 0)))

/-- BAR2_WRITE_DENIED (R403): a write outside the doorbell page. -/
def execBar2WriteDenied (link : Fin 2) (off : BitVec 26) (s : State) : Host.Outcome State Fault Refusal :=
  done s (
    if s.linkUp link.val && !(0x1000000 ≤ off.toNat && off.toNat < 0x1001000) then s.inc (Reg.PCI_B2_DENIED link.val) else s)

/-- Whether a byte of DRAM is host-readable (R447). -/
def State.hostReadable (s : State) (a : Nat) : Bool :=
  (List.range 3).any fun k => s.rb (Reg.REC_RGN k) 31 && s.regionBase k ≤ a && a < s.regionBase k + s.regionSize k && 268435456 ≤ a

/-- BAR2_READ_DENIED (R403): an aperture read of DRAM that is not host-readable. -/
def execBar2ReadDenied (link : Fin 2) (off : BitVec 26) (s : State) : Host.Outcome State Fault Refusal :=
  done s (
    let l := link.val
    let a := off.toNat - 0x2000000
    if s.linkUp l && s.rb (Reg.PCI_B2_CFG l) 1 && 0x2000000 ≤ off.toNat &&
        !s.hostReadable (s.rf (Reg.PCI_APER_BASE l (a / 8388608)) 11 0 * 8388608 + a % 8388608) then
      s.inc (Reg.PCI_B2_DENIED l)
    else s)

end Sys2Proof.Machine
end

