-- ==== Sys2Proof/Machine/Ddr.lean ====
section
/-!
DEFINITION. The DDR5 controller (R440-R446) and the background scrubs of DRAM, plane SRAM and cluster SRAM (R139, R282, R445).
-/

namespace Sys2Proof.Machine

/-- STATE of the controller (R446): 0 OFF, 1 TRAINING, 2 RUNNING, 3 FAILED. -/
def State.ddrState (s : State) : Nat := s.rf Reg.DDR_STATUS 1 0

/-- A change of state raises EV312. -/
def State.setDdrState (s : State) (v : Nat) : State :=
  if s.ddrState = v then s else (s.setRf Reg.DDR_STATUS 1 0 v).sqc Reg.DDR_STATUS 4 312

/-- The geometry of DDR_STRAP (R440): speed, two ranks, 32 Gb parts. -/
def State.ddrSpeed (s : State) : Nat := s.rf Reg.DDR_CFG 1 0
def State.ddrTwoRanks (s : State) : Bool := s.rb Reg.DDR_CFG 2
def State.ddr32Gb (s : State) : Bool := s.rb Reg.DDR_CFG 3

/-- Whether there is DRAM: a speed, and not two ranks of 32 Gb. -/
def State.ddrThere (s : State) : Bool := s.ddrSpeed != 0 && !(s.ddrTwoRanks && s.ddr32Gb)

/-- The capacity in bytes. -/
def State.ddrBytes (s : State) : Nat := if !s.ddrThere then 0 else if s.ddrTwoRanks || s.ddr32Gb then 34359738368 else 17179869184

/-- DDR_REFRESH (R444): every access waits tRFC, in fabric cycles of 1 ns. A reading above 85 degrees halves tREFI from here on, and four
readings in a row at or below it restore it (EV319). -/
def execDdrRefresh (s : State) : Host.Outcome State Fault Refusal :=
  done s (
    if s.ddrState = 2 then
      let n := if s.ddr32Gb then 410 else 295
      let s0 := (s.inc Reg.DDR_REFRESH).pmuFab 0x8E {} n
      let s1 := { s0 with ddr := { s0.ddr with busyTo := s.up + n * nsU } }
      let hot := s1.ddr.cool < 4
      if hot == s1.rb Reg.DDR_STATUS 7 then s1 else (s1.setRb Reg.DDR_STATUS 7 hot).sqc Reg.DDR_STATUS 6 319
    else s)

/-- DDR_TEMP_READ (R444). -/
def execDdrTempRead (hot : Bool) (s : State) : Host.Outcome State Fault Refusal :=
  done s (
    if s.ddrState = 2 then { s with ddr := { s.ddr with cool := if hot then 0 else min 4 (s.ddr.cool + 1) } } else s)

/-- An uncorrectable line (R445): counted, recorded, EV313. -/
def State.badLine (s : State) (line : Nat) : State :=
  let s1 := { s with ddr := { s.ddr with bad := s.ddr.bad.sd false line true } }
  (((s1.inc Reg.DDR_ECC_UNCORR).setReg Reg.DDR_UNCORR_ADDR_LO (BitVec.ofNat 32 (64 * line))).setReg Reg.DDR_UNCORR_ADDR_HI
    (BitVec.ofNat 32 (64 * line / two32))).sqc Reg.DDR_STATUS 5 313

/-- DDR_SCRUB_LINE (R445). -/
def execDdrScrubLine (line : Nat) (err : ScrubError) (s : State) : Host.Outcome State Fault Refusal :=
  done s (
    if s.ddrState = 2 && 64 * line < s.ddrBytes then
      match err with
      | .clean => s
      | .single => s.inc Reg.DDR_ECC_CORR
      | .uncorrectable => s.badLine line
    else s)

/-- DDR_TRAINING_DONE (R446). -/
def execDdrTrainingDone (pass : Bool) (s : State) : Host.Outcome State Fault Refusal :=
  done s (if s.ddrState = 1 then s.setDdrState (if pass then 2 else 3) else s)

/-- PLANE_SRAM_SCRUB (R139): an uncorrectable word reads as zero until the SPE writes it. -/
def execPlaneSramScrub (cs : BitVec 13) (i : BitVec 8) (err : ScrubError) (s : State) : Host.Outcome State Fault Refusal :=
  done s (
    match err with
    | .clean => s
    | .single => ({ s with spe := { s.spe with flip := s.spe.flip.sd false (256 * cs.toNat + i.toNat) false } }).inc Reg.SPE_ECC_CORR
    | .uncorrectable =>
      let k := 256 * cs.toNat + i.toNat
      (({ s with spe := { s.spe with ecc := s.spe.ecc.sd false k true } }).inc Reg.SPE_ECC_UNCORR).sqc Reg.SPE_STATUS 9 171)

/-- CLUSTER_SRAM_SCRUB (R282): a load that meets an uncorrectable word faults (R205). -/
def execClusterSramScrub (c : Fin 6) (unit : BitVec 18) (err : ScrubError) (s : State) : Host.Outcome State Fault Refusal :=
  done s (
    match err with
    | .clean => s
    | .single => s.inc (Reg.CLU_SRAM_CORR c.val)
    | .uncorrectable => { s with clu := { s.clu with sramBad := s.clu.sramBad.sd false (262144 * c.val + unit.toNat) true } })

end Sys2Proof.Machine
end

