-- ==== Sys2Proof/Machine/Power.lean ====
section
/-!
DEFINITION. Power, resets and temperature (R472-R482, R490): the always-on reset, the main reset and its causes, cluster reset, adaptive voltage
scaling, the temperature sensors; boot steps B1 to B6 (R486).
-/

namespace Sys2Proof.Machine

/-! ## Main and always-on reset (R480, R481) -/

/-- Whether a register outlives a main reset: Sable's page, PWR_RESET_CAUSE and PWR_RESETS. -/
def auxReg (off : Nat) : Bool := off / 0x1000 == 0x16 || off == Reg.PWR_RESET_CAUSE || off == Reg.PWR_RESETS

/-- Sable after a main reset: what it had in progress for a session is gone with the session. -/
def Sable.cut (b : Sable) : Sable := { b with job := none, signing := none, fifo := [] }

/-- Every block but Sable and the always-on part of PWR at its reset values, in COLD (R480). The numbers of free values and nonces used, which are
the model's own, go on. -/
def State.mainClear (s : State) : State :=
  { pending := s.pending, up := s.up, fv := s.fv, out := s.out
    regs := s.regs.filter fun p => auxReg p.1
    sab := s.sab.cut
    dbg := { nonce := s.dbg.nonce }
    pwr := { st := .cold, prev := s.pwr.st, vaux := s.pwr.vaux, mainGood := s.pwr.mainGood, hold := s.pwr.hold, bootAt := s.up } }

/-- SYS_STATE while the device is in COLD. -/
def State.showCold (s : State) : State := s.setReg Reg.SYS_STATE (BitVec.ofNat 32 (16 * devCode s.pwr.prev))

/-- A main reset with its cause (R481): a second cause of the same cycle adds its bits. -/
def State.mainReset (s : State) (cause : Nat) : State :=
  if s.pwr.st = .cold ∧ s.pwr.bootAt = s.up ∧ !s.pwr.resetHigh then
    s.setReg Reg.PWR_RESET_CAUSE (s.reg Reg.PWR_RESET_CAUSE ||| BitVec.ofNat 32 cause)
  else (s.mainClear.showCold.setReg Reg.PWR_RESET_CAUSE (BitVec.ofNat 32 cause)).inc Reg.PWR_RESETS

/-- MAIN_RESET (R480): RESET_N low. -/
def execMainReset (s : State) : Host.Outcome State Fault Refusal := done s (s.mainReset 8)

/-- PWR_GOOD_LOSS (R475). -/
def execPwrGoodLoss (s : State) : Host.Outcome State Fault Refusal :=
  done s (let x := s.mainReset 4; { x with pwr := { x.pwr with mainGood := false } })

/-- RAIL_FAULT (R475): a main rail, numbered as PWR_RAIL numbers it, while RESET_N is high. The cause names its row in R472 (R494): 6 for both
rails of VPHY. -/
def execRailFault (rail : Fin 8) (s : State) : Host.Outcome State Fault Refusal :=
  done s (if s.pwr.resetHigh && rail.val != 0 then s.mainReset (2 + 256 * min rail.val 6) else s)

/-- What VAUX holds is lost (R372): of Sable, OTP alone remains. -/
def State.auxLost (s : State) : State := { s with sab := { otp := s.sab.otp } }

/-- VAUX_FALL (R473): the zeroisation of the VAUX monitor and a main reset where main power is present; then COLD. -/
def execVauxFall (s : State) : Host.Outcome State Fault Refusal :=
  done s (
    if s.pwr.vaux then
      let s1 := if !s.pwr.mainGood then s.abandonBlock
        else if s.rb Reg.SAB_TAMP_CFG 0 then (s.tamperTrip 1 17).mainReset 0 else s.zeroise.mainReset 0
      let s2 := s1.auxLost
      { s2 with pwr := { s2.pwr with vaux := false } }
    else s)

/-- VAUX_RISE (R373, R480, R481): the always-on reset, then a main reset. The holdover counter starts at zero; the KILL fuse shows. -/
def execVauxRise (s : State) : Host.Outcome State Fault Refusal :=
  done s (
    if s.pwr.vaux then s
    else
      let x := s.auxLost.mainClear
      let y := { x with
        regs := []
        pwr := { x.pwr with vaux := true, hold := some (0, s.up) } }
      (y.showCold).setRb Reg.SAB_FLAGS 1 s.sab.otp.kill)

/-- Whether a write of SYS_RESET names its key. -/
def resetKey (val : Word) : Bool := fld val 31 16 == 0x7340

/-- SYS_RESET_DEVICE (R480, R494): DEVICE with a mask does nothing. -/
def execSysResetDevice (who : Accessor) (val : Word) (s : State) : Host.Outcome State Fault Refusal :=
  done s (s.writeCmd who Reg.SYS_RESET fun x => if resetKey val && fld val 5 0 = 0 then x.mainReset 1 else x)

/-! ## Cluster reset (R482) -/

/-- The runs of cluster c end, its threads go OFF and its holders are lost. -/
def State.stopCluster (s : State) (c : Nat) : State :=
  let s1 := each ((s.tasksOf c).filter fun n => (s.task n).inRun) (fun x n => x.forceEnd n 6) s
  each ((List.range 128).map (128 * c + ·)) (fun x k =>
    if (x.thr k).st = .off then x
    else (x.stopThread k).updThr k fun t => { t with st := .off, task := none, incoming := none, leaving := false }) s1

/-- The memories of cluster c: SRAM zero, program memory as the retained copy has it. -/
def State.clearMemories (s : State) (c : Nat) : State :=
  { s with clu := { s.clu with
    sram := s.clu.sram.filter fun (p : Nat × Byte) => p.1 / 2097152 != c
    sramBad := s.clu.sramBad.filter fun (p : Nat × Bool) => p.1 / 262144 != c
    pmem := (s.cfg.prog.filter fun (p : Nat × PWord) => p.1 / 262144 == c).foldl (fun (m : SMap PWord) (p : Nat × PWord) => m.sd 0 p.1 p.2)
      (s.clu.pmem.filter fun (p : Nat × PWord) => p.1 / 262144 != c)
    pmemBad := s.clu.pmemBad.filter fun (p : Nat × Bool) => p.1 / 262144 != c } }

/-- Whether mailbox m lies in cluster c. -/
def State.mbIn (s : State) (c m : Nat) : Bool := s.mbEn c m

/-- Locks, channels, mailboxes and saved contexts of cluster c. -/
def State.clearShared (s : State) (c : Nat) : State :=
  let s1 := { s with clu := { s.clu with
    llocks := s.clu.llocks.filter fun (p : Nat × Lock) => p.1 / 64 != c
    chans := s.clu.chans.filter fun (p : Nat × Chan) => p.1 / 64 != c
    ready := s.clu.ready.filter fun (p : Nat × List Nat) => p.1 / 32 != c
    mbox := s.clu.mbox.mapD {} fun m (b : Mailbox) => if s.mbIn c m then { b with full := false, coll := false, lost := false } else b
    groups := s.clu.groups.filter fun (p : Nat × WaitGroup) => p.1 / 16 != c } }
  each (s1.tasksOf c) (fun x n => x.updTask n fun t =>
    { t.forget with pend := false, retrPend := false, pendCauses := 0, pendAux := 0, inRun := false, wait := none }) s1

/-- Cluster c goes into reset. -/
def State.resetCluster (s : State) (c : Nat) : State :=
  let s1 := { s with clu := { s.clu with resetting := s.clu.resetting.sd false c true } }
  ((s1.stopCluster c).clearMemories c).clearShared c

/-- The clusters in reset, as SYS_RESET_STATUS shows them. -/
def State.showResets (s : State) : State :=
  let m := ((List.range 6).filter fun c => s.clu.resetting.gd false c).foldl (fun a c => a + 2 ^ c) 0
  s.setReg Reg.SYS_RESET_STATUS (BitVec.ofNat 32 (m * 65536 + if m = 0 then 0 else 2147483648))

/-- SYS_RESET_CLUSTER (R482, R494): DEVICE with a mask does nothing. -/
def execSysResetCluster (who : Accessor) (val : Word) (s : State) : Host.Outcome State Fault Refusal :=
  done s (s.writeCmd who Reg.SYS_RESET fun x =>
    if !resetKey val || tbit val 8 then x
    else if [DevState.test, .service, .recovery].contains x.pwr.st && !x.arming then
      (each ((List.range 6).filter fun c => tbit val c) State.resetCluster x).showResets
    else x.setRf Reg.SYS_RESET_STATUS 3 0 7)

/-- The configuration of cluster c again (R482): its tasks DORMANT, its timers validated, its threads on, its supervisor at ENTRY. -/
def State.startCluster (s : State) (c : Nat) : State :=
  let s1 := { s with clu := { s.clu with resetting := s.clu.resetting.sd false c false } }
  let s2 := each (s1.tasksOf c) (fun x n => x.updTask n fun t => { t with st := if x.taskLive n then .dormant else .disabled }) s1
  let s3 := each ((List.range 32).map (32 * c + ·)) (fun x k => State.commitTimer State.reset x k) s2
  each (((List.range 128).map (128 * c + ·)).filter s3.thrLive) State.beginThread s3

/-- CLUSTER_RESET_DONE (R482). -/
def execClusterResetDone (c : Fin 6) (s : State) : Host.Outcome State Fault Refusal :=
  done s (if s.clu.resetting.gd false c.val then ((s.startCluster c.val).showResets).sqc Reg.SYS_STATUS 4 7 else s)

/-! ## Boot steps B1 to B6 (R38, R486) -/

/-- The value of the holdover counter: what was copied into it, and the crystal's count since. -/
def State.holdValue (s : State) : Nat :=
  match s.pwr.hold with
  | some (t, u) => t + (s.up - u) / 2000000000 * 2000000000
  | none => s.up / 2000000000 * 2000000000

/-- Device time at the start of the time base (R38). -/
def State.startTime (s : State) (held : Bool) : State :=
  if held then ({ s with time := s.holdValue, ind := { s.ind with restored := true } }).deliver 46 else { s with time := 0 }

/-- STEP of SYS_BOOT_STATUS. -/
def State.bootStep (s : State) (n : Nat) : State := s.setRf Reg.SYS_BOOT_STATUS 31 28 n

/-- B1: straps, the causes of the reset, the rails in range, AVS. -/
def State.bootB1 (s : State) (bootSrc : BitVec 2) (avsLow : Bool) : State :=
  let s1 := (((s.setReg Reg.SYS_STATE (BitVec.ofNat 32 (256 * bootSrc.toNat + 1))).setReg Reg.DDR_CFG
    (Config.ddrStrap.setWidth 32)).setReg Reg.PWR_RAIL 255).setRb Reg.PWR_AVS 31 (!avsLow)
  let s2 := { s1 with pwr := { s1.pwr with st := .boot, prev := .cold, mainGood := true, resetHigh := true, bootAt := s.up, avsOff := avsLow } }
  if s2.rb Reg.PWR_RESET_CAUSE 1 then s2.sqc Reg.PWR_STATUS 1 5 else s2

/-- RESET_RELEASE (R486): steps B1 to B3, then training begins where there is DRAM (R446). -/
def execResetRelease (bootSrc : BitVec 2) (avsLow vauxHeld : Bool) (s : State) : Host.Outcome State Fault Refusal :=
  done s (
    if s.pwr.vaux && !s.pwr.resetHigh then
      let s1 := (s.bootB1 bootSrc avsLow).startTime vauxHeld
      (s1.setDdrState (if s1.ddrThere then 1 else 0)).bootStep 4
    else s)

/-- The time since RESET_N went high, in ms. -/
def State.bootMs (s : State) : Nat := min ((s.up - s.pwr.bootAt) / msU) 65535

/-- B6: CONFIG, and the boot source (R487): the engine runs for the sources 1 and 2. -/
def State.enterConfig (s : State) : State :=
  let s1 := ((s.goState .config).bootStep 6).setRf Reg.SYS_BOOT_TIME 15 0 s.bootMs
  let src := s1.rf Reg.SYS_STATE 9 8
  if src = 1 ∨ src = 2 then { s1 with pwr := { s1.pwr with engine := { phase := .directory } } }
  else s1.setRf Reg.SYS_BOOT_STATUS 26 24 5

/-- CONFIG_ENTRY (R486): self-test and training are over; the KILL fuse decides between SAFE and CONFIG. -/
def execConfigEntry (bistFail : BitVec 24) (s : State) : Host.Outcome State Fault Refusal :=
  done s (
    if s.pwr.st = .boot ∧ s.pwr.resetHigh ∧ s.ddrState ≠ 1 then
      let s1 := each (List.range 24) (fun x j => x.setRb (Reg.CFG_TILE j) 19 (bistFail.getLsbD j)) s
      if s.sab.otp.kill then (s1.bootStep 5).goSafe 2 else s1.enterConfig
    else s)

/-! ## Adaptive voltage scaling and temperature (R476, R490) -/

/-- The target of the next write: 5 mV nearer to what process corner and temperature call for, within 700 to 850 mV. -/
def avsStep (cur want : Nat) : Nat := max 700 (min 850 (if cur < want then cur + 5 else if want < cur then cur - 5 else cur))

/-- AVS_UPDATE (R476). -/
def execAvsUpdate (target reported : BitVec 10) (ack : Bool) (s : State) : Host.Outcome State Fault Refusal :=
  done s (
    if s.pwr.resetHigh && !s.pwr.avsOff && !s.rb Reg.PWR_AVS 30 then
      let t := avsStep (s.rf Reg.PWR_AVS 25 16) target.toNat
      let s1 := s.emit (.avs t)
      if ack then
        (({ s1 with pwr := { s1.pwr with avsFails := 0 } }).setRf Reg.PWR_AVS 25 16 t).setRf Reg.PWR_AVS 9 0 reported.toNat
      else if s.pwr.avsFails + 1 < 3 then { s1 with pwr := { s1.pwr with avsFails := s.pwr.avsFails + 1 } }
      else (({ s1 with pwr := { s1.pwr with avsFails := 3 } }).setRb Reg.PWR_AVS 30 true).sqc Reg.PWR_STATUS 2 6
    else s)

/-- The hottest of the sensors: its reading, in units of 0.25 degrees, and its number; the first of equals. -/
def hottest : List Int → Nat → Int × Nat
  | [], n => (-32768, n)
  | [t], n => (t, n)
  | t :: l, n => (let r := hottest l (n + 1); if r.1 ≤ t then (t, n) else r)

/-- What the temperature calls for (R490): EV004 once until it has fallen by 5 degrees, and SAFE. -/
def State.judgeTemp (s : State) (t : Int) : State :=
  let warn : Int := 4 * s.rf Reg.PWR_TEMP_CFG 7 0
  let safe : Int := 4 * s.rf Reg.PWR_TEMP_CFG 15 8
  let s1 := if t ≤ warn - 20 then { s with pwr := { s.pwr with warnArmed := true } } else s
  let s2 := if warn ≤ t && s1.pwr.warnArmed then ({ s1 with pwr := { s1.pwr with warnArmed := false } }).sqc Reg.PWR_STATUS 0 4 else s1
  if safe ≤ t then s2.goSafe 5 else s2

/-- TEMPERATURE_SAMPLE (R490). -/
def execTemperatureSample (t0 t1 t2 t3 t4 t5 t6 t7 : BitVec 16) (s : State) : Host.Outcome State Fault Refusal :=
  done s (
    if s.pwr.resetHigh then
      let ts := [t0, t1, t2, t3, t4, t5, t6, t7]
      let h := hottest (ts.map (·.toInt)) 0
      let s1 := each (List.range 8) (fun x n => x.setReg (Reg.PWR_TEMP_SENS n) ((ts.getD n 0).setWidth 32)) s
      let cur := BitVec.ofNat 32 ((BitVec.ofInt 16 h.1).toNat * 65536 + h.2)
      let s2 := s1.setReg Reg.PWR_TEMP cur
      let s3 := if (BitVec.ofNat 16 (s2.rf Reg.PWR_TEMP_MAX 31 16)).toInt < h.1 then s2.setReg Reg.PWR_TEMP_MAX cur else s2
      s3.judgeTemp h.1
    else s)

/-- TEMP_MAX_RESET (R494). -/
def execTempMaxReset (who : Accessor) (s : State) : Host.Outcome State Fault Refusal :=
  done s (s.writeCmd who Reg.PWR_TEMP_MAX fun x => x.setReg Reg.PWR_TEMP_MAX (x.reg Reg.PWR_TEMP))

/-- PAUSE_IGNORE_END (R163): the second in which a flushed port ignores PAUSE is over. -/
def execPauseIgnoreEnd (p : Fin 16) (s : State) : Host.Outcome State Fault Refusal :=
  done s (
    if (s.pause p.val).ignoreUntil ≤ s.up then s.setPause p.val { s.pause p.val with ignoreUntil := 0 } else s)

end Sys2Proof.Machine
end

