-- ==== Sys2Proof/Machine/Boot.lean ====
section
/-!
DEFINITION. The boot engine (R487-R489): one unit of the flash, or one wait, at a time.
-/

namespace Sys2Proof.Machine

/-! ## The directory (R488) -/

/-- Whether the 4,096 bytes of a directory have the form of R488. -/
def dirOk (bs : List Byte) : Bool :=
  bs.length == 4096 && bs.take 4 == [0x55, 0x42, 0x44, 0x52] && leAt bs 4 1 == 1 && 1 ≤ leAt bs 5 1 && leAt bs 5 1 ≤ 32 &&
    2 ≤ leAt bs 6 1 && leAt bs 6 1 ≤ 4 && leAt bs 4092 4 == crc32 0 (bs.take 4092)

/-- The entries of a directory: KIND, OFFSET, LENGTH. -/
def dirEntries (bs : List Byte) : List (Nat × Nat × Nat) :=
  (List.range (leAt bs 5 1)).map fun i => (leAt bs (8 + 16 * i) 1, leAt bs (12 + 16 * i) 4, leAt bs (16 + 16 * i) 4)

/-! ## Progress -/

/-- The engine passed through f. -/
def State.updEngine (s : State) (f : BootEngine → BootEngine) : State := { s with pwr := { s.pwr with engine := f s.pwr.engine } }

/-- The engine in a phase, no answer outstanding. -/
def State.enginePhase (s : State) (p : BootPhase) : State := s.updEngine fun e => { e with phase := p, answer := none }

/-- The engine stops with an outcome (R489): EV002 where it has finished. -/
def State.engineStop (s : State) (outcome : Nat) : State :=
  let s1 := (s.enginePhase .idle).setRf Reg.SYS_BOOT_STATUS 26 24 outcome
  (s1.setRf Reg.SYS_BOOT_TIME 31 16 s1.bootMs).sqc Reg.SYS_STATUS 2 2

/-- A copy fails at an entry (31: at its directory, or after its entries) with a result: the shadow is discarded, and copy B follows copy A. -/
def State.copyFails (s : State) (entry res : Nat) : State :=
  let s1 := ((s.discardAll.setRf Reg.SYS_BOOT_STATUS 20 16 entry).setRf Reg.SYS_BOOT_STATUS 7 0 res).sqc Reg.SYS_STATUS 3 3
  if s.pwr.engine.copyB then s1.engineStop 3
  else (s1.updEngine fun e => { e with phase := .directory, copyB := true, dir := [], answer := none }).setRb Reg.SYS_BOOT_STATUS 27 true

/-- The directory of the copy under way. -/
def State.bootDir (s : State) (bs : List Byte) : State :=
  if dirOk bs then s.updEngine fun e => { e with phase := .entry 0, dir := dirEntries bs, final := leAt bs 6 1, answer := none }
  else s.copyFails 31 0

/-- A unit goes in, or its submission is refused. -/
def State.submitted (r : Option Nat × State) : State :=
  match r.1 with
  | some c => r.2.answer .engine c []
  | none => r.2

/-- An image through IMG_BEGIN to IMG_END (R331). -/
def State.bootImage (s : State) (bs : List Byte) : State :=
  if s.ddrState ≠ 2 then s.answer .engine codeReject [] else State.submitted (((s.imgBegin .engine).imgData .engine bs).2.imgEnd .engine)

/-- Entry i is submitted with ADMIN authority; a package waits for the one in check. -/
def State.submitEntry (s : State) (i : Nat) (bs : List Byte) : State :=
  match s.pwr.engine.dir[i]? with
  | none => s.enginePhase .check
  | some (kind, _, len) =>
    let data := bs.take len
    match kind with
    | 0 => s.bootImage data
    | 1 => if s.sab.job.isSome then s else s.pkgBegin .engine 0x30 data
    | 2 => if s.sab.job.isSome then s else s.pkgBegin .engine 0x31 data
    | _ => s.answer .engine 16 []

/-- Whether what the engine submitted is still being worked on. -/
def State.engineWaits (s : State) : Bool :=
  (match s.cfg.verifying with | some g => g.by_ == .engine | none => false) || (match s.sab.job with | some j => j.by_ == .engine | none => false) ||
    s.cfg.checking == some .engine

/-- After the last entry the copy is checked and armed with KIND 0 (R338). -/
def State.bootArm (s : State) : State :=
  let r := s.arm .engine [0, 0, 0, 0]
  if r.1 = 0 then r.2.enginePhase .committing else r.2.copyFails 31 r.1

/-- The commit has fired, or was cancelled: for BOOT_SRC 1 the engine requests FINAL (R484). -/
def State.bootFinish (s : State) : State :=
  if s.cfg.shadow = .checked then s.copyFails 31 codeReject
  else
    let s1 := s.engineStop (if s.pwr.engine.copyB then 2 else 1)
    if s.rf Reg.SYS_STATE 9 8 = 1 then
      match s.pwr.engine.final with
      | 3 => s1.askState .test
      | 4 => s1.askState .service
      | _ => s1
    else s1

/-- ABORT takes effect (R489). -/
def State.bootStop (s : State) : State :=
  let s1 := if s.cfg.armBy = some .engine ∧ !s.commitDue then s.disarm else s
  let s2 := s1.discardAll.enginePhase .idle
  ((s2.updEngine fun e => { e with abort := false }).setRf Reg.SYS_BOOT_STATUS 26 24 4).setRf Reg.SYS_BOOT_TIME 31 16 s.bootMs

/-- The engine goes on by one step. -/
def State.bootStep1 (s : State) (bs : List Byte) : State :=
  match s.pwr.engine.phase, s.pwr.engine.answer with
  | .idle, _ => s
  | .directory, _ => s.bootDir bs
  | .entry i, some 0 => s.enginePhase (if i + 1 < s.pwr.engine.dir.length then .entry (i + 1) else .check)
  | .entry i, some r => s.copyFails i r
  | .entry i, none => s.submitEntry i bs
  | .check, some 0 => s.bootArm
  | .check, some r => s.copyFails 31 r
  | .check, none => State.submitted (s.checkBegin .engine)
  | .committing, _ => if s.cfg.armBy = some .engine then s else s.bootFinish

/-- BOOT_ENGINE_RUN (R489): the bytes of the flash that the engine reads next; with a submission in work it waits. -/
def execBootEngineRun (bytes : List Byte) (s : State) : Host.Outcome State Fault Refusal :=
  done s (
    if s.engineWaits then s
    else if s.pwr.engine.abort && s.bootRuns then s.bootStop
    else s.bootStep1 bytes)

/-- BOOT_ABORT (R489): the engine stops after its current entry. -/
def State.bootAbort (s : State) (val : Word) : State :=
  if !tbit val 0 || !s.bootRuns then s
  else if s.engineWaits then s.updEngine fun e => { e with abort := true }
  else s.bootStop

def execBootAbort (who : Accessor) (val : Word) (s : State) : Host.Outcome State Fault Refusal :=
  done s (s.writeCmd who Reg.SYS_BOOT_CTRL fun x => x.bootAbort (putBit val 0 true))

end Sys2Proof.Machine
end

