-- ==== Sys2Proof/Machine/View.lean ====
section
/-!
DEFINITION. The registers that show what the blocks hold (R7, R53, R87, R169, R192, R220, R258, R280, R298, R319, R359, R397, R422, R500): each is
computed from the state when it is read, and every other register is what the store holds.
-/

namespace Sys2Proof.Machine

/-- A flag at a bit. -/
def flag (b : Bool) (bit : Nat) : Nat := if b then 2 ^ bit else 0

/-- Bit i set where f i holds, i below n. -/
def bitsOf (n : Nat) (f : Nat → Bool) : Nat := (setSum ((List.range n).filter f))
where
  /-- The sum of the powers of two of a list of bit numbers. -/
  setSum : List Nat → Nat
    | [] => 0
    | i :: l => 2 ^ i + setSum l

/-! ## Time and angle (R53, R54) -/

/-- IND_TIME_STATUS: the flags that the store holds, and the state beside them. -/
def State.viewTime (s : State) : Word :=
  let st := match s.ind.st with | .freerun => 0 | .acquiring => 1 | .locked => 2 | .holdover => 3
  putFld (putBit (putFld (putFld (s.reg Reg.IND_TIME_STATUS) 17 16 s.ind.src) 15 8 s.timeQuality) 3 s.ind.restored) 2 0 st

/-- IND_ACLK_STATUS(n). -/
def State.viewAclk (s : State) (n : Nat) : Word :=
  let c := s.aclk n
  putFld (putBit (putBit (s.reg (Reg.IND_ACLK_STATUS n)) 15 c.pulling) 12 c.src2) 2 0 (aclkCode c.st)

/-- A register of the IND page: what it shows of the state, none where the store is the whole. -/
def State.viewInd (s : State) (off : Nat) : Option Word :=
  let n := (off - 0x3400) / 0x40
  if off = Reg.IND_TIME_STATUS then some s.viewTime
  else if 0x3008 ≤ off ∧ off ≤ 0x3010 then some (timeWord s.time ((off - 0x3008) / 4))
  else if 0x3400 ≤ off ∧ off < 0x3800 then
    (if off = Reg.IND_ACLK_STATUS n then some (s.viewAclk n)
     else if off = Reg.IND_ACLK_VALUE_LO n then some (BitVec.ofNat 32 (s.aclk n).value)
     else if off = Reg.IND_ACLK_VALUE_HI n then some (BitVec.ofNat 32 ((s.aclk n).value / two32))
     else if off = Reg.IND_ACLK_FREQ n then some (BitVec.ofNat 32 (s.aclk n).freq)
     else none)
  else none

/-! ## The fabric -/

/-- The nodes of group r (R65, R88): the field has 10 bits, and a full table of 1,024 shows as 1,023 (DESIGN CHOICE, log 151). -/
def State.viewRed (s : State) (off : Nat) : Option Word :=
  let r := (off - 0x4800) / 0x40
  if 0x4800 ≤ off ∧ off = Reg.ETH_RED_STATUS r then some (BitVec.ofNat 32 (min (s.group r).nodes.length 1023)) else none

/-- PLCA_ACTIVE of a segment (R61). -/
def State.viewSeg (s : State) (off : Nat) : Option Word :=
  let g := (off - 0x5000) / 0x100
  if off = Reg.T1S_SEG_STATUS g then some (putBit (s.reg off) 0 (s.plcaOn g)) else none

/-- A port policer (R86, R88). -/
def State.viewCls (s : State) (off : Nat) : Option Word :=
  let p := (off - Reg.CLS_PORT_POL 0) / 4
  if Reg.CLS_PORT_POL 0 ≤ off ∧ off = Reg.CLS_PORT_POL p ∧ p < 20 then
    some (BitVec.ofNat 32 ((s.portRate p).2 * 16777216 + (s.portRate p).1))
  else none

/-- The staged epoch (R113). -/
def State.viewAut (s : State) (off : Nat) : Option Word :=
  if off = Reg.AUT_EPOCH_STAGED then some (BitVec.ofNat 32 s.epochStaged)
  else if off = Reg.AUT_EPOCH_STATUS then some (putBit (s.reg off) 0 (s.epochStaged != 0))
  else none

/-- The frames of the two rule-set epochs (R152). -/
def State.viewLan (s : State) (off : Nat) : Option Word :=
  if off = Reg.LAN_EPOCH_REF then
    some (BitVec.ofNat 32 (s.epochRefs (s.rf Reg.LAN_EPOCH 31 16) % 65536 * 65536 + s.epochRefs (s.rf Reg.LAN_EPOCH 15 0) % 65536))
  else none

/-- The pools (R178, R179, R192). -/
def State.viewOch (s : State) (off : Nat) : Option Word :=
  let p := (off - 0xE000) / 0x20
  if off = Reg.OCH_F then some (BitVec.ofNat 32 s.freeF)
  else if off < 0xE080 then
    (if off = Reg.OCH_POOL_FREE p then some (BitVec.ofNat 32 ((s.pool p).quar * 65536 + s.poolFree p % 65536))
     else if off = Reg.OCH_POOL_SHARED p then some (BitVec.ofNat 32 (flag (s.poolShort p) 31 + s.poolShared p % 65536))
     else none)
  else none

/-- The MAC table and its learning queue (R193). -/
def State.viewFwd (s : State) (off : Nat) : Option Word :=
  if off = Reg.FWD_COUNT then some (BitVec.ofNat 32 (s.och.mac.filter fun (p : Nat × MacSlot) => p.2.valid).length)
  else if off = Reg.FWD_LQ_COUNT then some (BitVec.ofNat 32 s.och.learn.length)
  else none

/-- The queue occupancy of the coprocessor of tile j (R246, R258). -/
def State.viewCpx (s : State) (off : Nat) : Option Word :=
  let j := (off - 0x10000) / 0x40
  let n := fun (q : Nat) => (s.cpx.cmds.filter fun (p : Nat × CpxCmd) => p.2.live && p.2.tid / 8 == 4 * j + q).length % 32
  if off = Reg.CPX_QSTAT j then some (BitVec.ofNat 32 (n 0 + 32 * n 1 + 1024 * n 2 + 32768 * n 3)) else none

/-! ## The clusters -/

/-- The code of a thread state (R195). -/
def threadCode : ThreadSt → Nat
  | .off => 0 | .idle => 1 | .ready => 2 | .waiting => 4 | .halted => 5 | .faulted => 6

/-- The code of a channel state (R210). -/
def chanCode : ChanSt → Nat
  | .empty => 0 | .filling => 1 | .held => 2 | .full => 3

/-- CLU_THR_STATUS of thread k (R220). -/
def State.viewThread (s : State) (k : Nat) : Word :=
  let t := s.thr k
  BitVec.ofNat 32 (t.task.getD 0 * 4194304 + (if s.isStalled k then 3 else threadCode t.st) * 524288 + privCode t.priv * 131072 + flag t.ctx.taint 16 + t.ctx.pc.toNat)

/-- CLU_CHN_STATUS of channel k (R220). -/
def State.viewChan (s : State) (k : Nat) : Word :=
  let c := s.chan k
  let ft := match c.filler with
    | some (.task cl i) => (i, (s.task (1024 * cl + i)).thread)
    | some (.thread j) => (0, j % 128)
    | none => (0, 0)
  BitVec.ofNat 32 (ft.1 * 4194304 + ft.2 * 16384 + flag c.prov 7 + flag c.taint 6 + c.len * 16 + chanCode c.st)

/-- The state of a lock (R298): CLU_LCK_LSTAT, CLU_LCK_GSTAT and STAT. -/
def Lock.word (l : Lock) : Word :=
  let h := match l.holder with
    | some (.task c i) => 2 ^ 31 + 2 ^ 28 + c * 33554432 + i * 32768
    | some (.thread k) => 2 ^ 31 + k / 128 * 33554432 + k % 128 * 32768
    | none => 0
  BitVec.ofNat 32 (h + flag l.abandoned 30 + flag l.stuck 29 + l.queue.length * 4)

/-- A register of a cluster window; a mailbox shows in the window of its cluster alone (R293). -/
def State.viewClu (s : State) (off : Nat) : Option Word :=
  let c := (off - 0x100000) / 0x10000
  let r := off % 0x10000
  if 0x610 ≤ r ∧ r < 0x680 ∧ r % 0x20 = 0x10 then
    some (if s.rb (off + 4) 1 then s.reg off else BitVec.ofNat 32 (s.rf off 15 0))
  else if 0x104 ≤ r ∧ r < 0x500 ∧ r % 8 = 4 ∧ (r - 0x100) / 0x40 < 16 then some (s.viewThread (128 * c + (r - 0x100) / 0x40 * 8 + (r - 0x100) % 0x40 / 8))
  else if 0x3000 ≤ r ∧ r < 0x3800 ∧ r % 0x20 = 4 then some (s.viewChan (64 * c + (r - 0x3000) / 0x20))
  else if off = Reg.CLU_DSP_READY c then some (BitVec.ofNat 32 (bitsOf 32 fun p => !(s.ready (32 * c + p)).isEmpty))
  else if 0x2100 ≤ r ∧ r < 0x2300 ∧ r % 8 = 4 then some (s.llock (64 * c + (r - 0x2100) / 8)).word
  else if 0x2400 ≤ r ∧ r < 0x2C00 ∧ r % 8 = 4 then some (s.glock ((r - 0x2400) / 8)).word
  else if 0x2C00 ≤ r ∧ r < 0x2C80 ∧ r % 8 = 4 then some (s.mbStatus (128 + (r - 0x2C00) / 8))
  else if 0x4000 ≤ r ∧ r < 0x5000 ∧ r % 0x20 ≤ 0x14 then
    (let m := (r - 0x4000) / 0x20
     some (if !s.mbEn c m then 0 else if r % 0x20 = 0x14 then s.mbStatus m else ((s.mbox m).take.toList)[r % 0x20 / 4]?.getD 0))
  else if 0x4000 ≤ r ∧ r < 0x5000 ∧ r % 0x20 = 0x1C then some (if s.rf off 29 27 == c then s.reg off else 0)
  else none

/-! ## Vermilion and field I/O -/

/-- VRM_CH_STATUS. -/
def State.viewVrm (s : State) (off : Nat) : Option Word :=
  let ch := (off - 0x12000) / 0x20
  if off = Reg.VRM_CH_STATUS ch ∧ ch < 256 then some (s.chanStatus ch) else none

/-- Inputs and outputs (R318). -/
def State.viewFio (s : State) (off : Nat) : Option Word :=
  if off = Reg.FIO_IN_STATE then some (BitVec.ofNat 32 (bitsOf 32 fun i => (s.finp i).level))
  else if off = Reg.FIO_IN_CHATTER then some (BitVec.ofNat 32 (bitsOf 32 fun i => (s.finp i).chatter))
  else if off = Reg.FIO_OUT_STATE then some (BitVec.ofNat 32 (bitsOf 32 fun o => (s.fout o).on))
  else none

/-! ## Configuration, Sable, management, debug -/

/-- CFG_SHADOW, and the partitions' status (R359). -/
def State.viewCfg (s : State) (off : Nat) : Option Word :=
  let p := (off - 0x15200) / 0x40
  if off = Reg.CFG_SHADOW then
    let st := match s.cfg.shadow with | .none => 0 | .staged => 1 | .checked => 2 | .armed => 3
    some (BitVec.ofNat 32 (st * 2 ^ 30 + flag s.cfg.epoch.isSome 17 + flag s.cfg.dev.isSome 16 + bitsOf 16 fun i => (s.partSh i).isSome))
  else if 0x15200 ≤ off ∧ off = Reg.CFG_PART_STATUS p ∧ p < 16 then
    let tiles := bitsOf 24 fun j => (s.tilesOf p).contains j
    let sh := if (s.partSh p).isSome then (match s.cfg.shadow with | .none => 0 | .staged => 1 | .checked => 2 | .armed => 3) else 0
    some (BitVec.ofNat 32 ((s.part p).st * 2 ^ 29 + sh * 2 ^ 27 + flag (s.cfg.removes.contains p) 26 + tiles))
  else none

/-- SAB_DBG_GRANT(p): REMAIN counts the seconds left (R394). -/
def State.viewGrant (s : State) (p : Nat) : Word :=
  let g := s.grant p
  BitVec.ofNat 32 (flag g.sinceCommit 27 + if g.active then
    2 ^ 31 + flag g.control 30 + flag g.jtag 29 + flag g.session 28 + min (ceilDiv (g.until_ - s.up) secU) 65535 else 0)

/-- SAB_CRED(s). -/
def Cred.view (c : Cred) : Word :=
  BitVec.ofNat 32 (if c.loaded then 2 ^ 31 + c.typ % 2 * 2 ^ 30 + c.role % 4 * 2 ^ 28 + c.ports % 64 * 2 ^ 22 else 0)

/-- A register of Sable's page. -/
def State.viewSab (s : State) (off : Nat) : Option Word :=
  let r := off % 0x1000
  if r = 0x0C then some (BitVec.ofNat 32 (s.sab.blocksLeft * 2 ^ 20 + s.sab.nextIndex))
  else if r = 0x10 then some (BitVec.ofNat 32 s.sab.xmssState)
  else if 0x40 ≤ r ∧ r < 0x50 then some (BitVec.ofNat 32 (Config.devId.toNat / 2 ^ (8 * (r - 0x40))))
  else if r = 0x50 then some (BitVec.ofNat 32 (s.sab.otp.rootRevoked.toNat * 16 + s.sab.otp.rootValid.toNat))
  else if 0xC0 ≤ r ∧ r < 0x100 then some (s.viewGrant ((r - 0xC0) / 4))
  else if 0x100 ≤ r ∧ r < 0x140 then some (s.cred ((r - 0x100) / 4)).view
  else if 0x180 ≤ r ∧ r < 0x200 then some (BitVec.ofNat 32 ((s.sab.otp.rootDig.gd 0 ((r - 0x180) / 0x20)).toNat / 2 ^ (8 * ((r - 0x180) % 0x20))))
  else if 0x300 ≤ r ∧ r ≤ 0x340 then some (Config.idPub ((r - 0x300) / 4))
  else if 0x400 ≤ r ∧ r ≤ 0x89C then some (Config.kemPub ((r - 0x400) / 4))
  else if 0xC00 ≤ r then some (BitVec.ofNat 32 (bitsOf 32 fun b => (s.keySlot (32 * ((r - 0xC00) / 4) + b)).isSome))
  else none

/-- MGT_PORT_STATUS(n). -/
def State.viewPort (s : State) (n : Nat) : Word :=
  let lock := flag (s.mport n).lockedUntil.isSome 24
  match (s.mport n).sess with
  | some x =>
    BitVec.ofNat 32 (2 ^ 31 + x.role % 4 * 2 ^ 29 + x.slot % 16 * 2 ^ 25 + lock + x.ver % 256 * 65536 +
      bitsOf 16 fun p => p != 0 && s.portOwns n p)
  | none => BitVec.ofNat 32 lock

/-- A register of the MGT page. -/
def State.viewMgt (s : State) (off : Nat) : Option Word :=
  let n := (off - 0x18020) / 0x20
  if 0x18020 ≤ off ∧ off = Reg.MGT_PORT_STATUS n ∧ n < 6 then some (s.viewPort n) else none

/-- The nonce and the state of the JTAG path (R465). -/
def State.viewDbg (s : State) (off : Nat) : Option Word :=
  if 0x1D100 ≤ off ∧ off < 0x1D120 then some (BitVec.ofNat 32 (leAt (Config.jtagNonce s.dbg.nonce) (off - 0x1D100) 4))
  else if off = Reg.DBG_JTAG then some (putBit (putBit (s.reg off) 30 s.dbg.bound.isSome) 29 s.dbg.lockedUntil.isSome)
  else none

/-- What a register shows of the state beside the store. -/
def State.viewPage (s : State) (off : Nat) : Option Word :=
  match off / 0x1000 with
  | 0x0 => if 0x20 ≤ off ∧ off < 0x30 then some (BitVec.ofNat 32 (Config.devId.toNat / 2 ^ (8 * (off - 0x20)))) else none
  | 0x3 => s.viewInd off
  | 0x4 => s.viewRed off
  | 0x5 => s.viewSeg off
  | 0x7 => s.viewCls off
  | 0x9 => s.viewAut off
  | 0xB => s.viewLan off
  | 0xE => s.viewOch off
  | 0xF => s.viewFwd off
  | 0x10 => s.viewCpx off
  | 0x12 => s.viewVrm off
  | 0x13 => s.viewVrm off
  | 0x14 => s.viewFio off
  | 0x15 => s.viewCfg off
  | 0x16 => s.viewSab off
  | 0x18 => s.viewMgt off
  | 0x1D => s.viewDbg off
  | _ => if 0x100000 ≤ off ∧ off < 0x160000 then s.viewClu off else none

/-- The value of the register at an admin offset. -/
def State.view (s : State) (off : Nat) : Word := (s.viewPage off).getD (s.reg off)

end Sys2Proof.Machine
end

