-- ==== Sys2Proof/Machine/Regs.lean ====
section
/-!
DEFINITION. The register interface (R7-R10, R227, R407-R409, R464): a read by an accessor, with its read shadows and takes; a write by an accessor,
as its access code lays down; the takes of the event controller (R421, R435); DBGACC.
-/

namespace Sys2Proof.Machine

/-! ## Wide values (R7) -/

/-- Registers that hold the words of one value: base, instances and stride, second instances and stride, words. Offsets of cluster registers are
relative to the cluster window. -/
structure WideRow where
  base : Nat
  n1 : Nat
  s1 : Nat
  n2 : Nat
  s2 : Nat
  words : Nat
  deriving DecidableEq, Repr

/-- The wide values outside the cluster windows. -/
def wideRows : List WideRow :=
  [⟨0x20, 1, 4, 1, 4, 4⟩, ⟨0x3008, 1, 4, 1, 4, 3⟩, ⟨0x3014, 1, 4, 1, 4, 3⟩, ⟨0x3040, 1, 4, 1, 4, 4⟩, ⟨0x3054, 1, 4, 1, 4, 3⟩,
   ⟨0x3184, 1, 4, 1, 4, 2⟩, ⟨0x3410, 16, 0x40, 1, 4, 2⟩, ⟨0x3420, 16, 0x40, 1, 4, 2⟩, ⟨0x3428, 16, 0x40, 1, 4, 3⟩,
   ⟨0x3800, 32, 0x20, 1, 4, 4⟩, ⟨0x3810, 32, 0x20, 1, 4, 2⟩, ⟨0x4024, 16, 0x80, 1, 4, 2⟩, ⟨0x7004, 2, 0x10, 1, 4, 2⟩] ++
  [⟨0xDC04, 8, 0x20, 1, 4, 2⟩, ⟨0xE404, 64, 0x10, 1, 4, 2⟩, ⟨0xF008, 1, 4, 1, 4, 2⟩, ⟨0x14044, 1, 4, 1, 4, 2⟩, ⟨0x15040, 1, 4, 1, 4, 8⟩,
   ⟨0x15220, 16, 0x40, 1, 4, 8⟩, ⟨0x16040, 1, 4, 1, 4, 4⟩, ⟨0x16180, 4, 0x20, 1, 4, 8⟩, ⟨0x17204, 16, 0x40, 1, 4, 2⟩,
   ⟨0x17210, 16, 0x40, 1, 4, 2⟩, ⟨0x18100, 2, 0x20, 1, 4, 2⟩, ⟨0x1810C, 2, 0x20, 1, 4, 2⟩, ⟨0x18160, 1, 4, 1, 4, 2⟩,
   ⟨0x19010, 1, 4, 1, 4, 4⟩, ⟨0x1A020, 1, 4, 1, 4, 2⟩, ⟨0x1C018, 1, 4, 1, 4, 2⟩, ⟨0x1C104, 64, 0x10, 1, 4, 2⟩, ⟨0x1D100, 1, 4, 1, 4, 8⟩,
   ⟨0x1D120, 1, 4, 1, 4, 8⟩, ⟨0x16300, 1, 4, 1, 4, 17⟩, ⟨0x16400, 1, 4, 1, 4, 296⟩]

/-- The wide values of a cluster window. -/
def wideCluRows : List WideRow :=
  [⟨0x804, 16, 0x40, 4, 0x10, 2⟩, ⟨0xC04, 16, 0x10, 1, 4, 2⟩, ⟨0xD0C, 1, 4, 1, 4, 2⟩, ⟨0x1040, 1, 4, 1, 4, 2⟩,
   ⟨0x1200, 32, 0x20, 1, 4, 4⟩, ⟨0x1210, 32, 0x20, 1, 4, 2⟩]

/-- The distance of an offset from the lowest word of a value of the row, where it lies in one. -/
def WideRow.at_ (r : WideRow) (off : Nat) : Option Nat :=
  let a := off - r.base
  let d := if r.n2 = 1 then a % r.s1 else a % r.s1 % r.s2
  if r.n1 = 1 then (if r.base ≤ off ∧ a < 4 * r.words then some a else none)
  else if r.base ≤ off ∧ a / r.s1 < r.n1 ∧ (r.n2 = 1 ∨ a % r.s1 / r.s2 < r.n2) ∧ d < 4 * r.words then some d else none

/-- The wide value an offset lies in: its lowest offset, the number of the word, the number of words. -/
def wideOf (off : Nat) : Option (Nat × Nat × Nat) :=
  (if 0x100000 ≤ off then wideCluRows else wideRows).findSome? fun r =>
    (r.at_ (regRel off)).map fun d => (off - d, d / 4, r.words)

/-! ## Takes -/

/-- A take of pending event bits (R421, R435): [31] TAKEN, [8:0] the lowest pending event, whose bit clears. -/
def State.takeEvent (s : State) (base : Nat → Nat) : Word × State :=
  match s.lowestPending base with
  | some e => (BitVec.ofNat 32 (2147483648 + e), s.setRb (base (e / 32)) (e % 32) false)
  | none => (0, s)

/-- What a taking read of an RTT register by an accessor returns and does (R8). -/
def State.takeOf (s : State) (who : Accessor) (off : Nat) : Word × State :=
  let c := (off - 0x100000) / 0x10000
  let r := off % 0x10000
  if off < 0x100000 then
    (if s.mayTake who off then
      (match off with
       | 0x2600 => s.takeEvent Reg.EVT_ALARM_PEND
       | 0xF064 => s.fwdPop
       | 0x11040 => s.disPop
       | 0x19060 => s.takeEvent Reg.PAI_PEER_EVT_PEND
       | _ => (0, s))
     else (0, s))
  else if 0x4000 ≤ r then
    (let m := (r - 0x4000) / 0x20
     if s.mbReach who c m && !s.mbSends who c m then (s.mbTakeWord m, s.mbTakeNow m) else (0, s))
  else if s.mayTake who off then
    (match r with
     | 0x40 => s.fltPop c
     | 0x60 => s.dlPop c
     | 0x700 => s.takeEvent (Reg.CLU_EVT_PEND c)
     | _ => (0, s))
  else (0, s)

/-! ## Reads -/

/-- The number of an accessor among the masters that hold read shadows (R409): ports 0-5, clusters 6-11, JTAG 12. -/
def shadowOf (who : Accessor) : Nat :=
  match who with
  | .bar0 l => l.val
  | .session p => p.val
  | .thread t => 6 + t.cl.val
  | .jtag => 12

/-- Whether an accessor sees what a register of the MBX sub-block shows (R293): ADMIN, OWNER of PART, or a thread that reaches the mailbox. -/
def State.mbSees (s : State) (who : Accessor) (off : Nat) : Bool :=
  let c := (off - 0x100000) / 0x10000
  let r := off % 0x10000
  off < 0x100000 || r < 0x4000 || 0x5000 ≤ r || s.isAdmin who || s.mbReach who c ((r - 0x4000) / 0x20)

/-- The read of the lowest word of a wide value (R7): the other words go to the reader's shadow, device time with that of an angle clock (R53). -/
def State.readLow (s : State) (who : Accessor) (off n : Nat) : State :=
  let high := (List.range (n - 1)).map fun i => s.view (off + 4 * (i + 1))
  let s1 := { s with rdShadow := s.rdShadow.sd [] (2097152 * shadowOf who + off) high }
  let k := (off - 0x3410) / 0x40
  if off = Reg.IND_ACLK_VALUE_LO k ∧ k < 16 then
    each (List.range 3) (fun x w => x.setReg (Reg.IND_ACLK_TSNAP k w) (timeWord s.time w)) s1
  else s1

/-- A 32-bit read of the register at an admin offset by an accessor: the value, and the state after it. -/
def State.readReg (s : State) (who : Accessor) (off : Nat) : Word × State :=
  if !s.mayRead who off || !s.mbSees who off then (0, s)
  else
    match regRow off with
    | none => (0, s)
    | some r =>
      match r.acc with
      | .wo => (0, s)
      | .rtt => s.takeOf who off
      | _ =>
        match wideOf off with
        | some (lo, 0, n) => (s.view lo, s.readLow who lo n)
        | some (lo, i, _) => (wordAt (s.rdShadow.gd [] (2097152 * shadowOf who + lo)) (i - 1), s)
        | none => (s.view off, s)

/-- WIDE_REGISTER_LOW_READ (R7). -/
def execWideRegisterLowRead (who : Accessor) (off : BitVec 21) (s : State) : Host.Outcome State Fault Refusal :=
  done s (
    match wideOf off.toNat with
    | some (_, 0, _) => let r := s.readReg who off.toNat; r.2.emit (.readData off.toNat r.1)
    | _ => s)

/-- CLU_EVT_TAKE (R203, R421). -/
def execCluEvtTake (who : Accessor) (c : Fin 6) (s : State) : Host.Outcome State Fault Refusal :=
  done s (s.rttRead who (Reg.CLU_EVT_TAKE c.val) (s.takeEvent (Reg.CLU_EVT_PEND c.val)))

/-- EVT_ALARM_TAKE (R421). -/
def execEvtAlarmTake (who : Accessor) (s : State) : Host.Outcome State Fault Refusal :=
  done s (s.rttRead who Reg.EVT_ALARM_TAKE (s.takeEvent Reg.EVT_ALARM_PEND))

/-- PAI_PEER_EVT_TAKE (R435). -/
def execPaiPeerEvtTake (who : Accessor) (s : State) : Host.Outcome State Fault Refusal :=
  done s (s.rttRead who Reg.PAI_PEER_EVT_TAKE (s.takeEvent Reg.PAI_PEER_EVT_PEND))

/-! ## Writes -/

/-- The state a command leads to. -/
def after (o : Host.Outcome State Fault Refusal) (s : State) : State :=
  match o with
  | .next t => t
  | _ => s

/-- A write of a command register: with GO its command runs, without it the fields are kept. -/
def State.goWrite (s : State) (off : Nat) (val : Word) (f : State → State) : State :=
  if tbit val 31 then f s else s.setReg off (masked off val)

/-- OCH_CMD (R182): OP 3 and above are reserved. -/
def State.ochCmd (s : State) (who : Accessor) (val : Word) : State :=
  match fld val 30 28 with
  | 0 => after (execOchQuery who val s) s
  | 1 => after (execOchCmdFree who val s) s
  | 2 => after (execOchReclaim who val s) s
  | _ => s.ochResult val 6

/-- VRM_CMD (R305): the one operation is RESET. -/
def State.vrmCmd (s : State) (who : Accessor) (val : Word) : State :=
  if fld val 30 28 = 1 then after (execVrmReset who val s) s
  else (s.setReg Reg.VRM_CMD (masked Reg.VRM_CMD val)).setReg Reg.VRM_CMD_STATUS (if s.isAdmin who then 6 else 5)

/-- SYS_RESET (R480, R482, R494): the device, or a mask of clusters. -/
def State.sysReset (s : State) (who : Accessor) (val : Word) : State :=
  if tbit val 8 then after (execSysResetDevice who val s) s else after (execSysResetCluster who val s) s

/-- PCI_DMA_CTRL (R406): STOP first, then START. -/
def State.dmaCtrl (s : State) (d : Nat) (val : Word) : State :=
  let s1 := if tbit val 1 then s.dmaStop d else s
  if tbit val 0 then s1.dmaStart d else s1

/-- The writes of registers outside the cluster windows that do more than keep their value. -/
def State.putFabric (s : State) (who : Accessor) (off : Nat) (val : Word) : Option State :=
  match off with
  | 0x104 => some (s.stateReq val)
  | 0x10C => some (s.sysReset who val)
  | 0x120 => some (s.bootAbort val)
  | 0x1014 => some (after (execTempMaxReset who s) s)
  | 0x3000 => some (let x := s.setRb off 0 (tbit val 0); if tbit val 1 then x.restartTime else x)
  | 0x7100 => some (s.goWrite off val fun x => x.clsRun who 0 val)
  | 0x7180 => some (s.goWrite off val fun x => x.clsRun who 1 val)
  | 0x7424 => some (after (execStrangerSelect who val s) s)
  | 0x7428 => some (after (execStrangerClear who val s) s)
  | 0x9100 => some (after (execAutCtxSelect who val s) s)
  | 0x9104 => some (if tbit val 0 then s.resetWindow who else s)
  | 0xA200 => some (after (execStreamSelect who val s) s)
  | 0xE200 => some (s.goWrite off val fun x => x.ochCmd who val)
  | 0xF100 => some (s.goWrite off val fun x => x.fwdRun who 0 val)
  | 0xF140 => some (s.goWrite off val fun x => x.fwdRun who 1 val)
  | 0x11004 => some (s.goWrite off val fun x => x.vrmCmd who val)
  | 0x11100 => some (after (execVrmPcbSelect who val s) s)
  | 0x14014 => some (s.goWrite off val fun x => x.fioRun who (fld val 30 28) val)
  | 0x15700 => some (s.unitSelect val)
  | 0x1B060 => some (s.goWrite off val fun x => x.recCmd who val)
  | 0x1C004 => some (s.pmuCtrl val)
  | 0x1D004 => some (s.goWrite off val fun x => x.dbgRun who val)
  | 0x1D018 => some (s.dbgCtxSel who val)
  | 0x1D140 => some (s.jtagTry val)
  | _ =>
    if 0xB000 ≤ off ∧ off < 0xC000 then some (s.setReg off 0)
    else if 0xE000 ≤ off ∧ off < 0xE080 then some (s.setReg off (BitVec.ofNat 32 (s.poolFree ((off - 0xE000) / 0x20))))
    else if 0x17200 ≤ off ∧ off < 0x17600 ∧ off % 0x40 = 0x1C then some (s.dmaCtrl ((off - 0x17200) / 0x40) val)
    else if off = Reg.MGT_DOORBELL 0 ∨ off = Reg.MGT_DOORBELL 1 then some s
    else none

/-- The writes of registers of cluster c that do more than keep their value. -/
def State.putCluster (s : State) (who : Accessor) (c off : Nat) (val : Word) : Option State :=
  let r := off % 0x10000
  let m := (r - 0x4000) / 0x20
  if r = 0xC then some (s.goWrite off val fun x => x.ctlRun who c val)
  else if r = 0x100C then some (s.goWrite off val fun x => x.dspRun who c val)
  else if r = 0x1080 then some (s.tcbSelect c val)
  else if r = 0x3800 then some (if tbit val 31 then s.chnAbort who c val else s)
  else if 0xE00 ≤ r ∧ r < 0x1000 then some (s.bpWrite who c ((r - 0xE00) / 0x20) off (masked off val))
  else if 0x4000 ≤ r then
    (if r % 0x20 < 0x10 then some (s.mbWrite who c m fun x => x.mbStage m (r % 0x20 / 4) val)
     else if r % 0x20 = 0x10 then some (s.mbWrite who c m fun x => (x.releaseBy who).mbPostNow c m val)
     else some s)
  else none

/-- A word of a wide value written (R7): kept until the highest word comes, with which all take effect; a word not written keeps its value. -/
def State.putWide (s : State) (lo i n : Nat) (val : Word) : State :=
  if i + 1 < n then { s with wrHold := s.wrHold.sd none (lo + 4 * i) (some val) }
  else
    let s1 := if lo = Reg.IND_TIME_SET 0 then s.timeSetWrite val
      else
        each (List.range (n - 1)) (fun x j =>
          match s.wrHold.gd none (lo + 4 * j) with
          | some v => x.setReg (lo + 4 * j) (masked (lo + 4 * j) v)
          | none => x) (s.setReg (lo + 4 * i) (masked (lo + 4 * i) val))
    { s1 with wrHold := (List.range (n - 1)).foldl (fun m j => m.sd none (lo + 4 * j) none) s1.wrHold }

/-- Whether an offset is that of a counter configuration (R471). -/
def pmuCfgReg (off : Nat) : Bool :=
  off % 16 == 0 && ((Reg.PMU_CTR_CFG 0 ≤ off && off < Reg.PMU_CTR_CFG 64) ||
    (0x100000 ≤ off && off < 0x160000 && 0x800 ≤ off % 0x10000 && off % 0x10000 < 0xD00))

/-- A write that an accessor's role admits, of a register whose fields are RW, WO or RWL. OVF of a counter configuration is set at a wrap alone: a
write of 0 clears it, and one of 1 leaves it (R456, R471). -/
def State.putReg (s : State) (who : Accessor) (off : Nat) (val0 : Word) : State :=
  let val := if pmuCfgReg off && !s.rb off 30 then putBit val0 30 false else val0
  let f := if 0x100000 ≤ off then s.putCluster who ((off - 0x100000) / 0x10000) off val else s.putFabric who off val
  match f with
  | some x => x
  | none =>
    match wideOf off with
    | some (lo, i, n) => s.putWide lo i n val
    | none => s.setReg off (masked off val)

/-- A write of an SQC register (R8): the bits named clear where SEQ is the current one. -/
def State.sqcWrite (s : State) (off : Nat) (val : Word) : State :=
  if fld val 31 24 = s.rf off 31 24 then s.setReg off (s.reg off &&& ~~~(masked off val)) else s

/-- A 32-bit write of the register at an admin offset by an accessor. -/
def State.writeReg (s : State) (who : Accessor) (off : Nat) (val : Word) : State :=
  match regRow off with
  | none => s
  | some r =>
    if !s.mayWrite who off then s.denyWrite who
    else
      match r.acc with
      | .ro => s
      | .rtt => s
      | .sqc => s.sqcWrite off val
      | .rwl => if s.rb Reg.SAB_CFG 31 then s.lockedWrite who off else s.setReg off (masked off val)
      | _ => s.putReg who off val

/-- REGISTER_WRITE (R8). -/
def execRegisterWrite (who : Accessor) (off : BitVec 21) (val : Word) (s : State) : Host.Outcome State Fault Refusal :=
  done s (s.writeReg who off.toNat val)

/-! ## DBGACC -/

/-- JTAG_DBGACC (R464): the data of the previous read comes out; then the access is made. -/
def execJtagDbgacc (write : Bool) (off : BitVec 21) (val : Word) (s : State) : Host.Outcome State Fault Refusal :=
  done s (
    let s1 := s.emit (.tdo s.dbg.captured.toNat)
    if write then s1.writeReg .jtag off.toNat val
    else
      let r := s1.readReg .jtag off.toNat
      { r.2 with dbg := { r.2.dbg with captured := r.1 } })

end Sys2Proof.Machine
end

