-- ==== Sys2Proof/Machine/Mem.lean ====
section
/-!
DEFINITION. The byte address space of a thread (R224-R227) and the Rospel instructions that reach it: loads and stores (R216, R217, R233, R286), CRCM
(R238), VWAIT (R107), PMW and PMR (R242), and the issue of a word that no table defines (R232).
-/

namespace Sys2Proof.Machine

/-! ## Windows -/

/-- What an address names (R224): a byte of cluster SRAM, through the own window or the global one, or an offset in another window. -/
inductive Window where
  | sram (cl a : Nat) (global : Bool)
  | plane (o : Nat)
  | packet (o : Nat)
  | metadata (o : Nat)
  | lock (o : Nat)
  | reg (off : Nat)
  | none
  deriving DecidableEq, Repr

/-- The window of an address for thread k. The own cluster's slot of the global window is outside every window (R285). -/
def windowOf (k a : Nat) : Window :=
  if a < 0x00200000 then .sram (k / 128) a false
  else if 0x01000000 ≤ a ∧ a < 0x01804000 then .plane (a - 0x01000000)
  else if 0x02000000 ≤ a ∧ a < 0x02004000 then .packet (a - 0x02000000)
  else if 0x02010000 ≤ a ∧ a < 0x02010100 then .metadata (a - 0x02010000)
  else if 0x04000000 ≤ a ∧ a < 0x04C00000 then
    (if (a - 0x04000000) / 0x200000 = k / 128 then .none else .sram ((a - 0x04000000) / 0x200000) ((a - 0x04000000) % 0x200000) true)
  else if 0x06000000 ≤ a ∧ a < 0x06010000 then .lock (a - 0x06000000)
  else if 0x08000000 ≤ a ∧ a < 0x08200000 then .reg (a - 0x08000000)
  else .none

/-- The accesses of n bytes at an address (R216): two where it crosses an 8-byte boundary, the lower address first. -/
def halves (a n : Nat) : List (Nat × Nat) := if a % 8 + n ≤ 8 then [(a, n)] else [(a, 8 - a % 8), (a + (8 - a % 8), a % 8 + n - 8)]

/-! ## Cluster SRAM -/

/-- The enabled region of cluster cl that holds n bytes at address a (R283). -/
def State.sramRgn (s : State) (cl a n : Nat) : Option Nat :=
  (List.range 16).find? fun r =>
    let w := s.reg (Reg.CLU_SRAM_RGN cl r)
    tbit w 31 && fld w 14 4 * 1024 ≤ a && a + n ≤ (fld w 25 15 + 1) * 1024

/-- Whether thread k may make an access to cluster SRAM (R202, R283): its partition's regions of its own cluster, every region for a read by the
supervisor; through the global window, regions that allow its partition, with GWR for a write. -/
def State.sramOk (s : State) (k cl a n : Nat) (global write : Bool) : Bool :=
  match s.sramRgn cl a n with
  | none => false
  | some r =>
    if global then tbit (s.reg (Reg.CLU_SRAM_GMASK cl r)) (s.thrPart k) && (!write || s.rb (Reg.CLU_SRAM_RGN cl r) 30)
    else s.rf (Reg.CLU_SRAM_RGN cl r) 29 26 == s.thrPart k || (isSup k && !write)

/-- Whether a buffered store holds byte a of the SRAM of cluster cl. -/
def BufStore.covers (b : BufStore) (cl a : Nat) : Bool := b.cl == cl && b.addr ≤ a && a < b.addr + b.bytes.length

/-- Byte a of the SRAM of cluster cl as thread k reads it: its own latest store to it, else what is there (R224). -/
def State.sramByte (s : State) (k cl a : Nat) : Byte :=
  (s.thr k).sb.foldl (fun v b => if b.covers cl a then byteAt b.bytes (a - b.addr) else v) (s.clu.sram.gd 0 (2097152 * cl + a))

/-- Whether byte a, read by thread k, meets an uncorrectable unit (R282). -/
def State.sramByteBad (s : State) (k cl a : Nat) : Bool :=
  s.clu.sramBad.gd false (262144 * cl + a / 8) && !((s.thr k).sb.any fun b => b.covers cl a)

/-- One access to cluster SRAM (R216, R224): the cluster, the byte address, the length, and whether it goes through the global window. -/
structure SramPart where
  cl : Nat
  addr : Nat
  len : Nat
  glob : Bool
  deriving DecidableEq, Repr

/-- The accesses to cluster SRAM of n bytes at an address (R216), each in its own cluster's slot of its window; none where one of them lies in another
window or in none. -/
def sramParts (k a n : Nat) : Option (List SramPart) :=
  (halves a n).mapM fun h => match windowOf k h.1 with
    | .sram cl o g => some ⟨cl, o, h.2, g⟩
    | _ => none

/-- Whether every part of an access is permitted (R216): each is judged before any is performed. -/
def State.partsOk (s : State) (k : Nat) (write : Bool) (ps : List SramPart) : Bool := ps.all fun p => s.sramOk k p.cl p.addr p.len p.glob write

/-- The split accesses and their second issue slot (R199, R457), where an access of n bytes at an offset crosses an 8-byte boundary. -/
def State.countSplit (s : State) (k o n : Nat) (a : PmuAttr) : State :=
  if (halves o n).length = 2 then (s.pmuCore (k / 128) (k % 128 / 8) 0x0C a 1).pmuCore (k / 128) (k % 128 / 8) 0x02 (s.privAttr k) 1 else s

/-- What a thread's access at an address counts (R457): cluster SRAM loads, global accesses, split accesses with their second slot. -/
def State.countAccess (s : State) (k a n : Nat) (load : Bool) (ps : List SramPart) : State :=
  let at_ := { s.privAttr k with addr := (ps.head?).map (·.addr) }
  let s1 := if ps.any (·.glob) then
      each ps (fun x p => x.pmuClu p.cl 0x48 { addr := some p.addr, master := some 16 } 1) (s.pmuCore (k / 128) (k % 128 / 8) 0x0B at_ ps.length)
    else if load then s.pmuCore (k / 128) (k % 128 / 8) 0x0A at_ 1 else s
  s1.countSplit k a n at_

/-! ## What a load does -/

/-- The outcome of a load: its bytes, whether a word was uncorrectable, and the state; or it stalls; or it faults. -/
inductive Load where
  | bytes (bs : List Byte) (ecc : Bool) (s : State)
  | stall (why : StallOn)
  | fault (code : Nat)

/-- A word read by an aligned 32-bit load. -/
def Load.word (w : Word) (s : State) : Load := .bytes (leBytes 4 w.toNat) false s

/-- Whether a part of a load, read by thread k, meets an uncorrectable unit. -/
def State.partBad (s : State) (k : Nat) (p : SramPart) : Bool := (List.range p.len).any fun i => s.sramByteBad k p.cl (p.addr + i)

/-- A load of n bytes of cluster SRAM at an address (R216): both halves are permitted before either is read. -/
def State.loadSram (s : State) (k a n : Nat) : Load :=
  match sramParts k a n with
  | none => .fault 3
  | some ps =>
    if s.partsOk k false ps then
      .bytes (ps.flatMap fun p => (List.range p.len).map fun i => s.sramByte k p.cl (p.addr + i)) (ps.any (s.partBad k))
        (each (ps.filter (s.partBad k)) (fun x p => x.inc (Reg.CLU_SRAM_UNCORR p.cl)) (s.countAccess k a n true ps))
    else .fault 3

/-! ## Provisional reads (R105, R276) -/

/-- Thread k becomes tainted or marked by data of a context with or without ALLOW_PROV (R105). -/
def State.readProv (s : State) (k : Nat) (allow : Bool) : State :=
  s.updCtx k fun c => if allow then { c with mark := true } else { c with taint := true }

/-- Whether every context that classification gives stream k has ALLOW_PROV; a stream without one counts as 0 (R105). -/
def State.streamAllows (s : State) (k : Nat) : Bool :=
  let es := entriesOf ((s.ing.slots.filter fun p => p.2.valid).map fun p => resWords p.2.res) k
  !es.isEmpty && es.all fun r =>
    s.rxCtx (fld (wordAt r 1) 31 20) != 0 && (s.autCtx (fld (wordAt r 1) 31 20)).allowProv

/-- ALLOW_PROV of a stream, for a merged one of both its constituents (R105). -/
def State.cellAllows (s : State) (k : Nat) : Bool :=
  if (s.stream k).merge then s.streamAllows (s.stream k).mergeA && s.streamAllows (s.stream k).mergeB else s.streamAllows k

/-- A provisional-read record with a read of grid point g of stream k (R276). -/
def Task.noteRead (t : Task) (k g : Nat) : Task :=
  if t.reads.any fun r => r.stream == k then
    { t with reads := t.reads.map fun r => if r.stream = k then { r with lo := min r.lo g, hi := max r.hi g } else r }
  else if t.reads.length < 4 then { t with reads := t.reads ++ [{ stream := k, lo := g, hi := g }] }
  else { t with any := true }

/-- The read of a cell that is PROVISIONAL by thread k (R105, R276). -/
def State.readProvCell (s : State) (k cs key : Nat) : State :=
  match s.streamOfCs cs with
  | none => s.readProv k false
  | some i =>
    let s1 := s.readProv k (s.cellAllows i)
    if (s.thr k).task.isSome then s1.updTask (s.taskOn k) fun t => t.noteRead i (s.cellInfo key).g else s1

/-! ## The sample-plane window (R134, R135, R217) -/

/-- The cell word with a key as a read sees it now: zero where its ECC is uncorrectable (R139), what it was until 16 ns after a retraction (R110). -/
def State.cellSeen (s : State) (n : Nat) : Word :=
  if s.spe.ecc.gd false n then 0 else if s.up < (s.cellInfo n).wasUntil then (s.cellInfo n).was else s.cell n

/-- A read of the sample-plane window: aligned words alone; ACCESS for a channel-stream that is not granted. -/
def State.loadPlane (s : State) (k o n : Nat) : Load :=
  if n ≠ 4 ∨ o % 4 ≠ 0 then .fault 4
  else if o < 0x800000 then
    (if !Config.csGranted (s.thrPart k) (o / 1024) then .fault 3
     else
       let w := s.cellSeen (o / 4)
       .word w (if tbit w 6 then (s.fixCell (o / 4)).readProvCell k (o / 1024) (o / 4) else s.fixCell (o / 4)))
  else if !Config.csGranted (s.thrPart k) (s.stream ((o - 0x800000) / 16)).csBase then .fault 3
  else .word (s.headWord ((o - 0x800000) / 16) (o % 16 / 4)) s

/-! ## The packet windows (R225, R226) -/

/-- The frame a bound thread holds, none for any other thread. -/
def State.packetOf (s : State) (k : Nat) : Option Nat := if s.thrBound k then (s.thr k).packet else none

/-- The SIZE of the lane buffer of frame f. -/
def State.packetSize (s : State) (f : Nat) : Nat := match (s.frame f).buf with | some h => s.poolSize (s.poolOf h) | none => 0

/-- A packet-window read of a frame whose verdict is pending (R105). -/
def State.readPacket (s : State) (k f : Nat) : State := if (s.frame f).verdict = 0 then s.readProv k (s.frameAllowProv f) else s

/-- A read of packet bytes: stalled until they arrive, zero past the end. -/
def State.loadPacket (s : State) (k o n : Nat) : Load :=
  match s.packetOf k with
  | none => .fault 3
  | some f =>
    let x := s.frame f
    if s.packetSize f < o + n then .fault 3
    else if x.tailAt.isNone && x.bytes.length < o + n then .stall (.bytes (o + n))
    else .bytes (x.patched ((List.range (o + n)).map (byteAt x.bytes)) |>.drop o) false
      ((s.readPacket k f).countSplit k o n (s.privAttr k))

/-- A read of metadata; one that takes in VERDICT is a packet-window read. -/
def State.loadMeta (s : State) (k o n : Nat) : Load :=
  match s.packetOf k with
  | none => .fault 3
  | some f =>
    if 256 < o + n then .fault 3
    else .bytes ((List.range n).map fun i => byteAt (leBytes 4 ((s.frame f).metaWord ((o + i) / 4)).toNat) ((o + i) % 4)) false
      ((if o / 4 ≤ 13 ∧ 13 ≤ (o + n - 1) / 4 then s.readPacket k f else s).countSplit k o n (s.privAttr k))

/-! ## The lock window (R298, R318, R450) -/

/-- A word of mailbox m at offset r of its slot (R294, R295). -/
def State.mailRead (s : State) (k m r : Nat) : Word × State :=
  if r < 0x10 then (((s.mbox m).take.toList)[r / 4]?.getD 0, s)
  else
    match r with
    | 0x14 => (s.mbStatus m, s)
    | 0x18 => if s.mbDir (k / 128) m then (0, s) else (s.mbTakeWord m, s.mbTakeNow m)
    | 0x1C => (s.reg (mbCfgReg (k / 128) m), s)
    | _ => (0, s)

/-- Word w of history fetch unit n (R450). -/
def FetchUnit.word (u : FetchUnit) (w : Nat) : Word :=
  match w with
  | 0 => BitVec.ofNat 32 (u.status * 536870912 + fld u.w0 12 0)
  | 1 => u.w1
  | 2 => putBit u.w2 31 false
  | _ => u.w3

/-- A read of the word at offset o of the lock window, none where the thread reaches nothing there. -/
def State.lockRead (s : State) (k o : Nat) : Option (Word × State) :=
  let c := k / 128
  if o < 0x200 then some (if o % 8 = 0 then s.lockTry k false (o / 8) else ((s.llock (64 * c + o / 8)).word, s))
  else if 0x800 ≤ o ∧ o < 0x1000 then
    some (if o % 8 = 0 then s.lockTry k true ((o - 0x800) / 8) else ((s.glock ((o - 0x800) / 8)).word, s))
  else if 0x1000 ≤ o ∧ o < 0x2200 then
    (if s.mbThread k ((o - 0x1000) / 0x20) then some (s.mailRead k ((o - 0x1000) / 0x20) (o % 0x20)) else none)
  else if o = 0x3000 then some (s.view Reg.FIO_IN_STATE, s)
  else if o = 0x3004 then some (s.view Reg.FIO_IN_CHATTER, s)
  else if 0x3100 ≤ o ∧ o < 0x3120 then some (s.tripWord ((o - 0x3100) / 4), s)
  else if 0x4000 ≤ o ∧ o < 0x4080 then
    (let f := (o - 0x4000) / 16
     if s.fetchUnitOf c f (s.thrPart k) then some ((s.fetchU (8 * c + f)).word (o % 16 / 4), s) else none)
  else none

/-- A load of n bytes at an address by thread t. -/
def State.loadAt (s : State) (t : ThreadId) (a n : Nat) : Load :=
  let k := tidNat t
  match windowOf k a with
  | .sram _ _ _ => s.loadSram k a n
  | .plane o => s.loadPlane k o n
  | .packet o => s.loadPacket k o n
  | .metadata o => s.loadMeta k o n
  | .lock o => if n = 4 ∧ o % 4 = 0 then (match s.lockRead k o with | some r => .word r.1 r.2 | none => .fault 3) else .fault 3
  | .reg off =>
    if n = 4 ∧ off % 4 = 0 ∧ s.threadReg t off ∧ (regRow off).isSome then
      (let r := s.readReg (.thread t) off; .word r.1 r.2)
    else .fault 3
  | .none => .fault 3

/-! ## What a store does -/

/-- The outcome of a store. -/
inductive Store where
  | done (s : State)
  | stall (why : StallOn)
  | fault (code : Nat)

/-- The store buffer entries of a store's parts, each with the bytes it takes in order. -/
def partStores : List Byte → List SramPart → List BufStore
  | _, [] => []
  | bs, p :: ps => { cl := p.cl, addr := p.addr, bytes := bs.take p.len } :: partStores (bs.drop p.len) ps

/-- A store to cluster SRAM enters the store buffer, one entry an access; it stalls while the buffer has no room (R200, R286). -/
def State.storeSram (s : State) (k a : Nat) (bs : List Byte) : Store :=
  match sramParts k a bs.length with
  | none => .fault 3
  | some ps =>
    if !s.partsOk k true ps then .fault 3
    else if 4 < (s.thr k).sb.length + ps.length then .stall (.buffer ps.length)
    else .done ((s.countAccess k a bs.length false ps).updThr k fun t => { t with sb := t.sb ++ partStores bs ps })

/-- A store to the packet window changes the frame that the lane exit copies (R225). -/
def State.storePacket (s : State) (k o : Nat) (bs : List Byte) : Store :=
  match s.packetOf k with
  | none => .fault 3
  | some f =>
    if s.packetSize f < o + bs.length then .fault 3
    else
      let new := (List.range bs.length).foldl (fun m i => m.sd none (o + i) (some (byteAt bs i))) (s.frame f).patch
      .done ((s.setFrame f { s.frame f with patch := new }).countSplit k o bs.length (s.privAttr k))

/-- A word with some of its bytes replaced: byte o + i of a block of words, of which the word is number w, becomes byte i of bs. -/
def patchWord (v : Word) (w o : Nat) (bs : List Byte) : Word :=
  BitVec.ofNat 32 (leNat ((List.range 4).map fun j =>
    if o ≤ 4 * w + j ∧ 4 * w + j < o + bs.length then byteAt bs (4 * w + j - o) else byteAt (leBytes 4 v.toNat) j))

/-- A store to metadata: W16 and W17 alone may be written, and not bytes 67 and 71 alone, which hold no RW field (R226). -/
def State.storeMeta (s : State) (k o : Nat) (bs : List Byte) : Store :=
  match s.packetOf k with
  | none => .fault 3
  | some f =>
    if o < 64 ∨ 72 < o + bs.length ∨ (bs.length = 1 ∧ o % 4 = 3) then .fault 3
    else .done ((s.setFrame f {
      s.frame f with
      w16 := fld (patchWord ((s.frame f).metaWord 16) 16 o bs) 21 0
      w17 := (patchWord ((s.frame f).metaWord 17) 17 o bs &&& 0x003F0F07#32).toNat }).countSplit k o bs.length (s.privAttr k))

/-- A write to mailbox m by a thread that reaches it (R294): data and posts on the sending side, ACCESS on the receiving side; the other words are
read-only and a write to them has no effect. -/
def State.mailStore (s : State) (k m r : Nat) (v : Word) : Option State :=
  if r ≤ 0x10 then
    (if s.mbDir (k / 128) m then some (if r = 0x10 then s.mbPostNow (k / 128) m v else s.mbStage m (r / 4) v) else none)
  else some s

/-- A write to word w of history fetch unit n (R450): with bit 31 of the third word it starts. A unit that is BUSY keeps its words. -/
def State.fetchStore (s : State) (c f part w : Nat) (v : Word) : State :=
  let n := 8 * c + f
  let u := s.fetchU n
  if w = 2 ∧ tbit v 31 then (if u.status = 1 then s else s.setFetchU n { u with w2 := v }).fetchStart c f part
  else if u.status = 1 then s
  else
    s.setFetchU n (match w with
      | 0 => { u with w0 := BitVec.ofNat 32 (fld v 12 0) }
      | 1 => { u with w1 := v }
      | 2 => { u with w2 := v &&& 0x0FFF0000#32 }
      | _ => { u with w3 := v })

/-- A write of the word at offset o of the lock window, none where it faults ACCESS (R293, R297, R298, R318). -/
def State.lockStore (s : State) (k o : Nat) (v : Word) : Option State :=
  let c := k / 128
  if 0x1000 ≤ o ∧ o < 0x2200 then
    (if s.mbThread k ((o - 0x1000) / 0x20) then s.mailStore k ((o - 0x1000) / 0x20) (o % 0x20) v else none)
  else if 0x4000 ≤ o ∧ o < 0x4080 then
    (let f := (o - 0x4000) / 16
     if s.fetchUnitOf c f (s.thrPart k) then some (s.fetchStore c f (s.thrPart k) (o % 16 / 4) v) else none)
  else none

/-- A store of bytes at an address by thread t. One that does not go to cluster SRAM follows every earlier store of the thread (R286). -/
def State.storeAt (s : State) (t : ThreadId) (a : Nat) (bs : List Byte) : Store :=
  let k := tidNat t
  let n := bs.length
  let v := BitVec.ofNat 32 (leNat bs)
  match windowOf k a with
  | .sram _ _ _ => s.storeSram k a bs
  | .plane _ => .fault 4
  | .packet o => (s.drainStores k).storePacket k o bs
  | .metadata o => (s.drainStores k).storeMeta k o bs
  | .lock o => if n = 4 ∧ o % 4 = 0 then (match (s.drainStores k).lockStore k o v with | some x => .done x | none => .fault 3) else .fault 3
  | .reg off =>
    if n = 4 ∧ off % 4 = 0 ∧ s.threadReg t off ∧ (regRow off).isSome then .done ((s.drainStores k).writeReg (.thread t) off v) else .fault 3
  | .none => .fault 3

/-! ## Loads and stores -/

/-- An X-format load of `size` bytes (R233): the index register is updated even where the access faults; ACC receives the value extended by
`ext`, beside the pipe (R200). -/
def State.loadOp (s : State) (t : ThreadId) (i : Instr) (x : Fin 2) (p : Bool) (d6 : BitVec 6) (size : Nat) (ext : Nat → Acc) :
    Host.Outcome State Fault Refusal :=
  let k := tidNat t
  done s (s.issue t i 1 [.acc, .ix x] none fun y =>
    let ea := effAddr (y.ixOf k x) p d6 size
    let y1 := y.setIx k x ea.2
    match y1.loadAt t ea.1.toNat size with
    | .stall why => .stall why
    | .fault code => .fault y1 code ea.1
    | .bytes bs ecc z =>
      .next (z.pendRes k { dest := .acc, val := ext (leNat bs), ecc := ecc, addr := ea.1, pc := (s.thr k).ctx.pc, iw := (s.nextWords k).1 }))

/-- An X-format store of `size` bytes of ACC (R233). -/
def State.storeOp (s : State) (t : ThreadId) (i : Instr) (x : Fin 2) (p : Bool) (d6 : BitVec 6) (size : Nat) : Host.Outcome State Fault Refusal :=
  let k := tidNat t
  done s (s.issue t i 1 [.acc, .ix x] none fun y =>
    let ea := effAddr (y.ixOf k x) p d6 size
    let y1 := y.setIx k x ea.2
    match y1.storeAt t ea.1.toNat (leBytes size (y.accW k).toNat) with
    | .stall why => .stall why
    | .fault code => .fault y1 code ea.1
    | .done z => .next z)

/-- The n low bits of a number, extended to the accumulator by their sign. -/
def sextN (n v : Nat) : Acc := BitVec.ofNat 40 (usg 40 (sgn n v))

/-- LDW (R239). -/
def execLdw (t : ThreadId) (x : Fin 2) (p : Bool) (d6 : BitVec 6) (s : State) : Host.Outcome State Fault Refusal :=
  s.loadOp t (.ldw t x p d6) x p d6 4 (sextN 32)

/-- LDH (R239). -/
def execLdh (t : ThreadId) (x : Fin 2) (p : Bool) (d6 : BitVec 6) (s : State) : Host.Outcome State Fault Refusal :=
  s.loadOp t (.ldh t x p d6) x p d6 2 (sextN 16)

/-- LDHU (R239). -/
def execLdhu (t : ThreadId) (x : Fin 2) (p : Bool) (d6 : BitVec 6) (s : State) : Host.Outcome State Fault Refusal :=
  s.loadOp t (.ldhu t x p d6) x p d6 2 (BitVec.ofNat 40)

/-- LDB (R239). -/
def execLdb (t : ThreadId) (x : Fin 2) (p : Bool) (d6 : BitVec 6) (s : State) : Host.Outcome State Fault Refusal :=
  s.loadOp t (.ldb t x p d6) x p d6 1 (sextN 8)

/-- LDBU (R239). -/
def execLdbu (t : ThreadId) (x : Fin 2) (p : Bool) (d6 : BitVec 6) (s : State) : Host.Outcome State Fault Refusal :=
  s.loadOp t (.ldbu t x p d6) x p d6 1 (BitVec.ofNat 40)

/-- STW (R239). -/
def execStw (t : ThreadId) (x : Fin 2) (p : Bool) (d6 : BitVec 6) (s : State) : Host.Outcome State Fault Refusal :=
  s.storeOp t (.stw t x p d6) x p d6 4

/-- STH (R239). -/
def execSth (t : ThreadId) (x : Fin 2) (p : Bool) (d6 : BitVec 6) (s : State) : Host.Outcome State Fault Refusal :=
  s.storeOp t (.sth t x p d6) x p d6 2

/-- STB (R239). -/
def execStb (t : ThreadId) (x : Fin 2) (p : Bool) (d6 : BitVec 6) (s : State) : Host.Outcome State Fault Refusal :=
  s.storeOp t (.stb t x p d6) x p d6 1

/-! ## CRCM (R238) -/

/-- The bytes a CRCM reads: from a byte-addressed window (R216). -/
def State.crcBytes (s : State) (t : ThreadId) (a n : Nat) : Load :=
  match windowOf (tidNat t) a with
  | .sram _ _ _ => s.loadAt t a n
  | .packet _ => s.loadAt t a n
  | .metadata _ => s.loadAt t a n
  | .plane _ => .fault 4
  | _ => .fault 3

/-- CRCM (R238): the state comes from the CRC unit where the newest result for ACC is its own, else from ACC, for which it waits. -/
def execCrcm (t : ThreadId) (p : Fin 4) (x : Fin 2) (n1 : Fin 8) (s : State) : Host.Outcome State Fault Refusal :=
  let k := tidNat t
  let n := n1.val + 1
  done s (s.issue t (.crcm t p x n1) 1 [.ix x] none fun y =>
    let a := y.ixOf k x
    let st : Option Acc := match ((y.thr k).pendingFor .acc).getLast? with
      | some r => if r.crc then some r.val else none
      | none => some (y.accOf k)
    match st with
    | none => .stall (.operand [.acc])
    | some v =>
      match y.crcBytes t a.toNat n with
      | .stall why => .stall why
      | .fault code => .fault y code a
      | .bytes bs ecc z =>
        .next ((z.setIx k x (a + BitVec.ofNat 32 n)).pendRes k
          { dest := .acc, val := crcAcc (y.crcParams k p) v bs, ecc := ecc, addr := a, pc := (s.thr k).ctx.pc, iw := (s.nextWords k).1, crc := true }))

/-! ## VWAIT, PMW, PMR -/

/-- VWAIT (R107): VERDICT into Gs once it is there; it taints nothing. -/
def execVwait (t : ThreadId) (gs : Fin 8) (s : State) : Host.Outcome State Fault Refusal :=
  let k := tidNat t
  done s (s.issue t (.vwait t gs) 1 [.g gs] (need (s.thrBound k)) fun y =>
    match y.packetOf k with
    | none => .fault y 3 0x02010000
    | some f => if (y.frame f).verdict = 0 then .stall .verdict else .next (y.setG k gs (BitVec.ofNat 32 (y.frame f).verdict)))

/-- The tile of the device that IX0 names for thread k, and the word (R242). -/
def pmTile (k : Nat) (ix : Word) : Nat := 4 * (k / 128) + fld ix 17 16

/-- Whether PMW may write the word that IX0 names (R242). -/
def State.pmwOk (s : State) (k : Nat) (ix : Word) : Bool :=
  let j := pmTile k ix
  fld ix 31 18 == 0 && s.tilePart j == s.thrPart k && s.tileRegion j 3 (fld ix 15 0) && !s.tileRegion j 2 (fld ix 15 0)

/-- PMW (R242): discarded and counted in the cycle of a commit strobe that writes the same tile. -/
def execPmw (t : ThreadId) (gs : Fin 8) (s : State) : Host.Outcome State Fault Refusal :=
  let k := tidNat t
  done s (s.issue t (.pmw t gs) 1 [.g gs, .ix 0] (need ((s.thr k).priv != .u)) fun y =>
    let ix := y.ixOf k 0
    if !y.pmwOk k ix then .fault y 3 ix
    else if y.pmwLost (pmTile k ix) then .next (y.inc (Reg.CLU_PMW_DISCARD (k / 128)))
    else .next ((y.pmemSet (pmTile k ix) (fld ix 15 0) ((y.gOf k gs).setWidth 14)).inc (Reg.CLU_PMW_COUNT (k / 128))))

/-- PMR (R239, R240): PRIV outside the tiles of the thread's own partition. -/
def execPmr (t : ThreadId) (gs : Fin 8) (s : State) : Host.Outcome State Fault Refusal :=
  let k := tidNat t
  done s (s.issue t (.pmr t gs) 1 [.g gs, .ix 0]
    (need ((s.thr k).priv != .u && s.tilePart (pmTile k (s.ixOf k 0)) == s.thrPart k)) fun y =>
    let ix := y.ixOf k 0
    .next (y.pendRes k { dest := .g gs, val := (y.pmemW (65536 * pmTile k ix + fld ix 15 0)).setWidth 40 }))

/-! ## Undefined encodings -/

/-- UNDEFINED_ENCODING (R232, R205): ILLEGAL, or CPX_DIS where the word is of the C format and the level may not use the coprocessor. -/
def execUndefinedEncoding (t : ThreadId) (s : State) : Host.Outcome State Fault Refusal :=
  done s (
    let k := tidNat t
    let iw := (s.nextWords k).1
    if !s.canIssue k then s
    else
      match s.fetchFault k (wordsOf iw.toNat) with
      | some code => s.faultAt k code false 0 (s.thr k).ctx.pc iw
      | none =>
        if (s.nextInstr t).isSome then s
        else (State.dropSample s (s.countIssue k (wordsOf iw.toNat) iw) k).faultAt k
          (if fld iw 13 11 = 3 ∧ !s.cpxEnabled k then 8 else 1) false 0 (s.thr k).ctx.pc iw)

end Sys2Proof.Machine
end

