-- ==== Sys2Proof/Machine/Mgt.lean ====
section
/-!
DEFINITION. The management ports (R410-R420, R437): frames from the host and from units, the opening of a session, its end, and the protocol's
own commands. `Machine/Session.lean` holds the admission of a frame and the responses.
-/

namespace Sys2Proof.Machine

/-! ## Arrival of frames -/

/-- MGT_DOORBELL (R410, R422): the device reads MGT_REQ_LEN bytes at the request address, which the operand gives. A doorbell while a command is
outstanding is ignored and shows ERR. -/
def execMgtDoorbell (link : Fin 2) (frame : List Byte) (s : State) : Host.Outcome State Fault Refusal :=
  done s (
    let l := link.val
    if !s.portOn l then s
    else if (s.mport l).frame.isSome || (s.mport l).busy.isSome then s.setRb (Reg.MGT_RSP_STATUS l) 30 true
    else (s.setReg (Reg.MGT_RSP_STATUS l) 0).mgtArrive l 0 (frame.take (s.reg (Reg.MGT_REQ_LEN l)).toNat))

/-- The frame being assembled on port n is dropped and counted (R411). -/
def State.dropPartial (s : State) (n : Nat) : State :=
  match (s.mport n).asm with
  | some _ => (s.updMport n fun p => { p with asm := none }).inc (Reg.MGT_SEG_ERR n)
  | none => s

/-- How long a frame may take to arrive (R411). -/
def asmLimit : Nat := 2 * secU

/-- A unit on port n (R411): the next of its frame joins it; another one drops what was there, and begins a frame if its INDEX is 0. -/
def State.mgtUnit (s0 : State) (n : Nat) (src : BitVec 48) (unit : List Byte) : State :=
  let head := leAt unit 0 4
  let index := head / 65536 % 32768
  let bytes := (unit.drop 4).take (head % 65536)
  let late : Bool := match (s0.mport n).asm with
    | some a => a.at_ + asmLimit ≤ s0.up
    | none => false
  let s := if late then s0.dropPartial n else s0
  let old := match (s.mport n).asm with
    | some a => if a.next = index ∧ a.src = src then some a else none
    | none => if index = 0 then some { next := 0, bytes := [], at_ := s.up, src := src } else none
  match old with
  | some a =>
    let all := a.bytes ++ bytes
    if 2147483648 ≤ head then (s.updMport n fun p => { p with asm := none }).mgtArrive n src all
    else s.updMport n fun p => { p with asm := some { a with next := index + 1, bytes := all } }
  | none =>
    let s1 := if (s.mport n).asm.isSome then s.dropPartial n else s.inc (Reg.MGT_SEG_ERR n)
    if index ≠ 0 then s1
    else if 2147483648 ≤ head then s1.mgtArrive n src bytes
    else s1.updMport n fun p => { p with asm := some { next := 1, bytes := bytes, at_ := s.up, src := src } }

/-- MGT_UNIT_RX (R410, R411): a unit on port 2, 3 or 4; on the UART a unit whose CRC is wrong drops the frame. -/
def execMgtUnitRx (port : Fin 6) (src : BitVec 48) (crcGood : Bool) (unit : List Byte) (s : State) : Host.Outcome State Fault Refusal :=
  done s (
    let n := port.val
    if n < 2 || n = 5 || !s.portOn n then s
    else if n = 4 && !crcGood then (s.updMport n fun p => { p with asm := none }).inc (Reg.MGT_SEG_ERR n)
    else s.mgtUnit n (if n = 2 then src else 0) unit)

/-- PAIR_MGT_RX (R437): a relayed unit on port 5, with MGT_RELAY and the link up. -/
def execPairMgtRx : PairCell (List Byte) → State → Host.Outcome State Fault Refusal
  | ⟨crcGood, unit⟩, s =>
    done s (if !crcGood then s.inc Reg.PAI_CELL_ERR else if s.portOn 5 && s.rb Reg.PAI_CFG 30 && 3 ≤ s.rf Reg.PAI_LINK 31 29 then s.mgtUnit 5 0 unit else s)

/-- MGT_FRAME_TIMEOUT (R411): a frame not complete within 2 s is dropped. -/
def execMgtFrameTimeout (port : Fin 6) (s : State) : Host.Outcome State Fault Refusal :=
  done s (
    match (s.mport port.val).asm with
    | some a => if a.at_ + asmLimit ≤ s.up then s.dropPartial port.val else s
    | none => s)

/-- SMBUS_BLOCK_READ (R410): the next unit of a response leaves; with none ready, a unit of length zero. -/
def execSmbusBlockRead (s : State) : Host.Outcome State Fault Refusal :=
  done s (
    match (s.mport 3).rspUnits with
    | u :: us => (s.updMport 3 fun p => { p with rspUnits := us }).emit (.mgt 3 u)
    | [] => s.emit (.mgt 3 []))

/-! ## Opening (R412-R415) -/

/-- The versions of the protocol that the device implements, highest first (R415). -/
def mgtVersions : List Nat := [0x22, 0x21, 0x20, 0x12, 0x11, 0x10]

/-- The highest version that both sides offer (R415): the partner's offer is its first NV bytes. -/
def versionOf (nv : Nat) (vers : List Byte) : Option Nat := mgtVersions.find? fun v => (vers.take nv).contains (BitVec.ofNat 8 v)

/-- 32 bytes of a nonce, free values of the device (R412). -/
def State.freeNonce (s : State) : List Byte × State :=
  ((List.range 8).flatMap fun i => leBytes 4 (Config.freeWord (s.fv + i)).toNat, { s with fv := s.fv + 8 })

/-- A session identifier (R412): a free value, not zero. -/
def State.freeSid (s : State) : Word × State :=
  let r := s.freeN 4294967295
  (BitVec.ofNat 32 (r.1 + 1), r.2)

/-- The answer to OPEN_REQ on port n with SID in its header (R412). -/
def State.openAnswer (s : State) (n : Nat) (f : MgtFrame) (sid : Word) (res : Nat) (pay : List Byte) : State :=
  (s.updMport n fun p => { p with busy := none }).mgtSend n (responseBytes f sid res pay none)

/-- OPEN_REQ (R412, R414, R415). -/
def execOpenReq (port : Fin 6) (s : State) : Host.Outcome State Fault Refusal :=
  done s (
    let n := port.val
    s.onCmd n [cmdOpenReq] fun f x0 =>
      let x := x0.updMport n fun p => { p with opening := none }
      let slot := (byteAt f.payload 0).toNat
      let vers := (f.payload.drop 4).take 8
      if (x.mport n).lockedUntil.isSome then x.openAnswer n f 0 39 []
      else
        match versionOf (byteAt f.payload 1).toNat vers with
        | none => x.openAnswer n f 0 37 []
        | some v =>
          let sid := x.freeSid
          let nd := sid.2.freeNonce
          let c := x.cred slot
          let salt := if slot < 16 ∧ c.loaded ∧ c.typ = 1 then (c.salt ++ List.replicate 16 0).take 16 else List.replicate 16 0
          let o : Opening := { sid := sid.1, slot := slot, ver := v, np := (f.payload.drop 12).take 32, nd := nd.1, vers := vers, at_ := x.up }
          (nd.2.updMport n fun p => { p with opening := some o }).openAnswer n f sid.1 0 ([BitVec.ofNat 8 v, 0, 0, 0] ++ salt ++ nd.1))

/-- X of R413, over which both proofs and the session key are made. -/
def Opening.proofOver (o : Opening) (n : Nat) : List Byte :=
  o.np ++ o.nd ++ o.vers ++ [BitVec.ofNat 8 o.ver, BitVec.ofNat 8 n, BitVec.ofNat 8 o.slot] ++ leBytes 4 o.sid.toNat

/-- An AUTH_FAIL on port n (R414): the last of LOCK_N in a row locks the port for LOCK_S seconds. -/
def State.authFail (s : State) (n : Nat) : State :=
  let k := (s.mport n).fails + 1
  let most := s.rf (Reg.MGT_PORT_CFG n) 19 16
  let s1 :=
    if 0 < most ∧ most ≤ k then
      s.updMport n fun p => { p with fails := 0, lockedUntil := some (s.up + s.rf (Reg.MGT_PORT_CFG n) 27 20 * secU) }
    else s.updMport n fun p => { p with fails := k }
  (s1.inc (Reg.MGT_AUTH_FAIL n)).sqc Reg.MGT_STATUS 0 12

/-- The session that a good proof opens (R413, R414); one that was open on the port ends. -/
def State.openSession (s : State) (n : Nat) (o : Opening) (c : Cred) : State :=
  let x : Session :=
    { sid := o.sid, slot := o.slot, role := c.role, ver := o.ver, key := Config.kmac256 c.key (o.proofOver n) 256 "MGT SESSION"
      lastAt := s.up, src := (s.mport n).frameSrc }
  (s.endSession n false).updMport n fun p => { p with sess := some x, fails := 0, opening := none }

/-- OPEN_PROOF (R412-R414): without an opening that the frame answers, NO_SESSION. -/
def execOpenProof (port : Fin 6) (s : State) : Host.Outcome State Fault Refusal :=
  done s (
    let n := port.val
    s.onCmd n [cmdOpenProof] fun f x0 =>
      match (x0.mport n).opening with
      | none => x0.openAnswer n f f.sid 34 []
      | some o =>
        let x := x0.updMport n fun p => { p with opening := none }
        let c := x.cred o.slot
        let good := o.slot < 16 && c.loaded && tbit (BitVec.ofNat 32 c.ports) n &&
          f.payload == Config.kmac256 c.key (o.proofOver n) 256 "MGT OPEN P"
        if (f.sid ≠ 0 ∧ f.sid ≠ o.sid) then x0.openAnswer n f f.sid 34 []
        else if good then (x.openSession n o c).openAnswer n f o.sid 0 (Config.kmac256 c.key (o.proofOver n) 256 "MGT OPEN D")
        else (x.authFail n).openAnswer n f o.sid 38 [])

/-- OPENING_TIMEOUT (R414): an opening without a proof for 10 s is dropped. -/
def execOpeningTimeout (port : Fin 6) (s : State) : Host.Outcome State Fault Refusal :=
  done s (
    match (s.mport port.val).opening with
    | some o => if o.at_ + 10 * secU ≤ s.up then s.updMport port.val fun p => { p with opening := none } else s
    | none => s)

/-- LOCKOUT_EXPIRE (R414). -/
def execLockoutExpire (port : Fin 6) (s : State) : Host.Outcome State Fault Refusal :=
  done s (
    match (s.mport port.val).lockedUntil with
    | some t => if t ≤ s.up then s.updMport port.val fun p => { p with lockedUntil := none } else s
    | none => s)

/-- SESSION_IDLE_TIMEOUT (R414): a session without a command for IDLE seconds ends. -/
def execSessionIdleTimeout (port : Fin 6) (s : State) : Host.Outcome State Fault Refusal :=
  done s (
    let idle := s.rf (Reg.MGT_PORT_CFG port.val) 11 0
    match (s.mport port.val).sess with
    | some x => if 0 < idle ∧ x.lastAt + idle * secU ≤ s.up then s.endSession port.val false else s
    | none => s)

/-! ## The protocol's own commands (R420) -/

/-- CLOSE (R414): answered, then the session ends. -/
def execClose (port : Fin 6) (s : State) : Host.Outcome State Fault Refusal :=
  done s (s.onCmd port.val [0x03] fun _ x => (x.respond port.val 0 []).endSession port.val true)

/-- PING. -/
def execPing (port : Fin 6) (s : State) : Host.Outcome State Fault Refusal :=
  done s (s.onCmd port.val [0x04] fun _ x => x.respond port.val 0 [])

/-- REG_READ: COUNT registers from OFFSET, in ascending order. -/
def execRegRead (port : Fin 6) (s : State) : Host.Outcome State Fault Refusal :=
  done s (
    let n := port.val
    s.onCmd n [0x10] fun f x =>
      let r := (List.range (leAt f.payload 4 2)).foldl (fun (a : List Byte × State) i =>
        let q := a.2.readReg (.session port) (leAt f.payload 0 4 + 4 * i)
        (a.1 ++ leBytes 4 q.1.toNat, q.2)) ([], x)
      r.2.respond n 0 r.1)

/-- Whether a write of a register is applied (R407, R418): it meets no register, or a register that takes it. -/
def State.writeApplied (s t : State) (off : Nat) : Bool :=
  match regRow off with
  | none => true
  | some r => r.acc != .ro && r.acc != .rtt && !(r.acc == .rwl && s.rb Reg.SAB_CFG 31) && t.reg Reg.MGT_DENIED_WR == s.reg Reg.MGT_DENIED_WR

/-- REG_WRITE (R407, R418): COUNT words in ascending offset; the response carries how many were applied. -/
def execRegWrite (port : Fin 6) (s : State) : Host.Outcome State Fault Refusal :=
  done s (
    let n := port.val
    s.onCmd n [0x11] fun f x =>
      let r := (List.range (leAt f.payload 4 2)).foldl (fun (a : Nat × State) i =>
        let off := leAt f.payload 0 4 + 4 * i
        let t := a.2.writeReg (.session port) off (BitVec.ofNat 32 (leAt f.payload (8 + 4 * i) 4))
        (if a.2.writeApplied t off then a.1 + 1 else a.1, t)) (0, x)
      r.2.respond n 0 (leBytes 4 r.1))

/-- SQC_CLEAR (R418): the register is read, and its SEQ written back with the bits of MASK; the response carries the value read. A location that is
no SQC register is only read. -/
def execSqcClear (port : Fin 6) (s : State) : Host.Outcome State Fault Refusal :=
  done s (
    let n := port.val
    s.onCmd n [0x12] fun f x =>
      let off := leAt f.payload 0 4
      let q := x.readReg (.session port) off
      let val := BitVec.ofNat 32 (q.1.toNat / 16777216 * 16777216 + leAt f.payload 4 4 % 16777216)
      let isSqc := (regRow off).any fun r => r.acc == .sqc
      (if isSqc then q.2.writeReg (.session port) off val else q.2).respond n 0 (leBytes 4 q.1.toNat))

end Sys2Proof.Machine
end

