-- ==== Sys2Proof/Machine/Strobes.lean ====
section
/-!
DEFINITION. The strobes of Indigo that reach several blocks in one tick (R45, R49, R50, R504): evaluation strobes and general instant units. The
commit strobe stands in Machine/Commit.lean. Within a tick the commit comes first, then evaluations by clock, then units (R50).
-/

namespace Sys2Proof.Machine

/-- Whether clock n may strobe now: its point is reached, no commit is due, and no clock below it is due (R50). -/
def State.mayStrobe (s : State) (n : Nat) : Bool := s.evalDue n && !s.commitDue && (List.range n).all fun m => !s.evalDue m

/-- The evaluation of clock n (R45): its number recorded, HEAD latched (R136), the tasks bound to it woken (R264), the voter strobed (R306). -/
def State.evaluate (s : State) (n : Nat) : State :=
  let c := s.aclk n
  let e := s.aclkE n
  let num := (c.nextC % 4294967296 * e + c.nextK) % 1099511627776
  let s1 := s.setAclk n (if c.nextK + 1 < e then { c with nextK := c.nextK + 1 } else { c with nextC := c.nextC + 1, nextK := 0 })
  let s2 := (s1.setReg (Reg.IND_ACLK_EVAL_LO n) (BitVec.ofNat 32 num)).setReg (Reg.IND_ACLK_EVAL_HI n) (BitVec.ofNat 32 (num / 4294967296))
  ((s2.latchHeads n num).wakeEval n num).strobeVoter n num

/-- EVAL_STROBE (R45). -/
def execEvalStrobe (n : Fin 16) (s : State) : Host.Outcome State Fault Refusal := done s (if s.mayStrobe n.val then s.evaluate n.val else s)

/-- What a general unit does to its target with an index (R49): Vermilion, field I/O, the recorder; the event controller has its event. -/
def State.strikeTarget (s : State) (target idx : Nat) : State :=
  match target with
  | 1 => s.pubOnce (s.rf (Reg.VRM_INST_PCB (idx % 32)) 8 0)
  | 2 => s.instantOut (idx % 32)
  | 3 => s.recTrigger (idx % 16) 4
  | _ => s

/-- A firing of general unit u (R47, R504): its result, FIRED with EV045 for the event controller, EV042 where it is late; re-armed. -/
def State.fireUnit (s : State) (u : Nat) (a : ArmedInstant) : State :=
  let off := Reg.IND_INST_STATUS u
  let tgt := s.rf (Reg.IND_INST_TARGET u) 1 0
  let s1 := ((s.setUnit u (s.rearm a)).setRf off 2 0 (fireCode a)).sqcEach off 7 (if tgt = 0 then 45 else noEvent)
  let s2 := if a.late then s1.deliver 42 else s1
  s2.strikeTarget tgt (s.rf (Reg.IND_INST_TARGET u) 15 8)

/-- GENERAL_INSTANT_FIRE (R504), after the commit, the evaluations and the lower units of the tick (R50). -/
def execGeneralInstantFire (u : Fin 32) (s : State) : Host.Outcome State Fault Refusal :=
  done s (
    match s.unit u.val with
    | some a =>
      if s.instReached a && !s.commitDue && (List.range 16).all (fun n => !s.evalDue n) && (List.range u.val).all (fun v => !s.unitDue v) then
        s.fireUnit u.val a
      else s
    | none => s)

end Sys2Proof.Machine
end

