-- ==== Sys2Proof/Machine/Dispatch.lean ====
section
/-!
DEFINITION. What each command does to everything but the queue: one arm per constructor of `Instr`, one direct call of its meaning.
-/

namespace Sys2Proof.Machine

/-- The effect of a command on the state (the queue apart). -/
def exec (i : Instr) (s : State) : Host.Outcome State Fault Refusal :=
  match i with
  | .registerWrite who off val => Sys2Proof.Machine.execRegisterWrite who off val s
  | .wideRegisterLowRead who off => Sys2Proof.Machine.execWideRegisterLowRead who off s
  | .servoUpdate => Sys2Proof.Machine.execServoUpdate s
  | .timeSetStepRequest who val => Sys2Proof.Machine.execTimeSetStepRequest who val s
  | .timeRestart who => Sys2Proof.Machine.execTimeRestart who s
  | .ptpSyncRx p twoStep seq origin corr residence => Sys2Proof.Machine.execPtpSyncRx p twoStep seq origin corr residence s
  | .ptpFollowUpRx p seq origin corr residence => Sys2Proof.Machine.execPtpFollowUpRx p seq origin corr residence s
  | .ptpAnnounceRx p a => Sys2Proof.Machine.execPtpAnnounceRx p a s
  | .ptpPdelayReqRx p seq => Sys2Proof.Machine.execPtpPdelayReqRx p seq s
  | .ptpPdelayRespRx p seq turnaround => Sys2Proof.Machine.execPtpPdelayRespRx p seq turnaround s
  | .ptpManagementRx p => Sys2Proof.Machine.execPtpManagementRx p s
  | .ptpSyncTx p => Sys2Proof.Machine.execPtpSyncTx p s
  | .ptpAnnounceTx p => Sys2Proof.Machine.execPtpAnnounceTx p s
  | .ptpPdelayReqTx p => Sys2Proof.Machine.execPtpPdelayReqTx p s
  | .ptpSyncTimeout => Sys2Proof.Machine.execPtpSyncTimeout s
  | .ptpAnnounceTimeout => Sys2Proof.Machine.execPtpAnnounceTimeout s
  | .tinEdgeCapture n cycles => Sys2Proof.Machine.execTinEdgeCapture n cycles s
  | .ppsInputTimeout n => Sys2Proof.Machine.execPpsInputTimeout n s
  | .irigFrameRx n f => Sys2Proof.Machine.execIrigFrameRx n f s
  | .holdoverExpire => Sys2Proof.Machine.execHoldoverExpire s
  | .holdoverCounterCopy => Sys2Proof.Machine.execHoldoverCounterCopy s
  | .ppsOutPulse n => Sys2Proof.Machine.execPpsOutPulse n s
  | .aclkZeroCrossing n pri sec => Sys2Proof.Machine.execAclkZeroCrossing n pri sec s
  | .aclkSampleLoss n => Sys2Proof.Machine.execAclkSampleLoss n s
  | .aclkFixedStart n => Sys2Proof.Machine.execAclkFixedStart n s
  | .aclkHoldExpire n => Sys2Proof.Machine.execAclkHoldExpire n s
  | .evalStrobe n => Sys2Proof.Machine.execEvalStrobe n s
  | .generalInstantFire u => Sys2Proof.Machine.execGeneralInstantFire u s
  | .commitStrobe => Sys2Proof.Machine.execCommitStrobe s
  | .portLinkUp p => Sys2Proof.Machine.execPortLinkUp p s
  | .portLinkDown p why => Sys2Proof.Machine.execPortLinkDown p why s
  | .frameHeadRx port preemptable => Sys2Proof.Machine.execFrameHeadRx port preemptable s
  | .parseWalk f bytes => Sys2Proof.Machine.execParseWalk f bytes s
  | .classify f => Sys2Proof.Machine.execClassify f s
  | .frameOversizeCut f => Sys2Proof.Machine.execFrameOversizeCut f s
  | .frameTailRx f rest check reasm ext => Sys2Proof.Machine.execFrameTailRx f rest check reasm ext s
  | .dupEntryExpire r src seq => Sys2Proof.Machine.execDupEntryExpire r src seq s
  | .supervisionFrameRx r src => Sys2Proof.Machine.execSupervisionFrameRx r src s
  | .supervisionFrameTx r => Sys2Proof.Machine.execSupervisionFrameTx r s
  | .nodeForget r src => Sys2Proof.Machine.execNodeForget r src s
  | .hsrPassThrough f => Sys2Proof.Machine.execHsrPassThrough f s
  | .preemptVerify p what => Sys2Proof.Machine.execPreemptVerify p what s
  | .plcaBeacon seg => Sys2Proof.Machine.execPlcaBeacon seg s
  | .t1sPlcaFail seg => Sys2Proof.Machine.execT1sPlcaFail seg s
  | .t1sPlcaRecover seg => Sys2Proof.Machine.execT1sPlcaRecover seg s
  | .t1sCollision seg => Sys2Proof.Machine.execT1sCollision seg s
  | .t1sJabberCutoff seg f => Sys2Proof.Machine.execT1sJabberCutoff seg f s
  | .clsLookup who idx val => Sys2Proof.Machine.execClsLookup who idx val s
  | .clsInsert who idx val => Sys2Proof.Machine.execClsInsert who idx val s
  | .clsUpdate who idx val => Sys2Proof.Machine.execClsUpdate who idx val s
  | .clsDelete who idx val => Sys2Proof.Machine.execClsDelete who idx val s
  | .clsRead who idx val => Sys2Proof.Machine.execClsRead who idx val s
  | .strangerSelect who val => Sys2Proof.Machine.execStrangerSelect who val s
  | .strangerClear who val => Sys2Proof.Machine.execStrangerClear who val s
  | .verdict f => Sys2Proof.Machine.execVerdict f s
  | .prevHoldExpire => Sys2Proof.Machine.execPrevHoldExpire s
  | .resetWindow who val => Sys2Proof.Machine.execResetWindow who val s
  | .autCtxSelect who val => Sys2Proof.Machine.execAutCtxSelect who val s
  | .cellDue seg => Sys2Proof.Machine.execCellDue seg s
  | .streamSelect who val => Sys2Proof.Machine.execStreamSelect who val s
  | .laneEntry f => Sys2Proof.Machine.execLaneEntry f s
  | .stageDispatch l st => Sys2Proof.Machine.execStageDispatch l st s
  | .relNext t gs => Sys2Proof.Machine.execRelNext t gs s
  | .relExit t gs => Sys2Proof.Machine.execRelExit t gs s
  | .relDrop t gs => Sys2Proof.Machine.execRelDrop t gs s
  | .relRecirc t gs => Sys2Proof.Machine.execRelRecirc t gs s
  | .stageExit l st => Sys2Proof.Machine.execStageExit l st s
  | .stageOverrun t => Sys2Proof.Machine.execStageOverrun t s
  | .laneExit f => Sys2Proof.Machine.execLaneExit f s
  | .egressStart e tc => Sys2Proof.Machine.execEgressStart e tc s
  | .egressEnd e descBad dataBad => Sys2Proof.Machine.execEgressEnd e descBad dataBad s
  | .pauseRx p quanta => Sys2Proof.Machine.execPauseRx p quanta s
  | .pauseQuantaExpire p => Sys2Proof.Machine.execPauseQuantaExpire p s
  | .pauseFlush p => Sys2Proof.Machine.execPauseFlush p s
  | .qhwmReset who l st => Sys2Proof.Machine.execQhwmReset who l st s
  | .ochQuery who val => Sys2Proof.Machine.execOchQuery who val s
  | .ochCmdFree who val => Sys2Proof.Machine.execOchCmdFree who val s
  | .ochReclaim who val => Sys2Proof.Machine.execOchReclaim who val s
  | .poolLowReset who p => Sys2Proof.Machine.execPoolLowReset who p s
  | .fwdLqPop who => Sys2Proof.Machine.execFwdLqPop who s
  | .fwdLookup who idx val => Sys2Proof.Machine.execFwdLookup who idx val s
  | .fwdInsert who idx val => Sys2Proof.Machine.execFwdInsert who idx val s
  | .fwdUpdate who idx val => Sys2Proof.Machine.execFwdUpdate who idx val s
  | .fwdDelete who idx val => Sys2Proof.Machine.execFwdDelete who idx val s
  | .fwdRead who idx val => Sys2Proof.Machine.execFwdRead who idx val s
  | .fwdFlush who idx val => Sys2Proof.Machine.execFwdFlush who idx val s
  | .fwdClear who idx val => Sys2Proof.Machine.execFwdClear who idx val s
  | .agingSweepVisit => Sys2Proof.Machine.execAgingSweepVisit s
  | .faultTimeoutKill t => Sys2Proof.Machine.execFaultTimeoutKill t s
  | .ctlResume who c val => Sys2Proof.Machine.execCtlResume who c val s
  | .ctlKill who c val => Sys2Proof.Machine.execCtlKill who c val s
  | .ctlAbortWait who c val => Sys2Proof.Machine.execCtlAbortWait who c val s
  | .supervisorInterrupt c => Sys2Proof.Machine.execSupervisorInterrupt c s
  | .maskMaxExceeded c => Sys2Proof.Machine.execMaskMaxExceeded c s
  | .deadlockDetect c g => Sys2Proof.Machine.execDeadlockDetect c g s
  | .deadlockEscalate c g => Sys2Proof.Machine.execDeadlockEscalate c g s
  | .fltPop who c => Sys2Proof.Machine.execFltPop who c s
  | .dlPop who c => Sys2Proof.Machine.execDlPop who c s
  | .chnAbort who c val => Sys2Proof.Machine.execChnAbort who c val s
  | .resultWriteback t idx => Sys2Proof.Machine.execResultWriteback t idx s
  | .storeVisible t => Sys2Proof.Machine.execStoreVisible t s
  | .ld t da => Sys2Proof.Machine.execLd t da s
  | .ldu t da => Sys2Proof.Machine.execLdu t da s
  | .st t da => Sys2Proof.Machine.execSt t da s
  | .sts t da => Sys2Proof.Machine.execSts t da s
  | .add t da => Sys2Proof.Machine.execAdd t da s
  | .addu t da => Sys2Proof.Machine.execAddu t da s
  | .sub t da => Sys2Proof.Machine.execSub t da s
  | .andDp t da => Sys2Proof.Machine.execAndDp t da s
  | .orDp t da => Sys2Proof.Machine.execOrDp t da s
  | .xorDp t da => Sys2Proof.Machine.execXorDp t da s
  | .mul t da => Sys2Proof.Machine.execMul t da s
  | .mulh t da => Sys2Proof.Machine.execMulh t da s
  | .ldw t x p d6 => Sys2Proof.Machine.execLdw t x p d6 s
  | .ldh t x p d6 => Sys2Proof.Machine.execLdh t x p d6 s
  | .ldhu t x p d6 => Sys2Proof.Machine.execLdhu t x p d6 s
  | .ldb t x p d6 => Sys2Proof.Machine.execLdb t x p d6 s
  | .ldbu t x p d6 => Sys2Proof.Machine.execLdbu t x p d6 s
  | .stw t x p d6 => Sys2Proof.Machine.execStw t x p d6 s
  | .sth t x p d6 => Sys2Proof.Machine.execSth t x p d6 s
  | .stb t x p d6 => Sys2Proof.Machine.execStb t x p d6 s
  | .movg t ga gb => Sys2Proof.Machine.execMovg t ga gb s
  | .mva t ga => Sys2Proof.Machine.execMva t ga s
  | .mvau t ga => Sys2Proof.Machine.execMvau t ga s
  | .mvg t ga => Sys2Proof.Machine.execMvg t ga s
  | .addg t ga gb => Sys2Proof.Machine.execAddg t ga gb s
  | .subg t ga gb => Sys2Proof.Machine.execSubg t ga gb s
  | .andg t ga gb => Sys2Proof.Machine.execAndg t ga gb s
  | .org t ga gb => Sys2Proof.Machine.execOrg t ga gb s
  | .xorg t ga gb => Sys2Proof.Machine.execXorg t ga gb s
  | .ceq t ga gb => Sys2Proof.Machine.execCeq t ga gb s
  | .cne t ga gb => Sys2Proof.Machine.execCne t ga gb s
  | .clt t ga gb => Sys2Proof.Machine.execClt t ga gb s
  | .cge t ga gb => Sys2Proof.Machine.execCge t ga gb s
  | .cltu t ga gb => Sys2Proof.Machine.execCltu t ga gb s
  | .cgeu t ga gb => Sys2Proof.Machine.execCgeu t ga gb s
  | .par t ga gb => Sys2Proof.Machine.execPar t ga gb s
  | .brev t ga gb => Sys2Proof.Machine.execBrev t ga gb s
  | .bswp t ga gb => Sys2Proof.Machine.execBswp t ga gb s
  | .crcb t p gb => Sys2Proof.Machine.execCrcb t p gb s
  | .crcw t p gb => Sys2Proof.Machine.execCrcw t p gb s
  | .crcm t p x n1 => Sys2Proof.Machine.execCrcm t p x n1 s
  | .chanOpen t ga gb => Sys2Proof.Machine.execChanOpen t ga gb s
  | .chanOpenw t ga gb => Sys2Proof.Machine.execChanOpenw t ga gb s
  | .recv t ga gb => Sys2Proof.Machine.execRecv t ga gb s
  | .recvw t ga gb => Sys2Proof.Machine.execRecvw t ga gb s
  | .chw t w ga gb => Sys2Proof.Machine.execChw t w ga gb s
  | .send t ga n1 => Sys2Proof.Machine.execSend t ga n1 s
  | .lock t ga gb => Sys2Proof.Machine.execLock t ga gb s
  | .unlock t ga gb => Sys2Proof.Machine.execUnlock t ga gb s
  | .ldi t imm => Sys2Proof.Machine.execLdi t imm s
  | .addi t imm => Sys2Proof.Machine.execAddi t imm s
  | .andi t imm => Sys2Proof.Machine.execAndi t imm s
  | .shf t ty seg => Sys2Proof.Machine.execShf t ty seg s
  | .loop t gs b1 => Sys2Proof.Machine.execLoop t gs b1 s
  | .loopi t n1 b1 => Sys2Proof.Machine.execLoopi t n1 b1 s
  | .bz t gs rel => Sys2Proof.Machine.execBz t gs rel s
  | .bnz t gs rel => Sys2Proof.Machine.execBnz t gs rel s
  | .bra t rel => Sys2Proof.Machine.execBra t rel s
  | .ldl t imm => Sys2Proof.Machine.execLdl t imm s
  | .ldlh t imm => Sys2Proof.Machine.execLdlh t imm s
  | .jmpf t addr => Sys2Proof.Machine.execJmpf t addr s
  | .callf t addr => Sys2Proof.Machine.execCallf t addr s
  | .nop t => Sys2Proof.Machine.execNop t s
  | .synci t => Sys2Proof.Machine.execSynci t s
  | .ret t => Sys2Proof.Machine.execRet t s
  | .reti t => Sys2Proof.Machine.execReti t s
  | .ei t => Sys2Proof.Machine.execEi t s
  | .di t => Sys2Proof.Machine.execDi t s
  | .tend t => Sys2Proof.Machine.execTend t s
  | .yield t => Sys2Proof.Machine.execYield t s
  | .mtx t x gs => Sys2Proof.Machine.execMtx t x gs s
  | .mfx t x gs => Sys2Proof.Machine.execMfx t x gs s
  | .adx t x gs => Sys2Proof.Machine.execAdx t x gs s
  | .vwait t gs => Sys2Proof.Machine.execVwait t gs s
  | .vpost t gs => Sys2Proof.Machine.execVpost t gs s
  | .pmw t gs => Sys2Proof.Machine.execPmw t gs s
  | .pmr t gs => Sys2Proof.Machine.execPmr t gs s
  | .mfs t gs => Sys2Proof.Machine.execMfs t gs s
  | .div t gs => Sys2Proof.Machine.execDiv t gs s
  | .sqrt t => Sys2Proof.Machine.execSqrt t s
  | .undefinedEncoding t => Sys2Proof.Machine.execUndefinedEncoding t s
  | .packetByteArrival f bytes => Sys2Proof.Machine.execPacketByteArrival f bytes s
  | .cpxCommandStart core tag waited => Sys2Proof.Machine.execCpxCommandStart core tag waited s
  | .cpxResultWrite core tag => Sys2Proof.Machine.execCpxResultWrite core tag s
  | .cmtr t cd gs => Sys2Proof.Machine.execCmtr t cd gs s
  | .cmti t cd gs => Sys2Proof.Machine.execCmti t cd gs s
  | .cmfr t gs ca => Sys2Proof.Machine.execCmfr t gs ca s
  | .cmfi t gs ca => Sys2Proof.Machine.execCmfi t gs ca s
  | .cmov t cd ca => Sys2Proof.Machine.execCmov t cd ca s
  | .ccvt t cd gs m => Sys2Proof.Machine.execCcvt t cd gs m s
  | .ccvtc t cd gs m => Sys2Proof.Machine.execCcvtc t cd gs m s
  | .cfix t gs ca m => Sys2Proof.Machine.execCfix t gs ca m s
  | .cadd t cd ca cb => Sys2Proof.Machine.execCadd t cd ca cb s
  | .csub t cd ca cb => Sys2Proof.Machine.execCsub t cd ca cb s
  | .cmul t cd ca cb => Sys2Proof.Machine.execCmul t cd ca cb s
  | .cmac t cd ca cb => Sys2Proof.Machine.execCmac t cd ca cb s
  | .cmsc t cd ca cb => Sys2Proof.Machine.execCmsc t cd ca cb s
  | .ccmul t cd ca cb => Sys2Proof.Machine.execCcmul t cd ca cb s
  | .ccmac t cd ca cb => Sys2Proof.Machine.execCcmac t cd ca cb s
  | .crmul t cd ca gs => Sys2Proof.Machine.execCrmul t cd ca gs s
  | .cscl t cd ca m => Sys2Proof.Machine.execCscl t cd ca m s
  | .cconj t cd ca => Sys2Proof.Machine.execCconj t cd ca s
  | .cdft t cd ca cb gs h => Sys2Proof.Machine.execCdft t cd ca cb gs h s
  | .crot t cd ca gs => Sys2Proof.Machine.execCrot t cd ca gs s
  | .cmag t cd ca => Sys2Proof.Machine.execCmag t cd ca s
  | .carg t gs ca => Sys2Proof.Machine.execCarg t gs ca s
  | .cfsq t cd ca => Sys2Proof.Machine.execCfsq t cd ca s
  | .cdiv t cd ca cb => Sys2Proof.Machine.execCdiv t cd ca cb s
  | .ccmpr t gs ca cb m => Sys2Proof.Machine.execCcmpr t gs ca cb m s
  | .ccmpi t gs ca cb m => Sys2Proof.Machine.execCcmpi t gs ca cb m s
  | .ccmpm t gs ca cb m => Sys2Proof.Machine.execCcmpm t gs ca cb m s
  | .cmin t cd ca cb => Sys2Proof.Machine.execCmin t cd ca cb s
  | .cmax t cd ca cb => Sys2Proof.Machine.execCmax t cd ca cb s
  | .taskAssign c => Sys2Proof.Machine.execTaskAssign c s
  | .taskPreempt t => Sys2Proof.Machine.execTaskPreempt t s
  | .taskSwitch t => Sys2Proof.Machine.execTaskSwitch t s
  | .stagingLoad t task => Sys2Proof.Machine.execStagingLoad t task s
  | .dispatcherTimerFire c u => Sys2Proof.Machine.execDispatcherTimerFire c u s
  | .budgetOverrun t => Sys2Proof.Machine.execBudgetOverrun t s
  | .activate who c val => Sys2Proof.Machine.execActivate who c val s
  | .cancel who c val => Sys2Proof.Machine.execCancel who c val s
  | .tcbSelect who c val => Sys2Proof.Machine.execTcbSelect who c val s
  | .lockTryRead t global idx => Sys2Proof.Machine.execLockTryRead t global idx s
  | .mbDataWrite who c m w val => Sys2Proof.Machine.execMbDataWrite who c m w val s
  | .mbPost who c m val => Sys2Proof.Machine.execMbPost who c m val s
  | .mbTake who c m => Sys2Proof.Machine.execMbTake who c m s
  | .pairVoteRx vote cl task trip prov => Sys2Proof.Machine.execPairVoteRx vote cl task trip prov s
  | .vrmReset who val => Sys2Proof.Machine.execVrmReset who val s
  | .vrmDisPop who => Sys2Proof.Machine.execVrmDisPop who s
  | .vrmPcbSelect who val => Sys2Proof.Machine.execVrmPcbSelect who val s
  | .pcbRetransmit b => Sys2Proof.Machine.execPcbRetransmit b s
  | .outputRelease o => Sys2Proof.Machine.execOutputRelease o s
  | .armHoldExpire o => Sys2Proof.Machine.execArmHoldExpire o s
  | .fioArm who val => Sys2Proof.Machine.execFioArm who val s
  | .fioFire who val => Sys2Proof.Machine.execFioFire who val s
  | .fioRelease who val => Sys2Proof.Machine.execFioRelease who val s
  | .fioArmExpire o => Sys2Proof.Machine.execFioArmExpire o s
  | .inputAccept idx level firstAt => Sys2Proof.Machine.execInputAccept idx level firstAt s
  | .chatterEnd idx level => Sys2Proof.Machine.execChatterEnd idx level s
  | .imgBegin port => Sys2Proof.Machine.execImgBegin port s
  | .imgData port => Sys2Proof.Machine.execImgData port s
  | .imgEnd port => Sys2Proof.Machine.execImgEnd port s
  | .imgVerifyDone => Sys2Proof.Machine.execImgVerifyDone s
  | .discard port what => Sys2Proof.Machine.execDiscard port what s
  | .remove port => Sys2Proof.Machine.execRemove port s
  | .check port => Sys2Proof.Machine.execCheck port s
  | .checkDone => Sys2Proof.Machine.execCheckDone s
  | .arm port => Sys2Proof.Machine.execArm port s
  | .preloadDone => Sys2Proof.Machine.execPreloadDone s
  | .disarm port => Sys2Proof.Machine.execDisarm port s
  | .request port cls idx req => Sys2Proof.Machine.execRequest port cls idx req s
  | .retire port tile => Sys2Proof.Machine.execRetire port tile s
  | .tileBist port tile => Sys2Proof.Machine.execTileBist port tile s
  | .bistDone tile fail => Sys2Proof.Machine.execBistDone tile fail s
  | .spareBistPeriod => Sys2Proof.Machine.execSpareBistPeriod s
  | .quarantine port => Sys2Proof.Machine.execQuarantine port s
  | .clear port => Sys2Proof.Machine.execClear port s
  | .raiseFloor port kind => Sys2Proof.Machine.execRaiseFloor port kind s
  | .drainTimeout p => Sys2Proof.Machine.execDrainTimeout p s
  | .drainComplete p => Sys2Proof.Machine.execDrainComplete p s
  | .scrubDomainCheck d mismatch retainedBad => Sys2Proof.Machine.execScrubDomainCheck d mismatch retainedBad s
  | .autoCommitArm => Sys2Proof.Machine.execAutoCommitArm s
  | .unitMismatch cls idx => Sys2Proof.Machine.execUnitMismatch cls idx s
  | .unitSelect who val => Sys2Proof.Machine.execUnitSelect who val s
  | .keyLoad port => Sys2Proof.Machine.execKeyLoad port s
  | .credLoad port => Sys2Proof.Machine.execCredLoad port s
  | .rootAdd port => Sys2Proof.Machine.execRootAdd port s
  | .rootRevoke port => Sys2Proof.Machine.execRootRevoke port s
  | .packageCheckDone => Sys2Proof.Machine.execPackageCheckDone s
  | .attest port fuse => Sys2Proof.Machine.execAttest port fuse s
  | .attestDone => Sys2Proof.Machine.execAttestDone s
  | .zeroise port => Sys2Proof.Machine.execZeroise port s
  | .tamperInput idx => Sys2Proof.Machine.execTamperInput idx s
  | .monitorTrip m => Sys2Proof.Machine.execMonitorTrip m s
  | .debugGrant port p control jtag session secs => Sys2Proof.Machine.execDebugGrant port p control jtag session secs s
  | .debugRevoke port p => Sys2Proof.Machine.execDebugRevoke port p s
  | .debugGrantExpire p => Sys2Proof.Machine.execDebugGrantExpire p s
  | .perstDeassert link bifHigh barCmp => Sys2Proof.Machine.execPerstDeassert link bifHigh barCmp s
  | .pcieLinkChange link up rate width flit => Sys2Proof.Machine.execPcieLinkChange link up rate width flit s
  | .pcieHotReset link => Sys2Proof.Machine.execPcieHotReset link s
  | .flrPf0 link => Sys2Proof.Machine.execFlrPf0 link s
  | .flrPf1 link => Sys2Proof.Machine.execFlrPf1 link s
  | .d3hotEntry link pf => Sys2Proof.Machine.execD3hotEntry link pf s
  | .dmaDeliver d desc => Sys2Proof.Machine.execDmaDeliver d desc s
  | .dmaInject d desc bytes ext => Sys2Proof.Machine.execDmaInject d desc bytes ext s
  | .dmaSignal d => Sys2Proof.Machine.execDmaSignal d s
  | .dmaFault d why => Sys2Proof.Machine.execDmaFault d why s
  | .dmaStart who d => Sys2Proof.Machine.execDmaStart who d s
  | .dmaStop who d => Sys2Proof.Machine.execDmaStop who d s
  | .bar0DecodeMiss link write off => Sys2Proof.Machine.execBar0DecodeMiss link write off s
  | .pciBankWrite who link val => Sys2Proof.Machine.execPciBankWrite who link val s
  | .bar2WriteDenied link off => Sys2Proof.Machine.execBar2WriteDenied link off s
  | .mgtDoorbell link frame => Sys2Proof.Machine.execMgtDoorbell link frame s
  | .mgtUnitRx port src crcGood unit => Sys2Proof.Machine.execMgtUnitRx port src crcGood unit s
  | .mgtFrameTimeout port => Sys2Proof.Machine.execMgtFrameTimeout port s
  | .openReq port => Sys2Proof.Machine.execOpenReq port s
  | .openProof port => Sys2Proof.Machine.execOpenProof port s
  | .close port => Sys2Proof.Machine.execClose port s
  | .ping port => Sys2Proof.Machine.execPing port s
  | .openingTimeout port => Sys2Proof.Machine.execOpeningTimeout port s
  | .sessionIdleTimeout port => Sys2Proof.Machine.execSessionIdleTimeout port s
  | .lockoutExpire port => Sys2Proof.Machine.execLockoutExpire port s
  | .regRead port => Sys2Proof.Machine.execRegRead port s
  | .regWrite port => Sys2Proof.Machine.execRegWrite port s
  | .sqcClear port => Sys2Proof.Machine.execSqcClear port s
  | .cluEvtTake who c => Sys2Proof.Machine.execCluEvtTake who c s
  | .evtAlarmTake who => Sys2Proof.Machine.execEvtAlarmTake who s
  | .paiPeerEvtTake who => Sys2Proof.Machine.execPaiPeerEvtTake who s
  | .umberLaneLock lane => Sys2Proof.Machine.execUmberLaneLock lane s
  | .umberLaneDrop lane => Sys2Proof.Machine.execUmberLaneDrop lane s
  | .helloTx => Sys2Proof.Machine.execHelloTx s
  | .helloRx good vers step devId => Sys2Proof.Machine.execHelloRx good vers step devId s
  | .heartbeatTx => Sys2Proof.Machine.execHeartbeatTx s
  | .heartbeatRx hb => Sys2Proof.Machine.execHeartbeatRx hb s
  | .heartbeatMiss => Sys2Proof.Machine.execHeartbeatMiss s
  | .pairMbxRx seq m len w0 w1 w2 w3 => Sys2Proof.Machine.execPairMbxRx seq m len w0 w1 w2 w3 s
  | .pairEvtRx e => Sys2Proof.Machine.execPairEvtRx e s
  | .pairMgtRx unit => Sys2Proof.Machine.execPairMgtRx unit s
  | .pairFrameRx tc code bytes ext => Sys2Proof.Machine.execPairFrameRx tc code bytes ext s
  | .creditReturnRx tc n => Sys2Proof.Machine.execCreditReturnRx tc n s
  | .creditTimeout tc => Sys2Proof.Machine.execCreditTimeout tc s
  | .ddrRefresh => Sys2Proof.Machine.execDdrRefresh s
  | .ddrTempRead hot => Sys2Proof.Machine.execDdrTempRead hot s
  | .ddrScrubLine line err => Sys2Proof.Machine.execDdrScrubLine line err s
  | .ddrTrainingDone pass => Sys2Proof.Machine.execDdrTrainingDone pass s
  | .histFetchStart t f val => Sys2Proof.Machine.execHistFetchStart t f val s
  | .histFetchDone c f => Sys2Proof.Machine.execHistFetchDone c f s
  | .recCmdTrigger who val => Sys2Proof.Machine.execRecCmdTrigger who val s
  | .recordComplete r => Sys2Proof.Machine.execRecordComplete r s
  | .pmuFreeze who val => Sys2Proof.Machine.execPmuFreeze who val s
  | .pmuUnfreeze who val => Sys2Proof.Machine.execPmuUnfreeze who val s
  | .pmuClear who val => Sys2Proof.Machine.execPmuClear who val s
  | .dbgHalt who val => Sys2Proof.Machine.execDbgHalt who val s
  | .dbgResume who val => Sys2Proof.Machine.execDbgResume who val s
  | .dbgStep who val => Sys2Proof.Machine.execDbgStep who val s
  | .dbgWriteCtx who val => Sys2Proof.Machine.execDbgWriteCtx who val s
  | .dbgMemRd who val => Sys2Proof.Machine.execDbgMemRd who val s
  | .dbgMemWr who val => Sys2Proof.Machine.execDbgMemWr who val s
  | .dbgCtxSelect who val => Sys2Proof.Machine.execDbgCtxSelect who val s
  | .breakpointHit t => Sys2Proof.Machine.execBreakpointHit t s
  | .jtagProof who val => Sys2Proof.Machine.execJtagProof who val s
  | .jtagLockoutExpire => Sys2Proof.Machine.execJtagLockoutExpire s
  | .jtagIdcode => Sys2Proof.Machine.execJtagIdcode s
  | .jtagBypass => Sys2Proof.Machine.execJtagBypass s
  | .jtagSamplePreload boundary => Sys2Proof.Machine.execJtagSamplePreload boundary s
  | .jtagExtest boundary => Sys2Proof.Machine.execJtagExtest boundary s
  | .jtagClamp => Sys2Proof.Machine.execJtagClamp s
  | .jtagHighz => Sys2Proof.Machine.execJtagHighz s
  | .jtagDbgacc write off val => Sys2Proof.Machine.execJtagDbgacc write off val s
  | .tapReset => Sys2Proof.Machine.execTapReset s
  | .vauxRise => Sys2Proof.Machine.execVauxRise s
  | .vauxFall => Sys2Proof.Machine.execVauxFall s
  | .mainReset => Sys2Proof.Machine.execMainReset s
  | .pwrGoodLoss => Sys2Proof.Machine.execPwrGoodLoss s
  | .railFault rail => Sys2Proof.Machine.execRailFault rail s
  | .sysResetDevice who val => Sys2Proof.Machine.execSysResetDevice who val s
  | .sysResetCluster who val => Sys2Proof.Machine.execSysResetCluster who val s
  | .clusterResetDone c => Sys2Proof.Machine.execClusterResetDone c s
  | .resetRelease bootSrc avsLow vauxHeld => Sys2Proof.Machine.execResetRelease bootSrc avsLow vauxHeld s
  | .configEntry bistFail => Sys2Proof.Machine.execConfigEntry bistFail s
  | .bootEngineRun bytes => Sys2Proof.Machine.execBootEngineRun bytes s
  | .bootAbort who val => Sys2Proof.Machine.execBootAbort who val s
  | .sysStateReq who val => Sys2Proof.Machine.execSysStateReq who val s
  | .avsUpdate target reported ack => Sys2Proof.Machine.execAvsUpdate target reported ack s
  | .temperatureSample t0 t1 t2 t3 t4 t5 t6 t7 => Sys2Proof.Machine.execTemperatureSample t0 t1 t2 t3 t4 t5 t6 t7 s
  | .tempMaxReset who => Sys2Proof.Machine.execTempMaxReset who s
  | .irigFrameMissing n => Sys2Proof.Machine.execIrigFrameMissing n s
  | .planeSramScrub cs idx err => Sys2Proof.Machine.execPlaneSramScrub cs idx err s
  | .clusterSramScrub c unit err => Sys2Proof.Machine.execClusterSramScrub c unit err s
  | .timeBasePllLockLoss => Sys2Proof.Machine.execTimeBasePllLockLoss s
  | .timeBasePllRelock => Sys2Proof.Machine.execTimeBasePllRelock s
  | .pauseIgnoreEnd p => Sys2Proof.Machine.execPauseIgnoreEnd p s
  | .aerUncorrectableError link => Sys2Proof.Machine.execAerUncorrectableError link s
  | .bar2ReadDenied link off => Sys2Proof.Machine.execBar2ReadDenied link off s
  | .msixVectorUnmask link pf vec => Sys2Proof.Machine.execMsixVectorUnmask link pf vec s
  | .returnToD0 link pf => Sys2Proof.Machine.execReturnToD0 link pf s
  | .smbusBlockRead => Sys2Proof.Machine.execSmbusBlockRead s

end Sys2Proof.Machine
end

