-- ==== Sys2Proof/Machine/Tick.lean ====
section
/-!
DEFINITION. One tick of the time base, which passes when no command waits (the model's choice: the table has no row for a tick): 4 ns of device time
with the angle clocks, the sums that count cycles, the rotating positions, and the conditions that blocks judge in every tick. What a rule gives an
instant or a limit of its own has a row in the table and happens at that command.
-/

namespace Sys2Proof.Machine

/-! ## Counters of cycles (R457): they follow the unsteered counter, so cycle counts do not drift with IND_STEER (R17) -/

/-- The core cycles of 0.8 ns, and the fabric cycles of 1 ns, that end between two instants of `up`. -/
def coreSpan (a b : Nat) : Nat := b * 5 / (4 * nsU) - a * 5 / (4 * nsU)
def fabSpan (a b : Nat) : Nat := b / nsU - a / nsU

/-- The cores with a counter enabled, as (cluster, core). -/
def State.coresCounting (s : State) : List (Nat × Nat) :=
  (s.regs.filterMap fun p =>
    let r := (p.1 - 0x100000) % 0x10000
    if 0x100000 ≤ p.1 ∧ 0x800 ≤ r ∧ r < 0xC00 ∧ r % 16 = 0 ∧ tbit p.2 31 then some ((p.1 - 0x100000) / 0x10000, (r - 0x800) / 0x40)
    else none).eraseDups

/-- The clusters with a cluster counter enabled. -/
def State.clustersCounting (s : State) : List Nat :=
  (s.regs.filterMap fun p =>
    let r := (p.1 - 0x100000) % 0x10000
    if 0x100000 ≤ p.1 ∧ 0xC00 ≤ r ∧ r < 0xD00 ∧ r % 16 = 0 ∧ tbit p.2 31 then some ((p.1 - 0x100000) / 0x10000) else none).eraseDups

/-- The listed threads of core k of cluster c. -/
def State.threadsListed (s : State) (c k : Nat) : List Nat :=
  (s.clu.thr.filter fun p => p.1 / 128 == c && p.1 % 128 / 8 == k).map Prod.fst

/-- n core cycles of a core, those of them in which no thread issued, and the STALLED and WAITING cycles of its threads. -/
def State.coreCycles (s : State) (c k n : Nat) : State :=
  let ts := s.threadsListed c k
  let used := (ts.map fun t => (s.thr t).slots).sum
  let s1 := (s.pmuCore c k 0x00 {} n).pmuCore c k 0x03 {} (n - used)
  let s2 := each (ts.filter s.isStalled) (fun x t => x.pmuCore c k 0x05 (x.privAttr t) n) s1
  each (ts.filter fun t => (s.thr t).st == .waiting) (fun x t => x.pmuCore c k 0x06 (x.privAttr t) n) s2

/-- The issue slots of the tick that ends are counted. -/
def State.clearSlots (s : State) : State :=
  each ((s.clu.thr.filter fun p => p.2.slots != 0).map Prod.fst) (fun x k => x.updThr k fun t => { t with slots := 0 }) s

/-- How many agents of cluster c wait for a lock. -/
def State.lockWaiters (s : State) (c : Nat) : Nat :=
  ((s.clu.llocks ++ s.clu.glocks).map fun p => (p.2.queue.filter fun a => a.cl == c).length).foldl (· + ·) 0

/-- How many frames wait in a reorder buffer. -/
def State.reorderWaiters (s : State) : Nat :=
  (s.pkt.frames.filter fun p => p.2.live && (match p.2.loc with | .reorder _ _ => true | _ => false)).length

/-- Every counter of cycles, by the n core cycles and m fabric cycles of this tick. -/
def State.countCycles (s : State) (n m : Nat) : State :=
  let s1 := (each s.coresCounting (fun x p => x.coreCycles p.1 p.2 n) s).clearSlots
  let s2 := each s1.clustersCounting (fun x c => x.pmuClu c 0x45 {} (n * x.lockWaiters c)) s1
  (s2.pmuFab 0x87 {} (m * s2.reorderWaiters)).pmuFab 0x91 {} m

/-! ## Conditions judged in every tick -/

/-- The threads that a task has left and no task has entered: the release writes its trace record (R279). -/
def State.traceReleases (s : State) : State :=
  each ((s.clu.thr.filter fun p => p.2.st == .idle && p.2.incoming.isNone && p.2.outTask.isSome).map Prod.fst) (fun x k =>
    let t := x.thr k
    let n := 1024 * (k / 128) + t.outTask.getD 0
    (x.trace (k / 128) (x.task n).part t.outTask none k t.outReason (x.task n).prio 0).updThr k fun y => { y with outTask := none }) s

/-- The tiles whose errors of the last second reach ERR_MAX (R351). -/
def State.judgeTiles (s : State) : State :=
  each (s.cfg.errs.map Prod.fst) (fun x j =>
    let n := ((x.cfg.errs.gd [] j).filter fun t => x.up < t + secU).length
    if x.tileState j == 0 && n != 0 && x.rf Reg.CFG_CTRL 23 16 ≤ n then x.failTile j else x) s

/-- The rotating positions: OCH_RR (R177) by m fabric cycles, CLU_LCK_RR (R284) and CLU_LCK_GRR (R290) by n core cycles. -/
def State.rotate (s : State) (n m : Nat) : State :=
  let s1 := s.setReg Reg.OCH_RR (BitVec.ofNat 32 ((s.rf Reg.OCH_RR 3 0 + m) % 10))
  each (List.range 6) (fun x c =>
    (x.setReg (Reg.CLU_LCK_RR c) (BitVec.ofNat 32 ((x.rf (Reg.CLU_LCK_RR c) 4 0 + n) % 17))).setReg (Reg.CLU_LCK_GRR c)
      (BitVec.ofNat 32 ((x.rf (Reg.CLU_LCK_GRR c) 2 0 + n) % 6))) s1

/-- The rings of the device, by key. -/
def State.rings (s : State) : List Ring :=
  (List.range 16).map s.capRing ++ (List.range 6).map s.traceRing ++ [s.soeRing] ++ (List.range 6).map s.sampleRing ++ [s.tagRing]

/-- The FIFOs that DRAM takes records from again after a refresh (R444). -/
def State.drainRings (s : State) : State :=
  if s.ddr.fifo.isEmpty then s else each s.rings State.ringDrain s

/-! ## Time -/

/-- How long one tick of the steered time base lasts, in 10^-12 of 2^-16 ns: 4 ns at IND_STEER 0, which counts 0.001 ppb (R27). -/
def State.advanceUp (s : State) : State :=
  let rate := (1000000000000 + wordInt (s.reg Reg.IND_STEER)).toNat
  let all := s.ind.frac + 4 * nsU * 1000000000000
  { s with up := s.up + all / rate, ind := { s.ind with frac := all % rate } }

/-- Device time and the angle clocks advance by one tick (R27, R39). -/
def State.advanceTime (s : State) : State :=
  { s with time := s.time + 4 * nsU, ind := { s.ind with aclk := s.ind.aclk.mapD {} fun _ c => c.tick } }

/-- One tick: with the main power off or RESET_N low only the always-on domain sees time pass. -/
def tick (s : State) : State :=
  if !s.pwr.resetHigh then { s with up := s.up + 4 * nsU }
  else
    let next := s.advanceUp.up
    let n := coreSpan s.up next
    let m := fabSpan s.up next
    let s1 := ((s.traceReleases.watchGroups (next - s.up)).countCycles n m).rotate n m
    let s2 := s1.advanceUp.advanceTime.stateTick
    (each s2.unitList (fun x p => x.followUnit p) s2.train.judgeTiles.judgeChans).drainRings.beginFabricCycle

end Sys2Proof.Machine
end

