-- ==== Sys2Proof/Machine/Step.lean ====
section
/-!
DEFINITION. One step of the block: the command at the front of the queue is taken and executed with the queue's rest; on an empty
queue one tick of the time base passes (4 ns; the model's choice, notes/assumptions). The opcode table gives no row any bits, so a
word spells no command and `State.withFetchWord` changes nothing.
-/

namespace Sys2Proof.Machine

/-- The state with the command that a word spells put at the front of the queue; unchanged where the word spells none. -/
def State.withFetchWord (s : State) (nbits w : Nat) : State :=
  match Sys2Proof.decodeTableWord nbits w with
  | some c => { s with pending := c :: s.pending }
  | none => s

/-- One step. -/
def step (s : State) : Host.Outcome State Fault Refusal :=
  match s.pending with
  | [] => .next (tick s)
  | c :: cs => exec c { s with pending := cs }

end Sys2Proof.Machine
end

