-- ==== Sys2Proof/Safety.lean ====
section
/-!
DEFINITION. What the statements mean by a good state and by a command that touches only a part of the device. No command of this block stops the
machine (Machine/State.lean: Fault has no constructor), so a run is safe where the canonical forms last.
-/

namespace Sys2Proof.Machine

/-- The canonical form of the device's memories: cluster SRAM (R216), program memory (R221), the sample planes (R134) and DRAM (R440). -/
def Memory.wf (s : State) : Bool :=
  s.clu.sram.wf (fun _ => 0) && s.clu.pmem.wf (fun _ => 0) && s.spe.cells.wf (fun _ => 0) && s.ddr.mem.wf (fun _ => 0)

/-- The canonical form of the register store: keys rising, no register listed at its reset value. -/
def Registers.wf (s : State) : Bool := s.regs.wf regReset

/-- The parts of the state, as its fields name them. -/
inductive Area where
  | up | time | regs | rdShadow | wrHold | fv | out | ind | ing | aut | spe | pkt | och | clu | cpx | vrm | cfg | sab | hst | pai | ddr | dbg | pwr
  deriving DecidableEq, Repr

/-- Whether an area of two states is the same. -/
def Area.same (a : Area) (s t : State) : Prop :=
  match a with
  | .up => t.up = s.up | .time => t.time = s.time | .regs => t.regs = s.regs | .rdShadow => t.rdShadow = s.rdShadow
  | .wrHold => t.wrHold = s.wrHold | .fv => t.fv = s.fv | .out => t.out = s.out | .ind => t.ind = s.ind | .ing => t.ing = s.ing
  | .aut => t.aut = s.aut | .spe => t.spe = s.spe | .pkt => t.pkt = s.pkt | .och => t.och = s.och | .clu => t.clu = s.clu
  | .cpx => t.cpx = s.cpx | .vrm => t.vrm = s.vrm | .cfg => t.cfg = s.cfg | .sab => t.sab = s.sab | .hst => t.hst = s.hst
  | .pai => t.pai = s.pai | .ddr => t.ddr = s.ddr | .dbg => t.dbg = s.dbg | .pwr => t.pwr = s.pwr

/-- The frame of a command: the queue stays, and of the areas only the named ones may change. -/
def State.OnlyChanges (s t : State) (areas : List Area) : Prop := t.pending = s.pending ∧ ∀ a, a ∉ areas → a.same s t

/-- The frame among registers: every register that is none of the named ones reads as before. -/
def State.RegsStay (s t : State) (offs : List Nat) : Prop := ∀ a, regKey a ∉ offs.map regKey → t.reg a = s.reg a

/-- Whether instruction i issues now (R195-R201, R218, R222): thread t can issue, its fetch is allowed and good, its next words spell i, and none
of the destinations ds has a result pending. -/
def State.issues (s : State) (t : ThreadId) (i : Instr) (ds : List Dest) : Bool :=
  let k := tidNat t
  s.canIssue k && (s.fetchFault k (wordsOf (s.nextWords k).1.toNat)).isNone && decide (s.nextInstr t = some i) && !s.stalledOn k ds

/-- The registers of n performance counters from offset b: configuration with its overflow bit, low word, high word (R457, R471). -/
def counterRegs (b n : Nat) : List Nat := (List.range n).flatMap fun i => [b + 16 * i, b + 16 * i + 4, b + 16 * i + 8]

/-- The registers that the issue of an instruction by thread k may write whatever the instruction is: the performance counters of its core and of
the fabric (R457), those of the sample ring of its cluster (R463), REC_DOWN_DROP (R446) and, for a thread that steps, DBG_STATUS (R468). -/
def issueRegs (k : Nat) : List Nat :=
  counterRegs (Reg.CLU_PMU_CTR_CFG (k / 128) (k % 128 / 8) 0) 4 ++ counterRegs (Reg.PMU_CTR_CFG 0) 64 ++
    [Reg.CLU_PMU_SMP_WR (k / 128), Reg.CLU_PMU_SMP_RD (k / 128), Reg.CLU_PMU_SMP_DROP (k / 128), Reg.REC_DOWN_DROP, Reg.DBG_STATUS]

/-- What an instruction of thread k leaves alone: every other thread; every area but the named ones; the memories, locks and mailboxes of the
clusters; every register but the counters of issues; with the sampler of the cluster off, DRAM, the samplers and the free values; and, unless the
thread steps, everything of the clusters but thread k. -/
def State.LeavesOthers (s u : State) (k : Nat) : Prop :=
  (∀ j, j ≠ k → u.thr j = s.thr j) ∧ s.OnlyChanges u [.regs, .fv, .clu, .ddr, .dbg] ∧
    (u.clu.sram = s.clu.sram ∧ u.clu.pmem = s.clu.pmem ∧ u.clu.llocks = s.clu.llocks ∧ u.clu.glocks = s.clu.glocks ∧ u.clu.mbox = s.clu.mbox) ∧
    s.RegsStay u (issueRegs k) ∧
    (s.rb (Reg.CLU_PMU_SMP_CFG (k / 128)) 31 = false → u.fv = s.fv ∧ u.ddr = s.ddr ∧ u.dbg = s.dbg) ∧
    ((s.thr k).stepping = false → u.clu = { s.clu with thr := u.clu.thr })

/-- Thread k of s with context c and direct page dp, its next words fetched (R218) and STALLED on nothing (R195). -/
def State.ran (s : State) (k : Nat) (c : Ctx) (dp : SMap Word) : Thread :=
  { s.thr k with ctx := c, dp := dp, bpSkip := false, stall := none, fetched := some (s.pmemAt k c.pc, s.pmemAt k (c.pc + 1)) }

/-- Thread t of s after an instruction of `len` words that falls through and whose effect on its context is g. -/
def State.onCtx (s : State) (t : ThreadId) (len : Nat) (g : Ctx → Ctx) : Thread :=
  s.ran (tidNat t) ((g (s.thr (tidNat t)).ctx).advance len) (s.thr (tidNat t)).dp

/-- Thread k of u is th but for the slots it has used in this tick (R457), or th halted at its boundary where it was stepping in s (R468). -/
def State.Reached (s u : State) (k : Nat) (th : Thread) : Prop :=
  ((s.thr k).stepping = false → u.thr k = { th with slots := (u.thr k).slots }) ∧
    ((s.thr k).stepping = true →
      (u.thr k).ctx = th.ctx ∧ (u.thr k).dp = th.dp ∧ (u.thr k).pend = th.pend ∧ (u.thr k).st = .halted ∧ (u.thr k).haltedIn = .ready)

/-- Where instruction i can issue, exec answers a next state in which thread t has become th and the rest is as LeavesOthers says. -/
def State.RunsTo (s : State) (t : ThreadId) (i : Instr) (ds : List Dest) (th : Thread) : Prop :=
  s.issues t i ds = true → ∃ u, exec i s = .next u ∧ s.Reached u (tidNat t) th ∧ s.LeavesOthers u (tidNat t)

/-- As RunsTo, with one result more beside the pipe, which carries the mark of a sampled instruction where the sampler selected this one (R461). -/
def State.RunsToPend (s : State) (t : ThreadId) (i : Instr) (ds : List Dest) (th : Thread) (p : PendResult) : Prop :=
  s.issues t i ds = true → ∃ u b, exec i s = .next u ∧ s.Reached u (tidNat t) { th with pend := th.pend ++ [{ p with smp := b }] } ∧
    s.LeavesOthers u (tidNat t) ∧ (s.rb (Reg.CLU_PMU_SMP_CFG (tidNat t / 128)) 31 = false → b = false)

/-- s after the issue of an instruction of `len` words by thread t has been counted (R457, R461): what the instruction's effect starts from. -/
def State.counted (s : State) (t : ThreadId) (len : Nat) : State := s.countIssue (tidNat t) len (s.nextWords (tidNat t)).1

/-- x with PC and loops of thread t past an instruction of `len` words (R218, R236). -/
def State.fellThrough (x : State) (t : ThreadId) (len : Nat) : State := x.updCtx (tidNat t) fun c => c.advance len

/-- Whether u is x but for what follows every instruction of thread k: its next words fetched and its stall ended, its counters, a sample that retires
(R461) and, where the thread steps, its halt (R468). -/
def State.EndsAs (x u : State) (k : Nat) : Prop :=
  (u.thr k).ctx = (x.thr k).ctx ∧ (u.thr k).dp = (x.thr k).dp ∧
    (u.thr k).pend.map (fun p => { p with smp := false }) = (x.thr k).pend.map (fun p => { p with smp := false }) ∧
    (∀ j, j ≠ k → u.thr j = x.thr j) ∧ x.OnlyChanges u [.regs, .fv, .out, .clu, .ddr, .dbg] ∧ x.RegsStay u (issueRegs k) ∧
    (u.clu.sram = x.clu.sram ∧ u.clu.pmem = x.clu.pmem ∧ u.clu.llocks = x.clu.llocks ∧ u.clu.glocks = x.clu.glocks ∧ u.clu.mbox = x.clu.mbox) ∧
    ((x.thr k).stepping = false → u.clu = { x.clu with thr := u.clu.thr } ∧
      u.thr k = { x.thr k with fetched := (u.thr k).fetched, stall := (u.thr k).stall, pend := (u.thr k).pend })

/-- Where instruction i can issue, exec answers a next state that is x but for what follows every instruction. -/
def State.RunsAs (s : State) (t : ThreadId) (i : Instr) (ds : List Dest) (x : State) : Prop :=
  s.issues t i ds = true → ∃ u, exec i s = .next u ∧ x.EndsAs u (tidNat t)

/-- Where the C-format instruction i can issue with the coprocessor enabled at its thread's level, a free tag in its core's queue and fewer than four
entries of its thread there (R246, R247), exec answers a next state with its command in a free entry: the operands named, the value of Gs, not
started; a G register it writes has a write pending; the context is past both words; every other entry is as before; CPX_CMDS counts it. -/
def State.Queues (s : State) (t : ThreadId) (i : Instr) (op cd ca cb gs m : Nat) : Prop :=
  let k := tidNat t
  s.issues t i (if cpxUsesG op then [.g (Fin.ofNat 8 gs)] else []) = true → s.cpxEnabled k = true →
  (List.range 16).any (fun j => !(s.cpxCmd (16 * (k / 8) + j)).live) = true →
  (s.cpx.cmds.filter fun p => p.2.live && p.2.tid == k).length < 4 →
  ∃ u tag, exec i s = .next u ∧ tag < 16 ∧ (s.cpxCmd (16 * (k / 8) + tag)).live = false ∧
    (∀ j, j < tag → (s.cpxCmd (16 * (k / 8) + j)).live = true) ∧
    (let c := u.cpxCmd (16 * (k / 8) + tag)
     c.live = true ∧ c.tid = k ∧ c.cpop = op ∧ c.cd = cd ∧ c.ca = ca ∧ c.cb = cb ∧ c.gs = gs ∧ c.m = m ∧ c.gval = (s.thr k).ctx.getG gs ∧
       c.started = false ∧ c.squashed = false) ∧
    (∀ key, key ≠ 16 * (k / 8) + tag → u.cpxCmd key = s.cpxCmd key) ∧ (u.thr k).ctx = (s.thr k).ctx.advance 2 ∧ (u.thr k).dp = (s.thr k).dp ∧
    (u.thr k).pend.length = (s.thr k).pend.length + (if cpxToG op then 1 else 0) ∧
    (cpxToG op = true → ∀ p, (u.thr k).pend.getLast? = some p → p.dest = .g (Fin.ofNat 8 gs) ∧ p.ready = false ∧ p.tag = tag) ∧
    u.reg (Reg.CPX_CMDS (tileOf k)) = s.reg (Reg.CPX_CMDS (tileOf k)) + 1 ∧ u.clu.sram = s.clu.sram ∧ u.clu.pmem = s.clu.pmem

/-- Command c answers the state x, with the MSI-X messages of the command to one vector merged (R421). -/
def State.Gives (s : State) (c : Instr) (x : State) : Prop := exec c s = .next (s.closed x)

/-- The bit of an event in its pending words and in the counters of lost deliveries: the registers that raising an event may write. -/
def eventRegs : List Nat :=
  ((List.range 6).flatMap fun c => (List.range 10).map fun w => Reg.CLU_EVT_PEND c w) ++ ((List.range 10).map fun w => Reg.EVT_ALARM_PEND w) ++
    [Reg.EVT_MSIX_LOST, Reg.PAI_EVT_LOST]

/-- Command c answers a next state whatever s is, and of the areas of the state it changes none but the named ones (the frame of c). -/
def State.StaysWithin (s : State) (c : Instr) (areas : List Area) : Prop := ∃ u, exec c s = .next u ∧ s.OnlyChanges u areas

/-- Command c writes the select register sel with v and the n data registers beside it with the words w, and does nothing else. -/
def State.Snapshots (s : State) (c : Instr) (sel v : Nat) (data : Nat → Nat) (n : Nat) (w : Nat → Word) : Prop :=
  ∃ u, exec c s = .next u ∧ u.reg sel = BitVec.ofNat 32 v ∧ (∀ i, i < n → u.reg (data i) = w i) ∧
    s.RegsStay u (sel :: (List.range n).map data) ∧ s.OnlyChanges u [.regs]

/-- s with the frame f, which waits on port n, taken into execution (R418): what a management command starts from. -/
def State.taken (s : State) (n : Nat) (f : MgtFrame) : State := s.updMport n fun p => { p with frame := none, busy := some f }

/-- Instruction i of thread t issues and faults with a code and a data address: the thread is FAULTED at that instruction with its registers as they
were, its record is the last of its cluster's fault queue where the queue has room (R205, R206), and no memory is changed. -/
def State.FaultsWith (s : State) (t : ThreadId) (i : Instr) (code : Nat) (addr : Word) : Prop :=
  let k := tidNat t
  ∃ u, exec i s = .next u ∧ (u.thr k).st = .faulted ∧ (u.thr k).ctx.pc = (s.thr k).ctx.pc ∧ (u.thr k).ctx.acc = (s.thr k).ctx.acc ∧
    (u.thr k).ctx.g = (s.thr k).ctx.g ∧ u.clu.sram = s.clu.sram ∧ u.clu.pmem = s.clu.pmem ∧ u.spe = s.spe ∧
    ((s.fltq (k / 128)).length < 16 → (s.thr k).task.getD 0 < 1024 → ∃ r, u.fltq (k / 128) = s.fltq (k / 128) ++ [r] ∧
      fld (wordAt r 0) 31 28 = code ∧ wordAt r 2 = addr ∧ fld (wordAt r 1) 15 0 = (s.thr k).ctx.pc.toNat)

/-- Every area but the named ones. -/
def Area.butOf (l : List Area) : List Area :=
  [.up, .time, .regs, .rdShadow, .wrHold, .fv, .out, .ind, .ing, .aut, .spe, .pkt, .och, .clu, .cpx, .vrm, .cfg, .sab, .hst, .pai, .ddr, .dbg,
    .pwr].filter fun a => !l.contains a

/-- The frame of a command: the areas of the state that it may change, what follows from it in the same command included (a fault of its thread, an
event it raises with the registers, messages and vectors that the event's route names, a tile or a partition it takes down). -/
def areasOf : Instr → List Area
  | .ptpPdelayReqRx .. | .jtagIdcode => [.out]
  | .timeBasePllLockLoss | .timeBasePllRelock => [.ind]
  | .ptpManagementRx .. | .perstDeassert .. | .bar2WriteDenied .. | .cluEvtTake .. | .evtAlarmTake .. | .paiPeerEvtTake .. | .bar2ReadDenied .. =>
    [.regs, .out]
  | .ptpPdelayRespRx .. | .ptpSyncTx .. | .ptpAnnounceTx .. | .ptpPdelayReqTx .. | .ppsOutPulse .. => [.out, .ind]
  | .dupEntryExpire .. | .supervisionFrameTx .. | .nodeForget .. => [.out, .ing]
  | .plcaBeacon .. | .t1sPlcaRecover .. | .pauseIgnoreEnd .. => [.out, .pkt]
  | .supervisorInterrupt .. | .storeVisible .. | .taskAssign .. | .stagingLoad .. | .mbTake .. => [.out, .clu]
  | .armHoldExpire .. | .fioArmExpire .. => [.out, .vrm]
  | .spareBistPeriod => [.out, .cfg]
  | .openingTimeout .. | .lockoutExpire .. | .smbusBlockRead => [.out, .hst]
  | .heartbeatTx => [.out, .pai]
  | .ddrTempRead .. => [.out, .ddr]
  | .jtagLockoutExpire | .jtagBypass | .jtagClamp | .jtagHighz => [.out, .dbg]
  | .holdoverCounterCopy => [.out, .pwr]
  | .supervisionFrameRx .. => [.regs, .out, .ing]
  | .prevHoldExpire => [.regs, .out, .aut]
  | .parseWalk .. | .pauseRx .. | .pauseQuantaExpire .. | .packetByteArrival .. => [.regs, .out, .pkt]
  | .fwdLqPop .. => [.regs, .out, .och]
  | .fltPop .. | .dlPop .. | .taskPreempt .. | .breakpointHit .. | .clusterSramScrub .. => [.regs, .out, .clu]
  | .vrmDisPop .. => [.regs, .out, .vrm]
  | .strangerSelect .. | .autCtxSelect .. | .streamSelect .. | .qhwmReset .. | .poolLowReset .. | .tcbSelect .. | .vrmPcbSelect ..
    | .raiseFloor .. | .unitSelect .. | .pcieLinkChange .. | .pcieHotReset .. | .flrPf0 .. | .flrPf1 .. | .d3hotEntry .. | .dmaSignal ..
    | .dmaFault .. | .dmaStart .. | .dmaStop .. | .bar0DecodeMiss .. | .pciBankWrite .. | .mgtDoorbell .. | .mgtUnitRx .. | .mgtFrameTimeout ..
    | .openProof .. | .close .. | .ping .. | .sessionIdleTimeout .. | .pairEvtRx .. | .pairMgtRx .. | .ddrTrainingDone .. | .pmuFreeze ..
    | .pmuUnfreeze .. | .pmuClear .. | .tempMaxReset .. | .aerUncorrectableError .. | .msixVectorUnmask .. | .returnToD0 .. => [.regs, .out, .hst]
  | .creditReturnRx .. => [.regs, .out, .pai]
  | .tapReset => [.regs, .out, .dbg]
  | .jtagSamplePreload .. | .jtagExtest .. => [.fv, .out, .dbg]
  | .cpxCommandStart .. => [.regs, .fv, .out, .cpx]
  | .openReq .. => [.regs, .fv, .out, .hst]
  | .timeRestart .. | .ptpSyncRx .. | .ptpFollowUpRx .. | .ptpAnnounceRx .. | .ptpSyncTimeout | .ptpAnnounceTimeout | .tinEdgeCapture ..
    | .ppsInputTimeout .. | .irigFrameRx .. | .holdoverExpire | .aclkSampleLoss .. | .aclkHoldExpire .. | .irigFrameMissing .. =>
    [.regs, .out, .ind, .hst]
  | .portLinkUp .. | .portLinkDown .. | .preemptVerify .. | .strangerClear .. => [.regs, .out, .ing, .hst]
  | .resetWindow .. => [.regs, .out, .aut, .hst]
  | .planeSramScrub .. => [.regs, .out, .spe, .hst]
  | .t1sPlcaFail .. => [.regs, .out, .pkt, .hst]
  | .ochQuery .. | .ochCmdFree .. | .agingSweepVisit => [.regs, .out, .och, .hst]
  | .maskMaxExceeded .. | .deadlockDetect .. | .deadlockEscalate .. | .lockTryRead .. | .mbDataWrite .. | .histFetchStart .. | .histFetchDone ..
    | .clusterResetDone .. => [.regs, .out, .clu, .hst]
  | .imgBegin .. | .imgData .. | .imgEnd .. | .discard .. | .remove .. | .check .. | .request .. | .retire .. | .tileBist .. | .unitMismatch .. =>
    [.regs, .out, .cfg, .hst]
  | .umberLaneLock .. | .helloTx | .helloRx .. => [.regs, .out, .hst, .pai]
  | .ddrRefresh | .ddrScrubLine .. | .recCmdTrigger .. | .recordComplete .. => [.regs, .out, .hst, .ddr]
  | .jtagProof .. => [.regs, .out, .hst, .dbg]
  | .avsUpdate .. => [.regs, .out, .hst, .pwr]
  | .aclkFixedStart .. => [.regs, .out, .ind, .spe, .hst]
  | .disarm .. | .autoCommitArm => [.regs, .out, .ind, .cfg, .hst]
  | .clsLookup .. | .clsInsert .. | .clsUpdate .. | .clsDelete .. | .clsRead .. => [.regs, .out, .ing, .cfg, .hst]
  | .stageOverrun .. => [.regs, .out, .pkt, .clu, .hst]
  | .fwdLookup .. | .fwdInsert .. | .fwdUpdate .. | .fwdDelete .. | .fwdRead .. | .fwdFlush .. | .fwdClear .. => [.regs, .out, .och, .cfg, .hst]
  | .taskSwitch .. | .dispatcherTimerFire .. | .activate .. | .cancel .. => [.regs, .out, .clu, .hst, .ddr]
  | .heartbeatRx .. => [.regs, .out, .vrm, .hst, .pai]
  | .outputRelease .. | .fioArm .. | .fioFire .. | .fioRelease .. | .inputAccept .. | .chatterEnd .. => [.regs, .out, .vrm, .hst, .ddr]
  | .keyLoad .. | .credLoad .. | .rootAdd .. | .rootRevoke .. | .attest .. | .attestDone => [.regs, .out, .sab, .hst, .pwr]
  | .resetRelease .. => [.time, .regs, .out, .ind, .hst, .pwr]
  | .wideRegisterLowRead .. => [.regs, .rdShadow, .out, .och, .clu, .vrm]
  | .aclkZeroCrossing .. => [.regs, .fv, .out, .ind, .spe, .hst]
  | .preloadDone => [.regs, .out, .ind, .clu, .cfg, .hst]
  | .bootAbort .. => [.regs, .out, .ind, .cfg, .hst, .pwr]
  | .hsrPassThrough .. => [.regs, .out, .ing, .pkt, .och, .hst]
  | .egressStart .. => [.regs, .out, .pkt, .pai, .ddr, .dbg]
  | .mbPost .. | .pairMbxRx .. => [.regs, .out, .clu, .hst, .pai, .ddr]
  | .chnAbort .. => [.regs, .out, .clu, .hst, .ddr, .dbg]
  | .timeSetStepRequest .. => [.time, .regs, .wrHold, .out, .ind, .clu, .hst]
  | .servoUpdate => [.time, .regs, .fv, .out, .ind, .clu, .hst]
  | .regRead .. => [.regs, .rdShadow, .out, .och, .clu, .vrm, .hst]
  | .cellDue .. => [.regs, .out, .ind, .spe, .clu, .hst, .ddr]
  | .laneEntry .. | .stageExit .. | .pauseFlush .. | .ochReclaim .. | .creditTimeout .. => [.regs, .out, .pkt, .och, .hst, .ddr, .dbg]
  | .faultTimeoutKill .. | .ctlResume .. | .ctlKill .. | .ctlAbortWait .. | .budgetOverrun .. | .drainTimeout .. =>
    [.regs, .out, .clu, .cpx, .hst, .ddr, .dbg]
  | .debugGrantExpire .. => [.regs, .out, .clu, .sab, .hst, .ddr, .dbg]
  | .t1sCollision .. | .egressEnd .. | .dmaDeliver .. => [.regs, .fv, .out, .pkt, .och, .hst, .ddr, .dbg]
  | .pcbRetransmit .. => [.regs, .out, .ing, .aut, .pkt, .och, .vrm, .hst]
  | .classify .. => [.regs, .out, .ing, .aut, .pkt, .och, .hst, .dbg]
  | .stageDispatch .. => [.regs, .out, .pkt, .och, .clu, .hst, .ddr, .dbg]
  | .sysResetCluster .. => [.regs, .out, .pkt, .clu, .cpx, .hst, .ddr, .dbg]
  | .resultWriteback .. => [.regs, .out, .pkt, .clu, .cfg, .hst, .ddr, .dbg]
  | .debugGrant .. | .debugRevoke .. => [.regs, .out, .clu, .sab, .hst, .ddr, .dbg, .pwr]
  | .relNext .. | .relExit .. | .relDrop .. | .relRecirc .. | .ld .. | .ldu .. | .st .. | .sts .. | .add .. | .addu .. | .sub .. | .andDp ..
    | .orDp .. | .xorDp .. | .mul .. | .mulh .. | .movg .. | .mva .. | .mvau .. | .mvg .. | .addg .. | .subg .. | .andg .. | .org .. | .xorg ..
    | .ceq .. | .cne .. | .clt .. | .cge .. | .cltu .. | .cgeu .. | .par .. | .brev .. | .bswp .. | .crcb .. | .crcw .. | .chanOpen ..
    | .chanOpenw .. | .recv .. | .recvw .. | .chw .. | .send .. | .lock .. | .unlock .. | .ldi .. | .addi .. | .andi .. | .shf .. | .loop ..
    | .loopi .. | .bz .. | .bnz .. | .bra .. | .ldl .. | .ldlh .. | .jmpf .. | .callf .. | .nop .. | .synci .. | .ret .. | .reti .. | .ei ..
    | .di .. | .tend .. | .yield .. | .mtx .. | .mfx .. | .adx .. | .vwait .. | .pmw .. | .pmr .. | .div .. | .sqrt .. | .undefinedEncoding .. =>
    [.regs, .fv, .out, .pkt, .clu, .cfg, .hst, .ddr, .dbg]
  | .umberLaneDrop .. | .heartbeatMiss => [.regs, .out, .pkt, .och, .vrm, .hst, .pai, .ddr, .dbg]
  | .cpxResultWrite .. | .quarantine .. => [.regs, .out, .pkt, .clu, .cpx, .cfg, .hst, .ddr, .dbg]
  | .mfs .. => [.regs, .rdShadow, .fv, .out, .pkt, .clu, .cfg, .hst, .ddr, .dbg]
  | .cmtr .. | .cmti .. | .cmfr .. | .cmfi .. | .cmov .. | .ccvt .. | .ccvtc .. | .cfix .. | .cadd .. | .csub .. | .cmul .. | .cmac .. | .cmsc ..
    | .ccmul .. | .ccmac .. | .crmul .. | .cscl .. | .cconj .. | .cdft .. | .crot .. | .cmag .. | .carg .. | .cfsq .. | .cdiv .. | .ccmpr ..
    | .ccmpi .. | .ccmpm .. | .cmin .. | .cmax .. | .dbgHalt .. | .dbgResume .. | .dbgStep .. | .dbgWriteCtx .. | .dbgMemRd .. | .dbgMemWr ..
    | .dbgCtxSelect .. => [.regs, .fv, .out, .pkt, .clu, .cpx, .cfg, .hst, .ddr, .dbg]
  | .arm .. => [.regs, .out, .ind, .ing, .aut, .spe, .clu, .vrm, .cfg, .hst]
  | .generalInstantFire .. => [.regs, .out, .ind, .ing, .aut, .pkt, .och, .vrm, .hst, .ddr]
  | .imgVerifyDone | .checkDone => [.regs, .out, .ing, .aut, .spe, .clu, .vrm, .cfg, .hst, .pwr]
  | .vrmReset .. => [.regs, .out, .ing, .aut, .pkt, .och, .vrm, .hst, .ddr, .dbg]
  | .clear .. | .drainComplete .. => [.regs, .out, .pkt, .clu, .cpx, .cfg, .sab, .hst, .ddr, .dbg]
  | .frameOversizeCut .. | .frameTailRx .. | .t1sJabberCutoff .. | .laneExit .. => [.regs, .out, .ind, .ing, .spe, .pkt, .och, .clu, .hst, .ddr, .dbg]
  | .verdict .. => [.regs, .out, .ind, .aut, .spe, .pkt, .och, .clu, .hst, .ddr, .dbg]
  | .pairVoteRx .. => [.regs, .out, .ing, .aut, .pkt, .och, .vrm, .hst, .pai, .ddr, .dbg]
  | .configEntry .. | .sysStateReq .. | .temperatureSample .. => [.regs, .out, .ing, .aut, .pkt, .och, .vrm, .hst, .ddr, .dbg, .pwr]
  | .frameHeadRx .. | .dmaInject .. | .pairFrameRx .. => [.regs, .fv, .out, .ind, .ing, .spe, .pkt, .och, .clu, .hst, .ddr, .dbg]
  | .packageCheckDone => [.regs, .out, .ind, .ing, .aut, .spe, .clu, .vrm, .cfg, .sab, .hst, .pwr]
  | .ldw .. | .ldh .. | .ldhu .. | .ldb .. | .ldbu .. | .crcm .. => Area.butOf [.up, .time, .wrHold, .ind, .ing, .aut, .cpx, .sab, .pai, .pwr]
  | .evalStrobe .. => Area.butOf [.up, .time, .rdShadow, .wrHold, .fv, .cpx, .cfg, .sab, .pai, .pwr]
  | .vpost .. => Area.butOf [.up, .time, .rdShadow, .wrHold, .ind, .spe, .cpx, .sab, .pwr]
  | .bistDone .. | .scrubDomainCheck .. => Area.butOf [.up, .time, .rdShadow, .wrHold, .fv, .ind, .spe, .sab, .pai]
  | .zeroise .. | .tamperInput .. | .monitorTrip .. => Area.butOf [.up, .time, .rdShadow, .wrHold, .fv, .spe, .cpx, .pai]
  | .bootEngineRun .. => Area.butOf [.up, .time, .rdShadow, .wrHold, .fv, .cpx, .pai]
  | .commitStrobe => Area.butOf [.up, .time, .rdShadow, .wrHold, .fv]
  | .vauxRise | .vauxFall | .mainReset | .pwrGoodLoss | .railFault .. | .sysResetDevice .. => Area.butOf [.up, .fv]
  | .registerWrite .. | .stw .. | .sth .. | .stb .. | .regWrite .. | .sqcClear .. | .jtagDbgacc .. => Area.butOf [.up]

end Sys2Proof.Machine
end

