-- ==== Sys2Proof/WellFormed.lean ====
section
/-!
DEFINITION. Which commands are well formed: the bounds the spec puts on operands beyond what their types say. The machine answers every command,
well formed or not; a command outside these bounds is one that the interface it comes from cannot send.
-/

namespace Sys2Proof

/-- The longest management frame: header, payload and tag (R416). -/
def maxMgtFrame : Nat := 16 + 65536 + 16

/-- The longest unit of a management port (R410). -/
def maxMgtUnit (port : Nat) : Nat :=
  match port with
  | 2 => 1500 | 3 => 255 | 4 => 1024 | _ => 1500

/-- Whether a heartbeat is one that R429 describes: angle clocks named once, at most one partition vector for each of the 16 partitions. -/
def Heartbeat.wf (h : Heartbeat) : Bool := decide (h.clocks.map (·.clk)).Nodup && h.parts.length ≤ 16

/-- Whether a decoded IRIG-B frame can come from the wire (R36): a day of the year and an offset of at most 14 hours. -/
def IrigFrame.wf (f : IrigFrame) : Bool := 1 ≤ f.day.toNat && f.day.toNat ≤ 366 && f.localOff.natAbs ≤ 840

/-- Whether the security fields of a frame have the sizes R91 names: an initialisation vector of 12 bytes and a tag of at most 16. -/
def SecExt.wf (x : SecExt) : Bool := x.iv.length == 12 && x.tag.length ≤ 32

/-- A frame and what was read from it are bounded by the largest frame a port can be set to (R58). -/
def maxFrame : Nat := 16384

/-- The bounds of a command's operands. -/
def Instr.wf (c : Instr) : Bool :=
  Machine.rosWf c &&
  (match c with
   | .registerWrite _ off _ => off.toNat % 4 == 0
   | .wideRegisterLowRead _ off => off.toNat % 4 == 0
   | .jtagDbgacc _ off _ => off.toNat % 4 == 0
   | .irigFrameRx _ f => f.wf
   | .frameHeadRx port _ => port.what.toNat < 20
   | .parseWalk _ bytes => bytes.length ≤ maxFrame
   | .packetByteArrival _ bytes => bytes.length ≤ maxFrame
   | .frameTailRx _ rest _ _ ext => rest.length ≤ maxFrame && ext.all SecExt.wf
   | .dmaInject _ _ bytes ext => bytes.length ≤ maxFrame && ext.all SecExt.wf
   | .pairFrameRx _ _ bytes ext => bytes.length ≤ maxFrame && ext.all SecExt.wf
   | .heartbeatRx hb => hb.what.what.wf
   | .pairEvtRx e => e.what.toNat < 320
   | .mgtDoorbell _ frame => frame.length ≤ maxMgtFrame
   | .mgtUnitRx port _ _ unit => 2 ≤ port.val && port.val ≤ 4 && 4 ≤ unit.length && unit.length ≤ maxMgtUnit port.val
   | .pairMgtRx unit => 4 ≤ unit.what.length && unit.what.length ≤ maxMgtUnit 5
   | .request _ cls _ _ => cls.toNat < 8
   | .drainTimeout p => p.val != 0
   | .drainComplete p => p.val != 0
   | _ => true)

end Sys2Proof
end

