-- ==== Sys2Proof/Certificates/Slice0/Obligations.lean ====
section
/-!
DEFINITION. The statements for the provers.
-/

open Sys2Proof Sys2Proof.Machine

/-- LD, LDU, ADD, ADDU, SUB, AND, OR, XOR, ST and STS of a direct-page word complete with the value R239 gives (09_instruction_set.md ("The
instructions", R228, R239)). Whenever LD, LDU, ADD, ADDU, SUB, AND, OR or XOR can issue (its thread can issue, its words are fetched without fault
and spell it, ACC is not awaited), exec answers a next state in which ACC holds the operation's value over the direct-page word, the context
advances by one word, and everything else is as State.LeavesOthers says. Whenever ST or STS can issue, exec answers a next state in which the
direct-page word DA holds ACC[31:0], for STS ACC saturated to the signed 32-bit range; the other words of the page, the context but PC and loops,
and the rest stay. -/
def Obligations.DirectPageInstructionsComplete : Prop :=
  (∀ (s : State) (t : ThreadId) (da : BitVec 9),
      s.RunsTo t (.ld t da) [.acc] (s.onCtx t 1 fun c => { c with acc := (s.dpW (tidNat t) da).signExtend 40 }) ∧
      s.RunsTo t (.ldu t da) [.acc] (s.onCtx t 1 fun c => { c with acc := (s.dpW (tidNat t) da).setWidth 40 }) ∧
      s.RunsTo t (.add t da) [.acc] (s.onCtx t 1 fun c => { c with acc := c.acc + (s.dpW (tidNat t) da).signExtend 40 }) ∧
      s.RunsTo t (.addu t da) [.acc] (s.onCtx t 1 fun c => { c with acc := c.acc + (s.dpW (tidNat t) da).setWidth 40 }) ∧
      s.RunsTo t (.sub t da) [.acc] (s.onCtx t 1 fun c => { c with acc := c.acc - (s.dpW (tidNat t) da).signExtend 40 }) ∧
      s.RunsTo t (.andDp t da) [.acc] (s.onCtx t 1 fun c => { c with acc := (c.acc.setWidth 32 &&& s.dpW (tidNat t) da).signExtend 40 }) ∧
      s.RunsTo t (.orDp t da) [.acc] (s.onCtx t 1 fun c => { c with acc := (c.acc.setWidth 32 ||| s.dpW (tidNat t) da).signExtend 40 }) ∧
      s.RunsTo t (.xorDp t da) [.acc] (s.onCtx t 1 fun c => { c with acc := (c.acc.setWidth 32 ^^^ s.dpW (tidNat t) da).signExtend 40 })) ∧
  (∀ (s : State) (t : ThreadId) (da : BitVec 9),
      s.RunsTo t (.st t da) [.acc]
        (s.ran (tidNat t) ((s.thr (tidNat t)).ctx.advance 1) ((s.thr (tidNat t)).dp.sd 0 da.toNat ((s.accOf (tidNat t)).setWidth 32))) ∧
      s.RunsTo t (.sts t da) [.acc]
        (s.ran (tidNat t) ((s.thr (tidNat t)).ctx.advance 1) ((s.thr (tidNat t)).dp.sd 0 da.toNat (satWord (s.accOf (tidNat t))))) ∧
      (∀ a : Acc, satWord a = if a.toInt < -(2 ^ 31) then 0x80000000#32 else if 2 ^ 31 - 1 < a.toInt then 0x7FFFFFFF#32 else a.setWidth 32))

/-- MUL, MULH, DIV and SQRT complete with their result beside the pipe, and RESULT_WRITEBACK brings a result to its register (09_instruction_set.md
("The instructions", R224, R239), 08_rospel_core.md (R200, R201)). Whenever MUL or MULH can issue, or DIV or SQRT with the divide unit of the core
free and no other thread served first, exec answers a next state in which the result (the signed product modulo 2^40; its floor by 2^31; the
quotient; the root) is queued for ACC beside the pipe, the context advances by one word and the rest stays. A pending result that is ready, with no
earlier one for the same register, leaves the list and its value is written to its destination; no other part of the context changes, and no other
thread. -/
def Obligations.ResultsBesideThePipeComplete : Prop :=
  (∀ (s : State) (t : ThreadId) (da : BitVec 9) (gs : Fin 8),
      s.RunsToPend t (.mul t da) [.acc] (s.onCtx t 1 id)
        { dest := .acc, val := BitVec.ofInt 40 ((s.accW (tidNat t)).toInt * (s.dpW (tidNat t) da).toInt) } ∧
      s.RunsToPend t (.mulh t da) [.acc] (s.onCtx t 1 id)
        { dest := .acc, val := BitVec.ofInt 40 ((s.accW (tidNat t)).toInt * (s.dpW (tidNat t) da).toInt / 2 ^ 31) } ∧
      (s.divBusy (tidNat t) = false → s.unitTaken (tidNat t) = false →
        s.RunsToPend t (.div t gs) [.acc, .g gs] (s.onCtx t 1 id)
          { dest := .acc, val := divAcc (s.accOf (tidNat t)) (s.gOf (tidNat t) gs), busyUnit := true } ∧
        s.RunsToPend t (.sqrt t) [.acc] (s.onCtx t 1 id) { dest := .acc, val := sqrtAcc (s.accW (tidNat t)), busyUnit := true })) ∧
  (∀ (s : State) (t : ThreadId) (i : Nat) (p : PendResult),
      let k := tidNat t
      (s.thr k).pend[i]? = some p → p.ready = true → p.ecc = false → p.smp = false → (∀ q ∈ (s.thr k).pend.take i, q.dest ≠ p.dest) →
        ∃ u, exec (.resultWriteback t i) s = .next u ∧
          u.thr k = { s.thr k with pend := (s.thr k).pend.eraseIdx i, ctx := (s.thr k).ctx.put p.dest p.val } ∧
          (∀ j, j ≠ k → u.thr j = s.thr j) ∧ s.OnlyChanges u [.clu])

/-- What DIV, SQRT, BREV, BSWP and PAR compute, corners included (09_instruction_set.md ("The instructions", R238, R239)). DIV truncates toward
zero; a zero divisor gives 2^39 - 1 or -2^39 by the sign of ACC and -2^39 / -1 gives 2^39 - 1. SQRT gives the greatest root whose square does not
exceed ACC[31:0]. For every word, bit i of its BREV is bit 31 - i of it, byte i of its BSWP is byte 3 - i of it, and its PAR is the exclusive or of
its 32 bits. -/
def Obligations.ComputedValues : Prop :=
  ((∀ (a : Acc) (b : Word), b ≠ 0 → ¬(a.toInt = -(2 ^ 39) ∧ b.toInt = -1) → (divAcc a b).toInt = a.toInt.tdiv b.toInt) ∧
    (∀ a : Acc, (divAcc a 0).toInt = if 0 ≤ a.toInt then 2 ^ 39 - 1 else -(2 ^ 39)) ∧
    (divAcc (BitVec.ofInt 40 (-(2 ^ 39))) (BitVec.ofInt 32 (-1))).toInt = 2 ^ 39 - 1 ∧
    (∀ w : Word, (sqrtAcc w).toNat * (sqrtAcc w).toNat ≤ w.toNat ∧ w.toNat < ((sqrtAcc w).toNat + 1) * ((sqrtAcc w).toNat + 1))) ∧
  ((∀ (w : Word) (i : Nat), i < 32 → (brevWord w).getLsbD i = w.getLsbD (31 - i)) ∧
    (∀ (w : Word) (i : Nat), i < 4 → (bswpWord w).extractLsb' (8 * i) 8 = w.extractLsb' (8 * (3 - i)) 8) ∧
    (∀ w : Word, parity w = (List.range 32).foldl (fun b i => b ^^ w.getLsbD i) false))

/-- The instructions on ACC and the general registers complete: moves, arithmetic, comparisons, bit order, CRC (09_instruction_set.md ("The
instructions", "CRC, parity and bit order", R229, R237, R238, R239)). Whenever one of these can issue, exec answers a next state in which its
destination (Ga, or ACC for MVA and MVAU) holds the value R239 gives, computed from the registers before it, the context advances by one word and
the rest stays. Whenever a compare can issue, exec answers a next state in which Ga holds 1 where the comparison of ACC with Gb holds and 0
otherwise (CEQ, CNE, CLTU, CGEU over ACC[31:0]; CLT, CGE over 40 signed bits), the context advances by one word and the rest stays. Whenever PAR,
BREV or BSWP can issue, Ga holds the parity, the bit reversal or the byte reversal of Gb; whenever CRCB or CRCW can issue, ACC holds the CRC state
after the byte or the four bytes of Gb under selection P; the context advances by one word and the rest stays. -/
def Obligations.RegisterInstructionsComplete : Prop :=
  (∀ (s : State) (t : ThreadId) (ga gb : Fin 8),
      s.RunsTo t (.movg t ga gb) [.g ga, .g gb] (s.onCtx t 1 fun c => { c with g := c.g.set ga.val c.g[gb] }) ∧
      s.RunsTo t (.mva t ga) [.acc, .g ga] (s.onCtx t 1 fun c => { c with acc := c.g[ga].signExtend 40 }) ∧
      s.RunsTo t (.mvau t ga) [.acc, .g ga] (s.onCtx t 1 fun c => { c with acc := c.g[ga].setWidth 40 }) ∧
      s.RunsTo t (.mvg t ga) [.acc, .g ga] (s.onCtx t 1 fun c => { c with g := c.g.set ga.val (c.acc.setWidth 32) }) ∧
      s.RunsTo t (.addg t ga gb) [.g ga, .g gb] (s.onCtx t 1 fun c => { c with g := c.g.set ga.val (c.g[ga] + c.g[gb]) }) ∧
      s.RunsTo t (.subg t ga gb) [.g ga, .g gb] (s.onCtx t 1 fun c => { c with g := c.g.set ga.val (c.g[ga] - c.g[gb]) }) ∧
      s.RunsTo t (.andg t ga gb) [.g ga, .g gb] (s.onCtx t 1 fun c => { c with g := c.g.set ga.val (c.g[ga] &&& c.g[gb]) }) ∧
      s.RunsTo t (.org t ga gb) [.g ga, .g gb] (s.onCtx t 1 fun c => { c with g := c.g.set ga.val (c.g[ga] ||| c.g[gb]) }) ∧
      s.RunsTo t (.xorg t ga gb) [.g ga, .g gb] (s.onCtx t 1 fun c => { c with g := c.g.set ga.val (c.g[ga] ^^^ c.g[gb]) })) ∧
  (∀ (s : State) (t : ThreadId) (ga gb : Fin 8),
      s.RunsTo t (.ceq t ga gb) [.acc, .g ga, .g gb]
        (s.onCtx t 1 fun c => { c with g := c.g.set ga.val (if c.acc.setWidth 32 = c.g[gb] then 1#32 else 0#32) }) ∧
      s.RunsTo t (.cne t ga gb) [.acc, .g ga, .g gb]
        (s.onCtx t 1 fun c => { c with g := c.g.set ga.val (if c.acc.setWidth 32 = c.g[gb] then 0#32 else 1#32) }) ∧
      s.RunsTo t (.clt t ga gb) [.acc, .g ga, .g gb]
        (s.onCtx t 1 fun c => { c with g := c.g.set ga.val (if c.acc.toInt < c.g[gb].toInt then 1#32 else 0#32) }) ∧
      s.RunsTo t (.cge t ga gb) [.acc, .g ga, .g gb]
        (s.onCtx t 1 fun c => { c with g := c.g.set ga.val (if c.g[gb].toInt ≤ c.acc.toInt then 1#32 else 0#32) }) ∧
      s.RunsTo t (.cltu t ga gb) [.acc, .g ga, .g gb]
        (s.onCtx t 1 fun c => { c with g := c.g.set ga.val (if (c.acc.setWidth 32).toNat < c.g[gb].toNat then 1#32 else 0#32) }) ∧
      s.RunsTo t (.cgeu t ga gb) [.acc, .g ga, .g gb]
        (s.onCtx t 1 fun c => { c with g := c.g.set ga.val (if c.g[gb].toNat ≤ (c.acc.setWidth 32).toNat then 1#32 else 0#32) })) ∧
  (∀ (s : State) (t : ThreadId) (ga gb : Fin 8) (p : Fin 4),
      s.RunsTo t (.par t ga gb) [.g ga, .g gb] (s.onCtx t 1 fun c => { c with g := c.g.set ga.val (if parity c.g[gb] then 1#32 else 0#32) }) ∧
      s.RunsTo t (.brev t ga gb) [.g ga, .g gb] (s.onCtx t 1 fun c => { c with g := c.g.set ga.val (brevWord c.g[gb]) }) ∧
      s.RunsTo t (.bswp t ga gb) [.g ga, .g gb] (s.onCtx t 1 fun c => { c with g := c.g.set ga.val (bswpWord c.g[gb]) }) ∧
      s.RunsTo t (.crcb t p gb) [.acc, .g gb]
        (s.onCtx t 1 fun c => { c with acc := crcAcc (s.crcParams (tidNat t) p) c.acc [c.g[gb].setWidth 8] }) ∧
      s.RunsTo t (.crcw t p gb) [.acc, .g gb]
        (s.onCtx t 1 fun c => { c with acc := crcAcc (s.crcParams (tidNat t) p) c.acc (leBytes 4 c.g[gb].toNat) }))

/-- LDI, ADDI, ANDI, SHF, LDL, LDLH, MTX, MFX, ADX and NOP complete (09_instruction_set.md ("The instructions", R239)). Whenever one of these can
issue, exec answers a next state in which ACC, IXx or Gs holds the value R239 gives (NOP: nothing but PC and loops changes), the context advances by
its words (two for LDL and LDLH) and the rest stays. -/
def Obligations.ImmediateAndIndexInstructionsComplete : Prop :=
  ∀ (s : State) (t : ThreadId) (imm : BitVec 8) (big : BitVec 20) (n : BitVec 6) (gs : Fin 8),
    s.RunsTo t (.ldi t imm) [.acc] (s.onCtx t 1 fun c => { c with acc := imm.signExtend 40 }) ∧
    s.RunsTo t (.addi t imm) [.acc] (s.onCtx t 1 fun c => { c with acc := c.acc + imm.signExtend 40 }) ∧
    s.RunsTo t (.andi t imm) [.acc] (s.onCtx t 1 fun c => { c with acc := (c.acc.setWidth 32 &&& imm.setWidth 32).signExtend 40 }) ∧
    s.RunsTo t (.shf t 0 n) [.acc] (s.onCtx t 1 fun c => { c with acc := c.acc <<< n.toNat }) ∧
    s.RunsTo t (.shf t 1 n) [.acc] (s.onCtx t 1 fun c => { c with acc := c.acc >>> n.toNat }) ∧
    s.RunsTo t (.shf t 2 n) [.acc] (s.onCtx t 1 fun c => { c with acc := c.acc.sshiftRight n.toNat }) ∧
    s.RunsTo t (.shf t 3 n) [.acc] (s.onCtx t 1 fun c => { c with acc := ((c.acc.setWidth 32).rotateRight (n.toNat % 32)).signExtend 40 }) ∧
    s.RunsTo t (.ldl t big) [.acc] (s.onCtx t 2 fun c => { c with acc := big.signExtend 40 }) ∧
    s.RunsTo t (.ldlh t big) [.acc] (s.onCtx t 2 fun c => { c with acc := big ++ c.acc.setWidth 20 }) ∧
    s.RunsTo t (.mtx t 0 gs) [.g gs, .ix 0] (s.onCtx t 1 fun c => { c with ix0 := c.g[gs] }) ∧
    s.RunsTo t (.mtx t 1 gs) [.g gs, .ix 1] (s.onCtx t 1 fun c => { c with ix1 := c.g[gs] }) ∧
    s.RunsTo t (.mfx t 0 gs) [.g gs, .ix 0] (s.onCtx t 1 fun c => { c with g := c.g.set gs.val c.ix0 }) ∧
    s.RunsTo t (.mfx t 1 gs) [.g gs, .ix 1] (s.onCtx t 1 fun c => { c with g := c.g.set gs.val c.ix1 }) ∧
    s.RunsTo t (.adx t 0 gs) [.g gs, .ix 0] (s.onCtx t 1 fun c => { c with ix0 := c.ix0 + c.g[gs] }) ∧
    s.RunsTo t (.adx t 1 gs) [.g gs, .ix 1] (s.onCtx t 1 fun c => { c with ix1 := c.ix1 + c.g[gs] }) ∧
    s.RunsTo t (.nop t) [] (s.onCtx t 1 id)

/-- BZ, BNZ, BRA, JMPF, CALLF, RET, SYNCI, LOOP and LOOPI complete: where each goes, what CALLF saves, the loop level opened (09_instruction_set.md
("Control transfer and loops", R234, R235)). Whenever a control transfer can issue, exec answers a next state with PC at its target: BC at a + 1 +
REL6 where Gs is 0 (BZ) or not 0 (BNZ) and otherwise fallen through, BR at a + 1 + REL9, JMPF and CALLF at their address with a + 2 in G7 for CALLF,
RET at G7[15:0]; SYNCI falls through. Loop levels are left as R236 says; the rest stays. Whenever LOOP or LOOPI can issue with fewer than four
levels active, exec answers a next state: with a count that is not zero, level k (the number of active levels) holds LS = a + 1, LE = a + B and LC =
the count, and the context advances; with a count of zero PC is a + B + 1 and no level is opened. -/
def Obligations.ControlTransfersAndLoopsComplete : Prop :=
  (∀ (s : State) (t : ThreadId) (gs : Fin 8) (r6 : BitVec 6) (r9 : BitVec 9) (addr : BitVec 16),
      let c := (s.thr (tidNat t)).ctx
      let dp := (s.thr (tidNat t)).dp
      (c.g[gs] = 0 → s.RunsTo t (.bz t gs r6) [.g gs] (s.ran (tidNat t) (c.branchTo (c.pc + 1 + r6.signExtend 16)) dp)) ∧
      (c.g[gs] ≠ 0 → s.RunsTo t (.bz t gs r6) [.g gs] (s.onCtx t 1 id)) ∧
      (c.g[gs] ≠ 0 → s.RunsTo t (.bnz t gs r6) [.g gs] (s.ran (tidNat t) (c.branchTo (c.pc + 1 + r6.signExtend 16)) dp)) ∧
      (c.g[gs] = 0 → s.RunsTo t (.bnz t gs r6) [.g gs] (s.onCtx t 1 id)) ∧
      s.RunsTo t (.bra t r9) [] (s.ran (tidNat t) (c.branchTo (c.pc + 1 + r9.signExtend 16)) dp) ∧
      s.RunsTo t (.jmpf t addr) [] (s.ran (tidNat t) (c.branchTo addr) dp) ∧
      s.RunsTo t (.callf t addr) [.g 7] (s.ran (tidNat t) { c with g := c.g.set 7 ((c.pc + 2).setWidth 32), pc := addr } dp) ∧
      s.RunsTo t (.ret t) [.g 7] (s.ran (tidNat t) { c with pc := c.g[7].setWidth 16 } dp) ∧
      s.RunsTo t (.synci t) [] (s.onCtx t 1 id) ∧
      (c.branchTo addr).pc = addr) ∧
  (∀ (s : State) (t : ThreadId) (gs : Fin 8) (b1 : Fin 64) (n1 : Fin 32) (b2 : Fin 16),
      let c := (s.thr (tidNat t)).ctx
      c.levels < 4 →
      (c.g[gs].setWidth 16 ≠ 0#16 → s.RunsTo t (.loop t gs b1) [.g gs] (s.onCtx t 1 fun c =>
        { c with ls := setLoopReg c.ls c.levels (c.pc + 1), le := setLoopReg c.le c.levels (c.pc + BitVec.ofNat 16 (b1.val + 1))
                 lc := setLoopReg c.lc c.levels (c.g[gs].setWidth 16) })) ∧
      (c.g[gs].setWidth 16 = 0#16 → s.RunsTo t (.loop t gs b1) [.g gs]
        (s.ran (tidNat t) { c with pc := c.pc + BitVec.ofNat 16 (b1.val + 1) + 1 } (s.thr (tidNat t)).dp)) ∧
      s.RunsTo t (.loopi t n1 b2) [] (s.onCtx t 1 fun c =>
        { c with ls := setLoopReg c.ls c.levels (c.pc + 1), le := setLoopReg c.le c.levels (c.pc + BitVec.ofNat 16 (b2.val + 1))
                 lc := setLoopReg c.lc c.levels (BitVec.ofNat 16 (n1.val + 1)) }))

/-- What the end of an instruction does at the end of a loop body (09_instruction_set.md ("Control transfer and loops", R236)). An instruction of
len words whose last word is not the end of the innermost active level falls through. At that end a count above one decreases and PC is LS; a count
of one becomes 0 and the same test is applied to the next outer level, or, with no outer level, PC falls through. In every case only the counts and
PC of the context change. -/
def Obligations.LoopEndBehaviour : Prop :=
  ∀ (c : Ctx) (len : Nat),
    (c.levels = 0 → c.advance len = { c with pc := c.pc + BitVec.ofNat 16 len }) ∧
    (∀ n, c.levels = n + 1 → loopReg c.le n ≠ c.pc + BitVec.ofNat 16 len - 1 → c.advance len = { c with pc := c.pc + BitVec.ofNat 16 len }) ∧
    (∀ n, c.levels = n + 1 → loopReg c.le n = c.pc + BitVec.ofNat 16 len - 1 → 1 < (loopReg c.lc n).toNat →
      c.advance len = { c with lc := setLoopReg c.lc n (loopReg c.lc n - 1), pc := loopReg c.ls n }) ∧
    (c.levels = 1 → loopReg c.le 0 = c.pc + BitVec.ofNat 16 len - 1 → loopReg c.lc 0 = 1#16 →
      c.advance len = { c with lc := setLoopReg c.lc 0 0#16, pc := c.pc + BitVec.ofNat 16 len }) ∧
    (∀ n, c.levels = n + 2 → loopReg c.le (n + 1) = c.pc + BitVec.ofNat 16 len - 1 → loopReg c.lc (n + 1) = 1#16 →
      c.advance len = ({ c with lc := setLoopReg c.lc (n + 1) 0#16 } : Ctx).advance len) ∧
    ({ c.advance len with pc := c.pc, lc := c.lc } = c)

/-- EI, DI and RETI complete on a supervisor and fault PRIV on any other thread (08_rospel_core.md ("Supervisor and interrupts", R203),
09_instruction_set.md (R239, R240)). Whenever EI, DI or RETI can issue on a supervisor, exec answers a next state with its IE set (EI, RETI) or
clear (DI), PC at the saved address in direct-page word 0x1FF for RETI, and the masked interval begun or ended. On any other thread the instruction
faults PRIV (code 2) and the thread is FAULTED. -/
def Obligations.SupervisorInstructionsComplete : Prop :=
  ∀ (s : State) (t : ThreadId),
    let th := s.thr (tidNat t)
    (isSup (tidNat t) = true →
      s.RunsTo t (.ei t) [] { s.onCtx t 1 id with ie := true, maskAt := none } ∧
      s.RunsTo t (.di t) [] { s.onCtx t 1 id with ie := false, maskAt := if th.ie then some s.up else th.maskAt } ∧
      s.RunsTo t (.reti t) []
        { s.ran (tidNat t) { th.ctx with pc := (s.dpW (tidNat t) 0x1FF).setWidth 16 } th.dp with ie := true, maskAt := none }) ∧
    (isSup (tidNat t) = false → ∀ i ∈ [Instr.ei t, Instr.di t, Instr.reti t], s.issues t i [] = true →
      ∃ u, exec i s = .next u ∧ (u.thr (tidNat t)).st = .faulted ∧ (u.thr (tidNat t)).ctx = th.ctx)

/-- LDW, LDH, LDHU, LDB, LDBU, STW, STH and STB complete; a store to SRAM enters the store buffer and becomes visible (09_instruction_set.md (R224,
R233, R239), 08_rospel_core.md (R216), 12_shared_memory_locks_mailboxes.md (R286)). Whenever a load can issue and the access it makes answers bytes,
exec answers a next state with the value of the bytes, least significant first and extended as the load says, beside the pipe for ACC, the index
register as R233 says, and the effects of the access. Bytes of the own cluster's SRAM within granted regions and without an error are such an
access: each is the newest store of the thread to it, else the byte in SRAM. Whenever a store can issue and its access is done, exec answers a next
state with the effects of the access and the index register as R233 says. A store to the own cluster's SRAM within granted regions, with room in the
store buffer, leaves memory alone and enters its bytes, least significant of ACC first, into the buffer, one entry a half. STORE_VISIBLE takes the
oldest entry and writes its bytes; every other byte of every cluster's SRAM stays. -/
def Obligations.LoadsAndStoresComplete : Prop :=
  (∀ (s : State) (t : ThreadId) (x : Fin 2) (p : Bool) (d6 : BitVec 6),
      let k := tidNat t
      let y := fun size => (s.counted t 1).setIx k x (effAddr (s.ixOf k x) p d6 size).2
      let ea := fun size => (effAddr (s.ixOf k x) p d6 size).1
      let res := fun size (v : Acc) (ecc : Bool) =>
        ({ dest := .acc, val := v, ecc := ecc, addr := ea size, pc := (s.thr k).ctx.pc, iw := (s.nextWords k).1 } : PendResult)
      (∀ bs ecc z, (y 4).loadAt t (ea 4).toNat 4 = .bytes bs ecc z →
        s.RunsAs t (.ldw t x p d6) [.acc, .ix x] ((z.pendRes k (res 4 ((BitVec.ofNat 32 (leNat bs)).signExtend 40) ecc)).fellThrough t 1)) ∧
      (∀ bs ecc z, (y 2).loadAt t (ea 2).toNat 2 = .bytes bs ecc z →
        s.RunsAs t (.ldh t x p d6) [.acc, .ix x] ((z.pendRes k (res 2 ((BitVec.ofNat 16 (leNat bs)).signExtend 40) ecc)).fellThrough t 1) ∧
        s.RunsAs t (.ldhu t x p d6) [.acc, .ix x] ((z.pendRes k (res 2 (BitVec.ofNat 40 (leNat bs)) ecc)).fellThrough t 1)) ∧
      (∀ bs ecc z, (y 1).loadAt t (ea 1).toNat 1 = .bytes bs ecc z →
        s.RunsAs t (.ldb t x p d6) [.acc, .ix x] ((z.pendRes k (res 1 ((BitVec.ofNat 8 (leNat bs)).signExtend 40) ecc)).fellThrough t 1) ∧
        s.RunsAs t (.ldbu t x p d6) [.acc, .ix x] ((z.pendRes k (res 1 (BitVec.ofNat 40 (leNat bs)) ecc)).fellThrough t 1)) ∧
      (∀ (z : State) (a n : Nat), 1 ≤ n → n ≤ 4 → a + n ≤ 0x200000 → ((halves a n).all fun h => z.sramOk k (k / 128) h.1 h.2 false false) = true →
        ((List.range n).any fun i => z.sramByteBad k (k / 128) (a + i)) = false →
        ∃ w, z.loadAt t a n = .bytes ((List.range n).map fun i => z.sramByte k (k / 128) (a + i)) false w ∧ z.OnlyChanges w [.regs])) ∧
  (∀ (s : State) (t : ThreadId) (x : Fin 2) (p : Bool) (d6 : BitVec 6),
      let k := tidNat t
      let y := fun size => (s.counted t 1).setIx k x (effAddr (s.ixOf k x) p d6 size).2
      let ea := fun size => (effAddr (s.ixOf k x) p d6 size).1
      (∀ z, (y 4).storeAt t (ea 4).toNat (leBytes 4 (s.accW k).toNat) = .done z → s.RunsAs t (.stw t x p d6) [.acc, .ix x] (z.fellThrough t 1)) ∧
      (∀ z, (y 2).storeAt t (ea 2).toNat (leBytes 2 (s.accW k).toNat) = .done z → s.RunsAs t (.sth t x p d6) [.acc, .ix x] (z.fellThrough t 1)) ∧
      (∀ z, (y 1).storeAt t (ea 1).toNat (leBytes 1 (s.accW k).toNat) = .done z → s.RunsAs t (.stb t x p d6) [.acc, .ix x] (z.fellThrough t 1)) ∧
      (∀ (z : State) (a : Nat) (bs : List Byte), 1 ≤ bs.length → bs.length ≤ 4 → a + bs.length ≤ 0x200000 →
        ((halves a bs.length).all fun h => z.sramOk k (k / 128) h.1 h.2 false true) = true →
        (z.thr k).sb.length + (halves a bs.length).length ≤ 4 →
        ∃ w, z.storeAt t a bs = .done w ∧ w.clu.sram = z.clu.sram ∧ (w.thr k).ctx = (z.thr k).ctx ∧
          ((w.thr k).sb.drop (z.thr k).sb.length).flatMap (·.bytes) = bs ∧
          ∀ b ∈ (w.thr k).sb.drop (z.thr k).sb.length, b.cl = k / 128 ∧ a ≤ b.addr ∧ b.addr + b.bytes.length ≤ a + bs.length) ∧
      (∀ b rest, (s.thr k).sb = b :: rest → ∃ u, exec (.storeVisible t) s = .next u ∧ (u.thr k).sb = rest ∧ s.OnlyChanges u [.clu] ∧
        (∀ i, i < b.bytes.length → u.clu.sram.gd 0 (2097152 * b.cl + b.addr + i) = byteAt b.bytes i) ∧
        ∀ a, (a < 2097152 * b.cl + b.addr ∨ 2097152 * b.cl + b.addr + b.bytes.length ≤ a) → u.clu.sram.gd 0 a = s.clu.sram.gd 0 a))

/-- Loads and stores outside every window fault ACCESS, misaligned plane reads ALIGN, with the thread FAULTED where it stands (08_rospel_core.md
(R205, R217), 09_instruction_set.md (R224, R233)). A load or store whose address lies in no window faults ACCESS; a load of the sample-plane window
that is not an aligned word faults ALIGN, and so does every store to it. The faulting thread goes to FAULTED with PC unchanged, its ACC and G
registers unchanged, and the rest of its cluster's SRAM and program memory unchanged. -/
def Obligations.MemoryFaults : Prop :=
  ∀ (s : State) (t : ThreadId) (x : Fin 2) (p : Bool) (d6 : BitVec 6),
    let k := tidNat t
    let y := fun size => (s.counted t 1).setIx k x (effAddr (s.ixOf k x) p d6 size).2
    let ea := fun size => (effAddr (s.ixOf k x) p d6 size).1.toNat
    (∀ (z : State) (a n : Nat), windowOf k a = .none → z.loadAt t a n = .fault 3) ∧
    (∀ (z : State) (a : Nat) (bs : List Byte), windowOf k a = .none → z.storeAt t a bs = .fault 3) ∧
    (∀ (z : State) (a n : Nat), 0x01000000 ≤ a → a < 0x01804000 → (n ≠ 4 ∨ a % 4 ≠ 0) → z.loadAt t a n = .fault 4) ∧
    (∀ (z : State) (a : Nat) (bs : List Byte), 0x01000000 ≤ a → a < 0x01804000 → z.storeAt t a bs = .fault 4) ∧
    (∀ code, (y 4).loadAt t (ea 4) 4 = .fault code → s.issues t (.ldw t x p d6) [.acc, .ix x] = true →
      ∃ u, exec (.ldw t x p d6) s = .next u ∧ (u.thr k).st = .faulted ∧ (u.thr k).ctx.pc = (s.thr k).ctx.pc ∧
        (u.thr k).ctx.acc = (s.thr k).ctx.acc ∧ (u.thr k).ctx.g = (s.thr k).ctx.g ∧ u.clu.sram = s.clu.sram ∧ u.clu.pmem = s.clu.pmem)

/-- CRCM, PMW, PMR and MFS complete (09_instruction_set.md (R238, R239, R240, R241, R242)). CRCM with ACC not awaited completes where its access
answers bytes: the CRC of the state in ACC after the bytes goes beside the pipe, IXx advances by the number of bytes. PMW, off level U and within
its write region, writes 14 bits of Gs into the named word of program memory, clears its error mark and counts it; in a tick in which a commit
writes the tile it is discarded and counted instead. PMR, off level U on a tile of its own partition, queues the word for Gs. MFS of number n
completes with the special register in Gs; loop registers, the level count, the thread's identity, partition, task, level and marks, device time and
its shadow and the low words of the core's counters are the values R241 gives. A number not in the table faults, and so does a counter at level U
without PMU_USER_EN: the thread is FAULTED with its context unchanged. -/
def Obligations.CrcProgramMemoryAndSpecialRegistersComplete : Prop :=
  (∀ (s : State) (t : ThreadId) (gs : Fin 8) (p : Fin 4) (x : Fin 2) (n1 : Fin 8),
      let k := tidNat t
      let y := s.counted t 1
      let iw := (s.nextWords k).1
      let ix := s.ixOf k 0
      ((s.thr k).pendingFor .acc = [] → ∀ bs ecc z, y.crcBytes t (s.ixOf k x).toNat (n1.val + 1) = .bytes bs ecc z →
        s.RunsAs t (.crcm t p x n1) [.ix x] (((z.setIx k x (s.ixOf k x + BitVec.ofNat 32 (n1.val + 1))).pendRes k
          { dest := .acc, val := crcAcc (s.crcParams k p) (s.accOf k) bs, ecc := ecc, addr := s.ixOf k x, pc := (s.thr k).ctx.pc, iw := iw
            crc := true }).fellThrough t 1)) ∧
      ((s.thr k).priv ≠ .u → s.pmwOk k ix = true → s.pmwLost (pmTile k ix) = true →
        s.RunsAs t (.pmw t gs) [.g gs, .ix 0] ((y.inc (Reg.CLU_PMW_DISCARD (k / 128))).fellThrough t 1)) ∧
      ((s.thr k).priv ≠ .u → s.pmwOk k ix = true → s.pmwLost (pmTile k ix) = false →
        s.RunsAs t (.pmw t gs) [.g gs, .ix 0]
          (((y.pmemSet (pmTile k ix) (fld ix 15 0) ((s.gOf k gs).setWidth 14)).inc (Reg.CLU_PMW_COUNT (k / 128))).fellThrough t 1)) ∧
      ((s.thr k).priv ≠ .u → s.tilePart (pmTile k ix) = s.thrPart k →
        s.RunsToPend t (.pmr t gs) [.g gs, .ix 0] (s.onCtx t 1 id)
          { dest := .g gs, val := (s.pmemW (65536 * pmTile k ix + fld ix 15 0)).setWidth 40 })) ∧
  (∀ (s : State) (t : ThreadId) (gs : Fin 8),
      let k := tidNat t
      let y := s.counted t 1
      let n := fld (s.gOf k gs) 7 0
      (∀ r, y.special k n = some r → ¬(0x20 ≤ n ∧ (s.thr k).priv = .u ∧ s.rb Reg.PMU_CFG 0 = false) →
        s.RunsAs t (.mfs t gs) [.g gs] ((r.2.setG k gs r.1).fellThrough t 1)) ∧
      (y.special k n = none ∨ (0x20 ≤ n ∧ (s.thr k).priv = .u ∧ s.rb Reg.PMU_CFG 0 = false) → s.issues t (.mfs t gs) [.g gs] = true →
        ∃ u, exec (.mfs t gs) s = .next u ∧ (u.thr k).st = .faulted ∧ (u.thr k).ctx = (s.thr k).ctx) ∧
      (∀ i : Fin 4, s.special k i.val = some ((s.thr k).ctx.ls[i].setWidth 32, s) ∧ s.special k (4 + i.val) = some ((s.thr k).ctx.le[i].setWidth 32, s) ∧
        s.special k (8 + i.val) = some ((s.thr k).ctx.lc[i].setWidth 32, s) ∧
        s.special k (0x20 + i.val) = some (s.reg (Reg.CLU_PMU_CTR_LO t.cl.val t.core.val i.val), s)) ∧
      s.special k 0x0C = some (BitVec.ofNat 32 (s.thr k).ctx.levels, s) ∧
      s.special k 0x10 = some (BitVec.ofNat 32 (256 * t.cl.val + 8 * t.core.val + t.thr.val), s) ∧
      s.special k 0x11 = some (BitVec.ofNat 32 (s.thrPart k), s) ∧
      s.special k 0x12 = some (BitVec.ofNat 32 ((s.thr k).task.getD 0), s) ∧
      s.special k 0x13 = some (match (s.thr k).priv with | .u => 0#32 | .k => 1#32 | .s => 2#32, s) ∧
      s.special k 0x14 = some (if (s.thr k).ctx.taint then 1#32 else 0#32, s) ∧
      s.special k 0x15 = some (if (s.thr k).ctx.mark then 1#32 else 0#32, s) ∧
      (∃ z, s.special k 0x18 = some (timeWord s.time 0, z) ∧ z.special k 0x19 = some (timeWord s.time 1, z) ∧
        z.special k 0x1A = some (timeWord s.time 2, z)) ∧
      (∀ m, 0x24 ≤ m → s.special k m = none))

/-- OPEN, OPENW, RECV, RECVW, CHW and SEND complete on a channel in the state they need, and fault CHANNEL off their partition (08_rospel_core.md
("Channels", R209, R210, R211), 09_instruction_set.md (R239)). OPEN and OPENW of an EMPTY channel the thread may open: FILLING with the thread's
agent as filler, words zero, status 0 in Ga. RECV and RECVW of a FULL channel the thread may receive from: the words and the length in the direct
page, the channel EMPTY for the next opener, the marks taken over, status 0. CHW by the filler: one word of the channel. SEND by the filler: FULL
with its length after every store of the thread. OPEN off the partition faults with the thread FAULTED. -/
def Obligations.ChannelInstructionsComplete : Prop :=
  ∀ (s : State) (t : ThreadId) (ga gb : Fin 8) (w : Fin 4),
    let k := tidNat t
    let y := s.counted t 1
    let ch := chanKey k (s.gOf k gb)
    let cf := chanKey k (s.gOf k ga)
    (s.mayOpen k ch = true → (s.chan ch).st = .empty →
      s.RunsAs t (.chanOpen t ga gb) [.g ga, .g gb] (((y.setChan ch ((s.chan ch).fill (s.agentOf k))).setG k ga 0).fellThrough t 1) ∧
      s.RunsAs t (.chanOpenw t ga gb) [.g ga, .g gb] (((y.setChan ch ((s.chan ch).fill (s.agentOf k))).setG k ga 0).fellThrough t 1)) ∧
    (s.mayRecv k ch = true → (s.chan ch).st = .full →
      let x := ((y.takeChan ch).updThr k fun th => { th with dp := dpWrite th.dp (s.chan ch).message.words, ctx := th.ctx.marked (s.chan ch).message })
      s.RunsAs t (.recv t ga gb) [.g ga, .g gb] ((x.setG k ga 0).fellThrough t 1) ∧
      s.RunsAs t (.recvw t ga gb) [.g ga, .g gb] ((x.setG k ga 0).fellThrough t 1)) ∧
    (s.fills k cf = true →
      s.RunsAs t (.chw t w ga gb) [.g ga, .g gb]
        ((y.setChan cf { s.chan cf with words := (s.chan cf).words.set w.val (s.gOf k gb) }).fellThrough t 1) ∧
      s.RunsAs t (.send t ga w) [.g ga]
        (((y.drainStores k).sendChan cf (w.val + 1) (s.thr k).ctx.taint (s.thr k).ctx.mark).fellThrough t 1)) ∧
    (s.mayOpen k ch = false → s.issues t (.chanOpen t ga gb) [.g ga, .g gb] = true →
      ∃ u, exec (.chanOpen t ga gb) s = .next u ∧ (u.thr k).st = .faulted ∧ (u.thr k).ctx = (s.thr k).ctx)

/-- LOCK of a free lock and UNLOCK by its holder complete; LOCK of a held lock waits in its queue (12_shared_memory_locks_mailboxes.md ("Queued
locks", R287, R288, R289, R291)). LOCK of a lock its partition may use that is free with no queue completes: the requester holds it, the grant is
counted and Ga holds the status of the grant. LOCK of one another agent holds, by a thread that may wait and gives no thread away, leaves the thread
WAITING and its agent last in the queue. UNLOCK by the holder completes with status 0 after every store of the thread, and the lock passes to the
head of its queue or becomes free. A name that is no lock gives status 12. -/
def Obligations.LockInstructionsComplete : Prop :=
  ∀ (s : State) (t : ThreadId) (ga gb : Fin 8) (glob : Bool) (n : Nat),
    let k := tidNat t
    let y := s.counted t 1
    let d := y.drainStores k
    let a := s.agentOf k
    (lockName (k / 128) (s.gOf k gb) = none →
      s.RunsTo t (.lock t ga gb) [.g ga, .g gb] (s.onCtx t 1 fun c => { c with g := c.g.set ga.val 12#32 }) ∧
      s.RunsTo t (.unlock t ga gb) [.g ga, .g gb] (s.onCtx t 1 fun c => { c with g := c.g.set ga.val 12#32 })) ∧
    (lockName (k / 128) (s.gOf k gb) = some (glob, n) → tbit (s.lockMask glob n) (s.thrPart k) = true →
      ((s.lock glob n).holder = none → (s.lock glob n).queue = [] →
        s.RunsAs t (.lock t ga gb) [.g ga, .g gb]
          (((y.grantLock glob n a).setG k ga (BitVec.ofNat 32 (grantStatus (s.lock glob n)))).fellThrough t 1) ∧
        ((y.grantLock glob n a).lock glob n).holder = some a) ∧
      ((s.lock glob n).holder.isSome = true → (s.lock glob n).holder ≠ some a → s.thrBound k = false →
        ((s.thr k).task.isSome && tbit (s.task (s.taskOn k)).w0 16) = false → s.issues t (.lock t ga gb) [.g ga, .g gb] = true →
        ∃ u, exec (.lock t ga gb) s = .next u ∧ (u.thr k).st = .waiting ∧ (u.thr k).ctx = (s.thr k).ctx ∧
          (u.lock glob n).queue = (s.lock glob n).queue ++ [a] ∧ (u.lock glob n).holder = (s.lock glob n).holder) ∧
      ((s.lock glob n).holder = some a → (s.lock glob n).stuck = false →
        s.RunsAs t (.unlock t ga gb) [.g ga, .g gb]
          ((((d.setLock glob n { s.lock glob n with abandoned := false }).passLock glob n).setG k ga 0).fellThrough t 1)))

/-- TEND, YIELD, the REL instructions and VWAIT complete (11_task_dispatcher.md (R273), 10_phasor_coprocessor.md (R257),
06_packet_lanes_and_switching.md (R147, R151), 04_frame_authentication.md (R107), 12_shared_memory_locks_mailboxes.md (R286)). On a pooled thread
with no coprocessor command and no result outstanding, TEND ends the run of its task and gives the thread away past the instruction. YIELD with no
eligible ready task of the same priority completes with every store visible; with one, the thread leaves its task, which becomes READY last, and the
first eligible task comes in. On a bound thread with a packet, each REL makes the thread's stores visible, hands the packet to the reorder buffer
with its disposition (RECIRC with lane and stage from Gs) and leaves the thread IDLE. VWAIT of a packet whose verdict is there writes it into Gs. -/
def Obligations.TaskAndPacketInstructionsComplete : Prop :=
  (∀ (s : State) (t : ThreadId),
      let k := tidNat t
      let y := s.counted t 1
      ((s.thr k).task.isSome = true →
        (y.drained k = true → s.RunsAs t (.tend t) [] ((y.fellThrough t 1).endTask k)) ∧
        (y.yieldTo k = none → s.RunsAs t (.yield t) [] ((y.drainStores k).fellThrough t 1)) ∧
        (∀ n, y.yieldTo k = some n → y.drained k = true →
          s.RunsAs t (.yield t) [] (((((y.fellThrough t 1).unready n).leaveThread k 4).readyTail (y.taskOn k)).updThr k
            fun th => { th with incoming := some (n % 1024) }))) ∧
      ((s.thr k).task = none → ∀ i ∈ [Instr.tend t, Instr.yield t], s.issues t i [] = true →
        ∃ u, exec i s = .next u ∧ (u.thr k).st = .faulted ∧ (u.thr k).ctx = (s.thr k).ctx)) ∧
  (∀ (s : State) (t : ThreadId) (gs : Fin 8) (f : Nat),
      let k := tidNat t
      let y := s.counted t 1
      s.thrBound k = true → (s.thr k).packet = some f →
      s.RunsAs t (.relNext t gs) [.g gs] (((y.drainStores k).releasePkt k 0 0 0).idleThread k) ∧
      s.RunsAs t (.relExit t gs) [.g gs] (((y.drainStores k).releasePkt k 1 0 0).idleThread k) ∧
      s.RunsAs t (.relDrop t gs) [.g gs] (((y.drainStores k).releasePkt k 2 0 0).idleThread k) ∧
      s.RunsAs t (.relRecirc t gs) [.g gs] (((y.drainStores k).releasePkt k 3 (fld (s.gOf k gs) 5 4) (fld (s.gOf k gs) 10 8)).idleThread k) ∧
      ((s.frame f).verdict ≠ 0 →
        s.RunsTo t (.vwait t gs) [.g gs] (s.onCtx t 1 fun c => { c with g := c.g.set gs.val (BitVec.ofNat 32 (s.frame f).verdict) })))

/-- Every C-format instruction completes: its command enters the lowest free entry of its core's queue (10_phasor_coprocessor.md ("Issuing
commands", R246, R247, R251)). Each of the 29 C-format instructions, where it can issue with the coprocessor enabled at the thread's level, an entry
of the core's queue free and fewer than four entries held by the thread, completes: the lowest free entry holds its command with CPOP, operands and
the value of Gs; a destination in G has a write pending; the context is past both words; every other entry, the cluster's memories and the direct
page are as before; CPX_CMDS counts it. -/
def Obligations.CoprocessorInstructionsQueue : Prop :=
  ∀ (s : State) (t : ThreadId) (cd ca cb gs : Fin 8) (m : BitVec 5),
    s.Queues t (.cmtr t cd gs) 0 cd 0 0 gs 0 ∧ s.Queues t (.cmti t cd gs) 1 cd 0 0 gs 0 ∧
    s.Queues t (.cmfr t gs ca) 2 0 ca 0 gs 0 ∧ s.Queues t (.cmfi t gs ca) 3 0 ca 0 gs 0 ∧ s.Queues t (.cmov t cd ca) 4 cd ca 0 0 0 ∧
    s.Queues t (.ccvt t cd gs m) 5 cd 0 0 gs m.toNat ∧ s.Queues t (.ccvtc t cd gs m) 6 cd 0 0 gs m.toNat ∧
    s.Queues t (.cfix t gs ca m) 7 0 ca 0 gs m.toNat ∧ s.Queues t (.cadd t cd ca cb) 16 cd ca cb 0 0 ∧
    s.Queues t (.csub t cd ca cb) 17 cd ca cb 0 0 ∧ s.Queues t (.cmul t cd ca cb) 18 cd ca cb 0 0 ∧
    s.Queues t (.cmac t cd ca cb) 19 cd ca cb 0 0 ∧ s.Queues t (.cmsc t cd ca cb) 20 cd ca cb 0 0 ∧
    s.Queues t (.ccmul t cd ca cb) 21 cd ca cb 0 0 ∧ s.Queues t (.ccmac t cd ca cb) 22 cd ca cb 0 0 ∧
    s.Queues t (.crmul t cd ca gs) 23 cd ca 0 gs 0 ∧ s.Queues t (.cscl t cd ca m) 24 cd ca 0 0 m.toNat ∧
    s.Queues t (.cconj t cd ca) 25 cd ca 0 0 0 ∧ s.Queues t (.cdft t cd ca cb gs m) 26 cd ca cb gs m.toNat ∧
    s.Queues t (.crot t cd ca gs) 32 cd ca 0 gs 0 ∧ s.Queues t (.cmag t cd ca) 33 cd ca 0 0 0 ∧
    s.Queues t (.carg t gs ca) 34 0 ca 0 gs 0 ∧ s.Queues t (.cfsq t cd ca) 40 cd ca 0 0 0 ∧
    s.Queues t (.cdiv t cd ca cb) 44 cd ca cb 0 0 ∧ s.Queues t (.ccmpr t gs ca cb m) 48 0 ca cb gs m.toNat ∧
    s.Queues t (.ccmpi t gs ca cb m) 49 0 ca cb gs m.toNat ∧ s.Queues t (.ccmpm t gs ca cb m) 50 0 ca cb gs m.toNat ∧
    s.Queues t (.cmin t cd ca cb) 51 cd ca cb 0 0 ∧ s.Queues t (.cmax t cd ca cb) 52 cd ca cb 0 0

/-- CPX_COMMAND_START computes the results of a ready command and CPX_RESULT_WRITE writes them and frees the tag (10_phasor_coprocessor.md (R248,
R249, R250, R258)). A live command that is ready and first for its unit, with good operand parity, starts: its results are those of its operation
over the C registers of its thread, and only registers, free values and the queue change. A started command, not squashed, with no earlier write to
its destination outstanding, ends: its entry is free, a command to G writes Gs, CMTR and CMTI one component, any other but CFSQ both components of
Cd; no other thread changes. -/
def Obligations.CoprocessorCommandsStartAndWrite : Prop :=
  ∀ (s : State) (core : Fin 96) (tag : Fin 16) (waited : Nat),
    let key := 16 * core.val + tag.val
    let c := s.cpxCmd key
    (s.cpxReady c = true → s.cpxFirst key c = true → s.cpxParity c = none →
      ∃ u, exec (.cpxCommandStart core tag waited) s = .next u ∧ s.OnlyChanges u [.regs, .fv, .cpx] ∧ (u.cpxCmd key).started = true ∧
        (u.cpxCmd key).res = (cpxCompute c (s.cregOf c.tid c.cd) (s.cregOf c.tid c.ca)
          (s.cregOf c.tid (if c.cpop = 40 then c.ca + 1 else c.cb)) (s.cregOf c.tid (c.ca + 2)) (s.cpxFree c.cpop).1).ws ∧
        ∀ j, j ≠ key → u.cpxCmd j = s.cpxCmd j) ∧
    (c.live = true → c.started = true → c.squashed = false → s.cpxWawFree c = true → c.badReg = none → c.smp = false → c.cd < 8 → c.gs < 8 →
      ∃ u, exec (.cpxResultWrite core tag) s = .next u ∧ s.OnlyChanges u [.clu, .cpx] ∧ u.cpxCmd key = {} ∧
        (∀ j, j ≠ c.tid → u.thr j = s.thr j) ∧
        (cpxToG c.cpop = true → (u.thr c.tid).ctx.getG c.gs = wordAt c.res 0) ∧
        (c.cpop = 0 → ((u.thr c.tid).ctx.c.toList.getD c.cd {}).re = wordAt c.res 0 ∧
          ((u.thr c.tid).ctx.c.toList.getD c.cd {}).im = ((s.thr c.tid).ctx.c.toList.getD c.cd {}).im) ∧
        (c.cpop = 1 → ((u.thr c.tid).ctx.c.toList.getD c.cd {}).im = wordAt c.res 0 ∧
          ((u.thr c.tid).ctx.c.toList.getD c.cd {}).re = ((s.thr c.tid).ctx.c.toList.getD c.cd {}).re) ∧
        (cpxToG c.cpop = false → 2 ≤ c.cpop → c.cpop ≠ 40 →
          ((u.thr c.tid).ctx.c.toList.getD c.cd {}).re = wordAt c.res 0 ∧ ((u.thr c.tid).ctx.c.toList.getD c.cd {}).im = wordAt c.res 1))

/-- CMTR, CMTI, CMFR, CMFI and CMOV copy bits unchanged and count nothing; CCONJ changes the sign of the imaginary part alone
(10_phasor_coprocessor.md ("Moves", R245, R251)). The results of the move operations are the bits of their sources, subnormals and NaN payloads
included, with no invalid operation or overflow counted. CCONJ keeps the real part and the low 31 bits of the imaginary part and inverts its sign
bit. Conjugation twice gives the operand back. -/
def Obligations.CoprocessorMovesCopyBits : Prop :=
  ∀ (c : CpxCmd) (d a b b2 : CReg) (zs : List Nat),
    (c.cpop = 0 → cpxCompute c d a b b2 zs = { ws := [c.gval] }) ∧ (c.cpop = 1 → cpxCompute c d a b b2 zs = { ws := [c.gval] }) ∧
    (c.cpop = 2 → cpxCompute c d a b b2 zs = { ws := [a.re] }) ∧ (c.cpop = 3 → cpxCompute c d a b b2 zs = { ws := [a.im] }) ∧
    (c.cpop = 4 → cpxCompute c d a b b2 zs = { ws := [a.re, a.im] }) ∧
    (c.cpop = 25 → ∃ w, cpxCompute c d a b b2 zs = { ws := [a.re, w] } ∧ w.getLsbD 31 = !a.im.getLsbD 31 ∧
      (∀ i, i < 31 → w.getLsbD i = a.im.getLsbD i) ∧
      cpxCompute c d { a with im := w } b b2 zs = { ws := [a.re, a.im] })

/-- A word that no table defines faults ILLEGAL, in the C format with the coprocessor off CPX_DIS (09_instruction_set.md (R232), 08_rospel_core.md
(R205)). On a thread that can issue, whose fetch is allowed and good and whose next words spell no instruction, UNDEFINED_ENCODING answers a next
state in which the thread is FAULTED with its context unchanged, the fault is counted, and, with room in the fault queue of its cluster, one record
is appended with code 1, or 8 for the C format with the coprocessor disabled at its level, the PC and the instruction word. -/
def Obligations.UndefinedEncodingFaults : Prop :=
  ∀ (s : State) (t : ThreadId),
    let k := tidNat t
    let iw := (s.nextWords k).1
    s.canIssue k = true → s.fetchFault k (wordsOf iw.toNat) = none → s.nextInstr t = none →
    ∃ u, exec (.undefinedEncoding t) s = .next u ∧ (u.thr k).st = .faulted ∧ (u.thr k).ctx = (s.thr k).ctx ∧
      u.clu.sram = s.clu.sram ∧ u.clu.pmem = s.clu.pmem ∧
      ((s.fltq (k / 128)).length < 16 → u.fltq (k / 128) = s.fltq (k / 128) ++
        [s.faultRecord k (if fld iw 13 11 = 3 ∧ s.cpxEnabled k = false then 8 else 1) false 0 (s.thr k).ctx.pc iw])

/-- The fields of a fault record and of a received message (08_rospel_core.md (R206), 09_instruction_set.md (R223, R239)). A fault record has the
code in [31:28] of word 0, the partition in [27:24], the cluster thread index in [23:17], IMPRECISE in [16], BOUND in [15] and the task in [9:0];
the instruction word in [29:16] and the PC in [15:0] of word 1; the data address in word 2; the nanoseconds of device time in word 3. After a
receive of a channel, direct-page words 0x1F8 to 0x1FB hold words 0 to 3 of the message, 0x1FC its length, and every other word of the page is as
before. A message of an opened channel starts with zero words. -/
def Obligations.RecordLayouts : Prop :=
  (∀ (s : State) (k code : Nat) (imp : Bool) (addr : Word) (pc : BitVec 16) (iw : PWord),
      code < 16 → ((s.thr k).task.getD 0) < 1024 →
      let r := s.faultRecord k code imp addr pc iw
      fld (wordAt r 0) 31 28 = code ∧ fld (wordAt r 0) 27 24 = s.thrPart k ∧ fld (wordAt r 0) 23 17 = k % 128 ∧
        tbit (wordAt r 0) 16 = imp ∧ tbit (wordAt r 0) 15 = s.thrBound k ∧ fld (wordAt r 0) 9 0 = (s.thr k).task.getD 0 ∧
        fld (wordAt r 1) 29 16 = iw.toNat ∧ fld (wordAt r 1) 15 0 = pc.toNat ∧ wordAt r 2 = addr ∧
        (wordAt r 3).toNat = s.time % secU / nsU) ∧
  (∀ (ch : Chan) (dp : SMap Word),
      (∀ i, i < 4 → (dpWrite dp ch.message.words).gd 0 (0x1F8 + i) = ch.words.toList.getD i 0) ∧
      (dpWrite dp ch.message.words).gd 0 0x1FC = BitVec.ofNat 32 (ch.len + 1) ∧
      (∀ a, a < 0x1F8 ∨ 0x1FC < a → (dpWrite dp ch.message.words).gd 0 a = dp.gd 0 a) ∧
      (∀ a, ((ch.fill a).words = Vector.replicate 4 0 ∧ (ch.fill a).st = .filling ∧ (ch.fill a).filler = some a)))

/-- Device time: servo updates, steps, restart, holdover and the PLL (02_time_and_angle.md ("Device time", R28, R30, R31, R32, R33, R38)). A servo
update judges the sources; with a qualified one it selects the best and steers or steps with it, and then judges disagreement. In ACQUIRING an
offset beyond STEP_THR is removed by a step where one is wanted, the sixteenth update in a row within LOCK_THR goes to LOCKED, and in LOCKED a
servo update leaves device time alone; steering stays within 200 ppm. A step request by a writer allowed to sets device time to the 96-bit value
where R28 permits it and otherwise only drops the held words. RESTART goes to FREERUN, or with a PTP-named commit armed is flagged in IND_TIME_STATUS
bit 4 and ignored. Holdover expires after HOLD_MAX seconds; the counter copy keeps device time in the always-on domain; the PLL commands note
that its lock is lost and is there again. -/
def Obligations.DeviceTimeCommandsComplete : Prop :=
  (∀ (s : State) (who : Accessor) (val : Word),
      (s.judgeSources.bestSrc = 0 → s.Gives .servoUpdate s.judgeSources.judgeDisagree) ∧
      (∀ x, s.judgeSources.bestSrc = x → x ≠ 0 → s.Gives .servoUpdate ((s.judgeSources.selectSrc x).servoWith x).judgeDisagree) ∧
      (s.mayWrite who (Reg.IND_TIME_SET 2) = true →
        let x := { s with wrHold := (s.wrHold.sd none (Reg.IND_TIME_SET 0) none).sd none (Reg.IND_TIME_SET 1) none }
        let v := timeOf96 ((s.held (Reg.IND_TIME_SET 0)).toNat + 2 ^ 32 * (s.held (Reg.IND_TIME_SET 1)).toNat + 2 ^ 64 * val.toNat)
        (s.stepAllowed = true → s.Gives (.timeSetStepRequest who val) (x.stepTime v) ∧ (x.stepTime v).time = v) ∧
        (s.stepAllowed = false → s.Gives (.timeSetStepRequest who val) x)) ∧
      (s.mayWrite who Reg.IND_TIME_CTRL = true →
        (s.ptpCommitArmed = false → s.Gives (.timeRestart who) ((s.selectSrc 0).setTimeState .freerun) ∧
          ((s.selectSrc 0).setTimeState .freerun).ind.st = .freerun) ∧
        (s.ptpCommitArmed = true → s.Gives (.timeRestart who) (s.sqcEach Reg.IND_TIME_STATUS 4 40) ∧
          (s.sqcEach Reg.IND_TIME_STATUS 4 40).rb Reg.IND_TIME_STATUS 4 = true)) ∧
      (s.ind.st = .holdover → s.ind.holdExp = false → s.ind.holdAt + s.rf Reg.IND_SRC_CFG 15 0 * secU ≤ s.up →
        s.Gives .holdoverExpire s.expireHold ∧ s.expireHold.ind.holdExp = true) ∧
      (s.ind.st = .locked ∨ s.ind.st = .holdover → s.copyDue = true →
        s.Gives .holdoverCounterCopy { s with pwr := { s.pwr with hold := some (s.time, s.up) } }) ∧
      s.Gives .timeBasePllLockLoss { s with ind := { s.ind with pllLock := false } } ∧
      s.Gives .timeBasePllRelock { s with ind := { s.ind with pllLock := true } }) ∧
  (∀ (z : State) (x : Nat),
      (z.ind.st = .acquiring → z.stepWanted x = true → (z.servoWith x).time = lessNs z.time (z.offsetOf x)) ∧
      (z.ind.st = .acquiring ∨ z.ind.st = .holdover → (z.offsetOf x).natAbs ≤ z.rf Reg.IND_SRC_THR 15 0 → z.ind.lockN = 15 →
        (z.servoWith x).ind.st = .locked) ∧
      (z.ind.st = .locked → (z.servoWith x).time = z.time) ∧
      -200000000 ≤ wordInt (z.steer.reg Reg.IND_STEER) ∧ wordInt (z.steer.reg Reg.IND_STEER) ≤ 200000000)

/-- The PTP messages received, sent and missed: offset, delay, role and answers (02_time_and_angle.md ("Sources of time", R30, R34, R35)). Messages
of the domain of the clock alone have an effect. On a slave port a one-step Sync, and a Follow_Up that matches a two-step Sync, measure the offset;
every Sync goes on to the ports it is forwarded to, with the residence time and the link delay in the correction of the Sync or of its Follow_Up. An
Announce goes on likewise, and on a port of the clock it feeds the BMCA. A Pdelay_Req is answered in one or two steps; a matching Pdelay_Resp sets
the link delay to half of the exchange less the turnaround. Management messages are counted and dropped. Master ports send Sync (one or two steps)
and Announce with advancing sequence numbers; ports in PTP send Pdelay_Req. A Sync missing for three intervals, or an Announce of the slave port
missing for its time, loses PTP. -/
def Obligations.PtpCommandsComplete : Prop :=
  ∀ (s : State) (p : Fin 16) (sub : Fin 4) (dom : BitVec 8) (two : Bool) (seq : BitVec 16) (origin : Nat) (corr : Int) (res ta : Nat)
    (a : AnnounceData),
    let q := s.port1588 p.val
    let fwd := s.forwardSync p.val two seq.toNat origin corr res
    (s.ptpOurs dom = true →
      (s.ptpSlave p.val = true →
        s.Gives (.ptpSyncRx ⟨⟨p, dom⟩, sub⟩ false seq origin corr res)
          ((s.forwardSync p.val false seq.toNat origin corr res).ptpHeard.ptpMeasure p.val (s.portStamp p.val sub.val) origin corr seq) ∧
        s.Gives (.ptpSyncRx ⟨⟨p, dom⟩, sub⟩ true seq origin corr res)
          ((s.forwardSync p.val true seq.toNat origin corr res).ptpHeard.setPort1588 p.val { q with wait := some ⟨seq, s.portStamp p.val sub.val, corr⟩ }) ∧
        (∀ w, q.wait = some w → w.seq = seq → s.Gives (.ptpFollowUpRx ⟨p, dom⟩ seq origin corr res)
          (((s.forwardFollowUp p.val seq.toNat origin corr res).setPort1588 p.val { q with wait := none }).ptpMeasure p.val w.rxTs origin
            (w.corr + corr) seq))) ∧
      (s.ptpTc p.val = true → s.Gives (.ptpSyncRx ⟨⟨p, dom⟩, sub⟩ two seq origin corr res) fwd) ∧
      (let z := each (s.ptpTargets p.val) (fun x r => x.sendAnnounce r seq.toNat x.time a) s
       (s.ptpOn p.val = true → s.ptpTc p.val = false →
         s.Gives (.ptpAnnounceRx ⟨p, dom⟩ ⟨seq, a⟩) ((z.setPort1588 p.val { q with best := some a, bestAt := s.up }).bmca).judgeSources) ∧
       (s.ptpTc p.val = true → s.Gives (.ptpAnnounceRx ⟨p, dom⟩ ⟨seq, a⟩) z)) ∧
      (s.ptpOn p.val = true → s.ptpOneStep p.val = true →
        s.Gives (.ptpPdelayReqRx ⟨⟨p, dom⟩, sub⟩ seq) (s.sendPtp p.val ptpPdelayResp seq.toNat (s.portStamp p.val sub.val) 0)) ∧
      (s.ptpOn p.val = true → s.ptpOneStep p.val = false → s.Gives (.ptpPdelayReqRx ⟨⟨p, dom⟩, sub⟩ seq)
        ((s.sendPtp p.val ptpPdelayResp seq.toNat (s.portStamp p.val sub.val) 0).sendPtp p.val ptpPdelayRespFu seq.toNat s.time 0)) ∧
      (∀ t1, s.ptpOn p.val = true → q.pdT1 = some t1 → q.pdSeq = seq → s.Gives (.ptpPdelayRespRx ⟨⟨p, dom⟩, sub⟩ seq ta)
        (s.setPort1588 p.val { q with delay := (((s.portStamp p.val sub.val : Int) - t1) - ta) / 2, pdT1 := none }))) ∧
    (s.ptpOurs dom = false → ∀ i ∈ [Instr.ptpSyncRx ⟨⟨p, dom⟩, sub⟩ two seq origin corr res, .ptpFollowUpRx ⟨p, dom⟩ seq origin corr res,
      .ptpAnnounceRx ⟨p, dom⟩ ⟨seq, a⟩, .ptpPdelayReqRx ⟨⟨p, dom⟩, sub⟩ seq, .ptpPdelayRespRx ⟨⟨p, dom⟩, sub⟩ seq ta], s.Gives i s) ∧
    s.Gives (.ptpManagementRx p) (s.inc (Reg.ETH_PTP_MGT_DROP p.val)) ∧
    (s.ptpMaster p.val = true → s.ptpOneStep p.val = true → s.Gives (.ptpSyncTx p)
      ((s.setPort1588 p.val { q with syncSeq := q.syncSeq + 1 }).sendPtp p.val ptpSync q.syncSeq.toNat s.time 0)) ∧
    (s.ptpMaster p.val = true → s.ptpOneStep p.val = false → s.Gives (.ptpSyncTx p)
      (((s.setPort1588 p.val { q with syncSeq := q.syncSeq + 1 }).sendPtp p.val ptpSync q.syncSeq.toNat 0 0).sendPtp p.val ptpFollowUp
        q.syncSeq.toNat s.time 0)) ∧
    (s.ptpMaster p.val = true → s.Gives (.ptpAnnounceTx p)
      ((s.setPort1588 p.val { q with annSeq := q.annSeq + 1 }).sendAnnounce p.val q.annSeq.toNat s.time (s.ptpAnnounced p.val))) ∧
    (s.ptpOn p.val = true → s.Gives (.ptpPdelayReqTx p)
      ((s.setPort1588 p.val { q with pdSeq := q.pdSeq + 1, pdT1 := some s.time }).sendPtp p.val ptpPdelayReq (q.pdSeq + 1).toNat s.time 0)) ∧
    (s.ind.ptp.seen = true → s.ind.ptp.last + 3 * s.syncInterval ≤ s.up → s.Gives .ptpSyncTimeout s.losePtp) ∧
    (s.annExpired ≠ [] → s.annExpired.any s.ptpSlave = true → s.Gives .ptpAnnounceTimeout
      (((each s.annExpired (fun x n => x.setPort1588 n { x.port1588 n with best := none }) s).bmca).losePtp)) ∧
    s.losePtp.ind.ptp.qual = false

/-- Zero crossings, sample loss, the fixed start and the end of HELD of an angle clock (02_time_and_angle.md ("The angle clocks", R41, R43, R44)).
After four qualified cycles the next qualified crossing of a SEEKING tracked clock starts it LOCKED at the estimated frequency. A LOCKED clock whose
estimate is out of bounds loses its reference, otherwise it follows it; on its secondary it goes back to its primary once that is qualified again.
A HELD clock whose primary, or else secondary, is qualified for four cycles is LOCKED again. The eighth invalid sample loses the reference. A fixed
clock starts where time times its nominal frequency is an integer. HELD beyond HOLD_MAX cycles raises its flag once an episode and the clock keeps
running. -/
def Obligations.AngleClockCommandsComplete : Prop :=
  ∀ (s : State) (n : Fin 16) (pri sec : RefEstimate),
    let s1 := s.countCycle n.val pri sec
    let c := s1.aclk n.val
    let f := s.aclkNom n.val
    ((s.aclk n.val).st = .seeking → s.rf (Reg.IND_ACLK_CFG n.val) 30 28 < 2 → 4 ≤ (s.aclk n.val).qualPri → 5 ≤ c.qualPri →
      let a := s.startCycle n.val ((2 * s.time * f + secU) / (2 * secU))
      s.Gives (.aclkZeroCrossing n pri sec) (s1.startClock n.val a.1 0 pri.freq.toNat .locked a.2)) ∧
    ((s.aclk n.val).st = .locked → (s.aclk n.val).src2 = false →
      (s1.refLost n.val pri = true →
        ∃ b, s.Gives (.aclkZeroCrossing n pri sec) ((s1.setAclk n.val { c with phaseBad := b }).loseRef n.val)) ∧
      (s1.refLost n.val pri = false → s.phaseMag n.val ≤ 357913941 →
        s.Gives (.aclkZeroCrossing n pri sec) ((s1.setAclk n.val { c with phaseBad := 0 }).followRef n.val pri))) ∧
    ((s.aclk n.val).st = .locked → (s.aclk n.val).src2 = true →
      (s1.refLost n.val sec = true →
        ∃ b, s.Gives (.aclkZeroCrossing n pri sec) ((s1.setAclk n.val { c with phaseBad := b }).loseRef n.val)) ∧
      (s1.refLost n.val sec = false → s.phaseMag n.val ≤ 357913941 → 4 ≤ c.qualPri →
        let s2 := s1.setAclk n.val { c with phaseBad := 0 }
        s.Gives (.aclkZeroCrossing n pri sec) (s2.setAclk n.val { s2.aclk n.val with src2 := false, pulling := true, phaseBad := 0 })) ∧
      (s1.refLost n.val sec = false → s.phaseMag n.val ≤ 357913941 → c.qualPri < 4 →
        s.Gives (.aclkZeroCrossing n pri sec) ((s1.setAclk n.val { c with phaseBad := 0 }).followRef n.val sec))) ∧
    ((s.aclk n.val).st = .held →
      (4 ≤ c.qualPri → s.Gives (.aclkZeroCrossing n pri sec) (s1.relock n.val pri false)) ∧
      (c.qualPri < 4 → 4 ≤ c.qualSec → s.Gives (.aclkZeroCrossing n pri sec) (s1.relock n.val sec true)) ∧
      ∀ e b, ((s1.relock n.val e b).aclk n.val).st = .locked ∧ ((s1.relock n.val e b).aclk n.val).pulling = true ∧
        ((s1.relock n.val e b).aclk n.val).val = c.val ∧ ((s1.relock n.val e b).aclk n.val).src2 = b) ∧
    ((s.aclk n.val).st = .locked → 8 ≤ (if (s.aclk n.val).src2 then (s.aclk n.val).badSec else (s.aclk n.val).badPri) →
      s.Gives (.aclkSampleLoss n) (s.loseRef n.val)) ∧
    ((s.aclk n.val).st = .seeking → s.rf (Reg.IND_ACLK_CFG n.val) 30 28 = 2 → s.time * f % secU < 4 * nsU * f →
      let a := s.startCycle n.val (s.time * f / secU)
      s.Gives (.aclkFixedStart n) (s.startClock n.val a.1 (s.time * f % secU * (cycU / secU)) (f * hzU) .fixed a.2)) ∧
    ((s.aclk n.val).st = .held → s.rf (Reg.IND_ACLK_LIM n.val) 31 16 ≠ 0 → (s.aclk n.val).holdShown = false →
      s.rf (Reg.IND_ACLK_LIM n.val) 31 16 * cycU + (s.aclk n.val).heldFrom ≤ (s.aclk n.val).val →
      s.Gives (.aclkHoldExpire n) ((s.setAclk n.val { s.aclk n.val with holdShown := true }).aclkEvent n.val aclkHoldExpired false))

/-- An angle clock that loses its reference goes to a qualified secondary or to HELD at its tracked frequency (02_time_and_angle.md (R43)). A LOCKED
clock on its primary with a qualified secondary enabled stays LOCKED, now on the secondary and pulling in. Every other loss puts it in HELD with its
value and frequency kept and the correction gone. In each case only that clock changes among the angle clocks and only time state, registers,
messages and host-interface state among the areas. -/
def Obligations.AngleClockLoss : Prop :=
  ∀ (s : State) (n : Nat),
    let c := s.aclk n
    let u := s.loseRef n
    (c.src2 = false → s.rb (Reg.IND_ACLK_SRC2 n) 31 = true → 1 ≤ c.qualSec → (u.aclk n).st = c.st ∧ (u.aclk n).src2 = true ∧
      (u.aclk n).pulling = true ∧ (u.aclk n).val = c.val ∧ (u.aclk n).freq = c.freq) ∧
    ((c.src2 = true ∨ s.rb (Reg.IND_ACLK_SRC2 n) 31 = false ∨ c.qualSec = 0) →
      (u.aclk n).st = .held ∧ (u.aclk n).val = c.val ∧ (u.aclk n).freq = c.freq ∧ (u.aclk n).corr = 0 ∧ (u.aclk n).heldFrom = c.val) ∧
    (∀ m, m ≠ n → u.aclk m = s.aclk m) ∧ s.OnlyChanges u [.regs, .ind, .out, .hst]

/-- Links up and down, preemption verification, PLCA beacons, failures, collisions and jabber (03_ingress_and_classification.md ("Ports", R55, R56,
R60, R61, R62, R63)). A link that comes up sets its status bits and raises its event; one that goes down is not up any more. On a
link that is up, verification sends its packet, at most three times; the partner's verify packet is answered where preemption is enabled, and its
response ends a verification under way. The coordinator of a PLCA segment
begins a cycle of opportunities with a BEACON once the last cycle is over; another node begins it with the BEACON it hears. PLCA failure is reported
and remembered until it recovers. A collision is counted, under PLCA also as a PLCA collision with its event, and without PLCA the copy on the line
backs off. A frame that goes on past 3 ms on a segment is cut, counted and reported. -/
def Obligations.PortAndSegmentCommandsComplete : Prop :=
  ∀ (s : State) (p : Fin 16) (g : Fin 4) (why : LinkLoss) (f : Nat),
    let mode := s.rf (Reg.ETH_PORT_CFG p.val) 31 29
    (1 ≤ mode → mode ≤ 4 → s.rb (Reg.ETH_PORT_STATUS p.val) 2 = false → ∃ u, exec (.portLinkUp p) s = .next u ∧
      u.rb (Reg.ETH_PORT_STATUS p.val) 2 = true ∧ u.rb (Reg.ETH_PORT_STATUS p.val) 3 = true ∧ u.verify p.val = {} ∧
      u.rb (Reg.ETH_PORT_STATUS p.val) 4 = (3 ≤ mode && s.rb (Reg.ETH_PORT_CFG p.val) 25) ∧ s.OnlyChanges u [.regs, .ing, .out, .hst]) ∧
    (s.rb (Reg.ETH_PORT_STATUS p.val) 2 = true →
      s.Gives (.portLinkDown p why) (s.linkDown p.val why) ∧ (s.linkDown p.val why).rb (Reg.ETH_PORT_STATUS p.val) 2 = false ∧
      (s.rb (Reg.ETH_PREEMPT p.val) 31 = true → s.Gives (.preemptVerify p .partner) (s.emit (.verifyPacket p.val true))) ∧
      (s.rf (Reg.ETH_PORT_STATUS p.val) 7 5 = 1 → (s.verify p.val).tries < 3 → s.Gives (.preemptVerify p .attempt)
        (((s.setVerify p.val { tries := (s.verify p.val).tries + 1, at_ := s.up }).setRf (Reg.ETH_PORT_STATUS p.val) 7 5 2).emit
          (.verifyPacket p.val false))) ∧
      (s.rf (Reg.ETH_PORT_STATUS p.val) 7 5 = 2 →
        s.Gives (.preemptVerify p .response) (s.setRf (Reg.ETH_PORT_STATUS p.val) 7 5 3))) ∧
    (s.segOn g.val = true → s.rb (Reg.T1S_SEG_CFG g.val) 30 = true →
      (s.plcaNode g.val = 0 → s.beaconDue g.val = true → s.segBusy g.val = false →
        s.Gives (.plcaBeacon g) ((s.beaconCycle g.val).emit (.beacon g.val))) ∧
      (s.plcaNode g.val ≠ 0 → s.Gives (.plcaBeacon g) (s.beaconCycle g.val))) ∧
    (s.plcaOn g.val = true →
      s.Gives (.t1sPlcaFail g) { s.segEvent g.val 15 with pkt := { s.pkt with plcaFail := s.pkt.plcaFail.sd false g.val true } } ∧
      s.Gives (.t1sCollision g) (((s.inc (Reg.T1S_COLLISIONS g.val)).inc (Reg.T1S_PLCA_COLL g.val)).segEvent g.val 14)) ∧
    (s.segOn g.val = true → s.pkt.plcaFail.gd false g.val = true →
      s.Gives (.t1sPlcaRecover g) { s with pkt := { s.pkt with plcaFail := s.pkt.plcaFail.sd false g.val false } }) ∧
    (s.segOn g.val = true → s.plcaOn g.val = false → s.Gives (.t1sCollision g) ((s.inc (Reg.T1S_COLLISIONS g.val)).backOff g.val)) ∧
    (s.segOn g.val = true → (s.frame f).live = true → (s.frame f).tailAt = none → (s.frame f).port = 16 + g.val →
      (s.frame f).headAt + 3 * msU < s.up →
      s.Gives (.t1sJabberCutoff g f) (((s.inc (Reg.T1S_JABBER g.val)).segEvent g.val 13).frameTail f [] false false none))

/-- A frame's head, bytes, walk, classification, tail and oversize cut (03_ingress_and_classification.md (R57, R58, R59, R66, R69, R70, R78)). The
head of a frame on a port that can receive opens a frame record, once a preemptable frame still under assembly there has ended as a reassembly
error, and on a field segment takes the opportunity that is open; bytes that arrive are added and parsed; a parsed frame with 64 bytes, on a PRP
port with its tail, is classified 180 ns after its walk in its turn; the tail of a frame closes it, with the codewords of its FEC counted; a frame
of a port that reaches its largest length is cut there, marked bad and counted. HSR traffic of another node on a ring port is passed through in its
turn. -/
def Obligations.FrameReceptionCommandsComplete : Prop :=
  ∀ (s : State) (port : BitVec 5) (sub : Fin 4) (pre good re : Bool) (fc fu : BitVec 16) (f : Nat) (bytes : List Byte) (ext : Option SecExt),
    let x := s.frame f
    (s.canReceive port.toNat = true → (pre = true → port.toNat < 16 ∧ s.rb (Reg.ETH_PREEMPT port.toNat) 31 = true) →
      let z := if pre then each (s.assembling port.toNat) (fun y n => y.frameTail n [] false true none) s else s
      s.Gives (.frameHeadRx ⟨port, sub⟩ pre) ((if 16 ≤ port.toNat then z.plcaTake (port.toNat - 16) else z).newFrame port.toNat sub.val pre).2) ∧
    s.Gives (.parseWalk f bytes) (s.bytesIn f bytes) ∧ s.Gives (.packetByteArrival f bytes) (s.bytesIn f bytes) ∧
    (x.live = true → x.clsAt = none → x.thruOnly = false → x.parse.isSome = true → x.parsedAt + 180 * nsU ≤ s.up → 64 ≤ x.bytes.length →
      (s.onPrp x.port = true → x.tailAt.isSome = true) → s.clsBefore f = false → s.commitDue = false →
      s.Gives (.classify f) (s.classifyFrame f)) ∧
    (x.live = true → x.tailAt = none → x.port < 20 →
      let fec : Bool := x.port < 16 && s.rf (Reg.ETH_PORT_CFG x.port) 28 27 != 0
      s.Gives (.frameTailRx f bytes ⟨good, fc, fu⟩ re ext)
        ((s.countFec x.port fc.toNat fu.toNat).frameTail f bytes (good && (!fec || fu == 0)) re ext)) ∧
    (x.live = true → x.tailAt = none → x.port < 20 → s.maxLen x.port ≤ x.bytes.length →
      let z := s.updFrame f fun y => { y with bytes := y.bytes.take (s.maxLen x.port), fcsBad := true }
      s.Gives (.frameOversizeCut f)
        (((if x.port < 16 then z.inc (Reg.ETH_RX_OVERSIZE x.port) else z).countRx x.port (s.maxLen x.port) true false).closeFrame f)) ∧
    (∀ p seq r, s.thruLink f = some (p, seq, r) → s.thruBefore f = false → s.Gives (.hsrPassThrough f) (s.passThrough f p seq r))

/-- Duplicate entries expire, nodes are learned and forgotten, supervision frames are sent (03_ingress_and_classification.md ("Redundancy", R84,
R85, R87, R88)). An expired duplicate entry leaves the table and no other does. A supervision frame of a known node refreshes it; of a new node
appends it while the table holds fewer than 1,024 and otherwise counts it. A node not heard for 60 s is forgotten and no other is. Every 2 s a
redundant group sends a supervision frame with an advancing number. No command here changes any other group. -/
def Obligations.RedundancyTableCommandsComplete : Prop :=
  ∀ (s : State) (r : Fin 8) (src : BitVec 48) (seq : BitVec 16),
    let g := s.group r.val
    (∃ u, exec (.dupEntryExpire r src seq) s = .next u ∧ s.OnlyChanges u [.ing] ∧ (∀ j, j ≠ r.val → u.group j = s.group j) ∧
      (u.group r.val).nodes = g.nodes ∧
      (∀ e, e ∈ (u.group r.val).dup ↔ e ∈ g.dup ∧ ¬(e.matches src seq = true ∧ s.dupAlive r.val e = false))) ∧
    (s.redOn r.val = true → (∀ n ∈ g.nodes, n.src ≠ src) → g.nodes.length < 1024 →
      s.Gives (.supervisionFrameRx r src) (s.setGroup r.val { g with nodes := g.nodes ++ [{ src := src, at_ := s.up }] })) ∧
    (s.redOn r.val = true → (∀ n ∈ g.nodes, n.src ≠ src) → 1024 ≤ g.nodes.length →
      s.Gives (.supervisionFrameRx r src) (s.inc (Reg.ETH_RED_NODE_FULL r.val))) ∧
    (s.redOn r.val = true → (∃ n ∈ g.nodes, n.src = src) → s.Gives (.supervisionFrameRx r src)
      (s.setGroup r.val { g with nodes := g.nodes.map fun n => if n.src = src then { n with at_ := s.up } else n })) ∧
    (s.redOn r.val = true → g.supAt + 2 * secU ≤ s.up → s.Gives (.supervisionFrameTx r)
      ((s.setGroup r.val { g with supAt := s.up, supSeq := g.supSeq + 1 }).emit (.supervision r.val g.supSeq.toNat))) ∧
    (∃ u, exec (.nodeForget r src) s = .next u ∧ s.OnlyChanges u [.ing] ∧ (∀ j, j ≠ r.val → u.group j = s.group j) ∧
      (u.group r.val).dup = g.dup ∧ (∀ n, n ∈ (u.group r.val).nodes ↔ n ∈ g.nodes ∧ ¬(n.src = src ∧ n.at_ + 60 * secU ≤ s.up)))

/-- The commands of the classification table and of the stranger log (03_ingress_and_classification.md ("Classification table and lookup", R80, R81,
R83, R84)). A command that may be written and names a table with buckets completes: LOOKUP returns the slot of the key with its result, or
NOT_FOUND; INSERT is refused as malformed, as present or as full, or writes the slot R81 picks; UPDATE and DELETE act on the slot of the key, or
give NOT_FOUND; READ returns a valid slot, or NOT_FOUND, or BAD_INDEX past the table. On interface 0 INSERT, UPDATE and DELETE are denied to a
writer that is not ADMIN. The stranger log is read by selection and cleared by record or whole. -/
def Obligations.ClassifierCommandsComplete : Prop :=
  ∀ (s : State) (who : Accessor) (i : Fin 2) (val : Word),
    let v := fun op => putFld val 31 28 (8 + op)
    let t := fld val 27 27
    let key := s.clsKey i.val
    let r := s.clsRes i.val
    (s.mayWrite who (Reg.CLS_CMD i.val) = true → s.clsBuckets t ≠ 0 →
      (∀ n, s.clsFind t key = some n →
        s.Gives (.clsLookup who i val) ((s.clsReturn i.val (resWords (s.slotOf t n).res)).clsResult i.val (putFld (v 0) 15 0 n) 0)) ∧
      (s.clsFind t key = none → s.Gives (.clsLookup who i val) (s.clsResult i.val (v 0) 2)) ∧
      (s.clsBuckets t * 4 ≤ fld val 15 0 → s.Gives (.clsRead who i val) (s.clsResult i.val (v 4) 6)) ∧
      (fld val 15 0 < s.clsBuckets t * 4 → (s.slotOf t (fld val 15 0)).valid = false → s.Gives (.clsRead who i val) (s.clsResult i.val (v 4) 2)) ∧
      (fld val 15 0 < s.clsBuckets t * 4 → (s.slotOf t (fld val 15 0)).valid = true → ∃ u, exec (.clsRead who i val) s = .next u ∧
        (∀ w, w < 10 → u.reg (Reg.CLS_CMD_KEY i.val w) = BitVec.ofNat 32 ((s.slotOf t (fld val 15 0)).key.toNat / 2 ^ (32 * w))) ∧
        (∀ w, w < 6 → u.reg (Reg.CLS_CMD_RES i.val w) = wordAt (resWords (s.slotOf t (fld val 15 0)).res) w) ∧
        u.reg (Reg.CLS_CMD_STATUS i.val) = 0 ∧ s.OnlyChanges u [.regs]) ∧
      ((i.val = 0 → s.isAdmin who = true) →
        (badResult r = true → s.Gives (.clsInsert who i val) (s.clsResult i.val (v 1) 4) ∧ s.Gives (.clsUpdate who i val) (s.clsResult i.val (v 2) 4)) ∧
        (badResult r = false → (∀ n, s.clsFind t key = some n → s.Gives (.clsInsert who i val) (s.clsResult i.val (v 1) 1) ∧
            s.Gives (.clsUpdate who i val) ((s.setSlotOf t n { s.slotOf t n with res := resNat r }).clsResult i.val (v 2) 0)) ∧
          (s.clsFind t key = none → s.Gives (.clsUpdate who i val) (s.clsResult i.val (v 2) 2) ∧
            (∀ n, s.clsPlace t key = some n → s.Gives (.clsInsert who i val)
              ((s.setSlotOf t n { valid := true, bad := false, key := keyNat key, res := resNat r }).clsResult i.val (putFld (v 1) 15 0 n) 0)) ∧
            (s.clsPlace t key = none → s.Gives (.clsInsert who i val)
              (((s.inc Reg.CLS_INS_FAIL).sqc Reg.CLS_STATUS 3 134).clsResult i.val (v 1) 3)))) ∧
        (∀ n, s.clsFind t key = some n →
          s.Gives (.clsDelete who i val) ((s.setSlotOf t n { s.slotOf t n with valid := false }).clsResult i.val (v 3) 0)) ∧
        (s.clsFind t key = none → s.Gives (.clsDelete who i val) (s.clsResult i.val (v 3) 2)))) ∧
    (s.mayWrite who (Reg.CLS_CMD 0) = true → s.isAdmin who = false → s.Gives (.clsInsert who 0 val) (s.clsResult 0 (v 1) 5) ∧
      s.Gives (.clsUpdate who 0 val) (s.clsResult 0 (v 2) 5) ∧ s.Gives (.clsDelete who 0 val) (s.clsResult 0 (v 3) 5)) ∧
    (s.mayWrite who Reg.CLS_STR_SEL = true → s.Snapshots (.strangerSelect who val) Reg.CLS_STR_SEL (fld val 7 0) Reg.CLS_STR_DATA 12
      (wordAt (match s.stranger (fld val 7 0) with | some r => r.words | none => []))) ∧
    (s.mayWrite who Reg.CLS_STR_CLR = true →
      (tbit val 8 = true → ∃ u, exec (.strangerClear who val) s = .next u ∧ (∀ i, u.stranger i = none) ∧ s.OnlyChanges u [.ing]) ∧
      (tbit val 8 = false → ∃ u, exec (.strangerClear who val) s = .next u ∧ u.stranger (fld val 7 0) = none ∧
        (∀ i, i ≠ fld val 7 0 → u.stranger i = s.stranger i) ∧ s.OnlyChanges u [.ing]))

/-- The end of a previous epoch, windows, contexts, verdicts; a cell falls due; a stream is selected (04_frame_authentication.md (R96, R100, R101,
R113), 05_sample_planes.md (R127, R139, R140)). The hold of the previous key epoch ends at its time. RESET_WINDOW of a receive context, by ADMIN or
its owner, empties its window; else the status says BAD_INDEX or DENIED. Selecting a context or a stream shows its words. A frame whose verdict
instant has come, in its turn among the frames that are due, gets its verdict at that instant. The grid point of a stream at its due time is completed
where its cell is not written (no data with EV163 for a PAUSED stream, merged for a merged stream, else from the samples there are); once it is
written the stream goes on to the next and the cell 8 before it goes to history. -/
def Obligations.AuthenticationAndSampleCommandsComplete : Prop :=
  ∀ (s : State) (who : Accessor) (val : Word) (f : Nat) (k : BitVec 10),
    let i := s.rf Reg.AUT_CTX_SEL 11 0
    (s.aut.prevActive = true → s.aut.prevUntil ≤ s.up → ∃ u, exec .prevHoldExpire s = .next u ∧ u.aut = { s.aut with prevActive := false } ∧
      u.rb Reg.AUT_EPOCH_STATUS 1 = false ∧ s.RegsStay u [Reg.AUT_EPOCH_STATUS] ∧ s.OnlyChanges u [.regs, .aut]) ∧
    (s.mayWrite who Reg.AUT_CTX_CMD = true →
      (s.rxCtx i = 0 → s.Gives (.resetWindow who val) (s.setReg Reg.AUT_CTX_CMD_STATUS 6)) ∧
      (s.rxCtx i ≠ 0 → s.adminOrOwner who (s.autCtx i).owner = false →
        s.Gives (.resetWindow who val) ((s.setReg Reg.AUT_CTX_CMD_STATUS 5).sqc Reg.AUT_STATUS 11 151)) ∧
      (s.rxCtx i ≠ 0 → s.adminOrOwner who (s.autCtx i).owner = true → ∃ u, exec (.resetWindow who val) s = .next u ∧
        u.autCtx i = { s.autCtx i with high := none, window := 0 } ∧ (∀ j, j ≠ i → u.autCtx j = s.autCtx j) ∧
        u.reg Reg.AUT_CTX_CMD_STATUS = 0 ∧ s.RegsStay u [Reg.AUT_CTX_CMD_STATUS] ∧ s.OnlyChanges u [.regs, .aut])) ∧
    (s.mayWrite who Reg.AUT_CTX_SEL = true → s.Snapshots (.autCtxSelect who val) Reg.AUT_CTX_SEL (fld val 11 0) Reg.AUT_CTX_DATA 12
      (wordAt (s.ctxWords (fld val 11 0)))) ∧
    (s.mayWrite who Reg.SPE_STR_SEL = true → s.Snapshots (.streamSelect who val) Reg.SPE_STR_SEL (fld val 9 0) Reg.SPE_STR_DATA 14
      (wordAt (s.streamWords (fld val 9 0)))) ∧
    (s.verdictDue (s.frame f) = true → s.verdictBefore f = false → s.Gives (.verdict f) (s.giveVerdict f)) ∧
    (∀ g t, (s.stream k.toNat).due = some g → s.dueTime k.toNat g = some t → Frac.le t ⟨s.time, 1⟩ = true →
      let x := s.stream k.toNat
      let on := fun z : State => z.updStream k.toNat fun y => { y with due := some (g + 1) }
      let fin := fun z : State => if (z.stream k.toNat).wrote g then (if 8 ≤ g then (on z).histCopy k.toNat (g - 8) else on z) else z
      (x.st = .running ∨ x.st = .paused → x.wrote g = true → s.Gives (.cellDue k) (if 8 ≤ g then (on s).histCopy k.toNat (g - 8) else on s)) ∧
      (x.st = .paused → x.wrote g = false → s.Gives (.cellDue k) (fin ((s.voidCell k.toNat g).sqc Reg.SPE_STATUS 2 163))) ∧
      (x.st = .running → x.wrote g = false → x.merge = true → s.Gives (.cellDue k) (fin (s.mergeDue k.toNat g))) ∧
      (∀ v, x.st = .running → x.wrote g = false → x.merge = false → s.timeOfVal x.aclk (gridVal g (s.aclkG x.aclk)) = some v →
        s.Gives (.cellDue k) (fin (s.completeDue k.toNat g v))))

/-- Lane entry, dispatch to a thread, stage overrun and exit, lane exit, and the high-water reset (06_packet_lanes_and_switching.md (R145, R146,
R148, R149, R150, R153, R169)). A classified frame with a lane action enters its lane at its entry stage. The head of a stage's queue goes to the
thread idle longest, or passes without one where the lane says so, unless its rule-set epoch is retired or 64 packets are in the reorder buffer. A
packet held past TMAX is released as DROP with its event. The head of a reorder buffer leaves 8 ns after its release and after the exit before, once
its next stage has a place. A frame that has left its last stage leaves the lane in its turn. A write of a high-water mark clears it. -/
def Obligations.PacketLaneCommandsComplete : Prop :=
  ∀ (s : State) (who : Accessor) (f : Nat) (l : Fin 4) (st : Fin 8) (t : ThreadId),
    let x := s.frame f
    let q := 8 * l.val + st.val
    (x.live = true → x.loc = .ingress → x.clsAt.isSome = true → x.thruOnly = false → 1 ≤ x.action → x.action ≤ 3 → 64 ≤ x.bytes.length →
      s.Gives (.laneEntry f) (s.enterLane f (s.laneFor x).1 (s.laneFor x).2)) ∧
    (∀ rest, s.queue q = f :: rest →
      (s.retiredEpoch x = true → s.Gives (.stageDispatch l st) ((s.setQueue q rest).epochDrop f l.val)) ∧
      (s.retiredEpoch x = false → (s.rob q).length < 64 →
        (s.bypasses l.val x = true → s.Gives (.stageDispatch l st) (s.bypassStage f l.val st.val)) ∧
        (∀ k, s.bypasses l.val x = false → s.longestIdle (s.idleBound l.val st.val) = some k →
          s.Gives (.stageDispatch l st) ((s.takeHead f l.val st.val).takePacket f l.val st.val k)))) ∧
    (s.heldTooLong (tidNat t) = true → s.Gives (.stageOverrun t)
      ((((s.releasePkt (tidNat t) 2 0 0).updThr (tidNat t) fun th => { th with overrun := true }).inc
        (Reg.LAN_STG_OVERRUN (s.thrLane (tidNat t)) (s.thrStage (tidNat t)))).sqc Reg.LAN_STATUS 1 193)) ∧
    (∀ rest, s.rob q = f :: rest → x.loc = .reorder l.val st.val → x.relAt + 8 * nsU ≤ s.up → s.pkt.lastExit.gd 0 q + 8 * nsU ≤ s.up →
      s.waitsPlace f l.val st.val = false → s.Gives (.stageExit l st) (s.leaveStage f l.val st.val)) ∧
    (x.loc = .left l.val → x.live = true → s.exitBefore f l.val = false → s.thruWaits = false → s.Gives (.laneExit f) (s.exitLane f l.val)) ∧
    (s.mayWrite who (Reg.LAN_STG_QHWM l.val st.val) = true → ∃ u, exec (.qhwmReset who l st) s = .next u ∧
      u.reg (Reg.LAN_STG_QHWM l.val st.val) = 0 ∧ s.RegsStay u [Reg.LAN_STG_QHWM l.val st.val] ∧ s.OnlyChanges u [.regs])

/-- The start and the end of a transmission, and PAUSE (06_packet_lanes_and_switching.md (R158, R160, R161, R162, R163)). The head of the highest
class that competes starts where the line is free, its copy leaving its queue with its start time, after the fragment it cut off where it preempts; a
copy that was preempted and that nothing holds any more goes on first. A copy whose last byte has gone is sent, counted, freed, and the line is taken
for the gap. A PAUSE of a port with a link mode is counted as a frame of 64 bytes, and a port that obeys it stops for
the quanta, or goes on at zero quanta. A pause that has run out ends. A port paused without a break for its limit is flushed, counted, reported, and
ignores PAUSE for one second. -/
def Obligations.EgressAndPauseCommandsComplete : Prop :=
  ∀ (s : State) (e : Fin 22) (tc : Fin 8) (d b : Bool) (p : Fin 16) (quanta : BitVec 16) (n : Nat),
    (s.mayResume e.val = some n → s.Gives (.egressStart e tc) (s.resumeCopy e.val n s.up)) ∧
    (∀ rest, s.mayResume e.val = none → s.mayStart e.val tc.val = true → s.sending e.val = none → s.egq (egKey e.val tc.val) = n :: rest →
      s.Gives (.egressStart e tc) (s.startCopy e.val tc.val n false)) ∧
    (∀ m rest, s.mayStart e.val tc.val = true → s.sending e.val = some m → s.egq (egKey e.val tc.val) = n :: rest →
      s.Gives (.egressStart e tc) ((s.cutFragment e.val).startCopy e.val tc.val n true)) ∧
    (s.sending e.val = some n → s.copyEnds n ≤ s.up →
      ((s.copy n).kind = .frame → s.verdictDue (s.frame (s.copy n).fid) = false) → s.Gives (.egressEnd e d b) (s.egressEnd e.val d b) ∧
      ∃ u, exec (.egressEnd e d b) s = .next u ∧ s.OnlyChanges u [.regs, .fv, .out, .pkt, .och, .hst, .ddr, .dbg]) ∧
    (s.rf (Reg.ETH_PORT_CFG p.val) 31 29 ≠ 0 → ∃ u, exec (.pauseRx p quanta) s = .next u ∧
      u.reg (Reg.ETH_RX_FRAMES p.val) = s.reg (Reg.ETH_RX_FRAMES p.val) + 1 ∧
      (s.rb (Reg.ETH_PORT_CFG p.val) 26 = false → u.pkt = s.pkt) ∧
      (s.rb (Reg.ETH_PORT_CFG p.val) 26 = true → (s.pause p.val).ignoreUntil ≤ s.up →
        u.rb (Reg.SWC_EG_STATUS p.val) 2 = decide (quanta ≠ 0) ∧
        (quanta ≠ 0 → (u.pause p.val).until_ = s.up + spanU (quanta.toNat * 64 * s.byteTime p.val)) ∧
        (∀ j, j ≠ p.val → u.pause j = s.pause j)) ∧ s.OnlyChanges u [.regs, .pkt]) ∧
    (s.paused p.val = true → (s.pause p.val).until_ ≤ s.up → ∃ u, exec (.pauseQuantaExpire p) s = .next u ∧
      u.rb (Reg.SWC_EG_STATUS p.val) 2 = false ∧ u.pause p.val = { s.pause p.val with until_ := 0, since := none } ∧
      s.RegsStay u [Reg.SWC_EG_STATUS p.val] ∧ s.OnlyChanges u [.regs, .pkt]) ∧
    (s.pauseOld p.val = true → s.Gives (.pauseFlush p) (s.pauseFlush p.val) ∧
      ∃ u, exec (.pauseFlush p) s = .next u ∧ (u.pause p.val).ignoreUntil = s.up + secU ∧ u.rb (Reg.SWC_EG_STATUS p.val) 2 = false)

/-- The commands of the buffer manager and of the MAC table, the learning queue, and a visit of the aging sweep (07_buffers_and_tables.md (R180,
R182, R185, R188, R189, R190, R191, R192)). QUERY returns a descriptor; FREE and RECLAIM need ADMIN and RECOVERY, and report DENIED or STATE_REJECT
else; a write of a low-water mark sets it to the free count. LOOKUP and READ of the MAC table return a slot; INSERT, UPDATE, DELETE, FLUSH and CLEAR
act as R189 and R190 say, on interface 0 for ADMIN only. A taking read of the learning queue answers with what is left and shows the oldest record.
A visit of the sweep that is due clears HIT, or ages the slot out, unless a source lookup hits the slot in the same cycle, and goes on to the next
slot. -/
def Obligations.BufferAndMacTableCommandsComplete : Prop :=
  ∀ (s : State) (who : Accessor) (i : Fin 2) (p : Fin 4) (val : Word),
    let v := fun op => putFld val 31 28 (8 + op)
    let e := s.fwdStaged i.val
    let y := s.fwdDetect e.fid e.mac
    let j := s.rf Reg.FWD_SWEEP 15 0
    (s.mayWrite who Reg.OCH_CMD = true →
      (s.handleOk (fld val 14 0) = true → (s.buf (fld val 14 0)).bad = false → ∃ u, exec (.ochQuery who val) s = .next u ∧ u.reg Reg.OCH_CMD_RES = s.descWord (fld val 14 0) ∧
        u.reg Reg.OCH_CMD_STATUS = 0 ∧ s.RegsStay u [Reg.OCH_CMD_RES, Reg.OCH_CMD, Reg.OCH_CMD_STATUS] ∧ s.OnlyChanges u [.regs]) ∧
      (s.handleOk (fld val 14 0) = false → s.Gives (.ochQuery who val) (s.ochResult (v 0) 6)) ∧
      (s.isAdmin who = false → s.Gives (.ochCmdFree who val) (s.ochResult (v 1) 5) ∧ s.Gives (.ochReclaim who val) (s.ochResult (v 2) 5)) ∧
      (s.isAdmin who = true → s.pwr.st ≠ .recovery →
        s.Gives (.ochCmdFree who val) (s.ochResult (v 1) 7) ∧ s.Gives (.ochReclaim who val) (s.ochResult (v 2) 7)) ∧
      (s.isAdmin who = true → s.pwr.st = .recovery → s.Gives (.ochReclaim who val) ((s.reclaim (fld val 27 22)).ochResult (v 2) 0) ∧
        (s.handleOk (fld val 14 0) = false → s.Gives (.ochCmdFree who val) (s.ochResult (v 1) 6)) ∧
        (s.handleOk (fld val 14 0) = true → s.Gives (.ochCmdFree who val) ((s.freeBuf (fld val 14 0) (fld val 27 22)).2.ochResult (v 1)
          (if (s.freeBuf (fld val 14 0) (fld val 27 22)).1 then 0 else 8))))) ∧
    (s.mayWrite who (Reg.OCH_POOL_LOW p.val) = true →
      s.Gives (.poolLowReset who p) (s.setReg (Reg.OCH_POOL_LOW p.val) (BitVec.ofNat 32 (s.poolFree p.val)))) ∧
    (s.mayWrite who (Reg.FWD_CMD i.val) = true →
      (∀ k, y.fwdFind e.fid e.mac = some k →
        s.Gives (.fwdLookup who i val) ((y.fwdReturn i.val (y.mac k)).fwdResult i.val (putFld (v 0) 15 0 k) 0)) ∧
      (y.fwdFind e.fid e.mac = none → s.Gives (.fwdLookup who i val) (y.fwdResult i.val (v 0) (if y.fwdParity e.fid e.mac then 7 else 2))) ∧
      ((s.mac (fld val 15 0)).isBad = false →
        s.Gives (.fwdRead who i val) ((s.fwdReturn i.val (s.mac (fld val 15 0))).fwdResult i.val (v 4) 0)) ∧
      ((s.mac (fld val 15 0)).isBad = true →
        s.Gives (.fwdRead who i val) ((s.fwdBad.fwdReturn i.val (s.mac (fld val 15 0))).fwdResult i.val (v 4) 0)) ∧
      ((i.val = 0 → s.isAdmin who = true) →
        (e.egress = 0 → s.Gives (.fwdInsert who i val) (s.fwdResult i.val (v 1) 4) ∧ s.Gives (.fwdUpdate who i val) (s.fwdResult i.val (v 2) 4)) ∧
        (e.egress ≠ 0 → y.fwdParity e.fid e.mac = false → s.Gives (.fwdInsert who i val)
          ((y.fwdPlace e).2.2.fwdResult i.val (if (y.fwdPlace e).1 = 3 then v 1 else putFld (v 1) 15 0 (y.fwdPlace e).2.1) (y.fwdPlace e).1)) ∧
        (∀ k, y.fwdFind e.fid e.mac = some k →
          (e.egress ≠ 0 → s.Gives (.fwdUpdate who i val) ((y.putMac k ((y.mac k).update e)).fwdResult i.val (putFld (v 2) 15 0 k) 0)) ∧
          s.Gives (.fwdDelete who i val) ((y.putMac k (y.mac k).drop).fwdResult i.val (v 3) 0)) ∧
        s.Gives (.fwdFlush who i val) (s.fwdFlushCmd i.val (v 5)) ∧ s.Gives (.fwdClear who i val) ((s.putMac (fld val 15 0) {}).fwdResult i.val (v 6) 0))) ∧
    (s.mayWrite who (Reg.FWD_CMD 0) = true → s.isAdmin who = false → ∀ c ∈ [(Instr.fwdInsert who 0 val, 1), (.fwdUpdate who 0 val, 2),
      (.fwdDelete who 0 val, 3), (.fwdFlush who 0 val, 5), (.fwdClear who 0 val, 6)], s.Gives c.1 (s.fwdResult 0 (v c.2) 5)) ∧
    (s.mayTake who Reg.FWD_LQ_POP = true → (s.och.learn = [] → s.Gives (.fwdLqPop who) (s.emit (.readData Reg.FWD_LQ_POP 0))) ∧
      (∀ r rest, s.och.learn = r :: rest → ∃ u, exec (.fwdLqPop who) s = .next u ∧ u.och = { s.och with learn := rest } ∧
        (∀ w, w < 4 → u.reg (Reg.FWD_LQ_DATA w) = wordAt r w) ∧
        u.out = .readData Reg.FWD_LQ_POP (BitVec.ofNat 32 (2147483648 + rest.length)) :: s.out ∧ s.OnlyChanges u [.regs, .och, .out])) ∧
    (s.sweepDue = true → (s.mac j).isBad = false → (s.mac j).valid = true → (s.mac j).static_ = false →
      let on := fun z : State =>
        let z1 := z.setRf Reg.FWD_SWEEP 15 0 (j + 1)
        { z1 with och := { z1.och with sweepAt := s.och.sweepAt + s.sweepStep } }
      (s.och.macHitAt = s.up → j ∈ s.och.macHits → s.Gives .agingSweepVisit (on s)) ∧
      (¬(s.och.macHitAt = s.up ∧ j ∈ s.och.macHits) →
        ((s.mac j).hit = true → s.Gives .agingSweepVisit (on (s.setMac j { s.mac j with w2 := putBit (s.mac j).w2 29 false }))) ∧
        ((s.mac j).hit = false → s.Gives .agingSweepVisit
          (on (((s.setMac j (s.mac j).drop).learnPost 2 0 j (s.mac j).fid (s.mac j).mac).inc Reg.FWD_AGED)))))

/-- The strobes of a tick: evaluation of an angle clock, a general instant unit, the commit (02_time_and_angle.md (R45, R47, R49, R50, R504)). In
the order commit, evaluations by clock, units, each strobe happens when its point is reached and nothing before it in the tick is still due: an
evaluation advances the clock's counts, records the evaluation number, latches the heads, wakes the tasks bound to it and strobes the voter; a unit
that fires re-arms, shows its result and FIRED, raises EV042 where it is late, and strikes its target; an armed commit that is reached commits. -/
def Obligations.StrobeCommandsComplete : Prop :=
  ∀ (s : State) (n : Fin 16) (u : Fin 32) (a : ArmedInstant),
    let c := s.aclk n.val
    let e := s.aclkE n.val
    let num := (c.nextC % 4294967296 * e + c.nextK) % 1099511627776
    let off := Reg.IND_INST_STATUS u.val
    let tgt := s.rf (Reg.IND_INST_TARGET u.val) 1 0
    (s.evalDue n.val = true → s.commitDue = false → (∀ m, m < n.val → s.evalDue m = false) → s.Gives (.evalStrobe n)
      ((((((s.setAclk n.val (if c.nextK + 1 < e then { c with nextK := c.nextK + 1 } else { c with nextC := c.nextC + 1, nextK := 0 })).setReg
        (Reg.IND_ACLK_EVAL_LO n.val) (BitVec.ofNat 32 num)).setReg (Reg.IND_ACLK_EVAL_HI n.val) (BitVec.ofNat 32 (num / 4294967296))).latchHeads
        n.val num).wakeEval n.val num).strobeVoter n.val num)) ∧
    (s.unit u.val = some a → s.instReached a = true → s.commitDue = false → (∀ m, m < 16 → s.evalDue m = false) →
      (∀ v, v < u.val → s.unitDue v = false) →
      (a.late = false → s.Gives (.generalInstantFire u)
        ((((s.setUnit u.val (s.rearm a)).setRf off 2 0 (fireCode a)).sqcEach off 7 (if tgt = 0 then 45 else noEvent)).strikeTarget tgt
          (s.rf (Reg.IND_INST_TARGET u.val) 15 8))) ∧
      (a.late = true → s.Gives (.generalInstantFire u)
        (((((s.setUnit u.val (s.rearm a)).setRf off 2 0 (fireCode a)).sqcEach off 7 (if tgt = 0 then 45 else noEvent)).deliver 42).strikeTarget tgt
          (s.rf (Reg.IND_INST_TARGET u.val) 15 8)))) ∧
    (s.ind.commit = some a → s.instReached a = true → s.Gives .commitStrobe (s.commitNow a))

/-- Control commands of a cluster, its supervisor interrupt, its fault, deadlock and channel commands (08_rospel_core.md (R203, R204, R206, R207,
R208, R209, R212, R213, R215)). By one with authority over the target, RESUME restarts a FAULTED thread at the argument address, KILL ends it,
ABORT_WAIT ends a wait; on a target in another state they report STATE_REJECT; without authority, DENIED. A thread faulted past its time is killed
and counted. A supervisor that may take its lowest pending cause goes to that cause's handler with IE clear and the old address in word 0x1FF. A
mask kept too long is counted and reported once. A group blocked for its time posts a deadlock record, lost where four wait; one that stays blocked
escalates once. The pop registers answer with what is left and show the oldest record. A channel held by a halted filler is aborted under a debug
grant. -/
def Obligations.SupervisorControlCommandsComplete : Prop :=
  ∀ (s : State) (who : Accessor) (c : Fin 6) (g : Fin 16) (val : Word) (t : ThreadId),
    let v := fun op => putFld val 31 28 (8 + op)
    let k := tidNat t
    let sup := 128 * c.val
    let ch := 64 * c.val + fld val 5 0
    let w := s.wgroup (16 * c.val + g.val)
    (s.mayWrite who (Reg.CLU_CTL_CMD c.val) = true → s.ctlAllowed who (s.ctlPart c.val val) = true →
      (∀ j, s.ctlThread c.val val = some j → (s.thr j).st = .faulted →
        s.Gives (.ctlResume who c val) ((s.resumeThread j (BitVec.ofNat 16 (s.rf (Reg.CLU_CTL_ARG c.val) 15 0))).ctlResult c.val (v 1) 0) ∧
        s.Gives (.ctlKill who c val) ((s.killThread j).ctlResult c.val (v 2) 0)) ∧
      ((∀ j, s.ctlThread c.val val = some j → (s.thr j).st ≠ .faulted) →
        s.Gives (.ctlResume who c val) (s.ctlResult c.val (v 1) 7) ∧ s.Gives (.ctlKill who c val) (s.ctlResult c.val (v 2) 7)) ∧
      (s.agentWaiting (s.ctlAgent c.val val) = true →
        s.Gives (.ctlAbortWait who c val) ((s.abortWait (s.ctlAgent c.val val)).ctlResult c.val (v 3) 0)) ∧
      (s.agentWaiting (s.ctlAgent c.val val) = false → s.Gives (.ctlAbortWait who c val) (s.ctlResult c.val (v 3) 7))) ∧
    (s.mayWrite who (Reg.CLU_CTL_CMD c.val) = true → s.ctlAllowed who (s.ctlPart c.val val) = false →
      s.Gives (.ctlResume who c val) (s.ctlResult c.val (v 1) 5) ∧ s.Gives (.ctlKill who c val) (s.ctlResult c.val (v 2) 5) ∧
      s.Gives (.ctlAbortWait who c val) (s.ctlResult c.val (v 3) 5)) ∧
    ((s.thr k).st = .faulted → (s.thr k).faultAt + s.rf (Reg.CLU_SUP_TMO (k / 128)) 15 0 * usU ≤ s.up →
      s.Gives (.faultTimeoutKill t) ((s.killThread k).inc (Reg.CLU_FLT_TMO_KILL (k / 128)))) ∧
    (∀ n, s.supCause c.val = some n → (s.thr sup).ie = true → ((s.thr sup).st = .ready ∨ (s.thr sup).st = .waiting) →
      ∃ u, exec (.supervisorInterrupt c) s = .next u ∧ (u.thr sup).st = .ready ∧ (u.thr sup).ie = false ∧ (u.thr sup).wait = none ∧
        (u.thr sup).ctx = { (s.thr sup).ctx with pc := BitVec.ofNat 16 (s.rf (Reg.CLU_SUP_CFG c.val) 31 16 + 16 * (1 + n)) } ∧
        (u.thr sup).dp.gd 0 0x1FF = BitVec.ofNat 32 (s.thr sup).ctx.pc.toNat ∧ (∀ j, j ≠ 0x1FF → (u.thr sup).dp.gd 0 j = (s.thr sup).dp.gd 0 j) ∧
        (∀ j, j ≠ sup → u.thr j = s.thr j) ∧ s.OnlyChanges u [.clu]) ∧
    (∀ m, (s.thr sup).maskAt = some m → (s.thr sup).ie = false → s.rf (Reg.CLU_SUP_CFG c.val) 9 0 * 16 < coreCycles (s.up - m) →
      s.Gives (.maskMaxExceeded c)
        (((s.updThr sup fun x => { x with maskAt := none }).inc (Reg.CLU_MASK_EXP c.val)).sqc (Reg.CLU_CORE_STATUS c.val) 2 (226 + 8 * c.val))) ∧
    (∀ x, w.since = some x → s.groupBlocked c.val g.val = true → w.posted = none → s.groupHalted c.val g.val = false →
      x + s.rf (Reg.CLU_DL_CFG c.val g.val) 15 0 * usU ≤ s.up →
      let s1 := s.setWgroup (16 * c.val + g.val) { w with posted := some s.up, episode := w.episode + 1 }
      (4 ≤ (s.dlq c.val).length → s.Gives (.deadlockDetect c g)
        (((s1.inc (Reg.CLU_DL_OVF c.val)).inc (Reg.CLU_DL_RECORDS c.val)).sqc (Reg.CLU_CORE_STATUS c.val) 3 (227 + 8 * c.val))) ∧
      ((s.dlq c.val).length < 4 → s.Gives (.deadlockDetect c g)
        (((s1.setDlq c.val (s.dlq c.val ++ [s1.deadlockRecord c.val g.val])).inc (Reg.CLU_DL_RECORDS c.val)).sqc (Reg.CLU_CORE_STATUS c.val) 3
          (227 + 8 * c.val)))) ∧
    (∀ x, w.posted = some x → s.groupBlocked c.val g.val = true → w.esc = false → x + s.rf (Reg.CLU_SUP_TMO c.val) 31 16 * usU ≤ s.up →
      s.Gives (.deadlockEscalate c g) ((s.setWgroup (16 * c.val + g.val) { w with esc := true }).sqc (Reg.CLU_CORE_STATUS c.val) 4 (228 + 8 * c.val))) ∧
    (s.mayTake who (Reg.CLU_FLT_POP c.val) = true → s.fltq c.val = [] → s.Gives (.fltPop who c) (s.emit (.readData (Reg.CLU_FLT_POP c.val) 0))) ∧
    (∀ r rest, s.mayTake who (Reg.CLU_FLT_POP c.val) = true → s.fltq c.val = r :: rest → ∃ u, exec (.fltPop who c) s = .next u ∧
      u.fltq c.val = rest ∧ (∀ i, i < 4 → u.reg (Reg.CLU_FLT_DATA c.val i) = wordAt r i) ∧
      u.out = .readData (Reg.CLU_FLT_POP c.val) (BitVec.ofNat 32 (2147483648 + rest.length)) :: s.out ∧ s.OnlyChanges u [.regs, .clu, .out]) ∧
    (s.mayTake who (Reg.CLU_DL_POP c.val) = true → s.dlq c.val = [] → s.Gives (.dlPop who c) (s.emit (.readData (Reg.CLU_DL_POP c.val) 0))) ∧
    (∀ r rest, s.mayTake who (Reg.CLU_DL_POP c.val) = true → s.dlq c.val = r :: rest → ∃ u, exec (.dlPop who c) s = .next u ∧
      u.dlq c.val = rest ∧ (∀ i, i < 12 → u.reg (Reg.CLU_DL_DATA c.val i) = wordAt r i) ∧
      u.out = .readData (Reg.CLU_DL_POP c.val) (BitVec.ofNat 32 (2147483648 + rest.length)) :: s.out ∧ s.OnlyChanges u [.regs, .clu, .out]) ∧
    (s.mayWrite who (Reg.CLU_CHN_CMD c.val) = true →
      (s.dbgAllowed who (s.chanTx ch) true = false → s.Gives (.chnAbort who c val) ((s.inc Reg.DBG_DENIED).setReg (Reg.CLU_CHN_CMD_STATUS c.val) 5)) ∧
      (s.dbgAllowed who (s.chanTx ch) true = true → (s.chan ch).st ≠ .held → s.Gives (.chnAbort who c val) (s.setReg (Reg.CLU_CHN_CMD_STATUS c.val) 7)) ∧
      (s.dbgAllowed who (s.chanTx ch) true = true → (s.chan ch).st = .held →
        s.Gives (.chnAbort who c val) ((s.abortChan ch).setReg (Reg.CLU_CHN_CMD_STATUS c.val) 0)))

/-- Assignment, preemption, switch, staging, timers, budgets, ACTIVATE, CANCEL and the task snapshot (11_task_dispatcher.md (R264, R265, R267, R268,
R271, R272, R274, R280)). The first ready task that an idle or a preemptible thread can take is assigned to it. A task that is to leave is saved at
its boundary and its thread vacated. A staged task coming in is switched into an idle thread, counted and traced. The task that a thread would next
be assigned is staged for it. A timer that is reached fires, re-arms and wakes its tasks; a late one is reported. A run over its budget is marked
once, counted, traced and reported, and ends where OVR_ACT says so. ACTIVATE wakes a task, CANCEL clears its pending wakes, each with its status; a
disabled task gives STATE_REJECT, a writer without authority DENIED. A snapshot shows a task's words. -/
def Obligations.DispatcherCommandsComplete : Prop :=
  ∀ (s : State) (who : Accessor) (c : Fin 6) (u : Fin 32) (val : Word) (t : ThreadId) (task : Fin 1024),
    let k := tidNat t
    let cl := k / 128
    let th := s.thr k
    let n := 1024 * c.val + fld val 9 0
    (∀ m j b, s.firstAssignable c.val = some (m, j, b) → s.Gives (.taskAssign c)
      ((s.unready m).updThr j fun x => { x with incoming := some (m % 1024), leaving := x.leaving || b })) ∧
    (th.leaving = true → th.task.isSome = true → s.drained k = true →
      let s1 := ((s.leaveThread k 2).inc (Reg.CLU_DSP_PREEMPTS cl)).pmuClu cl 0x43 {} 1
      (th.st = .ready → s.Gives (.taskPreempt t) (s1.readyHead (s.taskOn k))) ∧ (th.st = .waiting → s.Gives (.taskPreempt t) s1)) ∧
    (∀ i, th.incoming = some i → th.st = .idle → th.staged = some i →
      let s1 := ((s.inc (Reg.CLU_DSP_SWITCHES cl)).pmuClu cl 0x41 {} 1).pmuCore cl (k % 128 / 8) 0x0D {} 1
      s.Gives (.taskSwitch t) (((s1.switchIn k (1024 * cl + i)).updThr k fun x => { x with staged := none }).trace cl (s.task (1024 * cl + i)).part
        th.outTask (some i) k (if th.outTask.isSome then th.outReason else 1) (s.task (1024 * cl + i)).prio (s.task (1024 * cl + i)).aux)) ∧
    (s.stageFor k = some (1024 * cl + task.val) →
      ∃ y, exec (.stagingLoad t task) s = .next y ∧ y.thr k = { th with staged := some task.val } ∧ (∀ j, j ≠ k → y.thr j = s.thr j) ∧
        s.OnlyChanges y [.clu]) ∧
    (∀ a, s.timer (32 * c.val + u.val) = some a → s.instReached a = true →
      let s1 := (s.setTimer (32 * c.val + u.val) (s.rearm a)).fireResult (Reg.CLU_DSP_TMR_STATUS c.val u.val) (fireCode a)
      s.Gives (.dispatcherTimerFire c u)
        ((if a.late then (s1.sqc (Reg.CLU_DSP_STATUS c.val) 5 (230 + 8 * c.val)).deliver 42 else s1).wakeSource c.val 2 u.val causeTimer (BitVec.ofNat 32 u.val))) ∧
    (th.task.isSome = true → th.st ≠ .halted → fld (s.task (s.taskOn k)).w3 31 16 ≠ 0 → (s.task (s.taskOn k)).ovr = false →
      fld (s.task (s.taskOn k)).w3 31 16 * 16 < s.runUsed (s.taskOn k) →
      let x := s.task (s.taskOn k)
      let s1 := (((s.updTask (s.taskOn k) fun y => { y with ovr := true }).inc (Reg.CLU_DSP_OVERRUNS cl)).trace cl x.part none
        (some (s.taskOn k % 1024)) k 8 x.prio x.aux).sqc (Reg.CLU_DSP_STATUS cl) 0 (230 + 8 * cl)
      s.Gives (.budgetOverrun t) (if tbit x.w0 14 then s1.forceEnd (s.taskOn k) 6 else s1)) ∧
    (s.mayWrite who (Reg.CLU_DSP_CMD c.val) = true →
      (s.ctlAllowed who (s.taskPart n) = false → s.Gives (.activate who c val) (s.dspResult c.val (putFld val 31 28 9) 5) ∧
        s.Gives (.cancel who c val) (s.dspResult c.val (putFld val 31 28 10) 5)) ∧
      (s.ctlAllowed who (s.taskPart n) = true → (s.task n).st = .disabled → s.Gives (.activate who c val) (s.dspResult c.val (putFld val 31 28 9) 7) ∧
        s.Gives (.cancel who c val) (s.dspResult c.val (putFld val 31 28 10) 7)) ∧
      (s.ctlAllowed who (s.taskPart n) = true → (s.task n).st ≠ .disabled →
        s.Gives (.activate who c val) ((s.wake n causeActivate (s.reg (Reg.CLU_DSP_CMD_ARG c.val))).dspResult c.val (putFld val 31 28 9) 0) ∧
        (∃ y, exec (.cancel who c val) s = .next y ∧ y.task n = { s.task n with pend := false, pendCauses := 0, pendAux := 0, retrPend := false, retr := none, merged := false } ∧
          (∀ j, j ≠ n → y.task j = s.task j) ∧ y.reg (Reg.CLU_DSP_CMD_STATUS c.val) = 0 ∧
          s.RegsStay y [Reg.CLU_DSP_CMD c.val, Reg.CLU_DSP_CMD_STATUS c.val] ∧ s.OnlyChanges y [.regs, .clu]))) ∧
    (s.mayWrite who (Reg.CLU_TCB_SEL c.val) = true →
      s.Snapshots (.tcbSelect who c val) (Reg.CLU_TCB_SEL c.val) (fld val 9 0) (Reg.CLU_TCB_DATA c.val) 8 (wordAt (s.tcbWords n)))

/-- What a wake does to a task in each of its states (11_task_dispatcher.md (R266)). A wake counts in the cluster's performance counters. It leaves
a DISABLED task alone; makes a DORMANT task READY at the tail of its level with its cause and word; is remembered with its cause and word by any
other task that has none pending; else it is lost, counted in DSP_WAKE_LOST, and the task that is awake keeps the pending wake it has. No task but
the one named changes its state. -/
def Obligations.WakeRule : Prop :=
  ∀ (s : State) (n cause : Nat) (aux : Word), n < 6 * 1024 → s.taskDrains n = false →
    let u := s.wake n cause aux
    ((s.task n).st = .disabled → u.task n = s.task n) ∧
    ((s.task n).st = .dormant → (u.task n).st = .ready ∧ (u.task n).causes = cause ∧ (u.task n).aux = aux) ∧
    ((s.task n).st ≠ .disabled → (s.task n).st ≠ .dormant → (s.task n).pend = false →
      u.task n = { s.task n with pend := true, pendCauses := cause, pendAux := aux }) ∧
    ((s.task n).st ≠ .disabled → (s.task n).st ≠ .dormant → (s.task n).pend = true → u.task n = { s.task n with lost := true } ∧
      u.reg (Reg.CLU_DSP_WAKE_LOST (n / 1024)) = s.reg (Reg.CLU_DSP_WAKE_LOST (n / 1024)) + 1) ∧
    (∀ j, j ≠ n → u.task j = s.task j)

/-- Words staged, posts, takes, and the try that a read of a lock is (12_shared_memory_locks_mailboxes.md (R287, R289, R293, R294, R295, R297)). The
sending side stages one of four words. A post over an empty host mailbox fills it with its words (those past its length zero) and the next sequence
number; over an untaken message it collides, is counted and reported; on a peer mailbox it goes out as a cell, or is lost while the pair link is
down. A take by the receiving side answers FULL, COLLIDED and MSEQ, moves the message to the take words and clears both; the sending side reads zero
and takes nothing. A read of a lock's REQ answers the status of a request that never waits. No mailbox but the one named changes. -/
def Obligations.MailboxAndLockTryCommandsComplete : Prop :=
  ∀ (s : State) (who : Accessor) (c : Fin 6) (m : BitVec 8) (w : Fin 4) (val : Word) (t : ThreadId) (glob : Bool) (i : BitVec 8),
    let b := s.mbox m.toNat
    let off := Reg.MB_TAKE c.val (m.toNat % 128)
    (s.mbEn c.val m.toNat = true → s.mbReach who c.val m.toNat = true → s.mbSends who c.val m.toNat = true →
      (∃ u, exec (.mbDataWrite who c m w val) s = .next u ∧ u.mbox m.toNat = { b with stage := b.stage.set w.val val } ∧
        (∀ j, j ≠ m.toNat → u.mbox j = s.mbox j) ∧ s.OnlyChanges u [.clu]) ∧
      ((∀ t', who ≠ .thread t') → m.toNat < 128 → b.full = false → s.mbDir c.val m.toNat = false → s.tasksOfSource c.val 4 m.toNat = [] →
        ∃ u, exec (.mbPost who c m val) s = .next u ∧
          u.mbox m.toNat = { b with msg := mailWords b.stage (fld val 1 0 + 1), mseq := b.mseq + 1, full := true } ∧
          (∀ j, j ≠ m.toNat → u.mbox j = s.mbox j) ∧ s.OnlyChanges u [.clu]) ∧
      s.Gives (.mbPost who c m val) ((s.releaseBy who).mbPostNow c.val m.toNat val) ∧
      s.Gives (.mbTake who c m) (s.emit (.readData off 0))) ∧
    (s.mbReach who c.val m.toNat = true → s.mbSends who c.val m.toNat = false →
      ∃ u, exec (.mbTake who c m) s = .next u ∧ u.out = .readData off (s.mbTakeWord m.toNat) :: s.out ∧
        (b.full = true → u.mbox m.toNat = { b with take := b.msg, full := false, coll := false }) ∧ (b.full = false → u.clu = s.clu) ∧
        (∀ j, j ≠ m.toNat → u.mbox j = s.mbox j) ∧ s.OnlyChanges u [.clu, .out]) ∧
    ((glob = true ∨ i.toNat < 64) → s.Gives (.lockTryRead t glob i)
      ((s.lockTry (tidNat t) glob i.toNat).2.emit (.readData (lockReqAddr glob i.toNat) (s.lockTry (tidNat t) glob i.toNat).1)))

/-- VPOST, the partner's votes, reset of a latched channel, disagreement records, retransmission, the snapshot of a PCB
(12_shared_memory_locks_mailboxes.md (R286), 13_trip_voter_and_field_io.md (R301, R302, R305, R307, R309, R320), 18_pair_link.md (R428),
09_instruction_set.md (R239)). A pooled task that issues VPOST posts its word with its marks once its stores are visible. A vote cell of the partner
with a good CRC whose number has not been taken is counted while the link is up and decided by every slot that names it, where there is one; a bad
cell is only counted. A latched TRIPPED channel whose votes have gone goes IDLE by ADMIN's reset; else DENIED or
STATE_REJECT. A taking read of the disagreement queue shows the oldest record. A publication whose interval has passed, with no lane exit before it
in the cycle, goes out again with the next number and the interval doubled up to its limit. A snapshot shows a PCB's words. -/
def Obligations.VoterCommandsComplete : Prop :=
  ∀ (s : State) (who : Accessor) (t : ThreadId) (gs : Fin 8) (ch : BitVec 8) (cl : Fin 6) (task : BitVec 10) (trip prov : Bool) (seq : BitVec 16) (val : Word)
    (b : BitVec 9),
    let k := tidNat t
    let x := (s.counted t 1).drainStores k
    let y := { s with pai := { s.pai with rxVote := (seq :: s.pai.rxVote).take 32768 } }.inc Reg.PAI_VOTE_RX
    let ks := y.slotsOf ch.toNat 2 cl.val task.toNat
    let n := fld val 7 0
    let e := fun (z : State) (res : Nat) => (z.setReg Reg.VRM_CMD (masked Reg.VRM_CMD (putFld val 31 28 1))).setReg Reg.VRM_CMD_STATUS (BitVec.ofNat 32 res)
    let p := s.pcb b.toNat
    (∀ i, (s.thr k).task = some i → s.RunsAs t (.vpost t gs) [.g gs]
      ((x.postVote (k / 128) i ((s.thr k).ctx.g[gs]) (s.thr k).ctx.taint (s.thr k).ctx.mark).fellThrough t 1)) ∧
    (s.pairUp = true → seq ∉ s.pai.rxVote → (y.vch ch.toNat).st ≠ 2 → ks ≠ [] →
      s.Gives (.pairVoteRx ⟨true, seq, ch⟩ cl task trip prov) ((y.decide_ ch.toNat ks trip prov).publishChanges)) ∧
    (s.pairUp = true → seq ∉ s.pai.rxVote → ((y.vch ch.toNat).st = 2 ∨ ks = []) → s.Gives (.pairVoteRx ⟨true, seq, ch⟩ cl task trip prov) y) ∧
    s.Gives (.pairVoteRx ⟨false, seq, ch⟩ cl task trip prov) (s.inc Reg.PAI_CELL_ERR) ∧
    (s.mayWrite who Reg.VRM_CMD = true →
      (s.isAdmin who = false → s.Gives (.vrmReset who val) (e s 5)) ∧
      (s.isAdmin who = true → s.tripped n = true → s.rb (Reg.VRM_CH_CFG n) 12 = true → s.chT n < s.chKeff n →
        s.Gives (.vrmReset who val) (e (s.untrip n 0).publishChanges 0)) ∧
      (s.isAdmin who = true → ¬(s.tripped n = true ∧ s.rb (Reg.VRM_CH_CFG n) 12 = true ∧ s.chT n < s.chKeff n) → s.Gives (.vrmReset who val) (e s 7))) ∧
    (s.mayTake who Reg.VRM_DIS_POP = true → (s.vrm.disq = [] → s.Gives (.vrmDisPop who) (s.emit (.readData Reg.VRM_DIS_POP 0))) ∧
      (∀ r rest, s.vrm.disq = r :: rest → ∃ u, exec (.vrmDisPop who) s = .next u ∧ u.vrm = { s.vrm with disq := rest } ∧
        (∀ w, w < 5 → u.reg (Reg.VRM_DIS_DATA w) = wordAt r w) ∧
        u.out = .readData Reg.VRM_DIS_POP (BitVec.ofNat 32 (2147483648 + rest.length)) :: s.out ∧ s.OnlyChanges u [.regs, .vrm, .out])) ∧
    (p.en = true → p.interval ≠ 0 → p.lastAt + p.interval ≤ s.up → s.lanesAsk = false → s.Gives (.pcbRetransmit b)
      ((s.setPcb b.toNat { p with sqNum := nextSq p.sqNum, lastAt := s.up, interval := min (2 * p.interval) p.rtMax }).publish b.toNat s.up)) ∧
    (s.mayWrite who Reg.VRM_PCB_SEL = true → s.Snapshots (.vrmPcbSelect who val) Reg.VRM_PCB_SEL (fld val 8 0) Reg.VRM_PCB_DATA 16
      (wordAt (s.pcbWords (fld val 8 0))))

/-- A channel trips exactly when enough live slots say TRIP (13_trip_voter_and_field_io.md (R304, R305)). After its slots are judged, an IDLE
channel that is not blocked and has at least K' live slots that say TRIP becomes TRIPPED with hold 0 and counts the trip; any other is left as the
judging left it. A channel that has no live slot, or fewer than K', is blocked. -/
def Obligations.VotingRule : Prop :=
  (∀ (s : State) (ch : Nat), ch < 256 →
    let y := s.judgeChan ch
    ((y.vch ch).st = 0 → y.chBlocked ch = false → y.chKeff ch ≤ y.chT ch → ((s.vote ch).vch ch).st = 1 ∧ ((s.vote ch).vch ch).hold = 0 ∧
      (s.vote ch).reg (Reg.VRM_CH_TRIPS ch) = y.reg (Reg.VRM_CH_TRIPS ch) + 1 ∧ (s.vote ch).reg Reg.VRM_TRIPS = y.reg Reg.VRM_TRIPS + 1 ∧
      ∀ j, j ≠ ch → (s.vote ch).vch j = y.vch j) ∧
    (¬((y.vch ch).st = 0 ∧ y.chBlocked ch = false ∧ y.chKeff ch ≤ y.chT ch) → s.vote ch = y)) ∧
  (∀ (s : State) (ch : Nat), s.chBlocked ch = true ↔ (s.liveSlots ch = [] ∨ (s.liveSlots ch).length < s.chKeff ch))

/-- Release of outputs, arming, the commands of field I/O, accepted inputs and the end of chatter (13_trip_voter_and_field_io.md (R312, R314, R316,
R317, R319)). An output that is on, not in SAFE, not held by its channel and past its minimum time is released. A hold or a test arm that has run
out is taken away. In TEST, for ADMIN and an enabled output, ARM arms it for one second, FIRE fires an armed one, RELEASE releases; else DENIED or
STATE_REJECT. An enabled input that has held a new level for its debounce time since a sampling strobe takes it. A chattering input that is steady
ends its chatter with its level and an entry of the sequence of events. -/
def Obligations.FieldOutputAndInputCommandsComplete : Prop :=
  ∀ (s : State) (who : Accessor) (o i : Fin 32) (val : Word) (level : Bool) (t : Nat),
    let x := s.fout o.val
    let n := fld val 4 0
    let e := fun (op : Nat) (z : State) (res : Nat) => 
      (z.setReg Reg.FIO_CMD (masked Reg.FIO_CMD (putFld val 31 28 op))).setReg Reg.FIO_CMD_STATUS (BitVec.ofNat 32 res)
    let y := s.finp i.val
    (x.on = true → s.pwr.st ≠ .safe → (s.votesDrive && s.tripped (s.rf (Reg.FIO_OUT_CFG o.val) 23 16)) = false →
      x.onAt + s.rf (Reg.FIO_OUT_CFG o.val) 3 0 * 10 * msU ≤ s.up → s.Gives (.outputRelease o) (s.driveOut o.val false)) ∧
    (x.armUntil ≤ s.up → s.Gives (.armHoldExpire o) (s.setFout o.val { x with armUntil := 0 })) ∧
    (∀ a, x.testArm = some a → a ≤ s.up → s.Gives (.fioArmExpire o) (s.setFout o.val { x with testArm := none })) ∧
    (s.mayWrite who Reg.FIO_CMD = true →
      (s.isAdmin who = false → s.Gives (.fioArm who val) (e 1 s 5) ∧ s.Gives (.fioFire who val) (e 2 s 5) ∧ s.Gives (.fioRelease who val) (e 3 s 5)) ∧
      (s.isAdmin who = true → (s.pwr.st ≠ .test ∨ s.outOn n = false) →
        s.Gives (.fioArm who val) (e 1 s 7) ∧ s.Gives (.fioFire who val) (e 2 s 7) ∧ s.Gives (.fioRelease who val) (e 3 s 7)) ∧
      (s.isAdmin who = true → s.pwr.st = .test → s.outOn n = true →
        s.Gives (.fioArm who val) (e 1 (s.setFout n { s.fout n with testArm := some (s.up + secU) }) 0) ∧
        s.Gives (.fioRelease who val) (e 3 (s.driveOut n false) 0) ∧
        (s.armed n = true → s.Gives (.fioFire who val) (e 2 (s.assertOut n) 0)) ∧ (s.armed n = false → s.Gives (.fioFire who val) (e 2 s 7)))) ∧
    (s.rb (Reg.FIO_IN_CFG i.val) 31 = true → y.chatter = false → y.level ≠ level →
      t % (250 * nsU) = 0 → t + s.rf (Reg.FIO_IN_CFG i.val) 7 0 * 100 * usU ≤ s.time → s.Gives (.inputAccept i level t) (s.acceptInput i.val level t)) ∧
    (y.chatter = true → s.rb Reg.FIO_SOE_CFG 31 = false → y.level = level →
      s.Gives (.chatterEnd i level) (s.setFinp i.val { y with level := level, chatter := false, changes := [] })) ∧
    (y.chatter = true → s.Gives (.chatterEnd i level) (
      let z := (s.setFinp i.val { y with level := level, chatter := false, changes := [] }).soe 0 i.val level false true false
        (s.time - s.rf (Reg.FIO_IN_CHAT i.val) 11 0 * msU)
      if y.level = level then z else z.recInput i.val))

/-- Images, CHECK, ARM, DISARM, REQUEST, and the device's own commit (14_configuration_images.md (R331, R334, R335, R338, R339, R341, R356, R357)).
A management frame whose sender has the authority, in a device state that allows it, has its effect and is answered: a staging buffer begins; bytes
join the buffer of the one that began it; IMG_END, with ADMIN, puts it into verification; a part leaves the shadow; a running partition's removal is
staged; a staged shadow is put into check; ARM is answered with its result, and where the descriptor of a CHECKED shadow is accepted the commit is
armed for its instant and preload begins; an armed commit is cancelled, by ADMIN or the role that armed it; a request for a unit is remembered. What
takes time ends with its own command: verification and CHECK with their result, preload with the shadow ARMED. With something pending and nothing
armed the device arms a commit itself, at most once an interval of CP. -/
def Obligations.ImageAndCommitCommandsComplete : Prop :=
  ∀ (s : State) (port : Fin 6) (f : MgtFrame) (what : Fin 3) (cls : BitVec 4) (idx : BitVec 13) (req : BitVec 4),
    let n := port.val
    let a := Actor.port n
    let x := s.taken n f
    let k := 8192 * cls.toNat + idx.toNat
    ((s.mport n).frame = some f →
      (f.cmd = 0x20 → adminOrPart a f x = true → x.pwr.st ∈ imgStates → x.bootRuns = false → x.rf Reg.DDR_STATUS 1 0 = 2 → s.Gives (.imgBegin port)
        ({ x with cfg := { x.cfg with staging := some { by_ := a, bytes := [] } } }.respond n 0 [])) ∧
      (∀ g, f.cmd = 0x21 → adminOrPart a f x = true → x.pwr.st ∈ imgStates → x.cfg.staging = some g → g.by_ = a → s.Gives (.imgData port)
        ({ x with cfg := { x.cfg with staging := some { g with bytes := g.bytes ++ f.payload } } }.respond n 0 [])) ∧
      (∀ g, f.cmd = 0x22 → x.actAdmin a = true → x.pwr.st ∈ imgStates → x.cfg.verifying = none → x.arming = false → x.cfg.staging = some g →
        g.by_ = a → s.Gives (.imgEnd port)
          { x.setRb Reg.CFG_IMG_STATUS 31 true with cfg := { x.cfg with staging := none, verifying := some g } }) ∧
      (f.cmd = 0x23 → (x.actAdmin a = true ∨ (what.val = 1 ∧ x.actOwns a f.part = true)) → x.pwr.st ∈ imgStates → x.bootRuns = false →
        x.arming = false → x.holdsPart what.val f.part = true → s.Gives (.discard port what) ((x.discardPart what.val f.part).respond n 0 [])) ∧
      (f.cmd = 0x24 → adminOrPart a f x = true → x.pwr.st ∈ imgStates → x.arming = false → f.part ≠ 0 → f.part < 16 → (x.part f.part).st = 4 →
        let y := x.setPartSh f.part none
        s.Gives (.remove port)
          ((({ y with cfg := { y.cfg with removes := f.part :: y.cfg.removes.erase f.part } }).setShadow .staged).respond n 0 [])) ∧
      (f.cmd = 0x25 → x.mayArm a = true → x.pwr.st ∈ imgStates → x.bootRuns = false → x.cfg.checking = none → x.cfg.shadow ≠ .none →
        x.arming = false → s.Gives (.check port) { x.setRb Reg.CFG_CHK_STATUS 31 true with cfg := { x.cfg with checking := some a } }) ∧
      (f.cmd = 0x26 → x.mayArm a = true → x.pwr.st ∈ armStates → x.bootRuns = false →
        s.Gives (.arm port) ((x.arm a (descOfBytes f.payload)).2.respond n (x.arm a (descOfBytes f.payload)).1 []) ∧
        (x.clu.resetting.any (·.2) = false → x.cfg.verifying = none → x.cfg.checking = none → x.cfg.shadow = .checked →
          x.armResult (descOfBytes f.payload) = 0 → ∃ u, exec (.arm port) s = .next u ∧ u.cfg.armBy = some a ∧ u.cfg.preloaded = false ∧
            u.ind.commit = if descKind (descOfBytes f.payload) = 0 then none else
              some { inst := descInstant (descOfBytes f.payload), period := 0, late := false })) ∧
      (f.cmd = 0x27 → (x.actAdmin a = true ∨ (x.cfg.armRole ≠ 0 ∧ x.actOwns a x.cfg.armRole = true)) → x.pwr.st ∈ armStates →
        x.cfg.armBy.isSome = true → x.commitDue = false → s.Gives (.disarm port) (x.disarm.respond n 0 [])) ∧
      (f.cmd = 0x28 → x.actAdmin a = true → (x.pwr.st = .test ∨ x.pwr.st = .service) → idx.toNat < unitCount cls.toNat → req.toNat ≤ 1 →
        s.Gives (.request port cls idx req) ((x.setUnitReq k { x.unitReq k with pendReq := some req.toNat }).respond n 0 []))) ∧
    (∀ g, s.cfg.verifying = some g → s.Gives .imgVerifyDone ((s.verifyEnd g).2.answer g.by_ (s.verifyEnd g).1 [])) ∧
    (∀ b, s.cfg.checking = some b → s.Gives .checkDone (s.checkEnd.2.answer b s.checkEnd.1 [])) ∧
    (s.arming = true → s.cfg.preloaded = false → s.Gives .preloadDone s.preloadEnd) ∧
    (s.commitWanted = true → s.ind.commit = none → s.cfg.armBy = none → (∀ t, s.cfg.autoAt = some t → t + s.rf Reg.CFG_CP 15 0 * msU ≤ s.up) →
      s.Gives .autoCommitArm s.autoArm)

/-- Partitions quarantined, cleared and drained; tiles retired and tested; floors, the scrubber, unit states (14_configuration_images.md (R330,
R347, R349, R350, R351, R352, R353, R354, R355, R358, R359)). With authority and in a state that allows it: QUARANTINE stops a running or faulted
partition and raises EV295; CLEAR zeroes and empties a faulted or quarantined one; RAISE_FLOOR raises a floor to the version applied; RETIRE stages
the retirement of a tile that is in service or FAILING and has a spare; TILE_BIST puts a spare or retired tile in test. A drain past its time ends
the runs left, each with EV301; one with none left empties the partition. A test ends with its result; every period the spares are tested. A domain
checked counts toward a sweep; one that does not match, or whose retained copy is bad, is mended or escalated as R353 and R354 say. A unit off its
request for two periods is marked, counted and reported once; a unit's word is read by selection. -/
def Obligations.PartitionAndTileCommandsComplete : Prop :=
  ∀ (s : State) (who : Accessor) (port : Fin 6) (f : MgtFrame) (tile : Fin 24) (p : Fin 16) (kind : Fin 3) (fail : Bool) (d : ScrubDomain)
    (cls : Fin 8) (idx : BitVec 13) (val : Word),
    let n := port.val
    let x := s.taken n f
    let k := 8192 * cls.val + idx.toNat
    let m := s.rf Reg.CFG_CTRL 15 0
    ((s.mport n).frame = some f →
      (f.cmd = 0x29 → x.actAdmin (.port n) = true → x.pwr.st ∈ armStates → (x.tileState tile.val = 0 ∨ x.tileState tile.val = 2) →
        x.retirable tile.val = true → s.Gives (.retire port tile) ((x.stageRetire tile.val).respond n 0 [])) ∧
      (f.cmd = 0x2A → x.actAdmin (.port n) = true → x.pwr.st ∈ armStates → tile.val ∉ x.cfg.bist → (x.tileState tile.val = 1 ∨ x.tileState tile.val = 3) →
        s.Gives (.tileBist port tile) ({ x with cfg := { x.cfg with bist := x.cfg.bist ++ [tile.val] } }.respond n 0 [])) ∧
      (f.cmd = 0x2B → adminOrPart (.port n) f x = true → x.pwr.st ∈ liveStates → f.part ≠ 0 → f.part < 16 →
        ((x.part f.part).st = 4 ∨ (x.part f.part).st = 6) →
        s.Gives (.quarantine port) (((x.stopPart f.part 7).sqc Reg.CFG_STATUS 7 295).respond n 0 [])) ∧
      (f.cmd = 0x2C → x.actAdmin (.port n) = true → x.pwr.st ∈ liveStates → f.part < 16 → ((x.part f.part).st = 6 ∨ (x.part f.part).st = 7) →
        s.Gives (.clear port) (((x.zeroPart f.part).emptyPart f.part).respond n 0 [])) ∧
      (f.cmd = 0x2D → x.actAdmin (.port n) = true → x.pwr.st ∈ imgStates → (kind.val = 1 → f.part ≠ 0 ∧ f.part < 16) →
        s.Gives (.raiseFloor port kind) ((x.raiseFloor kind.val f.part).respond n 0 []))) ∧
    (tile.val ∈ s.cfg.bist → s.Gives (.bistDone tile fail) (s.bistEnd tile.val fail)) ∧
    (s.pwr.st = .service → m ≠ 0 → s.cfg.bistAt + m * secU ≤ s.up → ∃ u, exec .spareBistPeriod s = .next u ∧ u.cfg.bistAt = s.up ∧
      (∀ j, j ∈ u.cfg.bist ↔ j ∈ s.cfg.bist ∨ (j < 24 ∧ s.tileState j = 1)) ∧ s.OnlyChanges u [.cfg]) ∧
    ((s.part p.val).st = 5 → (s.part p.val).drainAt + s.rf (Reg.CFG_PART_CFG p.val) 15 0 * usU ≤ s.up → s.Gives (.drainTimeout p)
      (each (s.holdingTasks p.val) (fun y j => ((y.forceEnd j 6).inc Reg.CFG_DRAIN_KILL).sqc Reg.CFG_STATUS 13 301) s)) ∧
    ((s.part p.val).st = 5 → s.holdingTasks p.val = [] → s.Gives (.drainComplete p) (s.emptyPart p.val)) ∧
    s.Gives (.scrubDomainCheck d false false) (s.noteSweep (domainCode d)) ∧
    (∀ mis bad, (mis = true ∨ bad = true) → s.Gives (.scrubDomainCheck d mis bad) ((s.noteSweep (domainCode d)).scrubBad d mis bad)) ∧
    (∀ t, (s.unitReq k).since = some t → s.unitMatches cls.val idx.toNat = false → (s.unitReq k).mismatch = false →
      t + 2 * s.rf Reg.CFG_CP 15 0 * msU < s.up → s.Gives (.unitMismatch cls idx)
        (((s.setUnitReq k { s.unitReq k with mismatch := true }).inc Reg.CFG_MISMATCHES).sqc Reg.CFG_STATUS 12 300)) ∧
    (s.mayWrite who Reg.CFG_UNIT_SEL = true → ∃ u, exec (.unitSelect who val) s = .next u ∧
      u.reg Reg.CFG_UNIT_SEL = BitVec.ofNat 32 (fld val 27 24 * 16777216 + fld val 12 0) ∧
      u.reg Reg.CFG_UNIT_DATA = s.unitWord (fld val 27 24) (fld val 12 0) ∧
      s.RegsStay u [Reg.CFG_UNIT_SEL, Reg.CFG_UNIT_DATA] ∧ s.OnlyChanges u [.regs])

/-- A management command without ADMIN is denied, in the wrong device state rejected, and after the kill refused (14_configuration_images.md (R334,
R356), 16_security.md (R389, R391, R392)). A command of a list of configuration and security commands that comes on a port without ADMIN authority
(and, where an OWNER may give it, without ownership of the partition it names) changes nothing but its own answer, which is DENIED; with ADMIN in a
device state outside its list, the answer is STATE_REJECT; with the KILL fuse blown, KEY_LOAD and ZEROISE answer EXHAUSTED. -/
def Obligations.ManagementAuthority : Prop :=
  ∀ (s : State) (port : Fin 6) (f : MgtFrame),
    let n := port.val
    let x := s.taken n f
    let sab := fun (code res : Nat) => (x.setReg Reg.SAB_CMD_STATUS (BitVec.ofNat 32 (code * 65536 + res))).respond n res []
    (s.mport n).frame = some f →
      (x.actAdmin (.port n) = false →
        (∀ c ∈ [(Instr.clear port, 0x2C), (.raiseFloor port 0, 0x2D), (.retire port 0, 0x29), (.tileBist port 0, 0x2A), (.request port 2 0 0, 0x28)],
          f.cmd = c.2 → s.Gives c.1 (x.respond n codeDenied [])) ∧
        (x.actOwns (.port n) f.part = false →
          ∀ c ∈ [(Instr.imgBegin port, 0x20), (.imgData port, 0x21), (.imgEnd port, 0x22), (.remove port, 0x24), (.quarantine port, 0x2B)],
            f.cmd = c.2 → s.Gives c.1 (x.respond n codeDenied [])) ∧
        (∀ c ∈ [(Instr.keyLoad port, 0x30), (.zeroise port, 0x34)], f.cmd = c.2 → s.Gives c.1 (sab c.2 codeDenied))) ∧
      (x.actAdmin (.port n) = true →
        (x.pwr.st ∉ imgStates → ∀ c ∈ [(Instr.imgBegin port, 0x20), (.imgData port, 0x21), (.imgEnd port, 0x22), (.remove port, 0x24),
          (.raiseFloor port 0, 0x2D)], f.cmd = c.2 → s.Gives c.1 (x.respond n codeReject [])) ∧
        (x.pwr.st ∉ liveStates → ∀ c ∈ [(Instr.clear port, 0x2C), (.quarantine port, 0x2B)], f.cmd = c.2 → s.Gives c.1 (x.respond n codeReject [])) ∧
        (f.cmd = 0x30 → x.pwr.st ∉ imgStates → s.Gives (.keyLoad port) (sab 0x30 codeReject)) ∧
        (f.cmd = 0x30 → x.pwr.st ∈ imgStates → x.sab.otp.kill = true → s.Gives (.keyLoad port) (sab 0x30 26)) ∧
        (f.cmd = 0x34 → x.pwr.st ∈ warmStates → x.sab.otp.kill = true → s.Gives (.zeroise port) (sab 0x34 26)))

/-- Packages, attestation, zeroisation, tamper inputs and monitors, debug grants (16_security.md (R378, R379, R381, R385, R389, R390, R391, R392,
R394, R395)). With authority, in a state that allows it, and before any kill: a package goes into check where none is under way, else BUSY. The end
of a check has the package's effect, counts it as accepted or refused with EV020 or EV019, and answers its result; keys that would be accepted in the
cycle of a commit wait for it. Where no signature is under way ATTEST is answered RATE_LIMIT too soon after the last, EXHAUSTED after the kill or
without an index, and else starts the signature of its report; with one under way it is queued behind at most three more, else BUSY. The end of a
signature is counted, sends the report signed at its index, and goes on with the queue. ZEROISE is answered and zeroises. An enabled tamper input or
monitor is counted, raises its event and zeroises, and an input set to kill then blows the KILL fuse, which takes the device to SAFE. DEBUG_GRANT
starts a grant for its time, or is refused for CONTROL of partition 0 in SERVICE and for no time; DEBUG_REVOKE and the end of the time end it. -/
def Obligations.SecurityCommandsComplete : Prop :=
  ∀ (s : State) (port : Fin 6) (f : MgtFrame) (fuse : List Bool) (i m : Fin 4) (p : Fin 16) (control jtag session : Bool) (secs : BitVec 16),
    let n := port.val
    let a := Actor.port n
    let x := s.taken n f
    let begun := fun (cmd : Nat) => ({ x with sab := { x.sab with job := some { by_ := a, cmd := cmd, bytes := f.payload } } }).setReg Reg.SAB_CMD_STATUS
      (BitVec.ofNat 32 (2147483648 + cmd * 65536))
    let q := { port := n, nonce := f.payload, fuse := fuse : AttReq }
    let soon : State → Prop := fun z => ∃ t, z.sab.lastSig = some t ∧ z.up < t + z.rf Reg.SAB_CFG 15 0 * secU
    let trip := fun (bit ev : Nat) =>
      ((({ s with sab := { s.sab with tripped := true } }).inc Reg.SAB_TAMPER_CNT).sqc Reg.SAB_STATUS bit ev).zeroise
    ((s.mport n).frame = some f → x.sab.otp.kill = false →
      (f.cmd = 0x30 → x.actAdmin a = true → x.pwr.st ∈ imgStates → (x.sab.job = none → s.Gives (.keyLoad port) (begun 0x30)) ∧
        (x.sab.job.isSome = true → s.Gives (.keyLoad port) (x.respond n busyCode []))) ∧
      (f.cmd = 0x31 → x.pwr.st ∈ warmStates → (x.sab.job = none → s.Gives (.credLoad port) (begun 0x31)) ∧
        (x.sab.job.isSome = true → s.Gives (.credLoad port) (x.respond n busyCode []))) ∧
      (f.cmd = 0x32 → x.actAdmin a = true → x.pwr.st ∈ [.boot, .config, .test, .service, .recovery] → x.sab.job = none →
        (pkgKind f.payload = 3 → s.Gives (.rootAdd port) (begun 0x32)) ∧ (pkgKind f.payload = 2 → s.Gives (.rootRevoke port) (begun 0x32))) ∧
      (f.cmd = 0x34 → x.actAdmin a = true → x.pwr.st ∈ warmStates → s.Gives (.zeroise port) (x.sabAnswer a 0x34 0 []).zeroise) ∧
      (f.cmd = 0x35 → (x.actAdmin a = true ∨ x.actOwns a p.val = true) → x.pwr.st ∈ liveStates →
        (control = true → p.val = 0 → x.pwr.st = .service → s.Gives (.debugGrant port p control jtag session secs) (x.sabAnswer a 0x35 codeReject [])) ∧
        (¬(control = true ∧ p.val = 0 ∧ x.pwr.st = .service) → secs = 0 → s.Gives (.debugGrant port p control jtag session secs)
          (x.sabAnswer a 0x35 codeIndex [])) ∧
        (¬(control = true ∧ p.val = 0 ∧ x.pwr.st = .service) → secs ≠ 0 → s.Gives (.debugGrant port p control jtag session secs)
          ((x.startGrant p.val control jtag session secs.toNat).sabAnswer a 0x35 0 []))) ∧
      (f.cmd = 0x36 → (x.actAdmin a = true ∨ x.actOwns a p.val = true) → x.pwr.st ∈ liveStates →
        s.Gives (.debugRevoke port p) ((x.endGrant p.val).sabAnswer a 0x36 0 []))) ∧
    ((s.mport n).frame = some f → f.cmd = 0x33 → x.portRole n ≠ .noSession → x.pwr.st ∈ liveStates →
      (x.sab.signing = none → soon x → s.Gives (.attest port fuse) (x.sabAnswer a 0x33 25 [])) ∧
      (x.sab.signing = none → ¬soon x → x.sab.otp.kill = true → s.Gives (.attest port fuse) (x.sabAnswer a 0x33 26 [])) ∧
      (x.sab.signing = none → ¬soon x → x.sab.otp.kill = false → (x.takeIndex fuse).1 = none →
        s.Gives (.attest port fuse) ((x.takeIndex fuse).2.sabAnswer a 0x33 26 [])) ∧
      (∀ i, x.sab.signing = none → ¬soon x → x.sab.otp.kill = false → (x.takeIndex fuse).1 = some i →
        let y := (x.takeIndex fuse).2
        s.Gives (.attest port fuse) (({ y with sab := { y.sab with signing := some (q, i, y.attBody q.nonce), lastSig := some y.up } }).setReg
          Reg.SAB_CMD_STATUS (BitVec.ofNat 32 (2147483648 + 0x33 * 65536)))) ∧
      (x.sab.signing.isSome = true → x.sab.fifo.length < 4 → s.Gives (.attest port fuse) { x with sab := { x.sab with fifo := x.sab.fifo ++ [q] } }) ∧
      (x.sab.signing.isSome = true → 4 ≤ x.sab.fifo.length → s.Gives (.attest port fuse) (x.sabAnswer a 0x33 busyCode []))) ∧
    (∀ j, s.sab.job = some j →
      let r := { s with sab := { s.sab with job := none } }.pkgTry j.by_ j.cmd j.bytes
      s.Gives .packageCheckDone (if r.1 = 0 ∧ j.cmd = 0x30 ∧ s.commitDue = true then s
        else (if r.1 = 0 then (r.2.inc Reg.SAB_PKG_OK).sqc Reg.SAB_STATUS 4 20
          else (r.2.inc Reg.SAB_PKG_REFUSED).sqc Reg.SAB_STATUS 3 19).sabAnswer j.by_ j.cmd r.1 [])) ∧
    (∀ q i body, s.sab.signing = some (q, i, body) →
      let y := (({ s with sab := { s.sab with signing := none, traversal := true } }).inc Reg.SAB_ATTEST_CNT).sabAnswer (.port q.port) 0x33 0
        (body ++ Config.xmssSign i body)
      s.Gives .attestDone (signQueue y.sab.fifo y)) ∧
    (s.pwr.vaux = true → s.rb Reg.SAB_TAMP_CFG (16 + i.val) = true → s.Gives (.tamperInput i)
      (if s.rb Reg.SAB_TAMP_CFG (24 + i.val) then
        (({ trip 0 16 with sab := { (trip 0 16).sab with otp := { (trip 0 16).sab.otp with kill := true } } }).setRb Reg.SAB_FLAGS 1 true).goSafe 2
       else trip 0 16)) ∧
    (s.pwr.vaux = true → s.rb Reg.SAB_TAMP_CFG m.val = true → (m.val = 0 ∨ m.val = 3 ∨ s.pwr.mainGood = true) →
      s.Gives (.monitorTrip m) (trip 1 17)) ∧
    ((s.grant p.val).active = true → (s.grant p.val).until_ ≤ s.up → s.Gives (.debugGrantExpire p) (s.endGrant p.val))

/-- Links, resets, power states and errors of PCI Express, MSI-X, the DMA channels and the windows (17_host_interface_and_management.md (R399, R402,
R403, R404, R405, R406, R407, R421, R423)). PERST of link 0 samples the two straps. A link that comes up shows its rate and width; one that goes
down has its channels stopped, MSI-X disabled and its session ended; a reset of the link does the same. A reset of PF0 ends the session and clears
the link's management registers and bank; one of PF1 clears its vectors and stops the channels; D3hot is shown and, of PF1, stops the channels, and
the return to D0 is shown. A vector that is unmasked sends the message that was pending for it where its link is up and the function in D0, else the
message is lost and counted. A running channel delivers the head of the host queue it serves, injects a frame or marks a bad descriptor, signals at
most once a period, and stops with a fault. START begins at index 0 unless the channel is faulted; STOP stops it. A strict miss is counted and
recorded; the bank register keeps 5 bits; a denied access of BAR2 is counted. -/
def Obligations.PciExpressCommandsComplete : Prop :=
  ∀ (s : State) (who : Accessor) (l pf : Fin 2) (b1 b2 up flit : Bool) (rate : Fin 8) (width : Fin 32) (vec : Fin 512) (d : Fin 16) (desc : DmaDesc)
    (bytes : List Byte) (ext : Option SecExt) (why : Fin 4) (off : BitVec 21) (off2 : BitVec 26) (val : Word),
    let n := desc.len.toNat
    let irq := s.rf (Reg.PCI_DMA_IRQ d.val) 15 0
    let rt := s.rf (Reg.PCI_DMA_CFG d.val) 23 0
    let st := Reg.PCI_DMA_STATUS d.val
    let s1 := s.setDma d.val { s.dma d.val with tok := (s.dma d.val).tok.take rt 64 s.up }
    let k := 1024 * l.val + 512 * pf.val + vec.val
    (∃ u, exec (.perstDeassert 0 b1 b2) s = .next u ∧ u.rb Reg.PCI_CFG 30 = b1 ∧ u.rb Reg.PCI_CFG 29 = b2 ∧ s.RegsStay u [Reg.PCI_CFG] ∧
      s.OnlyChanges u [.regs]) ∧
    (s.linkThere l.val = true → ∃ u, exec (.pcieLinkChange l true rate width flit) s = .next u ∧
      u.reg (Reg.PCI_LINK_STATUS l.val) = BitVec.ofNat 32 (2147483648 + rate.val * 268435456 + width.val * 8388608 + (if flit then 4194304 else 0) +
        s.rf (Reg.PCI_LINK_STATUS l.val) 21 19 * 524288) ∧ s.OnlyChanges u [.regs, .out, .hst]) ∧
    (s.linkThere l.val = true → s.linkUp l.val = true → s.Gives (.pcieLinkChange l false rate width flit)
      (((((s.setReg (Reg.PCI_LINK_STATUS l.val) (BitVec.ofNat 32 (s.rf (Reg.PCI_LINK_STATUS l.val) 21 19 * 524288))).sqc Reg.PCI_STATUS l.val
        (8 + l.val)).stopLinkDma l.val).setRf (Reg.PCI_LINK_STATUS l.val) 20 19 0).endSession l.val false)) ∧
    s.Gives (.pcieHotReset l) (((s.stopLinkDma l.val).setRf (Reg.PCI_LINK_STATUS l.val) 20 19 0).endSession l.val false) ∧
    (∃ u, exec (.flrPf0 l) s = .next u ∧ (u.mport l.val).sess = none ∧ u.reg (Reg.PCI_BANK l.val) = 0 ∧ u.reg (Reg.MGT_REQ_LEN l.val) = 0 ∧
      u.reg (Reg.MGT_RSP_STATUS l.val) = 0 ∧ s.OnlyChanges u [.regs, .out, .hst]) ∧
    (∃ u, exec (.flrPf1 l) s = .next u ∧ (∀ j, j / 512 = 2 * l.val + 1 → u.msix j = {}) ∧ (∀ j, j / 512 ≠ 2 * l.val + 1 → u.msix j = s.msix j) ∧
      (∀ j, j < 16 → s.dmaLink j = l.val → u.rf (Reg.PCI_DMA_STATUS j) 1 0 = 0) ∧ s.OnlyChanges u [.regs, .hst]) ∧
    s.Gives (.d3hotEntry l pf) (if pf.val = 1 then (s.setD3 l.val 1 true).stopLinkDma l.val else s.setD3 l.val 0 true) ∧
    s.Gives (.returnToD0 l pf) (s.setD3 l.val pf.val false) ∧
    s.Gives (.aerUncorrectableError l) ((s.inc (Reg.PCI_AER_CNT l.val)).sqc Reg.PCI_STATUS 2 10) ∧
    (∃ u, exec (.msixVectorUnmask l pf vec) s = .next u ∧ (u.msix k).masked = false ∧ (u.msix k).pba = false ∧ (∀ j, j ≠ k → u.msix j = s.msix j) ∧
      ((s.msix k).pba = false → u.out = s.out) ∧
      ((s.msix k).pba = true → s.linkUp l.val = true → s.hst.d3hot.gd false (2 * l.val + pf.val) = false → u.out = .msix l.val pf.val vec.val :: s.out) ∧
      ((s.msix k).pba = true → ¬(s.linkUp l.val = true ∧ s.hst.d3hot.gd false (2 * l.val + pf.val) = false) →
        u.out = s.out ∧ u.reg Reg.EVT_MSIX_LOST = s.reg Reg.EVT_MSIX_LOST + 1) ∧ s.OnlyChanges u [.regs, .out, .hst]) ∧
    (∀ h m rest, s.dmaRuns d.val = true → s.rb (Reg.PCI_DMA_CFG d.val) 30 = false → s.dmaFull d.val = true → s.dmaNext d.val = some h →
      s.egq (egKey (64 + h) 0) = m :: rest → s.Gives (.dmaDeliver d desc) (s.dmaOut d.val h m desc)) ∧
    (s.dmaRuns d.val = true → s.rb (Reg.PCI_DMA_CFG d.val) 30 = true → s.dmaFull d.val = true → tokenU ≤ (s.dma d.val).tok.now rt 64 s.up →
      ((n < 64 ∨ 9600 < n) → s.Gives (.dmaInject d desc bytes ext) (s.dmaBad d.val)) ∧
      (64 ≤ n → n ≤ 9600 → ∀ h, (s1.alloc (48 + s1.rf (Reg.PCI_DMA_CFG d.val) 27 24) n).1 = some h → s.Gives (.dmaInject d desc bytes ext)
        ((s1.alloc (48 + s1.rf (Reg.PCI_DMA_CFG d.val) 27 24) n).2.dmaIn d.val h ((bytes ++ List.replicate n 0).take n) ext))) ∧
    (irq ≠ 0 → (s.dma d.val).unsig.isSome = true → (∀ t, (s.dma d.val).sigAt = some t → t + irq * usU ≤ s.up) → s.Gives (.dmaSignal d)
      ((s.setDma d.val { s.dma d.val with unsig := none, sigAt := some s.up }).sendMsix (s.dmaLink d.val) 1 (s.rf (Reg.PCI_DMA_IRQ d.val) 24 16))) ∧
    (s.dmaRuns d.val = true → why.val ≠ 0 → s.Gives (.dmaFault d why)
      ((((s.setRf st 1 0 2).setRf st 7 4 why.val).inc (Reg.PCI_DMA_ERR d.val)).sqc Reg.PCI_STATUS 3 11)) ∧
    (s.mayWrite who (Reg.PCI_DMA_CTRL d.val) = true →
      (s.rf st 1 0 = 2 → s.Gives (.dmaStart who d) s) ∧
      (s.rf st 1 0 ≠ 2 → ∃ u, exec (.dmaStart who d) s = .next u ∧ u.rf st 1 0 = 1 ∧ u.reg (Reg.PCI_DMA_HEAD d.val) = 0 ∧ u.reg (Reg.PCI_DMA_TAIL d.val) = 0 ∧
        s.RegsStay u [st, Reg.PCI_DMA_HEAD d.val, Reg.PCI_DMA_TAIL d.val] ∧ s.OnlyChanges u [.regs]) ∧
      (∃ u, exec (.dmaStop who d) s = .next u ∧ u.rf st 1 0 = 0 ∧ u.rf st 7 4 = 0 ∧ s.RegsStay u [st] ∧ s.OnlyChanges u [.regs])) ∧
    (s.linkUp l.val = true → s.strict = true → regRow (off.toNat / 4 * 4) = none → s.Gives (.bar0DecodeMiss l up off)
      (((s.inc (Reg.PCI_DECODE_ERR l.val)).setReg (Reg.PCI_DECODE_LAST l.val)
        (BitVec.ofNat 32 ((if up then 2147483648 else 0) + off.toNat))).sqc Reg.PCI_STATUS 5 15)) ∧
    (s.mayWrite who (Reg.PCI_BANK l.val) = true → s.Gives (.pciBankWrite who l val) (s.setReg (Reg.PCI_BANK l.val) (BitVec.ofNat 32 (fld val 4 0)))) ∧
    (s.linkUp l.val = true → (off2.toNat < 0x1000000 ∨ 0x1001000 ≤ off2.toNat) → s.Gives (.bar2WriteDenied l off2) (s.inc (Reg.PCI_B2_DENIED l.val))) ∧
    (s.linkUp l.val = true → s.rb (Reg.PCI_B2_CFG l.val) 1 = true → 0x2000000 ≤ off2.toNat →
      s.hostReadable (s.rf (Reg.PCI_APER_BASE l.val ((off2.toNat - 0x2000000) / 8388608)) 11 0 * 8388608 + (off2.toNat - 0x2000000) % 8388608) = false →
      s.Gives (.bar2ReadDenied l off2) (s.inc (Reg.PCI_B2_DENIED l.val)))

/-- Frames and units arrive, sessions open and end, and the protocol's own commands (17_host_interface_and_management.md (R410, R411, R412, R413,
R414, R415, R417, R418, R420), 18_pair_link.md (R428, R437)). A doorbell takes the request frame, or shows ERR while a command is outstanding. The
next unit of a frame under way joins it, and the last hands the whole frame on; a first unit begins one; a bad unit on the UART, or a frame too late,
is dropped and counted. A relayed unit with a good CRC is taken on port 5. A block read takes the next unit of a response. OPEN_REQ is
refused on a locked port and without a common version, else answered with a fresh identifier and nonce that the opening keeps. OPEN_PROOF opens the
session if the proof holds, and counts a failure if it does not. Openings, lockouts and idle sessions end at their times. CLOSE is answered and ends
the session, PING is answered; reads, writes and SQC_CLEAR answer what they read or how many they applied. -/
def Obligations.ManagementPortCommandsComplete : Prop :=
  ∀ (s : State) (port : Fin 6) (l : Fin 2) (f : MgtFrame) (bytes : List Byte) (src : BitVec 48) (good : Bool),
    let n := port.val
    let p := s.mport n
    let x := s.taken n f
    let y := x.updMport n fun q => { q with opening := none }
    let off := leAt f.payload 0 4
    let cnt := leAt f.payload 4 2
    (s.portOn l.val = true →
      (((s.mport l.val).frame.isSome = true ∨ (s.mport l.val).busy.isSome = true) → s.Gives (.mgtDoorbell l bytes) (s.setRb (Reg.MGT_RSP_STATUS l.val) 30 true)) ∧
      ((s.mport l.val).frame = none → (s.mport l.val).busy = none → s.Gives (.mgtDoorbell l bytes)
        ((s.setReg (Reg.MGT_RSP_STATUS l.val) 0).mgtArrive l.val 0 (bytes.take (s.reg (Reg.MGT_REQ_LEN l.val)).toNat)))) ∧
    (s.portOn n = true → 2 ≤ n → n ≤ 4 →
      ((n = 4 → good = true) → s.Gives (.mgtUnitRx port src good bytes) (s.mgtUnit n (if n = 2 then src else 0) bytes) ∧
        (let head := leAt bytes 0 4
         let body := (bytes.drop 4).take (head % 65536)
         let from_ : BitVec 48 := if n = 2 then src else 0
         (∀ a, p.asm = some a → s.up < a.at_ + 2 * secU → a.next = head / 65536 % 32768 → a.src = from_ →
            (head < 2147483648 → s.Gives (.mgtUnitRx port src good bytes)
              (s.updMport n fun q => { q with asm := some { a with next := a.next + 1, bytes := a.bytes ++ body } })) ∧
            (2147483648 ≤ head → s.Gives (.mgtUnitRx port src good bytes)
              ((s.updMport n fun q => { q with asm := none }).mgtArrive n from_ (a.bytes ++ body)))) ∧
         (p.asm = none → head < 65536 → s.Gives (.mgtUnitRx port src good bytes)
            (s.updMport n fun q => { q with asm := some { next := 1, bytes := body, at_ := s.up, src := from_ } })))) ∧
      (n = 4 → s.Gives (.mgtUnitRx port src false bytes) ((s.updMport 4 fun q => { q with asm := none }).inc (Reg.MGT_SEG_ERR 4)))) ∧
    (s.portOn 5 = true → s.rb Reg.PAI_CFG 30 = true → 3 ≤ s.rf Reg.PAI_LINK 31 29 → s.Gives (.pairMgtRx ⟨true, bytes⟩) (s.mgtUnit 5 0 bytes)) ∧
    s.Gives (.pairMgtRx ⟨false, bytes⟩) (s.inc Reg.PAI_CELL_ERR) ∧
    (∀ a, p.asm = some a → a.at_ + 2 * secU ≤ s.up → s.Gives (.mgtFrameTimeout port) ((s.updMport n fun q => { q with asm := none }).inc (Reg.MGT_SEG_ERR n))) ∧
    (∀ v vs, (s.mport 3).rspUnits = v :: vs → s.Gives .smbusBlockRead ((s.updMport 3 fun q => { q with rspUnits := vs }).emit (.mgt 3 v))) ∧
    ((s.mport 3).rspUnits = [] → s.Gives .smbusBlockRead (s.emit (.mgt 3 []))) ∧
    (p.frame = some f → f.cmd = 0x01 →
      (p.lockedUntil.isSome = true → s.Gives (.openReq port) (y.openAnswer n f 0 39 [])) ∧
      (p.lockedUntil = none → versionOf (byteAt f.payload 1).toNat ((f.payload.drop 4).take 8) = none → s.Gives (.openReq port) (y.openAnswer n f 0 37 [])) ∧
      (∀ v, p.lockedUntil = none → versionOf (byteAt f.payload 1).toNat ((f.payload.drop 4).take 8) = some v → ∃ u o,
        exec (.openReq port) s = .next u ∧ (u.mport n).opening = some o ∧ o.ver = v ∧ o.sid ≠ 0 ∧ o.slot = (byteAt f.payload 0).toNat ∧
        o.np = (f.payload.drop 12).take 32 ∧ o.nd.length = 32 ∧ (u.mport n).busy = none ∧ (u.mport n).sess = p.sess)) ∧
    (∀ o, p.frame = some f → f.cmd = 0x02 → p.opening = some o → (f.sid = 0 ∨ f.sid = o.sid) →
      let ok := o.slot < 16 ∧ (s.cred o.slot).loaded = true ∧ tbit (BitVec.ofNat 32 (s.cred o.slot).ports) n = true ∧
        f.payload = Config.kmac256 (s.cred o.slot).key (o.proofOver n) 256 "MGT OPEN P"
      (ok → s.Gives (.openProof port)
        ((y.openSession n o (s.cred o.slot)).openAnswer n f o.sid 0 (Config.kmac256 (s.cred o.slot).key (o.proofOver n) 256 "MGT OPEN D"))) ∧
      (¬ok → s.Gives (.openProof port) ((y.authFail n).openAnswer n f o.sid 38 []))) ∧
    (p.frame = some f → f.cmd = 0x02 → p.opening = none → s.Gives (.openProof port) (x.openAnswer n f f.sid 34 [])) ∧
    (∀ o, p.opening = some o → o.at_ + 10 * secU ≤ s.up → s.Gives (.openingTimeout port) (s.updMport n fun q => { q with opening := none })) ∧
    (∀ t, p.lockedUntil = some t → t ≤ s.up → s.Gives (.lockoutExpire port) (s.updMport n fun q => { q with lockedUntil := none })) ∧
    (∀ z, p.sess = some z → 0 < s.rf (Reg.MGT_PORT_CFG n) 11 0 → z.lastAt + s.rf (Reg.MGT_PORT_CFG n) 11 0 * secU ≤ s.up →
      s.Gives (.sessionIdleTimeout port) ((s.updMport n fun q => { q with sess := none }).sqc Reg.MGT_STATUS 1 13)) ∧
    (p.frame = some f →
      (f.cmd = 0x03 → s.Gives (.close port) ((x.respond n 0 []).endSession n true)) ∧
      (f.cmd = 0x04 → s.Gives (.ping port) (x.respond n 0 [])) ∧
      (f.cmd = 0x10 → s.Gives (.regRead port) (
        let r := (List.range cnt).foldl (fun (a : List Byte × State) i =>
          (a.1 ++ leBytes 4 (a.2.readReg (.session port) (off + 4 * i)).1.toNat, (a.2.readReg (.session port) (off + 4 * i)).2)) ([], x)
        r.2.respond n 0 r.1)) ∧
      (f.cmd = 0x11 → s.Gives (.regWrite port) (
        let w := fun (z : State) (i : Nat) => z.writeReg (.session port) (off + 4 * i) (BitVec.ofNat 32 (leAt f.payload (8 + 4 * i) 4))
        let r := (List.range cnt).foldl (fun (a : Nat × State) i => (if a.2.writeApplied (w a.2 i) (off + 4 * i) then a.1 + 1 else a.1, w a.2 i)) (0, x)
        r.2.respond n 0 (leBytes 4 r.1))) ∧
      (f.cmd = 0x12 → s.Gives (.sqcClear port) (
        let q := x.readReg (.session port) off
        let v := BitVec.ofNat 32 (q.1.toNat / 16777216 * 16777216 + leAt f.payload 4 4 % 16777216)
        (if (regRow off).any fun r => r.acc == .sqc then q.2.writeReg (.session port) off v else q.2).respond n 0 (leBytes 4 q.1.toNat))))

/-- Lanes, negotiation, heartbeats, and what the partner sends (18_pair_link.md (R424, R425, R426, R428, R429, R430, R431, R432, R434, R435, R436)).
A lane that locks or drops shows in PAI_LINK and moves the state as R425 says: an enabled link that was DOWN or TRAINING goes on to NEGOTIATING, a
DEGRADED one with both lanes UP goes UP, an UP one that loses a lane is DEGRADED, and the last lane takes the link down. While NEGOTIATING a HELLO
goes out on every up lane once it is due, and one that comes in shows the partner; once both have gone, the link comes up with the highest version
that both offer, or the mismatch is reported. While the link is up a heartbeat is sent once it is due, with its number, its time and the device's
state, measurement and epoch; one not taken before is taken, measured and judged; an interval without one is counted and HB_MISS in a row take the
link down. A mailbox post of the partner not taken before arrives where its mailbox can receive; an event of the partner is pending with EV307; a
frame enters the parser unless its code fails, and its credit goes back; credit comes back, never past 32 KiB; a class that waited too long is
flushed and counted with EV311. A cell with a bad CRC is counted and has no other effect. -/
def Obligations.PairLinkCommandsComplete : Prop :=
  ∀ (s : State) (lane : Fin 2) (pl1 pl2 : Bool) (step : BitVec 8) (devId : BitVec 128) (sub : Fin 4) (hb : Heartbeat) (seq : BitVec 16) (m : BitVec 8)
    (len : Fin 5) (w0 w1 w2 w3 : Word) (e : BitVec 9) (tc : Fin 8) (code : BitVec 4) (bytes : List Byte) (ext : Option SecExt) (n : Nat),
    let k := 128 + m.toNat % 16
    let a := s.setLanes (s.pai.lane0 || lane.val == 0) (s.pai.lane1 || lane.val != 0)
    let d := s.setLanes (s.pai.lane0 && lane.val != 0) (s.pai.lane1 && lane.val == 0)
    let hello := Emit.cell 1 [s.helloMap, 0xB0, Config.devId.toNat] []
    let agreed := fun (c : Instr) (z : State) (p1 p2 : Bool) =>
      (p2 = true → s.offersPl2 = true → s.Gives c (z.comeUp 2)) ∧
      (¬(p2 = true ∧ s.offersPl2 = true) → p1 = true → s.Gives c (z.comeUp 1)) ∧
      (¬(p2 = true ∧ s.offersPl2 = true) → p1 = false → s.Gives c (z.sqc Reg.PAI_STATUS 1 305))
    (s.pairEn = false → s.Gives (.umberLaneLock lane) a) ∧
    (s.pairEn = true →
      (s.linkSt = 0 → s.Gives (.umberLaneLock lane) ((a.setLinkSt 1).setLinkSt 2)) ∧
      (s.linkSt = 1 → s.Gives (.umberLaneLock lane) (a.setLinkSt 2)) ∧
      (s.linkSt = 4 → a.pai.lane0 = true → a.pai.lane1 = true → s.Gives (.umberLaneLock lane) (a.setLinkSt 3)) ∧
      (s.linkSt = 4 → ¬(a.pai.lane0 = true ∧ a.pai.lane1 = true) → s.Gives (.umberLaneLock lane) a) ∧
      ((s.linkSt = 2 ∨ s.linkSt = 3) → s.Gives (.umberLaneLock lane) a)) ∧
    (d.laneUp = false → s.Gives (.umberLaneDrop lane) d.pairDown) ∧
    (d.laneUp = true → s.linkSt = 3 → s.Gives (.umberLaneDrop lane) (d.setLinkSt 4)) ∧
    (d.laneUp = true → s.linkSt ≠ 3 → s.Gives (.umberLaneDrop lane) d) ∧
    (s.linkSt = 2 → s.laneUp = true → s.pai.helloAt ≤ s.up →
      let y := if s.pai.lane0 then s.emit hello else s
      let y1 := if s.pai.lane1 then y.emit hello else y
      let z := { y1 with pai := { y1.pai with helloSent := true, helloAt := s.up + usU } }
      (s.pai.helloSeen = none → s.Gives .helloTx z) ∧ (∀ p1 p2, s.pai.helloSeen = some (p1, p2) → agreed .helloTx z p1 p2)) ∧
    (s.linkSt = 2 →
      let y := (each (List.range 4) (fun x w => x.setReg (Reg.PAI_PEER_ID w) (wordAt (natWords 4 devId.toNat) w)) s).setRf Reg.PAI_LINK 15 8 step.toNat
      let z := { y with pai := { y.pai with helloSeen := some (pl1, pl2) } }
      (s.pai.helloSent = false → s.Gives (.helloRx true ⟨pl1, pl2⟩ step devId) z) ∧
      (s.pai.helloSent = true → agreed (.helloRx true ⟨pl1, pl2⟩ step devId) z pl1 pl2)) ∧
    (s.pairUp = true → s.pai.hbAt ≤ s.up → ∃ u t3 t4 ws, exec .heartbeatTx s = .next u ∧
      u.pai = { s.pai with hbSeq := s.pai.hbSeq + 1, hbAt := s.up + s.rf Reg.PAI_CFG 24 15 * usU } ∧
      u.out = .cell 1 ([s.pai.hbSeq.toNat, s.time, t3, t4, devCode s.pwr.st, s.devMeas, (s.reg Reg.AUT_EPOCH_CUR).toNat] ++ ws) [] :: s.out ∧
      (∀ h t, s.pai.lastHb = some (h, t) → t3 = h.txTime ∧ t4 = s.pai.lastRx) ∧ s.OnlyChanges u [.pai, .out]) ∧
    (s.pairUp = true → hb.seq ∉ s.pai.rxHb →
      let y := { s with pai := { s.pai with
        rxHb := (hb.seq :: s.pai.rxHb).take 32768, lastHb := some (hb, s.up), lastRx := s.stampNs sub.val, miss := 0, missFrom := s.up } }
      s.Gives (.heartbeatRx ⟨true, hb, sub⟩)
        ((((y.setRf Reg.PAI_LINK 21 19 hb.state.toNat).measurePair hb (s.stampNs sub.val)).judgeAlign hb).judgeMatch.judgeChans)) ∧
    (s.pairUp = true → hb.seq ∈ s.pai.rxHb → s.Gives (.heartbeatRx ⟨true, hb, sub⟩) s) ∧
    (s.pairUp = true → s.pai.missFrom + s.rf Reg.PAI_CFG 24 15 * usU ≤ s.up →
      let y := ({ s with pai := { s.pai with miss := s.pai.miss + 1, missFrom := s.up } }).inc Reg.PAI_HB_MISS
      s.Gives .heartbeatMiss (if s.rf Reg.PAI_CFG 28 25 ≤ s.pai.miss + 1 then y.pairDown else y)) ∧
    (s.pairUp = true → seq ∉ s.pai.rxMbx →
      let y := { s with pai := { s.pai with rxMbx := (seq :: s.pai.rxMbx).take 32768 } }
      let can := s.rb (mbCfgReg 0 k) 31 = true ∧ s.mbDir 0 k = false ∧ s.rf (mbCfgReg 0 k) 29 27 < 6
      (can → s.Gives (.pairMbxRx ⟨true, seq⟩ m len w0 w1 w2 w3)
        ((y.inc Reg.PAI_MB_RX).mbArrive (s.rf (mbCfgReg 0 k) 29 27) k (mailWords #v[w0, w1, w2, w3] len.val) true)) ∧
      (¬can → s.Gives (.pairMbxRx ⟨true, seq⟩ m len w0 w1 w2 w3) y)) ∧
    (s.pairUp = true → e.toNat < 320 → s.Gives (.pairEvtRx ⟨true, e⟩)
      ((s.setRb (Reg.PAI_PEER_EVT_PEND (e.toNat / 32)) (e.toNat % 32) true).sqc Reg.PAI_STATUS 3 307)) ∧
    (s.pairUp = true →
      let y := s.emit (.cell 1 [tc.val, bytes.length] [])
      (verdictFail code.toNat = true → s.Gives (.pairFrameRx ⟨true, tc⟩ code bytes ext) (y.inc Reg.PAI_FRAME_DROP)) ∧
      (verdictFail code.toNat = false → s.Gives (.pairFrameRx ⟨true, tc⟩ code bytes ext)
        ((y.newFrame 31 0 false).2.frameTail (y.newFrame 31 0 false).1 bytes true false ext))) ∧
    (s.pairUp = true → ∃ u, exec (.creditReturnRx ⟨true, tc⟩ n) s = .next u ∧ u.credit tc.val = min 32768 (s.credit tc.val + n) ∧
      (∀ j, j ≠ tc.val → u.credit j = s.credit j) ∧ s.OnlyChanges u [.pai]) ∧
    (s.pairUp = true → s.creditWaited tc.val = true → s.Gives (.creditTimeout tc)
      (((each (s.egq (egKey 21 tc.val)) (fun z j => z.endCopy j false) s).inc Reg.PAI_CREDIT_FLUSH).sqc Reg.PAI_STATUS 7 311)) ∧
    (∀ c ∈ [Instr.helloRx false ⟨pl1, pl2⟩ step devId, .heartbeatRx ⟨false, hb, sub⟩, .pairMbxRx ⟨false, seq⟩ m len w0 w1 w2 w3, .pairEvtRx ⟨false, e⟩,
      .pairFrameRx ⟨false, tc⟩ code bytes ext, .creditReturnRx ⟨false, tc⟩ n], s.Gives c (s.inc Reg.PAI_CELL_ERR))

/-- Records, fetches from history, DRAM refresh, temperature, training, and the scrubs (19_memory_and_recording.md (R443, R445, R446, R450, R452,
R454), 05_sample_planes.md (R139), 12_shared_memory_locks_mailboxes.md (R282)). A record whose cells are all there is completed, its index advances
and EV315 is raised. ADMIN triggers a set that is on; else DENIED or BAD_INDEX. A fetch unit of its owner starts, or shows BAD with EV318 where its
stream, history or SRAM is not the partition's, and ends with its cells in SRAM or with a status. Refresh counts while DRAM is ready and follows the
temperature; a reading sets or counts down the hot state; training ends READY or FAILED. A scrub that finds a correctable error counts it, an
uncorrectable one marks the place. -/
def Obligations.RecorderAndMemoryCommandsComplete : Prop :=
  ∀ (s : State) (who : Accessor) (r : Fin 16) (val : Word) (t : ThreadId) (f : Fin 8) (c : Fin 6) (hot pass : Bool) (line : Nat) (cs : BitVec 13) (i : BitVec 8)
    (unit : BitVec 18),
    let n := 8 * c.val + f.val
    let u := s.fetchU n
    let h := fld u.w0 12 0
    let cnt := fld u.w2 27 16 + 1
    let g := fetchFirst (s.histHi h) u.w1
    let v := putFld val 31 28 9
    let m := 8 * t.cl.val + f.val
    (∀ j, (s.recSet r.val).job = some j → s.recordFull r.val j = true → s.Gives (.recordComplete r)
      ((((s.putHeader r.val true).setRecSet r.val { job := none }).setReg (Reg.REC_SET_WR r.val)
        (BitVec.ofNat 32 ((j.slot + 1) % max (s.setSlots r.val) 1))).sqc Reg.REC_STATUS 1 315)) ∧
    (s.mayWrite who Reg.REC_CMD = true →
      (s.isAdmin who = false → s.Gives (.recCmdTrigger who val) (s.recResult v 5)) ∧
      (s.isAdmin who = true → s.rb (Reg.REC_SET_CFG (fld val 3 0)) 31 = false → s.Gives (.recCmdTrigger who val) (s.recResult v 6)) ∧
      (s.isAdmin who = true → s.rb (Reg.REC_SET_CFG (fld val 3 0)) 31 = true →
        s.Gives (.recCmdTrigger who val) ((s.recTrigger (fld val 3 0) 8).recResult v 0))) ∧
    (s.fetchUnitOf t.cl.val f.val (s.thrPart (tidNat t)) = true → (s.fetchU m).status ≠ 1 →
      let b := { s.fetchU m with w2 := putBit val 31 true }
      if s.fetchOk t.cl.val (s.thrPart (tidNat t)) b then
        ∃ x, exec (.histFetchStart t f val) s = .next x ∧ x.fetchU m = { b with status := 1 } ∧ (∀ j, j ≠ m → x.fetchU j = s.fetchU j) ∧
          s.OnlyChanges x [.clu]
      else s.Gives (.histFetchStart t f val) ((s.setFetchU m b).fetchErr.setFetchU m { b with status := 3 })) ∧
    (u.status = 1 → (s.histHolds h g && s.histHolds h (g + cnt - 1)) = false → s.Gives (.histFetchDone c f) (s.fetchErr.setFetchU n { u with status := 4 })) ∧
    (u.status = 1 → s.histHolds h g = true → s.histHolds h (g + cnt - 1) = true →
      ((List.range cnt).all fun j => !s.ddr.bad.gd false (s.histAddr h (g + j) / 64)) = true →
      s.Gives (.histFetchDone c f) ((s.fetchCopy c.val u g cnt).setFetchU n { u with status := 2 })) ∧
    (s.ddrState = 2 →
      let n := if s.ddr32Gb then 410 else 295
      let y0 := (s.inc Reg.DDR_REFRESH).pmuFab 0x8E {} n
      let y := { y0 with ddr := { y0.ddr with busyTo := s.up + n * nsU } }
      (y.rb Reg.DDR_STATUS 7 = decide (s.ddr.cool < 4) → s.Gives .ddrRefresh y) ∧
      (y.rb Reg.DDR_STATUS 7 ≠ decide (s.ddr.cool < 4) → s.Gives .ddrRefresh ((y.setRb Reg.DDR_STATUS 7 (decide (s.ddr.cool < 4))).sqc Reg.DDR_STATUS 6 319)) ∧
      s.Gives (.ddrTempRead hot) { s with ddr := { s.ddr with cool := if hot then 0 else min 4 (s.ddr.cool + 1) } } ∧
      (if 64 * line < s.ddrBytes then s.Gives (.ddrScrubLine line .clean) s ∧ s.Gives (.ddrScrubLine line .single) (s.inc Reg.DDR_ECC_CORR) ∧
        s.Gives (.ddrScrubLine line .uncorrectable) (s.badLine line) else ∀ err, s.Gives (.ddrScrubLine line err) s)) ∧
    (s.ddrState = 1 → s.Gives (.ddrTrainingDone pass) ((s.setRf Reg.DDR_STATUS 1 0 (if pass then 2 else 3)).sqc Reg.DDR_STATUS 4 312)) ∧
    s.Gives (.planeSramScrub cs i .clean) s ∧ s.Gives (.planeSramScrub cs i .single)
      (({ s with spe := { s.spe with flip := s.spe.flip.sd false (256 * cs.toNat + i.toNat) false } }).inc Reg.SPE_ECC_CORR) ∧
    s.Gives (.planeSramScrub cs i .uncorrectable)
      ((({ s with spe := { s.spe with ecc := s.spe.ecc.sd false (256 * cs.toNat + i.toNat) true } }).inc Reg.SPE_ECC_UNCORR).sqc Reg.SPE_STATUS 9 171) ∧
    s.Gives (.clusterSramScrub c unit .clean) s ∧ s.Gives (.clusterSramScrub c unit .single) (s.inc (Reg.CLU_SRAM_CORR c.val)) ∧
    s.Gives (.clusterSramScrub c unit .uncorrectable)
      { s with clu := { s.clu with sramBad := s.clu.sramBad.sd false (262144 * c.val + unit.toNat) true } }

/-- Counter control, halts, contexts, debug memory, breakpoints, the JTAG proof and the TAP (20_performance_and_debug.md (R459, R464, R465, R466,
R467, R468, R469, R470), 08_rospel_core.md (R214)). The counters freeze, go on and clear. Under a CONTROL grant a thread that can be halted halts; a
halted one goes on, steps, or takes a context; in another state STATE_REJECT, without the grant DENIED and counted. Selecting a halted context shows
its 41 words; debug memory is read and written under its grant. A breakpoint halts its thread, with CORE_HALT the core's others too. A proof with GO
uses up the nonce, binds JTAG where it holds, and locks the path at the eighth failure; the lock ends at its time. IDCODE, BYPASS and SAMPLE act
always, EXTEST, CLAMP and HIGHZ in TEST for a proven ADMIN slot, else as BYPASS; TAP reset unbinds. -/
def Obligations.DebugCommandsComplete : Prop :=
  ∀ (s : State) (who : Accessor) (val : Word) (t : ThreadId) (bnd : Nat),
    let v := fun op => putFld val 31 28 (8 + op)
    let c := fld val 26 24
    let k := 128 * c + fld val 22 16
    let p := s.thrPart k
    let a := (s.reg Reg.DBG_MEM_ADDR).toNat
    let sp := fld val 1 0
    let kc := 128 * fld val 10 8 + fld val 6 0
    (s.mayWrite who Reg.PMU_CTRL = true → tbit val 1 = false →
      s.Gives (.pmuFreeze who val) (s.setReg Reg.PMU_CTRL 1) ∧ s.Gives (.pmuUnfreeze who val) (s.setReg Reg.PMU_CTRL 0)) ∧
    (s.mayWrite who Reg.PMU_CTRL = true → ∃ u, exec (.pmuClear who val) s = .next u ∧ (∀ r ∈ pmuValueRegs, u.reg r = regReset (regKey r)) ∧
      s.RegsStay u (Reg.PMU_CTRL :: pmuValueRegs) ∧ s.OnlyChanges u [.regs]) ∧
    (s.mayWrite who Reg.DBG_CMD = true → c < 6 →
      (s.dbgAllowed who p true = false → s.Gives (.dbgHalt who val) (s.dbgDeny.dbgResult (v 1) 5) ∧ s.Gives (.dbgResume who val) (s.dbgDeny.dbgResult (v 2) 5) ∧
        s.Gives (.dbgStep who val) (s.dbgDeny.dbgResult (v 3) 5) ∧ s.Gives (.dbgWriteCtx who val) (s.dbgDeny.dbgResult (v 4) 5)) ∧
      (s.dbgAllowed who p true = true →
        (s.canHalt k = true → s.Gives (.dbgHalt who val) ((s.haltThread k 2 0).dbgResult (v 1) 0)) ∧
        (s.canHalt k = false → s.Gives (.dbgHalt who val) (s.dbgResult (v 1) 7)) ∧
        ((s.thr k).st = .halted → s.Gives (.dbgResume who val) ((s.goOn k false).dbgResult (v 2) 0) ∧
          s.Gives (.dbgStep who val) ((s.goOn k true).dbgResult (v 3) 0) ∧
          s.Gives (.dbgWriteCtx who val)
            ((((s.cpxDrain k).updThr k fun x => { x with ctx := x.ctx.ofWords s.dbgCtxData }).refetch k).dbgResult (v 4) 0)) ∧
        ((s.thr k).st ≠ .halted → s.Gives (.dbgResume who val) (s.dbgResult (v 2) 7) ∧ s.Gives (.dbgStep who val) (s.dbgResult (v 3) 7) ∧
          s.Gives (.dbgWriteCtx who val) (s.dbgResult (v 4) 7))) ∧
      (∀ q, s.dbgMemPart c k sp a = some q → (sp = 2 → (s.thr k).st = .halted) →
        (s.dbgAllowed who q false = true → s.Gives (.dbgMemRd who val) ((s.setReg Reg.DBG_MEM_DATA (s.dbgRead c k sp a)).dbgResult (v 5) 0)) ∧
        (s.dbgAllowed who q true = true → s.dbgWritable c sp a = true →
          s.Gives (.dbgMemWr who val) ((s.dbgStore c k sp a (s.reg Reg.DBG_MEM_DATA)).dbgResult (v 6) 0)) ∧
        (s.dbgAllowed who q true = false → s.Gives (.dbgMemWr who val) (s.dbgDeny.dbgResult (v 6) 5)))) ∧
    (s.mayWrite who Reg.DBG_CTX_SEL = true → fld val 10 8 < 6 → s.dbgAllowed who (s.thrPart kc) false = true → (s.thr kc).st = .halted → ∃ u,
      exec (.dbgCtxSelect who val) s = .next u ∧
      ∀ w, w < 41 → u.reg (Reg.DBG_CTX_DATA w) = wordAt (((s.setReg Reg.DBG_CTX_SEL (BitVec.ofNat 32 (fld val 10 8 * 256 + fld val 6 0))).cpxDrain kc).thr
        kc).ctx.words w) ∧
    (∀ b, s.bpHit (tidNat t) = some b → s.Gives (.breakpointHit t)
      ((if s.rb (Reg.CLU_DBG_BP t.cl.val t.core.val b) 28 then
          each ((List.range 8).filter (· != t.thr.val)) (fun x i =>
            if x.canHalt (tidNat t / 8 * 8 + i) then x.haltThread (tidNat t / 8 * 8 + i) 1 b else x) s
        else s).haltThread (tidNat t) 1 b)) ∧
    (s.mayWrite who Reg.DBG_JTAG = true → s.dbg.lockedUntil = none → ∃ u, exec (.jtagProof who val) s = .next u ∧ u.dbg.nonce = s.dbg.nonce + 1 ∧
      u.reg Reg.DBG_JTAG = BitVec.ofNat 32 (fld val 19 16 * 65536 + fld val 3 0) ∧
      (if s.jtagProves (fld val 19 16) (fld val 3 0) then u.dbg.bound = some (fld val 19 16) ∧ u.rb Reg.DBG_STATUS 0 = true ∧ u.dbg.fails = 0
        else u.dbg.bound = s.dbg.bound ∧ (s.dbg.fails = 7 → u.dbg.lockedUntil = some (s.up + 60 * secU)) ∧
          (s.dbg.fails ≠ 7 → u.dbg.fails = s.dbg.fails + 1 ∧ u.dbg.lockedUntil = none)) ∧ s.OnlyChanges u [.regs, .dbg]) ∧
    (∀ x, s.dbg.lockedUntil = some x → x ≤ s.up → s.Gives .jtagLockoutExpire { s with dbg := { s.dbg with lockedUntil := none } }) ∧
    s.Gives .jtagIdcode (s.emit (.tdo (s.reg Reg.SYS_ID_JTAG).toNat)) ∧ s.Gives .jtagBypass s.jtagPass ∧
    (∃ u o, exec (.jtagSamplePreload bnd) s = .next u ∧ u.dbg = { s.dbg with boundary := bnd, tap := 0 } ∧ u.out = .tdo o :: s.out ∧
      s.OnlyChanges u [.fv, .dbg, .out]) ∧
    (s.tapMayDrive = true → (∃ u o, exec (.jtagExtest bnd) s = .next u ∧ u.dbg = { s.dbg with boundary := bnd, tap := 1 } ∧ u.out = .tdo o :: s.out ∧
        s.OnlyChanges u [.fv, .dbg, .out]) ∧
      s.Gives .jtagClamp (({ s with dbg := { s.dbg with tap := 2 } }).emit (.tdo 0)) ∧
      s.Gives .jtagHighz (({ s with dbg := { s.dbg with tap := 3 } }).emit (.tdo 0))) ∧
    (s.tapMayDrive = false → ∀ i ∈ [.jtagExtest bnd, .jtagClamp, .jtagHighz], s.Gives i s.jtagPass) ∧
    (∃ u, exec .tapReset s = .next u ∧ u.dbg = { s.dbg with bound := none, boundAdmin := false, tap := 0, captured := 0 } ∧
      u.rb Reg.DBG_STATUS 0 = false ∧ s.RegsStay u [Reg.DBG_STATUS] ∧ s.OnlyChanges u [.regs, .dbg])

/-- Resets and their causes, boot, state requests, voltage and temperature (21_power_reset_and_package.md (R472, R473, R475, R476, R480, R481, R482,
R483, R486, R489, R490, R494)). In every state but COLD a main reset, by RESET_N, by loss of power, by a rail or by a keyed write, takes the device
to COLD with its cause, counts it, and keeps the OTP and the credentials. When VAUX falls, of Sable only the OTP stays; when it rises, every register
but the device state and the kill flag is at its reset value. A keyed write resets a mask of clusters in the states that allow it and shows
STATE_REJECT in the others, and a reset that is done starts the cluster again with EV007. Release of reset begins the boot; CONFIG_ENTRY, after
training, enters CONFIG, or SAFE when the kill is blown. A state request is kept pending where R483 allows it, else refused; SAFE is entered at once.
The boot engine goes on by one step and can be aborted. A voltage write that is acknowledged is taken, the third that is not is given up;
temperatures show with their hottest; the maximum follows the present reading when written; PAUSE's second ends. -/
def Obligations.PowerAndBootCommandsComplete : Prop :=
  ∀ (s : State) (who : Accessor) (val : Word) (rail : Fin 8) (c : Fin 6) (src : BitVec 2) (avsLow held : Bool) (fail : BitVec 24) (bytes : List Byte)
    (target reported : BitVec 10) (t0 t1 t2 t3 t4 t5 t6 t7 : BitVec 16) (p : Fin 16),
    let ts := [t0, t1, t2, t3, t4, t5, t6, t7]
    let vn := avsStep (s.rf Reg.PWR_AVS 25 16) target.toNat
    let toCold := fun (i : Instr) (cause : Nat) => ∃ u, exec i s = .next u ∧ u.pwr.st = .cold ∧ u.pwr.prev = s.pwr.st ∧
      u.reg Reg.PWR_RESET_CAUSE = BitVec.ofNat 32 cause ∧ u.reg Reg.PWR_RESETS = s.reg Reg.PWR_RESETS + 1 ∧ u.clu = {} ∧ u.ddr = {} ∧ u.pkt = {} ∧
      u.cfg = {} ∧ u.sab.otp = s.sab.otp ∧ u.sab.creds = s.sab.creds
    let z := s.setReg Reg.SYS_STATE_REQ (BitVec.ofNat 32 (fld val 2 0))
    (s.pwr.st ≠ .cold → toCold .mainReset 8 ∧ toCold .pwrGoodLoss 4 ∧
      (s.pwr.resetHigh = true → rail.val ≠ 0 → toCold (.railFault rail) (2 + 256 * min rail.val 6)) ∧
      (s.mayWrite who Reg.SYS_RESET = true → resetKey val = true → fld val 5 0 = 0 → toCold (.sysResetDevice who val) 1)) ∧
    (s.pwr.vaux = true → ∃ u, exec .vauxFall s = .next u ∧ u.pwr.vaux = false ∧ u.sab = { otp := u.sab.otp }) ∧
    (s.pwr.vaux = false → ∃ u, exec .vauxRise s = .next u ∧ u.pwr.vaux = true ∧ u.pwr.st = .cold ∧ u.sab = { otp := s.sab.otp } ∧
      u.rb Reg.SAB_FLAGS 1 = s.sab.otp.kill ∧ ∀ r, regKey r ≠ Reg.SYS_STATE → regKey r ≠ Reg.SAB_FLAGS → u.reg r = regReset (regKey r)) ∧
    (s.mayWrite who Reg.SYS_RESET = true →
      (resetKey val = true → tbit val 8 = false → s.pwr.st ∈ [DevState.test, .service, .recovery] → s.arming = false →
        s.Gives (.sysResetCluster who val) (each ((List.range 6).filter fun i => tbit val i) State.resetCluster s).showResets) ∧
      (resetKey val = true → tbit val 8 = false → ¬(s.pwr.st ∈ [DevState.test, .service, .recovery] ∧ s.arming = false) →
        s.Gives (.sysResetCluster who val) (s.setRf Reg.SYS_RESET_STATUS 3 0 7)) ∧
      (tbit val 8 = true → s.Gives (.sysResetCluster who val) s) ∧ (fld val 5 0 ≠ 0 → s.Gives (.sysResetDevice who val) s) ∧
      (resetKey val = false → s.Gives (.sysResetDevice who val) s ∧ s.Gives (.sysResetCluster who val) s)) ∧
    (s.clu.resetting.gd false c.val = true → s.Gives (.clusterResetDone c) (((s.startCluster c.val).showResets).sqc Reg.SYS_STATUS 4 7)) ∧
    (s.pwr.vaux = true → s.pwr.resetHigh = false →
      let y := (s.bootB1 src avsLow).startTime held
      s.Gives (.resetRelease src avsLow held) ((y.setDdrState (if y.ddrThere then 1 else 0)).bootStep 4)) ∧
    (s.pwr.st = .boot → s.pwr.resetHigh = true → s.ddrState ≠ 1 →
      let y := each (List.range 24) (fun x j => x.setRb (Reg.CFG_TILE j) 19 (fail.getLsbD j)) s
      s.Gives (.configEntry fail) (if s.sab.otp.kill then (y.bootStep 5).goSafe 2 else y.enterConfig)) ∧
    (s.mayWrite who Reg.SYS_STATE_REQ = true →
      (∀ d, devOfCode (fld val 2 0) = some d → d ≠ .safe →
        (s.reqOk d = true → s.Gives (.sysStateReq who val) (({ z with pwr := { z.pwr with req := some d } }).setReg Reg.SYS_STATE_STATUS 0x80000000)) ∧
        (s.reqOk d = false → s.Gives (.sysStateReq who val) (z.setReg Reg.SYS_STATE_STATUS 7))) ∧
      (devOfCode (fld val 2 0) = some .safe →
        ((s.pwr.st = .cold ∨ s.pwr.st = .safe) → s.Gives (.sysStateReq who val) (z.setReg Reg.SYS_STATE_STATUS 7)) ∧
        (s.pwr.st ≠ .cold → s.pwr.st ≠ .safe → s.Gives (.sysStateReq who val) ((z.setReg Reg.SYS_STATE_STATUS 0).goSafe 0))) ∧
      (devOfCode (fld val 2 0) = none → s.Gives (.sysStateReq who val) (z.setReg Reg.SYS_STATE_STATUS 7))) ∧
    (s.engineWaits = false → s.pwr.engine.abort = false → s.Gives (.bootEngineRun bytes) (s.bootStep1 bytes)) ∧
    (s.engineWaits = false → s.pwr.engine.abort = true → s.bootRuns = true → s.Gives (.bootEngineRun bytes) s.bootStop) ∧
    (s.mayWrite who Reg.SYS_BOOT_CTRL = true → s.bootRuns = true →
      (s.engineWaits = true → s.Gives (.bootAbort who val) (s.updEngine fun e => { e with abort := true })) ∧
      (s.engineWaits = false → s.Gives (.bootAbort who val) s.bootStop)) ∧
    (s.pwr.resetHigh = true → s.pwr.avsOff = false → s.rb Reg.PWR_AVS 30 = false →
      (∃ u, exec (.avsUpdate target reported true) s = .next u ∧ u.rf Reg.PWR_AVS 25 16 = vn ∧ u.rf Reg.PWR_AVS 9 0 = reported.toNat ∧
        u.pwr = { s.pwr with avsFails := 0 } ∧ u.out = .avs vn :: s.out ∧ s.RegsStay u [Reg.PWR_AVS] ∧ s.OnlyChanges u [.regs, .pwr, .out]) ∧
      (s.pwr.avsFails < 2 → s.Gives (.avsUpdate target reported false)
        { s.emit (.avs vn) with pwr := { s.pwr with avsFails := s.pwr.avsFails + 1 } }) ∧
      (2 ≤ s.pwr.avsFails → s.Gives (.avsUpdate target reported false)
        ((({ s.emit (.avs vn) with pwr := { s.pwr with avsFails := 3 } }).setRb Reg.PWR_AVS 30 true).sqc Reg.PWR_STATUS 2 6))) ∧
    (s.pwr.resetHigh = true →
      let h := hottest (ts.map (·.toInt)) 0
      let cur := BitVec.ofNat 32 ((BitVec.ofInt 16 h.1).toNat * 65536 + h.2)
      let y := (each (List.range 8) (fun x n => x.setReg (Reg.PWR_TEMP_SENS n) ((ts.getD n 0).setWidth 32)) s).setReg Reg.PWR_TEMP cur
      s.Gives (.temperatureSample t0 t1 t2 t3 t4 t5 t6 t7)
        ((if (BitVec.ofNat 16 (y.rf Reg.PWR_TEMP_MAX 31 16)).toInt < h.1 then y.setReg Reg.PWR_TEMP_MAX cur else y).judgeTemp h.1)) ∧
    (s.mayWrite who Reg.PWR_TEMP_MAX = true → s.Gives (.tempMaxReset who) (s.setReg Reg.PWR_TEMP_MAX (s.reg Reg.PWR_TEMP))) ∧
    ((s.pause p.val).ignoreUntil ≤ s.up → s.Gives (.pauseIgnoreEnd p) (s.setPause p.val { s.pause p.val with ignoreUntil := 0 }))

/-- Register writes, the read of a wide value, the takes of pending events, and DBGACC (00_scope.md (R7, R8, R10),
17_host_interface_and_management.md (R408, R409, R421), 18_pair_link.md (R435), 20_performance_and_debug.md (R464)). A write of a plain read-write
register that has no effect of its own, by one whose role admits it, leaves its writable bits with the value written and every other register as it
was; one that the role does not admit is denied; one of a read-only register leaves it. The read of the lowest word of a wide value answers the word
that a register read gives, and leaves the state that it leaves. A take answers the lowest pending event and clears its bit, or answers zero. DBGACC
first shifts out the data of the read before; a read then captures its value. -/
def Obligations.RegisterCommandsComplete : Prop :=
  ∀ (s : State) (who : Accessor) (off : BitVec 21) (val : Word) (c : Fin 6) (r : RegRow),
    let o := off.toNat
    (regRow o = some r →
      (s.mayWrite who o = false → s.Gives (.registerWrite who off val) (s.denyWrite who)) ∧
      (s.mayWrite who o = true → (r.acc = .ro ∨ r.acc = .rtt) → s.Gives (.registerWrite who off val) s) ∧
      (s.mayWrite who o = true → r.acc = .sqc → s.Gives (.registerWrite who off val) (s.sqcWrite o val)) ∧
      (s.mayWrite who o = true → r.acc = .rwl → s.rb Reg.SAB_CFG 31 = true → s.Gives (.registerWrite who off val) (s.lockedWrite who o)) ∧
      (s.mayWrite who o = true → r.acc = .rwl → s.rb Reg.SAB_CFG 31 = false → ∃ u, exec (.registerWrite who off val) s = .next u ∧
        u.reg o = masked o val ∧ s.RegsStay u [o] ∧ s.OnlyChanges u [.regs]) ∧
      (s.mayWrite who o = true → r.acc = .rw → pmuCfgReg o = false →
        (if 0x100000 ≤ o then s.putCluster who ((o - 0x100000) / 0x10000) o val else s.putFabric who o val) = none → wideOf o = none → ∃ u,
         exec (.registerWrite who off val) s = .next u ∧ u.reg o = masked o val ∧ s.RegsStay u [o] ∧ s.OnlyChanges u [.regs])) ∧
    (∀ lo n, wideOf o = some (lo, 0, n) → s.Gives (.wideRegisterLowRead who off) ((s.readReg who o).2.emit (.readData o (s.readReg who o).1))) ∧
    (∀ e, s.mayTake who (Reg.CLU_EVT_TAKE c.val) = true → s.lowestPending (Reg.CLU_EVT_PEND c.val) = some e → s.Gives (.cluEvtTake who c)
      ((s.setRb (Reg.CLU_EVT_PEND c.val (e / 32)) (e % 32) false).emit (.readData (Reg.CLU_EVT_TAKE c.val) (BitVec.ofNat 32 (2147483648 + e))))) ∧
    (∀ e, s.mayTake who Reg.EVT_ALARM_TAKE = true → s.lowestPending Reg.EVT_ALARM_PEND = some e → s.Gives (.evtAlarmTake who)
      ((s.setRb (Reg.EVT_ALARM_PEND (e / 32)) (e % 32) false).emit (.readData Reg.EVT_ALARM_TAKE (BitVec.ofNat 32 (2147483648 + e))))) ∧
    (∀ e, s.mayTake who Reg.PAI_PEER_EVT_TAKE = true → s.lowestPending Reg.PAI_PEER_EVT_PEND = some e → s.Gives (.paiPeerEvtTake who)
      ((s.setRb (Reg.PAI_PEER_EVT_PEND (e / 32)) (e % 32) false).emit (.readData Reg.PAI_PEER_EVT_TAKE (BitVec.ofNat 32 (2147483648 + e))))) ∧
    (s.mayTake who (Reg.CLU_EVT_TAKE c.val) = true → s.lowestPending (Reg.CLU_EVT_PEND c.val) = none →
      s.Gives (.cluEvtTake who c) (s.emit (.readData (Reg.CLU_EVT_TAKE c.val) 0))) ∧
    (s.mayTake who Reg.EVT_ALARM_TAKE = true → s.lowestPending Reg.EVT_ALARM_PEND = none →
      s.Gives (.evtAlarmTake who) (s.emit (.readData Reg.EVT_ALARM_TAKE 0))) ∧
    (s.mayTake who Reg.PAI_PEER_EVT_TAKE = true → s.lowestPending Reg.PAI_PEER_EVT_PEND = none →
      s.Gives (.paiPeerEvtTake who) (s.emit (.readData Reg.PAI_PEER_EVT_TAKE 0))) ∧
    s.Gives (.jtagDbgacc true off val) ((s.emit (.tdo s.dbg.captured.toNat)).writeReg .jtag o val) ∧
    s.Gives (.jtagDbgacc false off val) (
      let y := (s.emit (.tdo s.dbg.captured.toNat)).readReg .jtag o
      { y.2 with dbg := { y.2.dbg with captured := y.1 } })

/-- A step takes the command at the front of the queue and executes it with the queue's rest; on an empty queue a tick passes (model's choice, logs
1 and 136) (00_scope.md). For every state and command c: a step of the state with c at the front of its queue is exec of c on the state with the
rest of the queue. With an empty queue a step is one tick of the time base, which leaves the queue empty: device time advances by 4 ns; while
RESET_N is low only the always-on count does. The queue and the tick are the model's choices (notes/assumptions/1.md, notes/assumptions/136.md), no
rule of the spec. -/
def Obligations.StepRunsTheFrontCommand : Prop :=
  (∀ (s : State) (c : Instr) (cs : List Instr), step { s with pending := c :: cs } = exec c { s with pending := cs }) ∧
    (∀ s : State, s.pending = [] → step s = .next (tick s)) ∧
    (∀ s : State, (tick s).pending = s.pending ∧ (s.pwr.resetHigh = true → (tick s).time = s.time + 4 * nsU) ∧
      (s.pwr.resetHigh = false → tick s = { s with up := s.up + 4 * nsU }))

/-- The words an instruction is encoded as are decoded to it (09_instruction_set.md (R230, R231, R232, R239), 10_phasor_coprocessor.md (R251)). For
every instruction of the Rospel tables with fields that an encoding can hold, and every value of its operands: its words fit 14 bits, the words
decode to it (a release with [1:0] of its register as its disposition requires), its first word says that it has one or two words, and for a
one-word form the word after it does not matter. -/
def Obligations.RospelEncodingRoundTrip : Prop :=
  ∀ (i : Instr) (t : ThreadId), rosThread i = some t → rosWf i = true → ∃ w w2, rosEncode i = some (w, w2) ∧ w < 16384 ∧ w2 < 16384 ∧
    rosDecode t w w2 (relCode i) = some i ∧ (wordsOf w = 1 ∨ wordsOf w = 2) ∧
    (wordsOf w = 1 → ∀ v, rosDecode t w v (relCode i) = some i)

/-- Every step keeps the canonical form of the memories and of the register store (08_rospel_core.md (R216), 09_instruction_set.md (R221),
05_sample_planes.md (R134), 19_memory_and_recording.md (R440), 00_scope.md (R10)). From every state whose cluster SRAM, program memory, sample
planes, DRAM and register store are in canonical form (keys strictly rising, no entry equal to what an unlisted key reads as), whatever command
stands at the front of the queue, and on an empty queue, a step answers a state in which they are. -/
def Obligations.EveryStepKeepsTheCanonicalForms : Prop :=
  ∀ s : State, Memory.wf s = true → Registers.wf s = true → ∃ u, step s = .next u ∧ Memory.wf u = true ∧ Registers.wf u = true

/-- The state after reset: canonical forms, an empty queue, memories zero, the reset values of the register tables (00_scope.md (R10),
08_rospel_core.md (R216), 09_instruction_set.md (R221), 12_shared_memory_locks_mailboxes.md (R282), 22_register_and_event_maps.md (R497, R501)).
State.reset meets the invariant of EveryStepKeepsTheCanonicalForms; its queue is empty; every byte of cluster SRAM reads zero (R282); every register
reads its reset value, which for EVT_ROUTE(243) is 0x8F3A0000 and for EVT_ROUTE(294) 0x92604000 (the chapter's example). That program memory, planes
and DRAM read zero before anything has written them, and that the machine starts in BOOT with its power good, are the model's choices
(notes/assumptions/5.md, notes/assumptions/6.md, notes/assumptions/138.md), no rule of the spec. -/
def Obligations.ResetState : Prop :=
  Memory.wf State.reset = true ∧ Registers.wf State.reset = true ∧ State.reset.pending = [] ∧
    (∀ a, State.reset.clu.sram.gd 0 a = 0) ∧ (∀ a, State.reset.clu.pmem.gd 0 a = 0) ∧ (∀ a, State.reset.spe.cells.gd 0 a = 0) ∧
    (∀ a, State.reset.ddr.mem.gd 0 a = 0) ∧
    State.reset.reg (Reg.EVT_ROUTE 243) = 0x8F3A0000#32 ∧ State.reset.reg (Reg.EVT_ROUTE 294) = 0x92604000#32 ∧
    (∀ k, State.reset.thr k = {}) ∧ State.reset.time = 0 ∧ State.reset.pwr.st = .boot

/-- Every command completes and changes only the areas of the state that its frame names (00_scope.md (R8), 08_rospel_core.md (R216),
09_instruction_set.md (R224), 02_time_and_angle.md (R27, R28), 05_sample_planes.md (R128), 14_configuration_images.md (R345), 16_security.md
(R382)). Whatever the state, every command answers a next state; the queue stays, and of the areas of the state (time base, device time, registers,
read shadows, held words, output, Indigo, ingress and classifier, AUT, planes, packets, Ochre, clusters, coprocessor, voter, configuration, Sable,
host interface, pair link, DRAM, debug, power) only those that areasOf names for the command may change. No command changes the time base. -/
def Obligations.EveryCommandStaysInItsFrame : Prop :=
  (∀ (s : State) (c : Instr), s.StaysWithin c (areasOf c)) ∧ ∀ c : Instr, Area.up ∉ areasOf c

/-- MFS 0x20-0x23 reads the low words of the thread's own core's counters; at U only while PMU_USER_EN is 1 (R460). A thread that issues MFS with a
number 0x20 to 0x23 in [7:0] of its register receives the low 32 bits of that counter of its own core, the issue itself counted. At K and S always;
at U while PMU_CFG.PMU_USER_EN is 1; at U with PMU_USER_EN 0 it faults PRIV. PMU_CFG is a register that the image sets: reads return it, a write has
no effect. -/
def Obligations.CountersReadByMfs : Prop :=
  (∀ (s : State) (t : ThreadId) (gs : Fin 8) (i : Nat),
      let k := tidNat t
      i < 4 → fld (s.gOf k gs) 7 0 = 0x20 + i →
      (((s.thr k).priv ≠ .u ∨ s.rb Reg.PMU_CFG 0 = true) → s.RunsAs t (.mfs t gs) [.g gs]
        (((s.counted t 1).setG k gs ((s.counted t 1).reg (Reg.CLU_PMU_CTR_LO t.cl.val t.core.val i))).fellThrough t 1)) ∧
      ((s.thr k).priv = .u → s.rb Reg.PMU_CFG 0 = false → s.issues t (.mfs t gs) [.g gs] = true → s.FaultsWith t (.mfs t gs) 2 0)) ∧
    (∀ (s : State) (who : Accessor) (val : Word), s.mayWrite who Reg.PMU_CFG = true →
      s.Gives (.registerWrite who (BitVec.ofNat 21 Reg.PMU_CFG) val) s)

/-- The sample-plane window takes aligned 32-bit reads alone; every other access faults ALIGN (R217). Addresses 0x0100_0000 to 0x0180_3FFF are the
sample-plane window. LDW at a 4-byte-aligned address there loads the word, the whole cell or head word as it stands (0 for a cell with an
uncorrectable error; until 16 ns after a retraction the word before it), where the image grants the thread's partition the channel-stream, and
faults ACCESS where it does not. LDW at any other address there, LDH, LDHU, LDB, LDBU, CRCM, STW, STH and STB at every address there fault ALIGN
with that address and change neither ACC nor the planes. -/
def Obligations.SamplePlaneWindowAccess : Prop :=
  ∀ (s : State) (t : ThreadId) (x : Fin 2) (p : Bool) (d6 : BitVec 6) (pp : Fin 4) (n1 : Fin 8),
    let k := tidNat t
    let ea := fun size => (effAddr (s.ixOf k x) p d6 size).1
    let y := fun size => (s.counted t 1).setIx k x (effAddr (s.ixOf k x) p d6 size).2
    let inPlane := fun (a : Word) => 0x01000000 ≤ a.toNat ∧ a.toNat < 0x01804000
    let ready := fun (i : Instr) => s.issues t i [.acc, .ix x] = true
    (inPlane (ea 4) → (ea 4).toNat % 4 = 0 →
      let o := (ea 4).toNat - 0x01000000
      let cs := if o < 0x800000 then o / 1024 else (s.stream ((o - 0x800000) / 16)).csBase
      let w := if o < 0x800000 then s.cellSeen (o / 4) else s.headWord ((o - 0x800000) / 16) (o % 16 / 4)
      if Config.csGranted (s.thrPart k) cs then
        ∃ z, (y 4).loadAt t (ea 4).toNat 4 = .word w z ∧ z.spe.cells = s.spe.cells ∧ (0x800000 ≤ o → z.spe = s.spe) ∧
          s.RunsAs t (.ldw t x p d6) [.acc, .ix x] ((z.pendRes k { dest := .acc, val := w.signExtend 40, ecc := false, addr := ea 4
                                                                   pc := (s.thr k).ctx.pc, iw := (s.nextWords k).1 }).fellThrough t 1)
      else ready (.ldw t x p d6) → s.FaultsWith t (.ldw t x p d6) 3 (ea 4)) ∧
    (inPlane (ea 4) → (ea 4).toNat % 4 ≠ 0 → ready (.ldw t x p d6) → s.FaultsWith t (.ldw t x p d6) 4 (ea 4)) ∧
    (inPlane (ea 2) → ready (.ldh t x p d6) → s.FaultsWith t (.ldh t x p d6) 4 (ea 2)) ∧
    (inPlane (ea 2) → ready (.ldhu t x p d6) → s.FaultsWith t (.ldhu t x p d6) 4 (ea 2)) ∧
    (inPlane (ea 1) → ready (.ldb t x p d6) → s.FaultsWith t (.ldb t x p d6) 4 (ea 1)) ∧
    (inPlane (ea 1) → ready (.ldbu t x p d6) → s.FaultsWith t (.ldbu t x p d6) 4 (ea 1)) ∧
    (inPlane (ea 4) → ready (.stw t x p d6) → s.FaultsWith t (.stw t x p d6) 4 (ea 4)) ∧
    (inPlane (ea 2) → ready (.sth t x p d6) → s.FaultsWith t (.sth t x p d6) 4 (ea 2)) ∧
    (inPlane (ea 1) → ready (.stb t x p d6) → s.FaultsWith t (.stb t x p d6) 4 (ea 1)) ∧
    (inPlane (s.ixOf k x) → (∀ r, ((s.thr k).pendingFor .acc).getLast? = some r → r.crc = true) → s.issues t (.crcm t pp x n1) [.ix x] = true →
      s.FaultsWith t (.crcm t pp x n1) 4 (s.ixOf k x))

/-- A forwarded event is pending at the partner with EV307 and taken lowest first; while the link is down it is lost and counted (R435). An EVT cell
for event e, received while the link is up, sets bit e of PAI_PEER_EVT_PEND and raises EV307: PAI_STATUS bit 3 is set, SEQ advances, and EV307 is
delivered by its route where the bit was clear. PAI_PEER_EVT_TAKE by an accessor whose role permits it returns TAKEN with the lowest pending event
and clears its bit, or zero where none is pending. An event raised here with the pair link among its destinations leaves in an EVT cell while the
link is up, and adds one to PAI_EVT_LOST while it is down. -/
def Obligations.ForwardedEventsAtThePartner : Prop :=
  ∀ (s : State) (e : BitVec 9) (who : Accessor),
    let x := s.setRb (Reg.PAI_PEER_EVT_PEND (e.toNat / 32)) (e.toNat % 32) true
    let taken := fun (w : Word) (z : State) => s.Gives (.paiPeerEvtTake who) (z.emit (.readData Reg.PAI_PEER_EVT_TAKE w))
    (s.pairUp = true → e.toNat < 320 →
      (s.rb Reg.PAI_STATUS 3 = false →
        s.Gives (.pairEvtRx ⟨true, e⟩) (((x.setRb Reg.PAI_STATUS 3 true).setRf Reg.PAI_STATUS 31 24 (s.rf Reg.PAI_STATUS 31 24 + 1)).deliver 307)) ∧
      (s.rb Reg.PAI_STATUS 3 = true → s.Gives (.pairEvtRx ⟨true, e⟩) (x.setRf Reg.PAI_STATUS 31 24 (s.rf Reg.PAI_STATUS 31 24 + 1))) ∧
      x.rb (Reg.PAI_PEER_EVT_PEND (e.toNat / 32)) (e.toNat % 32) = true) ∧
    (s.mayTake who Reg.PAI_PEER_EVT_TAKE = true →
      (∀ n, n < 320 → s.rb (Reg.PAI_PEER_EVT_PEND (n / 32)) (n % 32) = true → (∀ m, m < n → s.rb (Reg.PAI_PEER_EVT_PEND (m / 32)) (m % 32) = false) →
        taken (BitVec.ofNat 32 (2147483648 + n)) (s.setRb (Reg.PAI_PEER_EVT_PEND (n / 32)) (n % 32) false)) ∧
      ((∀ n, n < 320 → s.rb (Reg.PAI_PEER_EVT_PEND (n / 32)) (n % 32) = false) → taken 0 s)) ∧
    (∀ n, n < 320 → evReserved n = false → s.rb (Reg.EVT_ROUTE n) 15 = true →
      (s.pairUp = false → (s.deliver n).reg Reg.PAI_EVT_LOST = s.reg Reg.PAI_EVT_LOST + 1) ∧
      (s.pairUp = true → .cell 3 [n] [] ∈ (s.deliver n).out ∧ (s.deliver n).reg Reg.PAI_EVT_LOST = s.reg Reg.PAI_EVT_LOST))

/-- Edges and frames of the time inputs, their loss, and the pulse outputs (02_time_and_angle.md (R30, R32, R36, R37)). A 1PPS edge on an input
enabled for it takes the signed distance of the captured device time from the nearest second as the offset of the input and shows it saturated to
32 bits; an interval of 1 s within 1 us counts one more pulse, any other starts the count again, and the fourth in a row qualifies the input. A valid
IRIG-B frame takes the capture less the time of the frame as the offset; a second valid one in a row, one second later, qualifies; an invalid or
missing frame starts the count again, and the second in a row loses the input. An input with no pulse for 1.5 s is lost: its count and its
qualification end. An output pulses once at an edge it is allowed, from the edge for its width. That intervals are measured in the unsteered count
(log 141), that a register saturates (log 140) and that the capture is on the grid of 1 ns (log 157) are the model's choices. -/
def Obligations.TimeInputAndOutputCommandsComplete : Prop :=
  ∀ (s : State) (n : Fin 2) (sub : Fin 4) (cyc : Nat) (f : IrigFrame),
    let r := s.tinSrc n.val
    let on := s.rb (Reg.IND_TIN_CFG n.val) 31
    let shown := if n.val = 0 then Reg.IND_OFFSET_TIN0 else Reg.IND_OFFSET_TIN1
    let at_ := s.up + sub.val * nsU
    let near := r.seen = true ∧ r.last + secU ≤ at_ + usU ∧ at_ ≤ r.last + secU + usU
    let count := if near then r.good + 1 else 0
    let sec := s.irigSec n.val f
    let row := if r.good ≠ 0 ∧ sec = (r.lastSec : Int) + 1 then r.good + 1 else 1
    (on = true → s.tinSig n.val = 0 →
      let off := secOffset (lessNs (s.stampNs sub.val) (s.tinDelay n.val))
      ∃ u, exec (.tinEdgeCapture ⟨n, sub⟩ cyc) s = .next u ∧
        u.tinSrc n.val = { r with seen := true, good := count, qual := r.qual || decide (4 ≤ count), last := at_, off := off } ∧
        u.reg shown = wordOfInt (satS 32 off) ∧ u.time = s.time ∧ s.OnlyChanges u [.regs, .out, .ind, .hst]) ∧
    (on = true → s.tinSig n.val = 1 → f.valid = true →
      let off : Int := (((s.stampNs sub.val : Nat) : Int) / (nsU : Int) - s.tinDelay n.val) - (sec + 1) * 1000000000
      ∃ u, exec (.irigFrameRx ⟨n, sub⟩ f) s = .next u ∧
        u.tinSrc n.val = { r with seen := true, good := row, qual := r.qual || decide (2 ≤ row), last := s.up, lastSec := sec.toNat, missed := 0
                                  off := off } ∧
        u.reg shown = wordOfInt (satS 32 off) ∧ u.time = s.time ∧ s.OnlyChanges u [.regs, .out, .ind, .hst]) ∧
    (on = true → s.tinSig n.val = 1 → ∀ c ∈ [Instr.irigFrameRx ⟨n, sub⟩ { f with valid := false }, .irigFrameMissing n],
      (r.missed = 0 → s.Gives c (s.setTinSrc n.val { r with good := 0, missed := 1 })) ∧
      (r.missed ≠ 0 → s.Gives c (s.loseTin n.val))) ∧
    (s.tinSig n.val = 0 → r.seen = true → r.last + 3 * secU / 2 ≤ s.up →
      s.Gives (.ppsInputTimeout n) (s.loseTin n.val) ∧ (s.loseTin n.val).tinSrc n.val = { off := r.off }) ∧
    (∀ e, s.ppsEdge n.val = some e → s.ppsAllowed n.val = true →
      (s.pps n.val ≠ e + 1 → s.Gives (.ppsOutPulse n)
        ((s.setPps n.val (e + 1)).emit (.pulse n.val e (e + s.rf (Reg.IND_PPS_CFG n.val) 18 0 * usU)))) ∧
      (s.pps n.val = e + 1 → s.Gives (.ppsOutPulse n) s))
end

