-- ==== Sys2Proof/Laws/Store.lean ====
section
/-!
SUPPORT. The laws of the sparse store: a read after a write, reads of other keys, and that every operation keeps the canonical form.
-/

namespace Sys2Proof.Machine

variable {α : Type}

/-! ## Reads after writes -/

theorem SMap.get_del_same (d : Nat → α) (m : SMap α) (k : Nat) : (SMap.del m k).get d k = d k := by
  induction m with
  | nil => rfl
  | cons p m ih => by_cases h : p.1 = k <;> simp [SMap.del, SMap.get, h, ih]

theorem SMap.get_del_ne (d : Nat → α) (m : SMap α) (k j : Nat) (hj : j ≠ k) : (SMap.del m k).get d j = m.get d j := by
  induction m with
  | nil => rfl
  | cons p m ih =>
    by_cases h : p.1 = k
    · have : p.1 ≠ j := fun h' => hj (h' ▸ h)
      simp [SMap.del, SMap.get, h, ih, hj.symm]
    · by_cases h2 : p.1 = j <;> simp [SMap.del, SMap.get, h, h2, ih, hj]

theorem SMap.get_ins_same (d : Nat → α) (m : SMap α) (k : Nat) (v : α) : (SMap.ins m k v).get d k = v := by
  induction m with
  | nil => simp [SMap.ins, SMap.get]
  | cons p m ih =>
    by_cases h : p.1 = k
    · simp [SMap.ins, SMap.get, h]
    · by_cases h2 : k < p.1 <;> simp [SMap.ins, SMap.get, h, h2, ih]

theorem SMap.get_ins_ne (d : Nat → α) (m : SMap α) (k j : Nat) (v : α) (hj : j ≠ k) : (SMap.ins m k v).get d j = m.get d j := by
  induction m with
  | nil => simp [SMap.ins, SMap.get, hj.symm]
  | cons p m ih =>
    by_cases h : p.1 = k
    · have : ¬ k = j := fun h' => hj h'.symm
      simp [SMap.ins, SMap.get, h, this]
    · by_cases h2 : k < p.1
      · simp [SMap.ins, SMap.get, h, h2, hj.symm]
      · simp [SMap.ins, SMap.get, h, h2, ih]

@[simp] theorem SMap.get_set_same [DecidableEq α] (d : Nat → α) (m : SMap α) (k : Nat) (v : α) : (SMap.set d m k v).get d k = v := by
  unfold SMap.set
  split
  · next h => rw [SMap.get_del_same, h]
  · exact SMap.get_ins_same d m k v

theorem SMap.get_set_ne [DecidableEq α] (d : Nat → α) (m : SMap α) (k j : Nat) (v : α) (h : j ≠ k) :
    (SMap.set d m k v).get d j = m.get d j := by
  unfold SMap.set
  split
  · exact SMap.get_del_ne d m k j h
  · exact SMap.get_ins_ne d m k j v h

@[simp] theorem SMap.gd_sd_same [DecidableEq α] (d : α) (m : SMap α) (k : Nat) (v : α) : (SMap.sd d m k v).gd d k = v :=
  SMap.get_set_same _ m k v

theorem SMap.gd_sd_ne [DecidableEq α] (d : α) (m : SMap α) (k j : Nat) (v : α) (h : j ≠ k) : (SMap.sd d m k v).gd d j = m.gd d j :=
  SMap.get_set_ne _ m k j v h

/-! ## The canonical form -/

theorem SMap.wfFrom_weaken [DecidableEq α] (d : Nat → α) (m : SMap α) (a b : Nat) (hab : a ≤ b) (h : SMap.wfFrom d (some b) m = true) :
    SMap.wfFrom d (some a) m = true := by
  cases m with
  | nil => rfl
  | cons p m =>
    simp only [SMap.wfFrom, Bool.and_eq_true, decide_eq_true_eq] at h ⊢
    exact ⟨⟨by omega, h.1.2⟩, h.2⟩

theorem SMap.wfFrom_none [DecidableEq α] (d : Nat → α) (m : SMap α) (a : Nat) (h : SMap.wfFrom d (some a) m = true) :
    SMap.wfFrom d none m = true := by
  cases m with
  | nil => rfl
  | cons p m =>
    simp only [SMap.wfFrom, Bool.and_eq_true, decide_eq_true_eq] at h ⊢
    exact ⟨⟨trivial, h.1.2⟩, h.2⟩

theorem SMap.wfFrom_del [DecidableEq α] (d : Nat → α) (m : SMap α) (k : Nat) (lo : Option Nat) (h : SMap.wfFrom d lo m = true) :
    SMap.wfFrom d lo (SMap.del m k) = true := by
  induction m generalizing lo with
  | nil => rfl
  | cons p m ih =>
    simp only [SMap.wfFrom, Bool.and_eq_true] at h
    by_cases hk : p.1 = k
    · simp only [SMap.del, hk, if_true]
      refine ih lo ?_
      cases lo with
      | none => exact SMap.wfFrom_none d m p.1 h.2
      | some b => exact SMap.wfFrom_weaken d m b p.1 (by have := h.1.1; simp only [decide_eq_true_eq] at this; omega) h.2
    · simp only [SMap.del, hk, if_false, SMap.wfFrom, Bool.and_eq_true]
      exact ⟨h.1, ih _ h.2⟩

theorem SMap.wfFrom_ins [DecidableEq α] (d : Nat → α) (m : SMap α) (k : Nat) (v : α) (lo : Option Nat) (hv : v ≠ d k)
    (hlo : ∀ b, lo = some b → b < k) (h : SMap.wfFrom d lo m = true) : SMap.wfFrom d lo (SMap.ins m k v) = true := by
  induction m generalizing lo with
  | nil =>
    cases lo with
    | none => simp [SMap.ins, SMap.wfFrom, hv]
    | some b => simp [SMap.ins, SMap.wfFrom, hv, hlo b rfl]
  | cons p m ih =>
    simp only [SMap.wfFrom, Bool.and_eq_true] at h
    by_cases hk : p.1 = k
    · simp only [SMap.ins, hk, if_true, SMap.wfFrom, Bool.and_eq_true, decide_eq_true_eq]
      refine ⟨⟨?_, hv⟩, hk ▸ h.2⟩
      cases lo with
      | none => rfl
      | some b => simpa using hlo b rfl
    · by_cases h2 : k < p.1
      · simp only [SMap.ins, hk, h2, if_false, if_true, SMap.wfFrom, Bool.and_eq_true, decide_eq_true_eq]
        refine ⟨⟨?_, hv⟩, ⟨trivial, by simpa using h.1.2⟩, h.2⟩
        cases lo with
        | none => rfl
        | some b => simpa using hlo b rfl
      · simp only [SMap.ins, hk, h2, if_false, SMap.wfFrom, Bool.and_eq_true]
        refine ⟨h.1, ih (some p.1) ?_ h.2⟩
        intro b hb
        cases hb
        omega

/-- A write keeps the canonical form. -/
theorem SMap.wf_set [DecidableEq α] (d : Nat → α) (m : SMap α) (k : Nat) (v : α) (h : SMap.wf d m = true) : SMap.wf d (SMap.set d m k v) = true := by
  unfold SMap.set
  split
  · exact SMap.wfFrom_del d m k none h
  · next hv => exact SMap.wfFrom_ins d m k v none hv (by simp) h

theorem SMap.wf_sd [DecidableEq α] (d : α) (m : SMap α) (k : Nat) (v : α) (h : SMap.wf (fun _ => d) m = true) :
    SMap.wf (fun _ => d) (SMap.sd d m k v) = true := SMap.wf_set _ m k v h

/-- A filter keeps the canonical form. -/
theorem SMap.wfFrom_filter [DecidableEq α] (d : Nat → α) (m : SMap α) (p : Nat × α → Bool) (lo : Option Nat)
    (h : SMap.wfFrom d lo m = true) : SMap.wfFrom d lo (m.filter p) = true := by
  induction m generalizing lo with
  | nil => rfl
  | cons q m ih =>
    simp only [SMap.wfFrom, Bool.and_eq_true] at h
    by_cases hq : p q = true
    · simp only [List.filter_cons, hq, if_true, SMap.wfFrom, Bool.and_eq_true]
      exact ⟨h.1, ih _ h.2⟩
    · simp only [List.filter_cons, hq]
      refine ih lo ?_
      cases lo with
      | none => exact SMap.wfFrom_none d m q.1 h.2
      | some b => exact SMap.wfFrom_weaken d m b q.1 (by have := h.1.1; simp only [decide_eq_true_eq] at this; omega) h.2

end Sys2Proof.Machine
end

