-- ==== Sys2Proof/Laws/State.lean ====
section
/-!
SUPPORT. The laws of the named reads and writes of the state: what a read gives after a write, and what a write leaves as it was.
-/

namespace Sys2Proof.Machine

/-! ## Registers -/

@[simp] theorem State.reg_setReg_same (s : State) (a : Nat) (v : Word) : (s.setReg a v).reg a = v := SMap.get_set_same _ _ _ _

theorem State.reg_setReg_ne (s : State) (a b : Nat) (v : Word) (h : regKey b ≠ regKey a) : (s.setReg a v).reg b = s.reg b :=
  SMap.get_set_ne _ _ _ _ _ h

@[simp] theorem State.setReg_pending (s : State) (a : Nat) (v : Word) : (s.setReg a v).pending = s.pending := rfl
@[simp] theorem State.setReg_up (s : State) (a : Nat) (v : Word) : (s.setReg a v).up = s.up := rfl
@[simp] theorem State.setReg_time (s : State) (a : Nat) (v : Word) : (s.setReg a v).time = s.time := rfl
@[simp] theorem State.setReg_rdShadow (s : State) (a : Nat) (v : Word) : (s.setReg a v).rdShadow = s.rdShadow := rfl
@[simp] theorem State.setReg_wrHold (s : State) (a : Nat) (v : Word) : (s.setReg a v).wrHold = s.wrHold := rfl
@[simp] theorem State.setReg_fv (s : State) (a : Nat) (v : Word) : (s.setReg a v).fv = s.fv := rfl
@[simp] theorem State.setReg_out (s : State) (a : Nat) (v : Word) : (s.setReg a v).out = s.out := rfl
@[simp] theorem State.setReg_ind (s : State) (a : Nat) (v : Word) : (s.setReg a v).ind = s.ind := rfl
@[simp] theorem State.setReg_ing (s : State) (a : Nat) (v : Word) : (s.setReg a v).ing = s.ing := rfl
@[simp] theorem State.setReg_aut (s : State) (a : Nat) (v : Word) : (s.setReg a v).aut = s.aut := rfl
@[simp] theorem State.setReg_spe (s : State) (a : Nat) (v : Word) : (s.setReg a v).spe = s.spe := rfl
@[simp] theorem State.setReg_pkt (s : State) (a : Nat) (v : Word) : (s.setReg a v).pkt = s.pkt := rfl
@[simp] theorem State.setReg_och (s : State) (a : Nat) (v : Word) : (s.setReg a v).och = s.och := rfl
@[simp] theorem State.setReg_clu (s : State) (a : Nat) (v : Word) : (s.setReg a v).clu = s.clu := rfl
@[simp] theorem State.setReg_cpx (s : State) (a : Nat) (v : Word) : (s.setReg a v).cpx = s.cpx := rfl
@[simp] theorem State.setReg_vrm (s : State) (a : Nat) (v : Word) : (s.setReg a v).vrm = s.vrm := rfl
@[simp] theorem State.setReg_cfg (s : State) (a : Nat) (v : Word) : (s.setReg a v).cfg = s.cfg := rfl
@[simp] theorem State.setReg_sab (s : State) (a : Nat) (v : Word) : (s.setReg a v).sab = s.sab := rfl
@[simp] theorem State.setReg_hst (s : State) (a : Nat) (v : Word) : (s.setReg a v).hst = s.hst := rfl
@[simp] theorem State.setReg_pai (s : State) (a : Nat) (v : Word) : (s.setReg a v).pai = s.pai := rfl
@[simp] theorem State.setReg_ddr (s : State) (a : Nat) (v : Word) : (s.setReg a v).ddr = s.ddr := rfl
@[simp] theorem State.setReg_dbg (s : State) (a : Nat) (v : Word) : (s.setReg a v).dbg = s.dbg := rfl
@[simp] theorem State.setReg_pwr (s : State) (a : Nat) (v : Word) : (s.setReg a v).pwr = s.pwr := rfl
@[simp] theorem State.setRf_pending (s : State) (a hi lo v : Nat) : (s.setRf a hi lo v).pending = s.pending := rfl
@[simp] theorem State.setRf_up (s : State) (a hi lo v : Nat) : (s.setRf a hi lo v).up = s.up := rfl
@[simp] theorem State.setRf_time (s : State) (a hi lo v : Nat) : (s.setRf a hi lo v).time = s.time := rfl
@[simp] theorem State.setRf_rdShadow (s : State) (a hi lo v : Nat) : (s.setRf a hi lo v).rdShadow = s.rdShadow := rfl
@[simp] theorem State.setRf_wrHold (s : State) (a hi lo v : Nat) : (s.setRf a hi lo v).wrHold = s.wrHold := rfl
@[simp] theorem State.setRf_fv (s : State) (a hi lo v : Nat) : (s.setRf a hi lo v).fv = s.fv := rfl
@[simp] theorem State.setRf_out (s : State) (a hi lo v : Nat) : (s.setRf a hi lo v).out = s.out := rfl
@[simp] theorem State.setRf_ind (s : State) (a hi lo v : Nat) : (s.setRf a hi lo v).ind = s.ind := rfl
@[simp] theorem State.setRf_ing (s : State) (a hi lo v : Nat) : (s.setRf a hi lo v).ing = s.ing := rfl
@[simp] theorem State.setRf_aut (s : State) (a hi lo v : Nat) : (s.setRf a hi lo v).aut = s.aut := rfl
@[simp] theorem State.setRf_spe (s : State) (a hi lo v : Nat) : (s.setRf a hi lo v).spe = s.spe := rfl
@[simp] theorem State.setRf_pkt (s : State) (a hi lo v : Nat) : (s.setRf a hi lo v).pkt = s.pkt := rfl
@[simp] theorem State.setRf_och (s : State) (a hi lo v : Nat) : (s.setRf a hi lo v).och = s.och := rfl
@[simp] theorem State.setRf_clu (s : State) (a hi lo v : Nat) : (s.setRf a hi lo v).clu = s.clu := rfl
@[simp] theorem State.setRf_cpx (s : State) (a hi lo v : Nat) : (s.setRf a hi lo v).cpx = s.cpx := rfl
@[simp] theorem State.setRf_vrm (s : State) (a hi lo v : Nat) : (s.setRf a hi lo v).vrm = s.vrm := rfl
@[simp] theorem State.setRf_cfg (s : State) (a hi lo v : Nat) : (s.setRf a hi lo v).cfg = s.cfg := rfl
@[simp] theorem State.setRf_sab (s : State) (a hi lo v : Nat) : (s.setRf a hi lo v).sab = s.sab := rfl
@[simp] theorem State.setRf_hst (s : State) (a hi lo v : Nat) : (s.setRf a hi lo v).hst = s.hst := rfl
@[simp] theorem State.setRf_pai (s : State) (a hi lo v : Nat) : (s.setRf a hi lo v).pai = s.pai := rfl
@[simp] theorem State.setRf_ddr (s : State) (a hi lo v : Nat) : (s.setRf a hi lo v).ddr = s.ddr := rfl
@[simp] theorem State.setRf_dbg (s : State) (a hi lo v : Nat) : (s.setRf a hi lo v).dbg = s.dbg := rfl
@[simp] theorem State.setRf_pwr (s : State) (a hi lo v : Nat) : (s.setRf a hi lo v).pwr = s.pwr := rfl
@[simp] theorem State.setRb_pending (s : State) (a i : Nat) (b : Bool) : (s.setRb a i b).pending = s.pending := rfl
@[simp] theorem State.setRb_up (s : State) (a i : Nat) (b : Bool) : (s.setRb a i b).up = s.up := rfl
@[simp] theorem State.setRb_time (s : State) (a i : Nat) (b : Bool) : (s.setRb a i b).time = s.time := rfl
@[simp] theorem State.setRb_rdShadow (s : State) (a i : Nat) (b : Bool) : (s.setRb a i b).rdShadow = s.rdShadow := rfl
@[simp] theorem State.setRb_wrHold (s : State) (a i : Nat) (b : Bool) : (s.setRb a i b).wrHold = s.wrHold := rfl
@[simp] theorem State.setRb_fv (s : State) (a i : Nat) (b : Bool) : (s.setRb a i b).fv = s.fv := rfl
@[simp] theorem State.setRb_out (s : State) (a i : Nat) (b : Bool) : (s.setRb a i b).out = s.out := rfl
@[simp] theorem State.setRb_ind (s : State) (a i : Nat) (b : Bool) : (s.setRb a i b).ind = s.ind := rfl
@[simp] theorem State.setRb_ing (s : State) (a i : Nat) (b : Bool) : (s.setRb a i b).ing = s.ing := rfl
@[simp] theorem State.setRb_aut (s : State) (a i : Nat) (b : Bool) : (s.setRb a i b).aut = s.aut := rfl
@[simp] theorem State.setRb_spe (s : State) (a i : Nat) (b : Bool) : (s.setRb a i b).spe = s.spe := rfl
@[simp] theorem State.setRb_pkt (s : State) (a i : Nat) (b : Bool) : (s.setRb a i b).pkt = s.pkt := rfl
@[simp] theorem State.setRb_och (s : State) (a i : Nat) (b : Bool) : (s.setRb a i b).och = s.och := rfl
@[simp] theorem State.setRb_clu (s : State) (a i : Nat) (b : Bool) : (s.setRb a i b).clu = s.clu := rfl
@[simp] theorem State.setRb_cpx (s : State) (a i : Nat) (b : Bool) : (s.setRb a i b).cpx = s.cpx := rfl
@[simp] theorem State.setRb_vrm (s : State) (a i : Nat) (b : Bool) : (s.setRb a i b).vrm = s.vrm := rfl
@[simp] theorem State.setRb_cfg (s : State) (a i : Nat) (b : Bool) : (s.setRb a i b).cfg = s.cfg := rfl
@[simp] theorem State.setRb_sab (s : State) (a i : Nat) (b : Bool) : (s.setRb a i b).sab = s.sab := rfl
@[simp] theorem State.setRb_hst (s : State) (a i : Nat) (b : Bool) : (s.setRb a i b).hst = s.hst := rfl
@[simp] theorem State.setRb_pai (s : State) (a i : Nat) (b : Bool) : (s.setRb a i b).pai = s.pai := rfl
@[simp] theorem State.setRb_ddr (s : State) (a i : Nat) (b : Bool) : (s.setRb a i b).ddr = s.ddr := rfl
@[simp] theorem State.setRb_dbg (s : State) (a i : Nat) (b : Bool) : (s.setRb a i b).dbg = s.dbg := rfl
@[simp] theorem State.setRb_pwr (s : State) (a i : Nat) (b : Bool) : (s.setRb a i b).pwr = s.pwr := rfl
@[simp] theorem State.add_pending (s : State) (a n : Nat) : (s.add a n).pending = s.pending := rfl
@[simp] theorem State.add_up (s : State) (a n : Nat) : (s.add a n).up = s.up := rfl
@[simp] theorem State.add_time (s : State) (a n : Nat) : (s.add a n).time = s.time := rfl
@[simp] theorem State.add_rdShadow (s : State) (a n : Nat) : (s.add a n).rdShadow = s.rdShadow := rfl
@[simp] theorem State.add_wrHold (s : State) (a n : Nat) : (s.add a n).wrHold = s.wrHold := rfl
@[simp] theorem State.add_fv (s : State) (a n : Nat) : (s.add a n).fv = s.fv := rfl
@[simp] theorem State.add_out (s : State) (a n : Nat) : (s.add a n).out = s.out := rfl
@[simp] theorem State.add_ind (s : State) (a n : Nat) : (s.add a n).ind = s.ind := rfl
@[simp] theorem State.add_ing (s : State) (a n : Nat) : (s.add a n).ing = s.ing := rfl
@[simp] theorem State.add_aut (s : State) (a n : Nat) : (s.add a n).aut = s.aut := rfl
@[simp] theorem State.add_spe (s : State) (a n : Nat) : (s.add a n).spe = s.spe := rfl
@[simp] theorem State.add_pkt (s : State) (a n : Nat) : (s.add a n).pkt = s.pkt := rfl
@[simp] theorem State.add_och (s : State) (a n : Nat) : (s.add a n).och = s.och := rfl
@[simp] theorem State.add_clu (s : State) (a n : Nat) : (s.add a n).clu = s.clu := rfl
@[simp] theorem State.add_cpx (s : State) (a n : Nat) : (s.add a n).cpx = s.cpx := rfl
@[simp] theorem State.add_vrm (s : State) (a n : Nat) : (s.add a n).vrm = s.vrm := rfl
@[simp] theorem State.add_cfg (s : State) (a n : Nat) : (s.add a n).cfg = s.cfg := rfl
@[simp] theorem State.add_sab (s : State) (a n : Nat) : (s.add a n).sab = s.sab := rfl
@[simp] theorem State.add_hst (s : State) (a n : Nat) : (s.add a n).hst = s.hst := rfl
@[simp] theorem State.add_pai (s : State) (a n : Nat) : (s.add a n).pai = s.pai := rfl
@[simp] theorem State.add_ddr (s : State) (a n : Nat) : (s.add a n).ddr = s.ddr := rfl
@[simp] theorem State.add_dbg (s : State) (a n : Nat) : (s.add a n).dbg = s.dbg := rfl
@[simp] theorem State.add_pwr (s : State) (a n : Nat) : (s.add a n).pwr = s.pwr := rfl
@[simp] theorem State.inc_pending (s : State) (a : Nat) : (s.inc a).pending = s.pending := rfl
@[simp] theorem State.inc_up (s : State) (a : Nat) : (s.inc a).up = s.up := rfl
@[simp] theorem State.inc_time (s : State) (a : Nat) : (s.inc a).time = s.time := rfl
@[simp] theorem State.inc_rdShadow (s : State) (a : Nat) : (s.inc a).rdShadow = s.rdShadow := rfl
@[simp] theorem State.inc_wrHold (s : State) (a : Nat) : (s.inc a).wrHold = s.wrHold := rfl
@[simp] theorem State.inc_fv (s : State) (a : Nat) : (s.inc a).fv = s.fv := rfl
@[simp] theorem State.inc_out (s : State) (a : Nat) : (s.inc a).out = s.out := rfl
@[simp] theorem State.inc_ind (s : State) (a : Nat) : (s.inc a).ind = s.ind := rfl
@[simp] theorem State.inc_ing (s : State) (a : Nat) : (s.inc a).ing = s.ing := rfl
@[simp] theorem State.inc_aut (s : State) (a : Nat) : (s.inc a).aut = s.aut := rfl
@[simp] theorem State.inc_spe (s : State) (a : Nat) : (s.inc a).spe = s.spe := rfl
@[simp] theorem State.inc_pkt (s : State) (a : Nat) : (s.inc a).pkt = s.pkt := rfl
@[simp] theorem State.inc_och (s : State) (a : Nat) : (s.inc a).och = s.och := rfl
@[simp] theorem State.inc_clu (s : State) (a : Nat) : (s.inc a).clu = s.clu := rfl
@[simp] theorem State.inc_cpx (s : State) (a : Nat) : (s.inc a).cpx = s.cpx := rfl
@[simp] theorem State.inc_vrm (s : State) (a : Nat) : (s.inc a).vrm = s.vrm := rfl
@[simp] theorem State.inc_cfg (s : State) (a : Nat) : (s.inc a).cfg = s.cfg := rfl
@[simp] theorem State.inc_sab (s : State) (a : Nat) : (s.inc a).sab = s.sab := rfl
@[simp] theorem State.inc_hst (s : State) (a : Nat) : (s.inc a).hst = s.hst := rfl
@[simp] theorem State.inc_pai (s : State) (a : Nat) : (s.inc a).pai = s.pai := rfl
@[simp] theorem State.inc_ddr (s : State) (a : Nat) : (s.inc a).ddr = s.ddr := rfl
@[simp] theorem State.inc_dbg (s : State) (a : Nat) : (s.inc a).dbg = s.dbg := rfl
@[simp] theorem State.inc_pwr (s : State) (a : Nat) : (s.inc a).pwr = s.pwr := rfl

/-! ## What is sent, free values, the end of a command -/

@[simp] theorem State.reg_emit (s : State) (e : Emit) (a : Nat) : (s.emit e).reg a = s.reg a := rfl
@[simp] theorem State.emit_pending (s : State) (e : Emit) : (s.emit e).pending = s.pending := rfl
@[simp] theorem State.emit_up (s : State) (e : Emit) : (s.emit e).up = s.up := rfl
@[simp] theorem State.emit_time (s : State) (e : Emit) : (s.emit e).time = s.time := rfl
@[simp] theorem State.emit_regs (s : State) (e : Emit) : (s.emit e).regs = s.regs := rfl
@[simp] theorem State.emit_rdShadow (s : State) (e : Emit) : (s.emit e).rdShadow = s.rdShadow := rfl
@[simp] theorem State.emit_wrHold (s : State) (e : Emit) : (s.emit e).wrHold = s.wrHold := rfl
@[simp] theorem State.emit_fv (s : State) (e : Emit) : (s.emit e).fv = s.fv := rfl
@[simp] theorem State.emit_ind (s : State) (e : Emit) : (s.emit e).ind = s.ind := rfl
@[simp] theorem State.emit_ing (s : State) (e : Emit) : (s.emit e).ing = s.ing := rfl
@[simp] theorem State.emit_aut (s : State) (e : Emit) : (s.emit e).aut = s.aut := rfl
@[simp] theorem State.emit_spe (s : State) (e : Emit) : (s.emit e).spe = s.spe := rfl
@[simp] theorem State.emit_pkt (s : State) (e : Emit) : (s.emit e).pkt = s.pkt := rfl
@[simp] theorem State.emit_och (s : State) (e : Emit) : (s.emit e).och = s.och := rfl
@[simp] theorem State.emit_clu (s : State) (e : Emit) : (s.emit e).clu = s.clu := rfl
@[simp] theorem State.emit_cpx (s : State) (e : Emit) : (s.emit e).cpx = s.cpx := rfl
@[simp] theorem State.emit_vrm (s : State) (e : Emit) : (s.emit e).vrm = s.vrm := rfl
@[simp] theorem State.emit_cfg (s : State) (e : Emit) : (s.emit e).cfg = s.cfg := rfl
@[simp] theorem State.emit_sab (s : State) (e : Emit) : (s.emit e).sab = s.sab := rfl
@[simp] theorem State.emit_hst (s : State) (e : Emit) : (s.emit e).hst = s.hst := rfl
@[simp] theorem State.emit_pai (s : State) (e : Emit) : (s.emit e).pai = s.pai := rfl
@[simp] theorem State.emit_ddr (s : State) (e : Emit) : (s.emit e).ddr = s.ddr := rfl
@[simp] theorem State.emit_dbg (s : State) (e : Emit) : (s.emit e).dbg = s.dbg := rfl
@[simp] theorem State.emit_pwr (s : State) (e : Emit) : (s.emit e).pwr = s.pwr := rfl
@[simp] theorem State.emit_out (s : State) (e : Emit) : (s.emit e).out = e :: s.out := rfl
@[simp] theorem State.reg_closed (s t : State) (a : Nat) : (s.closed t).reg a = t.reg a := rfl
@[simp] theorem State.closed_pending (s t : State) : (s.closed t).pending = t.pending := rfl
@[simp] theorem State.closed_up (s t : State) : (s.closed t).up = t.up := rfl
@[simp] theorem State.closed_time (s t : State) : (s.closed t).time = t.time := rfl
@[simp] theorem State.closed_regs (s t : State) : (s.closed t).regs = t.regs := rfl
@[simp] theorem State.closed_rdShadow (s t : State) : (s.closed t).rdShadow = t.rdShadow := rfl
@[simp] theorem State.closed_wrHold (s t : State) : (s.closed t).wrHold = t.wrHold := rfl
@[simp] theorem State.closed_fv (s t : State) : (s.closed t).fv = t.fv := rfl
@[simp] theorem State.closed_ind (s t : State) : (s.closed t).ind = t.ind := rfl
@[simp] theorem State.closed_ing (s t : State) : (s.closed t).ing = t.ing := rfl
@[simp] theorem State.closed_aut (s t : State) : (s.closed t).aut = t.aut := rfl
@[simp] theorem State.closed_spe (s t : State) : (s.closed t).spe = t.spe := rfl
@[simp] theorem State.closed_pkt (s t : State) : (s.closed t).pkt = t.pkt := rfl
@[simp] theorem State.closed_och (s t : State) : (s.closed t).och = t.och := rfl
@[simp] theorem State.closed_clu (s t : State) : (s.closed t).clu = t.clu := rfl
@[simp] theorem State.closed_cpx (s t : State) : (s.closed t).cpx = t.cpx := rfl
@[simp] theorem State.closed_vrm (s t : State) : (s.closed t).vrm = t.vrm := rfl
@[simp] theorem State.closed_cfg (s t : State) : (s.closed t).cfg = t.cfg := rfl
@[simp] theorem State.closed_sab (s t : State) : (s.closed t).sab = t.sab := rfl
@[simp] theorem State.closed_hst (s t : State) : (s.closed t).hst = t.hst := rfl
@[simp] theorem State.closed_pai (s t : State) : (s.closed t).pai = t.pai := rfl
@[simp] theorem State.closed_ddr (s t : State) : (s.closed t).ddr = t.ddr := rfl
@[simp] theorem State.closed_dbg (s t : State) : (s.closed t).dbg = t.dbg := rfl
@[simp] theorem State.closed_pwr (s t : State) : (s.closed t).pwr = t.pwr := rfl
@[simp] theorem State.freeW_pending (s : State) : s.freeW.2.pending = s.pending := rfl
@[simp] theorem State.freeN_pending (s : State) (n : Nat) : (s.freeN n).2.pending = s.pending := rfl
@[simp] theorem State.freeW_up (s : State) : s.freeW.2.up = s.up := rfl
@[simp] theorem State.freeN_up (s : State) (n : Nat) : (s.freeN n).2.up = s.up := rfl
@[simp] theorem State.freeW_time (s : State) : s.freeW.2.time = s.time := rfl
@[simp] theorem State.freeN_time (s : State) (n : Nat) : (s.freeN n).2.time = s.time := rfl
@[simp] theorem State.freeW_regs (s : State) : s.freeW.2.regs = s.regs := rfl
@[simp] theorem State.freeN_regs (s : State) (n : Nat) : (s.freeN n).2.regs = s.regs := rfl
@[simp] theorem State.freeW_rdShadow (s : State) : s.freeW.2.rdShadow = s.rdShadow := rfl
@[simp] theorem State.freeN_rdShadow (s : State) (n : Nat) : (s.freeN n).2.rdShadow = s.rdShadow := rfl
@[simp] theorem State.freeW_wrHold (s : State) : s.freeW.2.wrHold = s.wrHold := rfl
@[simp] theorem State.freeN_wrHold (s : State) (n : Nat) : (s.freeN n).2.wrHold = s.wrHold := rfl
@[simp] theorem State.freeW_out (s : State) : s.freeW.2.out = s.out := rfl
@[simp] theorem State.freeN_out (s : State) (n : Nat) : (s.freeN n).2.out = s.out := rfl
@[simp] theorem State.freeW_ind (s : State) : s.freeW.2.ind = s.ind := rfl
@[simp] theorem State.freeN_ind (s : State) (n : Nat) : (s.freeN n).2.ind = s.ind := rfl
@[simp] theorem State.freeW_ing (s : State) : s.freeW.2.ing = s.ing := rfl
@[simp] theorem State.freeN_ing (s : State) (n : Nat) : (s.freeN n).2.ing = s.ing := rfl
@[simp] theorem State.freeW_aut (s : State) : s.freeW.2.aut = s.aut := rfl
@[simp] theorem State.freeN_aut (s : State) (n : Nat) : (s.freeN n).2.aut = s.aut := rfl
@[simp] theorem State.freeW_spe (s : State) : s.freeW.2.spe = s.spe := rfl
@[simp] theorem State.freeN_spe (s : State) (n : Nat) : (s.freeN n).2.spe = s.spe := rfl
@[simp] theorem State.freeW_pkt (s : State) : s.freeW.2.pkt = s.pkt := rfl
@[simp] theorem State.freeN_pkt (s : State) (n : Nat) : (s.freeN n).2.pkt = s.pkt := rfl
@[simp] theorem State.freeW_och (s : State) : s.freeW.2.och = s.och := rfl
@[simp] theorem State.freeN_och (s : State) (n : Nat) : (s.freeN n).2.och = s.och := rfl
@[simp] theorem State.freeW_clu (s : State) : s.freeW.2.clu = s.clu := rfl
@[simp] theorem State.freeN_clu (s : State) (n : Nat) : (s.freeN n).2.clu = s.clu := rfl
@[simp] theorem State.freeW_cpx (s : State) : s.freeW.2.cpx = s.cpx := rfl
@[simp] theorem State.freeN_cpx (s : State) (n : Nat) : (s.freeN n).2.cpx = s.cpx := rfl
@[simp] theorem State.freeW_vrm (s : State) : s.freeW.2.vrm = s.vrm := rfl
@[simp] theorem State.freeN_vrm (s : State) (n : Nat) : (s.freeN n).2.vrm = s.vrm := rfl
@[simp] theorem State.freeW_cfg (s : State) : s.freeW.2.cfg = s.cfg := rfl
@[simp] theorem State.freeN_cfg (s : State) (n : Nat) : (s.freeN n).2.cfg = s.cfg := rfl
@[simp] theorem State.freeW_sab (s : State) : s.freeW.2.sab = s.sab := rfl
@[simp] theorem State.freeN_sab (s : State) (n : Nat) : (s.freeN n).2.sab = s.sab := rfl
@[simp] theorem State.freeW_hst (s : State) : s.freeW.2.hst = s.hst := rfl
@[simp] theorem State.freeN_hst (s : State) (n : Nat) : (s.freeN n).2.hst = s.hst := rfl
@[simp] theorem State.freeW_pai (s : State) : s.freeW.2.pai = s.pai := rfl
@[simp] theorem State.freeN_pai (s : State) (n : Nat) : (s.freeN n).2.pai = s.pai := rfl
@[simp] theorem State.freeW_ddr (s : State) : s.freeW.2.ddr = s.ddr := rfl
@[simp] theorem State.freeN_ddr (s : State) (n : Nat) : (s.freeN n).2.ddr = s.ddr := rfl
@[simp] theorem State.freeW_dbg (s : State) : s.freeW.2.dbg = s.dbg := rfl
@[simp] theorem State.freeN_dbg (s : State) (n : Nat) : (s.freeN n).2.dbg = s.dbg := rfl
@[simp] theorem State.freeW_pwr (s : State) : s.freeW.2.pwr = s.pwr := rfl
@[simp] theorem State.freeN_pwr (s : State) (n : Nat) : (s.freeN n).2.pwr = s.pwr := rfl

@[simp] theorem State.freeN_lt (s : State) (n : Nat) (h : 0 < n) : (s.freeN n).1 < n := Nat.mod_lt _ h

/-! ## Records of replicated units -/

@[simp] theorem State.port1588_setPort1588 (s : State) (k : Nat) (v : PtpPort) : (s.setPort1588 k v).port1588 k = v := SMap.gd_sd_same _ _ _ _
theorem State.port1588_setPort1588_ne (s : State) (k j : Nat) (v : PtpPort) (h : j ≠ k) : (s.setPort1588 k v).port1588 j = s.port1588 j := SMap.gd_sd_ne _ _ _ _ _ h
@[simp] theorem State.reg_setPort1588 (s : State) (k a : Nat) (v : PtpPort) : (s.setPort1588 k v).reg a = s.reg a := rfl
@[simp] theorem State.setPort1588_pending (s : State) (k : Nat) (v : PtpPort) : (s.setPort1588 k v).pending = s.pending := rfl
@[simp] theorem State.setPort1588_up (s : State) (k : Nat) (v : PtpPort) : (s.setPort1588 k v).up = s.up := rfl
@[simp] theorem State.setPort1588_time (s : State) (k : Nat) (v : PtpPort) : (s.setPort1588 k v).time = s.time := rfl
@[simp] theorem State.setPort1588_regs (s : State) (k : Nat) (v : PtpPort) : (s.setPort1588 k v).regs = s.regs := rfl
@[simp] theorem State.setPort1588_out (s : State) (k : Nat) (v : PtpPort) : (s.setPort1588 k v).out = s.out := rfl
@[simp] theorem State.setPort1588_fv (s : State) (k : Nat) (v : PtpPort) : (s.setPort1588 k v).fv = s.fv := rfl
@[simp] theorem State.unit_setUnit (s : State) (k : Nat) (v : Option ArmedInstant) : (s.setUnit k v).unit k = v := SMap.gd_sd_same _ _ _ _
theorem State.unit_setUnit_ne (s : State) (k j : Nat) (v : Option ArmedInstant) (h : j ≠ k) : (s.setUnit k v).unit j = s.unit j := SMap.gd_sd_ne _ _ _ _ _ h
@[simp] theorem State.reg_setUnit (s : State) (k a : Nat) (v : Option ArmedInstant) : (s.setUnit k v).reg a = s.reg a := rfl
@[simp] theorem State.setUnit_pending (s : State) (k : Nat) (v : Option ArmedInstant) : (s.setUnit k v).pending = s.pending := rfl
@[simp] theorem State.setUnit_up (s : State) (k : Nat) (v : Option ArmedInstant) : (s.setUnit k v).up = s.up := rfl
@[simp] theorem State.setUnit_time (s : State) (k : Nat) (v : Option ArmedInstant) : (s.setUnit k v).time = s.time := rfl
@[simp] theorem State.setUnit_regs (s : State) (k : Nat) (v : Option ArmedInstant) : (s.setUnit k v).regs = s.regs := rfl
@[simp] theorem State.setUnit_out (s : State) (k : Nat) (v : Option ArmedInstant) : (s.setUnit k v).out = s.out := rfl
@[simp] theorem State.setUnit_fv (s : State) (k : Nat) (v : Option ArmedInstant) : (s.setUnit k v).fv = s.fv := rfl
@[simp] theorem State.pps_setPps (s : State) (k : Nat) (v : Nat) : (s.setPps k v).pps k = v := SMap.gd_sd_same _ _ _ _
theorem State.pps_setPps_ne (s : State) (k j : Nat) (v : Nat) (h : j ≠ k) : (s.setPps k v).pps j = s.pps j := SMap.gd_sd_ne _ _ _ _ _ h
@[simp] theorem State.reg_setPps (s : State) (k a : Nat) (v : Nat) : (s.setPps k v).reg a = s.reg a := rfl
@[simp] theorem State.setPps_pending (s : State) (k : Nat) (v : Nat) : (s.setPps k v).pending = s.pending := rfl
@[simp] theorem State.setPps_up (s : State) (k : Nat) (v : Nat) : (s.setPps k v).up = s.up := rfl
@[simp] theorem State.setPps_time (s : State) (k : Nat) (v : Nat) : (s.setPps k v).time = s.time := rfl
@[simp] theorem State.setPps_regs (s : State) (k : Nat) (v : Nat) : (s.setPps k v).regs = s.regs := rfl
@[simp] theorem State.setPps_out (s : State) (k : Nat) (v : Nat) : (s.setPps k v).out = s.out := rfl
@[simp] theorem State.setPps_fv (s : State) (k : Nat) (v : Nat) : (s.setPps k v).fv = s.fv := rfl
@[simp] theorem State.aclk_setAclk (s : State) (k : Nat) (v : AngleClock) : (s.setAclk k v).aclk k = v := SMap.gd_sd_same _ _ _ _
theorem State.aclk_setAclk_ne (s : State) (k j : Nat) (v : AngleClock) (h : j ≠ k) : (s.setAclk k v).aclk j = s.aclk j := SMap.gd_sd_ne _ _ _ _ _ h
@[simp] theorem State.reg_setAclk (s : State) (k a : Nat) (v : AngleClock) : (s.setAclk k v).reg a = s.reg a := rfl
@[simp] theorem State.setAclk_pending (s : State) (k : Nat) (v : AngleClock) : (s.setAclk k v).pending = s.pending := rfl
@[simp] theorem State.setAclk_up (s : State) (k : Nat) (v : AngleClock) : (s.setAclk k v).up = s.up := rfl
@[simp] theorem State.setAclk_time (s : State) (k : Nat) (v : AngleClock) : (s.setAclk k v).time = s.time := rfl
@[simp] theorem State.setAclk_regs (s : State) (k : Nat) (v : AngleClock) : (s.setAclk k v).regs = s.regs := rfl
@[simp] theorem State.setAclk_out (s : State) (k : Nat) (v : AngleClock) : (s.setAclk k v).out = s.out := rfl
@[simp] theorem State.setAclk_fv (s : State) (k : Nat) (v : AngleClock) : (s.setAclk k v).fv = s.fv := rfl
@[simp] theorem State.verify_setVerify (s : State) (k : Nat) (v : VerifyState) : (s.setVerify k v).verify k = v := SMap.gd_sd_same _ _ _ _
theorem State.verify_setVerify_ne (s : State) (k j : Nat) (v : VerifyState) (h : j ≠ k) : (s.setVerify k v).verify j = s.verify j := SMap.gd_sd_ne _ _ _ _ _ h
@[simp] theorem State.reg_setVerify (s : State) (k a : Nat) (v : VerifyState) : (s.setVerify k v).reg a = s.reg a := rfl
@[simp] theorem State.setVerify_pending (s : State) (k : Nat) (v : VerifyState) : (s.setVerify k v).pending = s.pending := rfl
@[simp] theorem State.setVerify_up (s : State) (k : Nat) (v : VerifyState) : (s.setVerify k v).up = s.up := rfl
@[simp] theorem State.setVerify_time (s : State) (k : Nat) (v : VerifyState) : (s.setVerify k v).time = s.time := rfl
@[simp] theorem State.setVerify_regs (s : State) (k : Nat) (v : VerifyState) : (s.setVerify k v).regs = s.regs := rfl
@[simp] theorem State.setVerify_out (s : State) (k : Nat) (v : VerifyState) : (s.setVerify k v).out = s.out := rfl
@[simp] theorem State.setVerify_fv (s : State) (k : Nat) (v : VerifyState) : (s.setVerify k v).fv = s.fv := rfl
@[simp] theorem State.group_setGroup (s : State) (k : Nat) (v : RedGroup) : (s.setGroup k v).group k = v := SMap.gd_sd_same _ _ _ _
theorem State.group_setGroup_ne (s : State) (k j : Nat) (v : RedGroup) (h : j ≠ k) : (s.setGroup k v).group j = s.group j := SMap.gd_sd_ne _ _ _ _ _ h
@[simp] theorem State.reg_setGroup (s : State) (k a : Nat) (v : RedGroup) : (s.setGroup k v).reg a = s.reg a := rfl
@[simp] theorem State.setGroup_pending (s : State) (k : Nat) (v : RedGroup) : (s.setGroup k v).pending = s.pending := rfl
@[simp] theorem State.setGroup_up (s : State) (k : Nat) (v : RedGroup) : (s.setGroup k v).up = s.up := rfl
@[simp] theorem State.setGroup_time (s : State) (k : Nat) (v : RedGroup) : (s.setGroup k v).time = s.time := rfl
@[simp] theorem State.setGroup_regs (s : State) (k : Nat) (v : RedGroup) : (s.setGroup k v).regs = s.regs := rfl
@[simp] theorem State.setGroup_out (s : State) (k : Nat) (v : RedGroup) : (s.setGroup k v).out = s.out := rfl
@[simp] theorem State.setGroup_fv (s : State) (k : Nat) (v : RedGroup) : (s.setGroup k v).fv = s.fv := rfl
@[simp] theorem State.clsSlot_setClsSlot (s : State) (k : Nat) (v : ClsSlot) : (s.setClsSlot k v).clsSlot k = v := SMap.gd_sd_same _ _ _ _
theorem State.clsSlot_setClsSlot_ne (s : State) (k j : Nat) (v : ClsSlot) (h : j ≠ k) : (s.setClsSlot k v).clsSlot j = s.clsSlot j := SMap.gd_sd_ne _ _ _ _ _ h
@[simp] theorem State.reg_setClsSlot (s : State) (k a : Nat) (v : ClsSlot) : (s.setClsSlot k v).reg a = s.reg a := rfl
@[simp] theorem State.setClsSlot_pending (s : State) (k : Nat) (v : ClsSlot) : (s.setClsSlot k v).pending = s.pending := rfl
@[simp] theorem State.setClsSlot_up (s : State) (k : Nat) (v : ClsSlot) : (s.setClsSlot k v).up = s.up := rfl
@[simp] theorem State.setClsSlot_time (s : State) (k : Nat) (v : ClsSlot) : (s.setClsSlot k v).time = s.time := rfl
@[simp] theorem State.setClsSlot_regs (s : State) (k : Nat) (v : ClsSlot) : (s.setClsSlot k v).regs = s.regs := rfl
@[simp] theorem State.setClsSlot_out (s : State) (k : Nat) (v : ClsSlot) : (s.setClsSlot k v).out = s.out := rfl
@[simp] theorem State.setClsSlot_fv (s : State) (k : Nat) (v : ClsSlot) : (s.setClsSlot k v).fv = s.fv := rfl
@[simp] theorem State.stranger_setStranger (s : State) (k : Nat) (v : Option Stranger) : (s.setStranger k v).stranger k = v := SMap.gd_sd_same _ _ _ _
theorem State.stranger_setStranger_ne (s : State) (k j : Nat) (v : Option Stranger) (h : j ≠ k) : (s.setStranger k v).stranger j = s.stranger j := SMap.gd_sd_ne _ _ _ _ _ h
@[simp] theorem State.reg_setStranger (s : State) (k a : Nat) (v : Option Stranger) : (s.setStranger k v).reg a = s.reg a := rfl
@[simp] theorem State.setStranger_pending (s : State) (k : Nat) (v : Option Stranger) : (s.setStranger k v).pending = s.pending := rfl
@[simp] theorem State.setStranger_up (s : State) (k : Nat) (v : Option Stranger) : (s.setStranger k v).up = s.up := rfl
@[simp] theorem State.setStranger_time (s : State) (k : Nat) (v : Option Stranger) : (s.setStranger k v).time = s.time := rfl
@[simp] theorem State.setStranger_regs (s : State) (k : Nat) (v : Option Stranger) : (s.setStranger k v).regs = s.regs := rfl
@[simp] theorem State.setStranger_out (s : State) (k : Nat) (v : Option Stranger) : (s.setStranger k v).out = s.out := rfl
@[simp] theorem State.setStranger_fv (s : State) (k : Nat) (v : Option Stranger) : (s.setStranger k v).fv = s.fv := rfl
@[simp] theorem State.portPol_setPortPol (s : State) (k : Nat) (v : Bucket) : (s.setPortPol k v).portPol k = v := SMap.gd_sd_same _ _ _ _
theorem State.portPol_setPortPol_ne (s : State) (k j : Nat) (v : Bucket) (h : j ≠ k) : (s.setPortPol k v).portPol j = s.portPol j := SMap.gd_sd_ne _ _ _ _ _ h
@[simp] theorem State.reg_setPortPol (s : State) (k a : Nat) (v : Bucket) : (s.setPortPol k v).reg a = s.reg a := rfl
@[simp] theorem State.setPortPol_pending (s : State) (k : Nat) (v : Bucket) : (s.setPortPol k v).pending = s.pending := rfl
@[simp] theorem State.setPortPol_up (s : State) (k : Nat) (v : Bucket) : (s.setPortPol k v).up = s.up := rfl
@[simp] theorem State.setPortPol_time (s : State) (k : Nat) (v : Bucket) : (s.setPortPol k v).time = s.time := rfl
@[simp] theorem State.setPortPol_regs (s : State) (k : Nat) (v : Bucket) : (s.setPortPol k v).regs = s.regs := rfl
@[simp] theorem State.setPortPol_out (s : State) (k : Nat) (v : Bucket) : (s.setPortPol k v).out = s.out := rfl
@[simp] theorem State.setPortPol_fv (s : State) (k : Nat) (v : Bucket) : (s.setPortPol k v).fv = s.fv := rfl
@[simp] theorem State.flowPol_setFlowPol (s : State) (k : Nat) (v : Bucket) : (s.setFlowPol k v).flowPol k = v := SMap.gd_sd_same _ _ _ _
theorem State.flowPol_setFlowPol_ne (s : State) (k j : Nat) (v : Bucket) (h : j ≠ k) : (s.setFlowPol k v).flowPol j = s.flowPol j := SMap.gd_sd_ne _ _ _ _ _ h
@[simp] theorem State.reg_setFlowPol (s : State) (k a : Nat) (v : Bucket) : (s.setFlowPol k v).reg a = s.reg a := rfl
@[simp] theorem State.setFlowPol_pending (s : State) (k : Nat) (v : Bucket) : (s.setFlowPol k v).pending = s.pending := rfl
@[simp] theorem State.setFlowPol_up (s : State) (k : Nat) (v : Bucket) : (s.setFlowPol k v).up = s.up := rfl
@[simp] theorem State.setFlowPol_time (s : State) (k : Nat) (v : Bucket) : (s.setFlowPol k v).time = s.time := rfl
@[simp] theorem State.setFlowPol_regs (s : State) (k : Nat) (v : Bucket) : (s.setFlowPol k v).regs = s.regs := rfl
@[simp] theorem State.setFlowPol_out (s : State) (k : Nat) (v : Bucket) : (s.setFlowPol k v).out = s.out := rfl
@[simp] theorem State.setFlowPol_fv (s : State) (k : Nat) (v : Bucket) : (s.setFlowPol k v).fv = s.fv := rfl
@[simp] theorem State.autCtx_setAutCtx (s : State) (k : Nat) (v : AutCtx) : (s.setAutCtx k v).autCtx k = v := SMap.gd_sd_same _ _ _ _
theorem State.autCtx_setAutCtx_ne (s : State) (k j : Nat) (v : AutCtx) (h : j ≠ k) : (s.setAutCtx k v).autCtx j = s.autCtx j := SMap.gd_sd_ne _ _ _ _ _ h
@[simp] theorem State.reg_setAutCtx (s : State) (k a : Nat) (v : AutCtx) : (s.setAutCtx k v).reg a = s.reg a := rfl
@[simp] theorem State.setAutCtx_pending (s : State) (k : Nat) (v : AutCtx) : (s.setAutCtx k v).pending = s.pending := rfl
@[simp] theorem State.setAutCtx_up (s : State) (k : Nat) (v : AutCtx) : (s.setAutCtx k v).up = s.up := rfl
@[simp] theorem State.setAutCtx_time (s : State) (k : Nat) (v : AutCtx) : (s.setAutCtx k v).time = s.time := rfl
@[simp] theorem State.setAutCtx_regs (s : State) (k : Nat) (v : AutCtx) : (s.setAutCtx k v).regs = s.regs := rfl
@[simp] theorem State.setAutCtx_out (s : State) (k : Nat) (v : AutCtx) : (s.setAutCtx k v).out = s.out := rfl
@[simp] theorem State.setAutCtx_fv (s : State) (k : Nat) (v : AutCtx) : (s.setAutCtx k v).fv = s.fv := rfl
@[simp] theorem State.stream_setStream (s : State) (k : Nat) (v : Stream) : (s.setStream k v).stream k = v := SMap.gd_sd_same _ _ _ _
theorem State.stream_setStream_ne (s : State) (k j : Nat) (v : Stream) (h : j ≠ k) : (s.setStream k v).stream j = s.stream j := SMap.gd_sd_ne _ _ _ _ _ h
@[simp] theorem State.reg_setStream (s : State) (k a : Nat) (v : Stream) : (s.setStream k v).reg a = s.reg a := rfl
@[simp] theorem State.setStream_pending (s : State) (k : Nat) (v : Stream) : (s.setStream k v).pending = s.pending := rfl
@[simp] theorem State.setStream_up (s : State) (k : Nat) (v : Stream) : (s.setStream k v).up = s.up := rfl
@[simp] theorem State.setStream_time (s : State) (k : Nat) (v : Stream) : (s.setStream k v).time = s.time := rfl
@[simp] theorem State.setStream_regs (s : State) (k : Nat) (v : Stream) : (s.setStream k v).regs = s.regs := rfl
@[simp] theorem State.setStream_out (s : State) (k : Nat) (v : Stream) : (s.setStream k v).out = s.out := rfl
@[simp] theorem State.setStream_fv (s : State) (k : Nat) (v : Stream) : (s.setStream k v).fv = s.fv := rfl
@[simp] theorem State.cell_setCell (s : State) (k : Nat) (v : Word) : (s.setCell k v).cell k = v := SMap.gd_sd_same _ _ _ _
theorem State.cell_setCell_ne (s : State) (k j : Nat) (v : Word) (h : j ≠ k) : (s.setCell k v).cell j = s.cell j := SMap.gd_sd_ne _ _ _ _ _ h
@[simp] theorem State.reg_setCell (s : State) (k a : Nat) (v : Word) : (s.setCell k v).reg a = s.reg a := rfl
@[simp] theorem State.setCell_pending (s : State) (k : Nat) (v : Word) : (s.setCell k v).pending = s.pending := rfl
@[simp] theorem State.setCell_up (s : State) (k : Nat) (v : Word) : (s.setCell k v).up = s.up := rfl
@[simp] theorem State.setCell_time (s : State) (k : Nat) (v : Word) : (s.setCell k v).time = s.time := rfl
@[simp] theorem State.setCell_regs (s : State) (k : Nat) (v : Word) : (s.setCell k v).regs = s.regs := rfl
@[simp] theorem State.setCell_out (s : State) (k : Nat) (v : Word) : (s.setCell k v).out = s.out := rfl
@[simp] theorem State.setCell_fv (s : State) (k : Nat) (v : Word) : (s.setCell k v).fv = s.fv := rfl
@[simp] theorem State.cellInfo_setCellInfo (s : State) (k : Nat) (v : CellInfo) : (s.setCellInfo k v).cellInfo k = v := SMap.gd_sd_same _ _ _ _
theorem State.cellInfo_setCellInfo_ne (s : State) (k j : Nat) (v : CellInfo) (h : j ≠ k) : (s.setCellInfo k v).cellInfo j = s.cellInfo j := SMap.gd_sd_ne _ _ _ _ _ h
@[simp] theorem State.reg_setCellInfo (s : State) (k a : Nat) (v : CellInfo) : (s.setCellInfo k v).reg a = s.reg a := rfl
@[simp] theorem State.setCellInfo_pending (s : State) (k : Nat) (v : CellInfo) : (s.setCellInfo k v).pending = s.pending := rfl
@[simp] theorem State.setCellInfo_up (s : State) (k : Nat) (v : CellInfo) : (s.setCellInfo k v).up = s.up := rfl
@[simp] theorem State.setCellInfo_time (s : State) (k : Nat) (v : CellInfo) : (s.setCellInfo k v).time = s.time := rfl
@[simp] theorem State.setCellInfo_regs (s : State) (k : Nat) (v : CellInfo) : (s.setCellInfo k v).regs = s.regs := rfl
@[simp] theorem State.setCellInfo_out (s : State) (k : Nat) (v : CellInfo) : (s.setCellInfo k v).out = s.out := rfl
@[simp] theorem State.setCellInfo_fv (s : State) (k : Nat) (v : CellInfo) : (s.setCellInfo k v).fv = s.fv := rfl
@[simp] theorem State.frame_setFrame (s : State) (k : Nat) (v : Frame) : (s.setFrame k v).frame k = v := SMap.gd_sd_same _ _ _ _
theorem State.frame_setFrame_ne (s : State) (k j : Nat) (v : Frame) (h : j ≠ k) : (s.setFrame k v).frame j = s.frame j := SMap.gd_sd_ne _ _ _ _ _ h
@[simp] theorem State.reg_setFrame (s : State) (k a : Nat) (v : Frame) : (s.setFrame k v).reg a = s.reg a := rfl
@[simp] theorem State.setFrame_pending (s : State) (k : Nat) (v : Frame) : (s.setFrame k v).pending = s.pending := rfl
@[simp] theorem State.setFrame_up (s : State) (k : Nat) (v : Frame) : (s.setFrame k v).up = s.up := rfl
@[simp] theorem State.setFrame_time (s : State) (k : Nat) (v : Frame) : (s.setFrame k v).time = s.time := rfl
@[simp] theorem State.setFrame_regs (s : State) (k : Nat) (v : Frame) : (s.setFrame k v).regs = s.regs := rfl
@[simp] theorem State.setFrame_out (s : State) (k : Nat) (v : Frame) : (s.setFrame k v).out = s.out := rfl
@[simp] theorem State.setFrame_fv (s : State) (k : Nat) (v : Frame) : (s.setFrame k v).fv = s.fv := rfl
@[simp] theorem State.copy_setCopy (s : State) (k : Nat) (v : Copy) : (s.setCopy k v).copy k = v := SMap.gd_sd_same _ _ _ _
theorem State.copy_setCopy_ne (s : State) (k j : Nat) (v : Copy) (h : j ≠ k) : (s.setCopy k v).copy j = s.copy j := SMap.gd_sd_ne _ _ _ _ _ h
@[simp] theorem State.reg_setCopy (s : State) (k a : Nat) (v : Copy) : (s.setCopy k v).reg a = s.reg a := rfl
@[simp] theorem State.setCopy_pending (s : State) (k : Nat) (v : Copy) : (s.setCopy k v).pending = s.pending := rfl
@[simp] theorem State.setCopy_up (s : State) (k : Nat) (v : Copy) : (s.setCopy k v).up = s.up := rfl
@[simp] theorem State.setCopy_time (s : State) (k : Nat) (v : Copy) : (s.setCopy k v).time = s.time := rfl
@[simp] theorem State.setCopy_regs (s : State) (k : Nat) (v : Copy) : (s.setCopy k v).regs = s.regs := rfl
@[simp] theorem State.setCopy_out (s : State) (k : Nat) (v : Copy) : (s.setCopy k v).out = s.out := rfl
@[simp] theorem State.setCopy_fv (s : State) (k : Nat) (v : Copy) : (s.setCopy k v).fv = s.fv := rfl
@[simp] theorem State.queue_setQueue (s : State) (k : Nat) (v : List Nat) : (s.setQueue k v).queue k = v := SMap.gd_sd_same _ _ _ _
theorem State.queue_setQueue_ne (s : State) (k j : Nat) (v : List Nat) (h : j ≠ k) : (s.setQueue k v).queue j = s.queue j := SMap.gd_sd_ne _ _ _ _ _ h
@[simp] theorem State.reg_setQueue (s : State) (k a : Nat) (v : List Nat) : (s.setQueue k v).reg a = s.reg a := rfl
@[simp] theorem State.setQueue_pending (s : State) (k : Nat) (v : List Nat) : (s.setQueue k v).pending = s.pending := rfl
@[simp] theorem State.setQueue_up (s : State) (k : Nat) (v : List Nat) : (s.setQueue k v).up = s.up := rfl
@[simp] theorem State.setQueue_time (s : State) (k : Nat) (v : List Nat) : (s.setQueue k v).time = s.time := rfl
@[simp] theorem State.setQueue_regs (s : State) (k : Nat) (v : List Nat) : (s.setQueue k v).regs = s.regs := rfl
@[simp] theorem State.setQueue_out (s : State) (k : Nat) (v : List Nat) : (s.setQueue k v).out = s.out := rfl
@[simp] theorem State.setQueue_fv (s : State) (k : Nat) (v : List Nat) : (s.setQueue k v).fv = s.fv := rfl
@[simp] theorem State.rob_setRob (s : State) (k : Nat) (v : List Nat) : (s.setRob k v).rob k = v := SMap.gd_sd_same _ _ _ _
theorem State.rob_setRob_ne (s : State) (k j : Nat) (v : List Nat) (h : j ≠ k) : (s.setRob k v).rob j = s.rob j := SMap.gd_sd_ne _ _ _ _ _ h
@[simp] theorem State.reg_setRob (s : State) (k a : Nat) (v : List Nat) : (s.setRob k v).reg a = s.reg a := rfl
@[simp] theorem State.setRob_pending (s : State) (k : Nat) (v : List Nat) : (s.setRob k v).pending = s.pending := rfl
@[simp] theorem State.setRob_up (s : State) (k : Nat) (v : List Nat) : (s.setRob k v).up = s.up := rfl
@[simp] theorem State.setRob_time (s : State) (k : Nat) (v : List Nat) : (s.setRob k v).time = s.time := rfl
@[simp] theorem State.setRob_regs (s : State) (k : Nat) (v : List Nat) : (s.setRob k v).regs = s.regs := rfl
@[simp] theorem State.setRob_out (s : State) (k : Nat) (v : List Nat) : (s.setRob k v).out = s.out := rfl
@[simp] theorem State.setRob_fv (s : State) (k : Nat) (v : List Nat) : (s.setRob k v).fv = s.fv := rfl
@[simp] theorem State.egq_setEgq (s : State) (k : Nat) (v : List Nat) : (s.setEgq k v).egq k = v := SMap.gd_sd_same _ _ _ _
theorem State.egq_setEgq_ne (s : State) (k j : Nat) (v : List Nat) (h : j ≠ k) : (s.setEgq k v).egq j = s.egq j := SMap.gd_sd_ne _ _ _ _ _ h
@[simp] theorem State.reg_setEgq (s : State) (k a : Nat) (v : List Nat) : (s.setEgq k v).reg a = s.reg a := rfl
@[simp] theorem State.setEgq_pending (s : State) (k : Nat) (v : List Nat) : (s.setEgq k v).pending = s.pending := rfl
@[simp] theorem State.setEgq_up (s : State) (k : Nat) (v : List Nat) : (s.setEgq k v).up = s.up := rfl
@[simp] theorem State.setEgq_time (s : State) (k : Nat) (v : List Nat) : (s.setEgq k v).time = s.time := rfl
@[simp] theorem State.setEgq_regs (s : State) (k : Nat) (v : List Nat) : (s.setEgq k v).regs = s.regs := rfl
@[simp] theorem State.setEgq_out (s : State) (k : Nat) (v : List Nat) : (s.setEgq k v).out = s.out := rfl
@[simp] theorem State.setEgq_fv (s : State) (k : Nat) (v : List Nat) : (s.setEgq k v).fv = s.fv := rfl
@[simp] theorem State.sending_setSending (s : State) (k : Nat) (v : Option Nat) : (s.setSending k v).sending k = v := SMap.gd_sd_same _ _ _ _
theorem State.sending_setSending_ne (s : State) (k j : Nat) (v : Option Nat) (h : j ≠ k) : (s.setSending k v).sending j = s.sending j := SMap.gd_sd_ne _ _ _ _ _ h
@[simp] theorem State.reg_setSending (s : State) (k a : Nat) (v : Option Nat) : (s.setSending k v).reg a = s.reg a := rfl
@[simp] theorem State.setSending_pending (s : State) (k : Nat) (v : Option Nat) : (s.setSending k v).pending = s.pending := rfl
@[simp] theorem State.setSending_up (s : State) (k : Nat) (v : Option Nat) : (s.setSending k v).up = s.up := rfl
@[simp] theorem State.setSending_time (s : State) (k : Nat) (v : Option Nat) : (s.setSending k v).time = s.time := rfl
@[simp] theorem State.setSending_regs (s : State) (k : Nat) (v : Option Nat) : (s.setSending k v).regs = s.regs := rfl
@[simp] theorem State.setSending_out (s : State) (k : Nat) (v : Option Nat) : (s.setSending k v).out = s.out := rfl
@[simp] theorem State.setSending_fv (s : State) (k : Nat) (v : Option Nat) : (s.setSending k v).fv = s.fv := rfl
@[simp] theorem State.pause_setPause (s : State) (k : Nat) (v : PauseState) : (s.setPause k v).pause k = v := SMap.gd_sd_same _ _ _ _
theorem State.pause_setPause_ne (s : State) (k j : Nat) (v : PauseState) (h : j ≠ k) : (s.setPause k v).pause j = s.pause j := SMap.gd_sd_ne _ _ _ _ _ h
@[simp] theorem State.reg_setPause (s : State) (k a : Nat) (v : PauseState) : (s.setPause k v).reg a = s.reg a := rfl
@[simp] theorem State.setPause_pending (s : State) (k : Nat) (v : PauseState) : (s.setPause k v).pending = s.pending := rfl
@[simp] theorem State.setPause_up (s : State) (k : Nat) (v : PauseState) : (s.setPause k v).up = s.up := rfl
@[simp] theorem State.setPause_time (s : State) (k : Nat) (v : PauseState) : (s.setPause k v).time = s.time := rfl
@[simp] theorem State.setPause_regs (s : State) (k : Nat) (v : PauseState) : (s.setPause k v).regs = s.regs := rfl
@[simp] theorem State.setPause_out (s : State) (k : Nat) (v : PauseState) : (s.setPause k v).out = s.out := rfl
@[simp] theorem State.setPause_fv (s : State) (k : Nat) (v : PauseState) : (s.setPause k v).fv = s.fv := rfl
@[simp] theorem State.buf_setBuf (s : State) (k : Nat) (v : BufDesc) : (s.setBuf k v).buf k = v := SMap.gd_sd_same _ _ _ _
theorem State.buf_setBuf_ne (s : State) (k j : Nat) (v : BufDesc) (h : j ≠ k) : (s.setBuf k v).buf j = s.buf j := SMap.gd_sd_ne _ _ _ _ _ h
@[simp] theorem State.reg_setBuf (s : State) (k a : Nat) (v : BufDesc) : (s.setBuf k v).reg a = s.reg a := rfl
@[simp] theorem State.setBuf_pending (s : State) (k : Nat) (v : BufDesc) : (s.setBuf k v).pending = s.pending := rfl
@[simp] theorem State.setBuf_up (s : State) (k : Nat) (v : BufDesc) : (s.setBuf k v).up = s.up := rfl
@[simp] theorem State.setBuf_time (s : State) (k : Nat) (v : BufDesc) : (s.setBuf k v).time = s.time := rfl
@[simp] theorem State.setBuf_regs (s : State) (k : Nat) (v : BufDesc) : (s.setBuf k v).regs = s.regs := rfl
@[simp] theorem State.setBuf_out (s : State) (k : Nat) (v : BufDesc) : (s.setBuf k v).out = s.out := rfl
@[simp] theorem State.setBuf_fv (s : State) (k : Nat) (v : BufDesc) : (s.setBuf k v).fv = s.fv := rfl
@[simp] theorem State.pool_setPool (s : State) (k : Nat) (v : PoolStack) : (s.setPool k v).pool k = v := SMap.gd_sd_same _ _ _ _
theorem State.pool_setPool_ne (s : State) (k j : Nat) (v : PoolStack) (h : j ≠ k) : (s.setPool k v).pool j = s.pool j := SMap.gd_sd_ne _ _ _ _ _ h
@[simp] theorem State.reg_setPool (s : State) (k a : Nat) (v : PoolStack) : (s.setPool k v).reg a = s.reg a := rfl
@[simp] theorem State.setPool_pending (s : State) (k : Nat) (v : PoolStack) : (s.setPool k v).pending = s.pending := rfl
@[simp] theorem State.setPool_up (s : State) (k : Nat) (v : PoolStack) : (s.setPool k v).up = s.up := rfl
@[simp] theorem State.setPool_time (s : State) (k : Nat) (v : PoolStack) : (s.setPool k v).time = s.time := rfl
@[simp] theorem State.setPool_regs (s : State) (k : Nat) (v : PoolStack) : (s.setPool k v).regs = s.regs := rfl
@[simp] theorem State.setPool_out (s : State) (k : Nat) (v : PoolStack) : (s.setPool k v).out = s.out := rfl
@[simp] theorem State.setPool_fv (s : State) (k : Nat) (v : PoolStack) : (s.setPool k v).fv = s.fv := rfl
@[simp] theorem State.mac_setMac (s : State) (k : Nat) (v : MacSlot) : (s.setMac k v).mac k = v := SMap.gd_sd_same _ _ _ _
theorem State.mac_setMac_ne (s : State) (k j : Nat) (v : MacSlot) (h : j ≠ k) : (s.setMac k v).mac j = s.mac j := SMap.gd_sd_ne _ _ _ _ _ h
@[simp] theorem State.reg_setMac (s : State) (k a : Nat) (v : MacSlot) : (s.setMac k v).reg a = s.reg a := rfl
@[simp] theorem State.setMac_pending (s : State) (k : Nat) (v : MacSlot) : (s.setMac k v).pending = s.pending := rfl
@[simp] theorem State.setMac_up (s : State) (k : Nat) (v : MacSlot) : (s.setMac k v).up = s.up := rfl
@[simp] theorem State.setMac_time (s : State) (k : Nat) (v : MacSlot) : (s.setMac k v).time = s.time := rfl
@[simp] theorem State.setMac_regs (s : State) (k : Nat) (v : MacSlot) : (s.setMac k v).regs = s.regs := rfl
@[simp] theorem State.setMac_out (s : State) (k : Nat) (v : MacSlot) : (s.setMac k v).out = s.out := rfl
@[simp] theorem State.setMac_fv (s : State) (k : Nat) (v : MacSlot) : (s.setMac k v).fv = s.fv := rfl
@[simp] theorem State.thr_setThr (s : State) (k : Nat) (v : Thread) : (s.setThr k v).thr k = v := SMap.gd_sd_same _ _ _ _
theorem State.thr_setThr_ne (s : State) (k j : Nat) (v : Thread) (h : j ≠ k) : (s.setThr k v).thr j = s.thr j := SMap.gd_sd_ne _ _ _ _ _ h
@[simp] theorem State.reg_setThr (s : State) (k a : Nat) (v : Thread) : (s.setThr k v).reg a = s.reg a := rfl
@[simp] theorem State.setThr_pending (s : State) (k : Nat) (v : Thread) : (s.setThr k v).pending = s.pending := rfl
@[simp] theorem State.setThr_up (s : State) (k : Nat) (v : Thread) : (s.setThr k v).up = s.up := rfl
@[simp] theorem State.setThr_time (s : State) (k : Nat) (v : Thread) : (s.setThr k v).time = s.time := rfl
@[simp] theorem State.setThr_regs (s : State) (k : Nat) (v : Thread) : (s.setThr k v).regs = s.regs := rfl
@[simp] theorem State.setThr_out (s : State) (k : Nat) (v : Thread) : (s.setThr k v).out = s.out := rfl
@[simp] theorem State.setThr_fv (s : State) (k : Nat) (v : Thread) : (s.setThr k v).fv = s.fv := rfl
@[simp] theorem State.task_setTask (s : State) (k : Nat) (v : Task) : (s.setTask k v).task k = v := SMap.gd_sd_same _ _ _ _
theorem State.task_setTask_ne (s : State) (k j : Nat) (v : Task) (h : j ≠ k) : (s.setTask k v).task j = s.task j := SMap.gd_sd_ne _ _ _ _ _ h
@[simp] theorem State.reg_setTask (s : State) (k a : Nat) (v : Task) : (s.setTask k v).reg a = s.reg a := rfl
@[simp] theorem State.setTask_pending (s : State) (k : Nat) (v : Task) : (s.setTask k v).pending = s.pending := rfl
@[simp] theorem State.setTask_up (s : State) (k : Nat) (v : Task) : (s.setTask k v).up = s.up := rfl
@[simp] theorem State.setTask_time (s : State) (k : Nat) (v : Task) : (s.setTask k v).time = s.time := rfl
@[simp] theorem State.setTask_regs (s : State) (k : Nat) (v : Task) : (s.setTask k v).regs = s.regs := rfl
@[simp] theorem State.setTask_out (s : State) (k : Nat) (v : Task) : (s.setTask k v).out = s.out := rfl
@[simp] theorem State.setTask_fv (s : State) (k : Nat) (v : Task) : (s.setTask k v).fv = s.fv := rfl
@[simp] theorem State.ready_setReady (s : State) (k : Nat) (v : List Nat) : (s.setReady k v).ready k = v := SMap.gd_sd_same _ _ _ _
theorem State.ready_setReady_ne (s : State) (k j : Nat) (v : List Nat) (h : j ≠ k) : (s.setReady k v).ready j = s.ready j := SMap.gd_sd_ne _ _ _ _ _ h
@[simp] theorem State.reg_setReady (s : State) (k a : Nat) (v : List Nat) : (s.setReady k v).reg a = s.reg a := rfl
@[simp] theorem State.setReady_pending (s : State) (k : Nat) (v : List Nat) : (s.setReady k v).pending = s.pending := rfl
@[simp] theorem State.setReady_up (s : State) (k : Nat) (v : List Nat) : (s.setReady k v).up = s.up := rfl
@[simp] theorem State.setReady_time (s : State) (k : Nat) (v : List Nat) : (s.setReady k v).time = s.time := rfl
@[simp] theorem State.setReady_regs (s : State) (k : Nat) (v : List Nat) : (s.setReady k v).regs = s.regs := rfl
@[simp] theorem State.setReady_out (s : State) (k : Nat) (v : List Nat) : (s.setReady k v).out = s.out := rfl
@[simp] theorem State.setReady_fv (s : State) (k : Nat) (v : List Nat) : (s.setReady k v).fv = s.fv := rfl
@[simp] theorem State.timer_setTimer (s : State) (k : Nat) (v : Option ArmedInstant) : (s.setTimer k v).timer k = v := SMap.gd_sd_same _ _ _ _
theorem State.timer_setTimer_ne (s : State) (k j : Nat) (v : Option ArmedInstant) (h : j ≠ k) : (s.setTimer k v).timer j = s.timer j := SMap.gd_sd_ne _ _ _ _ _ h
@[simp] theorem State.reg_setTimer (s : State) (k a : Nat) (v : Option ArmedInstant) : (s.setTimer k v).reg a = s.reg a := rfl
@[simp] theorem State.setTimer_pending (s : State) (k : Nat) (v : Option ArmedInstant) : (s.setTimer k v).pending = s.pending := rfl
@[simp] theorem State.setTimer_up (s : State) (k : Nat) (v : Option ArmedInstant) : (s.setTimer k v).up = s.up := rfl
@[simp] theorem State.setTimer_time (s : State) (k : Nat) (v : Option ArmedInstant) : (s.setTimer k v).time = s.time := rfl
@[simp] theorem State.setTimer_regs (s : State) (k : Nat) (v : Option ArmedInstant) : (s.setTimer k v).regs = s.regs := rfl
@[simp] theorem State.setTimer_out (s : State) (k : Nat) (v : Option ArmedInstant) : (s.setTimer k v).out = s.out := rfl
@[simp] theorem State.setTimer_fv (s : State) (k : Nat) (v : Option ArmedInstant) : (s.setTimer k v).fv = s.fv := rfl
@[simp] theorem State.chan_setChan (s : State) (k : Nat) (v : Chan) : (s.setChan k v).chan k = v := SMap.gd_sd_same _ _ _ _
theorem State.chan_setChan_ne (s : State) (k j : Nat) (v : Chan) (h : j ≠ k) : (s.setChan k v).chan j = s.chan j := SMap.gd_sd_ne _ _ _ _ _ h
@[simp] theorem State.reg_setChan (s : State) (k a : Nat) (v : Chan) : (s.setChan k v).reg a = s.reg a := rfl
@[simp] theorem State.setChan_pending (s : State) (k : Nat) (v : Chan) : (s.setChan k v).pending = s.pending := rfl
@[simp] theorem State.setChan_up (s : State) (k : Nat) (v : Chan) : (s.setChan k v).up = s.up := rfl
@[simp] theorem State.setChan_time (s : State) (k : Nat) (v : Chan) : (s.setChan k v).time = s.time := rfl
@[simp] theorem State.setChan_regs (s : State) (k : Nat) (v : Chan) : (s.setChan k v).regs = s.regs := rfl
@[simp] theorem State.setChan_out (s : State) (k : Nat) (v : Chan) : (s.setChan k v).out = s.out := rfl
@[simp] theorem State.setChan_fv (s : State) (k : Nat) (v : Chan) : (s.setChan k v).fv = s.fv := rfl
@[simp] theorem State.llock_setLlock (s : State) (k : Nat) (v : Lock) : (s.setLlock k v).llock k = v := SMap.gd_sd_same _ _ _ _
theorem State.llock_setLlock_ne (s : State) (k j : Nat) (v : Lock) (h : j ≠ k) : (s.setLlock k v).llock j = s.llock j := SMap.gd_sd_ne _ _ _ _ _ h
@[simp] theorem State.reg_setLlock (s : State) (k a : Nat) (v : Lock) : (s.setLlock k v).reg a = s.reg a := rfl
@[simp] theorem State.setLlock_pending (s : State) (k : Nat) (v : Lock) : (s.setLlock k v).pending = s.pending := rfl
@[simp] theorem State.setLlock_up (s : State) (k : Nat) (v : Lock) : (s.setLlock k v).up = s.up := rfl
@[simp] theorem State.setLlock_time (s : State) (k : Nat) (v : Lock) : (s.setLlock k v).time = s.time := rfl
@[simp] theorem State.setLlock_regs (s : State) (k : Nat) (v : Lock) : (s.setLlock k v).regs = s.regs := rfl
@[simp] theorem State.setLlock_out (s : State) (k : Nat) (v : Lock) : (s.setLlock k v).out = s.out := rfl
@[simp] theorem State.setLlock_fv (s : State) (k : Nat) (v : Lock) : (s.setLlock k v).fv = s.fv := rfl
@[simp] theorem State.glock_setGlock (s : State) (k : Nat) (v : Lock) : (s.setGlock k v).glock k = v := SMap.gd_sd_same _ _ _ _
theorem State.glock_setGlock_ne (s : State) (k j : Nat) (v : Lock) (h : j ≠ k) : (s.setGlock k v).glock j = s.glock j := SMap.gd_sd_ne _ _ _ _ _ h
@[simp] theorem State.reg_setGlock (s : State) (k a : Nat) (v : Lock) : (s.setGlock k v).reg a = s.reg a := rfl
@[simp] theorem State.setGlock_pending (s : State) (k : Nat) (v : Lock) : (s.setGlock k v).pending = s.pending := rfl
@[simp] theorem State.setGlock_up (s : State) (k : Nat) (v : Lock) : (s.setGlock k v).up = s.up := rfl
@[simp] theorem State.setGlock_time (s : State) (k : Nat) (v : Lock) : (s.setGlock k v).time = s.time := rfl
@[simp] theorem State.setGlock_regs (s : State) (k : Nat) (v : Lock) : (s.setGlock k v).regs = s.regs := rfl
@[simp] theorem State.setGlock_out (s : State) (k : Nat) (v : Lock) : (s.setGlock k v).out = s.out := rfl
@[simp] theorem State.setGlock_fv (s : State) (k : Nat) (v : Lock) : (s.setGlock k v).fv = s.fv := rfl
@[simp] theorem State.mbox_setMbox (s : State) (k : Nat) (v : Mailbox) : (s.setMbox k v).mbox k = v := SMap.gd_sd_same _ _ _ _
theorem State.mbox_setMbox_ne (s : State) (k j : Nat) (v : Mailbox) (h : j ≠ k) : (s.setMbox k v).mbox j = s.mbox j := SMap.gd_sd_ne _ _ _ _ _ h
@[simp] theorem State.reg_setMbox (s : State) (k a : Nat) (v : Mailbox) : (s.setMbox k v).reg a = s.reg a := rfl
@[simp] theorem State.setMbox_pending (s : State) (k : Nat) (v : Mailbox) : (s.setMbox k v).pending = s.pending := rfl
@[simp] theorem State.setMbox_up (s : State) (k : Nat) (v : Mailbox) : (s.setMbox k v).up = s.up := rfl
@[simp] theorem State.setMbox_time (s : State) (k : Nat) (v : Mailbox) : (s.setMbox k v).time = s.time := rfl
@[simp] theorem State.setMbox_regs (s : State) (k : Nat) (v : Mailbox) : (s.setMbox k v).regs = s.regs := rfl
@[simp] theorem State.setMbox_out (s : State) (k : Nat) (v : Mailbox) : (s.setMbox k v).out = s.out := rfl
@[simp] theorem State.setMbox_fv (s : State) (k : Nat) (v : Mailbox) : (s.setMbox k v).fv = s.fv := rfl
@[simp] theorem State.pmemW_setPmemW (s : State) (k : Nat) (v : PWord) : (s.setPmemW k v).pmemW k = v := SMap.gd_sd_same _ _ _ _
theorem State.pmemW_setPmemW_ne (s : State) (k j : Nat) (v : PWord) (h : j ≠ k) : (s.setPmemW k v).pmemW j = s.pmemW j := SMap.gd_sd_ne _ _ _ _ _ h
@[simp] theorem State.reg_setPmemW (s : State) (k a : Nat) (v : PWord) : (s.setPmemW k v).reg a = s.reg a := rfl
@[simp] theorem State.setPmemW_pending (s : State) (k : Nat) (v : PWord) : (s.setPmemW k v).pending = s.pending := rfl
@[simp] theorem State.setPmemW_up (s : State) (k : Nat) (v : PWord) : (s.setPmemW k v).up = s.up := rfl
@[simp] theorem State.setPmemW_time (s : State) (k : Nat) (v : PWord) : (s.setPmemW k v).time = s.time := rfl
@[simp] theorem State.setPmemW_regs (s : State) (k : Nat) (v : PWord) : (s.setPmemW k v).regs = s.regs := rfl
@[simp] theorem State.setPmemW_out (s : State) (k : Nat) (v : PWord) : (s.setPmemW k v).out = s.out := rfl
@[simp] theorem State.setPmemW_fv (s : State) (k : Nat) (v : PWord) : (s.setPmemW k v).fv = s.fv := rfl
@[simp] theorem State.fltq_setFltq (s : State) (k : Nat) (v : List (List Word)) : (s.setFltq k v).fltq k = v := SMap.gd_sd_same _ _ _ _
theorem State.fltq_setFltq_ne (s : State) (k j : Nat) (v : List (List Word)) (h : j ≠ k) : (s.setFltq k v).fltq j = s.fltq j := SMap.gd_sd_ne _ _ _ _ _ h
@[simp] theorem State.reg_setFltq (s : State) (k a : Nat) (v : List (List Word)) : (s.setFltq k v).reg a = s.reg a := rfl
@[simp] theorem State.setFltq_pending (s : State) (k : Nat) (v : List (List Word)) : (s.setFltq k v).pending = s.pending := rfl
@[simp] theorem State.setFltq_up (s : State) (k : Nat) (v : List (List Word)) : (s.setFltq k v).up = s.up := rfl
@[simp] theorem State.setFltq_time (s : State) (k : Nat) (v : List (List Word)) : (s.setFltq k v).time = s.time := rfl
@[simp] theorem State.setFltq_regs (s : State) (k : Nat) (v : List (List Word)) : (s.setFltq k v).regs = s.regs := rfl
@[simp] theorem State.setFltq_out (s : State) (k : Nat) (v : List (List Word)) : (s.setFltq k v).out = s.out := rfl
@[simp] theorem State.setFltq_fv (s : State) (k : Nat) (v : List (List Word)) : (s.setFltq k v).fv = s.fv := rfl
@[simp] theorem State.dlq_setDlq (s : State) (k : Nat) (v : List (List Word)) : (s.setDlq k v).dlq k = v := SMap.gd_sd_same _ _ _ _
theorem State.dlq_setDlq_ne (s : State) (k j : Nat) (v : List (List Word)) (h : j ≠ k) : (s.setDlq k v).dlq j = s.dlq j := SMap.gd_sd_ne _ _ _ _ _ h
@[simp] theorem State.reg_setDlq (s : State) (k a : Nat) (v : List (List Word)) : (s.setDlq k v).reg a = s.reg a := rfl
@[simp] theorem State.setDlq_pending (s : State) (k : Nat) (v : List (List Word)) : (s.setDlq k v).pending = s.pending := rfl
@[simp] theorem State.setDlq_up (s : State) (k : Nat) (v : List (List Word)) : (s.setDlq k v).up = s.up := rfl
@[simp] theorem State.setDlq_time (s : State) (k : Nat) (v : List (List Word)) : (s.setDlq k v).time = s.time := rfl
@[simp] theorem State.setDlq_regs (s : State) (k : Nat) (v : List (List Word)) : (s.setDlq k v).regs = s.regs := rfl
@[simp] theorem State.setDlq_out (s : State) (k : Nat) (v : List (List Word)) : (s.setDlq k v).out = s.out := rfl
@[simp] theorem State.setDlq_fv (s : State) (k : Nat) (v : List (List Word)) : (s.setDlq k v).fv = s.fv := rfl
@[simp] theorem State.wgroup_setWgroup (s : State) (k : Nat) (v : WaitGroup) : (s.setWgroup k v).wgroup k = v := SMap.gd_sd_same _ _ _ _
theorem State.wgroup_setWgroup_ne (s : State) (k j : Nat) (v : WaitGroup) (h : j ≠ k) : (s.setWgroup k v).wgroup j = s.wgroup j := SMap.gd_sd_ne _ _ _ _ _ h
@[simp] theorem State.reg_setWgroup (s : State) (k a : Nat) (v : WaitGroup) : (s.setWgroup k v).reg a = s.reg a := rfl
@[simp] theorem State.setWgroup_pending (s : State) (k : Nat) (v : WaitGroup) : (s.setWgroup k v).pending = s.pending := rfl
@[simp] theorem State.setWgroup_up (s : State) (k : Nat) (v : WaitGroup) : (s.setWgroup k v).up = s.up := rfl
@[simp] theorem State.setWgroup_time (s : State) (k : Nat) (v : WaitGroup) : (s.setWgroup k v).time = s.time := rfl
@[simp] theorem State.setWgroup_regs (s : State) (k : Nat) (v : WaitGroup) : (s.setWgroup k v).regs = s.regs := rfl
@[simp] theorem State.setWgroup_out (s : State) (k : Nat) (v : WaitGroup) : (s.setWgroup k v).out = s.out := rfl
@[simp] theorem State.setWgroup_fv (s : State) (k : Nat) (v : WaitGroup) : (s.setWgroup k v).fv = s.fv := rfl
@[simp] theorem State.fetchU_setFetchU (s : State) (k : Nat) (v : FetchUnit) : (s.setFetchU k v).fetchU k = v := SMap.gd_sd_same _ _ _ _
theorem State.fetchU_setFetchU_ne (s : State) (k j : Nat) (v : FetchUnit) (h : j ≠ k) : (s.setFetchU k v).fetchU j = s.fetchU j := SMap.gd_sd_ne _ _ _ _ _ h
@[simp] theorem State.reg_setFetchU (s : State) (k a : Nat) (v : FetchUnit) : (s.setFetchU k v).reg a = s.reg a := rfl
@[simp] theorem State.setFetchU_pending (s : State) (k : Nat) (v : FetchUnit) : (s.setFetchU k v).pending = s.pending := rfl
@[simp] theorem State.setFetchU_up (s : State) (k : Nat) (v : FetchUnit) : (s.setFetchU k v).up = s.up := rfl
@[simp] theorem State.setFetchU_time (s : State) (k : Nat) (v : FetchUnit) : (s.setFetchU k v).time = s.time := rfl
@[simp] theorem State.setFetchU_regs (s : State) (k : Nat) (v : FetchUnit) : (s.setFetchU k v).regs = s.regs := rfl
@[simp] theorem State.setFetchU_out (s : State) (k : Nat) (v : FetchUnit) : (s.setFetchU k v).out = s.out := rfl
@[simp] theorem State.setFetchU_fv (s : State) (k : Nat) (v : FetchUnit) : (s.setFetchU k v).fv = s.fv := rfl
@[simp] theorem State.cpxCmd_setCpxCmd (s : State) (k : Nat) (v : CpxCmd) : (s.setCpxCmd k v).cpxCmd k = v := SMap.gd_sd_same _ _ _ _
theorem State.cpxCmd_setCpxCmd_ne (s : State) (k j : Nat) (v : CpxCmd) (h : j ≠ k) : (s.setCpxCmd k v).cpxCmd j = s.cpxCmd j := SMap.gd_sd_ne _ _ _ _ _ h
@[simp] theorem State.reg_setCpxCmd (s : State) (k a : Nat) (v : CpxCmd) : (s.setCpxCmd k v).reg a = s.reg a := rfl
@[simp] theorem State.setCpxCmd_pending (s : State) (k : Nat) (v : CpxCmd) : (s.setCpxCmd k v).pending = s.pending := rfl
@[simp] theorem State.setCpxCmd_up (s : State) (k : Nat) (v : CpxCmd) : (s.setCpxCmd k v).up = s.up := rfl
@[simp] theorem State.setCpxCmd_time (s : State) (k : Nat) (v : CpxCmd) : (s.setCpxCmd k v).time = s.time := rfl
@[simp] theorem State.setCpxCmd_regs (s : State) (k : Nat) (v : CpxCmd) : (s.setCpxCmd k v).regs = s.regs := rfl
@[simp] theorem State.setCpxCmd_out (s : State) (k : Nat) (v : CpxCmd) : (s.setCpxCmd k v).out = s.out := rfl
@[simp] theorem State.setCpxCmd_fv (s : State) (k : Nat) (v : CpxCmd) : (s.setCpxCmd k v).fv = s.fv := rfl
@[simp] theorem State.vch_setVch (s : State) (k : Nat) (v : VrmChan) : (s.setVch k v).vch k = v := SMap.gd_sd_same _ _ _ _
theorem State.vch_setVch_ne (s : State) (k j : Nat) (v : VrmChan) (h : j ≠ k) : (s.setVch k v).vch j = s.vch j := SMap.gd_sd_ne _ _ _ _ _ h
@[simp] theorem State.reg_setVch (s : State) (k a : Nat) (v : VrmChan) : (s.setVch k v).reg a = s.reg a := rfl
@[simp] theorem State.setVch_pending (s : State) (k : Nat) (v : VrmChan) : (s.setVch k v).pending = s.pending := rfl
@[simp] theorem State.setVch_up (s : State) (k : Nat) (v : VrmChan) : (s.setVch k v).up = s.up := rfl
@[simp] theorem State.setVch_time (s : State) (k : Nat) (v : VrmChan) : (s.setVch k v).time = s.time := rfl
@[simp] theorem State.setVch_regs (s : State) (k : Nat) (v : VrmChan) : (s.setVch k v).regs = s.regs := rfl
@[simp] theorem State.setVch_out (s : State) (k : Nat) (v : VrmChan) : (s.setVch k v).out = s.out := rfl
@[simp] theorem State.setVch_fv (s : State) (k : Nat) (v : VrmChan) : (s.setVch k v).fv = s.fv := rfl
@[simp] theorem State.pcb_setPcb (s : State) (k : Nat) (v : Pcb) : (s.setPcb k v).pcb k = v := SMap.gd_sd_same _ _ _ _
theorem State.pcb_setPcb_ne (s : State) (k j : Nat) (v : Pcb) (h : j ≠ k) : (s.setPcb k v).pcb j = s.pcb j := SMap.gd_sd_ne _ _ _ _ _ h
@[simp] theorem State.reg_setPcb (s : State) (k a : Nat) (v : Pcb) : (s.setPcb k v).reg a = s.reg a := rfl
@[simp] theorem State.setPcb_pending (s : State) (k : Nat) (v : Pcb) : (s.setPcb k v).pending = s.pending := rfl
@[simp] theorem State.setPcb_up (s : State) (k : Nat) (v : Pcb) : (s.setPcb k v).up = s.up := rfl
@[simp] theorem State.setPcb_time (s : State) (k : Nat) (v : Pcb) : (s.setPcb k v).time = s.time := rfl
@[simp] theorem State.setPcb_regs (s : State) (k : Nat) (v : Pcb) : (s.setPcb k v).regs = s.regs := rfl
@[simp] theorem State.setPcb_out (s : State) (k : Nat) (v : Pcb) : (s.setPcb k v).out = s.out := rfl
@[simp] theorem State.setPcb_fv (s : State) (k : Nat) (v : Pcb) : (s.setPcb k v).fv = s.fv := rfl
@[simp] theorem State.finp_setFinp (s : State) (k : Nat) (v : FioIn) : (s.setFinp k v).finp k = v := SMap.gd_sd_same _ _ _ _
theorem State.finp_setFinp_ne (s : State) (k j : Nat) (v : FioIn) (h : j ≠ k) : (s.setFinp k v).finp j = s.finp j := SMap.gd_sd_ne _ _ _ _ _ h
@[simp] theorem State.reg_setFinp (s : State) (k a : Nat) (v : FioIn) : (s.setFinp k v).reg a = s.reg a := rfl
@[simp] theorem State.setFinp_pending (s : State) (k : Nat) (v : FioIn) : (s.setFinp k v).pending = s.pending := rfl
@[simp] theorem State.setFinp_up (s : State) (k : Nat) (v : FioIn) : (s.setFinp k v).up = s.up := rfl
@[simp] theorem State.setFinp_time (s : State) (k : Nat) (v : FioIn) : (s.setFinp k v).time = s.time := rfl
@[simp] theorem State.setFinp_regs (s : State) (k : Nat) (v : FioIn) : (s.setFinp k v).regs = s.regs := rfl
@[simp] theorem State.setFinp_out (s : State) (k : Nat) (v : FioIn) : (s.setFinp k v).out = s.out := rfl
@[simp] theorem State.setFinp_fv (s : State) (k : Nat) (v : FioIn) : (s.setFinp k v).fv = s.fv := rfl
@[simp] theorem State.fout_setFout (s : State) (k : Nat) (v : FioOut) : (s.setFout k v).fout k = v := SMap.gd_sd_same _ _ _ _
theorem State.fout_setFout_ne (s : State) (k j : Nat) (v : FioOut) (h : j ≠ k) : (s.setFout k v).fout j = s.fout j := SMap.gd_sd_ne _ _ _ _ _ h
@[simp] theorem State.reg_setFout (s : State) (k a : Nat) (v : FioOut) : (s.setFout k v).reg a = s.reg a := rfl
@[simp] theorem State.setFout_pending (s : State) (k : Nat) (v : FioOut) : (s.setFout k v).pending = s.pending := rfl
@[simp] theorem State.setFout_up (s : State) (k : Nat) (v : FioOut) : (s.setFout k v).up = s.up := rfl
@[simp] theorem State.setFout_time (s : State) (k : Nat) (v : FioOut) : (s.setFout k v).time = s.time := rfl
@[simp] theorem State.setFout_regs (s : State) (k : Nat) (v : FioOut) : (s.setFout k v).regs = s.regs := rfl
@[simp] theorem State.setFout_out (s : State) (k : Nat) (v : FioOut) : (s.setFout k v).out = s.out := rfl
@[simp] theorem State.setFout_fv (s : State) (k : Nat) (v : FioOut) : (s.setFout k v).fv = s.fv := rfl
@[simp] theorem State.partSh_setPartSh (s : State) (k : Nat) (v : Option ImgPart) : (s.setPartSh k v).partSh k = v := SMap.gd_sd_same _ _ _ _
theorem State.partSh_setPartSh_ne (s : State) (k j : Nat) (v : Option ImgPart) (h : j ≠ k) : (s.setPartSh k v).partSh j = s.partSh j := SMap.gd_sd_ne _ _ _ _ _ h
@[simp] theorem State.reg_setPartSh (s : State) (k a : Nat) (v : Option ImgPart) : (s.setPartSh k v).reg a = s.reg a := rfl
@[simp] theorem State.setPartSh_pending (s : State) (k : Nat) (v : Option ImgPart) : (s.setPartSh k v).pending = s.pending := rfl
@[simp] theorem State.setPartSh_up (s : State) (k : Nat) (v : Option ImgPart) : (s.setPartSh k v).up = s.up := rfl
@[simp] theorem State.setPartSh_time (s : State) (k : Nat) (v : Option ImgPart) : (s.setPartSh k v).time = s.time := rfl
@[simp] theorem State.setPartSh_regs (s : State) (k : Nat) (v : Option ImgPart) : (s.setPartSh k v).regs = s.regs := rfl
@[simp] theorem State.setPartSh_out (s : State) (k : Nat) (v : Option ImgPart) : (s.setPartSh k v).out = s.out := rfl
@[simp] theorem State.setPartSh_fv (s : State) (k : Nat) (v : Option ImgPart) : (s.setPartSh k v).fv = s.fv := rfl
@[simp] theorem State.part_setPart (s : State) (k : Nat) (v : Part) : (s.setPart k v).part k = v := SMap.gd_sd_same _ _ _ _
theorem State.part_setPart_ne (s : State) (k j : Nat) (v : Part) (h : j ≠ k) : (s.setPart k v).part j = s.part j := SMap.gd_sd_ne _ _ _ _ _ h
@[simp] theorem State.reg_setPart (s : State) (k a : Nat) (v : Part) : (s.setPart k v).reg a = s.reg a := rfl
@[simp] theorem State.setPart_pending (s : State) (k : Nat) (v : Part) : (s.setPart k v).pending = s.pending := rfl
@[simp] theorem State.setPart_up (s : State) (k : Nat) (v : Part) : (s.setPart k v).up = s.up := rfl
@[simp] theorem State.setPart_time (s : State) (k : Nat) (v : Part) : (s.setPart k v).time = s.time := rfl
@[simp] theorem State.setPart_regs (s : State) (k : Nat) (v : Part) : (s.setPart k v).regs = s.regs := rfl
@[simp] theorem State.setPart_out (s : State) (k : Nat) (v : Part) : (s.setPart k v).out = s.out := rfl
@[simp] theorem State.setPart_fv (s : State) (k : Nat) (v : Part) : (s.setPart k v).fv = s.fv := rfl
@[simp] theorem State.env_setEnv (s : State) (k : Nat) (v : Envelope) : (s.setEnv k v).env k = v := SMap.gd_sd_same _ _ _ _
theorem State.env_setEnv_ne (s : State) (k j : Nat) (v : Envelope) (h : j ≠ k) : (s.setEnv k v).env j = s.env j := SMap.gd_sd_ne _ _ _ _ _ h
@[simp] theorem State.reg_setEnv (s : State) (k a : Nat) (v : Envelope) : (s.setEnv k v).reg a = s.reg a := rfl
@[simp] theorem State.setEnv_pending (s : State) (k : Nat) (v : Envelope) : (s.setEnv k v).pending = s.pending := rfl
@[simp] theorem State.setEnv_up (s : State) (k : Nat) (v : Envelope) : (s.setEnv k v).up = s.up := rfl
@[simp] theorem State.setEnv_time (s : State) (k : Nat) (v : Envelope) : (s.setEnv k v).time = s.time := rfl
@[simp] theorem State.setEnv_regs (s : State) (k : Nat) (v : Envelope) : (s.setEnv k v).regs = s.regs := rfl
@[simp] theorem State.setEnv_out (s : State) (k : Nat) (v : Envelope) : (s.setEnv k v).out = s.out := rfl
@[simp] theorem State.setEnv_fv (s : State) (k : Nat) (v : Envelope) : (s.setEnv k v).fv = s.fv := rfl
@[simp] theorem State.unitReq_setUnitReq (s : State) (k : Nat) (v : UnitReq) : (s.setUnitReq k v).unitReq k = v := SMap.gd_sd_same _ _ _ _
theorem State.unitReq_setUnitReq_ne (s : State) (k j : Nat) (v : UnitReq) (h : j ≠ k) : (s.setUnitReq k v).unitReq j = s.unitReq j := SMap.gd_sd_ne _ _ _ _ _ h
@[simp] theorem State.reg_setUnitReq (s : State) (k a : Nat) (v : UnitReq) : (s.setUnitReq k v).reg a = s.reg a := rfl
@[simp] theorem State.setUnitReq_pending (s : State) (k : Nat) (v : UnitReq) : (s.setUnitReq k v).pending = s.pending := rfl
@[simp] theorem State.setUnitReq_up (s : State) (k : Nat) (v : UnitReq) : (s.setUnitReq k v).up = s.up := rfl
@[simp] theorem State.setUnitReq_time (s : State) (k : Nat) (v : UnitReq) : (s.setUnitReq k v).time = s.time := rfl
@[simp] theorem State.setUnitReq_regs (s : State) (k : Nat) (v : UnitReq) : (s.setUnitReq k v).regs = s.regs := rfl
@[simp] theorem State.setUnitReq_out (s : State) (k : Nat) (v : UnitReq) : (s.setUnitReq k v).out = s.out := rfl
@[simp] theorem State.setUnitReq_fv (s : State) (k : Nat) (v : UnitReq) : (s.setUnitReq k v).fv = s.fv := rfl
@[simp] theorem State.cred_setCred (s : State) (k : Nat) (v : Cred) : (s.setCred k v).cred k = v := SMap.gd_sd_same _ _ _ _
theorem State.cred_setCred_ne (s : State) (k j : Nat) (v : Cred) (h : j ≠ k) : (s.setCred k v).cred j = s.cred j := SMap.gd_sd_ne _ _ _ _ _ h
@[simp] theorem State.reg_setCred (s : State) (k a : Nat) (v : Cred) : (s.setCred k v).reg a = s.reg a := rfl
@[simp] theorem State.setCred_pending (s : State) (k : Nat) (v : Cred) : (s.setCred k v).pending = s.pending := rfl
@[simp] theorem State.setCred_up (s : State) (k : Nat) (v : Cred) : (s.setCred k v).up = s.up := rfl
@[simp] theorem State.setCred_time (s : State) (k : Nat) (v : Cred) : (s.setCred k v).time = s.time := rfl
@[simp] theorem State.setCred_regs (s : State) (k : Nat) (v : Cred) : (s.setCred k v).regs = s.regs := rfl
@[simp] theorem State.setCred_out (s : State) (k : Nat) (v : Cred) : (s.setCred k v).out = s.out := rfl
@[simp] theorem State.setCred_fv (s : State) (k : Nat) (v : Cred) : (s.setCred k v).fv = s.fv := rfl
@[simp] theorem State.grant_setGrant (s : State) (k : Nat) (v : Grant) : (s.setGrant k v).grant k = v := SMap.gd_sd_same _ _ _ _
theorem State.grant_setGrant_ne (s : State) (k j : Nat) (v : Grant) (h : j ≠ k) : (s.setGrant k v).grant j = s.grant j := SMap.gd_sd_ne _ _ _ _ _ h
@[simp] theorem State.reg_setGrant (s : State) (k a : Nat) (v : Grant) : (s.setGrant k v).reg a = s.reg a := rfl
@[simp] theorem State.setGrant_pending (s : State) (k : Nat) (v : Grant) : (s.setGrant k v).pending = s.pending := rfl
@[simp] theorem State.setGrant_up (s : State) (k : Nat) (v : Grant) : (s.setGrant k v).up = s.up := rfl
@[simp] theorem State.setGrant_time (s : State) (k : Nat) (v : Grant) : (s.setGrant k v).time = s.time := rfl
@[simp] theorem State.setGrant_regs (s : State) (k : Nat) (v : Grant) : (s.setGrant k v).regs = s.regs := rfl
@[simp] theorem State.setGrant_out (s : State) (k : Nat) (v : Grant) : (s.setGrant k v).out = s.out := rfl
@[simp] theorem State.setGrant_fv (s : State) (k : Nat) (v : Grant) : (s.setGrant k v).fv = s.fv := rfl
@[simp] theorem State.keySlot_setKeySlot (s : State) (k : Nat) (v : Option (BitVec 256)) : (s.setKeySlot k v).keySlot k = v := SMap.gd_sd_same _ _ _ _
theorem State.keySlot_setKeySlot_ne (s : State) (k j : Nat) (v : Option (BitVec 256)) (h : j ≠ k) : (s.setKeySlot k v).keySlot j = s.keySlot j := SMap.gd_sd_ne _ _ _ _ _ h
@[simp] theorem State.reg_setKeySlot (s : State) (k a : Nat) (v : Option (BitVec 256)) : (s.setKeySlot k v).reg a = s.reg a := rfl
@[simp] theorem State.setKeySlot_pending (s : State) (k : Nat) (v : Option (BitVec 256)) : (s.setKeySlot k v).pending = s.pending := rfl
@[simp] theorem State.setKeySlot_up (s : State) (k : Nat) (v : Option (BitVec 256)) : (s.setKeySlot k v).up = s.up := rfl
@[simp] theorem State.setKeySlot_time (s : State) (k : Nat) (v : Option (BitVec 256)) : (s.setKeySlot k v).time = s.time := rfl
@[simp] theorem State.setKeySlot_regs (s : State) (k : Nat) (v : Option (BitVec 256)) : (s.setKeySlot k v).regs = s.regs := rfl
@[simp] theorem State.setKeySlot_out (s : State) (k : Nat) (v : Option (BitVec 256)) : (s.setKeySlot k v).out = s.out := rfl
@[simp] theorem State.setKeySlot_fv (s : State) (k : Nat) (v : Option (BitVec 256)) : (s.setKeySlot k v).fv = s.fv := rfl
@[simp] theorem State.dma_setDma (s : State) (k : Nat) (v : Dma) : (s.setDma k v).dma k = v := SMap.gd_sd_same _ _ _ _
theorem State.dma_setDma_ne (s : State) (k j : Nat) (v : Dma) (h : j ≠ k) : (s.setDma k v).dma j = s.dma j := SMap.gd_sd_ne _ _ _ _ _ h
@[simp] theorem State.reg_setDma (s : State) (k a : Nat) (v : Dma) : (s.setDma k v).reg a = s.reg a := rfl
@[simp] theorem State.setDma_pending (s : State) (k : Nat) (v : Dma) : (s.setDma k v).pending = s.pending := rfl
@[simp] theorem State.setDma_up (s : State) (k : Nat) (v : Dma) : (s.setDma k v).up = s.up := rfl
@[simp] theorem State.setDma_time (s : State) (k : Nat) (v : Dma) : (s.setDma k v).time = s.time := rfl
@[simp] theorem State.setDma_regs (s : State) (k : Nat) (v : Dma) : (s.setDma k v).regs = s.regs := rfl
@[simp] theorem State.setDma_out (s : State) (k : Nat) (v : Dma) : (s.setDma k v).out = s.out := rfl
@[simp] theorem State.setDma_fv (s : State) (k : Nat) (v : Dma) : (s.setDma k v).fv = s.fv := rfl
@[simp] theorem State.msix_setMsix (s : State) (k : Nat) (v : MsixVec) : (s.setMsix k v).msix k = v := SMap.gd_sd_same _ _ _ _
theorem State.msix_setMsix_ne (s : State) (k j : Nat) (v : MsixVec) (h : j ≠ k) : (s.setMsix k v).msix j = s.msix j := SMap.gd_sd_ne _ _ _ _ _ h
@[simp] theorem State.reg_setMsix (s : State) (k a : Nat) (v : MsixVec) : (s.setMsix k v).reg a = s.reg a := rfl
@[simp] theorem State.setMsix_pending (s : State) (k : Nat) (v : MsixVec) : (s.setMsix k v).pending = s.pending := rfl
@[simp] theorem State.setMsix_up (s : State) (k : Nat) (v : MsixVec) : (s.setMsix k v).up = s.up := rfl
@[simp] theorem State.setMsix_time (s : State) (k : Nat) (v : MsixVec) : (s.setMsix k v).time = s.time := rfl
@[simp] theorem State.setMsix_regs (s : State) (k : Nat) (v : MsixVec) : (s.setMsix k v).regs = s.regs := rfl
@[simp] theorem State.setMsix_out (s : State) (k : Nat) (v : MsixVec) : (s.setMsix k v).out = s.out := rfl
@[simp] theorem State.setMsix_fv (s : State) (k : Nat) (v : MsixVec) : (s.setMsix k v).fv = s.fv := rfl
@[simp] theorem State.mport_setMport (s : State) (k : Nat) (v : MgtPort) : (s.setMport k v).mport k = v := SMap.gd_sd_same _ _ _ _
theorem State.mport_setMport_ne (s : State) (k j : Nat) (v : MgtPort) (h : j ≠ k) : (s.setMport k v).mport j = s.mport j := SMap.gd_sd_ne _ _ _ _ _ h
@[simp] theorem State.reg_setMport (s : State) (k a : Nat) (v : MgtPort) : (s.setMport k v).reg a = s.reg a := rfl
@[simp] theorem State.setMport_pending (s : State) (k : Nat) (v : MgtPort) : (s.setMport k v).pending = s.pending := rfl
@[simp] theorem State.setMport_up (s : State) (k : Nat) (v : MgtPort) : (s.setMport k v).up = s.up := rfl
@[simp] theorem State.setMport_time (s : State) (k : Nat) (v : MgtPort) : (s.setMport k v).time = s.time := rfl
@[simp] theorem State.setMport_regs (s : State) (k : Nat) (v : MgtPort) : (s.setMport k v).regs = s.regs := rfl
@[simp] theorem State.setMport_out (s : State) (k : Nat) (v : MgtPort) : (s.setMport k v).out = s.out := rfl
@[simp] theorem State.setMport_fv (s : State) (k : Nat) (v : MgtPort) : (s.setMport k v).fv = s.fv := rfl
@[simp] theorem State.recSet_setRecSet (s : State) (k : Nat) (v : RecSet) : (s.setRecSet k v).recSet k = v := SMap.gd_sd_same _ _ _ _
theorem State.recSet_setRecSet_ne (s : State) (k j : Nat) (v : RecSet) (h : j ≠ k) : (s.setRecSet k v).recSet j = s.recSet j := SMap.gd_sd_ne _ _ _ _ _ h
@[simp] theorem State.reg_setRecSet (s : State) (k a : Nat) (v : RecSet) : (s.setRecSet k v).reg a = s.reg a := rfl
@[simp] theorem State.setRecSet_pending (s : State) (k : Nat) (v : RecSet) : (s.setRecSet k v).pending = s.pending := rfl
@[simp] theorem State.setRecSet_up (s : State) (k : Nat) (v : RecSet) : (s.setRecSet k v).up = s.up := rfl
@[simp] theorem State.setRecSet_time (s : State) (k : Nat) (v : RecSet) : (s.setRecSet k v).time = s.time := rfl
@[simp] theorem State.setRecSet_regs (s : State) (k : Nat) (v : RecSet) : (s.setRecSet k v).regs = s.regs := rfl
@[simp] theorem State.setRecSet_out (s : State) (k : Nat) (v : RecSet) : (s.setRecSet k v).out = s.out := rfl
@[simp] theorem State.setRecSet_fv (s : State) (k : Nat) (v : RecSet) : (s.setRecSet k v).fv = s.fv := rfl
@[simp] theorem State.sampler_setSampler (s : State) (k : Nat) (v : Sampler) : (s.setSampler k v).sampler k = v := SMap.gd_sd_same _ _ _ _
theorem State.sampler_setSampler_ne (s : State) (k j : Nat) (v : Sampler) (h : j ≠ k) : (s.setSampler k v).sampler j = s.sampler j := SMap.gd_sd_ne _ _ _ _ _ h
@[simp] theorem State.reg_setSampler (s : State) (k a : Nat) (v : Sampler) : (s.setSampler k v).reg a = s.reg a := rfl
@[simp] theorem State.setSampler_pending (s : State) (k : Nat) (v : Sampler) : (s.setSampler k v).pending = s.pending := rfl
@[simp] theorem State.setSampler_up (s : State) (k : Nat) (v : Sampler) : (s.setSampler k v).up = s.up := rfl
@[simp] theorem State.setSampler_time (s : State) (k : Nat) (v : Sampler) : (s.setSampler k v).time = s.time := rfl
@[simp] theorem State.setSampler_regs (s : State) (k : Nat) (v : Sampler) : (s.setSampler k v).regs = s.regs := rfl
@[simp] theorem State.setSampler_out (s : State) (k : Nat) (v : Sampler) : (s.setSampler k v).out = s.out := rfl
@[simp] theorem State.setSampler_fv (s : State) (k : Nat) (v : Sampler) : (s.setSampler k v).fv = s.fv := rfl
@[simp] theorem State.tagRec_setTagRec (s : State) (k : Nat) (v : TagRec) : (s.setTagRec k v).tagRec k = v := SMap.gd_sd_same _ _ _ _
theorem State.tagRec_setTagRec_ne (s : State) (k j : Nat) (v : TagRec) (h : j ≠ k) : (s.setTagRec k v).tagRec j = s.tagRec j := SMap.gd_sd_ne _ _ _ _ _ h
@[simp] theorem State.reg_setTagRec (s : State) (k a : Nat) (v : TagRec) : (s.setTagRec k v).reg a = s.reg a := rfl
@[simp] theorem State.setTagRec_pending (s : State) (k : Nat) (v : TagRec) : (s.setTagRec k v).pending = s.pending := rfl
@[simp] theorem State.setTagRec_up (s : State) (k : Nat) (v : TagRec) : (s.setTagRec k v).up = s.up := rfl
@[simp] theorem State.setTagRec_time (s : State) (k : Nat) (v : TagRec) : (s.setTagRec k v).time = s.time := rfl
@[simp] theorem State.setTagRec_regs (s : State) (k : Nat) (v : TagRec) : (s.setTagRec k v).regs = s.regs := rfl
@[simp] theorem State.setTagRec_out (s : State) (k : Nat) (v : TagRec) : (s.setTagRec k v).out = s.out := rfl
@[simp] theorem State.setTagRec_fv (s : State) (k : Nat) (v : TagRec) : (s.setTagRec k v).fv = s.fv := rfl

end Sys2Proof.Machine
end

