-- ==== Sys2Proof/Laws/Areas.lean ====
section
/-!
SUPPORT. The frame among areas: what leaves every area alone but some, closed under sequence, choice and repetition, and the areas of the operations
that every block uses. A statement that a command stays in its areas follows from these along the command's meaning.
-/

namespace Sys2Proof.Machine

theorem State.OnlyChanges.refl (s : State) (l : List Area) : s.OnlyChanges s l := ⟨rfl, fun a _ => by cases a <;> rfl⟩

/-- What one area shows of a third state, seen through a second one. -/
theorem Area.same_trans {a : Area} {s t u : State} (h : a.same s t) (h2 : a.same t u) : a.same s u := by
  cases a <;> exact Eq.trans h2 h

theorem State.OnlyChanges.trans {s t u : State} {l : List Area} (h : s.OnlyChanges t l) (h2 : t.OnlyChanges u l) : s.OnlyChanges u l :=
  ⟨h2.1.trans h.1, fun a ha => Area.same_trans (h.2 a ha) (h2.2 a ha)⟩

theorem State.OnlyChanges.mono {s t : State} {l m : List Area} (h : s.OnlyChanges t l) (hm : l ⊆ m) : s.OnlyChanges t m :=
  ⟨h.1, fun a ha => h.2 a fun hl => ha (hm hl)⟩

theorem State.OnlyChanges.ite {s t u : State} {l : List Area} {c : Prop} [Decidable c] (h : s.OnlyChanges t l) (h2 : s.OnlyChanges u l) :
    s.OnlyChanges (if c then t else u) l := by
  split <;> assumption

theorem each_onlyChanges {α : Type} (xs : List α) (f : State → α → State) (l : List Area) (h : ∀ x a, State.OnlyChanges x (f x a) l) (s : State) :
    s.OnlyChanges (each xs f s) l := by
  induction xs generalizing s with
  | nil => exact State.OnlyChanges.refl s l
  | cons a xs ih => exact (h s a).trans (ih (f s a))

/-! ## Operations that every block uses -/

theorem State.setReg_areas (s : State) (a : Nat) (v : Word) : s.OnlyChanges (s.setReg a v) [.regs] := by
  refine ⟨rfl, fun x hx => ?_⟩
  cases x <;> first | rfl | simp at hx

theorem State.setRf_areas (s : State) (a hi lo v : Nat) : s.OnlyChanges (s.setRf a hi lo v) [.regs] := s.setReg_areas _ _
theorem State.setRb_areas (s : State) (a i : Nat) (b : Bool) : s.OnlyChanges (s.setRb a i b) [.regs] := s.setReg_areas _ _
theorem State.inc_areas (s : State) (a : Nat) : s.OnlyChanges (s.inc a) [.regs] := s.setReg_areas _ _

theorem State.emit_areas (s : State) (e : Emit) : s.OnlyChanges (s.emit e) [.out] := by
  refine ⟨rfl, fun x hx => ?_⟩
  cases x <;> first | rfl | simp at hx

theorem State.setMsix_areas (s : State) (k : Nat) (v : MsixVec) : s.OnlyChanges (s.setMsix k v) [.hst] := by
  refine ⟨rfl, fun x hx => ?_⟩
  cases x <;> first | rfl | simp at hx

theorem State.sendMsix_areas (s : State) (l p v : Nat) : s.OnlyChanges (s.sendMsix l p v) [.regs, .out, .hst] := by
  unfold State.sendMsix
  exact (((s.setMsix_areas _ _).mono (by simp)).ite ((s.emit_areas _).mono (by simp))).ite ((s.inc_areas _).mono (by simp))

/-- An event that is raised changes registers, the output and MSI-X alone (R421). -/
theorem State.deliver_areas (s : State) (e : Nat) : s.OnlyChanges (s.deliver e) [.regs, .out, .hst] := by
  have hr (x : State) (a i : Nat) : x.OnlyChanges (x.setRb a i true) [.regs, .out, .hst] := (x.setRb_areas a i true).mono (by simp)
  have hm : s.OnlyChanges (s.deliverMsix e) [.regs, .out, .hst] := (s.sendMsix_areas _ _ _).ite (.refl s _)
  have hs (x : State) : x.OnlyChanges (x.deliverSup e) [.regs, .out, .hst] := (hr x _ _).ite (.refl x _)
  have hp (x : State) : x.OnlyChanges (x.deliverPair e) [.regs, .out, .hst] :=
    (((x.emit_areas _).mono (by simp)).ite ((x.inc_areas _).mono (by simp))).ite (.refl x _)
  have ha (x : State) : x.OnlyChanges (x.deliverAlarm e) [.regs, .out, .hst] := (hr x _ _).ite (.refl x _)
  exact (State.OnlyChanges.refl s _).ite (((hm.trans (hs _)).trans (hp _)).trans (ha _))

/-- A new event of an SQC register likewise (R8). -/
theorem State.sqc_areas (s : State) (off bit e : Nat) : s.OnlyChanges (s.sqc off bit e) [.regs, .out, .hst] :=
  State.OnlyChanges.ite ((s.setRf_areas _ _ _ _).mono (by simp))
    ((((s.setRb_areas _ _ _).mono (by simp)).trans ((State.setRf_areas _ _ _ _ _).mono (by simp))).trans (State.deliver_areas _ _))

/-- A sticky bit and its event leave the security processor alone. -/
theorem State.sqc_sab (s : State) (off bit e : Nat) : (s.sqc off bit e).sab = s.sab := by
  have a := (s.sqc_areas off bit e).2 .sab (by simp)
  simpa only [Area.same] using a

end Sys2Proof.Machine
end

