-- ==== Sys2Proof/Laws/Bits.lean ====
section
/-!
SUPPORT. Fields of words, bit by bit: what a field reads after a field has been put, and that fields outside it stay.
-/

namespace Sys2Proof.Machine

theorem nfld_testBit (w hi lo i : Nat) : (nfld w hi lo).testBit i = (decide (i < hi + 1 - lo) && w.testBit (lo + i)) := by
  unfold nfld
  rw [Nat.testBit_mod_two_pow, Nat.testBit_div_two_pow, Nat.add_comm i lo]

theorem fld_testBit {n : Nat} (w : BitVec n) (hi lo i : Nat) : (fld w hi lo).testBit i = (decide (i < hi + 1 - lo) && w.getLsbD (lo + i)) :=
  nfld_testBit ..

theorem fld_lt {n : Nat} (w : BitVec n) (hi lo : Nat) : fld w hi lo < 2 ^ (hi + 1 - lo) := Nat.mod_lt _ (Nat.two_pow_pos _)

theorem tbit_eq {n : Nat} (w : BitVec n) (i : Nat) : tbit w i = w.getLsbD i := by
  have h : fld w i i = (w.getLsbD i).toNat := by
    apply Nat.eq_of_testBit_eq
    intro j
    rw [fld_testBit, Nat.add_sub_cancel_left]
    cases j with
    | zero => simp [Nat.testBit_zero]; cases w.getLsbD i <;> simp
    | succ j => simp [Nat.testBit_succ]; cases w.getLsbD i <;> simp
  unfold tbit
  rw [h]
  cases w.getLsbD i <;> rfl

/-- A number is its bits above a field, the field and its bits below. -/
theorem nfld_split (w hi lo : Nat) (h : lo ≤ hi + 1) :
    w = (w / 2 ^ (hi + 1) * 2 ^ (hi + 1 - lo) + nfld w hi lo) * 2 ^ lo + w % 2 ^ lo := by
  have e : w / 2 ^ (hi + 1) = w / 2 ^ lo / 2 ^ (hi + 1 - lo) := by
    rw [Nat.div_div_eq_div_mul, ← Nat.pow_add]; congr 2; omega
  rw [e, nfld, Nat.div_add_mod' (w / 2 ^ lo) (2 ^ (hi + 1 - lo)), Nat.div_add_mod']

/-- Bit i of a word with a field put: the field's value inside, the word outside. -/
theorem putFld_getLsbD {n : Nat} (w : BitVec n) (hi lo v i : Nat) (h : lo ≤ hi + 1) :
    (putFld w hi lo v).getLsbD i = (decide (i < n) && (if lo ≤ i ∧ i ≤ hi then v.testBit (i - lo) else w.getLsbD i)) := by
  have hs := nfld_split w.toNat hi lo h
  have hp : w.toNat - fld w hi lo * 2 ^ lo + v % 2 ^ (hi + 1 - lo) * 2 ^ lo =
      2 ^ lo * (2 ^ (hi + 1 - lo) * (w.toNat / 2 ^ (hi + 1)) + v % 2 ^ (hi + 1 - lo)) + w.toNat % 2 ^ lo := by
    unfold fld
    conv_lhs => rw [show w.toNat - nfld w.toNat hi lo * 2 ^ lo = w.toNat / 2 ^ (hi + 1) * 2 ^ (hi + 1 - lo) * 2 ^ lo + w.toNat % 2 ^ lo from by
      conv_lhs => lhs; rw [hs]
      rw [Nat.add_mul]; omega]
    ring
  unfold putFld
  rw [BitVec.getLsbD_ofNat, hp]
  congr 1
  rw [Nat.testBit_two_pow_mul_add _ (Nat.mod_lt _ (Nat.two_pow_pos _))]
  by_cases h1 : i < lo
  · rw [if_pos h1, if_neg (by omega), Nat.testBit_mod_two_pow]; simp [h1, BitVec.getLsbD]
  · rw [if_neg h1, Nat.testBit_two_pow_mul_add _ (Nat.mod_lt _ (Nat.two_pow_pos _))]
    by_cases h2 : i ≤ hi
    · rw [if_pos (by omega), if_pos ⟨by omega, h2⟩, Nat.testBit_mod_two_pow]; simp; omega
    · rw [if_neg (by omega), if_neg (by omega), Nat.testBit_div_two_pow, BitVec.getLsbD]; congr 1; omega

/-- A field inside the one put reads that part of the value. -/
theorem fld_putFld_sub {n : Nat} (w : BitVec n) (hi lo v a b : Nat) (hn : hi < n) (hb : lo ≤ b) (ha : a ≤ hi) (hab : b ≤ a) :
    fld (putFld w hi lo v) a b = nfld v (a - lo) (b - lo) := by
  apply Nat.eq_of_testBit_eq
  intro i
  rw [fld_testBit, nfld_testBit, putFld_getLsbD _ _ _ _ _ (by omega)]
  by_cases h : i < a + 1 - b
  · rw [decide_eq_true h, decide_eq_true (by omega : i < a - lo + 1 - (b - lo)), decide_eq_true (by omega : b + i < n), if_pos (by omega)]
    simp only [Bool.true_and]; congr 1; omega
  · rw [decide_eq_false h, decide_eq_false (by omega : ¬i < a - lo + 1 - (b - lo)), Bool.false_and, Bool.false_and]

/-- The field put reads its value. -/
theorem fld_putFld_same {n : Nat} (w : BitVec n) (hi lo v : Nat) (hn : hi < n) (h : lo ≤ hi) :
    fld (putFld w hi lo v) hi lo = v % 2 ^ (hi + 1 - lo) := by
  rw [fld_putFld_sub w hi lo v hi lo hn (Nat.le_refl _) (Nat.le_refl _) h, nfld, Nat.sub_self, Nat.pow_zero, Nat.div_one]
  congr 2; omega

/-- A field beside the one put stays. -/
theorem fld_putFld_ne {n : Nat} (w : BitVec n) (hi lo v a b : Nat) (h : lo ≤ hi + 1) (hd : a < lo ∨ hi < b) :
    fld (putFld w hi lo v) a b = fld w a b := by
  apply Nat.eq_of_testBit_eq
  intro i
  rw [fld_testBit, fld_testBit, putFld_getLsbD _ _ _ _ _ h]
  by_cases hi1 : i < a + 1 - b
  · rw [if_neg (by omega)]
    by_cases hin : b + i < n
    · simp [hin]
    · simp [hin, BitVec.getLsbD_of_ge w (b + i) (by omega)]
  · simp [hi1]

/-- Bit j after bit i has been put. -/
theorem tbit_putBit {n : Nat} (w : BitVec n) (i j : Nat) (b : Bool) (hi : i < n) : tbit (putBit w i b) j = if j = i then b else tbit w j := by
  rw [tbit_eq, tbit_eq, putBit, putFld_getLsbD _ _ _ _ _ (by omega)]
  by_cases h : j = i
  · subst h; simp [hi]; cases b <;> simp
  · rw [if_neg (by omega), if_neg h]
    by_cases hj : j < n
    · simp [hj]
    · simp [hj, BitVec.getLsbD_of_ge w j (by omega)]

/-- A bit outside a field that is put stays. -/
theorem tbit_putFld_ne {n : Nat} (w : BitVec n) (hi lo v j : Nat) (h : lo ≤ hi + 1) (hd : j < lo ∨ hi < j) : tbit (putFld w hi lo v) j = tbit w j := by
  unfold tbit; rw [fld_putFld_ne w hi lo v j j h hd]

/-- A field that holds not bit i stays when bit i is put. -/
theorem fld_putBit_ne {n : Nat} (w : BitVec n) (i a b : Nat) (v : Bool) (hd : a < i ∨ i < b) : fld (putBit w i v) a b = fld w a b :=
  fld_putFld_ne _ _ _ _ _ _ (by omega) hd

end Sys2Proof.Machine
end

