-- ==== Sys2Proof/Laws/Frames.lean ====
section
/-!
SUPPORT. What the shared operations change and what they leave: loops over a list, counters, events, rings, halts. Each lemma says once what an
operation touches, so that a later proof cites it.
-/

namespace Sys2Proof.Machine

/-! ## Loops -/

/-- What every turn of a loop keeps, the loop keeps. -/
theorem each_keeps {α β : Type} (l : List α) (f : State → α → State) (v : State → β) (h : ∀ x a, v (f x a) = v x) (s : State) :
    v (each l f s) = v s := by
  induction l generalizing s with
  | nil => rfl
  | cons a l ih => exact (ih (f s a)).trans (h s a)

/-- An invariant that every turn of a loop keeps. -/
theorem each_inv {α : Type} (l : List α) (f : State → α → State) (P : State → Prop) (h : ∀ x a, P x → P (f x a)) (s : State) (hs : P s) :
    P (each l f s) := by
  induction l generalizing s with
  | nil => exact hs
  | cons a l ih => exact ih (f s a) (h s a hs)

/-! ## Operations that write registers alone -/

/-- The state with its registers replaced. -/
def State.withRegs (s : State) (r : SMap Word) : State := { s with regs := r }

/-- Whether t is s with other registers. -/
def State.RegsOnly (s t : State) : Prop := t = s.withRegs t.regs

theorem State.RegsOnly.refl (s : State) : s.RegsOnly s := rfl

theorem State.RegsOnly.trans {s t u : State} (h : s.RegsOnly t) (h2 : t.RegsOnly u) : s.RegsOnly u := by
  unfold State.RegsOnly State.withRegs at *
  rw [h2, h]

theorem State.setReg_regsOnly (s : State) (a : Nat) (v : Word) : s.RegsOnly (s.setReg a v) := rfl
theorem State.setRf_regsOnly (s : State) (a hi lo v : Nat) : s.RegsOnly (s.setRf a hi lo v) := s.setReg_regsOnly _ _
theorem State.setRb_regsOnly (s : State) (a i : Nat) (b : Bool) : s.RegsOnly (s.setRb a i b) := s.setReg_regsOnly _ _
theorem State.add_regsOnly (s : State) (a n : Nat) : s.RegsOnly (s.add a n) := s.setReg_regsOnly _ _
theorem State.inc_regsOnly (s : State) (a : Nat) : s.RegsOnly (s.inc a) := s.setReg_regsOnly _ _

theorem each_regsOnly {α : Type} (l : List α) (f : State → α → State) (h : ∀ x a, State.RegsOnly x (f x a)) (s : State) :
    s.RegsOnly (each l f s) :=
  each_inv l f (fun x => s.RegsOnly x) (fun x a hx => hx.trans (h x a)) s (State.RegsOnly.refl s)

theorem State.RegsOnly.ite {s t u : State} {c : Prop} [Decidable c] (h : s.RegsOnly t) (h2 : s.RegsOnly u) : s.RegsOnly (if c then t else u) := by
  split <;> assumption

theorem State.pmuAdd_regsOnly (s : State) (off n : Nat) : s.RegsOnly (s.pmuAdd off n) := by
  unfold State.pmuAdd
  generalize (s.reg (off + 4)).toNat + 4294967296 * s.rf (off + 8) 15 0 + n = v
  exact (((s.setReg_regsOnly _ _).trans (State.setReg_regsOnly _ _ _)).trans (State.setRb_regsOnly _ _ _ _)).ite
    ((s.setReg_regsOnly _ _).trans (State.setReg_regsOnly _ _ _))

theorem State.pmu_regsOnly (s : State) (base count ev lo hi : Nat) (a : PmuAttr) (n : Nat) : s.RegsOnly (s.pmu base count ev lo hi a n) := by
  unfold State.pmu
  split
  · exact State.RegsOnly.refl s
  · exact each_regsOnly _ _ (fun x off => x.pmuAdd_regsOnly off n) s

theorem State.pmuCore_regsOnly (s : State) (c k ev : Nat) (a : PmuAttr) (n : Nat) : s.RegsOnly (s.pmuCore c k ev a n) := State.pmu_regsOnly ..
theorem State.pmuClu_regsOnly (s : State) (c ev : Nat) (a : PmuAttr) (n : Nat) : s.RegsOnly (s.pmuClu c ev a n) := State.pmu_regsOnly ..
theorem State.pmuFab_regsOnly (s : State) (ev : Nat) (a : PmuAttr) (n : Nat) : s.RegsOnly (s.pmuFab ev a n) := State.pmu_regsOnly ..

/-! ## Operations that write registers, messages and MSI-X vectors -/

/-- Whether t differs from s in registers, what was sent, host-interface state and DRAM alone. -/
def State.SameCore (s t : State) : Prop :=
  t = { s with regs := t.regs, out := t.out, hst := t.hst, ddr := t.ddr }

theorem State.SameCore.refl (s : State) : s.SameCore s := rfl

theorem State.SameCore.trans {s t u : State} (h : s.SameCore t) (h2 : t.SameCore u) : s.SameCore u := by
  unfold State.SameCore at *
  rw [h2, h]

theorem State.RegsOnly.sameCore {s t : State} (h : s.RegsOnly t) : s.SameCore t := by
  unfold State.RegsOnly State.withRegs at h
  unfold State.SameCore
  rw [h]

theorem State.SameCore.ite {s t u : State} {c : Prop} [Decidable c] (h : s.SameCore t) (h2 : s.SameCore u) : s.SameCore (if c then t else u) := by
  split <;> assumption

theorem State.setReg_sameCore (s : State) (a : Nat) (v : Word) : s.SameCore (s.setReg a v) := (s.setReg_regsOnly a v).sameCore
theorem State.setRf_sameCore (s : State) (a hi lo v : Nat) : s.SameCore (s.setRf a hi lo v) := (s.setRf_regsOnly a hi lo v).sameCore
theorem State.setRb_sameCore (s : State) (a i : Nat) (b : Bool) : s.SameCore (s.setRb a i b) := (s.setRb_regsOnly a i b).sameCore
theorem State.inc_sameCore (s : State) (a : Nat) : s.SameCore (s.inc a) := (s.inc_regsOnly a).sameCore
theorem State.emit_sameCore (s : State) (e : Emit) : s.SameCore (s.emit e) := rfl
theorem State.setMsix_sameCore (s : State) (k : Nat) (v : MsixVec) : s.SameCore (s.setMsix k v) := rfl

theorem State.sendMsix_sameCore (s : State) (l p v : Nat) : s.SameCore (s.sendMsix l p v) := by
  unfold State.sendMsix
  exact ((s.setMsix_sameCore _ _).ite (s.emit_sameCore _)).ite (s.inc_sameCore _)

theorem State.deliverMsix_sameCore (s : State) (e : Nat) : s.SameCore (s.deliverMsix e) := by
  unfold State.deliverMsix
  exact (s.sendMsix_sameCore _ _ _).ite (State.SameCore.refl s)

theorem State.deliverSup_sameCore (s : State) (e : Nat) : s.SameCore (s.deliverSup e) := by
  unfold State.deliverSup
  exact (s.setRb_sameCore _ _ _).ite (State.SameCore.refl s)

theorem State.deliverPair_sameCore (s : State) (e : Nat) : s.SameCore (s.deliverPair e) := by
  unfold State.deliverPair
  exact ((s.emit_sameCore _).ite (s.inc_sameCore _)).ite (State.SameCore.refl s)

theorem State.deliverAlarm_sameCore (s : State) (e : Nat) : s.SameCore (s.deliverAlarm e) := by
  unfold State.deliverAlarm
  exact (s.setRb_sameCore _ _ _).ite (State.SameCore.refl s)

theorem State.deliver_sameCore (s : State) (e : Nat) : s.SameCore (s.deliver e) := by
  unfold State.deliver
  exact (State.SameCore.refl s).ite ((((s.deliverMsix_sameCore e).trans (State.deliverSup_sameCore _ e)).trans
    (State.deliverPair_sameCore _ e)).trans (State.deliverAlarm_sameCore _ e))

theorem State.sqc_sameCore (s : State) (off bit e : Nat) : s.SameCore (s.sqc off bit e) := by
  unfold State.sqc
  exact (s.setRf_sameCore _ _ _ _).ite (((s.setRb_sameCore _ _ _).trans (State.setRf_sameCore ..)).trans (State.deliver_sameCore _ e))

theorem State.dramWrite_sameCore (a : Nat) (bs : List Byte) (s : State) : s.SameCore (State.dramWrite a bs s) := by
  induction bs generalizing a s with
  | nil => rfl
  | cons b bs ih =>
    exact State.SameCore.trans (t := { s with ddr := { s.ddr with mem := s.ddr.mem.sd 0 a b, bad := s.ddr.bad.sd false (a / 64) false } }) rfl
      (ih (a + 1) _)

theorem State.pmuDram_sameCore (s : State) (ev a n : Nat) (m : Option Nat) : s.SameCore (s.pmuDram ev a n m) :=
  (each_regsOnly _ _ (fun x _ => x.pmuFab_regsOnly _ _ _) s).sameCore

theorem State.ringStore_sameCore (s : State) (r : Ring) (bs : List Byte) : s.SameCore (s.ringStore r bs) := by
  unfold State.ringStore
  exact ((State.dramWrite_sameCore _ _ s).trans (State.setReg_regsOnly _ _ _).sameCore).trans (State.pmuDram_sameCore ..)

theorem State.ringTake_sameCore (s : State) (r : Ring) (bs : List Byte) (h : ∀ x : State, x.SameCore (r.lost x)) : s.SameCore (s.ringTake r bs) := by
  unfold State.ringTake
  exact (s.inc_sameCore _).ite ((s.ringStore_sameCore r bs).ite
    ((((s.ringStore_sameCore r bs).trans (State.setReg_sameCore _ _ _)).trans (h _)).ite (h s)))

theorem State.setRingFifo_sameCore (s : State) (r : Ring) (q : List (List Byte)) : s.SameCore (s.setRingFifo r q) := rfl

/-- A record put into a ring touches no thread, memory of a cluster or unit, where what the ring does with a lost record does not. -/
theorem State.ringPut_sameCore (s : State) (r : Ring) (bs : List Byte) (h : ∀ x : State, x.SameCore (r.lost x)) : s.SameCore (s.ringPut r bs) := by
  unfold State.ringPut
  exact (State.SameCore.refl s).ite ((s.ringTake_sameCore r bs h).ite ((h s).ite (s.setRingFifo_sameCore r _)))

theorem State.trace_sameCore (s : State) (c part : Nat) (o i : Option Nat) (th rs pr : Nat) (aux : Word) :
    s.SameCore (s.trace c part o i th rs pr aux) := by
  unfold State.trace
  exact (s.ringPut_sameCore _ _ fun x => (x.inc_sameCore _).trans (State.sqc_sameCore ..)).ite (State.SameCore.refl s)

/-- What an operation that touches registers, messages, host-interface state and DRAM alone leaves: every other field. -/
theorem State.SameCore.fields {s t : State} (h : s.SameCore t) :
    t.pending = s.pending ∧ t.up = s.up ∧ t.time = s.time ∧ t.rdShadow = s.rdShadow ∧ t.wrHold = s.wrHold ∧ t.fv = s.fv ∧ t.ind = s.ind ∧
    t.ing = s.ing ∧ t.aut = s.aut ∧ t.spe = s.spe ∧ t.pkt = s.pkt ∧ t.och = s.och ∧ t.clu = s.clu ∧ t.cpx = s.cpx ∧ t.vrm = s.vrm ∧ t.cfg = s.cfg ∧
    t.sab = s.sab ∧ t.pai = s.pai ∧ t.dbg = s.dbg ∧ t.pwr = s.pwr := by
  unfold State.SameCore at h
  rw [h]
  exact ⟨rfl, rfl, rfl, rfl, rfl, rfl, rfl, rfl, rfl, rfl, rfl, rfl, rfl, rfl, rfl, rfl, rfl, rfl, rfl, rfl⟩

end Sys2Proof.Machine
end

