-- ==== Sys2Proof/Laws/Issue.lean ====
section
/-!
SUPPORT. What issuing an instruction does, said once: its counters, its sample, the end of the instruction, the halt of a thread that steps. A
statement about one instruction follows from `runsTo_next` or `runsTo_jump` and what the instruction computes.
-/

namespace Sys2Proof.Machine

/-! ## Reads after an update of one thread -/

@[simp] theorem State.thr_updThr (s : State) (k : Nat) (f : Thread → Thread) : (s.updThr k f).thr k = f (s.thr k) := State.thr_setThr ..
theorem State.thr_updThr_ne (s : State) (k j : Nat) (f : Thread → Thread) (h : j ≠ k) : (s.updThr k f).thr j = s.thr j := State.thr_setThr_ne _ _ _ _ h
@[simp] theorem State.thr_updCtx (s : State) (k : Nat) (f : Ctx → Ctx) : (s.updCtx k f).thr k = { s.thr k with ctx := f (s.thr k).ctx } :=
  State.thr_updThr ..

/-! ## Operations near one thread -/

/-- Whether u differs from s in thread k, the registers `issueRegs k`, DRAM, the samplers and the free values alone. -/
structure State.Near (s u : State) (k : Nat) : Prop where
  other : ∀ j, j ≠ k → u.thr j = s.thr j
  same : u = { s with regs := u.regs, fv := u.fv, ddr := u.ddr, dbg := u.dbg, clu := { s.clu with thr := u.clu.thr } }
  stay : s.RegsStay u (issueRegs k)

theorem State.Near.refl (s : State) (k : Nat) : s.Near s k := ⟨fun _ _ => rfl, rfl, fun _ _ => rfl⟩

theorem State.Near.trans {s t u : State} {k : Nat} (h : s.Near t k) (h2 : t.Near u k) : s.Near u k := by
  refine ⟨fun j hj => (h2.other j hj).trans (h.other j hj), ?_, fun a ha => (h2.stay a ha).trans (h.stay a ha)⟩
  have e1 := h.same
  have e2 := h2.same
  rw [e1] at e2
  exact e2

theorem State.Near.ite {s t u : State} {k : Nat} {c : Prop} [Decidable c] (h : s.Near t k) (h2 : s.Near u k) : s.Near (if c then t else u) k := by
  split <;> assumption

/-- A write of one of the registers an issue may write. -/
theorem State.setReg_near (s : State) (a : Nat) (v : Word) (k : Nat) (h : a ∈ issueRegs k) : s.Near (s.setReg a v) k := by
  refine ⟨fun _ _ => rfl, rfl, fun b hb => State.reg_setReg_ne _ _ _ _ fun e => hb ?_⟩
  rw [e]
  exact List.mem_map_of_mem h

theorem State.setRb_near (s : State) (a i : Nat) (b : Bool) (k : Nat) (h : a ∈ issueRegs k) : s.Near (s.setRb a i b) k := s.setReg_near _ _ k h
theorem State.inc_near (s : State) (a k : Nat) (h : a ∈ issueRegs k) : s.Near (s.inc a) k := s.setReg_near _ _ k h

theorem State.updThr_near (s : State) (k : Nat) (f : Thread → Thread) : s.Near (s.updThr k f) k :=
  ⟨fun _ hj => State.thr_updThr_ne _ _ _ _ hj, rfl, fun _ _ => rfl⟩

theorem State.updCtx_near (s : State) (k : Nat) (f : Ctx → Ctx) : s.Near (s.updCtx k f) k := s.updThr_near _ _

theorem State.setSampler_near (s : State) (c k : Nat) (m : Sampler) : s.Near (s.setSampler c m) k := ⟨fun _ _ => rfl, rfl, fun _ _ => rfl⟩

theorem State.freeN_near (s : State) (n k : Nat) : s.Near (s.freeN n).2 k := ⟨fun _ _ => rfl, rfl, fun _ _ => rfl⟩

theorem each_near {α : Type} (l : List α) (f : State → α → State) (k : Nat) (s : State) (h : ∀ x : State, ∀ a ∈ l, x.Near (f x a) k) :
    s.Near (each l f s) k := by
  induction l generalizing s with
  | nil => exact State.Near.refl s k
  | cons a l ih => exact (h s a (List.mem_cons_self ..)).trans (ih (f s a) fun x b hb => h x b (List.mem_cons_of_mem _ hb))

theorem State.pmuAdd_near (s : State) (off n k : Nat) (h0 : off ∈ issueRegs k) (h1 : off + 4 ∈ issueRegs k) (h2 : off + 8 ∈ issueRegs k) :
    s.Near (s.pmuAdd off n) k := by
  unfold State.pmuAdd
  generalize (s.reg (off + 4)).toNat + 4294967296 * s.rf (off + 8) 15 0 + n = v
  exact (((s.setReg_near _ _ k h1).trans (State.setReg_near _ _ _ k h2)).trans (State.setRb_near _ _ _ _ k h0)).ite
    ((s.setReg_near _ _ k h1).trans (State.setReg_near _ _ _ k h2))

/-- A counter that hits lies a whole number of places above the first of its group. -/
theorem State.pmuHits_form (s : State) (base count ev lo hi : Nat) (a : PmuAttr) (off : Nat) (h : off ∈ s.pmuHits base count ev lo hi a) :
    ∃ i < count, off = base + 16 * i := by
  simp only [State.pmuHits, List.mem_map, List.mem_filter, Bool.and_eq_true, decide_eq_true_eq, beq_iff_eq] at h
  obtain ⟨p, ⟨-, ⟨⟨⟨⟨⟨h1, h2⟩, h3⟩, -⟩, -⟩, -⟩⟩, rfl⟩ := h
  exact ⟨(p.1 - base) / 16, by omega, by omega⟩

theorem counterRegs_mem (b n i j : Nat) (hi : i < n) (hj : j = 0 ∨ j = 4 ∨ j = 8) : b + 16 * i + j ∈ counterRegs b n := by
  simp only [counterRegs, List.mem_flatMap, List.mem_range]
  exact ⟨i, hi, by rcases hj with rfl | rfl | rfl <;> simp⟩

theorem State.pmu_near (s : State) (base count ev lo hi : Nat) (a : PmuAttr) (n k : Nat) (h : counterRegs base count ⊆ issueRegs k) :
    s.Near (s.pmu base count ev lo hi a n) k := by
  unfold State.pmu
  refine (State.Near.refl s k).ite (each_near _ _ k s fun x off hoff => ?_)
  obtain ⟨i, hi, rfl⟩ := s.pmuHits_form _ _ _ _ _ _ _ hoff
  exact x.pmuAdd_near _ n k (h (counterRegs_mem _ _ _ 0 hi (.inl rfl))) (h (counterRegs_mem _ _ _ 4 hi (.inr (.inl rfl))))
    (h (counterRegs_mem _ _ _ 8 hi (.inr (.inr rfl))))

theorem State.pmuCore_near (s : State) (k ev : Nat) (a : PmuAttr) (n : Nat) : s.Near (s.pmuCore (k / 128) (k % 128 / 8) ev a n) k :=
  s.pmu_near _ _ _ _ _ _ _ k fun _ h => List.mem_append_left _ (List.mem_append_left _ h)

theorem State.pmuFab_near (s : State) (ev : Nat) (a : PmuAttr) (n k : Nat) : s.Near (s.pmuFab ev a n) k :=
  s.pmu_near _ _ _ _ _ _ _ k fun _ h => List.mem_append_left _ (List.mem_append_right _ h)

theorem State.ddr_near (s : State) (d : Dram) (k : Nat) : s.Near { s with ddr := d } k := ⟨fun _ _ => rfl, rfl, fun _ _ => rfl⟩

theorem State.dramWrite_near (a : Nat) (bs : List Byte) (s : State) (k : Nat) : s.Near (State.dramWrite a bs s) k := by
  induction bs generalizing a s with
  | nil => exact State.Near.refl s k
  | cons b bs ih => exact (s.ddr_near _ k).trans (ih (a + 1) _)

theorem State.ringStore_near (s : State) (r : Ring) (bs : List Byte) (k : Nat) (h : r.wr ∈ issueRegs k) : s.Near (s.ringStore r bs) k := by
  unfold State.ringStore State.pmuDram
  exact ((State.dramWrite_near _ _ s k).trans (State.setReg_near _ _ _ k h)).trans (each_near _ _ k _ fun x _ _ => x.pmuFab_near _ _ _ k)

theorem State.ringPut_near (s : State) (r : Ring) (bs : List Byte) (k : Nat) (h1 : r.wr ∈ issueRegs k) (h2 : r.rd ∈ issueRegs k)
    (h3 : ∀ x : State, x.Near (r.lost x) k) : s.Near (s.ringPut r bs) k := by
  unfold State.ringPut State.ringTake
  have hd : Reg.REC_DOWN_DROP ∈ issueRegs k := by simp [issueRegs]
  exact (State.Near.refl s k).ite (((s.inc_near _ k hd).ite ((s.ringStore_near r bs k h1).ite
    ((((s.ringStore_near r bs k h1).trans (State.setReg_near _ _ _ k h2)).trans (h3 _)).ite (h3 s)))).ite ((h3 s).ite (s.ddr_near _ k)))

/-! ## The sampler -/

theorem State.retireSample_near (s : State) (k : Nat) : s.Near (s.retireSample k) k := by
  unfold State.retireSample
  dsimp only
  split
  · refine (State.Near.trans (s.setSampler_near _ k _) (State.ringPut_near _ _ _ k ?_ ?_ fun x => ?_)).ite (State.Near.refl s k)
    · simp [issueRegs, State.sampleRing]
    · simp [issueRegs, State.sampleRing]
    · exact x.inc_near _ k (by simp [issueRegs])
  · exact State.Near.refl s k

theorem State.sampleIssue_near (s : State) (k : Nat) (iw : PWord) : s.Near (s.sampleIssue k iw) k := by
  unfold State.sampleIssue
  dsimp only
  split
  · split
    · split
      · exact State.setSampler_near _ _ k _
      · exact ((State.freeN_near _ _ k).trans (State.freeN_near _ _ k)).trans (State.setSampler_near _ _ k _)
    · split
      · exact State.Near.trans (t := (s.freeN _).2) (s.freeN_near (2 ^ fld (s.reg (Reg.CLU_PMU_SMP_CFG (k / 128))) 28 24) k) (State.setSampler_near _ _ k _)
      · exact State.Near.trans (t := (((s.freeN (2 ^ fld (s.reg (Reg.CLU_PMU_SMP_CFG (k / 128))) 28 24)).2.freeN 256).2.freeN 6).2)
          (((s.freeN_near _ k).trans (State.freeN_near _ _ k)).trans (State.freeN_near _ _ k)) (State.setSampler_near _ _ k _)
  · exact State.Near.refl s k

theorem State.countIssue_near (s : State) (k len : Nat) (iw : PWord) : s.Near (s.countIssue k len iw) k := by
  unfold State.countIssue
  exact (((s.pmuCore_near k _ _ _).trans (State.pmuCore_near _ k _ _ _)).trans (State.sampleIssue_near _ k iw)).trans (State.updThr_near _ k _)

/-! ## What an issue leaves of the clusters, of DRAM and of the samplers -/

theorem State.RegsOnly.fields {s t : State} (h : s.RegsOnly t) : t.clu = s.clu ∧ t.fv = s.fv ∧ t.ddr = s.ddr ∧ t.dbg = s.dbg := by
  unfold State.RegsOnly State.withRegs at h
  rw [h]
  exact ⟨rfl, rfl, rfl, rfl⟩

theorem State.sampleIssue_clu (s : State) (k : Nat) (iw : PWord) : (s.sampleIssue k iw).clu = s.clu := by
  unfold State.sampleIssue
  dsimp only
  split
  · split <;> split <;> rfl
  · rfl

theorem State.sampleIssue_off (s : State) (k : Nat) (iw : PWord) (h : s.rb (Reg.CLU_PMU_SMP_CFG (k / 128)) 31 = false) :
    s.sampleIssue k iw = s := by
  unfold State.sampleIssue
  dsimp only
  rw [if_neg]
  intro e
  simp only [Bool.and_eq_true] at e
  rw [show tbit (s.reg (Reg.CLU_PMU_SMP_CFG (k / 128))) 31 = false from h] at e
  simp at e

theorem State.countIssue_thr (s : State) (k len : Nat) (iw : PWord) : (s.countIssue k len iw).thr k = { s.thr k with bpSkip := false, slots := (s.thr k).slots + len } := by
  unfold State.countIssue
  rw [State.thr_updThr]
  have e : ∀ x : State, (x.sampleIssue k iw).thr k = x.thr k := fun x => by unfold State.thr; rw [x.sampleIssue_clu]
  have e2 : ∀ (x : State) (ev : Nat) (a : PmuAttr) (n : Nat), (x.pmuCore (k / 128) (k % 128 / 8) ev a n).thr k = x.thr k := fun x ev a n => by
    unfold State.thr; rw [(x.pmuCore_regsOnly _ _ ev a n).fields.1]
  simp only [e, e2]

/-- What the sampler may change. -/
def State.Quiet (s u : State) : Prop := u.fv = s.fv ∧ u.ddr = s.ddr ∧ u.dbg = s.dbg

theorem State.Quiet.trans {s t u : State} (h : s.Quiet t) (h2 : t.Quiet u) : s.Quiet u :=
  ⟨h2.1.trans h.1, h2.2.1.trans h.2.1, h2.2.2.trans h.2.2⟩

theorem State.RegsOnly.quiet {s t : State} (h : s.RegsOnly t) : s.Quiet t := h.fields.2

theorem State.retireSample_clu (s : State) (k : Nat) : (s.retireSample k).clu = s.clu := by
  unfold State.retireSample
  dsimp only
  split
  · split
    · exact (State.ringPut_sameCore _ _ _ fun x => x.inc_sameCore _).fields.2.2.2.2.2.2.2.2.2.2.2.2.1
    · rfl
  · rfl

theorem State.retireSample_thr (s : State) (k j : Nat) : (s.retireSample k).thr j = s.thr j := by
  unfold State.thr; rw [s.retireSample_clu]

/-! ## The end of an instruction -/

theorem State.Near.leaves {s u : State} {k : Nat} (h : s.Near u k) (hq : s.rb (Reg.CLU_PMU_SMP_CFG (k / 128)) 31 = false → s.Quiet u) :
    s.LeavesOthers u k := by
  have e := h.same
  refine ⟨h.other, ⟨by rw [e], fun a ha => ?_⟩, ?_, h.stay, hq, fun _ => by rw [e]⟩
  · rw [e]
    cases a <;> first | rfl | (exact absurd (by decide) ha)
  · rw [e]
    exact ⟨rfl, rfl, rfl, rfl, rfl⟩

theorem State.noteSample_near (s0 s1 : State) (k : Nat) (p w : Bool) : s1.Near (State.noteSample s0 s1 k p w) k := by
  unfold State.noteSample
  exact (State.Near.refl s1 k).ite ((s1.updThr_near k _).ite (s1.retireSample_near k))

theorem State.noteSample_thr (s0 s1 : State) (k : Nat) (w : Bool) : (State.noteSample s0 s1 k false w).thr k = s1.thr k := by
  unfold State.noteSample
  split
  · rfl
  · exact s1.retireSample_thr k k

theorem State.noteSample_off (s0 s1 : State) (k : Nat) (p w : Bool) (h : s1.dbg = s0.dbg) : State.noteSample s0 s1 k p w = s1 := by
  unfold State.noteSample
  rw [if_pos]
  have : s0.sampledNow s1 k = false := by
    unfold State.sampledNow State.sampler
    rw [h]
    generalize SMap.gd ({} : Sampler) s0.dbg.samplers (k / 128) = m
    cases m.out <;> rfl
  simp [this]

theorem counterRegs_form (b n a : Nat) (h : a ∈ counterRegs b n) : ∃ i < n, a = b + 16 * i ∨ a = b + 16 * i + 4 ∨ a = b + 16 * i + 8 := by
  simpa [counterRegs, List.mem_flatMap] using h

/-- The configuration of the sampler is none of the registers an issue writes. -/
theorem smpCfg_free (k : Nat) : regKey (Reg.CLU_PMU_SMP_CFG (k / 128)) ∉ (issueRegs k).map regKey := by
  intro h
  obtain ⟨a, ha, e⟩ := List.mem_map.1 h
  simp only [issueRegs, List.mem_append, List.mem_cons, List.not_mem_nil, or_false] at ha
  unfold regKey Reg.CLU_PMU_SMP_CFG at e
  rcases ha with (ha | ha) | rfl | rfl | rfl | rfl | rfl
  · obtain ⟨i, hi, ha⟩ := counterRegs_form _ _ _ ha
    unfold Reg.CLU_PMU_CTR_CFG at ha
    split at e <;> split at e <;> omega
  · obtain ⟨i, hi, ha⟩ := counterRegs_form _ _ _ ha
    unfold Reg.PMU_CTR_CFG at ha
    split at e <;> split at e <;> omega
  · unfold Reg.CLU_PMU_SMP_WR at e
    split at e <;> split at e <;> omega
  · unfold Reg.CLU_PMU_SMP_RD at e
    split at e <;> split at e <;> omega
  · unfold Reg.CLU_PMU_SMP_DROP at e
    split at e <;> split at e <;> omega
  · unfold Reg.REC_DOWN_DROP at e
    split at e <;> split at e <;> omega
  · unfold Reg.DBG_STATUS at e
    split at e <;> split at e <;> omega

theorem State.Near.smpCfg {s u : State} {k : Nat} (h : s.Near u k) (i : Nat) :
    u.rb (Reg.CLU_PMU_SMP_CFG (k / 128)) i = s.rb (Reg.CLU_PMU_SMP_CFG (k / 128)) i := by
  unfold State.rb
  rw [h.stay _ (smpCfg_free k)]

theorem State.countIssue_quiet (s : State) (k len : Nat) (iw : PWord) (h : s.rb (Reg.CLU_PMU_SMP_CFG (k / 128)) 31 = false) :
    s.Quiet (s.countIssue k len iw) := by
  unfold State.countIssue
  have h1 := s.pmuCore_near k 0x01 (s.privAttr k) 1
  have h2 := State.pmuCore_near (s.pmuCore (k / 128) (k % 128 / 8) 0x01 (s.privAttr k) 1) k 0x02 (s.privAttr k) len
  dsimp only
  rw [State.sampleIssue_off _ _ _ ((h1.trans h2).smpCfg 31 ▸ h)]
  exact ((s.pmuCore_regsOnly _ _ _ _ _).quiet.trans (State.pmuCore_regsOnly ..).quiet).trans ⟨rfl, rfl, rfl⟩

/-! ## The halt of a thread that steps -/

/-- What a halt of thread k leaves of u: the other threads, the areas but registers and clusters, the memories and locks of the clusters. -/
structure State.Halts (s u : State) (k : Nat) : Prop where
  other : ∀ j, j ≠ k → u.thr j = s.thr j
  same : u = { s with regs := u.regs, clu := { s.clu with thr := u.clu.thr, tasks := u.clu.tasks, ready := u.clu.ready, chans := u.clu.chans } }
  stay : s.RegsStay u (issueRegs k)

theorem State.Halts.refl (s : State) (k : Nat) : s.Halts s k := ⟨fun _ _ => rfl, rfl, fun _ _ => rfl⟩

theorem State.Halts.trans {s t u : State} {k : Nat} (h : s.Halts t k) (h2 : t.Halts u k) : s.Halts u k := by
  refine ⟨fun j hj => (h2.other j hj).trans (h.other j hj), ?_, fun a ha => (h2.stay a ha).trans (h.stay a ha)⟩
  have e1 := h.same
  have e2 := h2.same
  rw [e1] at e2
  exact e2

theorem State.updThr_halts (s : State) (k : Nat) (f : Thread → Thread) : s.Halts (s.updThr k f) k :=
  ⟨fun _ hj => State.thr_updThr_ne _ _ _ _ hj, rfl, fun _ _ => rfl⟩

theorem State.updTask_halts (s : State) (k j : Nat) (f : Task → Task) : s.Halts (s.updTask j f) k := ⟨fun _ _ => rfl, rfl, fun _ _ => rfl⟩
theorem State.setReady_halts (s : State) (k j : Nat) (l : List Nat) : s.Halts (s.setReady j l) k := ⟨fun _ _ => rfl, rfl, fun _ _ => rfl⟩
theorem State.setChan_halts (s : State) (k j : Nat) (c : Chan) : s.Halts (s.setChan j c) k := ⟨fun _ _ => rfl, rfl, fun _ _ => rfl⟩

theorem State.readyHead_halts (s : State) (k j : Nat) : s.Halts (s.readyHead j) k := (s.updTask_halts k _ _).trans (State.setReady_halts _ k _ _)
theorem State.bookUsed_halts (s : State) (k j : Nat) : s.Halts (s.bookUsed j) k := s.updTask_halts k _ _

theorem State.stayOn_halts (s : State) (k : Nat) : s.Halts (s.stayOn k) k := by
  unfold State.stayOn
  split
  · exact (s.readyHead_halts k _).trans (State.updThr_halts _ k _)
  · exact State.Halts.refl s k

theorem State.stayOn_thr (s : State) (k : Nat) :
    ((s.stayOn k).thr k).ctx = (s.thr k).ctx ∧ ((s.stayOn k).thr k).dp = (s.thr k).dp ∧ ((s.stayOn k).thr k).pend = (s.thr k).pend ∧
      ((s.stayOn k).thr k).st = (s.thr k).st := by
  unfold State.stayOn
  split
  · rw [State.thr_updThr]
    exact ⟨rfl, rfl, rfl, rfl⟩
  · exact ⟨rfl, rfl, rfl, rfl⟩

theorem State.holdChans_halts (s : State) (a : Agent) (k : Nat) : s.Halts (s.holdChans a) k := by
  unfold State.holdChans
  exact each_inv _ _ (fun x => s.Halts x k) (fun x j hx => by
    dsimp only
    split
    · exact hx.trans (x.setChan_halts k _ _)
    · exact hx) s (State.Halts.refl s k)

theorem State.holdChans_thr (s : State) (a : Agent) (j : Nat) : (s.holdChans a).thr j = s.thr j := by
  unfold State.holdChans
  exact each_keeps _ _ (fun x => x.thr j) (fun x i => by dsimp only; split <;> rfl) s

theorem State.recordHalt_eq (s : State) (k c b : Nat) : ∃ v, s.recordHalt k c b = s.setReg Reg.DBG_STATUS v := ⟨_, rfl⟩

theorem State.recordHalt_halts (s : State) (k c b : Nat) : s.Halts (s.recordHalt k c b) k := by
  obtain ⟨v, e⟩ := s.recordHalt_eq k c b
  rw [e]
  exact ⟨fun _ _ => rfl, rfl, (s.setReg_near Reg.DBG_STATUS v k (by simp [issueRegs])).stay⟩

theorem State.recordHalt_thr (s : State) (k c b j : Nat) : (s.recordHalt k c b).thr j = s.thr j := by
  obtain ⟨v, e⟩ := s.recordHalt_eq k c b
  rw [e]
  rfl

/-- A halt at a boundary: what becomes of the thread, and what it leaves. -/
theorem State.haltThread_spec (s : State) (k c b : Nat) :
    s.Halts (s.haltThread k c b) k ∧ ((s.haltThread k c b).thr k).ctx = (s.thr k).ctx ∧ ((s.haltThread k c b).thr k).dp = (s.thr k).dp ∧
      ((s.haltThread k c b).thr k).pend = (s.thr k).pend ∧ ((s.haltThread k c b).thr k).st = .halted ∧
      ((s.haltThread k c b).thr k).haltedIn = (s.thr k).st := by
  obtain ⟨h1, h2, h3, h4⟩ := s.stayOn_thr k
  unfold State.haltThread
  generalize e : s.stayOn k = x at *
  dsimp only
  have hx : s.Halts x k := e ▸ s.stayOn_halts k
  have key : ∀ y : State, s.Halts y k → y.thr k = x.thr k → ∀ a,
      s.Halts (((y.updThr k fun t => { t with
        st := .halted, haltedIn := t.st, haltWhy := if c = 1 then .breakpoint else .debug, stepping := false }).holdChans a).recordHalt k c b) k ∧
      ((((y.updThr k fun t => { t with
        st := .halted, haltedIn := t.st, haltWhy := if c = 1 then .breakpoint else .debug, stepping := false }).holdChans a).recordHalt k c b).thr k) =
        { x.thr k with st := .halted, haltedIn := (x.thr k).st, haltWhy := if c = 1 then .breakpoint else .debug, stepping := false } :=
    fun y hy e a => by
      refine ⟨((hy.trans (y.updThr_halts k _)).trans (State.holdChans_halts _ a k)).trans (State.recordHalt_halts ..), ?_⟩
      rw [State.recordHalt_thr, State.holdChans_thr, State.thr_updThr, e]
  split
  · obtain ⟨g1, g2⟩ := key _ (hx.trans (x.bookUsed_halts k _)) rfl (x.agentOf k)
    exact ⟨g1, by rw [g2]; exact ⟨h1, h2, h3, rfl, h4⟩⟩
  · obtain ⟨g1, g2⟩ := key x hx rfl (x.agentOf k)
    exact ⟨g1, by rw [g2]; exact ⟨h1, h2, h3, rfl, h4⟩⟩

/-- What an instruction leaves, where its thread halts at the end of it. -/
theorem State.Near.halts {s t u : State} {k : Nat} (h : s.Near t k) (h2 : t.Halts u k) (hs : (s.thr k).stepping = true)
    (hq : s.rb (Reg.CLU_PMU_SMP_CFG (k / 128)) 31 = false → s.Quiet t) : s.LeavesOthers u k := by
  have e := h.same
  have e2 := h2.same
  rw [e] at e2
  refine ⟨fun j hj => (h2.other j hj).trans (h.other j hj), ⟨by rw [e2], fun a ha => ?_⟩, ?_, fun a ha => (h2.stay a ha).trans (h.stay a ha),
    fun hc => ?_, fun hn => absurd hs (by rw [hn]; decide)⟩
  · rw [e2]
    cases a <;> first | rfl | (exact absurd (by decide) ha)
  · rw [e2]
    exact ⟨rfl, rfl, rfl, rfl, rfl⟩
  · obtain ⟨q1, q2, q3⟩ := hq hc
    have e3 := h2.same
    rw [e3]
    exact ⟨q1, q2, q3⟩

/-! ## What an instruction does that issues -/

/-- The end of an instruction that leads to x, with its next words fetched at its new PC: the state z before a sample retires and a step halts. -/
theorem State.end_spec (s z : State) (k : Nat) (w : Bool) (th : Thread) (hz : s.Near z k) (hth : z.thr k = th) (hst : th.st = .ready)
    (hstep : th.stepping = (s.thr k).stepping) (hq : s.rb (Reg.CLU_PMU_SMP_CFG (k / 128)) 31 = false → s.Quiet z) :
    s.Reached ((State.noteSample s z k false w).stepHalt k) k th ∧ s.LeavesOthers ((State.noteSample s z k false w).stepHalt k) k := by
  have hn := hz.trans (State.noteSample_near s z k false w)
  have ht : (State.noteSample s z k false w).thr k = th := (State.noteSample_thr s z k w).trans hth
  have hqq : s.rb (Reg.CLU_PMU_SMP_CFG (k / 128)) 31 = false → s.Quiet (State.noteSample s z k false w) := fun h => by
    rw [State.noteSample_off s z k false w (hq h).2.2]
    exact hq h
  generalize State.noteSample s z k false w = y at *
  unfold State.stepHalt
  rw [ht, hst, hstep]
  cases hb : (s.thr k).stepping with
  | false =>
    exact ⟨⟨fun _ => by
      show y.thr k = { th with slots := (y.thr k).slots }
      rw [ht], fun h => absurd h (by rw [hb]; decide)⟩, hn.leaves hqq⟩
  | true =>
    obtain ⟨g, g1, g2, g3, g4, g5⟩ := y.haltThread_spec k 3 0
    rw [ht] at g1 g2 g3 g5
    exact ⟨⟨fun h => absurd h (by rw [hb]; decide), fun _ => ⟨g1, g2, g3, g4, g5.trans hst⟩⟩, hn.halts g hb hqq⟩

/-- A command that sent nothing merges nothing. -/
theorem State.closed_of_out (s u : State) (h : u.out = s.out) : s.closed u = u := by
  unfold State.closed
  rw [h, Nat.sub_self]
  show ({ u with out := s.out } : State) = u
  rw [← h]

/-- An instruction that can issue, without a role it lacks, ends as its effect says. -/
theorem State.issue_of_issues (s : State) (t : ThreadId) (i : Instr) (len : Nat) (ds : List Dest) (act : State → Eff)
    (h : s.issues t i ds = true) :
    s.issue t i len ds none act =
      State.finishInstr s (tidNat t) len (s.nextWords (tidNat t)).1 (act (s.countIssue (tidNat t) len (s.nextWords (tidNat t)).1)) := by
  unfold State.issues at h
  simp only [Bool.and_eq_true, Bool.not_eq_true', decide_eq_true_eq, Option.isNone_iff_eq_none] at h
  obtain ⟨⟨⟨h1, h2⟩, h3⟩, h4⟩ := h
  unfold State.issue
  simp [h1, h2, h3, h4]

/-- An instruction that issues starts on a READY thread. -/
theorem State.ready_of_issues (s : State) (t : ThreadId) (i : Instr) (ds : List Dest) (h : s.issues t i ds = true) :
    (s.thr (tidNat t)).st = .ready := by
  unfold State.issues State.canIssue at h
  simp only [Bool.and_eq_true, beq_iff_eq] at h
  exact h.1.1.1.1.1.1

/-- The slots that a thread has used do not matter to what it has reached. -/
theorem State.Reached.slots {s u : State} {k n : Nat} {th : Thread} (h : s.Reached u k { th with slots := n }) : s.Reached u k th := h

/-- The completion of an instruction that falls through: its effect led to x, near its thread, with context c and direct page dp. -/
theorem State.runsTo_next (s : State) (t : ThreadId) (i : Instr) (len : Nat) (ds : List Dest) (act : State → Eff) (x : State) (c : Ctx)
    (dp : SMap Word) (he : exec i s = done s (s.issue t i len ds none act))
    (ha : act (s.countIssue (tidNat t) len (s.nextWords (tidNat t)).1) = .next x) (hn : s.Near x (tidNat t))
    (hth : x.thr (tidNat t) = { s.thr (tidNat t) with bpSkip := false, slots := (s.thr (tidNat t)).slots + len, ctx := c, dp := dp })
    (hq : s.rb (Reg.CLU_PMU_SMP_CFG (tidNat t / 128)) 31 = false → s.Quiet x) :
    s.RunsTo t i ds (s.ran (tidNat t) (c.advance len) dp) := by
  intro h
  have hr := s.ready_of_issues t i ds h
  generalize hk : tidNat t = k at *
  let z : State := (x.updCtx k fun c => c.advance len).updThr k fun th =>
    { th with fetched := some (s.pmemAt k th.ctx.pc, s.pmemAt k (th.ctx.pc + 1)), stall := none }
  have hzt : z.thr k = { s.ran k (c.advance len) dp with slots := (s.thr k).slots + len } := by
    show ((x.updCtx k fun c => c.advance len).updThr k fun th =>
      { th with fetched := some (s.pmemAt k th.ctx.pc, s.pmemAt k (th.ctx.pc + 1)), stall := none }).thr k = _
    rw [State.thr_updThr, State.thr_updCtx, hth]
    rfl
  obtain ⟨g1, g2⟩ := State.end_spec s z k (z.cpx.cmds.any fun p => p.2.live && p.2.tid == k && p.2.smp) { s.ran k (c.advance len) dp with slots := (s.thr k).slots + len }
    ((hn.trans (x.updCtx_near k _)).trans (State.updThr_near _ k _)) hzt hr rfl fun hc => (hq hc).trans ⟨rfl, rfl, rfl⟩
  have hm : decide ((s.thr k).pend.length < (z.thr k).pend.length) = false := by
    rw [hzt]
    exact decide_eq_false (Nat.lt_irrefl _)
  refine ⟨_, ?_, g1, g2⟩
  rw [he, s.issue_of_issues t i len ds act h, hk, ha]
  unfold done
  have hf : State.finishInstr s k len (s.nextWords k).1 (.next x) =
      (State.noteSample s z k (decide ((s.thr k).pend.length < (z.thr k).pend.length))
        (z.cpx.cmds.any fun p => p.2.live && p.2.tid == k && p.2.smp)).stepHalt k := rfl
  rw [hm] at hf
  show Host.Outcome.next (s.closed (State.finishInstr s k len (s.nextWords k).1 (.next x))) = _
  rw [hf, State.closed_of_out]
  exact g2.2.1.2 .out (by decide)

/-- The completion of an instruction that sets PC itself. -/
theorem State.runsTo_jump (s : State) (t : ThreadId) (i : Instr) (len : Nat) (ds : List Dest) (act : State → Eff) (x : State) (c : Ctx)
    (dp : SMap Word) (he : exec i s = done s (s.issue t i len ds none act))
    (ha : act (s.countIssue (tidNat t) len (s.nextWords (tidNat t)).1) = .jump x) (hn : s.Near x (tidNat t))
    (hth : x.thr (tidNat t) = { s.thr (tidNat t) with bpSkip := false, slots := (s.thr (tidNat t)).slots + len, ctx := c, dp := dp })
    (hq : s.rb (Reg.CLU_PMU_SMP_CFG (tidNat t / 128)) 31 = false → s.Quiet x) :
    s.RunsTo t i ds (s.ran (tidNat t) c dp) := by
  intro h
  have hr := s.ready_of_issues t i ds h
  generalize hk : tidNat t = k at *
  let y : State := x.refetch k
  let z : State := y.pmuCore (k / 128) (k % 128 / 8) 0x04 (s.privAttr k) 1
  have hp : ∀ a, x.pmemAt k a = s.pmemAt k a := fun a => by
    have e := hn.same
    unfold State.pmemAt State.pmemW
    rw [show x.clu.pmem = s.clu.pmem by rw [e]]
  have hyt : y.thr k = { s.ran k c dp with slots := (s.thr k).slots + len } := by
    show (x.refetch k).thr k = _
    unfold State.refetch
    rw [State.thr_updThr, hth]
    unfold State.fetchWords
    rw [hp, hp, hth]
    rfl
  have hzt : z.thr k = { s.ran k c dp with slots := (s.thr k).slots + len } := by
    rw [← hyt]
    unfold State.thr
    rw [(y.pmuCore_regsOnly (k / 128) (k % 128 / 8) 0x04 (s.privAttr k) 1).fields.1]
  obtain ⟨g1, g2⟩ := State.end_spec s z k false { s.ran k c dp with slots := (s.thr k).slots + len }
    ((hn.trans (x.updThr_near k _)).trans (y.pmuCore_near k _ _ _)) hzt hr rfl fun hc =>
      ((hq hc).trans ⟨rfl, rfl, rfl⟩).trans (y.pmuCore_regsOnly _ _ _ _ _).quiet
  have hm : decide ((s.thr k).pend.length < (z.thr k).pend.length) = false := by
    rw [hzt]
    exact decide_eq_false (Nat.lt_irrefl _)
  refine ⟨_, ?_, g1, g2⟩
  rw [he, s.issue_of_issues t i len ds act h, hk, ha]
  unfold done
  have hf : State.finishInstr s k len (s.nextWords k).1 (.jump x) =
      (State.noteSample s z k (decide ((s.thr k).pend.length < (z.thr k).pend.length)) false).stepHalt k := rfl
  rw [hm] at hf
  show Host.Outcome.next (s.closed (State.finishInstr s k len (s.nextWords k).1 (.jump x))) = _
  rw [hf, State.closed_of_out]
  exact g2.2.1.2 .out (by decide)

/-! ## Operands seen after the issue has been counted -/

theorem State.countIssue_ctx (s : State) (k len : Nat) (iw : PWord) : ((s.countIssue k len iw).thr k).ctx = (s.thr k).ctx := by
  rw [s.countIssue_thr]

/-- A simple instruction whose effect is an update of its context: h as the instruction computes it after the issue has been counted, g as a
statement says it. -/
theorem State.runsTo_ctx (s : State) (t : ThreadId) (i : Instr) (len : Nat) (ds : List Dest) (f : State → State) (g h : Ctx → Ctx)
    (he : exec i s = s.simple t i len ds f)
    (hf : f (s.countIssue (tidNat t) len (s.nextWords (tidNat t)).1) =
      (s.countIssue (tidNat t) len (s.nextWords (tidNat t)).1).updCtx (tidNat t) h)
    (hg : h (s.thr (tidNat t)).ctx = g (s.thr (tidNat t)).ctx) :
    s.RunsTo t i ds (s.onCtx t len g) := by
  have hn := s.countIssue_near (tidNat t) len (s.nextWords (tidNat t)).1
  refine State.runsTo_next s t i len ds (fun x => .next (f x)) _ _ _ he (congrArg Eff.next hf) (hn.trans (State.updCtx_near _ _ _)) ?_ fun hc =>
    (s.countIssue_quiet _ _ _ hc).trans ⟨rfl, rfl, rfl⟩
  rw [State.thr_updCtx, State.countIssue_thr, ← hg]

/-- The end of an instruction that put one result beside the pipe. -/
theorem State.end_pend_spec (s z : State) (k : Nat) (w : Bool) (th : Thread) (p : PendResult) (hz : s.Near z k)
    (hth : z.thr k = { th with pend := th.pend ++ [{ p with smp := false }] }) (hst : th.st = .ready) (hstep : th.stepping = (s.thr k).stepping)
    (hq : s.rb (Reg.CLU_PMU_SMP_CFG (k / 128)) 31 = false → s.Quiet z) :
    ∃ b, s.Reached ((State.noteSample s z k true w).stepHalt k) k { th with pend := th.pend ++ [{ p with smp := b }] } ∧
      s.LeavesOthers ((State.noteSample s z k true w).stepHalt k) k ∧ (s.rb (Reg.CLU_PMU_SMP_CFG (k / 128)) 31 = false → b = false) := by
  have hn := hz.trans (State.noteSample_near s z k true w)
  have hy : ∃ b, (State.noteSample s z k true w).thr k = { th with pend := th.pend ++ [{ p with smp := b }] } ∧
      (s.rb (Reg.CLU_PMU_SMP_CFG (k / 128)) 31 = false → b = false) := by
    unfold State.noteSample
    by_cases h : (w || !s.sampledNow z k) = true
    · rw [if_pos h]
      exact ⟨false, hth, fun _ => rfl⟩
    · rw [if_neg h, if_pos rfl, State.thr_updThr, hth]
      refine ⟨true, by simp, fun hc => ?_⟩
      have e := State.noteSample_off s z k true w (hq hc).2.2
      exfalso
      apply h
      have : s.sampledNow z k = false := by
        unfold State.sampledNow State.sampler
        rw [(hq hc).2.2]
        generalize SMap.gd ({} : Sampler) s.dbg.samplers (k / 128) = m
        cases m.out <;> rfl
      simp [this]
  obtain ⟨b, ht, hb⟩ := hy
  have hqq : s.rb (Reg.CLU_PMU_SMP_CFG (k / 128)) 31 = false → s.Quiet (State.noteSample s z k true w) := fun h => by
    rw [State.noteSample_off s z k true w (hq h).2.2]
    exact hq h
  refine ⟨b, ?_⟩
  generalize State.noteSample s z k true w = y at *
  have e1 : (y.thr k).stepping = (s.thr k).stepping := by rw [ht]; exact hstep
  have e2 : (y.thr k).st = .ready := by rw [ht]; exact hst
  cases hs : (s.thr k).stepping with
  | false =>
    have e : y.stepHalt k = y := by
      unfold State.stepHalt
      rw [e1, hs]
      rfl
    rw [e]
    exact ⟨⟨fun _ => by rw [ht], fun h => absurd h (by rw [hs]; decide)⟩, hn.leaves hqq, hb⟩
  | true =>
    have e : y.stepHalt k = y.haltThread k 3 0 := by
      unfold State.stepHalt
      rw [e1, hs, e2]
      rfl
    rw [e]
    obtain ⟨g, g1, g2, g3, g4, g5⟩ := y.haltThread_spec k 3 0
    rw [ht] at g1 g2 g3
    exact ⟨⟨fun h => absurd h (by rw [hs]; decide), fun _ => ⟨g1, g2, g3, g4, g5.trans e2⟩⟩, hn.halts g hs hqq, hb⟩

/-- The completion of an instruction that falls through with a result beside the pipe. -/
theorem State.runsTo_pend (s : State) (t : ThreadId) (i : Instr) (len : Nat) (ds : List Dest) (act : State → Eff) (x : State) (c : Ctx)
    (dp : SMap Word) (p : PendResult) (he : exec i s = done s (s.issue t i len ds none act))
    (ha : act (s.countIssue (tidNat t) len (s.nextWords (tidNat t)).1) = .next x) (hn : s.Near x (tidNat t)) (hp : p.smp = false)
    (hth : x.thr (tidNat t) = { s.thr (tidNat t) with
      bpSkip := false, slots := (s.thr (tidNat t)).slots + len, ctx := c, dp := dp, pend := (s.thr (tidNat t)).pend ++ [p] })
    (hq : s.rb (Reg.CLU_PMU_SMP_CFG (tidNat t / 128)) 31 = false → s.Quiet x) :
    s.RunsToPend t i ds (s.ran (tidNat t) (c.advance len) dp) p := by
  intro h
  have hr := s.ready_of_issues t i ds h
  generalize hk : tidNat t = k at *
  let z : State := (x.updCtx k fun c => c.advance len).updThr k fun th =>
    { th with fetched := some (s.pmemAt k th.ctx.pc, s.pmemAt k (th.ctx.pc + 1)), stall := none }
  have hpp : ({ p with smp := false } : PendResult) = p := by rw [← hp]
  have hzt : z.thr k = { ({ s.ran k (c.advance len) dp with slots := (s.thr k).slots + len } : Thread) with
      pend := (s.ran k (c.advance len) dp).pend ++ [{ p with smp := false }] } := by
    show ((x.updCtx k fun c => c.advance len).updThr k fun th =>
      { th with fetched := some (s.pmemAt k th.ctx.pc, s.pmemAt k (th.ctx.pc + 1)), stall := none }).thr k = _
    rw [State.thr_updThr, State.thr_updCtx, hth, hpp]
    rfl
  obtain ⟨b, g1, g2, g3⟩ := State.end_pend_spec s z k (z.cpx.cmds.any fun p => p.2.live && p.2.tid == k && p.2.smp)
    { s.ran k (c.advance len) dp with slots := (s.thr k).slots + len } p
    ((hn.trans (x.updCtx_near k _)).trans (State.updThr_near _ k _)) hzt hr rfl fun hc => (hq hc).trans ⟨rfl, rfl, rfl⟩
  have hm : decide ((s.thr k).pend.length < (z.thr k).pend.length) = true := by
    rw [hzt]
    have : (s.ran k (c.advance len) dp).pend = (s.thr k).pend := rfl
    simp [this]
  refine ⟨_, b, ?_, g1, g2, g3⟩
  rw [he, s.issue_of_issues t i len ds act h, hk, ha]
  unfold done
  have hf : State.finishInstr s k len (s.nextWords k).1 (.next x) =
      (State.noteSample s z k (decide ((s.thr k).pend.length < (z.thr k).pend.length))
        (z.cpx.cmds.any fun p => p.2.live && p.2.tid == k && p.2.smp)).stepHalt k := rfl
  rw [hm] at hf
  show Host.Outcome.next (s.closed (State.finishInstr s k len (s.nextWords k).1 (.next x))) = _
  rw [hf, State.closed_of_out]
  exact g2.2.1.2 .out (by decide)

/-! ## What follows an instruction, whatever its effect -/

/-- What every step after an effect keeps of x. -/
structure State.After (x u : State) (k : Nat) : Prop where
  ctx : (u.thr k).ctx = (x.thr k).ctx
  dp : (u.thr k).dp = (x.thr k).dp
  pend : (u.thr k).pend.map (fun p => { p with smp := false }) = (x.thr k).pend.map (fun p => { p with smp := false })
  keep : u.thr k = { x.thr k with fetched := (u.thr k).fetched, stall := (u.thr k).stall, pend := (u.thr k).pend }
  near : x.Near u k

theorem State.After.refl (x : State) (k : Nat) : x.After x k := ⟨rfl, rfl, rfl, rfl, State.Near.refl x k⟩

theorem State.After.trans {x y u : State} {k : Nat} (h : x.After y k) (h2 : y.After u k) : x.After u k :=
  ⟨h2.ctx.trans h.ctx, h2.dp.trans h.dp, h2.pend.trans h.pend, h2.keep.trans (by rw [h.keep]), h.near.trans h2.near⟩

theorem State.After.of_thr {x u : State} {k : Nat} (h : u.thr k = x.thr k) (hn : x.Near u k) : x.After u k :=
  ⟨by rw [h], by rw [h], by rw [h], by rw [h], hn⟩

theorem State.fetched_after (x : State) (k : Nat) (f : Thread → Option (PWord × PWord)) :
    x.After (x.updThr k fun th => { th with fetched := f th, stall := none }) k := by
  refine ⟨?_, ?_, ?_, ?_, x.updThr_near k _⟩ <;> rw [State.thr_updThr]

theorem State.pmuCore_after (x : State) (k ev : Nat) (a : PmuAttr) (n : Nat) : x.After (x.pmuCore (k / 128) (k % 128 / 8) ev a n) k :=
  State.After.of_thr (by unfold State.thr; rw [(x.pmuCore_regsOnly _ _ ev a n).fields.1]) (x.pmuCore_near k ev a n)

theorem map_smp_dropLast (l : List PendResult) :
    (l.dropLast ++ (l.getLast?.toList.map fun p : PendResult => { p with smp := true })).map (fun p : PendResult => { p with smp := false }) =
      l.map (fun p => ({ p with smp := false } : PendResult)) := by
  cases h : l.getLast? with
  | none => simp [List.getLast?_eq_none_iff.1 h]
  | some p =>
    have e : l = l.dropLast ++ [p] := by
      obtain ⟨l', rfl⟩ := List.getLast?_eq_some_iff.1 h
      simp
    conv => rhs; rw [e]
    simp

theorem State.noteSample_after (s0 x : State) (k : Nat) (p w : Bool) : x.After (State.noteSample s0 x k p w) k := by
  unfold State.noteSample
  split
  · exact State.After.refl x k
  · split
    · refine ⟨?_, ?_, ?_, ?_, x.updThr_near k _⟩ <;> rw [State.thr_updThr]
      exact map_smp_dropLast _
    · exact State.After.of_thr (x.retireSample_thr k k) (x.retireSample_near k)

/-- What a state that follows x, with the halt of a thread that steps, leaves of it. -/
theorem State.After.ends {x y : State} {k : Nat} (h : x.After y k) : x.EndsAs (y.stepHalt k) k := by
  have e := h.near.same
  have plain : x.EndsAs y k := by
    refine ⟨h.ctx, h.dp, h.pend, h.near.other, ⟨by rw [e], fun a ha => ?_⟩, h.near.stay, by rw [e]; exact ⟨rfl, rfl, rfl, rfl, rfl⟩,
      fun _ => ⟨by rw [e], h.keep⟩⟩
    rw [e]
    cases a <;> first | rfl | (exact absurd (by decide) ha)
  unfold State.stepHalt
  split
  · next hs =>
    obtain ⟨g, g1, g2, g3, g4, g5⟩ := y.haltThread_spec k 3 0
    generalize y.haltThread k 3 0 = u at *
    have e2 := g.same
    rw [e] at e2
    refine ⟨g1.trans h.ctx, g2.trans h.dp, ?_, fun j hj => (g.other j hj).trans (h.near.other j hj), ⟨by rw [e2], fun a ha => ?_⟩,
      fun a ha => (g.stay a ha).trans (h.near.stay a ha), by rw [e2]; exact ⟨rfl, rfl, rfl, rfl, rfl⟩, fun hn => ?_⟩
    · rw [g3]
      exact h.pend
    · rw [e2]
      cases a <;> first | rfl | (exact absurd (by decide) ha)
    · exfalso
      have : (y.thr k).stepping = (x.thr k).stepping := by rw [h.keep]
      rw [this, hn] at hs
      simp at hs
  · exact plain

/-- What an instruction sent changes no more than the messages. -/
theorem State.EndsAs.closed {x u : State} {k : Nat} (s : State) (h : x.EndsAs u k) : x.EndsAs (s.closed u) k := by
  obtain ⟨h1, h2, h3, h4, ⟨h5, h6⟩, h7, h8, h9⟩ := h
  refine ⟨h1, h2, h3, h4, ⟨h5, fun a ha => ?_⟩, h7, h8, h9⟩
  cases a <;> first | exact h6 _ ha | (exact absurd (by decide) ha)

theorem State.finish_next_ends (s x : State) (k len : Nat) (iw : PWord) :
    (x.updCtx k fun c => c.advance len).EndsAs (State.finishInstr s k len iw (.next x)) k := by
  unfold State.finishInstr
  exact ((State.fetched_after _ k _).trans (State.noteSample_after s _ k _ _)).ends

theorem State.finish_jump_ends (s x : State) (k len : Nat) (iw : PWord) : x.EndsAs (State.finishInstr s k len iw (.jump x)) k := by
  unfold State.finishInstr
  exact (((State.fetched_after x k _).trans (State.pmuCore_after _ k _ _ _)).trans (State.noteSample_after s _ k _ _)).ends

theorem State.finish_gone_ends (s x : State) (k len : Nat) (iw : PWord) : x.EndsAs (State.finishInstr s k len iw (.gone x)) k := by
  unfold State.finishInstr
  exact (State.noteSample_after s x k _ _).ends

/-- The answer of an instruction that issues and whose effect is known. -/
theorem State.exec_of_issues (s : State) (t : ThreadId) (i : Instr) (len : Nat) (ds : List Dest) (act : State → Eff) (e : Eff)
    (he : exec i s = done s (s.issue t i len ds none act)) (ha : act (s.counted t len) = e) (h : s.issues t i ds = true) :
    exec i s = .next (s.closed (State.finishInstr s (tidNat t) len (s.nextWords (tidNat t)).1 e)) := by
  rw [he, s.issue_of_issues t i len ds act h]
  rw [State.counted] at ha
  rw [ha]
  cases e <;> rfl

theorem State.runsAs_next (s : State) (t : ThreadId) (i : Instr) (len : Nat) (ds : List Dest) (act : State → Eff) (x : State)
    (he : exec i s = done s (s.issue t i len ds none act)) (ha : act (s.counted t len) = .next x) :
    s.RunsAs t i ds (x.fellThrough t len) :=
  fun h => ⟨_, s.exec_of_issues t i len ds act _ he ha h, (State.finish_next_ends ..).closed s⟩

theorem State.runsAs_jump (s : State) (t : ThreadId) (i : Instr) (len : Nat) (ds : List Dest) (act : State → Eff) (x : State)
    (he : exec i s = done s (s.issue t i len ds none act)) (ha : act (s.counted t len) = .jump x) : s.RunsAs t i ds x :=
  fun h => ⟨_, s.exec_of_issues t i len ds act _ he ha h, (State.finish_jump_ends ..).closed s⟩

theorem State.runsAs_gone (s : State) (t : ThreadId) (i : Instr) (len : Nat) (ds : List Dest) (act : State → Eff) (x : State)
    (he : exec i s = done s (s.issue t i len ds none act)) (ha : act (s.counted t len) = .gone x) : s.RunsAs t i ds x :=
  fun h => ⟨_, s.exec_of_issues t i len ds act _ he ha h, (State.finish_gone_ends ..).closed s⟩

theorem State.runs_wait (s : State) (t : ThreadId) (i : Instr) (len : Nat) (ds : List Dest) (act : State → Eff) (x : State)
    (he : exec i s = done s (s.issue t i len ds none act)) (ha : act (s.counted t len) = .wait x) (h : s.issues t i ds = true) :
    exec i s = .next (s.closed (State.finishInstr s (tidNat t) len (s.nextWords (tidNat t)).1 (.wait x))) :=
  s.exec_of_issues t i len ds act _ he ha h

end Sys2Proof.Machine
end

