-- ==== Sys2Proof/Laws/Blocks.lean ====
section
/-!
SUPPORT. What the named reads of the blocks give after their writes: the opportunities of a segment, the FIFO of a ring, a slot of the MAC table with
its retained copy, a cell read by a thread, and the held words and the stall of a thread.
-/

namespace Sys2Proof.Machine

/-! ## Segments, rings, MAC table -/

@[simp] theorem State.plca_setPlca (s : State) (g : Nat) (x : PlcaState) : (s.setPlca g x).plca g = x := SMap.gd_sd_same _ _ _ _
theorem State.plca_setPlca_ne (s : State) (g j : Nat) (x : PlcaState) (h : j ≠ g) : (s.setPlca g x).plca j = s.plca j := SMap.gd_sd_ne _ _ _ _ _ h
@[simp] theorem State.reg_setPlca (s : State) (g a : Nat) (x : PlcaState) : (s.setPlca g x).reg a = s.reg a := rfl
@[simp] theorem State.setPlca_regs (s : State) (g : Nat) (x : PlcaState) : (s.setPlca g x).regs = s.regs := rfl
@[simp] theorem State.setPlca_up (s : State) (g : Nat) (x : PlcaState) : (s.setPlca g x).up = s.up := rfl
@[simp] theorem State.setPlca_out (s : State) (g : Nat) (x : PlcaState) : (s.setPlca g x).out = s.out := rfl
@[simp] theorem State.setPlca_frames (s : State) (g : Nat) (x : PlcaState) : (s.setPlca g x).pkt.frames = s.pkt.frames := rfl

@[simp] theorem State.ringFifo_setRingFifo (s : State) (r : Ring) (q : List (List Byte)) : (s.setRingFifo r q).ringFifo r = q :=
  SMap.gd_sd_same _ _ _ _
theorem State.ringFifo_setRingFifo_ne (s : State) (r r2 : Ring) (q : List (List Byte)) (h : r2.key ≠ r.key) :
    (s.setRingFifo r q).ringFifo r2 = s.ringFifo r2 := SMap.gd_sd_ne _ _ _ _ _ h
@[simp] theorem State.reg_setRingFifo (s : State) (r : Ring) (a : Nat) (q : List (List Byte)) : (s.setRingFifo r q).reg a = s.reg a := rfl
@[simp] theorem State.setRingFifo_mem (s : State) (r : Ring) (q : List (List Byte)) : (s.setRingFifo r q).ddr.mem = s.ddr.mem := rfl
@[simp] theorem State.setRingFifo_up (s : State) (r : Ring) (q : List (List Byte)) : (s.setRingFifo r q).up = s.up := rfl
@[simp] theorem State.setRingFifo_out (s : State) (r : Ring) (q : List (List Byte)) : (s.setRingFifo r q).out = s.out := rfl

@[simp] theorem State.mac_putMac (s : State) (k : Nat) (m : MacSlot) : (s.putMac k m).mac k = m := SMap.gd_sd_same _ _ _ _
theorem State.mac_putMac_ne (s : State) (k j : Nat) (m : MacSlot) (h : j ≠ k) : (s.putMac k m).mac j = s.mac j := SMap.gd_sd_ne _ _ _ _ _ h

/-- The retained copy holds a valid static entry, and nothing else, of a slot that is written (R352). -/
@[simp] theorem State.retMac_putMac (s : State) (k : Nat) (m : MacSlot) :
    (s.putMac k m).cfg.retMac.gd {} k = if m.valid && m.static_ then m else {} := SMap.gd_sd_same _ _ _ _
@[simp] theorem State.reg_putMac (s : State) (k a : Nat) (m : MacSlot) : (s.putMac k m).reg a = s.reg a := rfl

/-! ## Cells -/

/-- The correction of a cell read writes no cell. -/
@[simp] theorem State.fixCell_cells (s : State) (k : Nat) : (s.fixCell k).spe.cells = s.spe.cells := by
  unfold State.fixCell; split <;> rfl

theorem State.fixCell_of_clean (s : State) (k : Nat) (h : s.spe.flip.gd false k = false) : s.fixCell k = s := by
  simp [State.fixCell, h]

/-- What a thread sees of a cell: zero with an uncorrectable error, what it was while a retraction is under way, else its word (R110, R139). -/
theorem State.cellSeen_cases (s : State) (n : Nat) :
    (s.spe.ecc.gd false n = true ∧ s.cellSeen n = 0) ∨
    (s.spe.ecc.gd false n = false ∧ s.up < (s.cellInfo n).wasUntil ∧ s.cellSeen n = (s.cellInfo n).was) ∨
    (s.spe.ecc.gd false n = false ∧ (s.cellInfo n).wasUntil ≤ s.up ∧ s.cellSeen n = s.cell n) := by
  unfold State.cellSeen
  cases h : s.spe.ecc.gd false n
  · by_cases h2 : s.up < (s.cellInfo n).wasUntil
    · exact .inr (.inl ⟨rfl, h2, by simp [h2]⟩)
    · exact .inr (.inr ⟨rfl, by omega, by simp [h2]⟩)
  · exact .inl ⟨rfl, by simp⟩

/-! ## Threads -/

@[simp] theorem State.thr_refetch (s : State) (k : Nat) :
    (s.refetch k).thr k = { s.thr k with fetched := some (s.fetchWords k), stall := none } := State.thr_updThr ..
theorem State.thr_refetch_ne (s : State) (k j : Nat) (h : j ≠ k) : (s.refetch k).thr j = s.thr j := State.thr_updThr_ne _ _ _ _ h
@[simp] theorem State.refetch_regs (s : State) (k : Nat) : (s.refetch k).regs = s.regs := rfl

/-- Fetching the next words of a thread leaves its context (R218). -/
theorem State.refetch_ctx (s : State) (k : Nat) : ((s.refetch k).thr k).ctx = (s.thr k).ctx := by simp

end Sys2Proof.Machine
end

