-- ==== Sys2Proof/Laws/Regs.lean ====
section
/-!
SUPPORT. Registers, their fields and bits after a write; what raising an event leaves of them.
-/

namespace Sys2Proof.Machine

/-! ## Fields and bits after a write -/

theorem State.reg_setRf_same (s : State) (a hi lo v : Nat) : (s.setRf a hi lo v).reg a = putFld (s.reg a) hi lo v := State.reg_setReg_same ..
theorem State.reg_setRb_same (s : State) (a i : Nat) (b : Bool) : (s.setRb a i b).reg a = putBit (s.reg a) i b := State.reg_setReg_same ..
theorem State.reg_add_same (s : State) (a n : Nat) : (s.add a n).reg a = s.reg a + BitVec.ofNat 32 n := State.reg_setReg_same ..
theorem State.reg_inc_same (s : State) (a : Nat) : (s.inc a).reg a = s.reg a + 1 := State.reg_setReg_same ..

theorem State.reg_setRf_ne (s : State) (a hi lo v b : Nat) (h : regKey b ≠ regKey a) : (s.setRf a hi lo v).reg b = s.reg b := State.reg_setReg_ne _ _ _ _ h
theorem State.reg_setRb_ne (s : State) (a i : Nat) (v : Bool) (b : Nat) (h : regKey b ≠ regKey a) : (s.setRb a i v).reg b = s.reg b :=
  State.reg_setReg_ne _ _ _ _ h
theorem State.reg_add_ne (s : State) (a n b : Nat) (h : regKey b ≠ regKey a) : (s.add a n).reg b = s.reg b := State.reg_setReg_ne _ _ _ _ h
theorem State.reg_inc_ne (s : State) (a b : Nat) (h : regKey b ≠ regKey a) : (s.inc a).reg b = s.reg b := State.reg_setReg_ne _ _ _ _ h

/-- A bit of a register after a bit of it has been set. -/
theorem State.rb_setRb_same (s : State) (a i j : Nat) (b : Bool) (hi : i < 32) : (s.setRb a i b).rb a j = if j = i then b else s.rb a j := by
  rw [State.rb, State.reg_setRb_same, tbit_putBit _ _ _ _ hi, State.rb]

/-- A bit of a register outside a field of it that has been set. -/
theorem State.rb_setRf_same (s : State) (a hi lo v j : Nat) (h : lo ≤ hi + 1) (hd : j < lo ∨ hi < j) : (s.setRf a hi lo v).rb a j = s.rb a j := by
  rw [State.rb, State.reg_setRf_same, tbit_putFld_ne _ _ _ _ _ h hd, State.rb]

/-- The field of a register that has been set. -/
theorem State.rf_setRf_same (s : State) (a hi lo v : Nat) (hn : hi < 32) (h : lo ≤ hi) : (s.setRf a hi lo v).rf a hi lo = v % 2 ^ (hi + 1 - lo) := by
  rw [State.rf, State.reg_setRf_same, fld_putFld_same _ _ _ _ hn h]

/-- A field of a register beside one of it that has been set. -/
theorem State.rf_setRf_beside (s : State) (a hi lo v x y : Nat) (h : lo ≤ hi + 1) (hd : x < lo ∨ hi < y) : (s.setRf a hi lo v).rf a x y = s.rf a x y := by
  rw [State.rf, State.reg_setRf_same, fld_putFld_ne _ _ _ _ _ _ h hd, State.rf]

/-- A field of a register that does not hold the bit of it that has been set. -/
theorem State.rf_setRb_beside (s : State) (a i x y : Nat) (b : Bool) (hd : x < i ∨ i < y) : (s.setRb a i b).rf a x y = s.rf a x y := by
  rw [State.rf, State.reg_setRb_same, fld_putBit_ne _ _ _ _ _ hd, State.rf]

/-! ## Raising an event -/

theorem State.RegsStay.refl (s : State) (l : List Nat) : s.RegsStay s l := fun _ _ => rfl

theorem State.RegsStay.trans {s t u : State} {l : List Nat} (h : s.RegsStay t l) (h2 : t.RegsStay u l) : s.RegsStay u l :=
  fun a ha => (h2 a ha).trans (h a ha)

theorem State.RegsStay.mono {s t : State} {l m : List Nat} (h : s.RegsStay t l) (hm : l ⊆ m) : s.RegsStay t m :=
  fun a ha => h a fun hx => ha (List.map_subset _ hm hx)

theorem State.RegsStay.ite {s t u : State} {l : List Nat} {c : Prop} [Decidable c] (h : s.RegsStay t l) (h2 : s.RegsStay u l) :
    s.RegsStay (if c then t else u) l := by
  split <;> assumption

theorem State.setReg_stays (s : State) (a : Nat) (v : Word) (l : List Nat) (h : a ∈ l) : s.RegsStay (s.setReg a v) l :=
  fun _ hb => State.reg_setReg_ne _ _ _ _ fun e => hb (e ▸ List.mem_map_of_mem h)

theorem State.stays_of_regs {s t : State} (h : t.regs = s.regs) (l : List Nat) : s.RegsStay t l := fun a _ => by
  show t.regs.get regReset (regKey a) = s.regs.get regReset (regKey a)
  rw [h]

theorem msixLost_mem : Reg.EVT_MSIX_LOST ∈ eventRegs := List.mem_append_right _ (by decide)
theorem evtLost_mem : Reg.PAI_EVT_LOST ∈ eventRegs := List.mem_append_right _ (by decide)

theorem cluPend_mem (c w : Nat) (hc : c < 6) (hw : w < 10) : Reg.CLU_EVT_PEND c w ∈ eventRegs :=
  List.mem_append_left _ (List.mem_append_left _
    (List.mem_flatMap.2 ⟨c, List.mem_range.2 hc, List.mem_map.2 ⟨w, List.mem_range.2 hw, rfl⟩⟩))

theorem alarmPend_mem (w : Nat) (hw : w < 10) : Reg.EVT_ALARM_PEND w ∈ eventRegs :=
  List.mem_append_left _ (List.mem_append_right _ (List.mem_map.2 ⟨w, List.mem_range.2 hw, rfl⟩))

theorem State.sendMsix_stays (s : State) (l p v : Nat) : s.RegsStay (s.sendMsix l p v) eventRegs := by
  unfold State.sendMsix
  split
  · split <;> exact State.stays_of_regs rfl _
  · exact s.setReg_stays _ _ _ msixLost_mem

theorem State.deliverMsix_stays (s : State) (e : Nat) : s.RegsStay (s.deliverMsix e) eventRegs := by
  unfold State.deliverMsix
  split
  · exact s.sendMsix_stays _ _ _
  · exact .refl _ _

theorem State.deliverSup_stays (s : State) (e : Nat) (he : e / 32 < 10) : s.RegsStay (s.deliverSup e) eventRegs := by
  unfold State.deliverSup
  split
  · rename_i h
    simp only [Bool.and_eq_true, decide_eq_true_eq] at h
    exact s.setReg_stays _ _ _ (cluPend_mem _ _ h.2 he)
  · exact .refl _ _

theorem State.deliverPair_stays (s : State) (e : Nat) : s.RegsStay (s.deliverPair e) eventRegs := by
  unfold State.deliverPair
  split
  · split
    · exact State.stays_of_regs rfl _
    · exact s.setReg_stays _ _ _ evtLost_mem
  · exact .refl _ _

theorem State.deliverAlarm_stays (s : State) (e : Nat) (he : e / 32 < 10) : s.RegsStay (s.deliverAlarm e) eventRegs := by
  unfold State.deliverAlarm
  split
  · exact s.setReg_stays _ _ _ (alarmPend_mem _ he)
  · exact .refl _ _

/-- Raising an event writes only the words of pending events and the counts of lost ones (R421). -/
theorem State.deliver_stays (s : State) (e : Nat) : s.RegsStay (s.deliver e) eventRegs := by
  unfold State.deliver
  by_cases hr : evReserved e = true
  · rw [if_pos hr]; exact .refl _ _
  · rw [if_neg hr]
    have he : e / 32 < 10 := by
      have : ¬320 ≤ e := fun h => hr (by simp [evReserved, h])
      omega
    exact (((s.deliverMsix_stays e).trans (State.deliverSup_stays _ e he)).trans (State.deliverPair_stays _ e)).trans (State.deliverAlarm_stays _ e he)

/-- A new event of an SQC register writes that register beside those of the event (R8). -/
theorem State.sqc_stays (s : State) (off bit e : Nat) : s.RegsStay (s.sqc off bit e) (off :: eventRegs) := by
  unfold State.sqc
  split
  · exact s.setReg_stays _ _ _ (by simp)
  · exact (((s.setReg_stays _ _ _ (by simp)).trans (State.setReg_stays _ _ _ _ (by simp))).trans
      ((State.deliver_stays _ e).mono (List.subset_cons_self _ _)))

/-- The bits of an SQC register after a new event: its own bit is set, the others below SEQ stay (R8). -/
theorem State.sqc_rb (s : State) (off bit e j : Nat) (hb : bit < 24) (hj : j < 24) (ho : regKey off ∉ eventRegs.map regKey) :
    (s.sqc off bit e).rb off j = (s.rb off j || decide (j = bit)) := by
  unfold State.sqc
  split
  · rename_i h
    rw [State.rb_setRf_same _ _ _ _ _ _ (by omega) (.inl hj)]
    by_cases e : j = bit
    · subst e; simp [h]
    · simp [e]
  · rename_i h
    rw [State.rb, State.deliver_stays _ e off ho, ← State.rb, State.rb_setRf_same _ _ _ _ _ _ (by omega) (.inl hj),
      State.rb_setRb_same _ _ _ _ _ (by omega)]
    by_cases e : j = bit
    · simp [e]
    · simp [e]

end Sys2Proof.Machine
end

