-- ==== Sys2Proof/Tests/Slice0.lean ====
section
/-!
SUPPORT. Tests of the model: one ill-formed command for each check of WellFormed, words written out from the encoding tables, worked examples of the
spec, and for each statement with hypotheses a state and operands that meet them.
-/

namespace Sys2Proof.Tests

set_option Elab.async false

open Sys2Proof.Machine

/-! ## Helpers -/

/-- Thread 1 of core 0 of cluster 0. -/
def t0 : ThreadId := ⟨0, 0, 1⟩

/-- The supervisor of cluster 0. -/
def sup0 : ThreadId := ⟨0, 0, 0⟩

/-- s with registers written. -/
def put (s : State) (l : List (Nat × Word)) : State := l.foldl (fun x p => x.setReg p.1 p.2) s

/-- A state whose registers are at reset but for those listed. -/
def regs (l : List (Nat × Word)) : State := put State.reset l

/-- Thread k of s READY with instruction i fetched; region 0 of tile 0 is 0x0000-0x00FF. -/
def fetches (s : State) (k : Nat) (i : Instr) : State :=
  (s.setReg (Reg.CLU_PMEM_RGN 0 0 0) 0x00FF0000#32).updThr k fun x =>
    { x with st := .ready, fetched := (rosEncode i).map fun w => (BitVec.ofNat 14 w.1, BitVec.ofNat 14 w.2) }

/-- Whether i issues on thread t0 of s once fetched. -/
def okOn (s : State) (p : Instr × List Dest) : Bool := (fetches s 1 p.1).issues t0 p.1 p.2

/-- The state that a command answers. -/
def next (c : Instr) (s : State) : State := after (exec c s) s

/-- The base state of thread t0: CPX enabled at U, tile 0 of partition 0. -/
def base : State := regs [(Reg.CPX_CFG 0, 1#32)]

/-- A session of role r (0 ADMIN, 1 OWNER, 2 OBSERVER) of credential slot 3. -/
def sess (r : Nat) : Session := { sid := 1, slot := 3, role := r, ver := 1, key := [] }

/-- The base state with a session of role r on management port 2. -/
def withSess (r : Nat) : State := base.updMport 2 fun q => { q with sess := some (sess r) }

/-- Who speaks on management port 2. -/
def m2 : Accessor := .session 2

/-- A state with an ADMIN session, and one with an OBSERVER session. -/
def adm : State := withSess 0
def obs : State := withSess 2

/-- The state at another time since reset and another device time. -/
def upAt (s : State) (t : Nat) : State := { s with up := t, time := t }

/-- The base state at level K. -/
def baseK : State := base.updThr 1 fun x => { x with priv := .k }

/-! ## Well-formed commands: for each check an ill-formed command, which it refuses, and a well-formed one at the boundary -/

theorem wf_register_offsets : (Instr.registerWrite .jtag 4 0).wf = true ∧ (Instr.registerWrite .jtag 6 0).wf = false ∧
    (Instr.wideRegisterLowRead .jtag 0x3008).wf = true ∧ (Instr.wideRegisterLowRead .jtag 0x3009).wf = false ∧
    (Instr.jtagDbgacc true 0x1D000 0).wf = true ∧ (Instr.jtagDbgacc false 0x1D003 0).wf = false := by decide +kernel

theorem wf_irig : (Instr.irigFrameRx ⟨0, 0⟩ ⟨true, 0, 0, 0, 366, 0, -840⟩).wf = true ∧ (Instr.irigFrameRx ⟨0, 0⟩ ⟨true, 0, 0, 0, 367, 0, 0⟩).wf = false ∧
    (Instr.irigFrameRx ⟨0, 0⟩ ⟨true, 0, 0, 0, 0, 0, 0⟩).wf = false ∧ (Instr.irigFrameRx ⟨0, 0⟩ ⟨true, 0, 0, 0, 1, 0, 841⟩).wf = false := by decide +kernel

theorem wf_ports : (Instr.frameHeadRx ⟨19, 0⟩ false).wf = true ∧ (Instr.frameHeadRx ⟨20, 0⟩ false).wf = false ∧ (Instr.mgtUnitRx 1 0 true [0, 0, 0, 0]).wf = false ∧
    (Instr.mgtUnitRx 4 0 true [0, 0, 0, 0]).wf = true ∧ (Instr.mgtUnitRx 4 0 true [0, 0, 0]).wf = false ∧
    (Instr.mgtUnitRx 5 0 true [0, 0, 0, 0]).wf = false ∧ (Instr.mgtUnitRx 3 0 true (List.replicate 256 0)).wf = false ∧
    (Instr.pairMgtRx ⟨true, [0, 0, 0]⟩).wf = false ∧ (Instr.pairMgtRx ⟨true, [0, 0, 0, 0]⟩).wf = true := by decide +kernel

theorem wf_frame_lengths : (Instr.parseWalk 0 (List.replicate 16384 0)).wf = true ∧ (Instr.parseWalk 0 (List.replicate 16385 0)).wf = false ∧
    (Instr.packetByteArrival 0 (List.replicate 16385 0)).wf = false ∧ (Instr.frameTailRx 0 (List.replicate 16385 0) ⟨true, 0, 0⟩ false none).wf = false ∧
    (Instr.dmaInject 0 ⟨0, 0⟩ (List.replicate 16385 0) none).wf = false ∧
    (Instr.pairFrameRx ⟨true, 0⟩ 0 (List.replicate 16385 0) none).wf = false := by decide +kernel

theorem wf_security_fields : (Instr.frameTailRx 0 [] ⟨true, 0, 0⟩ false (some ⟨1, 0, List.replicate 12 0, List.replicate 32 0⟩)).wf = true ∧
    (Instr.frameTailRx 0 [] ⟨true, 0, 0⟩ false (some ⟨1, 0, List.replicate 11 0, []⟩)).wf = false ∧
    (Instr.pairFrameRx ⟨true, 0⟩ 0 [] (some ⟨1, 0, List.replicate 12 0, List.replicate 33 0⟩)).wf = false ∧
    (Instr.dmaInject 0 ⟨0, 0⟩ [] (some ⟨1, 0, [], []⟩)).wf = false := by decide +kernel

theorem wf_pair : (Instr.pairEvtRx ⟨true, 319⟩).wf = true ∧ (Instr.pairEvtRx ⟨false, 320⟩).wf = false ∧
    (Instr.heartbeatRx ⟨true, ⟨0, 0, 0, 0, 0, 0, 0, List.replicate 16 0, []⟩, 0⟩).wf = true ∧
    (Instr.heartbeatRx ⟨true, ⟨0, 0, 0, 0, 0, 0, 0, List.replicate 17 0, []⟩, 0⟩).wf = false := by decide +kernel

theorem wf_management : (Instr.mgtDoorbell 0 []).wf = true ∧ (Instr.request 0 7 0 0).wf = true ∧ (Instr.request 0 8 0 0).wf = false ∧
    (Instr.drainTimeout 0).wf = false ∧ (Instr.drainTimeout 15).wf = true ∧ (Instr.drainComplete 0).wf = false ∧
    (Instr.drainComplete 1).wf = true := by decide +kernel

theorem wf_long_management_frame : (Instr.mgtDoorbell 0 (List.replicate 65569 0)).wf = false := by
  show (true && decide ((List.replicate 65569 (0 : Byte)).length ≤ maxMgtFrame)) = false
  rw [List.length_replicate]
  decide

theorem wf_instruction_fields : (Instr.shf t0 0 39).wf = true ∧ (Instr.shf t0 0 40).wf = false ∧ (Instr.ccmpr t0 0 0 0 5).wf = true ∧
    (Instr.ccmpr t0 0 0 0 6).wf = false ∧ (Instr.ccmpi t0 0 0 0 31).wf = false ∧ (Instr.ccmpm t0 0 0 0 6).wf = false ∧
    (Instr.cfsq t0 5 5).wf = true ∧ (Instr.cfsq t0 6 0).wf = false ∧ (Instr.cfsq t0 0 6).wf = false := by decide +kernel

/-! ## Words written out from the encoding tables (R230, R239, R251) -/

/-- D: OP 9 (XOR), DA 0x1FF. X: XOP 7 (STB), IX1, P, D6 = -1; XOP 0 (LDW), IX0, no P, D6 = 5. -/
theorem decode_d_and_x : rosDecode t0 0b01001111111111 0 0 = some (.xorDp t0 0x1FF) ∧ rosDecode t0 0b10011111111111 0 0 = some (.stb t0 1 true 63) ∧
    rosDecode t0 0b10000000000101 0 0 = some (.ldw t0 0 false 5) ∧ rosDecode t0 0b01100000000000 0 0 = some (.cmtr t0 0 0) := by decide +kernel

/-- R: ROP 10 (CLT) g2, g7; ROP 19 (CRCM) P 2, IX1, n = 8; ROP 28 (SEND) g3, n = 4; reserved n; MVA with Gb not zero. -/
theorem decode_r : rosDecode t0 0b10101010010111 0 0 = some (.clt t0 2 7) ∧ rosDecode t0 0b10110011101111 0 0 = some (.crcm t0 2 1 7) ∧
    rosDecode t0 0b10111100011011 0 0 = some (.send t0 3 3) ∧ rosDecode t0 0b10111100011100 0 0 = none ∧
    rosDecode t0 0b10100001011001 0 0 = none ∧ rosDecode t0 0b10100001011000 0 0 = some (.mva t0 3) := by decide +kernel

/-- I: ADDI -2; SHF ASR 39; SHF with s = 40. L: LOOP g5, B = 64; LOOPI n = 32, B = 1. -/
theorem decode_i_and_l : rosDecode t0 0b11000111111110 0 0 = some (.addi t0 0xFE) ∧ rosDecode t0 0b11001110100111 0 0 = some (.shf t0 2 39) ∧
    rosDecode t0 0b11001110101000 0 0 = none ∧ rosDecode t0 0b11010101111111 0 0 = some (.loop t0 5 63) ∧
    rosDecode t0 0b11011111110000 0 0 = some (.loopi t0 31 0) := by decide +kernel

/-- BC: BNZ g1, -32. BR: BRA 255. W: LDLH 0xABCDE; CALLF 0xC001; JMPF with payload bit 16. S: MFS g6; REL g4 with disposition 2; SOP 22; NOP with a
register. -/
theorem decode_b_w_s : rosDecode t0 0b11101001100000 0 0 = some (.bnz t0 1 32) ∧ rosDecode t0 0b11110011111111 0 0 = some (.bra t0 255) ∧
    rosDecode t0 0b11111001101010 0b11110011011110 0 = some (.ldlh t0 0xABCDE) ∧ rosDecode t0 0b11111011000011 0b00000000000001 0 = some (.callf t0 0xC001) ∧
    rosDecode t0 0b11111010000100 0 0 = none ∧ rosDecode t0 0b11111110011110 0 0 = some (.mfs t0 6) ∧
    rosDecode t0 0b11111101110100 0 2 = some (.relDrop t0 4) ∧ rosDecode t0 0b11111110110000 0 0 = none ∧
    rosDecode t0 0b11111100000001 0 0 = none := by decide +kernel

/-- C: CDIV c3, c5, c7; CDFT c1, c2, c3, g4, #17; CCMPM g6, c0, c1, GT; a field that the operation does not use; CPOP 8. -/
theorem decode_c : rosDecode t0 0b01110110001100 0b10111100000000 0 = some (.cdiv t0 3 5 7) ∧
    rosDecode t0 0b01101101000100 0b01001110010001 0 = some (.cdft t0 1 2 3 4 17) ∧
    rosDecode t0 0b01111001000000 0b00000111000100 0 = some (.ccmpm t0 6 0 1 4) ∧ rosDecode t0 0b01110110001100 0b10111100100000 0 = none ∧
    rosDecode t0 0b01100100000000 0 0 = none := by decide +kernel

/-! ## Worked examples of the spec -/

/-- The nine bytes of R237's check values. -/
def digits : List Byte := [0x31, 0x32, 0x33, 0x34, 0x35, 0x36, 0x37, 0x38, 0x39]

/-- R237: the check values of CRC-16/CCITT, CRC-32 and CRC-32C. -/
theorem crc_check_values : crcAcc (State.reset.crcParams 1 0) 0xFFFF#40 digits = 0x29B1#40 ∧
    (crcAcc (State.reset.crcParams 1 1) 0xFFFFFFFF#40 digits) ^^^ 0xFFFFFFFF#40 = 0xCBF43926#40 ∧
    (crcAcc (State.reset.crcParams 1 2) 0xFFFFFFFF#40 digits) ^^^ 0xFFFFFFFF#40 = 0xE3069283#40 := by decide +kernel

/-- 09_instruction_set.md, "Worked example: checking the FCS of an SV frame": the nine words and what they spell. -/
theorem fcs_example_words : rosDecode t0 0x30FF 0 0 = some (.ldi t0 0xFF) ∧ rosDecode t0 0x3F41 0 0 = some (.mtx t0 0 1) ∧
    rosDecode t0 0x36E0 0 0 = some (.loopi t0 14 0) ∧ rosDecode t0 0x2CD7 0 0 = some (.crcm t0 1 0 7) ∧
    rosDecode t0 0x2CD3 0 0 = some (.crcm t0 1 0 3) ∧ rosDecode t0 0x1240 0 0 = some (.xorDp t0 0x40) ∧
    rosDecode t0 0x2890 0 0 = some (.mvg t0 2) ∧ rosDecode t0 0x2000 0 0 = some (.ldw t0 0 false 0) ∧
    rosDecode t0 0x2A1A 0 0 = some (.ceq t0 3 2) := by decide +kernel

/-- 10_phasor_coprocessor.md, "Worked example: a quadrilateral reach check": 40 + 20j less -20 + 20j is 60; 60 / (3 - 4j) is 7.2 + 9.6j, rounded. -/
theorem reach_check : (cpxCompute { cpop := 17 } {} ⟨0x42200000, 0x41A00000, false, false⟩ ⟨0xC1A00000, 0x41A00000, false, false⟩ {} []).ws =
      [0x42700000, 0] ∧
    (cpxCompute { cpop := 44 } {} ⟨0x42700000, 0, false, false⟩ ⟨0x40400000, 0xC0800000, false, false⟩ {} []).ws = [0x40E66666, 0x4119999A] ∧
    (cpxCompute { cpop := 48, m := 0 } {} ⟨0x40E66666, 0x4119999A, false, false⟩ ⟨0x41200000, 0x41400000, false, false⟩ {} []).ws = [1] := by
  decide +kernel

/-- 05_sample_planes.md, "Worked example: a cell at 59.7 Hz": the cubic over smpCnt 11-14 at μ = 0.562814, shifted right by 4. -/
theorem cell_example : resample [-1, 0, 1, 2] 9442452 ([-1200000, 2000000, 5100000, 8000000].map fun v =>
    { vals := [⟨v, 1⟩], quals := [], sim := false, fids := [], waits := [], last := 0 }) 0 4 = 235215 := by decide +kernel

/-- 22_register_and_event_maps.md: CLU_DSP_STATUS of cluster 3; the routes at reset of EV294 and EV243. -/
theorem register_examples : Reg.CLU_DSP_STATUS 3 = 0x131004 ∧ State.reset.reg (Reg.EVT_ROUTE 294) = 0x92604000#32 ∧
    State.reset.reg (Reg.EVT_ROUTE 243) = 0x8F3A0000#32 := by decide +kernel

/-! ## States in which each instruction issues: the hypotheses of the statements on Rospel instructions -/

/-- ACC and register instructions. -/
theorem witness_alu : (([(.ld t0 0x1FF, [.acc]), (.ldu t0 0, [.acc]), (.add t0 0, [.acc]), (.addu t0 0, [.acc]), (.sub t0 0, [.acc]),
    (.andDp t0 0, [.acc]), (.orDp t0 0, [.acc]), (.xorDp t0 0, [.acc]), (.st t0 0x1FF, [.acc]), (.sts t0 0, [.acc]), (.mul t0 0, [.acc]),
    (.mulh t0 0x1FF, [.acc]), (.div t0 7, [.acc, .g 7]), (.sqrt t0, [.acc]), (.movg t0 7 0, [.g 7, .g 0]), (.mva t0 0, [.acc, .g 0]),
    (.mvau t0 7, [.acc, .g 7]), (.mvg t0 1, [.acc, .g 1]), (.addg t0 1 1, [.g 1]), (.subg t0 1 2, [.g 1, .g 2]), (.andg t0 1 2, [.g 1, .g 2]),
    (.org t0 1 2, [.g 1, .g 2]), (.xorg t0 1 2, [.g 1, .g 2])] : List (Instr × List Dest)).all (okOn base)) = true := by decide +kernel

theorem witness_compares_and_bits : (([(.ceq t0 1 2, [.acc, .g 1, .g 2]), (.cne t0 1 2, [.acc, .g 1, .g 2]), (.clt t0 1 2, [.acc, .g 1, .g 2]),
    (.cge t0 1 2, [.acc, .g 1, .g 2]), (.cltu t0 1 2, [.acc, .g 1, .g 2]), (.cgeu t0 7 7, [.acc, .g 7]), (.par t0 1 2, [.g 1, .g 2]),
    (.brev t0 1 2, [.g 1, .g 2]), (.bswp t0 1 2, [.g 1, .g 2]), (.crcb t0 3 7, [.acc, .g 7]), (.crcw t0 0 0, [.acc, .g 0]), (.ldi t0 0xFF, [.acc]),
    (.addi t0 0, [.acc]), (.andi t0 0, [.acc]), (.shf t0 0 39, [.acc]), (.shf t0 1 0, [.acc]), (.shf t0 2 1, [.acc]), (.shf t0 3 32, [.acc]),
    (.ldl t0 0xFFFFF, [.acc]), (.ldlh t0 0, [.acc]), (.mtx t0 0 1, [.g 1, .ix 0]), (.mtx t0 1 1, [.g 1, .ix 1]), (.mfx t0 0 1, [.g 1, .ix 0]),
    (.mfx t0 1 1, [.g 1, .ix 1]), (.adx t0 0 1, [.g 1, .ix 0]), (.adx t0 1 1, [.g 1, .ix 1]), (.nop t0, [])] : List (Instr × List Dest)).all
    (okOn base)) = true := by decide +kernel

theorem witness_control : (([(.bz t0 0 63, [.g 0]), (.bnz t0 7 32, [.g 7]), (.bra t0 0x1FF, []), (.jmpf t0 0xFFFF, []), (.callf t0 0, [.g 7]),
    (.ret t0, [.g 7]), (.synci t0, []), (.loop t0 0 63, [.g 0]), (.loopi t0 31 15, [])] : List (Instr × List Dest)).all (okOn base)) = true ∧
    (base.thr 1).ctx.levels < 4 ∧ (base.thr 1).ctx.g[0] = 0 := by decide +kernel

theorem witness_memory : (([(.ldw t0 0 true 0, [.acc, .ix 0]), (.ldh t0 1 false 0, [.acc, .ix 1]), (.ldhu t0 0 false 63, [.acc, .ix 0]),
    (.ldb t0 0 false 0, [.acc, .ix 0]), (.ldbu t0 0 false 0, [.acc, .ix 0]), (.stw t0 0 false 0, [.acc, .ix 0]), (.sth t0 0 false 0, [.acc, .ix 0]),
    (.stb t0 0 false 0, [.acc, .ix 0]), (.crcm t0 1 0 7, [.ix 0]), (.pmw t0 0, [.g 0, .ix 0]), (.pmr t0 0, [.g 0, .ix 0]), (.mfs t0 0, [.g 0])] :
    List (Instr × List Dest)).all (okOn baseK)) = true := by decide +kernel

theorem witness_system : (([(.chanOpen t0 0 1, [.g 0, .g 1]), (.chanOpenw t0 0 1, [.g 0, .g 1]), (.recv t0 0 1, [.g 0, .g 1]),
    (.recvw t0 0 1, [.g 0, .g 1]), (.chw t0 3 0 1, [.g 0, .g 1]), (.send t0 0 3, [.g 0]), (.lock t0 0 1, [.g 0, .g 1]), (.unlock t0 0 1, [.g 0, .g 1]),
    (.tend t0, []), (.yield t0, []), (.relNext t0 0, [.g 0]), (.vwait t0 0, [.g 0]), (.vpost t0 0, [.g 0]), (.ei t0, []), (.di t0, []),
    (.reti t0, [])] : List (Instr × List Dest)).all (okOn base)) = true ∧
    (([(.relExit t0 0, 1#32), (.relDrop t0 0, 2#32), (.relRecirc t0 0, 3#32)] : List (Instr × Word)).all fun p =>
      okOn (base.updCtx 1 fun c => { c with g := c.g.set 0 p.2 }) (p.1, [.g 0])) = true ∧
    (([.ei sup0, .di sup0, .reti sup0] : List Instr).all fun i => ((fetches base 0 i).issues sup0 i [])) = true ∧
    isSup (tidNat sup0) = true ∧ isSup (tidNat t0) = false := by decide +kernel

theorem witness_coprocessor : (([(.cmtr t0 0 1, [.g 1]), (.cmti t0 7 7, [.g 7]), (.cmfr t0 1 0, [.g 1]), (.cmfi t0 1 0, [.g 1]), (.cmov t0 7 6, []),
    (.ccvt t0 0 1 31, [.g 1]), (.ccvtc t0 0 1 0, [.g 1]), (.cfix t0 1 0 31, [.g 1]), (.cadd t0 0 1 2, []), (.csub t0 0 1 2, []), (.cmul t0 0 1 2, []),
    (.cmac t0 0 1 2, []), (.cmsc t0 0 1 2, []), (.ccmul t0 0 1 2, []), (.ccmac t0 0 1 2, []), (.crmul t0 0 1 2, [.g 2]), (.cscl t0 0 1 16, []),
    (.cconj t0 0 1, []), (.cdft t0 0 1 2 3 31, [.g 3]), (.crot t0 0 1 2, [.g 2]), (.cmag t0 0 1, []), (.carg t0 0 1, [.g 0]), (.cfsq t0 5 5, []),
    (.cdiv t0 0 1 2, []), (.ccmpr t0 0 1 2 5, [.g 0]), (.ccmpi t0 0 1 2 0, [.g 0]), (.ccmpm t0 0 1 2 4, [.g 0]), (.cmin t0 0 1 2, []),
    (.cmax t0 0 1 2, [])] : List (Instr × List Dest)).all (okOn base)) = true ∧ base.cpxEnabled 1 = true ∧
    (List.range 16).any (fun j => !(base.cpxCmd j).live) = true ∧ (base.cpx.cmds.filter fun p => p.2.live && p.2.tid == 1 && !p.2.squashed).length < 4 := by
  decide +kernel

/-- R239: LDI -123; 0x7FFFFFFFFF + 1 wraps over 40 bits; MULH; DIV by zero; SQRT. -/
theorem test_arithmetic : ((next (.ldi t0 0x85) (fetches base 1 (.ldi t0 0x85))).accOf 1 = 0xFFFFFFFF85#40) ∧
    (let s := fetches (base.updCtx 1 fun c => { c with acc := 0x7FFFFFFFFF#40 }) 1 (.addi t0 1)
     (next (.addi t0 1) s).accOf 1 = 0x8000000000#40 ∧ ((next (.addi t0 1) s).thr 1).ctx.pc = 1) ∧
    divAcc 5 0 = 0x7FFFFFFFFF#40 ∧ divAcc (BitVec.ofInt 40 (-7)) 2 = BitVec.ofInt 40 (-3) ∧ sqrtAcc 0xFFFFFFFF#32 = 65535 := by decide +kernel

/-- R239: CLT and CLTU of ACC = -1 and 1. R234: BZ at 0x10 goes to 0x10 + 1 - 32. -/
theorem test_compare_and_branch :
    (let s := (base.updCtx 1 fun c => { c with acc := BitVec.ofInt 40 (-1), g := c.g.set 2 1, pc := 0x10 })
     (next (.clt t0 3 2) (fetches s 1 (.clt t0 3 2))).gOf 1 3 = 1 ∧ (next (.cltu t0 3 2) (fetches s 1 (.cltu t0 3 2))).gOf 1 3 = 0 ∧
     ((next (.bz t0 5 32) (fetches s 1 (.bz t0 5 32))).thr 1).ctx.pc = 0xFFF1 ∧
     ((next (.bz t0 2 32) (fetches s 1 (.bz t0 2 32))).thr 1).ctx.pc = 0x11) := by decide +kernel

/-- R236: LOOPI 2, 1 runs its one-word body twice. -/
theorem test_loop : (let s1 := next (.loopi t0 1 0) (fetches base 1 (.loopi t0 1 0))
    let s2 := next (.addi t0 1) (fetches s1 1 (.addi t0 1))
    let s3 := next (.addi t0 1) (fetches s2 1 (.addi t0 1))
    (s1.thr 1).ctx.levels = 1 ∧ (s2.thr 1).ctx.pc = 1 ∧ (s3.thr 1).ctx.pc = 2 ∧ (s3.thr 1).ctx.levels = 0 ∧ s3.accOf 1 = 2) := by decide +kernel

/-- R232, R205: a reserved word faults ILLEGAL, a C-format word with the coprocessor off CPX_DIS; the record names the word. -/
theorem witness_undefined :
    (let s := (regs [(Reg.CLU_PMEM_RGN 0 0 0, 0x00FF0000#32)]).updThr 1 fun x => { x with st := .ready, fetched := some (0x3FB0, 0) }
     let c := s.updThr 1 fun x => { x with fetched := some (0x1900, 0) }
     s.canIssue 1 = true ∧ s.fetchFault 1 1 = none ∧ s.nextInstr t0 = none ∧ c.nextInstr t0 = none ∧
     ((next (.undefinedEncoding t0) s).thr 1).st = .faulted ∧
     ((next (.undefinedEncoding t0) s).fltq 0).map (fun r => (fld (wordAt r 0) 31 28, fld (wordAt r 1) 29 16)) = [(1, 0x3FB0)]) := by decide +kernel

/-- The second word of a pending result is written back. -/
theorem witness_writeback : (let s := base.updThr 1 fun x => { x with pend := [{ dest := .g 0, val := 1, ready := false }, { dest := .acc, val := 5 }] }
    (s.thr 1).pend[1]? = some { dest := .acc, val := 5 } ∧ (∀ q ∈ (s.thr 1).pend.take 1, q.dest ≠ .acc) ∧
    (next (.resultWriteback t0 1) s).accOf 1 = 5 ∧ ((next (.resultWriteback t0 1) s).thr 1).pend.length = 1) := by decide +kernel

/-- Loads and stores: a region of SRAM that partition 0 owns, an address in it, the window faults. -/
def mem0 : State := put baseK [(Reg.CLU_SRAM_RGN 0 0, 0x80000000#32), (Reg.CLU_PMEM_RGN 0 0 3, 0x00FF0080#32), (Reg.CLU_PMEM_RGN 0 0 2, 0x00000001#32)]

theorem witness_loads_and_stores : ((halves 4 4).all fun h => mem0.sramOk 1 0 h.1 h.2 false true) = true ∧
    ((halves 6 4).all fun h => mem0.sramOk 1 0 h.1 h.2 false false) = true ∧ ((List.range 4).any fun i => mem0.sramByteBad 1 0 (6 + i)) = false ∧
    (mem0.thr 1).sb.length + (halves 6 4).length ≤ 4 ∧
    (match mem0.loadAt t0 6 4 with | .bytes b e _ => (b, e) == ([0, 0, 0, 0], false) | _ => false) = true ∧
    (match mem0.loadAt t0 0x02000000 4 with | .fault c => c == 3 | _ => false) = true ∧ windowOf 1 0x00200000 = .none ∧ windowOf 1 0x04000000 = .none ∧
    windowOf 1 0x04200000 = .sram 1 0 true := by decide +kernel

/-- A store enters the buffer, is read back by its own thread, becomes visible at STORE_VISIBLE. -/
theorem test_store : (let s := (mem0.updCtx 1 fun c => { c with acc := 0x11223344#40, ix0 := 6 })
    let u := next (.stw t0 0 true 1) (fetches s 1 (.stw t0 0 true 1))
    let v := next (.storeVisible t0) (next (.storeVisible t0) u)
    (u.thr 1).sb.map (fun b => (b.addr, b.bytes)) = [(6, [0x44, 0x33]), (8, [0x22, 0x11])] ∧ u.clu.sram = [] ∧ u.ixOf 1 0 = 10 ∧
    u.sramByte 1 0 9 = 0x11 ∧ v.clu.sram = [(6, 0x44), (7, 0x33), (8, 0x22), (9, 0x11)] ∧ (v.thr 1).sb = []) := by decide +kernel

theorem witness_memory_faults : (match (mem0.counted t0 1).loadAt t0 0x05000000 4 with | .fault c => c == 3 | _ => false) = true ∧
    okOn (mem0.updCtx 1 fun c => { c with ix0 := 0x05000000 }) (.ldw t0 0 false 0, [.acc, .ix 0]) = true := by decide +kernel

/-- The sample-plane window: an aligned address and a misaligned one of its last word, the edge of the head table. -/
theorem witness_planes : (([(0x01000000, .ldw t0 0 false 0), (0x01803FFC, .ldw t0 0 false 0), (0x01803FFF, .ldw t0 0 false 0), (0x01000000, .ldh t0 0 false 0),
    (0x01800000, .ldhu t0 0 false 0), (0x01000001, .ldb t0 0 false 0), (0x01803FFF, .ldbu t0 0 false 0), (0x01000000, .stw t0 0 false 0),
    (0x01000002, .sth t0 0 false 0), (0x01803FFF, .stb t0 0 false 0), (0x01000000, .crcm t0 0 0 7)] : List (Word × Instr)).all fun p =>
      okOn (base.updCtx 1 fun c => { c with ix0 := p.1 }) (p.2, [.acc, .ix 0]) && 0x01000000 ≤ p.1.toNat && p.1.toNat < 0x01804000) = true ∧
    (let s := fetches (base.updCtx 1 fun c => { c with ix0 := 0x01000002 }) 1 (.ldw t0 0 false 0)
     ((next (.ldw t0 0 false 0) s).fltq 0).map (fun r => (fld (wordAt r 0) 31 28, wordAt r 2)) = [(4, 0x01000002#32)]) := by decide +kernel

theorem witness_program_memory : (mem0.thr 1).priv ≠ .u ∧ mem0.pmwOk 1 0x00000080#32 = true ∧ mem0.pmwOk 1 0x0000007F#32 = false ∧
    mem0.tilePart (pmTile 1 0x80#32) = mem0.thrPart 1 ∧ (mem0.thr 1).pendingFor .acc = [] ∧
    (match (mem0.counted t0 1).crcBytes t0 0 8 with | .bytes b _ _ => b.length == 8 | _ => false) = true := by decide +kernel

/-- MFS: every group of the table; a counter at U with and without PMU_USER_EN; a number not in the table. -/
theorem witness_special : ([0x00, 0x07, 0x0B, 0x0C, 0x10, 0x11, 0x12, 0x13, 0x14, 0x15, 0x18, 0x19, 0x1A, 0x20, 0x23].all fun n =>
      ((base.counted t0 1).special 1 n).isSome) = true ∧ ((base.counted t0 1).special 1 0x24).isNone = true ∧
    ((base.counted t0 1).special 1 0x0D).isNone = true ∧ (base.thr 1).priv = .u ∧ base.rb Reg.PMU_CFG 0 = false ∧ (baseK.thr 1).priv ≠ .u ∧
    (put base [(Reg.PMU_CFG, 1#32)]).rb Reg.PMU_CFG 0 = true ∧
    ([0x20, 0x23].all fun n => okOn (base.updCtx 1 fun c => { c with g := c.g.set 3 n }) (.mfs t0 3, [.g 3])) = true ∧
    base.mayWrite .jtag Reg.PMU_CFG = false ∧
    (((next (.mfs t0 3) (fetches (base.updCtx 1 fun c => { c with g := c.g.set 3 0x20 }) 1 (.mfs t0 3))).fltq 0).map
      fun r => fld (wordAt r 0) 31 28) = [2] ∧
    (next (.mfs t0 3) (fetches (base.updCtx 1 fun c => { c with g := c.g.set 3 0x10 }) 1 (.mfs t0 3))).gOf 1 3 = 1#32 := by decide +kernel

/-- Channel 5 of cluster 0, from partition 0 to partition 0, in each of its states. -/
def chan5 (st : ChanSt) : State :=
  ((put base [(chanCfgReg 5, 0x80000000#32)]).setChan 5 { st := st, filler := some (.thread 1) }).updCtx 1 fun c => { c with g := c.g.set 1 5 }

theorem witness_channels : (chan5 .empty).mayOpen 1 5 = true ∧ ((chan5 .empty).chan 5).st = .empty ∧ (chan5 .full).mayRecv 1 5 = true ∧
    ((chan5 .full).chan 5).st = .full ∧ (chan5 .filling).fills 1 5 = true ∧ chanKey 1 ((chan5 .full).gOf 1 1) = 5 ∧
    base.mayOpen 1 5 = false ∧ okOn base (.chanOpen t0 0 1, [.g 0, .g 1]) = true ∧
    ((next (.chanOpen t0 2 1) (fetches (chan5 .empty) 1 (.chanOpen t0 2 1))).chan 5).st = .filling := by decide +kernel

/-- Lock 5 of cluster 0, of partition 0: free, held by another thread, held by this one. -/
def lock5 (h : Option Agent) : State :=
  ((put base [(Reg.CLU_LCK_LCFG 0 5, 1#32)]).setLlock 5 { holder := h }).updCtx 1 fun c => { c with g := c.g.set 1 5 }

theorem witness_locks : lockName 0 ((lock5 none).gOf 1 1) = some (false, 5) ∧ tbit ((lock5 none).lockMask false 5) ((lock5 none).thrPart 1) = true ∧
    ((lock5 none).lock false 5).holder = none ∧ ((lock5 none).lock false 5).queue = [] ∧
    ((lock5 (some (.thread 9))).lock false 5).holder ≠ some ((lock5 none).agentOf 1) ∧ (lock5 none).thrBound 1 = false ∧
    ((lock5 (some (.thread 1))).lock false 5).holder = some ((lock5 none).agentOf 1) ∧ lockName 0 64#32 = none ∧ lockName 0 0x3FF#32 = none ∧
    lockName 0 0x1FF#32 = some (true, 255) ∧
    okOn (lock5 (some (.thread 9))) (.lock t0 0 1, [.g 0, .g 1]) = true := by decide +kernel

/-- 12_shared_memory_locks_mailboxes.md, "Worked example: a contested local lock": the second LOCK waits in the queue. -/
theorem test_contested_lock : (let s := lock5 (some (.thread 9))
    let u := next (.lock t0 0 1) (fetches s 1 (.lock t0 0 1))
    ((u.thr 1).st, (u.lock false 5).queue, (u.lock false 5).holder) = (.waiting, [.thread 1], some (.thread 9))) := by decide +kernel

/-- A task on the thread, with nothing to yield to and with another task ready; none; a bound thread with a packet. -/
def onTask : State := ((put base [(thrCfgReg 1, 0x80000000#32)]).updThr 1 fun x => { x with task := some 3 }).setTask 4
  { w0 := 0x80000000#32, w1 := 0x00010000#32 }

theorem witness_tasks : (onTask.thr 1).task.isSome = true ∧ (onTask.counted t0 1).drained 1 = true ∧ (onTask.counted t0 1).yieldTo 1 = none ∧
    ((onTask.setReady 0 [4]).counted t0 1).yieldTo 1 = some 4 ∧ (base.thr 1).task = none ∧
    okOn base (.tend t0, []) = true ∧ okOn onTask (.tend t0, []) = true ∧ okOn onTask (.yield t0, []) = true ∧ okOn onTask (.vpost t0 0, [.g 0]) = true ∧
    ((put base [(thrCfgReg 1, 0xC0000000#32)]).thrBound 1) = true := by decide +kernel

theorem witness_divide_free : base.divBusy 1 = false ∧
    (base.updThr 2 fun x => { x with pend := [{ dest := .acc, val := 0, busyUnit := true }] }).divBusy 1 = true := by decide +kernel

/-- A CMTR queued at tag 0 of core 0: ready, first, with good parity; then started, and its result written. -/
theorem witness_cpx : (let s := base.setCpxCmd 0 { live := true, tid := 1, cpop := 0, cd := 2, gs := 1, gval := 0x3F800000#32 }
    let u := next (.cpxCommandStart 0 0 0) s
    let v := next (.cpxResultWrite 0 0) u
    s.cpxReady (s.cpxCmd 0) = true ∧ s.cpxFirst 0 (s.cpxCmd 0) = true ∧ s.cpxParity (s.cpxCmd 0) = none ∧ (u.cpxCmd 0).started = true ∧
    u.cpxWawFree (u.cpxCmd 0) = true ∧ (u.cpxCmd 0).badReg = none ∧ (u.cpxCmd 0).squashed = false ∧
    (v.cregOf 1 2).re = 0x3F800000#32 ∧ (v.cpxCmd 0).live = false) := by decide +kernel

/-! ## States that meet the hypotheses of the statements on the fabric -/

/-- R408: ADMIN may write and take; an OBSERVER is no ADMIN, writes the registers whose chapters check for themselves, and no other. -/
theorem witness_roles : (adm.roleOf m2 = .admin ∧ obs.roleOf m2 = .observer ∧ obs.isAdmin m2 = false) ∧
    (([Reg.OCH_CMD, Reg.FIO_CMD, Reg.VRM_CMD, Reg.REC_CMD, Reg.CLS_CMD 0, Reg.FWD_CMD 0, Reg.AUT_CTX_CMD, Reg.DBG_CMD, Reg.CLU_CTL_CMD 0,
      Reg.CLU_DSP_CMD 5, Reg.CLU_CHN_CMD 2].all fun r => obs.mayWrite m2 r && adm.mayWrite m2 r) = true) ∧
    (obs.mayWrite m2 Reg.IND_TIME_CTRL = false ∧ adm.mayTake m2 Reg.FWD_LQ_POP = true ∧ obs.mayTake m2 Reg.FWD_LQ_POP = false) := by decide +kernel

/-- Every level of LoopEndBehaviour: no level, inside the outer level, its end with a count of two, its end with a count of one. -/
theorem witness_loop_end : (let c : Ctx := { pc := 4, le := #v[4, 0, 0, 0], lc := #v[2, 0, 0, 0], ls := #v[1, 0, 0, 0] }
    ({} : Ctx).levels = 0 ∧ (c.levels = 1 ∧ loopReg c.le 0 = c.pc + 1 - 1 ∧ 1 < (loopReg c.lc 0).toNat) ∧
    loopReg { c with pc := 3 }.le 0 ≠ (3 : BitVec 16) + 1 - 1 ∧
    ({ c with lc := #v[1, 0, 0, 0] }.levels = 1 ∧ loopReg { c with lc := #v[1, 0, 0, 0] }.lc 0 = 1#16)) := by decide +kernel

/-- Sources, steps, restarts, holdover and the time inputs (R28-R38). -/
theorem witness_device_time :
    (base.judgeSources.bestSrc = 0 ∧
      (let s := (put base [(Reg.IND_SRC_CFG, 0x80000000#32), (Reg.IND_TIN_CFG 0, 0x80000000#32)])
       let q := { s with ind := { s.ind with tin0 := { seen := true, qual := true } } }
       q.judgeSources.bestSrc ≠ 0)) ∧
    (adm.stepAllowed = true ∧ (put adm [(Reg.IND_TIME_CTRL, 0#32)]).stepAllowed = false) ∧
    (adm.ptpCommitArmed = false ∧ ({ adm with ind := { adm.ind with commit := some ⟨.ptp 5, 0, false⟩ } }).ptpCommitArmed = true) ∧
    (let s := upAt { base with ind := { base.ind with st := .holdover } } (2 ^ 70)
     s.ind.st = .holdover ∧ s.ind.holdExp = false ∧ s.ind.holdAt + s.rf Reg.IND_SRC_CFG 15 0 * secU ≤ s.up) := by decide +kernel

theorem witness_time_inputs :
    (let s := put base [(Reg.IND_TIN_CFG 0, 0x80000000#32), (Reg.IND_TIN_CFG 1, 0xA0000000#32)]
     let m := s.setTinSrc 1 { seen := true, missed := 1 }
     let l := upAt (s.setTinSrc 0 { seen := true }) (3 * secU / 2)
     (s.rb (Reg.IND_TIN_CFG 0) 31 = true ∧ s.tinSig 0 = 0 ∧ s.rb (Reg.IND_TIN_CFG 1) 31 = true ∧ s.tinSig 1 = 1) ∧
     (s.tinSrc 1).missed = 0 ∧ 1 ≤ (m.tinSrc 1).missed ∧ ((l.tinSrc 0).seen = true ∧ l.tinSig 0 = 0 ∧ (l.tinSrc 0).last + 3 * secU / 2 ≤ l.up)) ∧
    (let s := put base [(Reg.IND_PPS_CFG 0, 0x40000000#32)]
     s.ppsEdge 0 = some 0 ∧ s.ppsAllowed 0 = true ∧ s.pps 0 ≠ 0 + 1 ∧ (s.setPps 0 1).pps 0 = 0 + 1) := by decide +kernel

/-- The PTP engine on port 0, a slave, a master, a transparent port, one and two steps (R34, R35). -/
theorem witness_ptp :
    (let s := put base [(Reg.IND_PTP_CFG, 0x80000000#32), (Reg.ETH_PORT_CFG 0, 0x01000000#32), (Reg.IND_PTP_PORT 0, 0x40000000#32)]
     let one := put s [(Reg.IND_PTP_PORT 0, 0x60000000#32)]
     let tc := put s [(Reg.IND_PTP_PORT 0, 0x80000000#32)]
     let sl := s.setPort1588 0 { role := .slave, wait := some ⟨7, 0, 0⟩, pdT1 := some 3, pdSeq := 9 }
     let ms := s.setPort1588 0 { role := .master }
     let m1 := one.setPort1588 0 { role := .master }
     let lost := upAt { sl with ind := { sl.ind with ptp := { seen := true } } } (2 ^ 70)
     (sl.ptpSlave 0 = true ∧ sl.ptpTc 0 = false ∧ sl.ptpOn 0 = true ∧ (sl.port1588 0).wait = some ⟨7, 0, 0⟩ ∧ (sl.port1588 0).pdT1 = some 3 ∧
       (sl.port1588 0).pdSeq = 9) ∧
     tc.ptpTc 0 = true ∧ (one.ptpOn 0 = true ∧ one.ptpOneStep 0 = true ∧ s.ptpOneStep 0 = false ∧ s.ptpOurs 0 = true ∧ s.ptpOurs 1 = false) ∧
     (ms.ptpMaster 0 = true ∧ ms.ptpOneStep 0 = false ∧ m1.ptpMaster 0 = true ∧ m1.ptpOneStep 0 = true) ∧
     (lost.ind.ptp.seen = true ∧ lost.ind.ptp.last + 3 * lost.syncInterval ≤ lost.up)) := by decide +kernel

/-- The Announce of slave port 0 is overdue, whatever the standard's timeout is. -/
theorem witness_announce_timeout : (let a : AnnounceData := ⟨128, 248, 0xFE, 0, 128, 5, 0, 9, 0, false, false, false⟩
    let p := put base [(Reg.IND_PTP_CFG, 0x80000000#32), (Reg.ETH_PORT_CFG 0, 0x01000000#32), (Reg.IND_PTP_PORT 0, 0x40000000#32)]
    let s := { p.setPort1588 0 { role := .slave, best := some a } with up := Config.announceTimeout * nsU }
    s.annExpired ≠ [] ∧ s.annExpired.any s.ptpSlave = true) := by
  intro a p s
  have h : s.ptpOn 0 = true := by decide +kernel
  have ht : s.ptpTc 0 = false := by decide +kernel
  have hs : s.ptpSlave 0 = true := by decide +kernel
  have hb : (s.port1588 0).best = some a := rfl
  have h0 : (s.port1588 0).bestAt = 0 := rfl
  have h1 : s.up = Config.announceTimeout * nsU := rfl
  have m : 0 ∈ s.annExpired := by
    unfold State.annExpired
    rw [List.mem_filter, h, ht, hb, h0, h1]
    exact ⟨by decide, by simp⟩
  exact ⟨List.ne_nil_of_mem m, List.any_eq_true.mpr ⟨0, m, hs⟩⟩

/-- Each case of a crossing, a loss, a fixed start and the end of HELD (R39-R44). -/
theorem witness_angle_clocks :
    (let c0 : AngleClock := { st := .seeking, qualPri := 4, est := 50 * hzU }
     let e : RefEstimate := ⟨BitVec.ofNat 32 (50 * hzU), 0xFFFF⟩
     let s := put base [(Reg.IND_ACLK_CFG 0, 0x80000000#32), (Reg.IND_ACLK_LIM 0, 0x00010000#32), (Reg.IND_ACLK_SRC2 0, 0x80000000#32)]
     let sk := s.setAclk 0 c0
     let lk := s.setAclk 0 { c0 with st := .locked, badPri := 8 }
     let hd := s.setAclk 0 { c0 with st := .held, val := 2 * cycU }
     let fx := (put s [(Reg.IND_ACLK_CFG 0, 0xA0000000#32)]).setAclk 0 c0
     ((sk.aclk 0).st = .seeking ∧ sk.rf (Reg.IND_ACLK_CFG 0) 30 28 < 2 ∧ 4 ≤ (sk.aclk 0).qualPri ∧ 5 ≤ ((sk.countCycle 0 e e).aclk 0).qualPri) ∧
     ((lk.aclk 0).st = .locked ∧ (lk.aclk 0).src2 = false ∧ (lk.countCycle 0 ⟨0, 0⟩ e).refLost 0 ⟨0, 0⟩ = true ∧
       (lk.countCycle 0 e e).refLost 0 e = false ∧ lk.phaseMag 0 ≤ 357913941 ∧ 8 ≤ (lk.aclk 0).badPri) ∧
     ((hd.aclk 0).st = .held ∧ 4 ≤ ((hd.countCycle 0 e e).aclk 0).qualPri ∧ hd.rf (Reg.IND_ACLK_LIM 0) 31 16 ≠ 0 ∧
       (hd.aclk 0).holdShown = false ∧ hd.rf (Reg.IND_ACLK_LIM 0) 31 16 * cycU + (hd.aclk 0).heldFrom ≤ (hd.aclk 0).val) ∧
     ((fx.aclk 0).st = .seeking ∧ fx.rf (Reg.IND_ACLK_CFG 0) 30 28 = 2 ∧ fx.time * fx.aclkNom 0 % secU < 4 * nsU * fx.aclkNom 0) ∧
     (let q := s.setAclk 0 { c0 with st := .locked, qualSec := 1 }
      (q.aclk 0).src2 = false ∧ q.rb (Reg.IND_ACLK_SRC2 0) 31 = true ∧ 1 ≤ (q.aclk 0).qualSec ∧ (lk.aclk 0).qualSec = 0)) := by decide +kernel
/-- The state with frame f as given. -/
def fr (s : State) (f : Nat) (x : Frame) : State := s.setFrame f x

theorem witness_ports_and_segments :
    (let s := put base [(Reg.ETH_PORT_CFG 0, 0x80000600#32)]
     let u := put s [(Reg.ETH_PORT_STATUS 0, 4#32)]
     1 ≤ s.rf (Reg.ETH_PORT_CFG 0) 31 29 ∧ s.rf (Reg.ETH_PORT_CFG 0) 31 29 ≤ 4 ∧ s.rb (Reg.ETH_PORT_STATUS 0) 2 = false ∧
       u.rb (Reg.ETH_PORT_STATUS 0) 2 = true) ∧
    (let s := put base [(Reg.T1S_SEG_CFG 3, 0xC0000000#32)]
     let x := { s with pkt := { s.pkt with plcaFail := s.pkt.plcaFail.sd false 3 true } }
     let j := upAt (fr s 8 { live := true, port := 19 }) (4 * msU)
     (s.segOn 3 = true ∧ s.rb (Reg.T1S_SEG_CFG 3) 30 = true ∧ s.rf (Reg.T1S_SEG_CFG 3) 28 26 = 0 ∧ s.plcaOn 3 = true) ∧
     (x.segOn 3 = true ∧ x.pkt.plcaFail.gd false 3 = true ∧ x.plcaOn 3 = false) ∧
     ((j.frame 8).live = true ∧ (j.frame 8).tailAt = none ∧ (j.frame 8).port = 16 + 3 ∧ (j.frame 8).headAt + 3 * msU < j.up)) := by decide +kernel

theorem witness_frame_reception :
    (let s := put base [(Reg.ETH_PORT_CFG 15, 0x80000040#32), (Reg.ETH_PORT_STATUS 15, 4#32), (Reg.ETH_PREEMPT 15, 0x80000000#32)]
     let b : List Byte := List.replicate 64 0
     let c := upAt (fr s 3 { live := true, port := 15, bytes := b, parse := some {} }) (180 * nsU)
     let x := c.frame 3
     (s.canReceive 15 = true ∧ s.rb (Reg.ETH_PREEMPT 15) 31 = true) ∧
     (x.live = true ∧ x.clsAt = none ∧ x.thruOnly = false ∧ x.parse.isSome = true ∧ x.parsedAt + 180 * nsU ≤ c.up ∧ 64 ≤ x.bytes.length) ∧
     (x.tailAt = none ∧ x.port < 16 ∧ c.maxLen x.port ≤ x.bytes.length)) := by decide +kernel

/-- What a walk that goes on found of a redundancy tag. -/
def hsrWalk (r : Parsed) (sa da : BitVec 48) : Bool :=
  match r with
  | .go p _ _ => p.hsrSeq == some 7 && p.sa == sa && p.da == da
  | _ => false

theorem hsrWalk_go (r : Parsed) (sa da : BitVec 48) (h : hsrWalk r sa da = true) :
    ∃ p l n, r = .go p l n ∧ p.hsrSeq = some 7 ∧ p.sa = sa ∧ p.da = da := by
  unfold hsrWalk at h
  split at h
  · rename_i p l n
    simp only [Bool.and_eq_true, beq_iff_eq] at h
    exact ⟨p, l, n, rfl, h.1.1, h.1.2, h.2⟩
  · cases h

/-- An HSR frame of node a to node d in frame 3 of a ring port. -/
def hsrState (d a : Byte) : State := fr (put base [(Reg.ETH_RED_CFG 0, 0x60100000#32)]) 3
  { live := true, bytes := [0, 0, 0, 0, 0, d, 0, 0, 0, 0, 0, a, 0x89, 0x2F, 0, 50, 0, 7, 0x88, 0xBA] ++ List.replicate 44 0 }

/-- The pass-through of an HSR frame whose walk found other addresses than the device's own. -/
theorem hsrState_thru (d a : Byte) (p : Parse) (l n : Nat)
    (hx : (((hsrState d a).frame 3).live && !((hsrState d a).frame 3).hsrDone && (hsrState d a).onRing ((hsrState d a).frame 3).port) = true)
    (hw : parseLink ((hsrState d a).parseEnv 3) (((hsrState d a).frame 3).bytes.take 256) = .go p l n)
    (hr : (hsrState d a).redOf ((hsrState d a).frame 3).port = some 0) (hq : p.hsrSeq = some 7)
    (ho : ¬(p.sa = Config.ownMac ∨ p.da = Config.ownMac)) : (hsrState d a).thruLink 3 = some (p, 7, 0) := by
  unfold State.thruLink
  simp only [hx, hw, hr, hq, if_true, if_neg ho]

/-- An HSR frame from another node to another node, whatever the device's own address is. -/
theorem witness_hsr_pass_through : ∃ d a p, (hsrState d a).thruLink 3 = some (p, 7, 0) ∧ (hsrState d a).thruBefore 3 = false := by
  obtain ⟨p, l, n, e, es, ea, ed⟩ := hsrWalk_go (parseLink ((hsrState 1 2).parseEnv 3) (((hsrState 1 2).frame 3).bytes.take 256)) 2 1 (by decide +kernel)
  obtain ⟨q, l', n', f, fs, fa, fd⟩ := hsrWalk_go (parseLink ((hsrState 3 4).parseEnv 3) (((hsrState 3 4).frame 3).bytes.take 256)) 4 3 (by decide +kernel)
  by_cases h : Config.ownMac = 1#48 ∨ Config.ownMac = 2#48
  · refine ⟨3, 4, q, hsrState_thru 3 4 q l' n' (by decide +kernel) f (by decide +kernel) fs ?_, by decide +kernel⟩
    rw [fa, fd]; rcases h with h | h <;> rw [h] <;> decide
  · refine ⟨1, 2, p, hsrState_thru 1 2 p l n (by decide +kernel) e (by decide +kernel) es ?_, by decide +kernel⟩
    rw [ea, ed]; exact fun c => h (c.elim (fun c => .inr c.symm) fun c => .inl c.symm)

theorem witness_redundancy :
    (let s := upAt (put base [(Reg.ETH_RED_CFG 7, 0x20100000#32)]) (2 * secU)
     let k := s.setGroup 7 { nodes := [⟨5, 0⟩], dup := [⟨5, 6, 0, 0, false, false, 0⟩] }
     (s.redOn 7 = true ∧ ((s.group 7).nodes.all fun n => n.src != 5) = true ∧ (s.group 7).nodes.length = 0 ∧ (s.group 7).supAt + 2 * secU ≤ s.up) ∧
     ((k.group 7).nodes.any fun n => n.src == 5) = true) := by decide +kernel

/-- A node table of 1,024 other nodes. -/
theorem witness_node_table_full :
    (let s := (put base [(Reg.ETH_RED_CFG 7, 0x20100000#32)]).setGroup 7 { nodes := List.replicate 1024 ⟨9, 0⟩ }
     s.redOn 7 = true ∧ (∀ n ∈ (s.group 7).nodes, n.src ≠ 5) ∧ 1024 ≤ (s.group 7).nodes.length) := by
  intro s
  have h : (s.group 7).nodes = List.replicate 1024 ⟨9, 0⟩ := rfl
  refine ⟨by decide +kernel, ?_, ?_⟩
  · rw [h]; intro n hn; rw [List.eq_of_mem_replicate hn]; decide
  · rw [h, List.length_replicate]

theorem witness_classifier :
    (let s := put adm [(Reg.CLS_TBL_CFG 1, 1#32)]
     let b := (s.clsBucketsOf 1 (s.clsKey 0)).1
     let hit := s.setSlotOf 1 (4 * b) { valid := true }
     let full := each (bucketSlots b ++ bucketSlots (s.clsBucketsOf 1 (s.clsKey 0)).2) (fun x n => x.setSlotOf 1 n { valid := true, key := 1 }) s
     (s.clsBuckets 1 ≠ 0 ∧ hit.clsFind 1 (hit.clsKey 0) = some (4 * b) ∧ s.clsFind 1 (s.clsKey 0) = none) ∧
     ((s.clsPlace 1 (s.clsKey 0)).isSome = true ∧ full.clsPlace 1 (full.clsKey 0) = none ∧ full.clsFind 1 (full.clsKey 0) = none) ∧
     (badResult (s.clsRes 0) = false ∧ badResult ((put s [(Reg.CLS_CMD_RES 0 0, 0xF0000000#32)]).clsRes 0) = true) ∧
     (s.clsBuckets 1 * 4 ≤ fld 0xFFFF#32 15 0 ∧ fld (0 : Word) 15 0 < s.clsBuckets 1 * 4 ∧ (s.slotOf 1 0).valid = false ∧
       ((s.setSlotOf 1 0 { valid := true }).slotOf 1 0).valid = true) ∧ (obs.mayWrite m2 (Reg.CLS_CMD 0) = true ∧ obs.isAdmin m2 = false)) := by
  decide +kernel

theorem witness_authentication :
    (let s := adm.setAutCtx 5 { w0 := 0x80000000#32, w10 := 0x10000000#32 }
     let t := put s [(Reg.AUT_CTX_SEL, 5#32)]
     let o := put (obs.setAutCtx 5 { w0 := 0x80000000#32, w10 := 0x10000000#32 }) [(Reg.AUT_CTX_SEL, 5#32)]
     let p := { adm with aut := { adm.aut with prevActive := true } }
     let v := upAt (fr (fr base 3 { live := true, clsAt := some 0, tailAt := some 0 }) 4 { live := true, clsAt := some 0, tailAt := some 0 }) (120 * nsU)
     (p.aut.prevActive = true ∧ p.aut.prevUntil ≤ p.up) ∧ (s.rxCtx (s.rf Reg.AUT_CTX_SEL 11 0) = 0) ∧
     (t.rxCtx (t.rf Reg.AUT_CTX_SEL 11 0) ≠ 0 ∧ t.adminOrOwner m2 (t.autCtx 5).owner = true ∧ o.rxCtx (o.rf Reg.AUT_CTX_SEL 11 0) ≠ 0 ∧
       o.adminOrOwner m2 (o.autCtx 5).owner = false) ∧
     (v.verdictDue (v.frame 3) = true ∧ v.verdictBefore 3 = false ∧ v.verdictBefore 4 = true)) := by decide +kernel

theorem witness_cell_due :
    (let s := upAt ((put base [(Reg.IND_ACLK_CFG 0, 0x80004000#32)]).setAclk 0 { st := .locked, val := 2 * cycU, hist := [(0, 0)] }) secU
     let a := s.setStream 9 { st := .running, due := some 7, next := some 8 }
     let b := s.setStream 9 { st := .running, due := some 8, next := some 9 }
     (([(a, 7), (b, 8)] : List (State × Nat)).all fun p => (p.1.stream 9).due == some p.2 && (p.1.stream 9).st == .running && (p.1.stream 9).wrote p.2 &&
       (match p.1.dueTime 9 p.2 with | some t => Frac.le t ⟨p.1.time, 1⟩ | none => false)) = true) := by decide +kernel

theorem witness_lanes :
    (let x : Frame := { live := true, clsAt := some 0, act := 1, bytes := List.replicate 64 0 }
     let s := put (fr adm 3 x) [(Reg.LAN_STG_CFG 3 7, 1#32)]
     let q := s.setQueue 31 [3, 4]
     let bp := put q [(Reg.LAN_CFG 3, 0x40000000#32)]
     let thr := put q [(thrCfgReg 1, 0xC007C000#32), (Reg.LAN_CFG 3, 0#32)]
     let idle := thr.updThr 1 fun y => { y with st := .idle }
     let held := upAt (fr (thr.updThr 1 fun y => { y with packet := some 3 }) 3 { x with loc := .held 3 7 t0 }) usU
     let lf := fr s 3 { x with loc := .left 3 }
     let out := upAt (fr (s.setRob 31 [3]) 3 { x with loc := .reorder 3 7, relDisp := 1 }) (8 * nsU)
     (x.live = true ∧ x.loc = .ingress ∧ x.clsAt.isSome = true ∧ x.thruOnly = false ∧ 1 ≤ x.action ∧ x.action ≤ 3 ∧ 64 ≤ x.bytes.length) ∧
     (q.queue 31 = 3 :: [4] ∧ q.retiredEpoch (q.frame 3) = false ∧ q.retiredEpoch { x with epoch := 9 } = true ∧ (q.rob 31).length < 64) ∧
     (bp.bypasses 3 x = true ∧ idle.bypasses 3 x = false ∧ idle.longestIdle (idle.idleBound 3 7) = some 1) ∧ held.heldTooLong 1 = true ∧
     (out.rob 31 = 3 :: [] ∧ (out.frame 3).loc = .reorder 3 7 ∧ (out.frame 3).relAt + 8 * nsU ≤ out.up ∧ out.pkt.lastExit.gd 0 31 + 8 * nsU ≤ out.up ∧
       out.waitsPlace 3 3 7 = false) ∧ ((lf.frame 3).loc = .left 3 ∧ lf.exitBefore 3 3 = false ∧ lf.thruWaits = false)) := by decide +kernel

theorem witness_egress :
    (let c : Copy := { live := true, eg := 0, tc := 7, startAt := some 0, len := 64 }
     let s := (put base [(Reg.ETH_PORT_STATUS 0, 4#32), (Reg.ETH_PORT_CFG 0, 0x84000000#32)]).setCopy 3 c
     let q := s.setEgq (egKey 0 7) [3]
     let pre := upAt ((((put q [(Reg.SWC_EG_CFG 0, 0x40000000#32), (Reg.ETH_PREEMPT 0, 0xC0000000#32)]).setCopy 4 { c with tc := 0, len := 1500, startedAt := some 0 }).setSending 0
       (some 4)).setEgq (egKey 0 7) [3]) (usU * 8)
     let snd := upAt ((s.setSending 0 (some 3)).setCopy 3 { c with startedAt := some 0 }) secU
     let pz := upAt ((put s [(Reg.SWC_EG_STATUS 0, 4#32)]).setPause 0 { until_ := 1, since := some 0 }) secU
     let rs := { s with pkt := { s.pkt with preempted := s.pkt.preempted.sd none 0 (some 3) } }
     (rs.mayResume 0 = some 3 ∧ q.mayResume 0 = none ∧ q.mayStart 0 7 = true ∧ q.sending 0 = none ∧ q.egq (egKey 0 7) = 3 :: []) ∧
     (pre.mayStart 0 7 = true ∧ pre.sending 0 = some 4 ∧ pre.egq (egKey 0 7) = 3 :: []) ∧ (snd.sending 0 = some 3 ∧ snd.copyEnds 3 ≤ snd.up ∧ snd.verdictDue (snd.frame (snd.copy 3).fid) = false) ∧
     (s.rf (Reg.ETH_PORT_CFG 0) 31 29 ≠ 0 ∧ s.rb (Reg.ETH_PORT_CFG 0) 26 = true ∧ (s.pause 0).ignoreUntil ≤ s.up) ∧
     (pz.paused 0 = true ∧ (pz.pause 0).until_ ≤ pz.up ∧ pz.pauseOld 0 = true)) := by decide +kernel

theorem witness_buffers_and_mac :
    (let s := put adm [(Reg.OCH_POOL_CFG 0, 0x00000040#32), (Reg.OCH_POOL_CFG 1, 0#32)]
     let r := { s with pwr := { s.pwr with st := .recovery } }
     let e : MacSlot := { w0 := 5, w2 := 0x80000001#32 }
     let f := adm.setMac 0 { e with w2 := if e.parity then 0x90000001#32 else 0x80000001#32 }
     s.handleOk 0x7FFF = false ∧ s.pwr.st ≠ .recovery ∧ (r.isAdmin m2 = true ∧ r.pwr.st = .recovery) ∧
     (adm.mac 7).isBad = false ∧ (adm.fwdStaged 0).egress = 0 ∧ ((put adm [(Reg.FWD_CMD_ENT 0 2, 1#32), (Reg.FWD_CMD_ENT 0 3, 1#32)]).fwdStaged 0).egress ≠ 0 ∧
     (f.mac 0).isBad = false ∧ ({ adm with och := { adm.och with learn := [[1, 2, 3, 4]] } }).och.learn = [1, 2, 3, 4] :: []) := by decide +kernel
theorem witness_strobes :
    (let s := (put base [(Reg.IND_ACLK_CFG 2, 0x80000000#32)]).setAclk 2 { st := .locked, val := cycU, nextC := 1 }
     let a : ArmedInstant := ⟨.ptp 0, 0, false⟩
     let u := base.setUnit 31 (some a)
     let l := base.setUnit 31 (some { a with late := true })
     let c := { base with ind := { base.ind with commit := some a } }
     (s.evalDue 2 = true ∧ s.commitDue = false ∧ s.evalDue 0 = false ∧ s.evalDue 1 = false) ∧
     (u.unit 31 = some a ∧ u.instReached a = true ∧ u.commitDue = false ∧ ((List.range 16).all fun m => !u.evalDue m) = true ∧
       ((List.range 31).all fun v => !u.unitDue v) = true) ∧
     (l.instReached { a with late := true } = true ∧ l.rb (Reg.IND_INST_STATUS 31) 7 = false) ∧ (c.ind.commit = some a ∧ c.instReached a = true)) := by
  decide +kernel

/-- Control commands and the supervisor of cluster 0, on thread 1. -/
theorem witness_control_commands :
    (let th := fun (x : ThreadSt) => adm.updThr 1 fun y => { y with st := x, wait := some ⟨.recvw 2, 0, 0⟩ }
     let f := upAt (th .faulted) secU
     let sp := (base.updThr 0 fun y => { y with ie := true, st := .ready }).setFltq 0 [[1, 2, 3, 4]]
     let mk := upAt ((put base [(Reg.CLU_SUP_CFG 0, 0#32)]).updThr 0 fun y => { y with maskAt := some 0 }) secU
     let v : Word := 0x100#32
     (adm.ctlAllowed m2 (adm.ctlPart 0 v) = true ∧ obs.ctlAllowed m2 (obs.ctlPart 0 v) = false) ∧
     (f.ctlThread 0 v = some 1 ∧ (f.thr 1).st = .faulted ∧ (f.thr 1).faultAt + f.rf (Reg.CLU_SUP_TMO 0) 15 0 * usU ≤ f.up) ∧
     ((th .ready).ctlThread 0 v = some 1 ∧ ((th .ready).thr 1).st ≠ .faulted) ∧
     ((th .waiting).agentWaiting ((th .waiting).ctlAgent 0 v) = true ∧ (th .ready).agentWaiting ((th .ready).ctlAgent 0 v) = false) ∧
     (sp.supCause 0 = some 1 ∧ (sp.thr 0).ie = true ∧ (sp.thr 0).st = .ready) ∧
     ((mk.thr 0).maskAt = some 0 ∧ (mk.thr 0).ie = false ∧ mk.rf (Reg.CLU_SUP_CFG 0) 9 0 * 16 < coreCycles (mk.up - 0)) ∧
     (adm.fltq 0 = [] ∧ sp.fltq 0 = [1, 2, 3, 4] :: [] ∧ adm.dlq 0 = [] ∧ (adm.setDlq 0 [[1]]).dlq 0 = [1] :: [])) := by decide +kernel

theorem witness_deadlock_and_channels :
    (let b := upAt ((put base [(Reg.CLU_DL_CFG 0 0, 0x80000001#32)]).setTask 5 { w0 := 0x80000000#32, st := .blocked, wait := some ⟨.recvw 2, 0, 0⟩ }) secU
     let w := b.setWgroup 0 { since := some 0 }
     let p := b.setWgroup 0 { since := some 0, posted := some 0 }
     let g := adm.setGrant 0 { active := true, control := true, session := true }
     ((w.wgroup 0).since = some 0 ∧ w.groupBlocked 0 0 = true ∧ (w.wgroup 0).posted = none ∧ w.groupHalted 0 0 = false ∧
       0 + w.rf (Reg.CLU_DL_CFG 0 0) 15 0 * usU ≤ w.up ∧ (w.dlq 0).length < 4 ∧ 4 ≤ ((w.setDlq 0 [[], [], [], []]).dlq 0).length) ∧
     ((p.wgroup 0).posted = some 0 ∧ p.groupBlocked 0 0 = true ∧ (p.wgroup 0).esc = false ∧ 0 + p.rf (Reg.CLU_SUP_TMO 0) 31 16 * usU ≤ p.up) ∧
     (adm.dbgAllowed m2 (adm.chanTx 2) true = false ∧ g.dbgAllowed m2 (g.chanTx 2) true = true ∧ (g.chan 2).st ≠ .held ∧
       ((g.setChan 2 { st := .held }).chan 2).st = .held)) := by decide +kernel

theorem witness_dispatcher :
    (let pool := put adm [(thrCfgReg 1, 0x80000000#32)]
     let tk : Task := { w0 := 0x80000000#32, w1 := 0xFFFF0000#32, w3 := 0x00010000#32, st := .ready }
     let rd := (pool.setTask 5 tk).setReady 0 [5]
     let idle := rd.updThr 1 fun y => { y with st := .idle }
     let busy := fun (x : ThreadSt) => upAt ((pool.setTask 6 { tk with st := .running, inRun := true }).updThr 1 fun y => { y with st := x, task := some 6, leaving := true }) secU
     let inc := idle.updThr 1 fun y => { y with incoming := some 5, staged := some 5 }
     let soon := (pool.setAclk 0 { st := .locked, val := cycU, nextC := 1 }).setTask 5 { tk with st := .dormant, w2 := 0x20000000#32 }
     let tm : ArmedInstant := ⟨.ptp 0, 0, true⟩
     idle.firstAssignable 0 = some (5, 1, false) ∧
     (((busy .ready).thr 1).leaving = true ∧ ((busy .ready).thr 1).task.isSome = true ∧ (busy .ready).drained 1 = true ∧ ((busy .waiting).thr 1).st = .waiting) ∧
     ((inc.thr 1).incoming = some 5 ∧ (inc.thr 1).st = .idle ∧ (inc.thr 1).staged = some 5) ∧
     (rd.eligible 5 1 = true ∧ (rd.task 5).st = .ready ∧ soon.eligible 5 1 = true ∧ (soon.task 5).st = .dormant ∧ soon.dueSoon 5 = true) ∧
     ((adm.setTimer 31 (some tm)).timer 31 = some tm ∧ adm.instReached tm = true) ∧
     (fld ((busy .ready).task ((busy .ready).taskOn 1)).w3 31 16 ≠ 0 ∧ ((busy .ready).task 6).ovr = false ∧
       fld ((busy .ready).task 6).w3 31 16 * 16 < (busy .ready).runUsed 6) ∧
     (adm.ctlAllowed m2 (adm.taskPart 5) = true ∧ obs.ctlAllowed m2 (obs.taskPart 5) = false ∧ (adm.task 5).st = .disabled ∧ (rd.task 5).st ≠ .disabled)) := by
  decide +kernel

theorem witness_wake :
    (let s := fun (x : TaskSt) (p : Bool) => base.setTask 6143 { st := x, pend := p }
     6143 < 6 * 1024 ∧ (s .disabled false).taskDrains 6143 = false ∧ ((s .disabled false).task 6143).st = .disabled ∧
     ((s .dormant false).task 6143).st = .dormant ∧ ((s .running false).task 6143).pend = false ∧ ((s .running true).task 6143).pend = true ∧
     (s .running true).taskDrains 6143 = false) := by decide +kernel

theorem witness_mailboxes :
    (let s := put adm [(Reg.MB_CFG 0 127, 0x80000000#32)]
     let r := put adm [(Reg.MB_CFG 0 127, 0xC0000000#32)]
     (s.mbEn 0 127 = true ∧ s.mbReach m2 0 127 = true ∧ s.mbSends m2 0 127 = true ∧ (s.mbox 127).full = false ∧ s.mbDir 0 127 = false ∧
       s.tasksOfSource 0 4 127 = []) ∧
     (r.mbReach m2 0 127 = true ∧ r.mbSends m2 0 127 = false ∧ (r.mbox 127).full = false ∧ ((r.setMbox 127 { full := true }).mbox 127).full = true)) := by
  decide +kernel

theorem witness_voter :
    (let s := put adm [(Reg.VRM_CH_CFG 255, 0x20001000#32), (Reg.VRM_CH_IN 255 0, 0x80000000#32), (Reg.PAI_LINK, 0x60000000#32)]
     let y := (s.setVch 255 { st := 1 }).inc Reg.PAI_VOTE_RX
     let p := upAt (base.setPcb 511 { w0 := 0x80000000#32, interval := 5 }) secU
     (s.pairUp = true ∧ (y.vch 255).st ≠ 2 ∧ y.slotsOf 255 2 0 0 = [0] ∧ y.slotsOf 255 2 0 1 = [] ∧ (s.vch 255).st = 2) ∧
     (y.isAdmin m2 = true ∧ y.tripped 255 = true ∧ y.rb (Reg.VRM_CH_CFG 255) 12 = true ∧ (put y [(Reg.VRM_CH_IN 255 0, 0#32)]).chT 255 < (put y [(Reg.VRM_CH_IN 255 0, 0#32)]).chKeff 255 ∧
       s.tripped 255 = false) ∧ ((base.updThr 1 fun t => { t with task := some 3 }).thr 1).task = some 3 ∧
     ((p.pcb 511).en = true ∧ (p.pcb 511).interval ≠ 0 ∧ (p.pcb 511).lastAt + (p.pcb 511).interval ≤ p.up)) := by decide +kernel

/-- A channel of one slot that trips, and one that does not. -/
theorem witness_voting :
    (let s := put base [(Reg.VRM_CH_CFG 255, 0x20000000#32)]
     let t := s.setVch 255 { st := 0, s0 := { val := 2 } }
     let n := s.setVch 255 { st := 0, s0 := { val := 1 } }
     (((t.judgeChan 255).vch 255).st = 0 ∧ (t.judgeChan 255).chBlocked 255 = false ∧ (t.judgeChan 255).chKeff 255 ≤ (t.judgeChan 255).chT 255) ∧
     ¬((n.judgeChan 255).chKeff 255 ≤ (n.judgeChan 255).chT 255)) := by decide +kernel

theorem witness_field_io :
    (let s := upAt ((put adm [(Reg.FIO_OUT_CFG 31, 0xC0000000#32), (Reg.FIO_IN_CFG 31, 0x80000001#32)]).setFout 31 { on := true, testArm := some 0 }) secU
     let t := { s with pwr := { s.pwr with st := .test } }
     let a := t.setFout 31 { testArm := some (2 * secU) }
     let ch := s.setFinp 31 { chatter := true }
     ((s.fout 31).on = true ∧ s.pwr.st ≠ .safe ∧ (s.votesDrive && s.tripped (s.rf (Reg.FIO_OUT_CFG 31) 23 16)) = false ∧
       (s.fout 31).onAt + s.rf (Reg.FIO_OUT_CFG 31) 3 0 * 10 * msU ≤ s.up ∧ (s.fout 31).armUntil ≤ s.up ∧ (s.fout 31).testArm = some 0) ∧
     (s.isAdmin m2 = true ∧ s.pwr.st ≠ .test ∧ t.pwr.st = .test ∧ t.outOn 31 = true ∧ t.outOn 30 = false ∧ a.armed 31 = true ∧ t.armed 31 = false) ∧
     (s.rb (Reg.FIO_IN_CFG 31) 31 = true ∧ (s.finp 31).chatter = false ∧ (s.finp 31).level ≠ true ∧ 0 + s.rf (Reg.FIO_IN_CFG 31) 7 0 * 100 * usU ≤ s.time) ∧
     ((ch.finp 31).chatter = true ∧ ch.rb Reg.FIO_SOE_CFG 31 = false ∧ (ch.finp 31).level = false)) := by decide +kernel
/-- A command of the session on management port 2, waiting as the frame of its port, in device state d. -/
def cmd (s : State) (d : DevState) (c part : Nat) (payload : List Byte := []) : State :=
  { s.updMport 2 fun q => { q with frame := some ⟨c, 1, 1, part, payload⟩ } with pwr := { s.pwr with st := d } }

/-- The frame that waits on port 2, and the state with it taken. -/
def frameOf (s : State) : MgtFrame := (s.mport 2).frame.getD ⟨0, 0, 0, 0, []⟩
def taken (s : State) : State := s.taken 2 (frameOf s)

/-- The session of port 2 as OWNER of partition 1. -/
def own : State := { withSess 1 with cfg := { base.cfg with env := base.cfg.env.sd {} 1 { w := [0x80000000#32, 0x00000300#32] } } }

theorem witness_images :
    (let a := Actor.port 2
     let s := fun c => cmd (put adm [(Reg.DDR_STATUS, 2#32)]) .service c 1
     let st : Option Staging := some ⟨a, []⟩
     (([0x20, 0x21, 0x22, 0x23, 0x24, 0x25, 0x26, 0x27, 0x28].all fun c =>
       let x := taken (s c)
       (s c).mport 2 == { (s c).mport 2 with frame := some (frameOf (s c)) } && (frameOf (s c)).cmd == c && x.actAdmin a && adminOrPart a (frameOf (s c)) x &&
         x.mayArm a && imgStates.contains x.pwr.st && armStates.contains x.pwr.st && !x.bootRuns && !x.arming && x.rf Reg.DDR_STATUS 1 0 == 2 &&
         x.cfg.verifying == none && x.cfg.checking == none) = true) ∧
     (({ s 0x21 with cfg := { adm.cfg with staging := st } }).cfg.staging = st ∧ (taken { s 0x23 with cfg := { adm.cfg with removes := [1] } }).holdsPart 1 1 = true) ∧
     (((taken (s 0x24)).setPart 1 { st := 4 }).part 1).st = 4 ∧ ({ adm.cfg with shadow := .staged }).shadow ≠ .none ∧
     (let d := taken { s 0x27 with cfg := { adm.cfg with armBy := some a } }
      d.cfg.armBy.isSome = true ∧ d.commitDue = false ∧ d.arming = true ∧ d.cfg.preloaded = false) ∧
     (31 < unitCount 6 ∧ adm.cfg.armBy = none ∧ adm.ind.commit = none ∧ adm.cfg.autoAt = none ∧ ({ adm with cfg := { adm.cfg with retires := [4] } }).commitWanted = true)) ∧
    (taken (cmd own .service 0x20 1)).actOwns (.port 2) 1 = true := by decide +kernel

theorem witness_partitions :
    (let s := fun c => cmd (put adm [(Reg.CFG_TILE 7, 0x08000000#32), (Reg.CFG_TILE 8, 0x20000000#32)]) .service c 15
     let x := taken (s 0x29)
     let p := fun n => upAt (adm.setPart 15 { st := n }) secU
     let u := upAt ((put adm [(Reg.IND_ACLK_CFG 0, 0x80000000#32)]).setUnitReq (8192 * 3 + 0) { since := some 0, pendReq := none, req := 1 }) (2 ^ 60)
     (x.tileState 7 = 0 ∧ x.retirable 7 = true ∧ (taken (s 0x2A)).tileState 8 = 1 ∧ 8 ∉ (taken (s 0x2A)).cfg.bist ∧ 8 ∈ ({ adm.cfg with bist := [8] }).bist) ∧
     (((p 4).part 15).st = 4 ∧ ((p 6).part 15).st = 6 ∧ ((p 7).part 15).st = 7 ∧ (frameOf (s 0x2B)).part < 16) ∧
     (((p 5).part 15).st = 5 ∧ ((p 5).part 15).drainAt + (p 5).rf (Reg.CFG_PART_CFG 15) 15 0 * usU ≤ (p 5).up ∧ (p 5).holdingTasks 15 = []) ∧
     (let t := upAt { put adm [(Reg.CFG_CTRL, 1#32)] with pwr := { adm.pwr with st := .service } } secU
      t.pwr.st = .service ∧ t.rf Reg.CFG_CTRL 15 0 ≠ 0 ∧ t.cfg.bistAt + t.rf Reg.CFG_CTRL 15 0 * secU ≤ t.up) ∧
     ((u.unitReq (8192 * 3 + 0)).since = some 0 ∧ u.unitMatches 3 0 = false ∧ (u.unitReq (8192 * 3 + 0)).mismatch = false ∧ 0 + 2 * u.rf Reg.CFG_CP 15 0 * msU < u.up)) := by
  decide +kernel

theorem witness_authority :
    (let k := fun (s : State) => { s with sab := { s.sab with otp := { s.sab.otp with kill := true } } }
     let o := taken (cmd obs .service 0x2C 1)
     (o.actAdmin (.port 2) = false ∧ o.actOwns (.port 2) 1 = false ∧ (frameOf (cmd obs .service 0x2C 1)).cmd = 0x2C) ∧
     ((taken (cmd adm .boot 0x20 1)).actAdmin (.port 2) = true ∧ (taken (cmd adm .boot 0x20 1)).pwr.st ∉ imgStates ∧ (taken (cmd adm .boot 0x2C 1)).pwr.st ∉ liveStates) ∧
     ((taken (k (cmd adm .service 0x30 1))).pwr.st ∈ imgStates ∧ (taken (k (cmd adm .service 0x34 1))).pwr.st ∈ warmStates ∧
       (taken (k (cmd adm .service 0x34 1))).sab.otp.kill = true)) := by decide +kernel

theorem witness_security :
    (let a := Actor.port 2
     let s := fun c => cmd adm .service c 1
     let j : PkgJob := ⟨a, 0x30, []⟩
     let g := upAt (adm.setGrant 15 { active := true }) 1
     (([0x30, 0x31, 0x32, 0x33, 0x34, 0x35, 0x36].all fun c =>
       let x := taken (s c)
       (frameOf (s c)).cmd == c && !x.sab.otp.kill && x.actAdmin a && imgStates.contains x.pwr.st && warmStates.contains x.pwr.st && liveStates.contains x.pwr.st &&
         x.portRole 2 != .noSession && x.sab.job == none && x.sab.signing == none && x.sab.fifo.length == 0) = true) ∧
     (({ adm.sab with job := some j }).job.isSome = true ∧ ({ adm.sab with signing := some (⟨2, [], []⟩, 0, []) }).signing.isSome = true ∧
       4 ≤ (List.replicate 4 (⟨2, [], []⟩ : AttReq)).length) ∧
     (pkgKind [0, 0, 0, 0, 0, 3] = 3 ∧ pkgKind [0, 0, 0, 0, 0, 2] = 2) ∧
     (let t := put adm [(Reg.SAB_TAMP_CFG, 0x00080001#32)]
      t.pwr.vaux = true ∧ t.rb Reg.SAB_TAMP_CFG (16 + 3) = true ∧ t.rb Reg.SAB_TAMP_CFG 0 = true) ∧ ((g.grant 15).active = true ∧ (g.grant 15).until_ ≤ g.up)) := by
  decide +kernel

theorem witness_pci_express :
    (let s := put adm [(Reg.PCI_LINK_STATUS 0, 0x80000000#32), (Reg.PCI_DMA_CFG 15, 0x80000000#32), (Reg.PCI_DMA_STATUS 15, 1#32), (Reg.PCI_DMA_HEAD 15, 1#32),
       (Reg.PCI_B2_CFG 0, 2#32), (Reg.PCI_DMA_IRQ 15, 1#32), (Reg.PCI_DMA_HQ_LO 15, 0xFFFFFFFF#32)]
     let q := (s.setEgq (egKey 64 0) [3]).setCopy 3 { live := true, startAt := some 0 }
     let i := upAt (put s [(Reg.PCI_DMA_CFG 15, 0xC0FFFFFF#32), (Reg.PCI_CFG, 0#32), (Reg.OCH_POOL_CFG 3, 0xFFFFFFFF#32)]) secU
     let sg := upAt (s.setDma 15 { unsig := some 0 }) secU
     (s.linkThere 0 = true ∧ s.linkUp 0 = true ∧ s.dmaRuns 15 = true ∧ s.rb (Reg.PCI_DMA_CFG 15) 30 = false ∧ s.dmaFull 15 = true ∧
       s.rf (Reg.PCI_DMA_STATUS 15) 1 0 ≠ 2 ∧ (put s [(Reg.PCI_DMA_STATUS 15, 2#32)]).rf (Reg.PCI_DMA_STATUS 15) 1 0 = 2) ∧
     (q.dmaNext 15 = some 0 ∧ q.egq (egKey (64 + 0) 0) = 3 :: []) ∧
     (i.dmaRuns 15 = true ∧ i.rb (Reg.PCI_DMA_CFG 15) 30 = true ∧ i.dmaFull 15 = true ∧ tokenU ≤ (i.dma 15).tok.now (i.rf (Reg.PCI_DMA_CFG 15) 23 0) 64 i.up) ∧
     (sg.rf (Reg.PCI_DMA_IRQ 15) 15 0 ≠ 0 ∧ (sg.dma 15).unsig.isSome = true ∧ (sg.dma 15).sigAt = none) ∧
     (i.strict = true ∧ regRow (0x1FFFFC / 4 * 4) = none ∧ s.rb (Reg.PCI_B2_CFG 0) 1 = true ∧
       s.hostReadable (s.rf (Reg.PCI_APER_BASE 0 0) 11 0 * 8388608 + 0) = false)) := by decide +kernel
/-- A pool from which an injected frame of 64 bytes has its buffer. -/
theorem witness_inject : (let s := put base [(Reg.OCH_POOL_CFG 3, 0x96000004#32)]
    ((s.alloc 48 64).1 = some 0) ∧ 64 ≤ 9600) := by decide +kernel

theorem witness_management_port :
    (let s := put base [(Reg.MGT_PORT_CFG 0, 0x80000000#32), (Reg.MGT_PORT_CFG 2, 0x80000001#32), (Reg.MGT_PORT_CFG 4, 0x80000000#32), (Reg.MGT_PORT_CFG 5, 0x80000000#32),
       (Reg.PAI_CFG, 0x40000000#32), (Reg.PAI_LINK, 0x60000000#32)]
     let f : MgtFrame := ⟨0x01, 1, 1, 0, [3, 1, 0, 0, 0x22]⟩
     let o : Opening := { sid := 1, slot := 3, ver := 0x22, np := [], nd := [], vers := [], at_ := 0 }
     let q := upAt (s.updMport 2 fun p => { p with frame := some f, opening := some o, asm := some ⟨1, [], 0, 0⟩, lockedUntil := some 0, sess := some (sess 0) }) (10 * secU)
     (s.portOn 0 = true ∧ (s.mport 0).frame = none ∧ (s.mport 0).busy = none ∧ (q.mport 2).frame.isSome = true) ∧
     (s.portOn 2 = true ∧ s.portOn 4 = true ∧ s.portOn 5 = true ∧ s.rb Reg.PAI_CFG 30 = true ∧ 3 ≤ s.rf Reg.PAI_LINK 31 29) ∧
     ((q.mport 2).asm = some ⟨1, [], 0, 0⟩ ∧ 0 + 2 * secU ≤ q.up ∧ (s.mport 3).rspUnits = [] ∧ ((s.updMport 3 fun p => { p with rspUnits := [[1]] }).mport 3).rspUnits = [1] :: []) ∧
     ((q.mport 2).frame = some f ∧ f.cmd = 0x01 ∧ (q.mport 2).lockedUntil = some 0 ∧ 0 ≤ q.up ∧ (s.mport 2).lockedUntil = none ∧
       versionOf (byteAt f.payload 1).toNat ((f.payload.drop 4).take 8) = some 0x22 ∧ versionOf 1 [0x33] = none) ∧
     ((q.mport 2).opening = some o ∧ o.at_ + 10 * secU ≤ q.up ∧ (s.mport 2).opening = none) ∧
     ((q.mport 2).sess = some (sess 0) ∧ 0 < q.rf (Reg.MGT_PORT_CFG 2) 11 0 ∧ (sess 0).lastAt + q.rf (Reg.MGT_PORT_CFG 2) 11 0 * secU ≤ q.up)) := by decide +kernel

/-- A proof that holds, whatever the MAC is: its payload is the MAC of the opening. -/
theorem witness_open_proof :
    let o : Opening := { sid := 1, slot := 3, ver := 0x22, np := [], nd := [], vers := [], at_ := 0 }
    let s := base.setCred 3 { loaded := true, ports := 4 }
    let f : MgtFrame := ⟨0x02, 1, 1, 0, Config.kmac256 (s.cred 3).key (o.proofOver 2) 256 "MGT OPEN P"⟩
    let x := s.updMport 2 fun p => { p with frame := some f, opening := some o }
    (x.mport 2).frame = some f ∧ f.cmd = 0x02 ∧ (x.mport 2).opening = some o ∧ f.sid = o.sid ∧ o.slot < 16 ∧ (x.cred 3).loaded = true ∧
      tbit (BitVec.ofNat 32 (x.cred 3).ports) 2 = true ∧ f.payload = Config.kmac256 (x.cred 3).key (o.proofOver 2) 256 "MGT OPEN P" :=
  ⟨rfl, rfl, rfl, rfl, by decide, rfl, rfl, rfl⟩

/-- The other commands of the session, each as the waiting frame. -/
theorem witness_protocol_commands : (([0x03, 0x04, 0x10, 0x11, 0x12].all fun c => (frameOf (cmd adm .service c 0)).cmd == c &&
    ((cmd adm .service c 0).mport 2).frame == some (frameOf (cmd adm .service c 0))) = true) := by decide +kernel

theorem witness_pair_link :
    (let n := put base [(Reg.PAI_LINK, 0x40000000#32), (Reg.PAI_CFG, 0x80000000#32)]
     let h := { n with pai := { n.pai with lane0 := true } }
     let g := { n with pai := { n.pai with lane0 := true, helloSent := true, helloSeen := some (true, false) } }
     let df := put h [(Reg.PAI_LINK, 0x80000000#32)]
     let u := upAt (put base [(Reg.PAI_LINK, 0x60000000#32), (mbCfgReg 0 143, 0x80000000#32)]) secU
     let w := (u.setCopy 3 { live := true, eg := 21, tc := 7, startAt := some 0, len := 64 }).setEgq (egKey 21 7) [3]
     (h.pairEn = true ∧ h.linkSt = 2 ∧ h.laneUp = true ∧ h.pai.helloAt ≤ h.up ∧ h.pai.helloSeen = none ∧ h.pai.helloSent = false ∧
       g.pai.helloSeen = some (true, false) ∧ g.pai.helloSent = true ∧ base.pairEn = false ∧ df.linkSt = 4 ∧ (df.setLanes true true).laneUp = true ∧
       (df.setLanes false false).laneUp = false) ∧
     (u.pairUp = true ∧ u.pai.hbAt ≤ u.up ∧ (7 : BitVec 16) ∉ u.pai.rxHb ∧ (7 : BitVec 16) ∈ ({ u.pai with rxHb := [7] }).rxHb ∧
       u.pai.missFrom + u.rf Reg.PAI_CFG 24 15 * usU ≤ u.up ∧ (7 : BitVec 16) ∉ u.pai.rxMbx) ∧
     (u.rb (mbCfgReg 0 143) 31 = true ∧ u.mbDir 0 143 = false ∧ u.rf (mbCfgReg 0 143) 29 27 < 6) ∧
     (verdictFail 8 = true ∧ verdictFail 7 = false ∧ w.creditWaited 7 = true ∧ (319 : BitVec 9).toNat < 320)) := by decide +kernel

theorem witness_recorder_and_memory :
    (let j : RecJob := { slot := 0, time := 0, gt := 0, src := 0, ins := 0, outs := 0, chans := [], tq := 0, at_ := 0, gap := false }
     let s := (put adm [(Reg.REC_SET_CFG 15, 0x80000001#32), (Reg.REC_FETCH_CFG 0 7, 0x80000000#32), (Reg.DDR_STATUS, 2#32)]).setRecSet 15 { job := some j }
     let f := { s.setFetchU 7 { w1 := 0#32, status := 1 } with ddr := { s.ddr with histHi := s.ddr.histHi.sd 0 0 1 } }
     ((s.recSet 15).job = some j ∧ s.recordFull 15 j = true ∧ s.rb (Reg.REC_SET_CFG 15) 31 = true ∧ s.rb (Reg.REC_SET_CFG 14) 31 = false) ∧
     (s.fetchUnitOf 0 7 0 = true ∧ (s.fetchU 7).status ≠ 1) ∧
     ((f.fetchU 7).status = 1 ∧ f.histHolds 0 (fetchFirst (f.histHi 0) 0#32) = true ∧ fld (f.fetchU 7).w2 27 16 + 1 = 1 ∧
       (s.histHolds 0 (fetchFirst (s.histHi 0) 0#32)) = false ∧ f.ddr.bad.gd false (f.histAddr 0 0 / 64) = false) ∧
     (s.ddrState = 2 ∧ (put s [(Reg.DDR_STATUS, 1#32)]).ddrState = 1 ∧ s.rb Reg.DDR_STATUS 7 = decide (s.ddr.cool < 4) ∧
       (put s [(Reg.DDR_STATUS, 0x82#32)]).rb Reg.DDR_STATUS 7 ≠ decide (s.ddr.cool < 4))) := by decide +kernel

theorem witness_debug :
    (let s := put adm [(thrCfgReg 1, 0x80000000#32), (Reg.CLU_SRAM_RGN 0 0, 0x83FF8000#32), (Reg.CLU_DBG_BP 0 0 3, 0x80000000#32), (Reg.CLU_PMEM_RGN 0 0 3, 0xFFFF0000#32),
       (Reg.CLU_PMEM_RGN 0 0 2, 0x0000FFFF#32)]
     let g := s.setGrant 0 { active := true, control := true, session := true }
     let r := g.updThr 1 fun x => { x with st := .ready }
     let h := g.updThr 1 fun x => { x with st := .halted }
     (s.dbgAllowed m2 0 true = false ∧ g.dbgAllowed m2 0 true = true ∧ g.dbgAllowed m2 0 false = true) ∧
     (r.canHalt 1 = true ∧ h.canHalt 1 = false ∧ (h.thr 1).st = .halted ∧ (r.thr 1).st ≠ .halted) ∧
     (h.dbgMemPart 0 1 0 0 = some 0 ∧ h.dbgMemPart 0 1 1 0 = some 0 ∧ h.dbgMemPart 0 1 2 511 = some 0 ∧ h.dbgMemPart 0 1 3 0 = some 0 ∧
       h.dbgWritable 0 0 0 = true ∧ h.dbgWritable 0 1 0 = true) ∧
     (r.bpHit 1 = some 3 ∧ r.rb (Reg.CLU_DBG_BP 0 0 3) 28 = false) ∧
     (adm.dbg.lockedUntil = none ∧ ({ adm.dbg with lockedUntil := some 0 }).lockedUntil = some 0 ∧ adm.tapMayDrive = false ∧
       ({ adm with pwr := { adm.pwr with st := .test }, dbg := { adm.dbg with bound := some 0, boundAdmin := true } }).tapMayDrive = true)) := by decide +kernel

theorem witness_power_and_boot :
    (let s := { adm with pwr := { adm.pwr with st := .service, resetHigh := true } }
     let b := fun (p : BootPhase) => { s with pwr := { s.pwr with engine := { s.pwr.engine with phase := p, abort := true } } }
     let v : Word := 0x73400000#32
     (s.pwr.st ≠ .cold ∧ s.pwr.resetHigh = true ∧ adm.pwr.resetHigh = false ∧ s.pwr.vaux = true ∧ ({ s.pwr with vaux := false }).vaux = false) ∧
     (resetKey v = true ∧ fld v 5 0 = 0 ∧ resetKey 0#32 = false ∧ s.pwr.st ∈ [DevState.test, .service, .recovery] ∧ s.arming = false) ∧
     (({ s.clu with resetting := s.clu.resetting.sd false 5 true }).resetting.gd false 5 = true ∧ adm.pwr.st = .boot ∧ s.ddrState ≠ 1) ∧
     (s.engineWaits = false ∧ s.pwr.engine.abort = false ∧ (b .check).engineWaits = false ∧ (b .check).bootRuns = true ∧
       ({ b .check with cfg := { s.cfg with checking := some .engine } }).engineWaits = true) ∧
     (s.pwr.avsOff = false ∧ s.rb Reg.PWR_AVS 30 = false ∧ s.pwr.avsFails < 2 ∧ 2 ≤ ({ s.pwr with avsFails := 2 }).avsFails ∧ (s.pause 0).ignoreUntil ≤ s.up)) := by
  decide +kernel

/-- A row of each access kind that the statement on register writes names; a plain register with no effect of its own; a lock that is set. -/
theorem witness_register_rows : (([(Reg.SYS_STATE, Access.ro), (Reg.FWD_LQ_POP, .rtt), (Reg.PCI_STATUS, .sqc), (0x16004, .rwl), (Reg.DBG_MEM_ADDR, .rw)] :
    List (Nat × Access)).all fun p => (regRow p.1).any fun r => r.acc == p.2) = true ∧ adm.mayWrite m2 Reg.IND_TIME_CTRL = true ∧
    obs.mayWrite m2 Reg.IND_TIME_CTRL = false ∧ (adm.putFabric m2 Reg.DBG_MEM_ADDR 0).isNone = true ∧ wideOf Reg.DBG_MEM_ADDR = none ∧
    wideOf 0x3008 = some (0x3008, 0, 3) ∧ adm.rb Reg.SAB_CFG 31 = false ∧ (put adm [(Reg.SAB_CFG, 0x80000000#32)]).rb Reg.SAB_CFG 31 = true := by
  decide +kernel

theorem witness_pending_events :
    (let s := put adm [(Reg.CLU_EVT_PEND 5 9, 0x80000000#32), (Reg.EVT_ALARM_PEND 0, 1#32), (Reg.PAI_PEER_EVT_PEND 9, 0x80000000#32)]
     s.lowestPending (Reg.CLU_EVT_PEND 5) = some 319 ∧ s.lowestPending Reg.EVT_ALARM_PEND = some 0 ∧ s.lowestPending Reg.PAI_PEER_EVT_PEND = some 319 ∧
     adm.lowestPending Reg.EVT_ALARM_PEND = none ∧ adm.mayTake m2 Reg.EVT_ALARM_TAKE = true ∧ evReserved 319 = false ∧ evReserved 0 = false) := by decide +kernel

/-- The invariant of EveryStepKeepsTheCanonicalForms holds at reset, and with a byte stored. -/
theorem witness_canonical : Memory.wf State.reset = true ∧ Registers.wf State.reset = true ∧ Memory.wf mem0 = true ∧ Registers.wf base = true := by decide +kernel

/-- An instruction of each kind that the round trip names, with operands at a bound. -/
theorem witness_round_trip : (([.ld t0 0x1FF, .ldl t0 0xFFFFF, .bz t0 7 63, .loopi t0 31 15, .cdft t0 7 7 7 7 31, .shf t0 3 39, .relExit t0 7] : List Instr).all fun i =>
    rosThread i == some t0 && rosWf i) = true := by decide +kernel
/-! ## Further clauses of the statements on the fabric -/

/-- A step that is wanted, the sixteenth update of ACQUIRING, LOCKED with a copy due; a domain that is ours and one that is not. -/
theorem witness_time_states :
    (let q := { adm with ind := { adm.ind with st := .acquiring, lockN := 15 } }
     let big := q.setTinSrc 0 { seen := true, qual := true, off := 2 ^ 40 }
     let lk := { adm with ind := { adm.ind with st := .locked } }
     (big.ind.st = .acquiring ∧ big.stepWanted 2 = true) ∧ ((q.offsetOf 2).natAbs ≤ q.rf Reg.IND_SRC_THR 15 0 ∧ q.ind.lockN = 15) ∧
     (lk.ind.st = .locked ∧ lk.copyDue = true) ∧ (adm.ptpOurs 0 = true ∧ adm.ptpOurs 1 = false)) := by decide +kernel

/-- A LOCKED clock on its secondary, with and without the primary back; a HELD clock with the secondary alone. -/
theorem witness_secondary_reference :
    (let c0 : AngleClock := { st := .locked, src2 := true, est := 50 * hzU, badSec := 8 }
     let e : RefEstimate := ⟨BitVec.ofNat 32 (50 * hzU), 0xFFFF⟩
     let s := put base [(Reg.IND_ACLK_CFG 0, 0x80000000#32), (Reg.IND_ACLK_LIM 0, 0x00010000#32), (Reg.IND_ACLK_SRC2 0, 0x80000000#32)]
     let lk := s.setAclk 0 c0
     let ok := s.setAclk 0 { c0 with qualPri := 4 }
     let hd := s.setAclk 0 { c0 with st := .held, qualSec := 4 }
     ((lk.aclk 0).st = .locked ∧ (lk.aclk 0).src2 = true ∧ 8 ≤ (lk.aclk 0).badSec) ∧
     ((lk.countCycle 0 e ⟨0, 0⟩).refLost 0 ⟨0, 0⟩ = true ∧ (lk.countCycle 0 e e).refLost 0 e = false ∧ lk.phaseMag 0 ≤ 357913941 ∧
       ((lk.countCycle 0 e e).aclk 0).qualPri < 4 ∧ 4 ≤ ((ok.countCycle 0 e e).aclk 0).qualPri) ∧
     ((hd.aclk 0).st = .held ∧ ((hd.countCycle 0 e e).aclk 0).qualPri < 4 ∧ 4 ≤ ((hd.countCycle 0 e e).aclk 0).qualSec)) := by decide +kernel

/-- Verification at each of its events; a segment that is the coordinator with a BEACON due, and one that is not. -/
theorem witness_verify_and_plca :
    (let s := put base [(Reg.ETH_PORT_CFG 0, 0x80000600#32), (Reg.ETH_PORT_STATUS 0, 0x24#32), (Reg.ETH_PREEMPT 0, 0xC0000000#32)]
     let w := put s [(Reg.ETH_PORT_STATUS 0, 0x44#32)]
     let g := put base [(Reg.T1S_SEG_CFG 3, 0xC0000000#32)]
     let h := put base [(Reg.T1S_SEG_CFG 3, 0xD0000000#32)]
     (s.rb (Reg.ETH_PORT_STATUS 0) 2 = true ∧ s.rb (Reg.ETH_PREEMPT 0) 31 = true ∧ s.rf (Reg.ETH_PORT_STATUS 0) 7 5 = 1 ∧ (s.verify 0).tries < 3 ∧
       w.rf (Reg.ETH_PORT_STATUS 0) 7 5 = 2) ∧
     (g.plcaNode 3 = 0 ∧ g.beaconDue 3 = true ∧ g.segBusy 3 = false ∧ h.plcaNode 3 ≠ 0 ∧ h.segOn 3 = true ∧ h.rb (Reg.T1S_SEG_CFG 3) 30 = true)) := by
  decide +kernel

/-- A frame that nothing classifies before, on a port without PRP. -/
theorem witness_classify_next :
    (let c := upAt (fr base 3 { live := true, port := 15, bytes := List.replicate 64 0, parse := some {} }) (180 * nsU)
     c.onPrp 15 = false ∧ c.clsBefore 3 = false ∧ c.commitDue = false) := by decide +kernel

/-- A cell that has fallen due unwritten: of a RUNNING stream, of a merged one, of a PAUSED one. -/
theorem witness_cell_unwritten :
    (let s := upAt ((put base [(Reg.IND_ACLK_CFG 0, 0x80004000#32)]).setAclk 0 { st := .locked, val := 2 * cycU, hist := [(0, 0)] }) secU
     let a := fun (st : StreamSt) (w : List Word) => s.setStream 9 { st := st, due := some 7, next := some 7, w := w }
     (([a .running [], a .running [0, 0, 0, 0, 0x80000000#32], a .paused []] : List State).all fun z => !(z.stream 9).wrote 7 &&
       (z.stream 9).due == some 7 && (match z.dueTime 9 7 with | some t => Frac.le t ⟨z.time, 1⟩ | none => false) &&
       (z.timeOfVal 0 (gridVal 7 (z.aclkG 0))).isSome) = true ∧
     ((a .running [0, 0, 0, 0, 0x80000000#32]).stream 9).merge = true ∧ ((a .running []).stream 9).merge = false) := by decide +kernel

/-- A MAC entry put by a command and found; a bad slot; a visit that is due to an entry without a hit and one with it. -/
theorem witness_mac_table :
    (let s := put adm [(Reg.FWD_CMD_ENT 0 0, 5#32), (Reg.FWD_CMD_ENT 0 2, 1#32), (Reg.FWD_CMD_ENT 0 3, 1#32)]
     let f := next (.fwdInsert m2 0 0#32) s
     let e := s.fwdStaged 0
     let y := f.fwdDetect e.fid e.mac
     let d := upAt (put adm [(Reg.FWD_CFG, 1#32)]) (2 ^ 70)
     let v := d.setMac 0 ({ w0 := 5, w2 := 0x80000001#32 } : MacSlot).withPar
     let h := d.setMac 0 ({ w0 := 5, w2 := 0xA0000001#32 } : MacSlot).withPar
     (e.egress ≠ 0 ∧ (s.fwdDetect e.fid e.mac).fwdParity e.fid e.mac = false ∧ (s.fwdDetect e.fid e.mac).fwdFind e.fid e.mac = none ∧
       (y.fwdFind e.fid e.mac).isSome = true ∧ ((s.setMac 7 { bad := true }).mac 7).isBad = true ∧ adm.handleOk 0 = true ∧ (adm.buf 0).bad = false) ∧
     (v.sweepDue = true ∧ v.rf Reg.FWD_SWEEP 15 0 = 0 ∧ (v.mac 0).isBad = false ∧ (v.mac 0).valid = true ∧ (v.mac 0).static_ = false ∧
       (v.mac 0).hit = false ∧ (h.mac 0).hit = true ∧ (h.mac 0).isBad = false ∧ v.och.macHits = [])) := by decide +kernel

/-- The task that would be staged next; a timer that fires late. -/
theorem witness_staging :
    (let tk : Task := { w0 := 0x80000000#32, w1 := 0xFFFF0000#32, w3 := 0x00010000#32, st := .ready }
     let rd := ((put adm [(thrCfgReg 1, 0x80000000#32)]).setTask 5 tk).setReady 0 [5]
     let tm : ArmedInstant := ⟨.ptp 0, 0, true⟩
     rd.stageFor 1 = some (1024 * 0 + 5) ∧ (adm.setTimer 31 (some tm)).timer 31 = some tm ∧ adm.instReached tm = true ∧ adm.lanesAsk = false) := by
  decide +kernel

/-- An ARM at once in CONFIG that is accepted. -/
theorem witness_arm :
    (let x := taken (cmd { adm with cfg := { adm.cfg with shadow := .checked } } .config 0x26 0 (List.replicate 16 0))
     x.mayArm (.port 2) = true ∧ x.pwr.st ∈ armStates ∧ x.bootRuns = false ∧ x.clu.resetting.any (·.2) = false ∧ x.cfg.verifying = none ∧
     x.cfg.checking = none ∧ x.cfg.shadow = .checked ∧ x.armResult (descOfBytes (List.replicate 16 0)) = 0) := by decide +kernel

/-- An ATTEST that comes too soon, one after the kill, one with an index, one while a signature is under way. -/
theorem witness_attest :
    (let x := taken (cmd adm .service 0x33 1)
     let so := { x with sab := { x.sab with lastSig := some 0 } }
     let kl := { x with sab := { x.sab with otp := { x.sab.otp with kill := true } } }
     let bz := { x with sab := { x.sab with signing := some (⟨2, [], []⟩, 0, []) } }
     (x.portRole 2 ≠ .noSession ∧ x.pwr.st ∈ liveStates ∧ x.sab.signing = none ∧ x.sab.lastSig = none ∧ x.sab.otp.kill = false ∧
       (x.takeIndex []).1 = some 0) ∧
     (so.sab.lastSig = some 0 ∧ so.up < 0 + so.rf Reg.SAB_CFG 15 0 * secU) ∧ kl.sab.otp.kill = true ∧
     (bz.sab.signing.isSome = true ∧ bz.sab.fifo.length < 4)) := by decide +kernel

/-- Fuses that read unblown for every block leave no index. -/
theorem reserve_none (l : List Nat) (s : State) (h : s.sab.block = none) : (reserve l (List.replicate (2 * l.length) false) s).sab.block = none := by
  induction l generalizing s with
  | nil => exact h
  | cons b l ih =>
    have e : List.replicate (2 * (b :: l).length) false = false :: false :: List.replicate (2 * l.length) false := by
      rw [List.length_cons, Nat.mul_add]; rfl
    have k : (s.skipBlock b).sab.block = s.sab.block := by
      unfold State.skipBlock
      rw [State.sqc_sab]; rfl
    rw [e]
    exact ih _ (by rw [k]; exact h)

/-- An ATTEST for which no block is left. -/
theorem witness_no_index : ∃ fuse, (adm.takeIndex fuse).1 = none := by
  refine ⟨List.replicate (2 * adm.sab.openBlocks.length) false, ?_⟩
  have h : (reserve adm.sab.openBlocks (List.replicate (2 * adm.sab.openBlocks.length) false)
    { adm with sab := { adm.sab with block := none } }).sab.block = none := reserve_none _ _ rfl
  have i : adm.sab.hasIndex = false := rfl
  unfold State.takeIndex
  simp only [i, h, Bool.false_eq_true, if_false]

/-- The three kinds of grant: CONTROL of partition 0 in SERVICE, no time, a time; an OWNER; a package in check. -/
theorem witness_grants :
    (let x := taken (cmd adm .service 0x35 1)
     let o := taken (cmd own .service 0x35 1)
     x.pwr.st = .service ∧ x.actAdmin (.port 2) = true ∧ o.actAdmin (.port 2) = false ∧ o.actOwns (.port 2) 1 = true ∧ x.pwr.st ∈ liveStates) := by
  decide +kernel

/-- A vector with a message pending, on a link that is up, on one that is down, and in D3hot; a unit that goes on with a frame. -/
theorem witness_messages :
    (let s := (put adm [(Reg.PCI_LINK_STATUS 0, 0x80000000#32)]).setMsix 512 { pba := true }
     let d := adm.setMsix 512 { pba := true }
     let h := { s with hst := { s.hst with d3hot := s.hst.d3hot.sd false 1 true } }
     let q := base.updMport 2 fun p => { p with asm := some ⟨1, [], 5, 0⟩ }
     ((s.msix 512).pba = true ∧ (s.msix 511).pba = false ∧ s.linkUp 0 = true ∧ s.hst.d3hot.gd false (2 * 0 + 1) = false ∧ d.linkUp 0 = false ∧
       h.hst.d3hot.gd false (2 * 0 + 1) = true) ∧
     ((q.mport 2).asm = some ⟨1, [], 5, 0⟩ ∧ q.up < 0 + 2 * secU ∧ leAt [3, 0, 1, 0, 7, 8, 9] 0 4 / 65536 % 32768 = 1 ∧
       leAt [3, 0, 1, 0x80, 7, 8, 9] 0 4 = 2147483648 + 65536 + 3 ∧ (base.mport 2).asm = none)) := by decide +kernel

/-- Requests for a state: one kept pending, one refused, SAFE, a code of no state; keys and masks of SYS_RESET; the eighth failure of a proof. -/
theorem witness_requests :
    (let s := { adm with pwr := { adm.pwr with st := .service, resetHigh := true } }
     let at_ := fun (d : DevState) => { s with pwr := { s.pwr with st := d } }
     (devOfCode 3 = some .test ∧ s.reqOk .test = true ∧ (at_ .cold).reqOk .test = false ∧ devOfCode 6 = some .safe ∧
       (at_ .cold).pwr.st = .cold ∧ (at_ .safe).pwr.st = .safe ∧ devOfCode 7 = none) ∧
     (resetKey 0x73400101#32 = true ∧ tbit 0x73400101#32 8 = true ∧ fld (0x73400001#32 : Word) 5 0 ≠ 0 ∧ (at_ .config).pwr.st ∉ [DevState.test, .service, .recovery]) ∧
     (({ adm.dbg with fails := 7 }).fails = 7 ∧ adm.dbg.fails ≠ 7 ∧ adm.jtagProves 0 0 = false ∧ pmuCfgReg Reg.DBG_MEM_ADDR = false ∧
       adm.mayTake m2 (Reg.CLU_EVT_TAKE 5) = true ∧ adm.lowestPending (Reg.CLU_EVT_PEND 5) = none ∧ adm.lowestPending Reg.PAI_PEER_EVT_PEND = none) ∧
     ((put adm [(Reg.SAB_TAMP_CFG, 0x08080000#32)]).rb Reg.SAB_TAMP_CFG (24 + 3) = true ∧ (put adm [(Reg.SAB_TAMP_CFG, 0x00080000#32)]).rb Reg.SAB_TAMP_CFG (24 + 3) = false)) := by
  decide +kernel

end Sys2Proof.Tests
end

section
/-!
SUPPORT. The areas that every operation of the model may change, from the accessors up to the commands (SPEC: the frames). Each lemma follows the
text of its operation: `within` begins with one step, `andThen` adds the next, `andIf` and `andUnless` add a step made under a condition, `each`
one made for every item of a list, and `ite` or a case split stands where the operation branches.
-/

namespace Sys2Proof.Machine

open State

-- One declaration after the other: each of a thousand short proofs would else hold a thread and its stack at once.
set_option Elab.async false

/-! ## Sequences of operations

`h.andThen h2` is a step h followed by a step h2, each within areas of the frame. -/

theorem State.OnlyChanges.within {s t : State} {l m : List Area} (h : s.OnlyChanges t m) (hm : m ⊆ l := by decide) : s.OnlyChanges t l := h.mono hm

theorem State.OnlyChanges.andThen {s t u : State} {l m : List Area} (h : s.OnlyChanges t l) (h2 : t.OnlyChanges u m) (hm : m ⊆ l := by decide) :
    s.OnlyChanges u l := h.trans (h2.mono hm)

theorem State.OnlyChanges.andIf {s t u : State} {l : List Area} {c : Prop} [Decidable c] (h : s.OnlyChanges t l) (h2 : t.OnlyChanges u l) :
    s.OnlyChanges (if c then u else t) l := by split <;> [exact h.trans h2; exact h]

theorem State.OnlyChanges.andUnless {s t u : State} {l : List Area} {c : Prop} [Decidable c] (h : s.OnlyChanges t l) (h2 : t.OnlyChanges u l) :
    s.OnlyChanges (if c then t else u) l := by split <;> [exact h; exact h.trans h2]

theorem State.OnlyChanges.each {α : Type} {s t : State} {l : List Area} {xs : List α} {f : State → α → State} (h : s.OnlyChanges t l)
    (hf : ∀ x a, State.OnlyChanges x (f x a) l) : s.OnlyChanges (Machine.each xs f t) l := h.trans (each_onlyChanges xs f l hf t)

/-- One step for each item of a list, from the state that the operation begins with. -/
theorem each_areas {α : Type} {s : State} {l : List Area} {xs : List α} {f : State → α → State} (hf : ∀ x a, State.OnlyChanges x (f x a) l) :
    s.OnlyChanges (each xs f s) l := each_onlyChanges xs f l hf s

theorem State.OnlyChanges.foldl {α : Type} {s t : State} {l : List Area} {xs : List α} {f : State → α → State} (h : s.OnlyChanges t l)
    (hf : ∀ x a, State.OnlyChanges x (f x a) l) : s.OnlyChanges (xs.foldl f t) l := h.each hf

theorem State.OnlyChanges.foldl_snd {α β : Type} {s : State} {p : β × State} {l : List Area} {xs : List α}
    {f : β × State → α → β × State} (h : s.OnlyChanges p.2 l) (hf : ∀ q a, State.OnlyChanges q.2 (f q a).2 l) :
    s.OnlyChanges (xs.foldl f p).2 l := by
  induction xs generalizing p with
  | nil => exact h
  | cons a xs ih => exact ih (h.trans (hf p a))

/-- What a step answers beside a value, through the name that a match gives it. -/
theorem State.OnlyChanges.of_snd {α : Type} {s t : State} {l : List Area} {p : α × State} {a : α} (h : s.OnlyChanges p.2 l) (e : p = (a, t)) :
    s.OnlyChanges t l := by rw [e] at h; exact h

theorem State.OnlyChanges.ite_snd {α : Type} {s : State} {l : List Area} {p q : α × State} {c : Prop} [Decidable c] (h : s.OnlyChanges p.2 l)
    (h2 : s.OnlyChanges q.2 l) : s.OnlyChanges (if c then p else q).2 l := by split <;> assumption

/-! ## Results that hold a state -/

/-- The state of an optional result, where there is one, is within the areas of s. -/
def State.OptIn (s : State) (o : Option State) (l : List Area) : Prop :=
  match o with
  | some t => s.OnlyChanges t l
  | none => True

/-- The state of a read that may find nothing. -/
def State.ReadIn (s : State) (o : Option (Word × State)) (l : List Area) : Prop :=
  match o with
  | some r => s.OnlyChanges r.2 l
  | none => True

/-- The state that an instruction's effect leads to. -/
def State.EffIn (s : State) (e : Eff) (l : List Area) : Prop :=
  match e with
  | .next t => s.OnlyChanges t l
  | .jump t => s.OnlyChanges t l
  | .wait t => s.OnlyChanges t l
  | .gone t => s.OnlyChanges t l
  | .fault t _ _ => s.OnlyChanges t l
  | .stall _ => True

/-- The state that a load leads to. -/
def State.LoadIn (s : State) (r : Load) (l : List Area) : Prop :=
  match r with
  | .bytes _ _ t => s.OnlyChanges t l
  | _ => True

/-- The state that a store leads to. -/
def State.StoreIn (s : State) (r : Store) (l : List Area) : Prop :=
  match r with
  | .done t => s.OnlyChanges t l
  | _ => True

theorem State.LoadIn.of_bytes {s t : State} {l : List Area} {r : Load} {bs : List Byte} {b : Bool} (h : s.LoadIn r l) (e : r = .bytes bs b t) :
    s.OnlyChanges t l := by rw [e] at h; exact h

theorem State.StoreIn.of_done {s t : State} {l : List Area} {r : Store} (h : s.StoreIn r l) (e : r = .done t) : s.OnlyChanges t l := by
  rw [e] at h; exact h

theorem State.OptIn.of_some {s t : State} {l : List Area} {o : Option State} (h : s.OptIn o l) (e : o = some t) : s.OnlyChanges t l := by
  rw [e] at h; exact h

theorem State.ReadIn.of_some {s : State} {l : List Area} {o : Option (Word × State)} {r : Word × State} (h : s.ReadIn o l) (e : o = some r) :
    s.OnlyChanges r.2 l := by rw [e] at h; exact h

theorem State.EffIn.ite {s : State} {l : List Area} {a b : Eff} {c : Prop} [Decidable c] (h : s.EffIn a l) (h2 : s.EffIn b l) :
    s.EffIn (if c then a else b) l := by split <;> assumption

theorem State.EffIn.mono {s : State} {l m : List Area} {e : Eff} (h : s.EffIn e m) (hm : m ⊆ l) : s.EffIn e l := by
  cases e <;> first | exact State.OnlyChanges.mono h hm | trivial

theorem State.EffIn.within {s : State} {l m : List Area} {e : Eff} (h : s.EffIn e m) (hm : m ⊆ l := by decide) : s.EffIn e l := h.mono hm

theorem State.OnlyChanges.andThenEff {s t : State} {l : List Area} {e : Eff} (h : s.OnlyChanges t l) (h2 : t.EffIn e l) : s.EffIn e l := by
  cases e <;> first | exact h.trans h2 | trivial

theorem State.LoadIn.ite {s : State} {l : List Area} {a b : Load} {c : Prop} [Decidable c] (h : s.LoadIn a l) (h2 : s.LoadIn b l) :
    s.LoadIn (if c then a else b) l := by split <;> assumption

theorem State.LoadIn.within {s : State} {l m : List Area} {r : Load} (h : s.LoadIn r m) (hm : m ⊆ l := by decide) : s.LoadIn r l := by
  cases r <;> first | exact State.OnlyChanges.mono h hm | trivial

theorem State.StoreIn.ite {s : State} {l : List Area} {a b : Store} {c : Prop} [Decidable c] (h : s.StoreIn a l) (h2 : s.StoreIn b l) :
    s.StoreIn (if c then a else b) l := by split <;> assumption

theorem State.StoreIn.within {s : State} {l m : List Area} {r : Store} (h : s.StoreIn r m) (hm : m ⊆ l := by decide) : s.StoreIn r l := by
  cases r <;> first | exact State.OnlyChanges.mono h hm | trivial

theorem State.OnlyChanges.andThenStore {s t : State} {l m : List Area} {r : Store} (h : s.OnlyChanges t l) (h2 : t.StoreIn r m)
    (hm : m ⊆ l := by decide) : s.StoreIn r l := by
  cases r <;> first | exact h.trans (State.OnlyChanges.mono h2 hm) | trivial

theorem State.OptIn.ite {s : State} {l : List Area} {a b : Option State} {c : Prop} [Decidable c] (h : s.OptIn a l) (h2 : s.OptIn b l) :
    s.OptIn (if c then a else b) l := by split <;> assumption

theorem State.OnlyChanges.some {s t : State} {l : List Area} (h : s.OnlyChanges t l) : s.OptIn (Option.some t) l := h

theorem State.OptIn.within {s : State} {l m : List Area} {o : Option State} (h : s.OptIn o m) (hm : m ⊆ l := by decide) : s.OptIn o l := by
  cases o <;> first | exact State.OnlyChanges.mono h hm | trivial

theorem State.ReadIn.ite {s : State} {l : List Area} {a b : Option (Word × State)} {c : Prop} [Decidable c] (h : s.ReadIn a l) (h2 : s.ReadIn b l) :
    s.ReadIn (if c then a else b) l := by split <;> assumption

/-! ## The end of a command -/

/-- A meaning answers a next state whatever s is, within the areas. For the meaning of a command c it is StaysWithin. -/
def State.LeadsTo (s : State) (o : Host.Outcome State Fault Refusal) (l : List Area) : Prop := ∃ u, o = .next u ∧ s.OnlyChanges u l

theorem State.closed_areas (s t : State) : t.OnlyChanges (s.closed t) [.out] := by
  refine ⟨rfl, fun x hx => ?_⟩
  cases x <;> first | rfl | simp at hx

theorem done_leadsTo {s t : State} {l : List Area} (h : s.OnlyChanges t l) (hl : [.out] ⊆ l := by decide) : s.LeadsTo (done s t) l :=
  ⟨_, rfl, h.andThen (s.closed_areas t) hl⟩

theorem State.LeadsTo.within {s : State} {o : Host.Outcome State Fault Refusal} {l m : List Area} (h : s.LeadsTo o m) (hm : m ⊆ l := by decide) :
    s.LeadsTo o l := by
  obtain ⟨u, e, hu⟩ := h
  exact ⟨u, e, hu.mono hm⟩

theorem State.LeadsTo.after {s : State} {o : Host.Outcome State Fault Refusal} {l : List Area} (h : s.LeadsTo o l) :
    s.OnlyChanges (Machine.after o s) l := by
  obtain ⟨u, rfl, hu⟩ := h
  exact hu

/-! ## One area replaced -/

theorem State.with_time (s : State) v : s.OnlyChanges { s with time := v } [.time] :=
  ⟨rfl, fun a ha => by cases a <;> first | rfl | simp at ha⟩
theorem State.with_regs (s : State) v : s.OnlyChanges { s with regs := v } [.regs] :=
  ⟨rfl, fun a ha => by cases a <;> first | rfl | simp at ha⟩
theorem State.with_rdShadow (s : State) v : s.OnlyChanges { s with rdShadow := v } [.rdShadow] :=
  ⟨rfl, fun a ha => by cases a <;> first | rfl | simp at ha⟩
theorem State.with_wrHold (s : State) v : s.OnlyChanges { s with wrHold := v } [.wrHold] :=
  ⟨rfl, fun a ha => by cases a <;> first | rfl | simp at ha⟩
theorem State.with_fv (s : State) v : s.OnlyChanges { s with fv := v } [.fv] :=
  ⟨rfl, fun a ha => by cases a <;> first | rfl | simp at ha⟩
theorem State.with_ind (s : State) v : s.OnlyChanges { s with ind := v } [.ind] :=
  ⟨rfl, fun a ha => by cases a <;> first | rfl | simp at ha⟩
theorem State.with_ing (s : State) v : s.OnlyChanges { s with ing := v } [.ing] :=
  ⟨rfl, fun a ha => by cases a <;> first | rfl | simp at ha⟩
theorem State.with_aut (s : State) v : s.OnlyChanges { s with aut := v } [.aut] :=
  ⟨rfl, fun a ha => by cases a <;> first | rfl | simp at ha⟩
theorem State.with_spe (s : State) v : s.OnlyChanges { s with spe := v } [.spe] :=
  ⟨rfl, fun a ha => by cases a <;> first | rfl | simp at ha⟩
theorem State.with_pkt (s : State) v : s.OnlyChanges { s with pkt := v } [.pkt] :=
  ⟨rfl, fun a ha => by cases a <;> first | rfl | simp at ha⟩
theorem State.with_och (s : State) v : s.OnlyChanges { s with och := v } [.och] :=
  ⟨rfl, fun a ha => by cases a <;> first | rfl | simp at ha⟩
theorem State.with_clu (s : State) v : s.OnlyChanges { s with clu := v } [.clu] :=
  ⟨rfl, fun a ha => by cases a <;> first | rfl | simp at ha⟩
theorem State.with_cpx (s : State) v : s.OnlyChanges { s with cpx := v } [.cpx] :=
  ⟨rfl, fun a ha => by cases a <;> first | rfl | simp at ha⟩
theorem State.with_vrm (s : State) v : s.OnlyChanges { s with vrm := v } [.vrm] :=
  ⟨rfl, fun a ha => by cases a <;> first | rfl | simp at ha⟩
theorem State.with_cfg (s : State) v : s.OnlyChanges { s with cfg := v } [.cfg] :=
  ⟨rfl, fun a ha => by cases a <;> first | rfl | simp at ha⟩
theorem State.with_sab (s : State) v : s.OnlyChanges { s with sab := v } [.sab] :=
  ⟨rfl, fun a ha => by cases a <;> first | rfl | simp at ha⟩
theorem State.with_hst (s : State) v : s.OnlyChanges { s with hst := v } [.hst] :=
  ⟨rfl, fun a ha => by cases a <;> first | rfl | simp at ha⟩
theorem State.with_pai (s : State) v : s.OnlyChanges { s with pai := v } [.pai] :=
  ⟨rfl, fun a ha => by cases a <;> first | rfl | simp at ha⟩
theorem State.with_ddr (s : State) v : s.OnlyChanges { s with ddr := v } [.ddr] :=
  ⟨rfl, fun a ha => by cases a <;> first | rfl | simp at ha⟩
theorem State.with_dbg (s : State) v : s.OnlyChanges { s with dbg := v } [.dbg] :=
  ⟨rfl, fun a ha => by cases a <;> first | rfl | simp at ha⟩
theorem State.with_pwr (s : State) v : s.OnlyChanges { s with pwr := v } [.pwr] :=
  ⟨rfl, fun a ha => by cases a <;> first | rfl | simp at ha⟩
theorem State.with_aut_pkt (s : State) v w : s.OnlyChanges { s with aut := v, pkt := w } [.aut, .pkt] :=
  ⟨rfl, fun a ha => by cases a <;> first | rfl | simp at ha⟩
theorem State.with_clu_cfg (s : State) v w : s.OnlyChanges { s with clu := v, cfg := w } [.clu, .cfg] :=
  ⟨rfl, fun a ha => by cases a <;> first | rfl | simp at ha⟩
theorem State.with_ind_cfg (s : State) v w : s.OnlyChanges { s with ind := v, cfg := w } [.ind, .cfg] :=
  ⟨rfl, fun a ha => by cases a <;> first | rfl | simp at ha⟩
theorem State.with_ind_vrm_cfg (s : State) v w x : s.OnlyChanges { s with ind := v, vrm := w, cfg := x } [.ind, .vrm, .cfg] :=
  ⟨rfl, fun a ha => by cases a <;> first | rfl | simp at ha⟩
theorem State.with_ing_cfg (s : State) v w : s.OnlyChanges { s with ing := v, cfg := w } [.ing, .cfg] :=
  ⟨rfl, fun a ha => by cases a <;> first | rfl | simp at ha⟩
theorem State.with_regs_pwr (s : State) v w : s.OnlyChanges { s with regs := v, pwr := w } [.regs, .pwr] :=
  ⟨rfl, fun a ha => by cases a <;> first | rfl | simp at ha⟩
theorem State.with_time_ind (s : State) v w : s.OnlyChanges { s with time := v, ind := w } [.time, .ind] :=
  ⟨rfl, fun a ha => by cases a <;> first | rfl | simp at ha⟩
theorem State.with_time_ind_clu (s : State) v w x : s.OnlyChanges { s with time := v, ind := w, clu := x } [.time, .ind, .clu] :=
  ⟨rfl, fun a ha => by cases a <;> first | rfl | simp at ha⟩

/-! ## Access -/

theorem State.add_areas (s : State) (off n : Nat) : s.OnlyChanges (s.add off n) [.regs] := (setReg_areas ..).within
theorem State.freeW_areas (s : State) : s.OnlyChanges (s.freeW).2 [.fv] := (with_fv ..).within
theorem State.freeN_areas (s : State) (n : Nat) : s.OnlyChanges (s.freeN n).2 [.fv] := (with_fv ..).within
theorem State.setPort1588_areas (s : State) (k : Nat) (v : PtpPort) : s.OnlyChanges (s.setPort1588 k v) [.ind] := (with_ind ..).within
theorem State.setUnit_areas (s : State) (k : Nat) (v : Option ArmedInstant) : s.OnlyChanges (s.setUnit k v) [.ind] := (with_ind ..).within
theorem State.setPps_areas (s : State) (k v : Nat) : s.OnlyChanges (s.setPps k v) [.ind] := (with_ind ..).within
theorem State.setAclk_areas (s : State) (k : Nat) (v : AngleClock) : s.OnlyChanges (s.setAclk k v) [.ind] := (with_ind ..).within
theorem State.setVerify_areas (s : State) (k : Nat) (v : VerifyState) : s.OnlyChanges (s.setVerify k v) [.ing] := (with_ing ..).within
theorem State.setGroup_areas (s : State) (k : Nat) (v : RedGroup) : s.OnlyChanges (s.setGroup k v) [.ing] := (with_ing ..).within
theorem State.setClsSlot_areas (s : State) (k : Nat) (v : ClsSlot) : s.OnlyChanges (s.setClsSlot k v) [.ing] := (with_ing ..).within
theorem State.setStranger_areas (s : State) (k : Nat) (v : Option Stranger) : s.OnlyChanges (s.setStranger k v) [.ing] := (with_ing ..).within
theorem State.setPortPol_areas (s : State) (k : Nat) (v : Bucket) : s.OnlyChanges (s.setPortPol k v) [.ing] := (with_ing ..).within
theorem State.setFlowPol_areas (s : State) (k : Nat) (v : Bucket) : s.OnlyChanges (s.setFlowPol k v) [.ing] := (with_ing ..).within
theorem State.setAutCtx_areas (s : State) (k : Nat) (v : AutCtx) : s.OnlyChanges (s.setAutCtx k v) [.aut] := (with_aut ..).within
theorem State.setStream_areas (s : State) (k : Nat) (v : Stream) : s.OnlyChanges (s.setStream k v) [.spe] := (with_spe ..).within
theorem State.setCell_areas (s : State) (k : Nat) (v : Word) : s.OnlyChanges (s.setCell k v) [.spe] := (with_spe ..).within
theorem State.setCellInfo_areas (s : State) (k : Nat) (v : CellInfo) : s.OnlyChanges (s.setCellInfo k v) [.spe] := (with_spe ..).within
theorem State.setFrame_areas (s : State) (k : Nat) (v : Frame) : s.OnlyChanges (s.setFrame k v) [.pkt] := (with_pkt ..).within
theorem State.setCopy_areas (s : State) (k : Nat) (v : Copy) : s.OnlyChanges (s.setCopy k v) [.pkt] := (with_pkt ..).within
theorem State.setQueue_areas (s : State) (k : Nat) (v : List Nat) : s.OnlyChanges (s.setQueue k v) [.pkt] := (with_pkt ..).within
theorem State.setRob_areas (s : State) (k : Nat) (v : List Nat) : s.OnlyChanges (s.setRob k v) [.pkt] := (with_pkt ..).within
theorem State.setEgq_areas (s : State) (k : Nat) (v : List Nat) : s.OnlyChanges (s.setEgq k v) [.pkt] := (with_pkt ..).within
theorem State.setSending_areas (s : State) (k : Nat) (v : Option Nat) : s.OnlyChanges (s.setSending k v) [.pkt] := (with_pkt ..).within
theorem State.setPause_areas (s : State) (k : Nat) (v : PauseState) : s.OnlyChanges (s.setPause k v) [.pkt] := (with_pkt ..).within
theorem State.setBuf_areas (s : State) (k : Nat) (v : BufDesc) : s.OnlyChanges (s.setBuf k v) [.och] := (with_och ..).within
theorem State.setPool_areas (s : State) (k : Nat) (v : PoolStack) : s.OnlyChanges (s.setPool k v) [.och] := (with_och ..).within
theorem State.setMac_areas (s : State) (k : Nat) (v : MacSlot) : s.OnlyChanges (s.setMac k v) [.och] := (with_och ..).within
theorem State.setThr_areas (s : State) (k : Nat) (v : Thread) : s.OnlyChanges (s.setThr k v) [.clu] := (with_clu ..).within
theorem State.setTask_areas (s : State) (k : Nat) (v : Task) : s.OnlyChanges (s.setTask k v) [.clu] := (with_clu ..).within
theorem State.setReady_areas (s : State) (k : Nat) (v : List Nat) : s.OnlyChanges (s.setReady k v) [.clu] := (with_clu ..).within
theorem State.setTimer_areas (s : State) (k : Nat) (v : Option ArmedInstant) : s.OnlyChanges (s.setTimer k v) [.clu] := (with_clu ..).within
theorem State.setChan_areas (s : State) (k : Nat) (v : Chan) : s.OnlyChanges (s.setChan k v) [.clu] := (with_clu ..).within
theorem State.setLlock_areas (s : State) (k : Nat) (v : Lock) : s.OnlyChanges (s.setLlock k v) [.clu] := (with_clu ..).within
theorem State.setGlock_areas (s : State) (k : Nat) (v : Lock) : s.OnlyChanges (s.setGlock k v) [.clu] := (with_clu ..).within
theorem State.setMbox_areas (s : State) (k : Nat) (v : Mailbox) : s.OnlyChanges (s.setMbox k v) [.clu] := (with_clu ..).within
theorem State.setPmemW_areas (s : State) (k : Nat) (v : PWord) : s.OnlyChanges (s.setPmemW k v) [.clu] := (with_clu ..).within
theorem State.setFltq_areas (s : State) (k : Nat) (v : List (List Word)) : s.OnlyChanges (s.setFltq k v) [.clu] := (with_clu ..).within
theorem State.setDlq_areas (s : State) (k : Nat) (v : List (List Word)) : s.OnlyChanges (s.setDlq k v) [.clu] := (with_clu ..).within
theorem State.setWgroup_areas (s : State) (k : Nat) (v : WaitGroup) : s.OnlyChanges (s.setWgroup k v) [.clu] := (with_clu ..).within
theorem State.setFetchU_areas (s : State) (k : Nat) (v : FetchUnit) : s.OnlyChanges (s.setFetchU k v) [.clu] := (with_clu ..).within
theorem State.setCpxCmd_areas (s : State) (k : Nat) (v : CpxCmd) : s.OnlyChanges (s.setCpxCmd k v) [.cpx] := (with_cpx ..).within
theorem State.setVch_areas (s : State) (k : Nat) (v : VrmChan) : s.OnlyChanges (s.setVch k v) [.vrm] := (with_vrm ..).within
theorem State.setPcb_areas (s : State) (k : Nat) (v : Pcb) : s.OnlyChanges (s.setPcb k v) [.vrm] := (with_vrm ..).within
theorem State.setFinp_areas (s : State) (k : Nat) (v : FioIn) : s.OnlyChanges (s.setFinp k v) [.vrm] := (with_vrm ..).within
theorem State.setFout_areas (s : State) (k : Nat) (v : FioOut) : s.OnlyChanges (s.setFout k v) [.vrm] := (with_vrm ..).within
theorem State.setPartSh_areas (s : State) (k : Nat) (v : Option ImgPart) : s.OnlyChanges (s.setPartSh k v) [.cfg] := (with_cfg ..).within
theorem State.setPart_areas (s : State) (k : Nat) (v : Part) : s.OnlyChanges (s.setPart k v) [.cfg] := (with_cfg ..).within
theorem State.setEnv_areas (s : State) (k : Nat) (v : Envelope) : s.OnlyChanges (s.setEnv k v) [.cfg] := (with_cfg ..).within
theorem State.setUnitReq_areas (s : State) (k : Nat) (v : UnitReq) : s.OnlyChanges (s.setUnitReq k v) [.cfg] := (with_cfg ..).within
theorem State.setCred_areas (s : State) (k : Nat) (v : Cred) : s.OnlyChanges (s.setCred k v) [.sab] := (with_sab ..).within
theorem State.setGrant_areas (s : State) (k : Nat) (v : Grant) : s.OnlyChanges (s.setGrant k v) [.sab] := (with_sab ..).within
theorem State.setKeySlot_areas (s : State) (k : Nat) (v : Option (BitVec 256)) : s.OnlyChanges (s.setKeySlot k v) [.aut] := (with_aut ..).within
theorem State.setDma_areas (s : State) (k : Nat) (v : Dma) : s.OnlyChanges (s.setDma k v) [.hst] := (with_hst ..).within
theorem State.setMport_areas (s : State) (k : Nat) (v : MgtPort) : s.OnlyChanges (s.setMport k v) [.hst] := (with_hst ..).within
theorem State.setRecSet_areas (s : State) (k : Nat) (v : RecSet) : s.OnlyChanges (s.setRecSet k v) [.ddr] := (with_ddr ..).within
theorem State.setSampler_areas (s : State) (k : Nat) (v : Sampler) : s.OnlyChanges (s.setSampler k v) [.dbg] := (with_dbg ..).within
theorem State.setTagRec_areas (s : State) (k : Nat) (v : TagRec) : s.OnlyChanges (s.setTagRec k v) [.dbg] := (with_dbg ..).within

/-! ## Events -/

theorem State.sqcEach_areas (s : State) (off bit e : Nat) : s.OnlyChanges (s.sqcEach off bit e) [.regs, .out, .hst] :=
  (setRb_areas ..).within |>.andThen (setRf_areas ..) |>.andThen (deliver_areas ..)

/-! ## Roles -/

theorem State.denyWrite_areas (s : State) (who : Accessor) : s.OnlyChanges (s.denyWrite who) [.regs, .out, .hst] := by
  unfold State.denyWrite
  split
  · exact (inc_areas ..).within |>.andThen (sqc_areas ..)
  · exact .refl ..

theorem State.writeCmd_areas {s : State} {who : Accessor} {off : Nat} {f : State → State} {l : List Area} (h : ∀ x, State.OnlyChanges x (f x) l)
    (hl : [.regs, .out, .hst] ⊆ l := by decide) : s.OnlyChanges (s.writeCmd who off f) l :=
  .ite (h s) ((denyWrite_areas ..).within hl)

theorem State.rttRead_areas {s : State} {who : Accessor} {off : Nat} {take : Word × State} {l : List Area} (h : s.OnlyChanges take.2 l)
    (hl : [.out] ⊆ l := by decide) : s.OnlyChanges (s.rttRead who off take) l :=
  .ite (h.andThen (emit_areas ..) hl) ((emit_areas ..).within hl)

theorem State.lockedWrite_areas (s : State) (who : Accessor) (off : Nat) : s.OnlyChanges (s.lockedWrite who off) [.regs, .out, .hst] :=
  (inc_areas ..).within |>.andThen (setReg_areas ..) |>.andThen (sqc_areas ..)

/-! ## Pmu -/

theorem State.pmuAdd_areas (s : State) (off n : Nat) : s.OnlyChanges (s.pmuAdd off n) [.regs] :=
  (setReg_areas ..).within |>.andThen (setReg_areas ..) |>.andIf (setRb_areas ..).within

theorem State.pmu_areas (s : State) (base count ev lo hi : Nat) (a : PmuAttr) (n : Nat) : s.OnlyChanges (s.pmu base count ev lo hi a n) [.regs] :=
  .ite (.refl ..) (each_areas fun _ _ => (pmuAdd_areas ..).within)

theorem State.pmuCore_areas (s : State) (c k ev : Nat) (a : PmuAttr) (n : Nat) : s.OnlyChanges (s.pmuCore c k ev a n) [.regs] :=
  (pmu_areas ..).within

theorem State.pmuClu_areas (s : State) (c ev : Nat) (a : PmuAttr) (n : Nat) : s.OnlyChanges (s.pmuClu c ev a n) [.regs] := (pmu_areas ..).within
theorem State.pmuFab_areas (s : State) (ev : Nat) (a : PmuAttr) (n : Nat) : s.OnlyChanges (s.pmuFab ev a n) [.regs] := (pmu_areas ..).within

/-! ## Rings -/

theorem State.dramWrite_areas : ∀ (a : Nat) (bs : List Byte) (s : State), s.OnlyChanges (State.dramWrite a bs s) [.ddr]
  | _, [], s => .refl s _
  | a, _ :: bs, _ => (with_ddr ..).within |>.andThen (dramWrite_areas (a + 1) bs _)

theorem State.pmuDram_areas (s : State) (ev a n : Nat) (master : Option Nat) : s.OnlyChanges (s.pmuDram ev a n master) [.regs] :=
  each_areas fun _ _ => (pmuFab_areas ..).within

theorem State.ringStore_areas (s : State) (r : Ring) (bytes : List Byte) : s.OnlyChanges (s.ringStore r bytes) [.regs, .ddr] :=
  (dramWrite_areas ..).within |>.andThen (setReg_areas ..) |>.andThen (pmuDram_areas ..)

theorem State.ringTake_areas {s : State} {r : Ring} {bytes : List Byte} {l : List Area} (h : ∀ x, State.OnlyChanges x (r.lost x) l)
    (hl : [.regs, .ddr] ⊆ l) : s.OnlyChanges (s.ringTake r bytes) l := by
  have hr : [Area.regs] ⊆ l := List.Subset.trans (by decide) hl
  have hs : s.OnlyChanges (s.ringStore r bytes) l := (ringStore_areas ..).within hl
  exact .ite ((inc_areas ..).within hr) <| .ite hs <| .ite (.trans (hs.andThen (setReg_areas ..) hr) (h _)) (h s)

theorem State.setRingFifo_areas (s : State) (r : Ring) (q : List (List Byte)) : s.OnlyChanges (s.setRingFifo r q) [.ddr] := (with_ddr ..).within

theorem State.ringPut_areas {s : State} {r : Ring} {bytes : List Byte} {l : List Area} (h : ∀ x, State.OnlyChanges x (r.lost x) l)
    (hl : [.regs, .ddr] ⊆ l := by decide) : s.OnlyChanges (s.ringPut r bytes) l :=
  .ite (.refl ..) (.ite (ringTake_areas h hl) (.ite (h s) ((setRingFifo_areas ..).within (List.Subset.trans (by decide) hl))))

/-! ## Threads -/

theorem State.updThr_areas (s : State) (k : Nat) (f : Thread → Thread) : s.OnlyChanges (s.updThr k f) [.clu] := (setThr_areas ..).within
theorem State.refetch_areas (s : State) (k : Nat) : s.OnlyChanges (s.refetch k) [.clu] := (updThr_areas ..).within
theorem State.updTask_areas (s : State) (k : Nat) (f : Task → Task) : s.OnlyChanges (s.updTask k f) [.clu] := (setTask_areas ..).within

theorem State.trace_areas (s : State) (c part : Nat) (out inn : Option Nat) (thread reason prio : Nat) (aux : Word) :
    s.OnlyChanges (s.trace c part out inn thread reason prio aux) [.regs, .out, .hst, .ddr] :=
  .ite (ringPut_areas fun _ => (inc_areas ..).within |>.andThen (sqc_areas ..)) (.refl ..)

theorem State.readyTail_areas (s : State) (k : Nat) : s.OnlyChanges (s.readyTail k) [.clu] :=
  (updTask_areas ..).within |>.andThen (setReady_areas ..)

theorem State.readyHead_areas (s : State) (k : Nat) : s.OnlyChanges (s.readyHead k) [.clu] :=
  (updTask_areas ..).within |>.andThen (setReady_areas ..)

theorem State.unready_areas (s : State) (k : Nat) : s.OnlyChanges (s.unready k) [.clu] :=
  (each_areas fun _ _ => (setReady_areas ..).within) |>.andThen (with_clu ..)

theorem State.wake_areas (s0 : State) (k cause : Nat) (aux : Word) : s0.OnlyChanges (s0.wake k cause aux) [.regs, .out, .clu, .hst, .ddr] := by
  refine .ite (.refl ..) ?_
  split
  · exact (pmuClu_areas ..).within
  · exact (pmuClu_areas ..).within |>.andThen (updTask_areas ..) |>.andThen (readyTail_areas ..)
  · exact .ite ((pmuClu_areas ..).within |>.andThen (updTask_areas ..) |>.andThen (inc_areas ..) |>.andThen (trace_areas ..)
        |>.andThen (sqc_areas ..)) ((pmuClu_areas ..).within |>.andThen (updTask_areas ..))

theorem State.nextRun_areas (s : State) (k : Nat) : s.OnlyChanges (s.nextRun k) [.clu] :=
  .ite (updTask_areas ..).within (.ite ((updTask_areas ..).within |>.andThen (readyTail_areas ..))
      (.ite ((updTask_areas ..).within |>.andThen (readyTail_areas ..)) (updTask_areas ..).within))

theorem State.bookUsed_areas (s : State) (k : Nat) : s.OnlyChanges (s.bookUsed k) [.clu] := (updTask_areas ..).within

theorem State.holdChans_areas (s : State) (a : Agent) : s.OnlyChanges (s.holdChans a) [.clu] :=
  each_areas fun _ _ => .ite (setChan_areas ..).within (.refl ..)

theorem State.unholdChans_areas (s : State) (a : Agent) : s.OnlyChanges (s.unholdChans a) [.clu] :=
  each_areas fun _ _ => .ite (setChan_areas ..).within (.refl ..)

theorem State.recordHalt_areas (s : State) (k cause b : Nat) : s.OnlyChanges (s.recordHalt k cause b) [.regs] := (setReg_areas ..).within

theorem State.stayOn_areas (s : State) (k : Nat) : s.OnlyChanges (s.stayOn k) [.clu] := by
  unfold State.stayOn
  split
  · exact (readyHead_areas ..).within |>.andThen (updThr_areas ..)
  · exact .refl ..

theorem State.haltThread_areas (s0 : State) (k cause b : Nat) : s0.OnlyChanges (s0.haltThread k cause b) [.regs, .clu] := by
  refine .andThen ?_ (recordHalt_areas ..)
  refine .andThen ?_ (holdChans_areas ..)
  refine .andThen ?_ (updThr_areas ..)
  split
  · exact (stayOn_areas ..).within |>.andThen (bookUsed_areas ..)
  · exact (stayOn_areas ..).within

theorem State.breakGroup_areas (s : State) (a : Agent) : s.OnlyChanges (s.breakGroup a) [.clu] := by
  unfold State.breakGroup
  split
  · exact .ite (.refl ..) (setWgroup_areas ..).within
  · exact .refl ..

theorem State.retireSample_areas (s : State) (k : Nat) : s.OnlyChanges (s.retireSample k) [.regs, .ddr, .dbg] := by
  unfold State.retireSample
  dsimp only
  split
  · exact .ite ((setSampler_areas ..).within |>.trans (ringPut_areas fun _ => (inc_areas ..).within)) (.refl ..)
  · exact .refl ..

theorem State.finishWait_areas (s : State) (a : Agent) (status : Nat) (r : Received) :
    s.OnlyChanges (s.finishWait a status r) [.regs, .clu, .ddr, .dbg] := by
  unfold State.finishWait
  split
  · split
    · exact (breakGroup_areas ..).within |>.andThen (updThr_areas ..) |>.andThen (retireSample_areas ..) |>.andIf (haltThread_areas ..).within
    · exact .refl ..
  · split
    · exact (breakGroup_areas ..).within |>.andThen (updTask_areas ..) |>.andThen (readyTail_areas ..) |>.andThen (retireSample_areas ..)
    · exact .refl ..
  · exact .refl ..

/-! ## Sync -/

theorem State.serveTx_areas (s : State) (k : Nat) : s.OnlyChanges (s.serveTx k) [.regs, .clu, .ddr, .dbg] := by
  refine .ite ?_ (.refl ..)
  split
  · exact (setChan_areas ..).within |>.andThen (finishWait_areas ..)
  · exact .refl ..

theorem State.serveChan_areas (s : State) (k : Nat) : s.OnlyChanges (s.serveChan k) [.regs, .clu, .ddr, .dbg] := by
  refine .ite ?_ (serveTx_areas ..).within
  split
  · exact (setChan_areas ..).within |>.andThen (finishWait_areas ..) |>.andThen (serveTx_areas ..)
  · exact .refl ..

theorem State.abortChan_areas (s : State) (k : Nat) : s.OnlyChanges (s.abortChan k) [.regs, .out, .clu, .hst, .ddr, .dbg] :=
  (setChan_areas ..).within |>.andThen (inc_areas ..) |>.andThen (sqc_areas ..) |>.andThen (serveChan_areas ..)

theorem State.abortFilling_areas (s : State) (a : Agent) : s.OnlyChanges (s.abortFilling a) [.regs, .out, .clu, .hst, .ddr, .dbg] :=
  each_areas fun _ _ => (abortChan_areas ..).within

theorem State.sendChan_areas (s : State) (k n : Nat) (taint mark : Bool) :
    s.OnlyChanges (s.sendChan k n taint mark) [.regs, .out, .clu, .hst, .ddr, .dbg] :=
  (setChan_areas ..).within |>.andIf (wake_areas ..).within |>.andThen (pmuClu_areas ..) |>.andThen (serveChan_areas ..)

theorem State.takeChan_areas (s : State) (k : Nat) : s.OnlyChanges (s.takeChan k) [.regs, .clu, .ddr, .dbg] :=
  (setChan_areas ..).within |>.andThen (serveTx_areas ..)

theorem State.setLock_areas (s : State) (glob : Bool) (k : Nat) (l : Lock) : s.OnlyChanges (s.setLock glob k l) [.clu] :=
  .ite (setGlock_areas ..).within (setLlock_areas ..).within

theorem State.lckEvent_areas (s : State) (c b : Nat) : s.OnlyChanges (s.lckEvent c b) [.regs, .out, .hst] := (sqc_areas ..).within

theorem State.grantLock_areas (s : State) (glob : Bool) (k : Nat) (a : Agent) : s.OnlyChanges (s.grantLock glob k a) [.regs, .clu] :=
  (setLock_areas ..).within |>.andThen (inc_areas ..) |>.andThen (pmuClu_areas ..)

theorem State.passLock_areas (s : State) (glob : Bool) (k : Nat) : s.OnlyChanges (s.passLock glob k) [.regs, .clu, .ddr, .dbg] := by
  unfold State.passLock
  split
  · exact (setLock_areas ..).within
  · exact (setLock_areas ..).within |>.andThen (grantLock_areas ..) |>.andUnless (finishWait_areas ..).within

theorem State.requestLock_areas (s : State) (glob : Bool) (k : Nat) (a : Agent) (part : Nat) (try_ : Bool) :
    s.OnlyChanges (s.requestLock glob k a part try_).2 [.regs, .out, .clu, .hst] :=
  .ite_snd ((inc_areas ..).within |>.andThen (lckEvent_areas ..))
    (.ite_snd (.refl ..) (.ite_snd (grantLock_areas ..).within (.ite_snd (.refl ..) (setLock_areas ..).within)))

theorem State.releaseLock_areas (s : State) (glob : Bool) (k : Nat) (a : Agent) (part : Nat) :
    s.OnlyChanges (s.releaseLock glob k a part).2 [.regs, .out, .clu, .hst, .ddr, .dbg] :=
  .ite_snd ((inc_areas ..).within |>.andThen (lckEvent_areas ..))
    (.ite_snd (inc_areas ..).within (.ite_snd ((inc_areas ..).within |>.andThen (lckEvent_areas ..))
        (.ite_snd ((setLock_areas ..).within |>.andThen (passLock_areas ..)) ((inc_areas ..).within |>.andThen (lckEvent_areas ..)
            |>.andThen (passLock_areas ..)))))

theorem State.releaseAll_areas (s : State) (a : Agent) : s.OnlyChanges (s.releaseAll a) [.regs, .out, .clu, .hst, .ddr, .dbg] :=
  (each_areas fun _ _ => (setLock_areas ..).within |>.andThen (passLock_areas ..) |>.andThen (inc_areas ..) |>.andThen (lckEvent_areas ..))
    |>.each (fun _ _ => (setLock_areas ..).within |>.andThen (passLock_areas ..) |>.andThen (inc_areas ..) |>.andThen (lckEvent_areas ..))

theorem State.loseHolder_areas (s : State) (a : Agent) : s.OnlyChanges (s.loseHolder a) [.regs, .out, .clu, .hst, .ddr, .dbg] :=
  (each_areas fun _ _ => (setLlock_areas ..).within |>.andThen (inc_areas ..) |>.andThen (lckEvent_areas ..))
    |>.each (fun _ _ => (setGlock_areas ..).within |>.andThen (passLock_areas ..) |>.andThen (inc_areas ..) |>.andThen (lckEvent_areas ..))

theorem State.leaveQueues_areas (s : State) (a : Agent) : s.OnlyChanges (s.leaveQueues a) [.clu] := (with_clu ..).within

theorem State.abortWait_areas (s : State) (a : Agent) : s.OnlyChanges (s.abortWait a) [.regs, .clu, .ddr, .dbg] :=
  (leaveQueues_areas ..).within |>.andThen (finishWait_areas ..)

theorem State.resumeWait_areas (s : State) (a : Agent) : s.OnlyChanges (s.resumeWait a) [.regs, .clu, .ddr, .dbg] := by
  unfold State.resumeWait
  split
  · split
    · exact .ite (finishWait_areas ..).within (.refl ..)
    · exact (serveChan_areas ..).within
    · exact (serveChan_areas ..).within
  · exact .refl ..

/-! ## Sched -/

theorem State.bookRun_areas (s : State) (k : Nat) : s.OnlyChanges (s.bookRun k) [.clu] := (updTask_areas ..).within
theorem State.saveCtx_areas (s : State) (k i : Nat) : s.OnlyChanges (s.saveCtx k i) [.clu] := (updTask_areas ..).within |>.andThen (updThr_areas ..)
theorem State.sramWrite_areas (s : State) (b : BufStore) : s.OnlyChanges (s.sramWrite b) [.clu] := .foldl (.refl ..) fun _ _ => (with_clu ..).within

theorem State.drainStores_areas (s : State) (k : Nat) : s.OnlyChanges (s.drainStores k) [.clu] :=
  OnlyChanges.refl _ _ |>.foldl (fun _ _ => (sramWrite_areas ..).within) |>.andThen (updThr_areas ..)

theorem State.squash_areas (s : State) (k : Nat) : s.OnlyChanges (s.squash k) [.regs, .clu, .cpx] :=
  (with_cpx ..).within |>.andThen (add_areas ..) |>.andThen (updThr_areas ..)

theorem State.switchIn_areas (s : State) (k i : Nat) : s.OnlyChanges (s.switchIn k i) [.clu] :=
  .ite ((updThr_areas ..).within |>.andThen (refetch_areas ..) |>.andThen (updTask_areas ..))
    ((updThr_areas ..).within |>.andThen (refetch_areas ..) |>.andThen (updTask_areas ..))

theorem State.vacate_areas (s : State) (k reason : Nat) : s.OnlyChanges (s.vacate k reason) [.clu] := (updThr_areas ..).within

theorem State.endTask_areas (s : State) (k : Nat) : s.OnlyChanges (s.endTask k) [.regs, .out, .clu, .hst, .ddr, .dbg] := by
  unfold State.endTask
  split
  · exact (drainStores_areas ..).within |>.andThen (saveCtx_areas ..) |>.andThen (bookRun_areas ..) |>.andThen (updTask_areas ..)
      |>.andThen (vacate_areas ..) |>.andThen (nextRun_areas ..) |>.andThen (abortFilling_areas ..) |>.andThen (releaseAll_areas ..)
  · exact .refl ..

theorem State.forceEnd_areas (s : State) (n reason : Nat) : s.OnlyChanges (s.forceEnd n reason) [.regs, .out, .clu, .cpx, .hst, .ddr, .dbg] := by
  unfold State.forceEnd
  refine .andThen ?_ (sqc_areas ..)
  refine .andThen ?_ (inc_areas ..)
  refine .andThen ?_ (loseHolder_areas ..)
  refine .andThen ?_ (abortFilling_areas ..)
  refine .andThen ?_ (nextRun_areas ..)
  refine .andThen ?_ (updTask_areas ..)
  split
  · exact (bookRun_areas ..).within |>.andThen (leaveQueues_areas ..) |>.andThen (breakGroup_areas ..) |>.andThen (squash_areas ..)
      |>.andThen (updThr_areas ..) |>.andThen (vacate_areas ..)
  · exact (bookRun_areas ..).within |>.andThen (leaveQueues_areas ..) |>.andThen (breakGroup_areas ..) |>.andThen (unready_areas ..)

theorem State.releasePkt_areas (s : State) (k disp lane stage : Nat) : s.OnlyChanges (s.releasePkt k disp lane stage) [.pkt, .clu] := by
  unfold State.releasePkt
  split
  · exact (setFrame_areas ..).within |>.andThen (updThr_areas ..)
  · exact .refl ..

theorem State.tileError_areas (s : State) (j : Nat) : s.OnlyChanges (s.tileError j) [.cfg] := (with_cfg ..).within

theorem State.postFault_areas (s : State) (c : Nat) (r : List Word) : s.OnlyChanges (s.postFault c r) [.regs, .out, .clu, .hst] :=
  .ite ((inc_areas ..).within |>.andThen (sqc_areas ..)) ((setFltq_areas ..).within |>.andThen (sqc_areas ..))

theorem State.faultAt_areas (s : State) (k code : Nat) (imprecise : Bool) (addr : Word) (pc : BitVec 16) (iw : PWord) :
    s.OnlyChanges (s.faultAt k code imprecise addr pc iw) [.regs, .out, .pkt, .clu, .cfg, .hst, .ddr, .dbg] :=
  OnlyChanges.ite (tileError_areas ..).within (.refl ..) |>.andIf (leaveQueues_areas ..).within |>.andThen (inc_areas ..)
    |>.andThen (pmuCore_areas ..) |>.andThen (postFault_areas ..) |>.andThen (updThr_areas ..) |>.andIf (releasePkt_areas ..).within
    |>.andThen (abortFilling_areas ..) |>.andIf (sqc_areas ..).within

theorem State.startSup_areas (s : State) (c : Nat) : s.OnlyChanges (s.startSup c) [.clu] := (updThr_areas ..).within |>.andThen (refetch_areas ..)

theorem State.killThread_areas (s : State) (k : Nat) : s.OnlyChanges (s.killThread k) [.regs, .out, .clu, .cpx, .hst, .ddr, .dbg] := by
  unfold State.killThread
  split
  · exact (forceEnd_areas ..).within
  · exact (squash_areas ..).within |>.andThen (leaveQueues_areas ..) |>.andThen (abortFilling_areas ..) |>.andThen (loseHolder_areas ..)
      |>.andThen (updThr_areas ..) |>.trans (.ite (startSup_areas ..).within (updThr_areas ..).within)

theorem State.resumeThread_areas (s : State) (k : Nat) (pc : BitVec 16) : s.OnlyChanges (s.resumeThread k pc) [.clu] :=
  (updThr_areas ..).within |>.andThen (refetch_areas ..)

/-! ## TimeOps -/

theorem State.expireHold_areas (s : State) : s.OnlyChanges s.expireHold [.regs, .out, .ind, .hst] :=
  (with_ind ..).within |>.andThen (sqcEach_areas ..)

theorem State.setTimeState_areas (s : State) (a1 : TimeState) : s.OnlyChanges (s.setTimeState a1) [.regs, .out, .ind, .hst] :=
  .ite (.refl ..) (OnlyChanges.ite (setReg_areas ..).within (.refl ..) |>.andThen (with_ind ..) |>.andThen (deliver_areas ..)
      |>.andIf ((sqc_areas ..).within |>.andIf (expireHold_areas ..).within))

theorem State.setTinSrc_areas (s : State) (n : Nat) (a2 : SourceState) : s.OnlyChanges (s.setTinSrc n a2) [.ind] :=
  .ite (with_ind ..).within (with_ind ..).within

theorem State.showOffsets_areas (s : State) : s.OnlyChanges s.showOffsets [.regs] :=
  (setReg_areas ..).within |>.andThen (setReg_areas ..) |>.andThen (setReg_areas ..)

theorem State.selectSrc_areas (s : State) (a1 : Nat) : s.OnlyChanges (s.selectSrc a1) [.regs, .out, .ind, .hst] :=
  .ite (.refl ..) ((with_ind ..).within |>.andThen (sqcEach_areas ..))

theorem State.judgeSources_areas (s : State) : s.OnlyChanges s.judgeSources [.regs, .out, .ind, .hst] := by
  refine .ite ?_ <| .ite (setTimeState_areas ..).within (.refl ..)
  split
  · exact (selectSrc_areas ..).within |>.andThen (setTimeState_areas ..)
  · exact (selectSrc_areas ..).within |>.andThen (setTimeState_areas ..)
  · exact (selectSrc_areas ..).within
  · exact .refl ..

theorem State.stepTime_areas (s : State) (t' : Nat) : s.OnlyChanges (s.stepTime t') [.time, .regs, .out, .ind, .clu, .hst] :=
  (with_time_ind_clu ..).within |>.andThen (sqcEach_areas ..)

theorem State.aclkEvent_areas (s : State) (n flags : Nat) (changed : Bool) : s.OnlyChanges (s.aclkEvent n flags changed) [.regs, .out, .hst] :=
  .ite (.refl ..) ((setRf_areas ..).within |>.andThen (setRf_areas ..) |>.andThen (deliver_areas ..))

/-! ## Dsp -/

theorem State.assignTo_areas (s : State) (n k : Nat) (preempt : Bool) : s.OnlyChanges (s.assignTo n k preempt) [.clu] :=
  (unready_areas ..).within |>.andThen (updThr_areas ..)

theorem execTaskAssign_areas (c : Fin 6) (s : State) : s.LeadsTo (execTaskAssign c s) [.out, .clu] := by
  refine done_leadsTo ?_
  split
  · exact (assignTo_areas ..).within
  · exact .refl ..

theorem State.leaveThread_areas (s : State) (k reason : Nat) : s.OnlyChanges (s.leaveThread k reason) [.clu] :=
  (drainStores_areas ..).within |>.andThen (saveCtx_areas ..) |>.andThen (bookUsed_areas ..) |>.andThen (updTask_areas ..)
    |>.andThen (vacate_areas ..)

theorem execTaskPreempt_areas (t : ThreadId) (s : State) : s.LeadsTo (execTaskPreempt t s) [.regs, .out, .clu] :=
  done_leadsTo <| .ite ((leaveThread_areas ..).within |>.andThen (inc_areas ..) |>.andThen (pmuClu_areas ..)
      |>.andUnless (readyHead_areas ..).within) (.refl ..)

theorem execTaskSwitch_areas (t : ThreadId) (s : State) : s.LeadsTo (execTaskSwitch t s) [.regs, .out, .clu, .hst, .ddr] := by
  unfold execTaskSwitch
  dsimp only
  refine done_leadsTo ?_
  split
  · exact .ite ((inc_areas ..).within |>.andThen (pmuClu_areas ..) |>.andThen (pmuCore_areas ..)
        |>.andUnless ((inc_areas ..).within |>.andThen (pmuClu_areas ..)) |>.andThen (switchIn_areas ..) |>.andThen (updThr_areas ..)
        |>.andThen (trace_areas ..)) (.refl ..)
  · exact .refl ..

theorem execStagingLoad_areas (t : ThreadId) (task : Fin 1024) (s : State) : s.LeadsTo (execStagingLoad t task s) [.out, .clu] :=
  done_leadsTo <| .ite (updThr_areas ..).within (.refl ..)

theorem State.wakeSource_areas (s : State) (c wsrc idx cause : Nat) (aux : Word) :
    s.OnlyChanges (s.wakeSource c wsrc idx cause aux) [.regs, .out, .clu, .hst, .ddr] :=
  each_areas fun _ _ => (wake_areas ..).within

theorem State.wakeEval_areas (s : State) (a m : Nat) : s.OnlyChanges (s.wakeEval a m) [.regs, .out, .clu, .hst, .ddr] :=
  each_areas fun _ _ => each_areas fun _ _ => (wake_areas ..).within

theorem State.fireResult_areas (s : State) (off code : Nat) : s.OnlyChanges (s.fireResult off code) [.regs, .out, .hst] :=
  (setRf_areas ..).within |>.andThen (sqc_areas ..)

theorem execDispatcherTimerFire_areas (c : Fin 6) (u : Fin 32) (s : State) :
    s.LeadsTo (execDispatcherTimerFire c u s) [.regs, .out, .clu, .hst, .ddr] := by
  refine done_leadsTo ?_
  split
  · exact .ite ((setTimer_areas ..).within |>.andThen (fireResult_areas ..) |>.andIf ((sqc_areas ..).within |>.andThen (deliver_areas ..))
        |>.andThen (wakeSource_areas ..)) (.refl ..)
  · exact .refl ..

theorem execBudgetOverrun_areas (t : ThreadId) (s : State) : s.LeadsTo (execBudgetOverrun t s) [.regs, .out, .clu, .cpx, .hst, .ddr, .dbg] :=
  done_leadsTo <| .ite ((updTask_areas ..).within |>.andThen (inc_areas ..) |>.andThen (trace_areas ..) |>.andThen (sqc_areas ..)
      |>.andIf (forceEnd_areas ..).within) (.refl ..)

theorem State.deliverRetraction_areas (s : State) (r : Retraction) (n : Nat) :
    s.OnlyChanges (s.deliverRetraction r n) [.regs, .out, .clu, .hst, .ddr] :=
  (inc_areas ..).within |>.andThen (pmuClu_areas ..) |>.andThen (trace_areas ..) |>.andThen (sqc_areas ..)
    |>.andIf ((updTask_areas ..).within |>.andIf ((updTask_areas ..).within |>.andThen (readyTail_areas ..)))

theorem State.retractTasks_areas (s : State) (r : Retraction) : s.OnlyChanges (s.retractTasks r) [.regs, .out, .clu, .hst, .ddr] :=
  each_areas fun _ _ => (deliverRetraction_areas ..).within

theorem State.dspResult_areas (s : State) (c : Nat) (val : Word) (res : Nat) : s.OnlyChanges (s.dspResult c val res) [.regs] :=
  (setReg_areas ..).within |>.andThen (setReg_areas ..)

theorem State.dspRun_areas (s : State) (who : Accessor) (c : Nat) (val : Word) :
    s.OnlyChanges (s.dspRun who c val) [.regs, .out, .clu, .hst, .ddr] :=
  .ite (dspResult_areas ..).within
    (.ite (dspResult_areas ..).within
      (.ite (dspResult_areas ..).within (.ite ((wake_areas ..).within |>.andThen (dspResult_areas ..))
          ((updTask_areas ..).within |>.andThen (dspResult_areas ..)))))

theorem execActivate_areas (who : Accessor) (c : Fin 6) (val : Word) (s : State) :
    s.LeadsTo (execActivate who c val s) [.regs, .out, .clu, .hst, .ddr] :=
  done_leadsTo (writeCmd_areas fun _ => (dspRun_areas ..).within)

theorem execCancel_areas (who : Accessor) (c : Fin 6) (val : Word) (s : State) :
    s.LeadsTo (execCancel who c val s) [.regs, .out, .clu, .hst, .ddr] :=
  done_leadsTo (writeCmd_areas fun _ => (dspRun_areas ..).within)

theorem State.tcbSelect_areas (s : State) (c : Nat) (val : Word) : s.OnlyChanges (s.tcbSelect c val) [.regs] :=
  (setReg_areas ..).within |>.each (fun _ _ => (setReg_areas ..).within)

theorem execTcbSelect_areas (who : Accessor) (c : Fin 6) (val : Word) (s : State) : s.LeadsTo (execTcbSelect who c val s) [.regs, .out, .hst] :=
  done_leadsTo (writeCmd_areas fun _ => (tcbSelect_areas ..).within)

/-! ## Control -/

theorem State.ctlResult_areas (s : State) (c : Nat) (val : Word) (res : Nat) : s.OnlyChanges (s.ctlResult c val res) [.regs] :=
  (setReg_areas ..).within |>.andThen (setReg_areas ..)

theorem State.ctlRun_areas (s : State) (who : Accessor) (c : Nat) (val : Word) :
    s.OnlyChanges (s.ctlRun who c val) [.regs, .out, .clu, .cpx, .hst, .ddr, .dbg] := by
  refine .ite (ctlResult_areas ..).within ?_
  split
  · split
    · exact .ite ((resumeThread_areas ..).within |>.andThen (ctlResult_areas ..)) (ctlResult_areas ..).within
    · exact (ctlResult_areas ..).within
  · split
    · exact .ite ((killThread_areas ..).within |>.andThen (ctlResult_areas ..)) (ctlResult_areas ..).within
    · exact (ctlResult_areas ..).within
  · exact .ite ((abortWait_areas ..).within |>.andThen (ctlResult_areas ..)) (ctlResult_areas ..).within
  · exact (ctlResult_areas ..).within

theorem State.ctlWrite_areas (s : State) (who : Accessor) (c op : Nat) (val : Word) :
    s.OnlyChanges (s.ctlWrite who c op val) [.regs, .out, .clu, .cpx, .hst, .ddr, .dbg] :=
  writeCmd_areas fun _ => (ctlRun_areas ..).within

theorem execCtlResume_areas (who : Accessor) (c : Fin 6) (val : Word) (s : State) :
    s.LeadsTo (execCtlResume who c val s) [.regs, .out, .clu, .cpx, .hst, .ddr, .dbg] :=
  done_leadsTo (ctlWrite_areas ..).within

theorem execCtlKill_areas (who : Accessor) (c : Fin 6) (val : Word) (s : State) :
    s.LeadsTo (execCtlKill who c val s) [.regs, .out, .clu, .cpx, .hst, .ddr, .dbg] :=
  done_leadsTo (ctlWrite_areas ..).within

theorem execCtlAbortWait_areas (who : Accessor) (c : Fin 6) (val : Word) (s : State) :
    s.LeadsTo (execCtlAbortWait who c val s) [.regs, .out, .clu, .cpx, .hst, .ddr, .dbg] :=
  done_leadsTo (ctlWrite_areas ..).within

theorem execFaultTimeoutKill_areas (t : ThreadId) (s : State) : s.LeadsTo (execFaultTimeoutKill t s) [.regs, .out, .clu, .cpx, .hst, .ddr, .dbg] :=
  done_leadsTo <| .ite ((killThread_areas ..).within |>.andThen (inc_areas ..)) (.refl ..)

theorem execSupervisorInterrupt_areas (c : Fin 6) (s : State) : s.LeadsTo (execSupervisorInterrupt c s) [.out, .clu] := by
  refine done_leadsTo ?_
  split
  · exact .ite ((leaveQueues_areas ..).within |>.andThen (updThr_areas ..) |>.andThen (refetch_areas ..)) (.refl ..)
  · exact .refl ..

theorem execMaskMaxExceeded_areas (c : Fin 6) (s : State) : s.LeadsTo (execMaskMaxExceeded c s) [.regs, .out, .clu, .hst] := by
  refine done_leadsTo ?_
  split
  · exact .ite ((updThr_areas ..).within |>.andThen (inc_areas ..) |>.andThen (sqc_areas ..)) (.refl ..)
  · exact .refl ..

theorem execDeadlockDetect_areas (c : Fin 6) (g : Fin 16) (s : State) : s.LeadsTo (execDeadlockDetect c g s) [.regs, .out, .clu, .hst] := by
  unfold execDeadlockDetect
  dsimp only
  refine done_leadsTo ?_
  split
  · exact .ite ((setWgroup_areas ..).within |>.trans (.ite (inc_areas ..).within (setDlq_areas ..).within) |>.andThen (inc_areas ..)
        |>.andThen (sqc_areas ..)) (.refl ..)
  · exact .refl ..

theorem execDeadlockEscalate_areas (c : Fin 6) (g : Fin 16) (s : State) : s.LeadsTo (execDeadlockEscalate c g s) [.regs, .out, .clu, .hst] := by
  unfold execDeadlockEscalate
  dsimp only
  refine done_leadsTo ?_
  split
  · exact .ite ((setWgroup_areas ..).within |>.andThen (sqc_areas ..)) (.refl ..)
  · exact .refl ..

theorem State.fltPop_areas (s : State) (c : Nat) : s.OnlyChanges (s.fltPop c).2 [.regs, .clu] := by
  unfold State.fltPop
  split
  · exact .refl ..
  · exact (setFltq_areas ..).within |>.each (fun _ _ => (setReg_areas ..).within)

theorem State.dlPop_areas (s : State) (c : Nat) : s.OnlyChanges (s.dlPop c).2 [.regs, .clu] := by
  unfold State.dlPop
  split
  · exact .refl ..
  · exact (setDlq_areas ..).within |>.each (fun _ _ => (setReg_areas ..).within)

theorem execFltPop_areas (who : Accessor) (c : Fin 6) (s : State) : s.LeadsTo (execFltPop who c s) [.regs, .out, .clu] :=
  done_leadsTo (rttRead_areas (fltPop_areas ..).within)

theorem execDlPop_areas (who : Accessor) (c : Fin 6) (s : State) : s.LeadsTo (execDlPop who c s) [.regs, .out, .clu] :=
  done_leadsTo (rttRead_areas (dlPop_areas ..).within)

theorem State.chnAbort_areas (s : State) (who : Accessor) (c : Nat) (val : Word) :
    s.OnlyChanges (s.chnAbort who c val) [.regs, .out, .clu, .hst, .ddr, .dbg] :=
  .ite ((inc_areas ..).within |>.andThen (setReg_areas ..))
    (.ite (setReg_areas ..).within ((abortChan_areas ..).within |>.andThen (setReg_areas ..)))

theorem execChnAbort_areas (who : Accessor) (c : Fin 6) (val : Word) (s : State) :
    s.LeadsTo (execChnAbort who c val s) [.regs, .out, .clu, .hst, .ddr, .dbg] :=
  done_leadsTo (writeCmd_areas fun _ => (chnAbort_areas ..).within)

/-! ## Operands -/

theorem State.updCtx_areas (s : State) (k : Nat) (f : Ctx → Ctx) : s.OnlyChanges (s.updCtx k f) [.clu] := (updThr_areas ..).within
theorem State.setAcc_areas (s : State) (k : Nat) (v : Acc) : s.OnlyChanges (s.setAcc k v) [.clu] := (updCtx_areas ..).within
theorem State.setG_areas (s : State) (k : Nat) (g : Fin 8) (v : Word) : s.OnlyChanges (s.setG k g v) [.clu] := (updCtx_areas ..).within
theorem State.setIx_areas (s : State) (k : Nat) (a2 : Fin 2) (v : Word) : s.OnlyChanges (s.setIx k a2 v) [.clu] := (updCtx_areas ..).within
theorem State.setDp_areas (s : State) (k : Nat) (da : BitVec 9) (v : Word) : s.OnlyChanges (s.setDp k da v) [.clu] := (updThr_areas ..).within

/-! ## Issue -/

theorem State.sampleIssue_areas (s : State) (k : Nat) (iw : PWord) : s.OnlyChanges (s.sampleIssue k iw) [.fv, .dbg] := by
  unfold State.sampleIssue
  refine .ite ?_ (.refl ..)
  cases (s.sampler (k / 128)).target with
  | some n =>
    exact .ite (setSampler_areas ..).within
      ((freeN_areas ..).within |>.andThen (freeN_areas ..) |>.andThen (setSampler_areas ..))
  | none =>
    have h : s.OnlyChanges (s.freeN (2 ^ fld (s.reg (Reg.CLU_PMU_SMP_CFG (k / 128))) 28 24)).2 [.fv, .dbg] := (freeN_areas ..).within
    exact .ite (h.andThen (setSampler_areas ..))
      (h.andThen (freeN_areas ..) |>.andThen (freeN_areas ..) |>.andThen (setSampler_areas ..))

theorem State.countIssue_areas (s : State) (k len : Nat) (iw : PWord) : s.OnlyChanges (s.countIssue k len iw) [.regs, .fv, .clu, .dbg] :=
  (pmuCore_areas ..).within |>.andThen (pmuCore_areas ..) |>.andThen (sampleIssue_areas ..) |>.andThen (updThr_areas ..)

theorem State.stepHalt_areas (s : State) (k : Nat) : s.OnlyChanges (s.stepHalt k) [.regs, .clu] := .ite (haltThread_areas ..).within (.refl ..)

theorem State.noteSample_areas (s0 s1 : State) (k : Nat) (pended waits : Bool) :
    s1.OnlyChanges (s0.noteSample s1 k pended waits) [.regs, .clu, .ddr, .dbg] :=
  .ite (.refl ..) <| .ite (updThr_areas ..).within (retireSample_areas ..).within

theorem State.dropSample_areas (s0 s1 : State) (k : Nat) : s1.OnlyChanges (s0.dropSample s1 k) [.dbg] :=
  .ite (setSampler_areas ..).within (.refl ..)

theorem State.noteStall_areas (s : State) (k : Nat) (why : StallOn) : s.OnlyChanges (s.noteStall k why) [.regs, .clu] := by
  refine .ite (.refl ..) ?_
  refine .andThen ?_ (updThr_areas ..)
  split
  · exact (pmuCore_areas ..).within
  · exact (pmuCore_areas ..).within
  · exact .refl ..

/-- What every issue may change, whatever the instruction does (R205, R461, R468). -/
def issueAreas : List Area := [.regs, .fv, .out, .pkt, .clu, .cfg, .hst, .ddr, .dbg]

theorem State.finishInstr_areas {s : State} {k len : Nat} {iw : PWord} {e : Eff} {l : List Area} (h : s.EffIn e l) (hl : issueAreas ⊆ l) :
    s.OnlyChanges (State.finishInstr s k len iw e) l := by
  have sub {m : List Area} (hm : m ⊆ issueAreas := by decide) : m ⊆ l := List.Subset.trans hm hl
  cases e with
  | next t =>
    exact (((OnlyChanges.andThen h (updCtx_areas ..) sub).andThen (updThr_areas ..) sub).andThen (noteSample_areas ..)
      sub).andThen (stepHalt_areas ..) sub
  | jump t =>
    exact (((OnlyChanges.andThen h (refetch_areas ..) sub).andThen (pmuCore_areas ..) sub).andThen (noteSample_areas ..)
      sub).andThen (stepHalt_areas ..) sub
  | wait t => exact OnlyChanges.andThen h (updThr_areas ..) sub
  | gone t => exact (OnlyChanges.andThen h (noteSample_areas ..) sub).andThen (stepHalt_areas ..) sub
  | fault t c a => exact (OnlyChanges.andThen h (dropSample_areas ..) sub).andThen (faultAt_areas ..) sub
  | stall w => exact (noteStall_areas ..).within sub

theorem State.issue_areas {s : State} {t : ThreadId} {i : Instr} {len : Nat} {ds : List Dest} {perm : Option Nat} {act : State → Eff}
    {l : List Area} (h : ∀ x, State.EffIn x (act x) l) (hl : issueAreas ⊆ l := by decide) :
    s.OnlyChanges (s.issue t i len ds perm act) l := by
  have sub {m : List Area} (hm : m ⊆ issueAreas := by decide) : m ⊆ l := List.Subset.trans hm hl
  have hc (k : Nat) (iw : PWord) : s.OnlyChanges (s.countIssue k len iw) l := (countIssue_areas ..).within sub
  refine .ite (.refl ..) ?_
  split
  · exact (faultAt_areas ..).within sub
  · refine .ite (.refl ..) ?_
    split
    · exact ((hc ..).andThen (dropSample_areas ..) sub).andThen (faultAt_areas ..) sub
    · exact .ite ((noteStall_areas ..).within sub) (finishInstr_areas ((hc ..).andThenEff (h _)) hl)

/-! ## Alu -/

theorem State.pendRes_areas (s : State) (k : Nat) (p : PendResult) : s.OnlyChanges (s.pendRes k p) [.clu] := (updThr_areas ..).within
theorem State.pendAcc_areas (s : State) (k : Nat) (v : Acc) : s.OnlyChanges (s.pendAcc k v) [.clu] := (pendRes_areas ..).within
theorem State.divUnit_areas (s : State) (k : Nat) (v : Acc) : s.EffIn (s.divUnit k v) [.clu] := .ite trivial (pendRes_areas ..).within

theorem State.openLoop_areas (s : State) (k : Nat) (count : BitVec 16) (b : Nat) : s.EffIn (s.openLoop k count b) [.clu] :=
  .ite (.refl ..) <| .ite (updCtx_areas ..).within (updCtx_areas ..).within

theorem State.branch_areas (s : State) (k : Nat) (target : BitVec 16) : s.EffIn (s.branch k target) [.clu] := (updCtx_areas ..).within
theorem State.setIe_areas (s : State) (k : Nat) (b : Bool) : s.OnlyChanges (s.setIe k b) [.clu] := (updThr_areas ..).within

theorem execLd_areas (t : ThreadId) (da : BitVec 9) (s : State) :
    s.LeadsTo (execLd t da s) [.regs, .fv, .out, .pkt, .clu, .cfg, .hst, .ddr, .dbg] :=
  done_leadsTo (issue_areas fun _ => (setAcc_areas ..).within)

theorem execLdu_areas (t : ThreadId) (da : BitVec 9) (s : State) :
    s.LeadsTo (execLdu t da s) [.regs, .fv, .out, .pkt, .clu, .cfg, .hst, .ddr, .dbg] :=
  done_leadsTo (issue_areas fun _ => (setAcc_areas ..).within)

theorem execSt_areas (t : ThreadId) (da : BitVec 9) (s : State) :
    s.LeadsTo (execSt t da s) [.regs, .fv, .out, .pkt, .clu, .cfg, .hst, .ddr, .dbg] :=
  done_leadsTo (issue_areas fun _ => (setDp_areas ..).within)

theorem execSts_areas (t : ThreadId) (da : BitVec 9) (s : State) :
    s.LeadsTo (execSts t da s) [.regs, .fv, .out, .pkt, .clu, .cfg, .hst, .ddr, .dbg] :=
  done_leadsTo (issue_areas fun _ => (setDp_areas ..).within)

theorem execAdd_areas (t : ThreadId) (da : BitVec 9) (s : State) :
    s.LeadsTo (execAdd t da s) [.regs, .fv, .out, .pkt, .clu, .cfg, .hst, .ddr, .dbg] :=
  done_leadsTo (issue_areas fun _ => (setAcc_areas ..).within)

theorem execAddu_areas (t : ThreadId) (da : BitVec 9) (s : State) :
    s.LeadsTo (execAddu t da s) [.regs, .fv, .out, .pkt, .clu, .cfg, .hst, .ddr, .dbg] :=
  done_leadsTo (issue_areas fun _ => (setAcc_areas ..).within)

theorem execSub_areas (t : ThreadId) (da : BitVec 9) (s : State) :
    s.LeadsTo (execSub t da s) [.regs, .fv, .out, .pkt, .clu, .cfg, .hst, .ddr, .dbg] :=
  done_leadsTo (issue_areas fun _ => (setAcc_areas ..).within)

theorem execAndDp_areas (t : ThreadId) (da : BitVec 9) (s : State) :
    s.LeadsTo (execAndDp t da s) [.regs, .fv, .out, .pkt, .clu, .cfg, .hst, .ddr, .dbg] :=
  done_leadsTo (issue_areas fun _ => (setAcc_areas ..).within)

theorem execOrDp_areas (t : ThreadId) (da : BitVec 9) (s : State) :
    s.LeadsTo (execOrDp t da s) [.regs, .fv, .out, .pkt, .clu, .cfg, .hst, .ddr, .dbg] :=
  done_leadsTo (issue_areas fun _ => (setAcc_areas ..).within)

theorem execXorDp_areas (t : ThreadId) (da : BitVec 9) (s : State) :
    s.LeadsTo (execXorDp t da s) [.regs, .fv, .out, .pkt, .clu, .cfg, .hst, .ddr, .dbg] :=
  done_leadsTo (issue_areas fun _ => (setAcc_areas ..).within)

theorem execMul_areas (t : ThreadId) (da : BitVec 9) (s : State) :
    s.LeadsTo (execMul t da s) [.regs, .fv, .out, .pkt, .clu, .cfg, .hst, .ddr, .dbg] :=
  done_leadsTo (issue_areas fun _ => (pendAcc_areas ..).within)

theorem execMulh_areas (t : ThreadId) (da : BitVec 9) (s : State) :
    s.LeadsTo (execMulh t da s) [.regs, .fv, .out, .pkt, .clu, .cfg, .hst, .ddr, .dbg] :=
  done_leadsTo (issue_areas fun _ => (pendAcc_areas ..).within)

theorem execMovg_areas (t : ThreadId) (ga gb : Fin 8) (s : State) :
    s.LeadsTo (execMovg t ga gb s) [.regs, .fv, .out, .pkt, .clu, .cfg, .hst, .ddr, .dbg] :=
  done_leadsTo (issue_areas fun _ => (setG_areas ..).within)

theorem execMva_areas (t : ThreadId) (ga : Fin 8) (s : State) : s.LeadsTo (execMva t ga s) [.regs, .fv, .out, .pkt, .clu, .cfg, .hst, .ddr, .dbg] :=
  done_leadsTo (issue_areas fun _ => (setAcc_areas ..).within)

theorem execMvau_areas (t : ThreadId) (ga : Fin 8) (s : State) :
    s.LeadsTo (execMvau t ga s) [.regs, .fv, .out, .pkt, .clu, .cfg, .hst, .ddr, .dbg] :=
  done_leadsTo (issue_areas fun _ => (setAcc_areas ..).within)

theorem execMvg_areas (t : ThreadId) (ga : Fin 8) (s : State) : s.LeadsTo (execMvg t ga s) [.regs, .fv, .out, .pkt, .clu, .cfg, .hst, .ddr, .dbg] :=
  done_leadsTo (issue_areas fun _ => (setG_areas ..).within)

theorem execAddg_areas (t : ThreadId) (ga gb : Fin 8) (s : State) :
    s.LeadsTo (execAddg t ga gb s) [.regs, .fv, .out, .pkt, .clu, .cfg, .hst, .ddr, .dbg] :=
  done_leadsTo (issue_areas fun _ => (setG_areas ..).within)

theorem execSubg_areas (t : ThreadId) (ga gb : Fin 8) (s : State) :
    s.LeadsTo (execSubg t ga gb s) [.regs, .fv, .out, .pkt, .clu, .cfg, .hst, .ddr, .dbg] :=
  done_leadsTo (issue_areas fun _ => (setG_areas ..).within)

theorem execAndg_areas (t : ThreadId) (ga gb : Fin 8) (s : State) :
    s.LeadsTo (execAndg t ga gb s) [.regs, .fv, .out, .pkt, .clu, .cfg, .hst, .ddr, .dbg] :=
  done_leadsTo (issue_areas fun _ => (setG_areas ..).within)

theorem execOrg_areas (t : ThreadId) (ga gb : Fin 8) (s : State) :
    s.LeadsTo (execOrg t ga gb s) [.regs, .fv, .out, .pkt, .clu, .cfg, .hst, .ddr, .dbg] :=
  done_leadsTo (issue_areas fun _ => (setG_areas ..).within)

theorem execXorg_areas (t : ThreadId) (ga gb : Fin 8) (s : State) :
    s.LeadsTo (execXorg t ga gb s) [.regs, .fv, .out, .pkt, .clu, .cfg, .hst, .ddr, .dbg] :=
  done_leadsTo (issue_areas fun _ => (setG_areas ..).within)

theorem execCeq_areas (t : ThreadId) (ga gb : Fin 8) (s : State) :
    s.LeadsTo (execCeq t ga gb s) [.regs, .fv, .out, .pkt, .clu, .cfg, .hst, .ddr, .dbg] :=
  done_leadsTo (issue_areas fun _ => (setG_areas ..).within)

theorem execCne_areas (t : ThreadId) (ga gb : Fin 8) (s : State) :
    s.LeadsTo (execCne t ga gb s) [.regs, .fv, .out, .pkt, .clu, .cfg, .hst, .ddr, .dbg] :=
  done_leadsTo (issue_areas fun _ => (setG_areas ..).within)

theorem execClt_areas (t : ThreadId) (ga gb : Fin 8) (s : State) :
    s.LeadsTo (execClt t ga gb s) [.regs, .fv, .out, .pkt, .clu, .cfg, .hst, .ddr, .dbg] :=
  done_leadsTo (issue_areas fun _ => (setG_areas ..).within)

theorem execCge_areas (t : ThreadId) (ga gb : Fin 8) (s : State) :
    s.LeadsTo (execCge t ga gb s) [.regs, .fv, .out, .pkt, .clu, .cfg, .hst, .ddr, .dbg] :=
  done_leadsTo (issue_areas fun _ => (setG_areas ..).within)

theorem execCltu_areas (t : ThreadId) (ga gb : Fin 8) (s : State) :
    s.LeadsTo (execCltu t ga gb s) [.regs, .fv, .out, .pkt, .clu, .cfg, .hst, .ddr, .dbg] :=
  done_leadsTo (issue_areas fun _ => (setG_areas ..).within)

theorem execCgeu_areas (t : ThreadId) (ga gb : Fin 8) (s : State) :
    s.LeadsTo (execCgeu t ga gb s) [.regs, .fv, .out, .pkt, .clu, .cfg, .hst, .ddr, .dbg] :=
  done_leadsTo (issue_areas fun _ => (setG_areas ..).within)

theorem execPar_areas (t : ThreadId) (ga gb : Fin 8) (s : State) :
    s.LeadsTo (execPar t ga gb s) [.regs, .fv, .out, .pkt, .clu, .cfg, .hst, .ddr, .dbg] :=
  done_leadsTo (issue_areas fun _ => (setG_areas ..).within)

theorem execBrev_areas (t : ThreadId) (ga gb : Fin 8) (s : State) :
    s.LeadsTo (execBrev t ga gb s) [.regs, .fv, .out, .pkt, .clu, .cfg, .hst, .ddr, .dbg] :=
  done_leadsTo (issue_areas fun _ => (setG_areas ..).within)

theorem execBswp_areas (t : ThreadId) (ga gb : Fin 8) (s : State) :
    s.LeadsTo (execBswp t ga gb s) [.regs, .fv, .out, .pkt, .clu, .cfg, .hst, .ddr, .dbg] :=
  done_leadsTo (issue_areas fun _ => (setG_areas ..).within)

theorem execCrcb_areas (t : ThreadId) (p : Fin 4) (gb : Fin 8) (s : State) :
    s.LeadsTo (execCrcb t p gb s) [.regs, .fv, .out, .pkt, .clu, .cfg, .hst, .ddr, .dbg] :=
  done_leadsTo (issue_areas fun _ => (setAcc_areas ..).within)

theorem execCrcw_areas (t : ThreadId) (p : Fin 4) (gb : Fin 8) (s : State) :
    s.LeadsTo (execCrcw t p gb s) [.regs, .fv, .out, .pkt, .clu, .cfg, .hst, .ddr, .dbg] :=
  done_leadsTo (issue_areas fun _ => (setAcc_areas ..).within)

theorem execLdi_areas (t : ThreadId) (imm : BitVec 8) (s : State) :
    s.LeadsTo (execLdi t imm s) [.regs, .fv, .out, .pkt, .clu, .cfg, .hst, .ddr, .dbg] :=
  done_leadsTo (issue_areas fun _ => (setAcc_areas ..).within)

theorem execAddi_areas (t : ThreadId) (imm : BitVec 8) (s : State) :
    s.LeadsTo (execAddi t imm s) [.regs, .fv, .out, .pkt, .clu, .cfg, .hst, .ddr, .dbg] :=
  done_leadsTo (issue_areas fun _ => (setAcc_areas ..).within)

theorem execAndi_areas (t : ThreadId) (imm : BitVec 8) (s : State) :
    s.LeadsTo (execAndi t imm s) [.regs, .fv, .out, .pkt, .clu, .cfg, .hst, .ddr, .dbg] :=
  done_leadsTo (issue_areas fun _ => (setAcc_areas ..).within)

theorem execShf_areas (t : ThreadId) (ty : Fin 4) (n : BitVec 6) (s : State) :
    s.LeadsTo (execShf t ty n s) [.regs, .fv, .out, .pkt, .clu, .cfg, .hst, .ddr, .dbg] :=
  done_leadsTo (issue_areas fun _ => (setAcc_areas ..).within)

theorem execLoop_areas (t : ThreadId) (gs : Fin 8) (b1 : Fin 64) (s : State) :
    s.LeadsTo (execLoop t gs b1 s) [.regs, .fv, .out, .pkt, .clu, .cfg, .hst, .ddr, .dbg] :=
  done_leadsTo (issue_areas fun _ => (openLoop_areas ..).within)

theorem execLoopi_areas (t : ThreadId) (n1 : Fin 32) (b1 : Fin 16) (s : State) :
    s.LeadsTo (execLoopi t n1 b1 s) [.regs, .fv, .out, .pkt, .clu, .cfg, .hst, .ddr, .dbg] :=
  done_leadsTo (issue_areas fun _ => (openLoop_areas ..).within)

theorem execBz_areas (t : ThreadId) (gs : Fin 8) (rel : BitVec 6) (s : State) :
    s.LeadsTo (execBz t gs rel s) [.regs, .fv, .out, .pkt, .clu, .cfg, .hst, .ddr, .dbg] :=
  done_leadsTo (issue_areas fun _ => .ite (branch_areas ..).within (.refl ..))

theorem execBnz_areas (t : ThreadId) (gs : Fin 8) (rel : BitVec 6) (s : State) :
    s.LeadsTo (execBnz t gs rel s) [.regs, .fv, .out, .pkt, .clu, .cfg, .hst, .ddr, .dbg] :=
  done_leadsTo (issue_areas fun _ => .ite (.refl ..) (branch_areas ..).within)

theorem execBra_areas (t : ThreadId) (rel : BitVec 9) (s : State) :
    s.LeadsTo (execBra t rel s) [.regs, .fv, .out, .pkt, .clu, .cfg, .hst, .ddr, .dbg] :=
  done_leadsTo (issue_areas fun _ => (branch_areas ..).within)

theorem execLdl_areas (t : ThreadId) (imm : BitVec 20) (s : State) :
    s.LeadsTo (execLdl t imm s) [.regs, .fv, .out, .pkt, .clu, .cfg, .hst, .ddr, .dbg] :=
  done_leadsTo (issue_areas fun _ => (setAcc_areas ..).within)

theorem execLdlh_areas (t : ThreadId) (imm : BitVec 20) (s : State) :
    s.LeadsTo (execLdlh t imm s) [.regs, .fv, .out, .pkt, .clu, .cfg, .hst, .ddr, .dbg] :=
  done_leadsTo (issue_areas fun _ => (setAcc_areas ..).within)

theorem execJmpf_areas (t : ThreadId) (addr : BitVec 16) (s : State) :
    s.LeadsTo (execJmpf t addr s) [.regs, .fv, .out, .pkt, .clu, .cfg, .hst, .ddr, .dbg] :=
  done_leadsTo (issue_areas fun _ => (branch_areas ..).within)

theorem execCallf_areas (t : ThreadId) (addr : BitVec 16) (s : State) :
    s.LeadsTo (execCallf t addr s) [.regs, .fv, .out, .pkt, .clu, .cfg, .hst, .ddr, .dbg] :=
  done_leadsTo (issue_areas fun _ => (setG_areas ..).within |>.andThen (updCtx_areas ..))

theorem execNop_areas (t : ThreadId) (s : State) : s.LeadsTo (execNop t s) [.regs, .fv, .out, .pkt, .clu, .cfg, .hst, .ddr, .dbg] :=
  done_leadsTo (issue_areas fun _ => .refl ..)

theorem execSynci_areas (t : ThreadId) (s : State) : s.LeadsTo (execSynci t s) [.regs, .fv, .out, .pkt, .clu, .cfg, .hst, .ddr, .dbg] :=
  done_leadsTo (issue_areas fun _ => (updCtx_areas ..).within)

theorem execRet_areas (t : ThreadId) (s : State) : s.LeadsTo (execRet t s) [.regs, .fv, .out, .pkt, .clu, .cfg, .hst, .ddr, .dbg] :=
  done_leadsTo (issue_areas fun _ => (updCtx_areas ..).within)

theorem execReti_areas (t : ThreadId) (s : State) : s.LeadsTo (execReti t s) [.regs, .fv, .out, .pkt, .clu, .cfg, .hst, .ddr, .dbg] :=
  done_leadsTo (issue_areas fun _ => (setIe_areas ..).within |>.andThen (updCtx_areas ..))

theorem execEi_areas (t : ThreadId) (s : State) : s.LeadsTo (execEi t s) [.regs, .fv, .out, .pkt, .clu, .cfg, .hst, .ddr, .dbg] :=
  done_leadsTo (issue_areas fun _ => (setIe_areas ..).within)

theorem execDi_areas (t : ThreadId) (s : State) : s.LeadsTo (execDi t s) [.regs, .fv, .out, .pkt, .clu, .cfg, .hst, .ddr, .dbg] :=
  done_leadsTo (issue_areas fun _ => (setIe_areas ..).within)

theorem execMtx_areas (t : ThreadId) (a1 : Fin 2) (gs : Fin 8) (s : State) :
    s.LeadsTo (execMtx t a1 gs s) [.regs, .fv, .out, .pkt, .clu, .cfg, .hst, .ddr, .dbg] :=
  done_leadsTo (issue_areas fun _ => (setIx_areas ..).within)

theorem execMfx_areas (t : ThreadId) (a1 : Fin 2) (gs : Fin 8) (s : State) :
    s.LeadsTo (execMfx t a1 gs s) [.regs, .fv, .out, .pkt, .clu, .cfg, .hst, .ddr, .dbg] :=
  done_leadsTo (issue_areas fun _ => (setG_areas ..).within)

theorem execAdx_areas (t : ThreadId) (a1 : Fin 2) (gs : Fin 8) (s : State) :
    s.LeadsTo (execAdx t a1 gs s) [.regs, .fv, .out, .pkt, .clu, .cfg, .hst, .ddr, .dbg] :=
  done_leadsTo (issue_areas fun _ => (setIx_areas ..).within)

theorem execDiv_areas (t : ThreadId) (gs : Fin 8) (s : State) : s.LeadsTo (execDiv t gs s) [.regs, .fv, .out, .pkt, .clu, .cfg, .hst, .ddr, .dbg] :=
  done_leadsTo (issue_areas fun _ => (divUnit_areas ..).within)

theorem execSqrt_areas (t : ThreadId) (s : State) : s.LeadsTo (execSqrt t s) [.regs, .fv, .out, .pkt, .clu, .cfg, .hst, .ddr, .dbg] :=
  done_leadsTo (issue_areas fun _ => (divUnit_areas ..).within)

/-! ## Frames -/

theorem State.updFrame_areas (s : State) (f : Nat) (g : Frame → Frame) : s.OnlyChanges (s.updFrame f g) [.pkt] := (setFrame_areas ..).within

theorem State.updTag_areas (s : State) (f : Nat) (g : TagRec → TagRec) : s.OnlyChanges (s.updTag f g) [.dbg] :=
  .ite (setTagRec_areas ..).within (.refl ..)

theorem State.tagTime_areas (s : State) (f w : Nat) : s.OnlyChanges (s.tagTime f w) [.dbg] := (updTag_areas ..).within
theorem State.tagEnd_areas (s : State) (f code : Nat) : s.OnlyChanges (s.tagEnd f code) [.dbg] := (updTag_areas ..).within

theorem State.tagFlush1_areas (s : State) (f : Nat) (second : Bool) : s.OnlyChanges (s.tagFlush1 f second) [.regs, .ddr, .dbg] :=
  .ite ((setTagRec_areas ..).within |>.trans (ringPut_areas fun _ => (inc_areas ..).within)) (.refl ..)

theorem State.tagFlush_areas (s : State) (f : Nat) : s.OnlyChanges (s.tagFlush f) [.regs, .ddr, .dbg] :=
  (tagFlush1_areas ..).within |>.andThen (tagFlush1_areas ..)

theorem State.capture_areas (s : State) (c : Nat) (rec : List Byte) : s.OnlyChanges (s.capture c rec) [.regs, .out, .hst, .ddr] :=
  .ite (ringPut_areas fun _ => (inc_areas ..).within |>.andThen (sqc_areas ..)) (.refl ..)

theorem State.captureFrame_areas (s : State) (f : Nat) : s.OnlyChanges (s.captureFrame f) [.regs, .out, .hst, .ddr] :=
  .ite (capture_areas ..).within (.refl ..)

theorem State.retire_areas (s : State) (f : Nat) : s.OnlyChanges (s.retire f) [.regs, .pkt, .ddr, .dbg] :=
  (tagFlush_areas ..).within |>.andIf (setFrame_areas ..).within

theorem State.dropFrame_areas (s : State) (f : Nat) : s.OnlyChanges (s.dropFrame f) [.pkt] := (setFrame_areas ..).within

/-! ## Aut -/

theorem State.enterEngine_areas (s : State) (f : Nat) : s.OnlyChanges (s.enterEngine f) [.aut, .pkt] :=
  .ite (.refl ..) <| .ite (.ite (updFrame_areas ..).within (with_aut ..).within) <| .ite (.ite (updFrame_areas ..).within (with_aut ..).within)
    (.refl ..)

theorem State.bookCtx_areas (s : State) (f code : Nat) : s.OnlyChanges (s.bookCtx f code) [.aut] := .ite (.refl ..) (setAutCtx_areas ..).within

theorem State.bookVerdict_areas (s : State) (f code : Nat) : s.OnlyChanges (s.bookVerdict f code) [.regs, .out, .hst] := by
  unfold State.bookVerdict
  split
  · exact (inc_areas ..).within
  · exact (inc_areas ..).within
  · exact (inc_areas ..).within |>.andThen (sqc_areas ..)
  · exact (inc_areas ..).within |>.andThen (sqc_areas ..)
  · exact (inc_areas ..).within |>.andThen (sqc_areas ..)
  · exact (inc_areas ..).within |>.andThen (sqc_areas ..) |>.andIf (sqc_areas ..).within
  · exact (inc_areas ..).within |>.andThen (sqc_areas ..)
  · exact (inc_areas ..).within |>.andThen (sqc_areas ..)
  · exact (inc_areas ..).within |>.andThen (sqc_areas ..)
  · exact (inc_areas ..).within

theorem State.signPub_areas (s : State) (i : Nat) (routed : Bool) (b : List Byte) :
    s.OnlyChanges (s.signPub i routed b).2 [.regs, .out, .aut, .hst] := by
  unfold State.signPub
  split
  · exact (setAutCtx_areas ..).within |>.andThen (inc_areas ..) |>.andIf (sqc_areas ..).within
  · exact (inc_areas ..).within |>.andThen (sqc_areas ..)

theorem execPrevHoldExpire_areas (s : State) : s.LeadsTo (execPrevHoldExpire s) [.regs, .out, .aut] :=
  done_leadsTo <| .ite ((setRb_areas ..).within |>.andThen (with_aut ..)) (.refl ..)

theorem State.resetWindow_areas (s : State) (who : Accessor) : s.OnlyChanges (s.resetWindow who) [.regs, .out, .aut, .hst] :=
  .ite (setReg_areas ..).within
    (.ite ((setReg_areas ..).within |>.andThen (sqc_areas ..)) ((setAutCtx_areas ..).within |>.andThen (setReg_areas ..)))

theorem execResetWindow_areas (who : Accessor) (_val : Word) (s : State) : s.LeadsTo (execResetWindow who _val s) [.regs, .out, .aut, .hst] :=
  done_leadsTo (writeCmd_areas fun _ => (resetWindow_areas ..).within)

theorem execAutCtxSelect_areas (who : Accessor) (val : Word) (s : State) : s.LeadsTo (execAutCtxSelect who val s) [.regs, .out, .hst] :=
  done_leadsTo (writeCmd_areas fun _ => (setReg_areas ..).within |>.each (fun _ _ => (setReg_areas ..).within))

/-! ## Cpx -/

theorem State.cpxFree_areas (s : State) (op : Nat) : s.OnlyChanges (s.cpxFree op).2 [.fv] := .ite_snd (with_fv ..).within (.refl ..)

theorem State.cpxStart_areas (s : State) (key : Nat) : s.OnlyChanges (s.cpxStart key) [.regs, .fv, .cpx] := by
  unfold State.cpxStart
  dsimp only
  split
  · exact (setCpxCmd_areas ..).within |>.andThen (inc_areas ..)
  · exact (cpxFree_areas ..).within |>.andThen (setCpxCmd_areas ..) |>.andThen (add_areas ..) |>.andThen (add_areas ..)

theorem execCpxCommandStart_areas (core : Fin 96) (tag : Fin 16) (waited : Nat) (s : State) :
    s.LeadsTo (execCpxCommandStart core tag waited s) [.regs, .fv, .out, .cpx] :=
  done_leadsTo <| .ite ((cpxStart_areas ..).within |>.andThen (add_areas ..) |>.andThen (pmuClu_areas ..)) (.refl ..)

theorem State.setCreg_areas (s : State) (k n : Nat) (f : CReg → CReg) : s.OnlyChanges (s.setCreg k n f) [.clu] := (updCtx_areas ..).within

theorem State.cpxStore_areas (s : State) (c : CpxCmd) : s.OnlyChanges (s.cpxStore c) [.clu] :=
  .ite ((updCtx_areas ..).within |>.andThen (updThr_areas ..))
    (.ite (setCreg_areas ..).within (.ite (setCreg_areas ..).within (each_areas fun _ _ => (setCreg_areas ..).within)))

theorem State.cpxFinish_areas (s : State) (key : Nat) :
    s.OnlyChanges (s.cpxFinish key) [.regs, .out, .pkt, .clu, .cpx, .cfg, .hst, .ddr, .dbg] := by
  refine .ite (setCpxCmd_areas ..).within ?_
  split
  · exact (setCpxCmd_areas ..).within |>.andThen (cpxStore_areas ..) |>.andIf (retireSample_areas ..).within |>.andThen (faultAt_areas ..)
  · exact (setCpxCmd_areas ..).within |>.andThen (cpxStore_areas ..) |>.andIf (retireSample_areas ..).within

theorem execCpxResultWrite_areas (core : Fin 96) (tag : Fin 16) (s : State) :
    s.LeadsTo (execCpxResultWrite core tag s) [.regs, .out, .pkt, .clu, .cpx, .cfg, .hst, .ddr, .dbg] :=
  done_leadsTo <| .ite (cpxFinish_areas ..).within (.refl ..)

theorem State.cpxDrain_areas (s : State) (k : Nat) : s.OnlyChanges (s.cpxDrain k) [.regs, .fv, .out, .pkt, .clu, .cpx, .cfg, .hst, .ddr, .dbg] :=
  each_areas fun _ _ => OnlyChanges.ite (.refl ..) (cpxStart_areas ..).within |>.andThen (cpxFinish_areas ..)

theorem State.cpxQueue_areas (s : State) (k op cd ca cb gs m : Nat) : s.EffIn (s.cpxQueue k op cd ca cb gs m) [.regs, .clu, .cpx] := by
  unfold State.cpxQueue
  dsimp only
  split
  · exact .ite trivial ((setCpxCmd_areas ..).within |>.andThen (with_cpx ..) |>.andIf (pendRes_areas ..).within |>.andThen (inc_areas ..)
        |>.andThen (pmuCore_areas ..))
  · exact trivial

theorem State.cpxIssue_areas (s : State) (t : ThreadId) (i : Instr) (op : Nat) (cd ca cb gs : Fin 8) (m : BitVec 5) :
    s.LeadsTo (s.cpxIssue t i op cd ca cb gs m) [.regs, .fv, .out, .pkt, .clu, .cpx, .cfg, .hst, .ddr, .dbg] :=
  done_leadsTo (issue_areas fun _ => (cpxQueue_areas ..).within)

/-! ## Mail -/

theorem State.mbStage_areas (s : State) (m w : Nat) (val : Word) : s.OnlyChanges (s.mbStage m w val) [.clu] := (setMbox_areas ..).within

theorem State.mbArrive_areas (s : State) (c m : Nat) (ws : Vector Word 4) (wakes : Bool) :
    s.OnlyChanges (s.mbArrive c m ws wakes) [.regs, .out, .clu, .hst, .ddr] :=
  (setMbox_areas ..).within |>.andIf ((inc_areas ..).within |>.andThen (lckEvent_areas ..)) |>.andIf (wakeSource_areas ..).within

theorem State.mbPostNow_areas (s : State) (c m : Nat) (val : Word) : s.OnlyChanges (s.mbPostNow c m val) [.regs, .out, .clu, .hst, .pai, .ddr] :=
  .ite (mbArrive_areas ..).within (.ite ((with_pai ..).within |>.andThen (inc_areas ..) |>.andThen (emit_areas ..))
      ((setMbox_areas ..).within |>.andThen (inc_areas ..) |>.andThen (lckEvent_areas ..)))

theorem State.mbTakeNow_areas (s : State) (m : Nat) : s.OnlyChanges (s.mbTakeNow m) [.clu] := .ite (setMbox_areas ..).within (.refl ..)

theorem State.mbWrite_areas {s : State} {who : Accessor} {c m : Nat} {f : State → State} {l : List Area} (h : ∀ x, State.OnlyChanges x (f x) l)
    (hl : [.regs, .out, .hst] ⊆ l := by decide) : s.OnlyChanges (s.mbWrite who c m f) l :=
  .ite (.refl ..) (.ite ((denyWrite_areas ..).within hl) (.ite (h s) (.refl ..)))

theorem execMbDataWrite_areas (who : Accessor) (c : Fin 6) (m : BitVec 8) (w : Fin 4) (val : Word) (s : State) :
    s.LeadsTo (execMbDataWrite who c m w val s) [.regs, .out, .clu, .hst] :=
  done_leadsTo (mbWrite_areas fun _ => (mbStage_areas ..).within)

theorem State.releaseBy_areas (s : State) (who : Accessor) : s.OnlyChanges (s.releaseBy who) [.clu] := by
  unfold State.releaseBy
  split
  · exact (drainStores_areas ..).within
  · exact .refl ..

theorem execMbPost_areas (who : Accessor) (c : Fin 6) (m : BitVec 8) (val : Word) (s : State) :
    s.LeadsTo (execMbPost who c m val s) [.regs, .out, .clu, .hst, .pai, .ddr] :=
  done_leadsTo (mbWrite_areas fun _ => (releaseBy_areas ..).within |>.andThen (mbPostNow_areas ..))

theorem execMbTake_areas (who : Accessor) (c : Fin 6) (m : BitVec 8) (s : State) : s.LeadsTo (execMbTake who c m s) [.out, .clu] :=
  done_leadsTo <| .ite (.ite (emit_areas ..).within ((mbTakeNow_areas ..).within |>.andThen (emit_areas ..))) (emit_areas ..).within

theorem State.lockTry_areas (s : State) (k : Nat) (glob : Bool) (i : Nat) : s.OnlyChanges (s.lockTry k glob i).2 [.regs, .out, .clu, .hst] :=
  (requestLock_areas ..).within

theorem execLockTryRead_areas (t : ThreadId) (global : Bool) (i : BitVec 8) (s : State) :
    s.LeadsTo (execLockTryRead t global i s) [.regs, .out, .clu, .hst] :=
  done_leadsTo <| .ite (.refl ..) ((lockTry_areas ..).within |>.andThen (emit_areas ..))

/-! ## Blocking -/

theorem State.startWait_areas {s : State} {k : Nat} {what : WaitFor} {ga : Fin 8} {q : State → State} {l : List Area}
    (h : ∀ x, State.OnlyChanges x (q x) l) (hl : [.clu] ⊆ l := by decide) : s.EffIn (s.startWait k what ga q) l := by
  have hw : s.OnlyChanges ((q s).updThr k fun t => { t with st := .waiting, wait := some { what := what, ga := ga.val, since := s.up } }) l :=
    (h s).andThen (updThr_areas ..) hl
  exact .ite (.ite (hw.andThen (leaveThread_areas ..) hl) trivial) hw

theorem chanFault_areas (s : State) (ch : Nat) : s.EffIn (chanFault s ch) [] := .refl ..

theorem State.openChan_areas (s : State) (k : Nat) (ga gb : Fin 8) (blocking : Bool) : s.EffIn (s.openChan k ga gb blocking) [.clu] :=
  .ite (chanFault_areas ..).within (.ite ((setChan_areas ..).within |>.andThen (setG_areas ..))
      (.ite (setG_areas ..).within (startWait_areas fun _ => (setChan_areas ..).within)))

theorem State.recvChan_areas (s : State) (k : Nat) (ga gb : Fin 8) (blocking : Bool) :
    s.EffIn (s.recvChan k ga gb blocking) [.regs, .clu, .ddr, .dbg] :=
  .ite (chanFault_areas ..).within (.ite ((takeChan_areas ..).within |>.andThen (updThr_areas ..) |>.andThen (setG_areas ..))
      (.ite (setG_areas ..).within (startWait_areas fun _ => (setChan_areas ..).within)))

theorem execChanOpen_areas (t : ThreadId) (ga gb : Fin 8) (s : State) :
    s.LeadsTo (execChanOpen t ga gb s) [.regs, .fv, .out, .pkt, .clu, .cfg, .hst, .ddr, .dbg] :=
  done_leadsTo (issue_areas fun _ => (openChan_areas ..).within)

theorem execChanOpenw_areas (t : ThreadId) (ga gb : Fin 8) (s : State) :
    s.LeadsTo (execChanOpenw t ga gb s) [.regs, .fv, .out, .pkt, .clu, .cfg, .hst, .ddr, .dbg] :=
  done_leadsTo (issue_areas fun _ => (openChan_areas ..).within)

theorem execRecv_areas (t : ThreadId) (ga gb : Fin 8) (s : State) :
    s.LeadsTo (execRecv t ga gb s) [.regs, .fv, .out, .pkt, .clu, .cfg, .hst, .ddr, .dbg] :=
  done_leadsTo (issue_areas fun _ => (recvChan_areas ..).within)

theorem execRecvw_areas (t : ThreadId) (ga gb : Fin 8) (s : State) :
    s.LeadsTo (execRecvw t ga gb s) [.regs, .fv, .out, .pkt, .clu, .cfg, .hst, .ddr, .dbg] :=
  done_leadsTo (issue_areas fun _ => (recvChan_areas ..).within)

theorem execChw_areas (t : ThreadId) (w : Fin 4) (ga gb : Fin 8) (s : State) :
    s.LeadsTo (execChw t w ga gb s) [.regs, .fv, .out, .pkt, .clu, .cfg, .hst, .ddr, .dbg] :=
  done_leadsTo (issue_areas fun _ => .ite (setChan_areas ..).within (chanFault_areas ..).within)

theorem execSend_areas (t : ThreadId) (ga : Fin 8) (n1 : Fin 4) (s : State) :
    s.LeadsTo (execSend t ga n1 s) [.regs, .fv, .out, .pkt, .clu, .cfg, .hst, .ddr, .dbg] :=
  done_leadsTo (issue_areas fun _ => .ite ((drainStores_areas ..).within |>.andThen (sendChan_areas ..)) (chanFault_areas ..).within)

theorem execLock_areas (t : ThreadId) (ga gb : Fin 8) (s : State) :
    s.LeadsTo (execLock t ga gb s) [.regs, .fv, .out, .pkt, .clu, .cfg, .hst, .ddr, .dbg] := by
  refine done_leadsTo ?_
  refine issue_areas fun _ => ?_
  split
  · exact (setG_areas ..).within
  · split
    · exact (requestLock_areas ..).within |>.andThen (setG_areas ..)
    · exact startWait_areas fun _ => (requestLock_areas ..).within

theorem execUnlock_areas (t : ThreadId) (ga gb : Fin 8) (s : State) :
    s.LeadsTo (execUnlock t ga gb s) [.regs, .fv, .out, .pkt, .clu, .cfg, .hst, .ddr, .dbg] := by
  refine done_leadsTo ?_
  refine issue_areas fun _ => ?_
  split
  · exact (setG_areas ..).within
  · exact (drainStores_areas ..).within |>.andThen (releaseLock_areas ..) |>.andThen (setG_areas ..)

theorem execTend_areas (t : ThreadId) (s : State) : s.LeadsTo (execTend t s) [.regs, .fv, .out, .pkt, .clu, .cfg, .hst, .ddr, .dbg] :=
  done_leadsTo (issue_areas fun _ => .ite ((updCtx_areas ..).within |>.andThen (endTask_areas ..)) trivial)

theorem execYield_areas (t : ThreadId) (s : State) : s.LeadsTo (execYield t s) [.regs, .fv, .out, .pkt, .clu, .cfg, .hst, .ddr, .dbg] := by
  refine done_leadsTo ?_
  refine issue_areas fun _ => ?_
  split
  · exact (drainStores_areas ..).within
  · exact .ite ((updCtx_areas ..).within |>.andThen (unready_areas ..) |>.andThen (leaveThread_areas ..) |>.andThen (readyTail_areas ..)
        |>.andThen (updThr_areas ..)) trivial

theorem State.special_areas (s : State) (k n : Nat) : s.ReadIn (s.special k n) [.rdShadow] := by
  refine .ite (.refl ..) <| .ite (.refl ..) <| .ite (.refl ..) ?_
  split
  · exact .refl ..
  · exact .refl ..
  · exact .refl ..
  · exact .refl ..
  · exact .refl ..
  · exact .refl ..
  · exact .refl ..
  · exact (with_rdShadow ..).within
  · exact .refl ..
  · exact .refl ..
  · exact .ite (.refl ..) trivial

theorem execMfs_areas (t : ThreadId) (gs : Fin 8) (s : State) :
    s.LeadsTo (execMfs t gs s) [.regs, .rdShadow, .fv, .out, .pkt, .clu, .cfg, .hst, .ddr, .dbg] := by
  refine done_leadsTo (issue_areas fun x => ?_)
  dsimp only
  split
  · exact .refl ..
  next e => exact .ite (.refl ..) (((special_areas ..).of_some e).within |>.andThen (setG_areas ..))

theorem execResultWriteback_areas (t : ThreadId) (i : Nat) (s : State) :
    s.LeadsTo (execResultWriteback t i s) [.regs, .out, .pkt, .clu, .cfg, .hst, .ddr, .dbg] := by
  unfold execResultWriteback
  dsimp only
  refine done_leadsTo ?_
  split
  · exact .ite (.refl ..) ((updThr_areas ..).within |>.trans (.ite (faultAt_areas ..).within (updCtx_areas ..).within)
        |>.andIf (retireSample_areas ..).within)
  · exact .refl ..

theorem execStoreVisible_areas (t : ThreadId) (s : State) : s.LeadsTo (execStoreVisible t s) [.out, .clu] := by
  unfold execStoreVisible
  dsimp only
  refine done_leadsTo ?_
  split
  · exact (sramWrite_areas ..).within |>.andThen (updThr_areas ..)
  · exact .refl ..

/-! ## Fwd -/

theorem State.fwdBad_areas (s : State) : s.OnlyChanges s.fwdBad [.regs, .out, .hst] := (inc_areas ..).within |>.andThen (sqc_areas ..)

theorem State.fwdDetect_areas (s : State) (fid : Nat) (mac : BitVec 48) : s.OnlyChanges (s.fwdDetect fid mac) [.regs, .out, .hst] :=
  each_areas fun _ _ => .ite (fwdBad_areas ..).within (.refl ..)

theorem State.macHit_areas (s : State) (k : Nat) : s.OnlyChanges (s.macHit k) [.och] := (setMac_areas ..).within |>.andThen (with_och ..)

theorem State.learnPost_areas (s : State) (kind port index fid : Nat) (mac : BitVec 48) :
    s.OnlyChanges (s.learnPost kind port index fid mac) [.regs, .out, .och, .hst] :=
  .ite (inc_areas ..).within
    (.ite ((inc_areas ..).within |>.andThen (sqc_areas ..))
      ((with_och ..).within |>.trans (.ite (inc_areas ..).within (.ite (inc_areas ..).within (.refl ..)))))

theorem State.saLearn_areas (s : State) (port fid : Nat) (sa : BitVec 48) : s.OnlyChanges (s.saLearn port fid sa) [.regs, .out, .och, .hst] := by
  unfold State.saLearn
  dsimp only
  refine .ite (.ite (inc_areas ..).within ?_) (.refl ..)
  split
  · exact (fwdDetect_areas ..).within |>.andThen (learnPost_areas ..)
  · exact (fwdDetect_areas ..).within |>.andThen (macHit_areas ..)
      |>.andUnless ((learnPost_areas ..).within |>.andIf ((inc_areas ..).within |>.andThen (sqc_areas ..)))

theorem State.daLookup_areas (s : State) (port fid : Nat) (da : BitVec 48) : s.OnlyChanges (s.daLookup port fid da).2 [.regs, .out, .hst] := by
  unfold State.daLookup
  dsimp only
  refine .ite_snd ?_ (.refl ..)
  split
  · exact (fwdDetect_areas ..).within |>.andThen (inc_areas ..)
  · exact (fwdDetect_areas ..).within |>.andThen (inc_areas ..)

theorem State.putMac_areas (s : State) (k : Nat) (m : MacSlot) : s.OnlyChanges (s.putMac k m) [.och, .cfg] :=
  (setMac_areas ..).within |>.andThen (with_cfg ..)

theorem State.fwdReturn_areas (s : State) (i : Nat) (m : MacSlot) : s.OnlyChanges (s.fwdReturn i m) [.regs] :=
  (setReg_areas ..).within |>.andThen (setReg_areas ..) |>.andThen (setReg_areas ..) |>.andThen (setReg_areas ..)

theorem State.fwdResult_areas (s : State) (i : Nat) (val : Word) (res : Nat) : s.OnlyChanges (s.fwdResult i val res) [.regs] :=
  (setReg_areas ..).within |>.andThen (setReg_areas ..)

theorem State.fwdLookupCmd_areas (s : State) (i : Nat) (val : Word) : s.OnlyChanges (s.fwdLookupCmd i val) [.regs, .out, .hst] := by
  unfold State.fwdLookupCmd
  dsimp only
  split
  · exact (fwdDetect_areas ..).within |>.andThen (fwdReturn_areas ..) |>.andThen (fwdResult_areas ..)
  · exact (fwdDetect_areas ..).within |>.andThen (fwdResult_areas ..)

theorem State.fwdMoves_areas : ∀ (path : List Nat) (s : State), s.OnlyChanges (State.fwdMoves path s) [.regs, .och, .cfg]
  | [], s => .refl s _
  | [_], s => .refl s _
  | _ :: k :: rest, _ =>
    (putMac_areas ..).within |>.andThen (putMac_areas ..) |>.andThen (inc_areas ..) |>.andThen (fwdMoves_areas (k :: rest) _)

theorem State.fwdInsFail_areas (s : State) : s.OnlyChanges s.fwdInsFail [.regs, .out, .hst] := (inc_areas ..).within |>.andThen (sqc_areas ..)

theorem State.fwdPlace_areas (s : State) (e : MacSlot) : s.OnlyChanges (s.fwdPlace e).2.2 [.regs, .out, .och, .cfg, .hst] := by
  unfold State.fwdPlace
  dsimp only
  split
  · exact (setRf_areas ..).within
  · split
    · exact (setRf_areas ..).within |>.andThen (putMac_areas ..)
    · split
      · exact (setRf_areas ..).within |>.each (fun _ _ => (fwdBad_areas ..).within) |>.andThen (fwdMoves_areas ..) |>.andThen (putMac_areas ..)
      · exact (setRf_areas ..).within |>.each (fun _ _ => (fwdBad_areas ..).within) |>.andThen (fwdInsFail_areas ..)

theorem State.fwdInsertCmd_areas (s : State) (i : Nat) (val : Word) : s.OnlyChanges (s.fwdInsertCmd i val) [.regs, .out, .och, .cfg, .hst] :=
  .ite (fwdResult_areas ..).within
    ((fwdDetect_areas ..).within |>.trans (.ite (fwdResult_areas ..).within ((fwdPlace_areas ..).within |>.andThen (fwdResult_areas ..))))

theorem State.fwdUpdateCmd_areas (s : State) (i : Nat) (val : Word) : s.OnlyChanges (s.fwdUpdateCmd i val) [.regs, .out, .och, .cfg, .hst] := by
  refine .ite (fwdResult_areas ..).within ?_
  split
  · exact (fwdDetect_areas ..).within |>.andThen (putMac_areas ..) |>.andThen (fwdResult_areas ..)
  · exact (fwdDetect_areas ..).within |>.andThen (fwdResult_areas ..)

theorem State.fwdDeleteCmd_areas (s : State) (i : Nat) (val : Word) : s.OnlyChanges (s.fwdDeleteCmd i val) [.regs, .out, .och, .cfg, .hst] := by
  unfold State.fwdDeleteCmd
  dsimp only
  split
  · exact (fwdDetect_areas ..).within |>.andThen (putMac_areas ..) |>.andThen (fwdResult_areas ..)
  · exact (fwdDetect_areas ..).within |>.andThen (fwdResult_areas ..)

theorem State.fwdReadCmd_areas (s : State) (i : Nat) (val : Word) : s.OnlyChanges (s.fwdReadCmd i val) [.regs, .out, .hst] :=
  OnlyChanges.ite (fwdBad_areas ..).within (.refl ..) |>.andThen (fwdReturn_areas ..) |>.andThen (fwdResult_areas ..)

theorem State.fwdFlushCmd_areas (s : State) (i : Nat) (val : Word) : s.OnlyChanges (s.fwdFlushCmd i val) [.regs, .out, .och, .hst] :=
  (with_och ..).within |>.each (fun _ _ => (fwdBad_areas ..).within) |>.andThen (fwdResult_areas ..)

theorem State.fwdClearCmd_areas (s : State) (i : Nat) (val : Word) : s.OnlyChanges (s.fwdClearCmd i val) [.regs, .och, .cfg] :=
  (putMac_areas ..).within |>.andThen (fwdResult_areas ..)

theorem State.fwdRun_areas (s : State) (who : Accessor) (i : Nat) (val : Word) :
    s.OnlyChanges (s.fwdRun who i val) [.regs, .out, .och, .cfg, .hst] := by
  refine .ite (fwdResult_areas ..).within ?_
  split
  · exact (fwdLookupCmd_areas ..).within
  · exact (fwdInsertCmd_areas ..).within
  · exact (fwdUpdateCmd_areas ..).within
  · exact (fwdDeleteCmd_areas ..).within
  · exact (fwdReadCmd_areas ..).within
  · exact (fwdFlushCmd_areas ..).within
  · exact (fwdClearCmd_areas ..).within
  · exact (fwdResult_areas ..).within

theorem State.fwdWrite_areas (s : State) (who : Accessor) (i op : Nat) (val : Word) :
    s.OnlyChanges (s.fwdWrite who i op val) [.regs, .out, .och, .cfg, .hst] :=
  writeCmd_areas fun _ => (fwdRun_areas ..).within

theorem State.fwdApply_areas (s : State) (e : MacSlot) : s.OnlyChanges (s.fwdApply e) [.regs, .out, .och, .cfg, .hst] := by
  unfold State.fwdApply
  dsimp only
  refine .ite (fwdInsFail_areas ..).within ?_
  split
  · exact (fwdDetect_areas ..).within |>.andThen (putMac_areas ..)
  · exact (fwdDetect_areas ..).within |>.trans (.ite (fwdInsFail_areas ..).within (fwdPlace_areas ..).within)

theorem execFwdLookup_areas (who : Accessor) (i : Fin 2) (val : Word) (s : State) :
    s.LeadsTo (execFwdLookup who i val s) [.regs, .out, .och, .cfg, .hst] :=
  done_leadsTo (fwdWrite_areas ..).within

theorem execFwdInsert_areas (who : Accessor) (i : Fin 2) (val : Word) (s : State) :
    s.LeadsTo (execFwdInsert who i val s) [.regs, .out, .och, .cfg, .hst] :=
  done_leadsTo (fwdWrite_areas ..).within

theorem execFwdUpdate_areas (who : Accessor) (i : Fin 2) (val : Word) (s : State) :
    s.LeadsTo (execFwdUpdate who i val s) [.regs, .out, .och, .cfg, .hst] :=
  done_leadsTo (fwdWrite_areas ..).within

theorem execFwdDelete_areas (who : Accessor) (i : Fin 2) (val : Word) (s : State) :
    s.LeadsTo (execFwdDelete who i val s) [.regs, .out, .och, .cfg, .hst] :=
  done_leadsTo (fwdWrite_areas ..).within

theorem execFwdRead_areas (who : Accessor) (i : Fin 2) (val : Word) (s : State) :
    s.LeadsTo (execFwdRead who i val s) [.regs, .out, .och, .cfg, .hst] :=
  done_leadsTo (fwdWrite_areas ..).within

theorem execFwdFlush_areas (who : Accessor) (i : Fin 2) (val : Word) (s : State) :
    s.LeadsTo (execFwdFlush who i val s) [.regs, .out, .och, .cfg, .hst] :=
  done_leadsTo (fwdWrite_areas ..).within

theorem execFwdClear_areas (who : Accessor) (i : Fin 2) (val : Word) (s : State) :
    s.LeadsTo (execFwdClear who i val s) [.regs, .out, .och, .cfg, .hst] :=
  done_leadsTo (fwdWrite_areas ..).within

theorem State.fwdPop_areas (s : State) : s.OnlyChanges (s.fwdPop).2 [.regs, .och] := by
  unfold State.fwdPop
  split
  · exact .refl ..
  · exact (with_och ..).within |>.each (fun _ _ => (setReg_areas ..).within)

theorem execFwdLqPop_areas (who : Accessor) (s : State) : s.LeadsTo (execFwdLqPop who s) [.regs, .out, .och] :=
  done_leadsTo (rttRead_areas (fwdPop_areas ..).within)

theorem State.sweepSlot_areas (s : State) (k : Nat) : s.OnlyChanges (s.sweepSlot k) [.regs, .out, .och, .hst] :=
  .ite ((fwdBad_areas ..).within |>.andThen (learnPost_areas ..))
    (.ite (.ite (.refl ..) (.ite (setMac_areas ..).within ((setMac_areas ..).within |>.andThen (learnPost_areas ..) |>.andThen (inc_areas ..))))
      (.refl ..))

theorem State.sweepVisit_areas (s : State) : s.OnlyChanges s.sweepVisit [.regs, .out, .och, .hst] := by
  unfold State.sweepVisit
  exact (sweepSlot_areas ..).within |>.andThen (setRf_areas ..) |>.andThen (with_och ..)

theorem execAgingSweepVisit_areas (s : State) : s.LeadsTo (execAgingSweepVisit s) [.regs, .out, .och, .hst] :=
  done_leadsTo <| .ite (sweepVisit_areas ..).within (.refl ..)

/-! ## Classifier -/

theorem State.setSlotOf_areas (s : State) (t n : Nat) (a3 : ClsSlot) : s.OnlyChanges (s.setSlotOf t n a3) [.ing, .cfg] :=
  (setClsSlot_areas ..).within |>.andThen (with_cfg ..)

theorem State.clsTable_areas (s : State) (t port : Nat) (p : Parse) : s.OnlyChanges (s.clsTable t port p).2 [.regs, .out, .hst] := by
  unfold State.clsTable
  dsimp only
  refine .ite_snd ?_ (.refl ..)
  split
  · exact .ite_snd (OnlyChanges.ite ((inc_areas ..).within |>.andThen (sqc_areas ..)) (.refl ..) |>.andThen (inc_areas ..))
      (.ite ((inc_areas ..).within |>.andThen (sqc_areas ..)) (.refl ..))
  · exact .ite ((inc_areas ..).within |>.andThen (sqc_areas ..)) (.refl ..)

theorem State.clsSearch_areas (s : State) (port : Nat) (p : Parse) : s.OnlyChanges (s.clsSearch port p).2 [.regs, .out, .hst] := by
  unfold State.clsSearch
  dsimp only
  split
  · exact (clsTable_areas ..).within |>.andThen (clsTable_areas ..)
  · exact (clsTable_areas ..).within |>.andThen (clsTable_areas ..)
  · exact (clsTable_areas ..).within |>.andThen (clsTable_areas ..)

theorem State.clsReturn_areas (s : State) (i : Nat) (r : List Word) : s.OnlyChanges (s.clsReturn i r) [.regs] :=
  each_areas fun _ _ => (setReg_areas ..).within

theorem State.clsResult_areas (s : State) (i : Nat) (val : Word) (res : Nat) : s.OnlyChanges (s.clsResult i val res) [.regs] :=
  (setReg_areas ..).within |>.andThen (setReg_areas ..)

theorem State.clsFull_areas (s : State) : s.OnlyChanges s.clsFull [.regs, .out, .hst] := (inc_areas ..).within |>.andThen (sqc_areas ..)

theorem State.clsLookupCmd_areas (s : State) (i t : Nat) (val : Word) : s.OnlyChanges (s.clsLookupCmd i t val) [.regs] := by
  unfold State.clsLookupCmd
  split
  · exact (clsReturn_areas ..).within |>.andThen (clsResult_areas ..)
  · exact (clsResult_areas ..).within

theorem State.clsInsertCmd_areas (s : State) (i t : Nat) (val : Word) : s.OnlyChanges (s.clsInsertCmd i t val) [.regs, .out, .ing, .cfg, .hst] := by
  refine .ite (clsResult_areas ..).within <| .ite (clsResult_areas ..).within ?_
  split
  · exact (setSlotOf_areas ..).within |>.andThen (clsResult_areas ..)
  · exact (clsFull_areas ..).within |>.andThen (clsResult_areas ..)

theorem State.clsUpdateCmd_areas (s : State) (i t : Nat) (val : Word) : s.OnlyChanges (s.clsUpdateCmd i t val) [.regs, .ing, .cfg] := by
  refine .ite (clsResult_areas ..).within ?_
  split
  · exact (setSlotOf_areas ..).within |>.andThen (clsResult_areas ..)
  · exact (clsResult_areas ..).within

theorem State.clsDeleteCmd_areas (s : State) (i t : Nat) (val : Word) : s.OnlyChanges (s.clsDeleteCmd i t val) [.regs, .ing, .cfg] := by
  unfold State.clsDeleteCmd
  split
  · exact (setSlotOf_areas ..).within |>.andThen (clsResult_areas ..)
  · exact (clsResult_areas ..).within

theorem State.clsReadCmd_areas (s : State) (i t : Nat) (val : Word) : s.OnlyChanges (s.clsReadCmd i t val) [.regs] :=
  .ite (clsResult_areas ..).within
    (.ite (clsResult_areas ..).within ((each_areas fun _ _ => (setReg_areas ..).within) |>.andThen (clsReturn_areas ..)
        |>.andThen (clsResult_areas ..)))

theorem State.clsRun_areas (s : State) (who : Accessor) (i : Nat) (val : Word) :
    s.OnlyChanges (s.clsRun who i val) [.regs, .out, .ing, .cfg, .hst] := by
  refine .ite (clsResult_areas ..).within <| .ite (clsResult_areas ..).within <| .ite (clsResult_areas ..).within ?_
  split
  · exact (clsLookupCmd_areas ..).within
  · exact (clsInsertCmd_areas ..).within
  · exact (clsUpdateCmd_areas ..).within
  · exact (clsDeleteCmd_areas ..).within
  · exact (clsReadCmd_areas ..).within
  · exact (clsResult_areas ..).within

theorem State.clsWrite_areas (s : State) (who : Accessor) (i op : Nat) (val : Word) :
    s.OnlyChanges (s.clsWrite who i op val) [.regs, .out, .ing, .cfg, .hst] :=
  writeCmd_areas fun _ => (clsRun_areas ..).within

theorem State.clsApply_areas (s : State) (t : Nat) (key : List Byte) (res : List Word) :
    s.OnlyChanges (s.clsApply t key res) [.regs, .out, .ing, .cfg, .hst] := by
  unfold State.clsApply
  split
  · exact (setSlotOf_areas ..).within
  · split
    · exact (setSlotOf_areas ..).within
    · exact (clsFull_areas ..).within

theorem execClsLookup_areas (who : Accessor) (i : Fin 2) (val : Word) (s : State) :
    s.LeadsTo (execClsLookup who i val s) [.regs, .out, .ing, .cfg, .hst] :=
  done_leadsTo (clsWrite_areas ..).within

theorem execClsInsert_areas (who : Accessor) (i : Fin 2) (val : Word) (s : State) :
    s.LeadsTo (execClsInsert who i val s) [.regs, .out, .ing, .cfg, .hst] :=
  done_leadsTo (clsWrite_areas ..).within

theorem execClsUpdate_areas (who : Accessor) (i : Fin 2) (val : Word) (s : State) :
    s.LeadsTo (execClsUpdate who i val s) [.regs, .out, .ing, .cfg, .hst] :=
  done_leadsTo (clsWrite_areas ..).within

theorem execClsDelete_areas (who : Accessor) (i : Fin 2) (val : Word) (s : State) :
    s.LeadsTo (execClsDelete who i val s) [.regs, .out, .ing, .cfg, .hst] :=
  done_leadsTo (clsWrite_areas ..).within

theorem execClsRead_areas (who : Accessor) (i : Fin 2) (val : Word) (s : State) :
    s.LeadsTo (execClsRead who i val s) [.regs, .out, .ing, .cfg, .hst] :=
  done_leadsTo (clsWrite_areas ..).within

theorem State.police_areas (s : State) (f : Nat) : s.OnlyChanges (s.police f).2 [.ing] :=
  .ite_snd (.refl ..) (.ite_snd (.refl ..) (OnlyChanges.ite (setFlowPol_areas ..).within (.refl ..) |>.andIf (setPortPol_areas ..).within))

theorem State.noteStranger_areas (s : State) (f : Nat) : s.OnlyChanges (s.noteStranger f) [.regs, .out, .ing, .hst] := by
  refine .ite (.refl ..) ?_
  split
  · exact (setStranger_areas ..).within
  · split
    · exact (inc_areas ..).within |>.andThen (sqc_areas ..)
    · exact .ite (inc_areas ..).within ((with_ing ..).within |>.andThen (setStranger_areas ..) |>.andThen (sqc_areas ..))

theorem execStrangerSelect_areas (who : Accessor) (val : Word) (s : State) : s.LeadsTo (execStrangerSelect who val s) [.regs, .out, .hst] :=
  done_leadsTo (writeCmd_areas fun _ => (setReg_areas ..).within |>.each (fun _ _ => (setReg_areas ..).within))

theorem execStrangerClear_areas (who : Accessor) (val : Word) (s : State) : s.LeadsTo (execStrangerClear who val s) [.regs, .out, .ing, .hst] :=
  done_leadsTo (writeCmd_areas fun _ => (with_ing ..).within |>.trans (.ite (with_ing ..).within (setStranger_areas ..).within))

/-! ## Planes -/

theorem State.setStreamSt_areas (s : State) (k : Nat) (a2 : StreamSt) : s.OnlyChanges (s.setStreamSt k a2) [.regs, .spe] :=
  (setStream_areas ..).within |>.andThen (setRb_areas ..)

theorem State.startGrid_areas (s : State) (k : Nat) : s.OnlyChanges (s.startGrid k) [.spe] :=
  .ite (setStream_areas ..).within (setStream_areas ..).within

theorem State.runStream_areas (s : State) (k : Nat) : s.OnlyChanges (s.runStream k) [.regs, .spe] :=
  (setStream_areas ..).within |>.andThen (startGrid_areas ..) |>.andThen (setStreamSt_areas ..)

theorem State.runStreams_areas (s : State) (n : Nat) : s.OnlyChanges (s.runStreams n) [.regs, .spe] :=
  each_areas fun _ _ => .ite (runStream_areas ..).within (.ite (.refl ..) (startGrid_areas ..).within)

theorem State.clearCells_areas (s : State) (k : Nat) : s.OnlyChanges (s.clearCells k) [.spe] := (with_spe ..).within

theorem State.newGrid_areas (s : State) (k : Nat) : s.OnlyChanges (s.newGrid k) [.spe] :=
  (setStream_areas ..).within |>.andThen (clearCells_areas ..)

theorem State.waitStreams_areas (s : State) (n : Nat) : s.OnlyChanges (s.waitStreams n) [.regs, .out, .spe, .hst] :=
  each_areas fun _ _ => (setStreamSt_areas ..).within |>.andThen (sqc_areas ..)

/-! ## Rec -/

theorem State.fixCell_areas (s : State) (k : Nat) : s.OnlyChanges (s.fixCell k) [.regs, .spe] :=
  .ite ((with_spe ..).within |>.andThen (inc_areas ..)) (.refl ..)

theorem State.recCell_areas (s : State) (r i g : Nat) (w : Word) (j : RecJob) : s.OnlyChanges (s.recCell r i g w j) [.regs, .ddr] := by
  unfold State.recCell
  split
  · exact (dramWrite_areas ..).within |>.andThen (pmuDram_areas ..)
  · exact .refl ..

theorem State.putHeader_areas (s : State) (r : Nat) (complete : Bool) : s.OnlyChanges (s.putHeader r complete) [.regs, .ddr] := by
  unfold State.putHeader
  split
  · exact (dramWrite_areas ..).within |>.andThen (pmuDram_areas ..)
  · exact .refl ..

theorem State.recStart_areas (s : State) (r i : Nat) (j : RecJob) : s.OnlyChanges (s.recStart r i j) [.regs, .ddr] :=
  each_areas fun _ _ => .ite (.refl ..) (.ite ((recCell_areas ..).within |>.andThen (setRecSet_areas ..))
      (.ite (recCell_areas ..).within (.refl ..)))

theorem State.recDrop_areas (s : State) : s.OnlyChanges s.recDrop [.regs, .out, .hst] := (inc_areas ..).within |>.andThen (sqc_areas ..)

theorem State.recBegin_areas (s : State) (r src : Nat) : s.OnlyChanges (s.recBegin r src) [.regs, .out, .hst, .ddr] :=
  .ite (inc_areas ..).within (.ite (recDrop_areas ..).within (OnlyChanges.ite ((setReg_areas ..).within |>.andThen (recDrop_areas ..)) (.refl ..)
        |>.andThen (setRecSet_areas ..) |>.each (fun _ _ => (recStart_areas ..).within) |>.andThen (putHeader_areas ..)))

theorem State.recTrigger_areas (s : State) (r src : Nat) : s.OnlyChanges (s.recTrigger r src) [.regs, .out, .hst, .ddr] := by
  refine .ite ?_ (.refl ..)
  split
  · exact .ite ((setRecSet_areas ..).within |>.andThen (putHeader_areas ..)) ((inc_areas ..).within |>.andThen (sqc_areas ..))
  · exact (recBegin_areas ..).within

theorem State.recChannel_areas (s : State) (ch : Nat) : s.OnlyChanges (s.recChannel ch) [.regs, .out, .hst, .ddr] :=
  each_areas fun _ _ => .ite (recTrigger_areas ..).within (.refl ..)

theorem State.recInput_areas (s : State) (i : Nat) : s.OnlyChanges (s.recInput i) [.regs, .out, .hst, .ddr] :=
  each_areas fun _ _ => .ite (recTrigger_areas ..).within (.refl ..)

theorem State.recTake_areas (s : State) (r i hi g : Nat) (w : Word) (j : RecJob) : s.OnlyChanges (s.recTake r i hi g w j) [.regs, .ddr] :=
  (each_areas fun _ _ => (recCell_areas ..).within) |>.andUnless (setRecSet_areas ..).within |>.andThen (recCell_areas ..)

theorem State.histCopy1_areas (s : State) (cs g : Nat) : s.OnlyChanges (s.histCopy1 cs g) [.regs, .ddr] := by
  refine .ite (.refl ..) <| .ite ((inc_areas ..).within |>.andThen (with_ddr ..)) ?_
  refine .each ?_ fun _ _ => ?_
  · exact (dramWrite_areas ..).within |>.andThen (pmuDram_areas ..) |>.andThen (with_ddr ..)
  · split
    · exact .ite (recTake_areas ..).within (.refl ..)
    · exact .refl ..

theorem State.histCopy_areas (s : State) (k g : Nat) : s.OnlyChanges (s.histCopy k g) [.regs, .ddr] :=
  each_areas fun _ _ => (histCopy1_areas ..).within

theorem execRecordComplete_areas (r : Fin 16) (s : State) : s.LeadsTo (execRecordComplete r s) [.regs, .out, .hst, .ddr] := by
  refine done_leadsTo ?_
  split
  · exact .ite ((putHeader_areas ..).within |>.andThen (setRecSet_areas ..) |>.andThen (setReg_areas ..) |>.andThen (sqc_areas ..)) (.refl ..)
  · exact .refl ..

theorem State.recResult_areas (s : State) (val : Word) (res : Nat) : s.OnlyChanges (s.recResult val res) [.regs] :=
  (setReg_areas ..).within |>.andThen (setReg_areas ..)

theorem State.recCmd_areas (s : State) (who : Accessor) (val : Word) : s.OnlyChanges (s.recCmd who val) [.regs, .out, .hst, .ddr] :=
  .ite (recResult_areas ..).within (.ite (recResult_areas ..).within ((recTrigger_areas ..).within |>.andThen (recResult_areas ..)))

theorem execRecCmdTrigger_areas (who : Accessor) (val : Word) (s : State) : s.LeadsTo (execRecCmdTrigger who val s) [.regs, .out, .hst, .ddr] :=
  done_leadsTo (writeCmd_areas fun _ => (recCmd_areas ..).within)

theorem State.fetchErr_areas (s : State) : s.OnlyChanges s.fetchErr [.regs, .out, .hst] := (inc_areas ..).within |>.andThen (sqc_areas ..)

theorem State.fetchStart_areas (s : State) (c f part : Nat) : s.OnlyChanges (s.fetchStart c f part) [.regs, .out, .clu, .hst] :=
  .ite (setFetchU_areas ..).within ((fetchErr_areas ..).within |>.andUnless (setFetchU_areas ..).within)

theorem execHistFetchStart_areas (t : ThreadId) (f : Fin 8) (val : Word) (s : State) :
    s.LeadsTo (execHistFetchStart t f val s) [.regs, .out, .clu, .hst] :=
  done_leadsTo <| .ite (OnlyChanges.ite (.refl ..) (setFetchU_areas ..).within |>.andThen (fetchStart_areas ..)) (.refl ..)

theorem State.fetchCopy_areas (s : State) (c : Nat) (u : FetchUnit) (g n : Nat) : s.OnlyChanges (s.fetchCopy c u g n) [.regs, .clu] :=
  (sramWrite_areas ..).within |>.andThen (pmuDram_areas ..)

theorem execHistFetchDone_areas (c : Fin 6) (f : Fin 8) (s : State) : s.LeadsTo (execHistFetchDone c f s) [.regs, .out, .clu, .hst] :=
  done_leadsTo <|
    .ite (.ite ((fetchErr_areas ..).within |>.andThen (setFetchU_areas ..)) (.ite ((fetchErr_areas ..).within |>.andThen (setFetchU_areas ..))
        ((fetchCopy_areas ..).within |>.andThen (setFetchU_areas ..)))) (.refl ..)

/-! ## Spe -/

theorem State.trackClock_areas (s : State) (n : Nat) (sec valid : Bool) : s.OnlyChanges (s.trackClock n sec valid) [.ind] :=
  (setAclk_areas ..).within

theorem State.track_areas (s : State) (k : Nat) (p : Option Sample) : s.OnlyChanges (s.track k p) [.ind] := by
  refine .each (.refl ..) fun _ _ => .ite (.ite ?_ ?pri) (.refl ..)
  · split
    · exact .andThen ?pri (trackClock_areas ..)
    · exact ?pri
  · split
    · exact (trackClock_areas ..).within
    · exact .refl ..

theorem State.updStream_areas (s : State) (k : Nat) (g : Stream → Stream) : s.OnlyChanges (s.updStream k g) [.spe] := (setStream_areas ..).within

theorem State.twinDiscard_areas (s : State) (k : Nat) : s.OnlyChanges (s.twinDiscard k) [.regs, .spe] :=
  (inc_areas ..).within |>.andThen (updStream_areas ..)

theorem State.lateSample_areas (s : State) (k : Nat) : s.OnlyChanges (s.lateSample k) [.regs, .out, .spe, .hst] :=
  (inc_areas ..).within |>.andThen (updStream_areas ..) |>.andThen (sqc_areas ..)

theorem State.missSample_areas (s : State) (k m : Nat) : s.OnlyChanges (s.missSample k m) [.regs, .ind, .spe] :=
  .ite (.refl ..) ((inc_areas ..).within |>.andThen (updStream_areas ..) |>.andUnless (track_areas ..).within)

theorem State.writeCell_areas (s : State) (cs g : Nat) (w : Word) (info : CellInfo) : s.OnlyChanges (s.writeCell cs g w info) [.regs, .spe] :=
  (setCell_areas ..).within |>.andThen (setCellInfo_areas ..) |>.andThen (with_spe ..) |>.andThen (pmuFab_areas ..)

theorem State.advanceHead_areas (s : State) (k g : Nat) : s.OnlyChanges (s.advanceHead k g) [.regs, .out, .spe, .clu, .hst, .ddr] :=
  (setStream_areas ..).within |>.andIf (each_areas fun _ _ => (wakeSource_areas ..).within)

theorem State.mergeCell_areas (s : State) (m g : Nat) : s.OnlyChanges (s.mergeCell m g) [.regs, .out, .spe, .hst] :=
  each_areas fun _ _ => (writeCell_areas ..).within |>.andIf ((inc_areas ..).within |>.andThen (sqc_areas ..))

theorem State.mergeAfter_areas (s : State) (k g : Nat) : s.OnlyChanges (s.mergeAfter k g) [.regs, .out, .spe, .clu, .hst, .ddr] :=
  each_areas fun _ _ => .ite ((mergeCell_areas ..).within |>.andThen (advanceHead_areas ..)) (.refl ..)

theorem State.remerge_areas (s : State) (k g : Nat) : s.OnlyChanges (s.remerge k g) [.regs, .out, .spe, .hst] :=
  each_areas fun _ _ => .ite (mergeCell_areas ..).within (.refl ..)

theorem State.fillCell_areas (s : State) (k g : Nat) (n mu : Int) (taps : List Tap) :
    s.OnlyChanges (s.fillCell k g n mu taps) [.regs, .out, .spe, .clu, .hst, .ddr] :=
  (each_areas fun _ _ => (writeCell_areas ..).within |>.andIf ((inc_areas ..).within |>.andThen (sqc_areas ..))) |>.andThen (updStream_areas ..)
    |>.andThen (advanceHead_areas ..) |>.andThen (mergeAfter_areas ..)

theorem State.voidCell_areas (s : State) (k g : Nat) : s.OnlyChanges (s.voidCell k g) [.regs, .out, .spe, .clu, .hst, .ddr] :=
  (each_areas fun _ _ => (writeCell_areas ..).within) |>.andThen (advanceHead_areas ..) |>.andThen (mergeAfter_areas ..)

theorem State.completeCell_areas (s : State) (k g : Nat) : s.OnlyChanges (s.completeCell k g) [.regs, .out, .spe, .clu, .hst, .ddr] := by
  unfold State.completeCell
  dsimp only
  split
  · exact .ite (fillCell_areas ..).within (.refl ..)
  · exact .refl ..

theorem State.completeCells_areas (s : State) (k : Nat) : s.OnlyChanges (s.completeCells k) [.regs, .out, .spe, .clu, .hst, .ddr] :=
  .ite (each_areas fun _ _ => (completeCell_areas ..).within) (.refl ..)

theorem State.pauseStream_areas (s : State) (k : Nat) (confRev : Word) (len : Nat) :
    s.OnlyChanges (s.pauseStream k confRev len) [.regs, .out, .spe, .hst] :=
  .ite ((updStream_areas ..).within |>.andThen (setStreamSt_areas ..) |>.andThen (sqc_areas ..)) (.refl ..)

theorem State.judgeShape_areas (s : State) (sh : Option (Nat × Word × Nat)) (pass : Bool) :
    s.OnlyChanges (s.judgeShape sh pass) [.regs, .out, .spe, .hst] := by
  unfold State.judgeShape
  split
  · exact .ite (pauseStream_areas ..).within ((inc_areas ..).within |>.andThen (updStream_areas ..))
  · exact .refl ..

theorem State.completeDue_areas (s : State) (k g : Nat) (t : Frac) :
    s.OnlyChanges (s.completeDue k g t) [.regs, .out, .ind, .spe, .clu, .hst, .ddr] :=
  (each_areas fun _ _ => .ite (missSample_areas ..).within (.refl ..))
    |>.trans (.ite ((fillCell_areas ..).within |>.andUnless (sqc_areas ..).within) ((updStream_areas ..).within |>.andThen (voidCell_areas ..)
        |>.andThen (sqc_areas ..)))

theorem State.mergeDue_areas (s : State) (k g : Nat) : s.OnlyChanges (s.mergeDue k g) [.regs, .out, .spe, .clu, .hst, .ddr] :=
  (mergeCell_areas ..).within |>.andThen (advanceHead_areas ..) |>.andUnless (sqc_areas ..).within

theorem State.cellDue_areas (s : State) (k : Nat) : s.OnlyChanges (s.cellDue k) [.regs, .out, .ind, .spe, .clu, .hst, .ddr] := by
  unfold State.cellDue
  dsimp only
  split
  · refine .ite ?_ (.refl ..)
    refine .andIf ?_ ((updStream_areas ..).within |>.andIf (histCopy_areas ..).within)
    refine .ite (.refl ..) <| .ite ((voidCell_areas ..).within |>.andThen (sqc_areas ..)) <| .ite (mergeDue_areas ..).within ?_
    split
    · exact (completeDue_areas ..).within
    · exact .refl ..
  · exact .refl ..

theorem execCellDue_areas (k : BitVec 10) (s : State) : s.LeadsTo (execCellDue k s) [.regs, .out, .ind, .spe, .clu, .hst, .ddr] :=
  done_leadsTo (cellDue_areas ..).within

theorem State.mapCells_areas (s : State) (k g : Nat) (h : Word → CellInfo → Word × CellInfo) :
    s.OnlyChanges (s.mapCells k g h) [.regs, .out, .spe, .hst] :=
  (each_areas fun _ _ => (setCell_areas ..).within |>.andThen (setCellInfo_areas ..)) |>.andThen (remerge_areas ..)

theorem State.recoverCell_areas (s : State) (k f g : Nat) : s.OnlyChanges (s.recoverCell k f g) [.regs, .out, .spe, .hst] := by
  refine .ite (mapCells_areas ..).within ?_
  split
  · exact .refl ..
  · exact .ite ((each_areas fun _ _ => (writeCell_areas ..).within |>.andThen (inc_areas ..) |>.andThen (sqc_areas ..)
          |>.andIf ((inc_areas ..).within |>.andThen (sqc_areas ..))) |>.andThen (remerge_areas ..)) (.refl ..)

theorem State.recoverFor_areas (s : State) (k f : Nat) : s.OnlyChanges (s.recoverFor k f) [.regs, .out, .spe, .hst] :=
  each_areas fun _ _ => each_areas fun _ _ => (recoverCell_areas ..).within

theorem State.useSample_areas (s : State) (k : Nat) (p : Sample) (own : Option Nat) :
    s.OnlyChanges (s.useSample k p own) [.regs, .out, .ind, .spe, .clu, .hst, .ddr] :=
  OnlyChanges.ite (track_areas ..).within (.ite (track_areas ..).within (.refl ..)) |>.andIf (lateSample_areas ..).within
    |>.andThen (completeCells_areas ..)

theorem State.takeSample_areas (s : State) (k : Nat) (p : Sample) :
    s.OnlyChanges (s.takeSample k p) [.regs, .out, .ind, .spe, .clu, .hst, .ddr] := by
  unfold State.takeSample
  dsimp only
  split
  · exact .ite (.ite (lateSample_areas ..).within (.refl ..)) ((inc_areas ..).within |>.andThen (updStream_areas ..)
        |>.andThen (useSample_areas ..))
  · exact .ite (twinDiscard_areas ..).within
      ((updStream_areas ..).within
        |>.andUnless (.ite ((inc_areas ..).within |>.andThen (updStream_areas ..) |>.andThen (useSample_areas ..)
            |>.andIf (recoverFor_areas ..).within) (.ite (twinDiscard_areas ..).within (updStream_areas ..).within)))

theorem State.takeAsdu_areas (s : State) (k f : Nat) (a : Asdu) : s.OnlyChanges (s.takeAsdu k f a) [.regs, .out, .ind, .spe, .clu, .hst, .ddr] :=
  OnlyChanges.ite (sqc_areas ..).within (.refl ..)
    |>.andUnless (.ite ((inc_areas ..).within |>.andThen (sqc_areas ..)) (takeSample_areas ..).within)

theorem State.takeSamples_areas (s : State) (f : Nat) : s.OnlyChanges (s.takeSamples f) [.regs, .out, .ind, .spe, .pkt, .clu, .hst, .ddr] := by
  unfold State.takeSamples
  split
  · exact .refl ..
  · refine .ite ?_ (.refl ..)
    split
    · exact .ite (updFrame_areas ..).within (judgeShape_areas ..).within
    · exact OnlyChanges.ite (.refl ..) ((add_areas ..).within |>.andThen (sqc_areas ..)) |>.each (fun _ _ => (takeAsdu_areas ..).within)

theorem State.offerSamples_areas (s : State) (f : Nat) : s.OnlyChanges (s.offerSamples f) [.regs, .out, .ind, .spe, .pkt, .clu, .hst, .ddr] :=
  .ite (takeSamples_areas ..).within (updFrame_areas ..).within

theorem State.spePass_areas (s : State) (f : Nat) : s.OnlyChanges (s.spePass f) [.regs, .out, .ind, .spe, .hst] := by
  unfold State.spePass
  split
  · exact .refl ..
  · exact (setStream_areas ..).within |>.each (fun _ _ => (twinDiscard_areas ..).within)
      |>.andUnless (each_areas fun _ _ => (track_areas ..).within) |>.each (fun _ _ => (mapCells_areas ..).within) |>.andThen (recoverFor_areas ..)
      |>.andThen (judgeShape_areas ..)

theorem State.keepSeen_areas (s t : State) (k : Nat) (gs : List Nat) : t.OnlyChanges (s.keepSeen t k gs) [.spe] :=
  each_areas fun _ _ => .ite (.refl ..) (setCellInfo_areas ..).within

theorem State.speFail_areas (s : State) (f : Nat) : s.OnlyChanges (s.speFail f) [.regs, .out, .ind, .spe, .clu, .hst, .ddr] := by
  unfold State.speFail
  split
  · exact .refl ..
  · refine .andThen (.andThen ?_ (keepSeen_areas ..)) (judgeShape_areas ..)
    refine .each (.andUnless ?_ ?_) fun _ _ => (recoverFor_areas ..).within
    · refine .each (.andUnless (setStream_areas ..).within ?_) fun _ _ => (mapCells_areas ..).within
      refine .each (.refl ..) fun _ _ => ?_
      split
      · exact .ite (track_areas ..).within <| .ite (.refl ..) (track_areas ..).within
      · exact (track_areas ..).within
    · exact (inc_areas ..).within |>.andThen (sqc_areas ..) |>.andThen (retractTasks_areas ..)

theorem State.latchHeads_areas (s : State) (a num : Nat) : s.OnlyChanges (s.latchHeads a num) [.spe] :=
  each_areas fun _ _ => (updStream_areas ..).within

theorem execStreamSelect_areas (who : Accessor) (val : Word) (s : State) : s.LeadsTo (execStreamSelect who val s) [.regs, .out, .hst] :=
  done_leadsTo (writeCmd_areas fun _ => (setReg_areas ..).within |>.each (fun _ _ => (setReg_areas ..).within))

/-! ## Ochre -/

theorem State.setHeld_areas (s : State) (o p v : Nat) : s.OnlyChanges (s.setHeld o p v) [.regs] :=
  .ite (setRf_areas ..).within (setRf_areas ..).within

theorem State.noteShort_areas (s0 s1 : State) : s1.OnlyChanges (s0.noteShort s1) [.regs, .out, .hst] :=
  each_areas fun _ _ => .ite (sqc_areas ..).within (.refl ..)

theorem State.noteLow_areas (s : State) (p : Nat) : s.OnlyChanges (s.noteLow p) [.regs] := .ite (setReg_areas ..).within (.refl ..)

theorem State.quarantineBuf_areas (s : State) (h : Nat) : s.OnlyChanges (s.quarantineBuf h) [.regs, .out, .och, .hst] :=
  (setBuf_areas ..).within |>.andThen (setPool_areas ..) |>.andIf (setHeld_areas ..).within |>.andThen (noteShort_areas ..)
    |>.andThen (inc_areas ..) |>.andThen (sqc_areas ..)

theorem State.purgeTop_areas (p : Nat) : ∀ (n : Nat) (s : State), s.OnlyChanges (State.purgeTop p n s) [.regs, .out, .och, .hst]
  | 0, s => .refl s _
  | n + 1, _ => .ite ((quarantineBuf_areas ..).within |>.andThen (purgeTop_areas p n _)) (.refl ..)

theorem State.grantFrom_areas (s : State) (o p : Nat) : s.OnlyChanges (s.grantFrom o p).2 [.regs, .och] :=
  (setPool_areas ..).within |>.andThen (setBuf_areas ..) |>.andThen (setHeld_areas ..) |>.andThen (noteLow_areas ..) |>.andThen (pmuFab_areas ..)

theorem State.noteContest_areas (s : State) (p : Nat) : s.OnlyChanges (s.noteContest p) [.regs] := .ite (inc_areas ..).within (.refl ..)
theorem State.noteLast_areas (s : State) (p : Nat) : s.OnlyChanges (s.noteLast p) [.och] := .ite (setPool_areas ..).within (.refl ..)

theorem State.allocFrom_areas (o : Nat) : ∀ (ps : List Nat) (s : State), s.OnlyChanges (State.allocFrom o ps s).2 [.regs, .out, .och, .hst]
  | [], _ => (inc_areas ..).within |>.andThen (inc_areas ..) |>.andThen (sqc_areas ..)
  | p :: ps, s => by
    have hp := purgeTop_areas p (s.poolFree p) s
    rw [State.allocFrom]
    split
    · exact hp.andThen (grantFrom_areas ..)
    · split
      · dsimp only
        exact hp.andThen (grantFrom_areas ..) |>.andThen (noteLast_areas ..)
      · refine .andThen (.andThen ?_ (noteContest_areas ..)) (allocFrom_areas o ps _)
        exact .ite hp (hp.andThen (inc_areas ..) |>.andThen (pmuFab_areas ..))

theorem State.alloc_areas (s : State) (o size : Nat) : s.OnlyChanges (s.alloc o size).2 [.regs, .out, .och, .hst] := (allocFrom_areas ..).within

theorem State.freeBuf_areas (s : State) (h claimant : Nat) : s.OnlyChanges (s.freeBuf h claimant).2 [.regs, .out, .och, .hst] :=
  .ite_snd (.refl ..)
    (.ite_snd (quarantineBuf_areas ..).within (.ite_snd ((inc_areas ..).within |>.andThen (setReg_areas ..) |>.andThen (sqc_areas ..))
        (.ite_snd ((inc_areas ..).within |>.andThen (setReg_areas ..) |>.andThen (sqc_areas ..))
          ((setBuf_areas ..).within |>.andThen (setPool_areas ..) |>.andThen (setHeld_areas ..)))))

theorem State.free_areas (s : State) (h claimant : Nat) : s.OnlyChanges (s.free h claimant) [.regs, .out, .och, .hst] := (freeBuf_areas ..).within

theorem State.transfer_areas (s : State) (h o : Nat) : s.OnlyChanges (s.transfer h o) [.regs, .out, .och, .hst] :=
  .ite (.refl ..) (.ite (quarantineBuf_areas ..).within ((setBuf_areas ..).within |>.andThen (setHeld_areas ..) |>.andThen (setHeld_areas ..)
        |>.andThen (noteShort_areas ..)))

theorem State.fillBuf_areas (s : State) (h n : Nat) : s.OnlyChanges (s.fillBuf h n) [.och] := (setBuf_areas ..).within

theorem State.rebuildPools_areas (s : State) : s.OnlyChanges s.rebuildPools [.regs, .och] :=
  (with_och ..).within |>.each (fun _ _ => (setReg_areas ..).within |>.andThen (setReg_areas ..)) |>.each (fun _ _ => (setReg_areas ..).within)

theorem State.ochResult_areas (s : State) (val : Word) (res : Nat) : s.OnlyChanges (s.ochResult val res) [.regs] :=
  (setReg_areas ..).within |>.andThen (setReg_areas ..)

theorem State.ochQueryCmd_areas (s : State) (val : Word) : s.OnlyChanges (s.ochQueryCmd val) [.regs, .out, .och, .hst] :=
  .ite (OnlyChanges.ite (quarantineBuf_areas ..).within (.refl ..) |>.andThen (setReg_areas ..) |>.andThen (ochResult_areas ..))
    (ochResult_areas ..).within

theorem State.ochFreeCmd_areas (s : State) (who : Accessor) (val : Word) : s.OnlyChanges (s.ochFreeCmd who val) [.regs, .out, .och, .hst] :=
  .ite (ochResult_areas ..).within
    (.ite (ochResult_areas ..).within (.ite (ochResult_areas ..).within ((freeBuf_areas ..).within |>.andThen (ochResult_areas ..))))

theorem execOchQuery_areas (who : Accessor) (val : Word) (s : State) : s.LeadsTo (execOchQuery who val s) [.regs, .out, .och, .hst] :=
  done_leadsTo (writeCmd_areas fun _ => (ochQueryCmd_areas ..).within)

theorem execOchCmdFree_areas (who : Accessor) (val : Word) (s : State) : s.LeadsTo (execOchCmdFree who val s) [.regs, .out, .och, .hst] :=
  done_leadsTo (writeCmd_areas fun _ => (ochFreeCmd_areas ..).within)

theorem execPoolLowReset_areas (who : Accessor) (p : Fin 4) (s : State) : s.LeadsTo (execPoolLowReset who p s) [.regs, .out, .hst] :=
  done_leadsTo (writeCmd_areas fun _ => (setReg_areas ..).within)

/-! ## Switch -/

theorem State.freeBytes_areas : ∀ (n : Nat) (s : State), s.OnlyChanges (State.freeBytes n s).2 [.fv]
  | 0, s => .refl s _
  | n + 1, _ => (freeW_areas ..).within |>.andThen (freeBytes_areas n _)

theorem State.copyBody_areas (s : State) (c : Copy) : s.OnlyChanges (s.copyBody c).2 [.fv] := by
  unfold State.copyBody
  split
  · exact .refl ..
  · exact (freeBytes_areas ..).within

theorem State.setPlca_areas (s : State) (g : Nat) (a2 : PlcaState) : s.OnlyChanges (s.setPlca g a2) [.pkt] := (with_pkt ..).within

theorem State.plcaTake_areas (s : State) (g : Nat) : s.OnlyChanges (s.plcaTake g) [.pkt] := by
  unfold State.plcaTake
  split
  · exact (setPlca_areas ..).within
  · exact .refl ..

theorem State.plcaDone_areas (s : State) (g : Nat) (own : Bool) : s.OnlyChanges (s.plcaDone g own) [.pkt] :=
  .ite (.refl ..) <| .ite (setPlca_areas ..).within (setPlca_areas ..).within

theorem State.admitDrop_areas (s : State) (e tc : Nat) : s.OnlyChanges (s.admitDrop e tc) [.regs, .out, .hst] :=
  .ite ((inc_areas ..).within |>.andThen (pmuFab_areas ..) |>.andThen (sqc_areas ..) |>.andThen (sqc_areas ..))
    ((inc_areas ..).within |>.andThen (pmuFab_areas ..) |>.andThen (sqc_areas ..))

theorem State.takeIn_areas (s : State) (e tc size f : Nat) (pub : Bool) : s.OnlyChanges (s.takeIn e tc size f pub).2 [.regs, .out, .och, .hst] := by
  unfold State.takeIn
  refine .ite_snd ?_ (admitDrop_areas ..).within
  split
  next s1 e =>
    exact ((alloc_areas ..).of_snd e).within |>.andThen (add_areas ..) |>.andThen (pmuFab_areas ..)
  next s1 e1 =>
    exact ((alloc_areas ..).of_snd e1).within |>.andThen (admitDrop_areas ..)

theorem State.lowerF_areas (s : State) (f size : Nat) : s.OnlyChanges (s.lowerF f size) [.och] := (with_och ..).within

theorem State.enqueue_areas (s : State) (c : Copy) : s.OnlyChanges (s.enqueue c).2 [.pkt, .och] :=
  (with_pkt ..).within |>.andThen (setCopy_areas ..) |>.andThen (setEgq_areas ..) |>.andThen (fillBuf_areas ..)

theorem State.releaseBuf_areas (s : State) (n : Nat) (descBad : Bool) : s.OnlyChanges (s.releaseBuf n descBad) [.regs, .out, .och, .hst] :=
  (setReg_areas ..).within |>.trans (.ite (quarantineBuf_areas ..).within (free_areas ..).within)

theorem State.unqueue_areas (s : State) (n : Nat) : s.OnlyChanges (s.unqueue n) [.pkt] := (setEgq_areas ..).within

theorem State.endCopy_areas (s : State) (n : Nat) (descBad : Bool) :
    s.OnlyChanges (s.endCopy n descBad) [.regs, .out, .pkt, .och, .hst, .ddr, .dbg] :=
  (releaseBuf_areas ..).within |>.andThen (unqueue_areas ..) |>.andThen (setCopy_areas ..) |>.andUnless (retire_areas ..).within

theorem State.flushQueues_areas (s : State) (e : Nat) : s.OnlyChanges (s.flushQueues e) [.regs, .out, .pkt, .och, .hst, .ddr, .dbg] :=
  each_areas fun _ _ => each_areas fun _ _ => (endCopy_areas ..).within

theorem State.copyTo_areas (s : State) (f e fCyc : Nat) : s.OnlyChanges (s.copyTo f e fCyc).2 [.regs, .out, .pkt, .och, .hst] := by
  unfold State.copyTo
  dsimp only
  split
  next s1 e =>
    exact ((takeIn_areas ..).of_snd e).within |>.andIf (inc_areas ..).within |>.andThen (enqueue_areas ..)
  next s1 e1 =>
    exact ((takeIn_areas ..).of_snd e1).within

theorem State.copiesTo_areas (f : Nat) : ∀ (es : List Nat) (first any : Bool) (s : State),
    s.OnlyChanges (State.copiesTo f es first any s).2 [.regs, .out, .pkt, .och, .hst]
  | [], _, _, s => .refl s _
  | _ :: es, _, _, _ => .andThen (.ite ((copyTo_areas ..).within |>.andThen (lowerF_areas ..)) (copyTo_areas ..).within)
    (copiesTo_areas f es ..)

theorem State.bumpSeq_areas (s : State) (a1 : Frame) (es : List Nat) : s.OnlyChanges (s.bumpSeq a1 es) [.ing] :=
  each_areas fun _ _ => .ite (setGroup_areas ..).within (.refl ..)

theorem State.freeLaneBuf_areas (s : State) (f : Nat) : s.OnlyChanges (s.freeLaneBuf f) [.regs, .out, .pkt, .och, .hst] := by
  unfold State.freeLaneBuf
  split
  · exact (free_areas ..).within |>.andThen (updFrame_areas ..)
  · exact .refl ..

theorem State.makeCopies_areas (s : State) (f : Nat) : s.OnlyChanges (s.makeCopies f) [.regs, .out, .ing, .pkt, .och, .hst, .dbg] :=
  (copiesTo_areas ..).within |>.andThen (bumpSeq_areas ..) |>.andThen (updTag_areas ..) |>.andIf (freeLaneBuf_areas ..).within

theorem State.cutFragment_areas (s : State) (e : Nat) : s.OnlyChanges (s.cutFragment e) [.regs, .pkt] := by
  unfold State.cutFragment
  split
  · exact (setCopy_areas ..).within |>.andThen (with_pkt ..) |>.andThen (inc_areas ..) |>.andThen (setSending_areas ..)
  · exact .refl ..

theorem State.startCopy_areas (s : State) (e tc n : Nat) (cut : Bool) : s.OnlyChanges (s.startCopy e tc n cut) [.regs, .pkt, .pai, .ddr, .dbg] :=
  (unqueue_areas ..).within |>.andThen (setCopy_areas ..) |>.andThen (setSending_areas ..) |>.andIf (with_pai ..).within
    |>.andIf ((updTag_areas ..).within |>.andThen (tagFlush_areas ..))

theorem State.resumeCopy_areas (s : State) (e n t : Nat) : s.OnlyChanges (s.resumeCopy e n t) [.pkt] :=
  (setCopy_areas ..).within |>.andThen (with_pkt ..) |>.andThen (setSending_areas ..)

theorem State.egressStart_areas (s : State) (e tc : Nat) : s.OnlyChanges (s.egressStart e tc) [.regs, .pkt, .pai, .ddr, .dbg] := by
  unfold State.egressStart
  split
  · exact (resumeCopy_areas ..).within
  · refine .ite ?_ (.refl ..)
    split
    · exact OnlyChanges.ite (cutFragment_areas ..).within (.refl ..) |>.andThen (startCopy_areas ..)
    · exact .refl ..

theorem execEgressStart_areas (e : Fin 22) (tc : Fin 8) (s : State) : s.LeadsTo (execEgressStart e tc s) [.regs, .out, .pkt, .pai, .ddr, .dbg] :=
  done_leadsTo (egressStart_areas ..).within

theorem State.noteCut_areas (s : State) (e : Nat) (under : Bool) : s.OnlyChanges (s.noteCut e under) [.regs, .out, .hst] :=
  (inc_areas ..).within |>.andThen (sqc_areas ..) |>.andThen (sqc_areas ..)

theorem State.noteStomp_areas (s : State) (e : Nat) : s.OnlyChanges (s.noteStomp e) [.regs, .out, .hst] :=
  OnlyChanges.ite (inc_areas ..).within (.ite (inc_areas ..).within (.refl ..)) |>.andThen (sqc_areas ..)

theorem State.noteSent_areas (s : State) (e : Nat) (fragments : Bool) : s.OnlyChanges (s.noteSent e fragments) [.regs] :=
  .ite ((inc_areas ..).within |>.andIf (inc_areas ..).within) (.ite (inc_areas ..).within (.refl ..))

theorem State.lineNext_areas (s : State) (e : Nat) : s.OnlyChanges (s.lineNext e) [.pkt] := by
  unfold State.lineNext
  dsimp only
  split
  · exact (setSending_areas ..).within |>.andThen (with_pkt ..) |>.andUnless (resumeCopy_areas ..).within
  · exact (setSending_areas ..).within |>.andThen (with_pkt ..)

theorem State.captureEgress_areas (s : State) (e : Nat) (c : Copy) (b : List Byte) :
    s.OnlyChanges (s.captureEgress e c b) [.regs, .out, .hst, .ddr] :=
  .ite (capture_areas ..).within (.refl ..)

theorem State.sendCopy_areas (s : State) (e : Nat) (c : Copy) (b : List Byte) (inv : Bool) : s.OnlyChanges (s.sendCopy e c b inv) [.out] :=
  .ite (emit_areas ..).within (emit_areas ..).within

theorem State.egressEnd_areas (s : State) (e : Nat) (descBad dataBad : Bool) :
    s.OnlyChanges (s.egressEnd e descBad dataBad) [.regs, .fv, .out, .pkt, .och, .hst, .ddr, .dbg] := by
  unfold State.egressEnd
  split
  · exact .ite ((copyBody_areas ..).within |>.andThen (sendCopy_areas ..) |>.andThen (noteSent_areas ..) |>.andIf (noteStomp_areas ..).within
        |>.trans (.ite (noteCut_areas ..).within (.ite (noteCut_areas ..).within (.refl ..)))
        |>.andIf ((inc_areas ..).within |>.andThen (sqc_areas ..)) |>.andIf (pmuFab_areas ..).within |>.andThen (captureEgress_areas ..)
        |>.andThen (endCopy_areas ..) |>.andThen (lineNext_areas ..) |>.andIf (plcaDone_areas ..).within) (.refl ..)
  · exact .refl ..

theorem execEgressEnd_areas (e : Fin 22) (descBad dataBad : Bool) (s : State) :
    s.LeadsTo (execEgressEnd e descBad dataBad s) [.regs, .fv, .out, .pkt, .och, .hst, .ddr, .dbg] :=
  done_leadsTo (egressEnd_areas ..).within

theorem State.unpause_areas (s : State) (p : Nat) : s.OnlyChanges (s.unpause p) [.regs, .pkt] :=
  (setPause_areas ..).within |>.andThen (setRb_areas ..)

theorem State.pauseRx_areas (s : State) (p quanta : Nat) : s.OnlyChanges (s.pauseRx p quanta) [.regs, .pkt] :=
  (inc_areas ..).within |>.andThen (add_areas ..) |>.andIf (inc_areas ..).within
    |>.andUnless (.ite (unpause_areas ..).within ((setPause_areas ..).within |>.andThen (setRb_areas ..)))

theorem execPauseRx_areas (p : Fin 16) (quanta : BitVec 16) (s : State) : s.LeadsTo (execPauseRx p quanta s) [.regs, .out, .pkt] :=
  done_leadsTo <| .ite (.refl ..) (pauseRx_areas ..).within

theorem execPauseQuantaExpire_areas (p : Fin 16) (s : State) : s.LeadsTo (execPauseQuantaExpire p s) [.regs, .out, .pkt] :=
  done_leadsTo <| .ite (unpause_areas ..).within (.refl ..)

theorem State.pauseFlush_areas (s : State) (p : Nat) : s.OnlyChanges (s.pauseFlush p) [.regs, .out, .pkt, .och, .hst, .ddr, .dbg] :=
  (flushQueues_areas ..).within |>.andThen (inc_areas ..) |>.andThen (sqc_areas ..) |>.andThen (sqc_areas ..) |>.andThen (setPause_areas ..)
    |>.andThen (unpause_areas ..)

theorem execPauseFlush_areas (p : Fin 16) (s : State) : s.LeadsTo (execPauseFlush p s) [.regs, .out, .pkt, .och, .hst, .ddr, .dbg] :=
  done_leadsTo <| .ite (pauseFlush_areas ..).within (.refl ..)

/-! ## Ingress -/

theorem State.portEvent_areas (s : State) (p bit : Nat) : s.OnlyChanges (s.portEvent p bit) [.regs, .out, .hst] := (sqc_areas ..).within

theorem execPortLinkUp_areas (p : Fin 16) (s : State) : s.LeadsTo (execPortLinkUp p s) [.regs, .out, .ing, .hst] :=
  done_leadsTo <| .ite ((setRb_areas ..).within |>.andThen (setRb_areas ..) |>.andThen (setRb_areas ..) |>.andThen (setRf_areas ..)
      |>.andThen (setVerify_areas ..) |>.andThen (portEvent_areas ..)) (.refl ..)

theorem State.linkDown_areas (s : State) (p : Nat) (why : LinkLoss) : s.OnlyChanges (s.linkDown p why) [.regs, .out, .ing, .hst] :=
  (setRb_areas ..).within |>.andThen (setRb_areas ..) |>.andIf (setRb_areas ..).within |>.andThen (setRf_areas ..) |>.andThen (setVerify_areas ..)
    |>.andThen (portEvent_areas ..) |>.andIf (portEvent_areas ..).within |>.andIf (portEvent_areas ..).within

theorem execPortLinkDown_areas (p : Fin 16) (why : LinkLoss) (s : State) : s.LeadsTo (execPortLinkDown p why s) [.regs, .out, .ing, .hst] :=
  done_leadsTo <| .ite (linkDown_areas ..).within (.refl ..)

theorem State.preemptVerify_areas (s : State) (p : Nat) (what : VerifyEvent) : s.OnlyChanges (s.preemptVerify p what) [.regs, .out, .ing, .hst] :=
  .ite (.ite (setRf_areas ..).within (.refl ..))
    (.ite (.ite (emit_areas ..).within (.refl ..))
      (.ite (.ite ((setRf_areas ..).within |>.andThen (portEvent_areas ..)) ((setVerify_areas ..).within |>.andThen (setRf_areas ..)
            |>.andThen (emit_areas ..))) (.refl ..)))

theorem execPreemptVerify_areas (p : Fin 16) (what : VerifyEvent) (s : State) : s.LeadsTo (execPreemptVerify p what s) [.regs, .out, .ing, .hst] :=
  done_leadsTo <| .ite (preemptVerify_areas ..).within (.refl ..)

theorem State.segEvent_areas (s : State) (g bit : Nat) : s.OnlyChanges (s.segEvent g bit) [.regs, .out, .hst] := (sqc_areas ..).within
theorem State.beaconCycle_areas (s : State) (g : Nat) : s.OnlyChanges (s.beaconCycle g) [.pkt] := (setPlca_areas ..).within

theorem execPlcaBeacon_areas (g : Fin 4) (s : State) : s.LeadsTo (execPlcaBeacon g s) [.out, .pkt] :=
  done_leadsTo <| .ite (.ite (.ite ((beaconCycle_areas ..).within |>.andThen (emit_areas ..)) (.refl ..)) (beaconCycle_areas ..).within) (.refl ..)

theorem execT1sPlcaFail_areas (g : Fin 4) (s : State) : s.LeadsTo (execT1sPlcaFail g s) [.regs, .out, .pkt, .hst] :=
  done_leadsTo <| .ite ((segEvent_areas ..).within |>.andThen (with_pkt ..)) (.refl ..)

theorem execT1sPlcaRecover_areas (g : Fin 4) (s : State) : s.LeadsTo (execT1sPlcaRecover g s) [.out, .pkt] :=
  done_leadsTo <| .ite (with_pkt ..).within (.refl ..)

theorem State.backOff_areas (s : State) (g : Nat) : s.OnlyChanges (s.backOff g) [.regs, .fv, .out, .pkt, .och, .hst, .ddr, .dbg] := by
  unfold State.backOff
  split
  · exact .refl ..
  · exact .ite ((setSending_areas ..).within |>.andThen (endCopy_areas ..) |>.andThen (inc_areas ..) |>.andThen (segEvent_areas ..))
      ((freeN_areas ..).within |>.andThen (setSending_areas ..) |>.andThen (setCopy_areas ..) |>.andThen (setEgq_areas ..))

theorem execT1sCollision_areas (g : Fin 4) (s : State) : s.LeadsTo (execT1sCollision g s) [.regs, .fv, .out, .pkt, .och, .hst, .ddr, .dbg] :=
  done_leadsTo <| .ite ((inc_areas ..).within |>.andThen (inc_areas ..) |>.andThen (segEvent_areas ..))
    (.ite ((inc_areas ..).within |>.andThen (backOff_areas ..)) (.refl ..))

theorem State.drawTag_areas (s : State) (p : Nat) : s.OnlyChanges (s.drawTag p).2 [.fv, .dbg] :=
  .ite_snd ((freeW_areas ..).within |>.andThen (with_dbg ..)) (.refl ..)

theorem State.newFrame_areas (s : State) (p sub : Nat) (pre : Bool) : s.OnlyChanges (s.newFrame p sub pre).2 [.regs, .fv, .pkt, .dbg] :=
  (drawTag_areas ..).within |>.andThen (with_pkt ..) |>.andThen (setFrame_areas ..) |>.andThen (pmuFab_areas ..)

theorem State.consume_areas (s : State) (f : Nat) (p : Parse) : s.OnlyChanges (s.consume f p) [.regs, .pkt] :=
  (updFrame_areas ..).within |>.andIf (inc_areas ..).within

theorem State.walk_areas (s : State) (f : Nat) : s.OnlyChanges (s.walk f) [.regs, .pkt] := by
  refine .ite (.refl ..) ?_
  split
  · refine .ite (.ite (consume_areas ..).within (.refl ..)) ?_
    split
    · exact (updFrame_areas ..).within
    · exact .refl ..
  · exact (updFrame_areas ..).within
  · exact .refl ..

theorem State.bytesIn_areas (s : State) (f : Nat) (b : List Byte) : s.OnlyChanges (s.bytesIn f b) [.regs, .pkt] :=
  .ite ((updFrame_areas ..).within |>.andThen (walk_areas ..)) (.refl ..)

theorem execParseWalk_areas (f : Nat) (bytes : List Byte) (s : State) : s.LeadsTo (execParseWalk f bytes s) [.regs, .out, .pkt] :=
  done_leadsTo (bytesIn_areas ..).within

theorem execPacketByteArrival_areas (f : Nat) (bytes : List Byte) (s : State) : s.LeadsTo (execPacketByteArrival f bytes s) [.regs, .out, .pkt] :=
  done_leadsTo (bytesIn_areas ..).within

theorem State.dupAdd_areas (s : State) (r port : Nat) (e : DupEntry) : s.OnlyChanges (s.dupAdd r port e) [.regs, .out, .ing, .hst] :=
  .ite ((setGroup_areas ..).within |>.andThen (inc_areas ..) |>.andThen (portEvent_areas ..)) (setGroup_areas ..).within

theorem State.dupCheck_areas (s : State) (f : Nat) (seq : BitVec 16) : s.OnlyChanges (s.dupCheck f seq) [.regs, .out, .ing, .pkt, .hst] := by
  unfold State.dupCheck
  dsimp only
  split
  · exact .refl ..
  · split
    · exact .ite ((updFrame_areas ..).within |>.andThen (inc_areas ..) |>.andThen (setGroup_areas ..)) (setGroup_areas ..).within
    · exact (dupAdd_areas ..).within

theorem State.dupForget_areas (s : State) (f : Nat) : s.OnlyChanges (s.dupForget f) [.ing] := by
  unfold State.dupForget
  split
  · exact (setGroup_areas ..).within
  · exact .refl ..

theorem State.dupLost_areas (s : State) (f : Nat) : s.OnlyChanges (s.dupLost f) [.regs, .ing] := by
  unfold State.dupLost
  split
  · exact .refl ..
  · exact (setGroup_areas ..).within |>.andThen (add_areas ..)

theorem execDupEntryExpire_areas (r : Fin 8) (src : BitVec 48) (seq : BitVec 16) (s : State) :
    s.LeadsTo (execDupEntryExpire r src seq s) [.out, .ing] :=
  done_leadsTo (setGroup_areas ..).within

theorem execSupervisionFrameRx_areas (r : Fin 8) (src : BitVec 48) (s : State) : s.LeadsTo (execSupervisionFrameRx r src s) [.regs, .out, .ing] :=
  done_leadsTo <| .ite (.refl ..) <| .ite (setGroup_areas ..).within <| .ite (setGroup_areas ..).within (inc_areas ..).within

theorem execSupervisionFrameTx_areas (r : Fin 8) (s : State) : s.LeadsTo (execSupervisionFrameTx r s) [.out, .ing] :=
  done_leadsTo <| .ite ((setGroup_areas ..).within |>.andThen (emit_areas ..)) (.refl ..)

theorem execNodeForget_areas (r : Fin 8) (src : BitVec 48) (s : State) : s.LeadsTo (execNodeForget r src s) [.out, .ing] :=
  done_leadsTo (setGroup_areas ..).within

theorem State.passThrough_areas (s : State) (f : Nat) (p : Parse) (seq : BitVec 16) (r : Nat) :
    s.OnlyChanges (s.passThrough f p seq r) [.regs, .out, .ing, .pkt, .och, .hst] := by
  refine .ite ((updFrame_areas ..).within |>.andThen (inc_areas ..)) ?_
  split
  next s2 e =>
    exact (updFrame_areas ..).within |>.trans (.ite (setGroup_areas ..).within (dupAdd_areas ..).within) |>.andThen ((takeIn_areas ..).of_snd e)
      |>.andThen (lowerF_areas ..) |>.andThen (enqueue_areas ..)
  next s2 e1 =>
    exact (updFrame_areas ..).within |>.trans (.ite (setGroup_areas ..).within (dupAdd_areas ..).within) |>.andThen ((takeIn_areas ..).of_snd e1)

theorem execHsrPassThrough_areas (f : Nat) (s : State) : s.LeadsTo (execHsrPassThrough f s) [.regs, .out, .ing, .pkt, .och, .hst] := by
  refine done_leadsTo ?_
  split
  · exact .ite (.refl ..) (passThrough_areas ..).within
  · exact .refl ..

theorem State.noteReason_areas (s : State) (p : Parse) : s.OnlyChanges (s.noteReason p) [.regs, .out, .hst] :=
  .ite ((inc_areas ..).within |>.andThen (sqc_areas ..)) (.ite ((inc_areas ..).within |>.andThen (sqc_areas ..)) (.refl ..))

theorem State.lookupFrame_areas (s : State) (f : Nat) : s.OnlyChanges (s.lookupFrame f) [.regs, .out, .ing, .pkt, .hst] :=
  .ite ((noteReason_areas ..).within |>.andThen (updFrame_areas ..))
    (.ite (.ite ((clsSearch_areas ..).within |>.andThen (pmuFab_areas ..) |>.andThen (updFrame_areas ..) |>.andThen (noteStranger_areas ..))
        ((clsSearch_areas ..).within |>.andThen (pmuFab_areas ..) |>.andThen (updFrame_areas ..)))
      (.ite (OnlyChanges.ite ((clsSearch_areas ..).within |>.andThen (pmuFab_areas ..) |>.andThen (inc_areas ..) |>.andThen (sqc_areas ..))
          ((clsSearch_areas ..).within |>.andThen (pmuFab_areas ..)) |>.andThen (updFrame_areas ..))
        (OnlyChanges.ite ((clsSearch_areas ..).within |>.andThen (pmuFab_areas ..) |>.andThen (inc_areas ..) |>.andThen (sqc_areas ..))
          ((clsSearch_areas ..).within |>.andThen (pmuFab_areas ..)) |>.andThen (updFrame_areas ..))))

theorem State.authFrame_areas (s : State) (f : Nat) : s.OnlyChanges (s.authFrame f) [.aut, .pkt] :=
  (updFrame_areas ..).within |>.andThen (enterEngine_areas ..)

theorem State.classifyFrame_areas (s : State) (f : Nat) : s.OnlyChanges (s.classifyFrame f) [.regs, .out, .ing, .aut, .pkt, .och, .hst, .dbg] := by
  unfold State.classifyFrame
  refine .ite (.andThen (.andThen (.andThen (.andThen (.andIf ?_ (inc_areas ..).within) (sqc_areas ..)) (updFrame_areas ..)) (tagEnd_areas ..))
      (freeLaneBuf_areas ..)) (.andIf ?_ ((updFrame_areas ..).within |>.andThen (tagEnd_areas ..) |>.andThen (freeLaneBuf_areas ..)))
  all_goals
    refine .andThen (.andThen ?_ (tagTime_areas ..)) (police_areas ..)
    refine .andThen (.andThen (.andThen (.andThen (.andThen ?_ (lookupFrame_areas ..)) (updFrame_areas ..)) (daLookup_areas ..)) (updFrame_areas ..))
      (authFrame_areas ..)
    split
    · exact (updFrame_areas ..).within |>.andThen (dupCheck_areas ..)
    · exact (updFrame_areas ..).within

theorem execClassify_areas (f : Nat) (s : State) : s.LeadsTo (execClassify f s) [.regs, .out, .ing, .aut, .pkt, .och, .hst, .dbg] :=
  done_leadsTo <| .ite (classifyFrame_areas ..).within (.refl ..)

theorem State.takeRct_areas (s : State) (f : Nat) : s.OnlyChanges (s.takeRct f) [.regs, .out, .pkt, .hst] := by
  unfold State.takeRct
  dsimp only
  split
  · exact .refl ..
  · refine .ite (.refl ..) ?_
    split
    · exact .refl ..
    · exact (updFrame_areas ..).within |>.andUnless ((inc_areas ..).within |>.andThen (portEvent_areas ..))

theorem State.countRx_areas (s : State) (p n : Nat) (fcsBad reasm : Bool) : s.OnlyChanges (s.countRx p n fcsBad reasm) [.regs, .out, .hst] :=
  .ite ((inc_areas ..).within |>.andThen (add_areas ..) |>.andIf (inc_areas ..).within |>.andIf (inc_areas ..).within
      |>.andIf ((inc_areas ..).within |>.andThen (portEvent_areas ..))) (.ite ((inc_areas ..).within |>.andIf (inc_areas ..).within) (.refl ..))

theorem State.settleCopies_areas (s : State) (f : Nat) : s.OnlyChanges (s.settleCopies f) [.pkt, .och] :=
  each_areas fun _ _ => .ite (setCopy_areas ..).within (.ite (setCopy_areas ..).within ((setCopy_areas ..).within |>.andThen (fillBuf_areas ..)))

theorem State.closeFrame_areas (s : State) (f : Nat) :
    s.OnlyChanges (s.closeFrame f) [.regs, .out, .ind, .ing, .spe, .pkt, .och, .clu, .hst, .ddr, .dbg] :=
  OnlyChanges.ite (.refl ..) (.ite (consume_areas ..).within (updFrame_areas ..).within) |>.andThen (updFrame_areas ..)
    |>.andIf (inc_areas ..).within |>.andIf (plcaDone_areas ..).within |>.andIf (dupLost_areas ..).within |>.andThen (settleCopies_areas ..)
    |>.andIf (freeLaneBuf_areas ..).within |>.andIf ((takeSamples_areas ..).within |>.andThen (updFrame_areas ..)) |>.andIf (retire_areas ..).within

theorem State.runtEnd_areas (s : State) (f : Nat) (all : List Byte) : s.OnlyChanges (s.runtEnd f all) [.ing, .pkt, .och] :=
  (dupForget_areas ..).within |>.andIf (plcaDone_areas ..).within
    |>.trans (.ite ((updFrame_areas ..).within |>.andThen (settleCopies_areas ..)) (dropFrame_areas ..).within)

theorem State.frameTail_areas (s : State) (f : Nat) (rest : List Byte) (fcsGood reasm : Bool) (ext : Option SecExt) :
    s.OnlyChanges (s.frameTail f rest fcsGood reasm ext) [.regs, .out, .ind, .ing, .spe, .pkt, .och, .clu, .hst, .ddr, .dbg] :=
  .ite (.refl ..) (.ite (OnlyChanges.ite (inc_areas ..).within (.ite (inc_areas ..).within (.refl ..)) |>.andThen (runtEnd_areas ..))
      ((updFrame_areas ..).within |>.andIf (inc_areas ..).within |>.andThen (countRx_areas ..) |>.andThen (takeRct_areas ..)
        |>.andThen (closeFrame_areas ..)))

theorem State.countFec_areas (s : State) (p corr uncorr : Nat) : s.OnlyChanges (s.countFec p corr uncorr) [.regs, .out, .hst] :=
  .ite ((add_areas ..).within |>.andThen (add_areas ..) |>.andUnless (portEvent_areas ..).within) (.refl ..)

theorem execFrameTailRx_areas (a0 : Nat) (a1 : List Byte) (a2 : TailCheck) (a3 : Bool) (a4 : Option SecExt) (s : State) :
    s.LeadsTo (execFrameTailRx a0 a1 a2 a3 a4 s) [.regs, .out, .ind, .ing, .spe, .pkt, .och, .clu, .hst, .ddr, .dbg] :=
  done_leadsTo <| .ite ((countFec_areas ..).within |>.andThen (frameTail_areas ..)) (.refl ..)

theorem execFrameHeadRx_areas (a0 : Edge (BitVec 5)) (a1 : Bool) (s : State) :
    s.LeadsTo (execFrameHeadRx a0 a1 s) [.regs, .fv, .out, .ind, .ing, .spe, .pkt, .och, .clu, .hst, .ddr, .dbg] :=
  done_leadsTo <| .ite (OnlyChanges.ite (each_areas fun _ _ => (frameTail_areas ..).within) (.refl ..) |>.andIf (plcaTake_areas ..).within
      |>.andThen (newFrame_areas ..)) (.refl ..)

theorem execFrameOversizeCut_areas (f : Nat) (s : State) :
    s.LeadsTo (execFrameOversizeCut f s) [.regs, .out, .ind, .ing, .spe, .pkt, .och, .clu, .hst, .ddr, .dbg] :=
  done_leadsTo <| .ite ((updFrame_areas ..).within |>.andIf (inc_areas ..).within |>.andThen (countRx_areas ..) |>.andThen (closeFrame_areas ..))
    (.refl ..)

theorem execT1sJabberCutoff_areas (g : Fin 4) (f : Nat) (s : State) :
    s.LeadsTo (execT1sJabberCutoff g f s) [.regs, .out, .ind, .ing, .spe, .pkt, .och, .clu, .hst, .ddr, .dbg] :=
  done_leadsTo <|
    .ite (.refl ..) (.ite (.ite ((inc_areas ..).within |>.andThen (segEvent_areas ..) |>.andIf (frameTail_areas ..).within) (.refl ..))
      (.ite (.refl ..) ((inc_areas ..).within |>.andThen (segEvent_areas ..))))

/-! ## Lanes -/

theorem State.joinQueue_areas (s : State) (f l st : Nat) (re : Bool) : s.OnlyChanges (s.joinQueue f l st re) [.regs, .pkt] :=
  (updFrame_areas ..).within |>.andThen (setQueue_areas ..) |>.andIf (setReg_areas ..).within

theorem State.discard_areas (s : State) (f code : Nat) : s.OnlyChanges (s.discard f code) [.regs, .out, .pkt, .och, .hst, .ddr, .dbg] :=
  (updFrame_areas ..).within |>.andThen (freeLaneBuf_areas ..) |>.andThen (tagEnd_areas ..) |>.andThen (retire_areas ..)

theorem State.laneBuf_areas (s : State) (f l : Nat) : s.OnlyChanges (s.laneBuf f l).2 [.regs, .out, .och, .hst] := by
  unfold State.laneBuf
  split
  · exact (transfer_areas ..).within
  · exact (alloc_areas ..).within

theorem State.enterLane_areas (s : State) (f l st : Nat) : s.OnlyChanges (s.enterLane f l st) [.regs, .out, .pkt, .och, .hst, .ddr, .dbg] := by
  refine .ite ((inc_areas ..).within |>.andThen (sqc_areas ..) |>.andThen (discard_areas ..)) ?_
  split
  next s1 e =>
    exact ((laneBuf_areas ..).of_snd e).within |>.andThen (inc_areas ..) |>.andThen (sqc_areas ..) |>.andThen (discard_areas ..)
  next s1 e1 =>
    exact ((laneBuf_areas ..).of_snd e1).within |>.andThen (updFrame_areas ..) |>.andThen (fillBuf_areas ..) |>.andThen (inc_areas ..)
      |>.andThen (pmuFab_areas ..) |>.andThen (updTag_areas ..) |>.andThen (tagTime_areas ..) |>.andThen (joinQueue_areas ..)

theorem execLaneEntry_areas (f : Nat) (s : State) : s.LeadsTo (execLaneEntry f s) [.regs, .out, .pkt, .och, .hst, .ddr, .dbg] :=
  done_leadsTo <| .ite (enterLane_areas ..).within (.refl ..)

theorem State.epochDrop_areas (s : State) (f l : Nat) : s.OnlyChanges (s.epochDrop f l) [.regs, .out, .pkt, .och, .hst, .ddr, .dbg] :=
  (inc_areas ..).within |>.andThen (sqc_areas ..) |>.andThen (discard_areas ..)

theorem State.takePacket_areas (s : State) (f l st k : Nat) : s.OnlyChanges (s.takePacket f l st k) [.pkt, .clu] :=
  (updFrame_areas ..).within |>.andThen (updThr_areas ..) |>.andThen (refetch_areas ..)

theorem State.takeHead_areas (s : State) (f l st : Nat) : s.OnlyChanges (s.takeHead f l st) [.pkt] :=
  (setQueue_areas ..).within |>.andThen (setRob_areas ..)

theorem State.bypassStage_areas (s : State) (f l st : Nat) : s.OnlyChanges (s.bypassStage f l st) [.regs, .pkt] :=
  (takeHead_areas ..).within |>.andThen (updFrame_areas ..) |>.andUnless (inc_areas ..).within

theorem State.dispatch_areas (s : State) (l st : Nat) : s.OnlyChanges (s.dispatch l st) [.regs, .out, .pkt, .och, .clu, .hst, .ddr, .dbg] := by
  unfold State.dispatch
  split
  · exact .refl ..
  · refine .ite ((setQueue_areas ..).within |>.andThen (epochDrop_areas ..)) <| .ite (.refl ..) <| .ite (bypassStage_areas ..).within ?_
    split
    · exact (takeHead_areas ..).within |>.andThen (takePacket_areas ..)
    · exact .refl ..

theorem execStageDispatch_areas (l : Fin 4) (st : Fin 8) (s : State) :
    s.LeadsTo (execStageDispatch l st s) [.regs, .out, .pkt, .och, .clu, .hst, .ddr, .dbg] :=
  done_leadsTo (dispatch_areas ..).within

theorem State.idleThread_areas (s : State) (k : Nat) : s.OnlyChanges (s.idleThread k) [.clu] := (updThr_areas ..).within

theorem State.relEff_areas (s : State) (k disp lane stage : Nat) : s.EffIn (s.relEff k disp lane stage) [.regs, .pkt, .clu] :=
  .ite ((drainStores_areas ..).within |>.andThen (releasePkt_areas ..) |>.andThen (idleThread_areas ..))
    (.ite ((drainStores_areas ..).within |>.andThen (inc_areas ..) |>.andThen (idleThread_areas ..)) (.refl ..))

theorem execRelNext_areas (t : ThreadId) (gs : Fin 8) (s : State) :
    s.LeadsTo (execRelNext t gs s) [.regs, .fv, .out, .pkt, .clu, .cfg, .hst, .ddr, .dbg] :=
  done_leadsTo (issue_areas fun _ => (relEff_areas ..).within)

theorem execRelExit_areas (t : ThreadId) (gs : Fin 8) (s : State) :
    s.LeadsTo (execRelExit t gs s) [.regs, .fv, .out, .pkt, .clu, .cfg, .hst, .ddr, .dbg] :=
  done_leadsTo (issue_areas fun _ => (relEff_areas ..).within)

theorem execRelDrop_areas (t : ThreadId) (gs : Fin 8) (s : State) :
    s.LeadsTo (execRelDrop t gs s) [.regs, .fv, .out, .pkt, .clu, .cfg, .hst, .ddr, .dbg] :=
  done_leadsTo (issue_areas fun _ => (relEff_areas ..).within)

theorem execRelRecirc_areas (t : ThreadId) (gs : Fin 8) (s : State) :
    s.LeadsTo (execRelRecirc t gs s) [.regs, .fv, .out, .pkt, .clu, .cfg, .hst, .ddr, .dbg] :=
  done_leadsTo (issue_areas fun _ => (relEff_areas ..).within)

theorem execStageOverrun_areas (t : ThreadId) (s : State) : s.LeadsTo (execStageOverrun t s) [.regs, .out, .pkt, .clu, .hst] :=
  done_leadsTo <| .ite ((releasePkt_areas ..).within |>.andThen (updThr_areas ..) |>.andThen (inc_areas ..) |>.andThen (sqc_areas ..)) (.refl ..)

theorem State.recirculate_areas (s : State) (f l tl ts : Nat) :
    s.OnlyChanges (s.recirculate f l tl ts) [.regs, .out, .pkt, .och, .hst, .ddr, .dbg] := by
  refine .ite ?_ ((inc_areas ..).within |>.andThen (sqc_areas ..) |>.andThen (discard_areas ..))
  refine .andThen ?_ (joinQueue_areas ..)
  refine .andThen ?_ (inc_areas ..)
  refine .andThen ?_ (tagTime_areas ..)
  split
  · exact (tagEnd_areas ..).within |>.andThen (tagFlush_areas ..) |>.andThen (updFrame_areas ..) |>.andThen (updTag_areas ..)
      |>.andThen (transfer_areas ..)
  · exact (tagEnd_areas ..).within |>.andThen (tagFlush_areas ..) |>.andThen (updFrame_areas ..) |>.andThen (updTag_areas ..)

theorem State.leaveStage_areas (s : State) (f l st : Nat) : s.OnlyChanges (s.leaveStage f l st) [.regs, .out, .pkt, .och, .hst, .ddr, .dbg] :=
  (setRob_areas ..).within |>.andThen (with_pkt ..) |>.andThen (tagTime_areas ..)
    |>.trans (.ite ((inc_areas ..).within |>.andThen (discard_areas ..))
      (.ite (epochDrop_areas ..).within (.ite (recirculate_areas ..).within (.ite (joinQueue_areas ..).within (updFrame_areas ..).within))))

theorem State.stageExit_areas (s : State) (l st : Nat) : s.OnlyChanges (s.stageExit l st) [.regs, .out, .pkt, .och, .hst, .ddr, .dbg] := by
  unfold State.stageExit
  split
  · exact .refl ..
  · exact .ite (leaveStage_areas ..).within (.refl ..)

theorem execStageExit_areas (l : Fin 4) (st : Fin 8) (s : State) : s.LeadsTo (execStageExit l st s) [.regs, .out, .pkt, .och, .hst, .ddr, .dbg] :=
  done_leadsTo (stageExit_areas ..).within

theorem State.exitLane_areas (s : State) (f l : Nat) :
    s.OnlyChanges (s.exitLane f l) [.regs, .out, .ind, .ing, .spe, .pkt, .och, .clu, .hst, .ddr, .dbg] :=
  (inc_areas ..).within |>.andIf (inc_areas ..).within |>.andThen (offerSamples_areas ..) |>.andThen (updFrame_areas ..)
    |>.trans (.ite ((inc_areas ..).within |>.andThen (freeLaneBuf_areas ..)) (.ite (freeLaneBuf_areas ..).within (makeCopies_areas ..).within))
    |>.andIf (captureFrame_areas ..).within |>.andThen (tagEnd_areas ..) |>.andThen (retire_areas ..)

theorem execLaneExit_areas (f : Nat) (s : State) :
    s.LeadsTo (execLaneExit f s) [.regs, .out, .ind, .ing, .spe, .pkt, .och, .clu, .hst, .ddr, .dbg] := by
  refine done_leadsTo ?_
  split
  · exact .ite (.refl ..) (exitLane_areas ..).within
  · exact .refl ..

theorem execQhwmReset_areas (who : Accessor) (l : Fin 4) (st : Fin 8) (s : State) : s.LeadsTo (execQhwmReset who l st s) [.regs, .out, .hst] :=
  done_leadsTo (writeCmd_areas fun _ => (setReg_areas ..).within)

theorem State.dequeueFrame_areas (s : State) (f : Nat) : s.OnlyChanges (s.dequeueFrame f) [.pkt] := by
  unfold State.dequeueFrame
  split
  · exact (setQueue_areas ..).within
  · exact .refl ..

theorem State.reclaim_areas (s : State) (o : Nat) : s.OnlyChanges (s.reclaim o) [.regs, .out, .pkt, .och, .hst, .ddr, .dbg] :=
  (each_areas fun _ _ => (endCopy_areas ..).within) |>.each (fun _ _ => (dequeueFrame_areas ..).within |>.andThen (discard_areas ..))

theorem execOchReclaim_areas (who : Accessor) (val : Word) (s : State) :
    s.LeadsTo (execOchReclaim who val s) [.regs, .out, .pkt, .och, .hst, .ddr, .dbg] :=
  done_leadsTo
    (writeCmd_areas fun _ => .ite (ochResult_areas ..).within
      (.ite (ochResult_areas ..).within ((reclaim_areas ..).within |>.andThen (ochResult_areas ..))))

/-! ## Verdict -/

theorem State.failCopy_areas (s : State) (n : Nat) : s.OnlyChanges (s.failCopy n) [.regs, .out, .pkt, .och, .hst, .ddr, .dbg] :=
  .ite (.refl ..) (.ite (.ite (.refl ..) ((inc_areas ..).within |>.andThen (sqc_areas ..) |>.andThen (endCopy_areas ..)))
      (.ite (setCopy_areas ..).within ((inc_areas ..).within |>.andThen (endCopy_areas ..))))

theorem State.tagV_areas (s : State) (f : Nat) : s.OnlyChanges (s.tagV f) [.dbg] :=
  .ite (each_areas fun _ _ => .ite (.refl ..) (setTagRec_areas ..).within) (.refl ..)

theorem State.giveVerdict_areas (s : State) (f : Nat) :
    s.OnlyChanges (s.giveVerdict f) [.regs, .out, .ind, .aut, .spe, .pkt, .och, .clu, .hst, .ddr, .dbg] :=
  (bookCtx_areas ..).within |>.andThen (bookVerdict_areas ..) |>.andThen (updFrame_areas ..) |>.andThen (tagV_areas ..) |>.andThen (pmuFab_areas ..)
    |>.trans (.ite (spePass_areas ..).within ((each_areas fun _ _ => (failCopy_areas ..).within) |>.andThen (speFail_areas ..)))
    |>.andIf (captureFrame_areas ..).within |>.andIf (saLearn_areas ..).within |>.andThen (retire_areas ..)

theorem execVerdict_areas (f : Nat) (s : State) : s.LeadsTo (execVerdict f s) [.regs, .out, .ind, .aut, .spe, .pkt, .och, .clu, .hst, .ddr, .dbg] :=
  done_leadsTo <| .ite (giveVerdict_areas ..).within (.refl ..)

/-! ## Voter -/

theorem State.updVch_areas (s : State) (ch : Nat) (g : VrmChan → VrmChan) : s.OnlyChanges (s.updVch ch g) [.vrm] := (setVch_areas ..).within

theorem State.judgeSlot_areas (s : State) (ch k : Nat) : s.OnlyChanges (s.judgeSlot ch k) [.regs, .out, .vrm, .hst] :=
  OnlyChanges.ite (sqc_areas ..).within (.refl ..) |>.andUnless (updVch_areas ..).within

theorem State.judgeChan_areas (s : State) (ch : Nat) : s.OnlyChanges (s.judgeChan ch) [.regs, .out, .vrm, .hst] :=
  .ite (.refl ..) ((each_areas fun _ _ => (judgeSlot_areas ..).within) |>.andIf (sqc_areas ..).within |>.andUnless (updVch_areas ..).within)

theorem State.judgeChans_areas (s : State) : s.OnlyChanges s.judgeChans [.regs, .out, .vrm, .hst] :=
  each_areas fun _ _ => (judgeChan_areas ..).within

theorem State.soe_areas (s : State) (kind idx : Nat) (level chat ended prov : Bool) (t : Nat) :
    s.OnlyChanges (s.soe kind idx level chat ended prov t) [.regs, .out, .vrm, .hst, .ddr] :=
  .ite ((with_vrm ..).within |>.trans (ringPut_areas fun _ => (inc_areas ..).within |>.andThen (sqc_areas ..))) (.refl ..)

theorem State.updFout_areas (s : State) (o : Nat) (g : FioOut → FioOut) : s.OnlyChanges (s.updFout o g) [.vrm] := (setFout_areas ..).within

theorem State.driveOut_areas (s : State) (o : Nat) (level : Bool) : s.OnlyChanges (s.driveOut o level) [.regs, .out, .vrm, .hst, .ddr] :=
  (updFout_areas ..).within |>.andUnless (soe_areas ..).within

theorem State.assertOut_areas (s : State) (o : Nat) : s.OnlyChanges (s.assertOut o) [.regs, .out, .vrm, .hst, .ddr] :=
  (updFout_areas ..).within |>.andThen (driveOut_areas ..) |>.andUnless (sqc_areas ..).within

theorem State.refuseFire_areas (s : State) : s.OnlyChanges s.refuseFire [.regs, .out, .hst] := (inc_areas ..).within |>.andThen (sqc_areas ..)

theorem State.fireOut_areas (s : State) (o : Nat) : s.OnlyChanges (s.fireOut o) [.regs, .out, .vrm, .hst, .ddr] :=
  .ite (refuseFire_areas ..).within <| .ite (updFout_areas ..).within (assertOut_areas ..).within

theorem State.instantOut_areas (s : State) (o : Nat) : s.OnlyChanges (s.instantOut o) [.regs, .out, .vrm, .hst, .ddr] :=
  .ite (assertOut_areas ..).within (.refl ..)

theorem State.outsLeave_areas (s : State) (ch : Nat) : s.OnlyChanges (s.outsLeave ch) [.regs, .out, .vrm, .hst] :=
  (each_areas fun _ _ => (updFout_areas ..).within) |>.each (fun _ _ => .ite ((updFout_areas ..).within |>.andThen (refuseFire_areas ..))
      (.refl ..))

theorem execOutputRelease_areas (o : Fin 32) (s : State) : s.LeadsTo (execOutputRelease o s) [.regs, .out, .vrm, .hst, .ddr] :=
  done_leadsTo <| .ite (driveOut_areas ..).within (.refl ..)

theorem execArmHoldExpire_areas (o : Fin 32) (s : State) : s.LeadsTo (execArmHoldExpire o s) [.out, .vrm] :=
  done_leadsTo <| .ite (updFout_areas ..).within (.refl ..)

theorem execFioArmExpire_areas (o : Fin 32) (s : State) : s.LeadsTo (execFioArmExpire o s) [.out, .vrm] := by
  refine done_leadsTo ?_
  split
  · exact .ite (updFout_areas ..).within (.refl ..)
  · exact .refl ..

theorem State.fioRun_areas (s : State) (who : Accessor) (op : Nat) (val : Word) :
    s.OnlyChanges (s.fioRun who op val) [.regs, .out, .vrm, .hst, .ddr] := by
  refine .ite ((setReg_areas ..).within |>.andThen (setReg_areas ..)) <| .ite ((setReg_areas ..).within |>.andThen (setReg_areas ..)) <|
    .ite ((setReg_areas ..).within |>.andThen (setReg_areas ..)) ?_
  split
  · exact (updFout_areas ..).within |>.andThen (setReg_areas ..) |>.andThen (setReg_areas ..)
  · exact .ite ((assertOut_areas ..).within |>.andThen (setReg_areas ..) |>.andThen (setReg_areas ..))
      ((setReg_areas ..).within |>.andThen (setReg_areas ..))
  · exact (driveOut_areas ..).within |>.andThen (setReg_areas ..) |>.andThen (setReg_areas ..)

theorem execFioArm_areas (who : Accessor) (val : Word) (s : State) : s.LeadsTo (execFioArm who val s) [.regs, .out, .vrm, .hst, .ddr] :=
  done_leadsTo (writeCmd_areas fun _ => (fioRun_areas ..).within)

theorem execFioFire_areas (who : Accessor) (val : Word) (s : State) : s.LeadsTo (execFioFire who val s) [.regs, .out, .vrm, .hst, .ddr] :=
  done_leadsTo (writeCmd_areas fun _ => (fioRun_areas ..).within)

theorem execFioRelease_areas (who : Accessor) (val : Word) (s : State) : s.LeadsTo (execFioRelease who val s) [.regs, .out, .vrm, .hst, .ddr] :=
  done_leadsTo (writeCmd_areas fun _ => (fioRun_areas ..).within)

theorem State.updPcb_areas (s : State) (b : Nat) (g : Pcb → Pcb) : s.OnlyChanges (s.updPcb b g) [.vrm] := (setPcb_areas ..).within

theorem State.pubCopy_areas (s : State) (b ready : Nat) (body : List Byte) (e : Nat) :
    s.OnlyChanges (s.pubCopy b ready body e) [.regs, .out, .pkt, .och, .vrm, .hst] := by
  unfold State.pubCopy
  dsimp only
  split
  next s1 e =>
    exact ((takeIn_areas ..).of_snd e).within |>.andThen (enqueue_areas ..) |>.andThen (inc_areas ..) |>.andThen (updPcb_areas ..)
  next s1 e1 =>
    exact ((takeIn_areas ..).of_snd e1).within |>.andThen (inc_areas ..) |>.andThen (sqc_areas ..) |>.andThen (updPcb_areas ..)

theorem State.publish_areas (s : State) (b ready : Nat) : s.OnlyChanges (s.publish b ready) [.regs, .out, .ing, .aut, .pkt, .och, .vrm, .hst] := by
  unfold State.publish
  dsimp only
  refine .ite (.refl ..) ?_
  split
  · exact .ite_snd (.refl ..) (signPub_areas ..).within
  · exact OnlyChanges.ite_snd (.refl ..) (signPub_areas ..).within |>.each (fun _ _ => (pubCopy_areas ..).within)
      |>.each (fun _ _ => .ite (setGroup_areas ..).within (.refl ..))

theorem State.unpublish_areas (s : State) (b : Nat) : s.OnlyChanges (s.unpublish b) [.regs, .out, .pkt, .och, .vrm, .hst, .ddr, .dbg] :=
  (each_areas fun _ _ => (endCopy_areas ..).within) |>.andThen (updPcb_areas ..) |>.andThen (setReg_areas ..)

theorem State.pubChange_areas (s : State) (b v : Nat) :
    s.OnlyChanges (s.pubChange b v) [.regs, .out, .ing, .aut, .pkt, .och, .vrm, .hst, .ddr, .dbg] :=
  OnlyChanges.ite (unpublish_areas ..).within (.refl ..) |>.andThen (updPcb_areas ..) |>.andThen (publish_areas ..)

theorem State.publishChanges_areas (s : State) : s.OnlyChanges s.publishChanges [.regs, .out, .ing, .aut, .pkt, .och, .vrm, .hst, .ddr, .dbg] :=
  each_areas fun _ _ => .ite (.refl ..) (pubChange_areas ..).within

theorem State.pubOnce_areas (s : State) (b : Nat) : s.OnlyChanges (s.pubOnce b) [.regs, .out, .ing, .aut, .pkt, .och, .vrm, .hst] :=
  .ite ((updPcb_areas ..).within |>.andThen (publish_areas ..)) (.refl ..)

theorem execPcbRetransmit_areas (b : BitVec 9) (s : State) : s.LeadsTo (execPcbRetransmit b s) [.regs, .out, .ing, .aut, .pkt, .och, .vrm, .hst] :=
  done_leadsTo <| .ite ((updPcb_areas ..).within |>.andThen (publish_areas ..)) (.refl ..)

theorem State.trip_areas (s : State) (ch : Nat) : s.OnlyChanges (s.trip ch) [.regs, .out, .vrm, .hst, .ddr] :=
  (updVch_areas ..).within |>.andThen (inc_areas ..) |>.andThen (inc_areas ..) |>.andThen (sqc_areas ..) |>.andThen (soe_areas ..)
    |>.andThen (recChannel_areas ..) |>.andIf (each_areas fun _ _ => (fireOut_areas ..).within)

theorem State.untrip_areas (s : State) (ch st : Nat) : s.OnlyChanges (s.untrip ch st) [.regs, .out, .vrm, .hst, .ddr] :=
  (updVch_areas ..).within |>.andThen (soe_areas ..) |>.andThen (outsLeave_areas ..)

theorem State.vote_areas (s : State) (ch : Nat) : s.OnlyChanges (s.vote ch) [.regs, .out, .vrm, .hst, .ddr] :=
  (judgeChan_areas ..).within |>.andIf (trip_areas ..).within

theorem State.hold_areas (s : State) (ch k : Nat) (trip prov : Bool) : s.OnlyChanges (s.hold ch k trip prov) [.vrm] := (updVch_areas ..).within
theorem State.absentSlot_areas (s : State) (ch k : Nat) : s.OnlyChanges (s.absentSlot ch k) [.vrm] := (updVch_areas ..).within

theorem State.refusePost_areas (s : State) (off : Nat) : s.OnlyChanges (s.refusePost off) [.regs, .out, .hst] :=
  (inc_areas ..).within |>.andThen (sqc_areas ..)

theorem State.decide_areas (s : State) (ch : Nat) (ks : List Nat) (trip prov : Bool) :
    s.OnlyChanges (s.decide_ ch ks trip prov) [.regs, .out, .vrm, .hst, .ddr] :=
  .ite ((each_areas fun _ _ => (absentSlot_areas ..).within) |>.andThen (refusePost_areas ..) |>.andThen (judgeChan_areas ..))
    ((each_areas fun _ _ => (hold_areas ..).within) |>.andIf (inc_areas ..).within |>.andThen (vote_areas ..))

theorem State.forwardVote_areas (s : State) (ch cl task : Nat) (trip prov : Bool) :
    s.OnlyChanges (s.forwardVote ch cl task trip prov) [.regs, .out, .pai] :=
  .ite ((emit_areas ..).within |>.andThen (inc_areas ..) |>.andThen (with_pai ..)) (.refl ..)

theorem State.postVote_areas (s0 : State) (cl task : Nat) (w : Word) (taint mark : Bool) :
    s0.OnlyChanges (s0.postVote cl task w taint mark) [.regs, .out, .ing, .aut, .pkt, .och, .vrm, .hst, .pai, .ddr, .dbg] :=
  (inc_areas ..).within |>.andThen (pmuFab_areas ..)
    |>.trans (.ite ((each_areas fun _ _ => (absentSlot_areas ..).within) |>.andThen (refusePost_areas ..) |>.andThen (judgeChan_areas ..))
      (.ite ((each_areas fun _ _ => (absentSlot_areas ..).within) |>.andThen (refusePost_areas ..) |>.andThen (judgeChan_areas ..))
        (.ite (refusePost_areas ..).within ((decide_areas ..).within |>.andThen (forwardVote_areas ..) |>.andThen (publishChanges_areas ..)))))

theorem execVpost_areas (t : ThreadId) (gs : Fin 8) (s : State) :
    s.LeadsTo (execVpost t gs s) [.regs, .fv, .out, .ing, .aut, .pkt, .och, .clu, .vrm, .cfg, .hst, .pai, .ddr, .dbg] :=
  done_leadsTo (issue_areas fun _ => (drainStores_areas ..).within |>.andThen (postVote_areas ..))

theorem State.cellBad_areas (s : State) : s.OnlyChanges s.cellBad [.regs] := (inc_areas ..).within

theorem execPairVoteRx_areas (a0 : PairCell VoteName) (a1 : Fin 6) (a2 : BitVec 10) (a3 a4 : Bool) (s : State) :
    s.LeadsTo (execPairVoteRx a0 a1 a2 a3 a4 s) [.regs, .out, .ing, .aut, .pkt, .och, .vrm, .hst, .pai, .ddr, .dbg] :=
  done_leadsTo <| .ite (cellBad_areas ..).within
    (.ite ((with_pai ..).within |>.andThen (inc_areas ..) |>.andUnless ((decide_areas ..).within |>.andThen (publishChanges_areas ..))) (.refl ..))

theorem State.disagree_areas (s : State) (ch num : Nat) : s.OnlyChanges (s.disagree ch num) [.regs, .out, .vrm, .hst] :=
  .ite ((inc_areas ..).within |>.andThen (sqc_areas ..)) ((with_vrm ..).within |>.andThen (inc_areas ..) |>.andThen (sqc_areas ..))

theorem State.strobeChan_areas (s : State) (ch num : Nat) : s.OnlyChanges (s.strobeChan ch num) [.regs, .out, .vrm, .hst, .ddr] := by
  refine .each ?_ fun _ _ => (updVch_areas ..).within
  refine .trans ?_ (.ite ((updVch_areas ..).within |>.andIf (disagree_areas ..).within) (updVch_areas ..).within)
  refine .andIf (.andIf (.andThen ?_ (judgeChan_areas ..)) (updVch_areas ..).within) (untrip_areas ..).within
  exact .each (.refl ..) fun _ _ => (updVch_areas ..).within

theorem State.strobeVoter_areas (s : State) (n num : Nat) :
    s.OnlyChanges (s.strobeVoter n num) [.regs, .out, .ing, .aut, .pkt, .och, .vrm, .hst, .ddr, .dbg] :=
  (each_areas fun _ _ => (strobeChan_areas ..).within) |>.andThen (publishChanges_areas ..)

theorem execVrmReset_areas (who : Accessor) (val : Word) (s : State) :
    s.LeadsTo (execVrmReset who val s) [.regs, .out, .ing, .aut, .pkt, .och, .vrm, .hst, .ddr, .dbg] :=
  done_leadsTo (writeCmd_areas fun _ => .ite ((setReg_areas ..).within |>.andThen (setReg_areas ..))
      (.ite ((untrip_areas ..).within |>.andThen (publishChanges_areas ..) |>.andThen (setReg_areas ..) |>.andThen (setReg_areas ..))
        ((setReg_areas ..).within |>.andThen (setReg_areas ..))))

theorem State.disPop_areas (s : State) : s.OnlyChanges (s.disPop).2 [.regs, .vrm] := by
  unfold State.disPop
  split
  · exact .refl ..
  · exact (with_vrm ..).within |>.each (fun _ _ => (setReg_areas ..).within)

theorem execVrmDisPop_areas (who : Accessor) (s : State) : s.LeadsTo (execVrmDisPop who s) [.regs, .out, .vrm] :=
  done_leadsTo (rttRead_areas (disPop_areas ..).within)

theorem execVrmPcbSelect_areas (who : Accessor) (val : Word) (s : State) : s.LeadsTo (execVrmPcbSelect who val s) [.regs, .out, .hst] :=
  done_leadsTo (writeCmd_areas fun _ => (setReg_areas ..).within |>.each (fun _ _ => (setReg_areas ..).within))

theorem State.updFin_areas (s : State) (i : Nat) (g : FioIn → FioIn) : s.OnlyChanges (s.updFin i g) [.vrm] := (setFinp_areas ..).within

theorem State.acceptInput_areas (s : State) (i : Nat) (level : Bool) (firstAt : Nat) :
    s.OnlyChanges (s.acceptInput i level firstAt) [.regs, .out, .vrm, .hst, .ddr] :=
  (updFin_areas ..).within |>.andThen (soe_areas ..) |>.andIf (sqc_areas ..).within |>.andThen (recInput_areas ..)

theorem execInputAccept_areas (i : Fin 32) (level : Bool) (firstAt : Nat) (s : State) :
    s.LeadsTo (execInputAccept i level firstAt s) [.regs, .out, .vrm, .hst, .ddr] :=
  done_leadsTo <| .ite (acceptInput_areas ..).within (.refl ..)

theorem execChatterEnd_areas (i : Fin 32) (level : Bool) (s : State) : s.LeadsTo (execChatterEnd i level s) [.regs, .out, .vrm, .hst, .ddr] :=
  done_leadsTo <| .ite ((updFin_areas ..).within |>.andThen (soe_areas ..) |>.andUnless (recInput_areas ..).within) (.refl ..)

theorem State.voterSafe_areas (s : State) : s.OnlyChanges s.voterSafe [.regs, .out, .ing, .aut, .pkt, .och, .vrm, .hst, .ddr, .dbg] :=
  (each_areas fun _ _ => (driveOut_areas ..).within |>.andThen (updFout_areas ..)) |>.each (fun _ _ => (pubChange_areas ..).within)
    |>.andThen (sqc_areas ..)

theorem State.outsOff_areas (s : State) : s.OnlyChanges s.outsOff [.regs, .out, .vrm, .hst, .ddr] :=
  each_areas fun _ _ => (driveOut_areas ..).within |>.andThen (updFout_areas ..)

theorem State.commitChan_areas (old s : State) (ch : Nat) : s.OnlyChanges (old.commitChan s ch) [.regs, .out, .vrm, .hst, .ddr] :=
  .ite (OnlyChanges.ite (untrip_areas ..).within (.refl ..) |>.andThen (setVch_areas ..))
    (.ite (setVch_areas ..).within (.ite (updVch_areas ..).within (.refl ..)))

theorem State.commitVoter_areas (old s : State) : s.OnlyChanges (old.commitVoter s) [.regs, .out, .ing, .aut, .pkt, .och, .vrm, .hst, .ddr, .dbg] :=
  (each_areas fun _ _ => (commitChan_areas ..).within)
    |>.each (fun _ _ => .ite (driveOut_areas ..).within (.ite ((setFout_areas ..).within |>.andThen (driveOut_areas ..)) (.refl ..)))
    |>.each (fun _ _ => .ite (.refl ..) (setFinp_areas ..).within) |>.each (fun _ _ => .ite (pubChange_areas ..).within (.refl ..))
    |>.andThen (publishChanges_areas ..) |>.andThen (judgeChans_areas ..)

/-! ## ConfApply -/

theorem State.imgReg_areas (s : State) (off : Nat) (v : Word) : s.OnlyChanges (s.imgReg off v) [.regs, .ing] :=
  .ite (.refl ..) ((setReg_areas ..).within |>.andIf (with_ing ..).within)

theorem State.applyObj_areas (s : State) (r : Rec) : s.OnlyChanges (s.applyObj r) [.regs, .aut, .spe, .clu, .vrm, .cfg] := by
  unfold State.applyObj
  split
  · exact .ite (.refl ..) (setAutCtx_areas ..).within
  · exact (setReg_areas ..).within
  · exact (setStream_areas ..).within
  · exact (setTask_areas ..).within
  · exact (setPcb_areas ..).within
  · exact (setPcb_areas ..).within
  · exact (setEnv_areas ..).within |>.andThen (setReg_areas ..)
  · exact each_areas fun _ _ => (setReg_areas ..).within
  · exact .refl ..

theorem State.applyRec_areas (s : State) (r : Rec) : s.OnlyChanges (s.applyRec r) [.regs, .ing, .aut, .spe, .clu, .vrm, .cfg] := by
  unfold State.applyRec
  split
  · exact each_areas fun _ _ => (imgReg_areas ..).within
  · exact (applyObj_areas ..).within
  · exact .refl ..

theorem State.deriveEnvs_areas (s : State) (root : Nat) : s.OnlyChanges (s.deriveEnvs root) [.regs, .cfg] :=
  each_areas fun _ _ => (setEnv_areas ..).within |>.andThen (setReg_areas ..)

theorem State.defaultPools_areas (s : State) : s.OnlyChanges s.defaultPools [.regs] := each_areas fun _ _ => (setReg_areas ..).within

theorem State.applyImg_areas (s : State) (p : ImgPart) : s.OnlyChanges (s.applyImg p) [.regs, .ing, .aut, .spe, .clu, .vrm, .cfg] :=
  OnlyChanges.ite (defaultPools_areas ..).within (.refl ..) |>.each (fun _ _ => (applyRec_areas ..).within) |>.andIf (deriveEnvs_areas ..).within

theorem State.produced_areas (s : State) : s.OnlyChanges s.produced [.regs, .ing, .aut, .spe, .clu, .vrm, .cfg] :=
  each_areas fun _ _ => (applyImg_areas ..).within

/-! ## Checker -/

theorem State.recordCheck_areas (s : State) (l : List ChkErr) : s.OnlyChanges (s.recordCheck l) [.regs] :=
  (each_areas fun _ _ => (setReg_areas ..).within |>.andThen (setReg_areas ..)) |>.andThen (setReg_areas ..)

/-! ## Indigo -/

theorem State.steer_areas (s : State) : s.OnlyChanges s.steer [.regs, .fv] := (freeN_areas ..).within |>.andThen (setReg_areas ..)

theorem State.stepBy_areas (s : State) (ns : Int) : s.OnlyChanges (s.stepBy ns) [.time, .regs, .out, .ind, .clu, .hst] :=
  (stepTime_areas ..).within |>.andThen (with_ind ..) |>.andThen (showOffsets_areas ..)

theorem State.countUpdate_areas (s : State) (off : Int) : s.OnlyChanges (s.countUpdate off) [.regs, .out, .ind, .hst] :=
  .ite (.ite (setTimeState_areas ..).within (with_ind ..).within) (with_ind ..).within

theorem State.judgeDisagree_areas (s : State) : s.OnlyChanges s.judgeDisagree [.regs, .out, .ind, .hst] :=
  .ite (.ite ((with_ind ..).within |>.andThen (deliver_areas ..)) (with_ind ..).within) (with_ind ..).within

theorem State.servoWith_areas (s : State) (a1 : Nat) : s.OnlyChanges (s.servoWith a1) [.time, .regs, .fv, .out, .ind, .clu, .hst] := by
  unfold State.servoWith
  split
  · exact .refl ..
  · exact OnlyChanges.ite ((with_ind ..).within |>.andThen (stepBy_areas ..)) (steer_areas ..).within |>.andThen (countUpdate_areas ..)
  · exact (steer_areas ..).within
  · exact (steer_areas ..).within |>.andThen (countUpdate_areas ..)

theorem execServoUpdate_areas (s : State) : s.LeadsTo (execServoUpdate s) [.time, .regs, .fv, .out, .ind, .clu, .hst] :=
  done_leadsTo
    ((judgeSources_areas ..).within
      |>.trans (.ite (judgeDisagree_areas ..).within ((selectSrc_areas ..).within |>.andThen (servoWith_areas ..)
          |>.andThen (judgeDisagree_areas ..))))

theorem State.timeSetWrite_areas (s : State) (val : Word) : s.OnlyChanges (s.timeSetWrite val) [.time, .regs, .wrHold, .out, .ind, .clu, .hst] :=
  (with_wrHold ..).within |>.andIf (stepTime_areas ..).within

theorem execTimeSetStepRequest_areas (who : Accessor) (val : Word) (s : State) :
    s.LeadsTo (execTimeSetStepRequest who val s) [.time, .regs, .wrHold, .out, .ind, .clu, .hst] :=
  done_leadsTo (writeCmd_areas fun _ => (timeSetWrite_areas ..).within)

theorem State.restartTime_areas (s : State) : s.OnlyChanges s.restartTime [.regs, .out, .ind, .hst] :=
  .ite (sqcEach_areas ..).within ((selectSrc_areas ..).within |>.andThen (setTimeState_areas ..))

theorem execTimeRestart_areas (who : Accessor) (s : State) : s.LeadsTo (execTimeRestart who s) [.regs, .out, .ind, .hst] :=
  done_leadsTo (writeCmd_areas fun _ => (restartTime_areas ..).within)

theorem State.sendPtp_areas (s : State) (p kind seq time : Nat) (corr : Int) : s.OnlyChanges (s.sendPtp p kind seq time corr) [.out] :=
  (emit_areas ..).within

theorem State.forwardSync_areas (s : State) (p : Nat) (twoStep : Bool) (seq origin : Nat) (corr : Int) (residence : Nat) :
    s.OnlyChanges (s.forwardSync p twoStep seq origin corr residence) [.out] :=
  each_areas fun _ _ => .ite (sendPtp_areas ..).within (.ite (sendPtp_areas ..).within ((sendPtp_areas ..).within |>.andThen (sendPtp_areas ..)))

theorem State.forwardFollowUp_areas (s : State) (p seq origin : Nat) (corr : Int) (residence : Nat) :
    s.OnlyChanges (s.forwardFollowUp p seq origin corr residence) [.out] :=
  each_areas fun _ _ => (sendPtp_areas ..).within

theorem State.ptpMeasure_areas (s : State) (p rxTs origin : Nat) (corr : Int) (seq : BitVec 16) :
    s.OnlyChanges (s.ptpMeasure p rxTs origin corr seq) [.regs, .out, .ind, .hst] :=
  (with_ind ..).within |>.andThen (showOffsets_areas ..) |>.andThen (judgeSources_areas ..)

theorem State.ptpHeard_areas (s : State) : s.OnlyChanges s.ptpHeard [.ind] := (with_ind ..).within

theorem execPtpSyncRx_areas (a0 : Edge PtpIn) (a1 : Bool) (a2 : BitVec 16) (a3 : Nat) (a4 : Int) (a5 : Nat) (s : State) :
    s.LeadsTo (execPtpSyncRx a0 a1 a2 a3 a4 a5 s) [.regs, .out, .ind, .hst] :=
  done_leadsTo <|
    .ite (.refl ..)
    ((forwardSync_areas ..).within
      |>.trans (.ite ((ptpHeard_areas ..).within |>.trans (.ite (setPort1588_areas ..).within (ptpMeasure_areas ..).within))
        (.ite (ptpHeard_areas ..).within (.refl ..))))

theorem execPtpFollowUpRx_areas (a0 : PtpIn) (a1 : BitVec 16) (a2 : Nat) (a3 : Int) (a4 : Nat) (s : State) :
    s.LeadsTo (execPtpFollowUpRx a0 a1 a2 a3 a4 s) [.regs, .out, .ind, .hst] := by
  refine done_leadsTo ?_
  refine .ite (.refl ..) ?_
  split
  · exact (forwardFollowUp_areas ..).within |>.andIf ((setPort1588_areas ..).within |>.andThen (ptpMeasure_areas ..))
  · exact (forwardFollowUp_areas ..).within

theorem State.setGm_areas (s : State) (id : BitVec 64) : s.OnlyChanges (s.setGm id) [.regs, .out, .ind, .hst] :=
  (setReg_areas ..).within |>.andThen (setReg_areas ..) |>.andUnless ((with_ind ..).within |>.andThen (deliver_areas ..))

theorem State.setUtc_areas (s : State) (a : AnnounceData) : s.OnlyChanges (s.setUtc a) [.regs, .out, .hst] :=
  (setReg_areas ..).within |>.andIf (deliver_areas ..).within

theorem State.bmca_areas (s : State) : s.OnlyChanges s.bmca [.regs, .out, .ind, .hst] := by
  unfold State.bmca
  split
  · exact .ite ((with_ind ..).within |>.each (fun _ _ => .ite (setPort1588_areas ..).within (.refl ..)) |>.andThen (setGm_areas ..)
        |>.andThen (setUtc_areas ..)) ((with_ind ..).within |>.each (fun _ _ => .ite (setPort1588_areas ..).within (.refl ..))
        |>.andThen (setGm_areas ..))
  · exact .ite ((with_ind ..).within |>.each (fun _ _ => (setPort1588_areas ..).within))
      ((with_ind ..).within |>.each (fun _ _ => .ite (setPort1588_areas ..).within (.refl ..)) |>.andThen (setGm_areas ..))

theorem State.sendAnnounce_areas (s : State) (p seq time : Nat) (a : AnnounceData) : s.OnlyChanges (s.sendAnnounce p seq time a) [.out] :=
  (emit_areas ..).within

theorem execPtpAnnounceRx_areas (a0 : PtpIn) (a1 : PtpAnnounce) (s : State) : s.LeadsTo (execPtpAnnounceRx a0 a1 s) [.regs, .out, .ind, .hst] :=
  done_leadsTo <| .ite (.refl ..) ((each_areas fun _ _ => (sendAnnounce_areas ..).within)
      |>.andIf ((setPort1588_areas ..).within |>.andThen (bmca_areas ..) |>.andThen (judgeSources_areas ..)))

theorem execPtpPdelayReqRx_areas (a0 : Edge PtpIn) (a1 : BitVec 16) (s : State) : s.LeadsTo (execPtpPdelayReqRx a0 a1 s) [.out] :=
  done_leadsTo <| .ite ((sendPtp_areas ..).within |>.andUnless (sendPtp_areas ..).within) (.refl ..)

theorem execPtpPdelayRespRx_areas (a0 : Edge PtpIn) (a1 : BitVec 16) (a2 : Nat) (s : State) :
    s.LeadsTo (execPtpPdelayRespRx a0 a1 a2 s) [.out, .ind] := by
  refine done_leadsTo ?_
  split
  · exact .ite (setPort1588_areas ..).within (.refl ..)
  · exact .refl ..

theorem execPtpManagementRx_areas (p : Fin 16) (s : State) : s.LeadsTo (execPtpManagementRx p s) [.regs, .out] := done_leadsTo (inc_areas ..).within

theorem execPtpSyncTx_areas (p : Fin 16) (s : State) : s.LeadsTo (execPtpSyncTx p s) [.out, .ind] :=
  done_leadsTo <|
    .ite (.ite ((setPort1588_areas ..).within |>.andThen (sendPtp_areas ..)) ((setPort1588_areas ..).within |>.andThen (sendPtp_areas ..)
        |>.andThen (sendPtp_areas ..))) (.refl ..)

theorem execPtpAnnounceTx_areas (p : Fin 16) (s : State) : s.LeadsTo (execPtpAnnounceTx p s) [.out, .ind] :=
  done_leadsTo <| .ite ((setPort1588_areas ..).within |>.andThen (sendAnnounce_areas ..)) (.refl ..)

theorem execPtpPdelayReqTx_areas (p : Fin 16) (s : State) : s.LeadsTo (execPtpPdelayReqTx p s) [.out, .ind] :=
  done_leadsTo <| .ite ((setPort1588_areas ..).within |>.andThen (sendPtp_areas ..)) (.refl ..)

theorem State.losePtp_areas (s : State) : s.OnlyChanges s.losePtp [.regs, .out, .ind, .hst] :=
  (with_ind ..).within |>.andIf (deliver_areas ..).within |>.andThen (judgeSources_areas ..)

theorem execPtpSyncTimeout_areas (s : State) : s.LeadsTo (execPtpSyncTimeout s) [.regs, .out, .ind, .hst] :=
  done_leadsTo <| .ite (losePtp_areas ..).within (.refl ..)

theorem execPtpAnnounceTimeout_areas (s : State) : s.LeadsTo (execPtpAnnounceTimeout s) [.regs, .out, .ind, .hst] :=
  done_leadsTo <| .ite (.refl ..) ((each_areas fun _ _ => (setPort1588_areas ..).within) |>.andThen (bmca_areas ..)
      |>.trans (.ite (losePtp_areas ..).within (judgeSources_areas ..).within))

theorem State.loseTin_areas (s : State) (n : Nat) : s.OnlyChanges (s.loseTin n) [.regs, .out, .ind, .hst] :=
  (setTinSrc_areas ..).within |>.andIf ((deliver_areas ..).within |>.andThen (judgeSources_areas ..))

theorem State.judgeTen_areas (s : State) (n cycles : Nat) : s.OnlyChanges (s.judgeTen n cycles) [.regs, .out, .ind, .hst] :=
  .ite (OnlyChanges.ite (with_ind ..).within (with_ind ..).within |>.andIf (deliver_areas ..).within) (.refl ..)

theorem execTinEdgeCapture_areas (a0 : Edge (Fin 2)) (a1 : Nat) (s : State) : s.LeadsTo (execTinEdgeCapture a0 a1 s) [.regs, .out, .ind, .hst] :=
  done_leadsTo <| .ite ((setTinSrc_areas ..).within |>.andThen (showOffsets_areas ..) |>.andThen (judgeTen_areas ..)
      |>.andThen (judgeSources_areas ..)) (.refl ..)

theorem execPpsInputTimeout_areas (n : Fin 2) (s : State) : s.LeadsTo (execPpsInputTimeout n s) [.regs, .out, .ind, .hst] :=
  done_leadsTo <| .ite (loseTin_areas ..).within (.refl ..)

theorem State.irigBad_areas (s : State) (n : Nat) : s.OnlyChanges (s.irigBad n) [.regs, .out, .ind, .hst] :=
  .ite (loseTin_areas ..).within (setTinSrc_areas ..).within

theorem execIrigFrameRx_areas (a0 : Edge (Fin 2)) (a1 : IrigFrame) (s : State) : s.LeadsTo (execIrigFrameRx a0 a1 s) [.regs, .out, .ind, .hst] :=
  done_leadsTo <| .ite (.ite ((setTinSrc_areas ..).within |>.andThen (showOffsets_areas ..) |>.andThen (judgeSources_areas ..))
      (irigBad_areas ..).within) (.refl ..)

theorem execIrigFrameMissing_areas (n : Fin 2) (s : State) : s.LeadsTo (execIrigFrameMissing n s) [.regs, .out, .ind, .hst] :=
  done_leadsTo <| .ite (irigBad_areas ..).within (.refl ..)

theorem execHoldoverExpire_areas (s : State) : s.LeadsTo (execHoldoverExpire s) [.regs, .out, .ind, .hst] :=
  done_leadsTo <| .ite (expireHold_areas ..).within (.refl ..)

theorem execHoldoverCounterCopy_areas (s : State) : s.LeadsTo (execHoldoverCounterCopy s) [.out, .pwr] :=
  done_leadsTo <| .ite (with_pwr ..).within (.refl ..)

theorem execTimeBasePllLockLoss_areas (s : State) : s.LeadsTo (execTimeBasePllLockLoss s) [.ind] := ⟨_, rfl, with_ind ..⟩
theorem execTimeBasePllRelock_areas (s : State) : s.LeadsTo (execTimeBasePllRelock s) [.ind] := ⟨_, rfl, with_ind ..⟩

theorem execPpsOutPulse_areas (n : Fin 2) (s : State) : s.LeadsTo (execPpsOutPulse n s) [.out, .ind] := by
  refine done_leadsTo ?_
  split
  · exact .ite ((setPps_areas ..).within |>.andThen (emit_areas ..)) (.refl ..)
  · exact .refl ..

theorem State.startClock_areas (s : State) (n cyc extra freq : Nat) (a5 : AclkState) (failed : Bool) :
    s.OnlyChanges (s.startClock n cyc extra freq a5 failed) [.regs, .out, .ind, .spe, .hst] :=
  (setAclk_areas ..).within |>.andThen (aclkEvent_areas ..) |>.andThen (runStreams_areas ..) |>.andIf (sqc_areas ..).within

theorem State.holdClock_areas (s : State) (n : Nat) : s.OnlyChanges (s.holdClock n) [.regs, .out, .ind, .hst] :=
  (setAclk_areas ..).within |>.andThen (aclkEvent_areas ..)

theorem State.loseRef_areas (s : State) (n : Nat) : s.OnlyChanges (s.loseRef n) [.regs, .out, .ind, .hst] :=
  .ite ((setAclk_areas ..).within |>.andThen (aclkEvent_areas ..)) (holdClock_areas ..).within

theorem State.pullClock_areas (s : State) (n : Nat) : s.OnlyChanges (s.pullClock n) [.fv, .ind] :=
  .ite ((freeN_areas ..).within |>.andThen (setAclk_areas ..)) (setAclk_areas ..).within

theorem State.followRef_areas (s : State) (n : Nat) (e : RefEstimate) : s.OnlyChanges (s.followRef n e) [.regs, .fv, .out, .ind, .hst] :=
  (setAclk_areas ..).within |>.andThen (setReg_areas ..) |>.andThen (aclkEvent_areas ..) |>.andThen (pullClock_areas ..)

theorem State.relock_areas (s : State) (n : Nat) (e : RefEstimate) (second : Bool) :
    s.OnlyChanges (s.relock n e second) [.regs, .out, .ind, .hst] :=
  (setAclk_areas ..).within |>.andThen (aclkEvent_areas ..)

theorem State.countCycle_areas (s : State) (n : Nat) (pri sec : RefEstimate) : s.OnlyChanges (s.countCycle n pri sec) [.ind] :=
  (setAclk_areas ..).within

theorem execAclkZeroCrossing_areas (n : Fin 16) (pri sec : RefEstimate) (s : State) :
    s.LeadsTo (execAclkZeroCrossing n pri sec s) [.regs, .fv, .out, .ind, .spe, .hst] := by
  unfold execAclkZeroCrossing
  dsimp only
  refine done_leadsTo ?_
  split
  · exact (countCycle_areas ..).within |>.andIf (startClock_areas ..).within
  · exact (countCycle_areas ..).within |>.andThen (setAclk_areas ..)
      |>.trans (.ite (loseRef_areas ..).within (.ite (setAclk_areas ..).within (followRef_areas ..).within))
  · exact (countCycle_areas ..).within |>.trans (.ite (relock_areas ..).within (.ite (relock_areas ..).within (.refl ..)))
  · exact (countCycle_areas ..).within
  · exact .refl ..

theorem execAclkSampleLoss_areas (n : Fin 16) (s : State) : s.LeadsTo (execAclkSampleLoss n s) [.regs, .out, .ind, .hst] :=
  done_leadsTo <| .ite (loseRef_areas ..).within (.refl ..)

theorem execAclkFixedStart_areas (n : Fin 16) (s : State) : s.LeadsTo (execAclkFixedStart n s) [.regs, .out, .ind, .spe, .hst] :=
  done_leadsTo <| .ite (startClock_areas ..).within (.refl ..)

theorem execAclkHoldExpire_areas (n : Fin 16) (s : State) : s.LeadsTo (execAclkHoldExpire n s) [.regs, .out, .ind, .hst] :=
  done_leadsTo <| .ite ((setAclk_areas ..).within |>.andThen (aclkEvent_areas ..)) (.refl ..)

/-! ## Debug -/

theorem State.pmuZero_areas (s : State) : s.OnlyChanges s.pmuZero [.regs] := (with_regs ..).within

theorem State.pmuCtrl_areas (s : State) (val : Word) : s.OnlyChanges (s.pmuCtrl val) [.regs] :=
  (setReg_areas ..).within |>.andIf (pmuZero_areas ..).within

theorem execPmuFreeze_areas (who : Accessor) (val : Word) (s : State) : s.LeadsTo (execPmuFreeze who val s) [.regs, .out, .hst] :=
  done_leadsTo (writeCmd_areas fun _ => (pmuCtrl_areas ..).within)

theorem execPmuUnfreeze_areas (who : Accessor) (val : Word) (s : State) : s.LeadsTo (execPmuUnfreeze who val s) [.regs, .out, .hst] :=
  done_leadsTo (writeCmd_areas fun _ => (pmuCtrl_areas ..).within)

theorem execPmuClear_areas (who : Accessor) (val : Word) (s : State) : s.LeadsTo (execPmuClear who val s) [.regs, .out, .hst] :=
  done_leadsTo (writeCmd_areas fun _ => (pmuCtrl_areas ..).within)

theorem State.goOn_areas (s : State) (k : Nat) (step : Bool) : s.OnlyChanges (s.goOn k step) [.regs, .clu, .ddr, .dbg] := by
  refine .andIf ?_ (resumeWait_areas ..).within
  split
  · exact (updThr_areas ..).within |>.andThen (unholdChans_areas ..) |>.andThen (updTask_areas ..)
  · exact (updThr_areas ..).within |>.andThen (unholdChans_areas ..)

theorem State.dbgDeny_areas (s : State) : s.OnlyChanges s.dbgDeny [.regs] := (inc_areas ..).within

theorem State.dbgCtxSel_areas (s : State) (who : Accessor) (val : Word) :
    s.OnlyChanges (s.dbgCtxSel who val) [.regs, .fv, .out, .pkt, .clu, .cpx, .cfg, .hst, .ddr, .dbg] :=
  (setReg_areas ..).within
    |>.andUnless (.ite (dbgDeny_areas ..).within (.ite (.refl ..) ((cpxDrain_areas ..).within |>.each (fun _ _ => (setReg_areas ..).within))))

theorem State.pmemSet_areas (s : State) (j a : Nat) (v : PWord) : s.OnlyChanges (s.pmemSet j a v) [.clu] :=
  (setPmemW_areas ..).within |>.andThen (with_clu ..)

theorem State.dbgStore_areas (s : State) (c k space a : Nat) (v : Word) : s.OnlyChanges (s.dbgStore c k space a v) [.clu] := by
  unfold State.dbgStore
  split
  · exact (sramWrite_areas ..).within
  · exact (pmemSet_areas ..).within
  · exact (updThr_areas ..).within

theorem State.dbgResult_areas (s : State) (val : Word) (res : Nat) : s.OnlyChanges (s.dbgResult val res) [.regs] :=
  (setReg_areas ..).within |>.andThen (setReg_areas ..)

theorem State.dbgRun_areas (s : State) (who : Accessor) (val : Word) :
    s.OnlyChanges (s.dbgRun who val) [.regs, .fv, .out, .pkt, .clu, .cpx, .cfg, .hst, .ddr, .dbg] := by
  unfold State.dbgRun
  refine .ite (dbgResult_areas ..).within ?_
  have denied : s.OnlyChanges (s.dbgDeny.dbgResult val 5) [.regs, .fv, .out, .pkt, .clu, .cpx, .cfg, .hst, .ddr, .dbg] :=
    (dbgDeny_areas ..).within |>.andThen (dbgResult_areas ..)
  have answered (r : Nat) : s.OnlyChanges (s.dbgResult val r) [.regs, .fv, .out, .pkt, .clu, .cpx, .cfg, .hst, .ddr, .dbg] :=
    (dbgResult_areas ..).within
  split
  · exact .ite denied <| .ite ((haltThread_areas ..).within |>.andThen (dbgResult_areas ..)) (answered _)
  · exact .ite denied <| .ite ((goOn_areas ..).within |>.andThen (dbgResult_areas ..)) (answered _)
  · exact .ite denied <| .ite ((goOn_areas ..).within |>.andThen (dbgResult_areas ..)) (answered _)
  · exact .ite denied <| .ite ((cpxDrain_areas ..).within |>.andThen (updThr_areas ..) |>.andThen (refetch_areas ..)
      |>.andThen (dbgResult_areas ..)) (answered _)
  iterate 2
    dsimp only
    split
    · exact answered _
    · exact .ite denied <| .ite (answered _) <| .ite ((dbgStore_areas ..).within |>.andThen (dbgResult_areas ..))
        ((setReg_areas ..).within |>.andThen (dbgResult_areas ..))
  · exact answered _

theorem State.dbgWrite_areas (s : State) (who : Accessor) (op : Nat) (val : Word) :
    s.OnlyChanges (s.dbgWrite who op val) [.regs, .fv, .out, .pkt, .clu, .cpx, .cfg, .hst, .ddr, .dbg] :=
  writeCmd_areas fun _ => (dbgRun_areas ..).within

theorem execDbgHalt_areas (who : Accessor) (val : Word) (s : State) :
    s.LeadsTo (execDbgHalt who val s) [.regs, .fv, .out, .pkt, .clu, .cpx, .cfg, .hst, .ddr, .dbg] :=
  done_leadsTo (dbgWrite_areas ..).within

theorem execDbgResume_areas (who : Accessor) (val : Word) (s : State) :
    s.LeadsTo (execDbgResume who val s) [.regs, .fv, .out, .pkt, .clu, .cpx, .cfg, .hst, .ddr, .dbg] :=
  done_leadsTo (dbgWrite_areas ..).within

theorem execDbgStep_areas (who : Accessor) (val : Word) (s : State) :
    s.LeadsTo (execDbgStep who val s) [.regs, .fv, .out, .pkt, .clu, .cpx, .cfg, .hst, .ddr, .dbg] :=
  done_leadsTo (dbgWrite_areas ..).within

theorem execDbgWriteCtx_areas (who : Accessor) (val : Word) (s : State) :
    s.LeadsTo (execDbgWriteCtx who val s) [.regs, .fv, .out, .pkt, .clu, .cpx, .cfg, .hst, .ddr, .dbg] :=
  done_leadsTo (dbgWrite_areas ..).within

theorem execDbgMemRd_areas (who : Accessor) (val : Word) (s : State) :
    s.LeadsTo (execDbgMemRd who val s) [.regs, .fv, .out, .pkt, .clu, .cpx, .cfg, .hst, .ddr, .dbg] :=
  done_leadsTo (dbgWrite_areas ..).within

theorem execDbgMemWr_areas (who : Accessor) (val : Word) (s : State) :
    s.LeadsTo (execDbgMemWr who val s) [.regs, .fv, .out, .pkt, .clu, .cpx, .cfg, .hst, .ddr, .dbg] :=
  done_leadsTo (dbgWrite_areas ..).within

theorem execDbgCtxSelect_areas (who : Accessor) (val : Word) (s : State) :
    s.LeadsTo (execDbgCtxSelect who val s) [.regs, .fv, .out, .pkt, .clu, .cpx, .cfg, .hst, .ddr, .dbg] :=
  done_leadsTo (writeCmd_areas fun _ => (dbgCtxSel_areas ..).within)

theorem State.bpWrite_areas (s : State) (who : Accessor) (c k off : Nat) (val : Word) : s.OnlyChanges (s.bpWrite who c k off val) [.regs] :=
  .ite (setReg_areas ..).within (dbgDeny_areas ..).within

theorem execBreakpointHit_areas (t : ThreadId) (s : State) : s.LeadsTo (execBreakpointHit t s) [.regs, .out, .clu] := by
  unfold execBreakpointHit
  dsimp only
  refine done_leadsTo ?_
  split
  · exact OnlyChanges.ite (each_areas fun _ _ => .ite (haltThread_areas ..).within (.refl ..)) (.refl ..) |>.andThen (haltThread_areas ..)
  · exact .refl ..

theorem State.unbindJtag_areas (s : State) : s.OnlyChanges s.unbindJtag [.regs, .dbg] := (setRb_areas ..).within |>.andThen (with_dbg ..)

theorem State.clearBps_areas (s : State) (p : Nat) : s.OnlyChanges (s.clearBps p) [.regs] :=
  each_areas fun _ _ => each_areas fun _ _ => (setReg_areas ..).within |>.andThen (setReg_areas ..)

theorem State.endGrant_areas (s : State) (p : Nat) : s.OnlyChanges (s.endGrant p) [.regs, .out, .clu, .sab, .hst, .ddr, .dbg] :=
  .ite ((setGrant_areas ..).within |>.andThen (sqc_areas ..) |>.andThen (clearBps_areas ..) |>.each (fun _ _ => (goOn_areas ..).within)
      |>.andIf (unbindJtag_areas ..).within) (.refl ..)

theorem State.jtagTry_areas (s : State) (val : Word) : s.OnlyChanges (s.jtagTry val) [.regs, .dbg] :=
  (setReg_areas ..).within |>.andUnless (.ite ((setRb_areas ..).within |>.andThen (with_dbg ..)) (with_dbg ..).within)

theorem execJtagProof_areas (who : Accessor) (val : Word) (s : State) : s.LeadsTo (execJtagProof who val s) [.regs, .out, .hst, .dbg] :=
  done_leadsTo (writeCmd_areas fun _ => (jtagTry_areas ..).within)

theorem execJtagLockoutExpire_areas (s : State) : s.LeadsTo (execJtagLockoutExpire s) [.out, .dbg] := by
  refine done_leadsTo ?_
  split
  · exact .ite (with_dbg ..).within (.refl ..)
  · exact .refl ..

theorem execJtagIdcode_areas (s : State) : s.LeadsTo (execJtagIdcode s) [.out] := done_leadsTo (emit_areas ..).within
theorem State.jtagPass_areas (s : State) : s.OnlyChanges s.jtagPass [.out, .dbg] := (with_dbg ..).within |>.andThen (emit_areas ..)
theorem execJtagBypass_areas (s : State) : s.LeadsTo (execJtagBypass s) [.out, .dbg] := done_leadsTo (jtagPass_areas ..).within

theorem execJtagSamplePreload_areas (boundary : Nat) (s : State) : s.LeadsTo (execJtagSamplePreload boundary s) [.fv, .out, .dbg] :=
  done_leadsTo ((freeW_areas ..).within |>.andThen (with_dbg ..) |>.andThen (emit_areas ..))

theorem execJtagExtest_areas (boundary : Nat) (s : State) : s.LeadsTo (execJtagExtest boundary s) [.fv, .out, .dbg] :=
  done_leadsTo <| .ite ((freeW_areas ..).within |>.andThen (with_dbg ..) |>.andThen (emit_areas ..)) (jtagPass_areas ..).within

theorem execJtagClamp_areas (s : State) : s.LeadsTo (execJtagClamp s) [.out, .dbg] :=
  done_leadsTo <| .ite ((with_dbg ..).within |>.andThen (emit_areas ..)) (jtagPass_areas ..).within

theorem execJtagHighz_areas (s : State) : s.LeadsTo (execJtagHighz s) [.out, .dbg] :=
  done_leadsTo <| .ite ((with_dbg ..).within |>.andThen (emit_areas ..)) (jtagPass_areas ..).within

theorem execTapReset_areas (s : State) : s.LeadsTo (execTapReset s) [.regs, .out, .dbg] :=
  done_leadsTo ((unbindJtag_areas ..).within |>.andThen (with_dbg ..))

/-! ## DevState -/

theorem State.goState_areas (s : State) (d : DevState) :
    s.OnlyChanges (s.goState d) [.regs, .out, .ing, .aut, .pkt, .och, .vrm, .hst, .ddr, .dbg, .pwr] := by
  unfold State.goState
  split
  · exact (with_pwr ..).within |>.andThen (setReg_areas ..) |>.andThen (sqc_areas ..) |>.andThen (sqc_areas ..) |>.andThen (voterSafe_areas ..)
  · exact (with_pwr ..).within |>.andThen (setReg_areas ..) |>.andThen (sqc_areas ..) |>.andIf (outsOff_areas ..).within
  · exact (with_pwr ..).within |>.andThen (setReg_areas ..) |>.andThen (sqc_areas ..) |>.andIf (outsOff_areas ..).within
  · exact (with_pwr ..).within |>.andThen (setReg_areas ..) |>.andThen (sqc_areas ..) |>.andThen (outsOff_areas ..)

theorem State.goSafe_areas (s : State) (cause : Nat) :
    s.OnlyChanges (s.goSafe cause) [.regs, .out, .ing, .aut, .pkt, .och, .vrm, .hst, .ddr, .dbg, .pwr] :=
  .ite (.refl ..) ((setRb_areas ..).within |>.andIf ((with_pwr ..).within |>.andThen (setReg_areas ..)) |>.andUnless (goState_areas ..).within)

theorem State.askState_areas (s : State) (d : DevState) :
    s.OnlyChanges (s.askState d) [.regs, .out, .ing, .aut, .pkt, .och, .vrm, .hst, .ddr, .dbg, .pwr] :=
  .ite (.ite (setReg_areas ..).within ((setReg_areas ..).within |>.andThen (goSafe_areas ..)))
    (.ite ((with_pwr ..).within |>.andThen (setReg_areas ..)) (setReg_areas ..).within)

theorem State.stateReq_areas (s : State) (val : Word) :
    s.OnlyChanges (s.stateReq val) [.regs, .out, .ing, .aut, .pkt, .och, .vrm, .hst, .ddr, .dbg, .pwr] := by
  unfold State.stateReq
  refine .ite (setReg_areas ..).within ?_
  split
  · exact (setReg_areas ..).within |>.andThen (askState_areas ..)
  · exact (setReg_areas ..).within |>.andThen (setReg_areas ..)

theorem execSysStateReq_areas (who : Accessor) (val : Word) (s : State) :
    s.LeadsTo (execSysStateReq who val s) [.regs, .out, .ing, .aut, .pkt, .och, .vrm, .hst, .ddr, .dbg, .pwr] :=
  done_leadsTo (writeCmd_areas fun _ => (stateReq_areas ..).within)

/-! ## Session -/

theorem State.updMport_areas (s : State) (n : Nat) (f : MgtPort → MgtPort) : s.OnlyChanges (s.updMport n f) [.hst] := (setMport_areas ..).within

theorem State.endSession_areas (s : State) (n : Nat) (byClose : Bool) : s.OnlyChanges (s.endSession n byClose) [.regs, .out, .hst] := by
  unfold State.endSession
  split
  · exact (updMport_areas ..).within |>.andUnless (sqc_areas ..).within
  · exact .refl ..

theorem State.mgtSend_areas (s : State) (n : Nat) (bs : List Byte) : s.OnlyChanges (s.mgtSend n bs) [.regs, .out, .hst] := by
  unfold State.mgtSend
  split
  · exact each_areas fun _ _ => (emit_areas ..).within
  · exact (updMport_areas ..).within
  · exact each_areas fun _ _ => (emit_areas ..).within
  · exact each_areas fun _ _ => .ite (.refl ..) (emit_areas ..).within
  · exact (emit_areas ..).within |>.andThen (setReg_areas ..) |>.andIf (sendMsix_areas ..).within

theorem State.mgtRefuse_areas (s : State) (n : Nat) (f : MgtFrame) (res : Nat) : s.OnlyChanges (s.mgtRefuse n f res) [.regs, .out, .hst] :=
  (mgtSend_areas ..).within

theorem State.mgtQueue_areas (s : State) (n : Nat) (f : MgtFrame) : s.OnlyChanges (s.mgtQueue n f) [.hst] := (updMport_areas ..).within

theorem State.mgtAdmit_areas (s : State) (n : Nat) (a2 : Session) (f : MgtFrame) (lenOk : Bool) :
    s.OnlyChanges (s.mgtAdmit n a2 f lenOk) [.regs, .out, .hst] := by
  unfold State.mgtAdmit
  split
  · exact (updMport_areas ..).within
      |>.trans (.ite ((updMport_areas ..).within |>.andThen (mgtSend_areas ..)) (.ite ((updMport_areas ..).within |>.andThen (mgtSend_areas ..))
          (mgtQueue_areas ..).within))
  · exact (updMport_areas ..).within |>.andThen (updMport_areas ..) |>.andThen (mgtSend_areas ..)

theorem State.mgtBadTag_areas (s : State) (n : Nat) (a2 : Session) (f : MgtFrame) : s.OnlyChanges (s.mgtBadTag n a2 f) [.regs, .out, .hst] :=
  (updMport_areas ..).within |>.andThen (inc_areas ..) |>.andThen (mgtRefuse_areas ..) |>.andIf (endSession_areas ..).within

theorem State.mgtJudge_areas (s : State) (n : Nat) (a2 : Session) (f : MgtFrame) (lenOk : Bool) :
    s.OnlyChanges (s.mgtJudge n a2 f lenOk) [.regs, .out, .hst] :=
  .ite ((inc_areas ..).within |>.andThen (mgtSend_areas ..)) (.ite (mgtRefuse_areas ..).within (mgtAdmit_areas ..).within)

theorem State.mgtArrive_areas (s0 : State) (n : Nat) (src : BitVec 48) (bs : List Byte) :
    s0.OnlyChanges (s0.mgtArrive n src bs) [.regs, .out, .hst] := by
  refine .ite (.refl ..) <| .ite ((updMport_areas ..).within |>.andThen (mgtRefuse_areas ..)) <| .ite ?_ <| .ite ?_ ?_
  · exact (updMport_areas ..).within |>.trans (.ite (mgtRefuse_areas ..).within (.ite (mgtRefuse_areas ..).within (mgtQueue_areas ..).within))
  · exact (updMport_areas ..).within |>.trans (.ite (mgtRefuse_areas ..).within (mgtQueue_areas ..).within)
  · split
    · exact (updMport_areas ..).within |>.andThen (mgtRefuse_areas ..)
    · exact (updMport_areas ..).within
        |>.trans (.ite (mgtRefuse_areas ..).within (.ite (mgtBadTag_areas ..).within ((updMport_areas ..).within |>.andThen (mgtJudge_areas ..))))

theorem State.onCmd_areas {s : State} {n : Nat} {codes : List Nat} {act : MgtFrame → State → State} {l : List Area}
    (h : ∀ f x, State.OnlyChanges x (act f x) l) (hl : [.hst] ⊆ l := by decide) : s.OnlyChanges (s.onCmd n codes act) l := by
  unfold State.onCmd
  split
  · exact .ite (((updMport_areas ..).within hl).trans (h ..)) (.refl ..)
  · exact .refl ..

theorem State.respond_areas (s : State) (n res : Nat) (pay : List Byte) : s.OnlyChanges (s.respond n res pay) [.regs, .out, .hst] := by
  unfold State.respond
  split
  · exact .refl ..
  · split
    · exact (updMport_areas ..).within
        |>.trans (.ite ((updMport_areas ..).within |>.andThen (mgtSend_areas ..) |>.andIf (endSession_areas ..).within) (mgtSend_areas ..).within)
    · exact (updMport_areas ..).within |>.andThen (mgtSend_areas ..)

theorem State.answer_areas (s : State) (a : Actor) (res : Nat) (pay : List Byte) :
    s.OnlyChanges (s.answer a res pay) [.regs, .out, .hst, .pwr] := by
  unfold State.answer
  split
  · exact (respond_areas ..).within
  · exact (with_pwr ..).within
  · exact .refl ..

/-! ## Pair -/

theorem State.setLinkSt_areas (s : State) (st : Nat) : s.OnlyChanges (s.setLinkSt st) [.regs, .out, .hst] :=
  .ite (.refl ..) ((setRf_areas ..).within |>.andThen (sqc_areas ..))

theorem State.flushClass_areas (s : State) (tc : Nat) : s.OnlyChanges (s.flushClass tc) [.regs, .out, .pkt, .och, .hst, .ddr, .dbg] :=
  .ite (.refl ..) ((each_areas fun _ _ => (endCopy_areas ..).within) |>.andThen (inc_areas ..) |>.andThen (sqc_areas ..))

theorem State.dropSending_areas (s : State) : s.OnlyChanges s.dropSending [.regs, .out, .pkt, .och, .hst, .ddr, .dbg] := by
  unfold State.dropSending
  split
  · exact (setSending_areas ..).within |>.andThen (endCopy_areas ..)
  · exact .refl ..

theorem State.pairDown_areas (s : State) : s.OnlyChanges s.pairDown [.regs, .out, .pkt, .och, .vrm, .hst, .pai, .ddr, .dbg] :=
  .ite (.refl ..) ((setLinkSt_areas ..).within |>.andThen (setRf_areas ..) |>.andThen (with_pai ..) |>.andThen (dropSending_areas ..)
      |>.each (fun _ _ => (flushClass_areas ..).within) |>.andThen (endSession_areas ..) |>.andThen (judgeChans_areas ..))

theorem State.train_areas (s : State) : s.OnlyChanges s.train [.regs, .out, .hst] := by
  refine .ite (.refl ..) ?_
  split
  · exact (setLinkSt_areas ..).within
  · exact (setLinkSt_areas ..).within
  · exact .refl ..

theorem State.setLanes_areas (s : State) (a b : Bool) : s.OnlyChanges (s.setLanes a b) [.regs, .pai] :=
  (with_pai ..).within |>.andThen (setRb_areas ..) |>.andThen (setRb_areas ..)

theorem State.laneLock_areas (s : State) (l : Nat) : s.OnlyChanges (s.laneLock l) [.regs, .out, .hst, .pai] :=
  (setLanes_areas ..).within
    |>.andUnless (.ite (.ite (setLinkSt_areas ..).within (.refl ..)) (.ite ((train_areas ..).within |>.andThen (train_areas ..))
        (.ite (train_areas ..).within (.refl ..))))

theorem execUmberLaneLock_areas (lane : Fin 2) (s : State) : s.LeadsTo (execUmberLaneLock lane s) [.regs, .out, .hst, .pai] :=
  done_leadsTo (laneLock_areas ..).within

theorem State.laneDrop_areas (s : State) (l : Nat) : s.OnlyChanges (s.laneDrop l) [.regs, .out, .pkt, .och, .vrm, .hst, .pai, .ddr, .dbg] :=
  (setLanes_areas ..).within |>.trans (.ite (pairDown_areas ..).within (.ite (setLinkSt_areas ..).within (.refl ..)))

theorem execUmberLaneDrop_areas (lane : Fin 2) (s : State) :
    s.LeadsTo (execUmberLaneDrop lane s) [.regs, .out, .pkt, .och, .vrm, .hst, .pai, .ddr, .dbg] :=
  done_leadsTo (laneDrop_areas ..).within

theorem State.comeUp_areas (s : State) (v : Nat) : s.OnlyChanges (s.comeUp v) [.regs, .out, .hst, .pai] :=
  (setRf_areas ..).within |>.andThen (setLinkSt_areas ..) |>.andIf (sqc_areas ..).within |>.andThen (with_pai ..)

theorem State.agree_areas (s : State) : s.OnlyChanges s.agree [.regs, .out, .hst, .pai] := by
  unfold State.agree
  split
  · exact .ite (comeUp_areas ..).within <| .ite (comeUp_areas ..).within (sqc_areas ..).within
  · exact .refl ..

theorem execHelloTx_areas (s : State) : s.LeadsTo (execHelloTx s) [.regs, .out, .hst, .pai] :=
  done_leadsTo <| .ite (OnlyChanges.ite (emit_areas ..).within (.refl ..) |>.andIf (emit_areas ..).within |>.andThen (with_pai ..)
      |>.andThen (agree_areas ..)) (.refl ..)

theorem execHelloRx_areas (a0 : Bool) (a1 : HelloVersions) (a2 : BitVec 8) (a3 : BitVec 128) (s : State) :
    s.LeadsTo (execHelloRx a0 a1 a2 a3 s) [.regs, .out, .hst, .pai] :=
  done_leadsTo <| .ite (cellBad_areas ..).within
    (.ite ((each_areas fun _ _ => (setReg_areas ..).within) |>.andThen (setRf_areas ..) |>.andThen (with_pai ..) |>.andThen (agree_areas ..))
      (.refl ..))

theorem execHeartbeatTx_areas (s : State) : s.LeadsTo (execHeartbeatTx s) [.out, .pai] :=
  done_leadsTo <| .ite ((emit_areas ..).within |>.andThen (with_pai ..)) (.refl ..)

theorem State.setMatch_areas (s : State) (bit : Nat) (m : Bool) : s.OnlyChanges (s.setMatch bit m) [.regs, .out, .hst] :=
  (setRb_areas ..).within |>.andIf (sqc_areas ..).within

theorem State.judgeMatch_areas (s : State) : s.OnlyChanges s.judgeMatch [.regs, .out, .hst] := by
  unfold State.judgeMatch
  split
  · exact .refl ..
  · exact (setMatch_areas ..).within |>.andThen (setMatch_areas ..) |>.andThen (setReg_areas ..)

theorem State.measurePair_areas (s : State) (h : Heartbeat) (t4 : Nat) : s.OnlyChanges (s.measurePair h t4) [.regs, .out, .hst, .pai] :=
  .ite (.refl ..) ((setReg_areas ..).within |>.andThen (setReg_areas ..) |>.andThen (with_pai ..) |>.andIf (sqc_areas ..).within
      |>.andIf (sqc_areas ..).within)

theorem State.judgeAlign_areas (s : State) (h : Heartbeat) : s.OnlyChanges (s.judgeAlign h) [.regs, .out, .hst] :=
  .ite (sqc_areas ..).within (.refl ..)

theorem execHeartbeatRx_areas (a0 : PairCell (Edge Heartbeat)) (s : State) : s.LeadsTo (execHeartbeatRx a0 s) [.regs, .out, .vrm, .hst, .pai] :=
  done_leadsTo <| .ite (cellBad_areas ..).within
    (.ite ((with_pai ..).within |>.andThen (setRf_areas ..) |>.andThen (measurePair_areas ..) |>.andThen (judgeAlign_areas ..)
        |>.andThen (judgeMatch_areas ..) |>.andThen (judgeChans_areas ..)) (.refl ..))

theorem execHeartbeatMiss_areas (s : State) : s.LeadsTo (execHeartbeatMiss s) [.regs, .out, .pkt, .och, .vrm, .hst, .pai, .ddr, .dbg] :=
  done_leadsTo <| .ite ((with_pai ..).within |>.andThen (inc_areas ..) |>.andIf (pairDown_areas ..).within) (.refl ..)

theorem execPairMbxRx_areas (a0 : PairCell (BitVec 16)) (a1 : BitVec 8) (a2 : Fin 5) (a3 a4 a5 a6 : Word) (s : State) :
    s.LeadsTo (execPairMbxRx a0 a1 a2 a3 a4 a5 a6 s) [.regs, .out, .clu, .hst, .pai, .ddr] :=
  done_leadsTo <| .ite (cellBad_areas ..).within (.ite ((with_pai ..).within |>.andIf ((inc_areas ..).within |>.andThen (mbArrive_areas ..)))
      (.refl ..))

theorem execPairEvtRx_areas (a0 : PairCell (BitVec 9)) (s : State) : s.LeadsTo (execPairEvtRx a0 s) [.regs, .out, .hst] :=
  done_leadsTo <| .ite (cellBad_areas ..).within (.ite ((setRb_areas ..).within |>.andThen (sqc_areas ..)) (.refl ..))

theorem execPairFrameRx_areas (a0 : PairCell (Fin 8)) (a1 : BitVec 4) (a2 : List Byte) (a3 : Option SecExt) (s : State) :
    s.LeadsTo (execPairFrameRx a0 a1 a2 a3 s) [.regs, .fv, .out, .ind, .ing, .spe, .pkt, .och, .clu, .hst, .ddr, .dbg] :=
  done_leadsTo <| .ite (cellBad_areas ..).within
    (.ite ((emit_areas ..).within |>.trans (.ite (inc_areas ..).within ((newFrame_areas ..).within |>.andThen (frameTail_areas ..)))) (.refl ..))

theorem execCreditReturnRx_areas (a0 : PairCell (Fin 8)) (a1 : Nat) (s : State) : s.LeadsTo (execCreditReturnRx a0 a1 s) [.regs, .out, .pai] :=
  done_leadsTo <| .ite (cellBad_areas ..).within <| .ite (with_pai ..).within (.refl ..)

theorem execCreditTimeout_areas (tc : Fin 8) (s : State) : s.LeadsTo (execCreditTimeout tc s) [.regs, .out, .pkt, .och, .hst, .ddr, .dbg] :=
  done_leadsTo <| .ite (flushClass_areas ..).within (.refl ..)

/-! ## CommitFab -/

theorem State.cancelOn_areas (s : State) (n : Nat) : s.OnlyChanges (s.cancelOn n) [.regs, .ind, .clu] :=
  (each_areas fun _ _ => .ite ((setUnit_areas ..).within |>.andThen (setRf_areas ..)) (.refl ..))
    |>.each (fun _ _ => .ite ((setTimer_areas ..).within |>.andThen (setRf_areas ..)) (.refl ..))

theorem State.commitMode_areas (s : State) (n : Nat) : s.OnlyChanges (s.commitMode n) [.regs, .out, .ind, .hst] :=
  .ite (.ite ((setAclk_areas ..).within |>.andThen (aclkEvent_areas ..)) (.ite (setAclk_areas ..).within (.refl ..)))
    (.ite ((setAclk_areas ..).within |>.andThen (aclkEvent_areas ..)) (.refl ..))

theorem State.commitRef_areas (o s : State) (n : Nat) : s.OnlyChanges (o.commitRef s n) [.regs, .out, .ind, .hst] :=
  .ite (.ite ((setAclk_areas ..).within |>.andThen (holdClock_areas ..)) (setAclk_areas ..).within) (setAclk_areas ..).within

theorem State.commitE_areas (o s : State) (n : Nat) : s.OnlyChanges (o.commitE s n) [.ind] := .ite (setAclk_areas ..).within (.refl ..)

theorem State.commitGrid_areas (o s : State) (n : Nat) : s.OnlyChanges (o.commitGrid s n) [.spe] :=
  .ite (each_areas fun _ _ => (newGrid_areas ..).within) (.refl ..)

theorem State.commitRunning_areas (o s : State) (n : Nat) : s.OnlyChanges (o.commitRunning s n) [.regs, .out, .ind, .spe, .hst] := by
  unfold State.commitRunning
  exact (commitMode_areas ..).within |>.andThen (commitRef_areas ..) |>.andThen (commitE_areas ..) |>.andThen (commitGrid_areas ..)

theorem State.commitClock_areas (o s : State) (n : Nat) : s.OnlyChanges (o.commitClock s n) [.regs, .out, .ind, .spe, .clu, .hst] :=
  .ite (.ite ((waitStreams_areas ..).within |>.andThen (setAclk_areas ..) |>.andThen (aclkEvent_areas ..) |>.andThen (cancelOn_areas ..))
      (.refl ..)) (.ite ((setAclk_areas ..).within |>.andThen (aclkEvent_areas ..)) (commitRunning_areas ..).within)

theorem State.commitUnit_areas (o s : State) (u : Nat) : s.OnlyChanges (o.commitUnit s u) [.regs, .ind] :=
  .ite (.refl ..) (.ite (setUnit_areas ..).within ((setUnit_areas ..).within |>.andThen (setRf_areas ..)))

theorem State.commitTimer_areas (o s : State) (k : Nat) : s.OnlyChanges (o.commitTimer s k) [.regs, .out, .clu, .hst] :=
  .ite (.refl ..)
    (.ite (setTimer_areas ..).within (.ite ((setTimer_areas ..).within |>.andThen (setRf_areas ..))
        ((setTimer_areas ..).within |>.andThen (setRf_areas ..) |>.andThen (sqc_areas ..))))

theorem State.commitTime_areas (o s : State) : s.OnlyChanges (o.commitTime s) [.regs, .out, .ind, .hst] :=
  (each_areas fun _ _ => .ite (setTinSrc_areas ..).within (.refl ..)) |>.andIf (judgeSources_areas ..).within

theorem State.commitIndigo_areas (o s : State) : s.OnlyChanges (o.commitIndigo s) [.regs, .out, .ind, .spe, .clu, .hst] :=
  (commitTime_areas ..).within |>.each (fun _ _ => (commitClock_areas ..).within) |>.each (fun _ _ => (commitUnit_areas ..).within)
    |>.each (fun _ _ => (commitTimer_areas ..).within)

theorem State.cutArriving_areas (s : State) (p : Nat) :
    s.OnlyChanges (s.cutArriving p) [.regs, .out, .ind, .ing, .spe, .pkt, .och, .clu, .hst, .ddr, .dbg] :=
  each_areas fun _ _ => (frameTail_areas ..).within

theorem State.commitPort_areas (o s : State) (p : Nat) :
    s.OnlyChanges (o.commitPort s p) [.regs, .out, .ind, .ing, .spe, .pkt, .och, .clu, .hst, .ddr, .dbg] :=
  .ite ((cutArriving_areas ..).within |>.andIf (linkDown_areas ..).within) (.ite ((setRf_areas ..).within |>.andThen (setVerify_areas ..))
      (.refl ..))

theorem State.commitSeg_areas (s : State) (g : Nat) :
    s.OnlyChanges (s.commitSeg g) [.regs, .out, .ind, .ing, .spe, .pkt, .och, .clu, .hst, .ddr, .dbg] :=
  .ite (.refl ..) ((cutArriving_areas ..).within |>.andThen (with_pkt ..))

theorem State.commitGroup_areas (o s : State) (r : Nat) : s.OnlyChanges (o.commitGroup s r) [.ing] := .ite (setGroup_areas ..).within (.refl ..)

theorem State.commitPolicers_areas (o s : State) : s.OnlyChanges (o.commitPolicers s) [.ing] :=
  (each_areas fun _ _ => .ite (setPortPol_areas ..).within (.refl ..)) |>.each (fun _ _ => .ite (setFlowPol_areas ..).within (.refl ..))

theorem State.commitIngress_areas (o s : State) :
    s.OnlyChanges (o.commitIngress s) [.regs, .out, .ind, .ing, .spe, .pkt, .och, .clu, .cfg, .hst, .ddr, .dbg] := by
  unfold State.commitIngress
  exact (each_areas fun _ _ => (commitPort_areas ..).within) |>.each (fun _ _ => (commitSeg_areas ..).within)
    |>.each (fun _ _ => (commitGroup_areas ..).within) |>.andThen (commitPolicers_areas ..) |>.andIf (with_ing_cfg ..).within

theorem State.commitCtx_areas (o s : State) (i : Nat) : s.OnlyChanges (o.commitCtx s i) [.aut] := .ite (setAutCtx_areas ..).within (.refl ..)
theorem State.keepKeys_areas (o s : State) (i : Nat) : s.OnlyChanges (o.keepKeys s i) [.aut] := (setAutCtx_areas ..).within

theorem State.commitAut_areas (o s : State) : s.OnlyChanges (o.commitAut s) [.regs, .out, .aut, .hst] :=
  (each_areas fun _ _ => (commitCtx_areas ..).within) |>.andIf ((each_areas fun _ _ => (keepKeys_areas ..).within) |>.andThen (with_aut ..)
      |>.andThen (setRb_areas ..) |>.andThen (sqc_areas ..))

theorem State.commitStream_areas (o s : State) (k : Nat) : s.OnlyChanges (o.commitStream s k) [.regs, .out, .spe, .hst] :=
  .ite (.ite ((setStream_areas ..).within |>.andThen (setStreamSt_areas ..)) (.refl ..))
    (.ite (.ite (runStream_areas ..).within (setStreamSt_areas ..).within)
      (.ite (OnlyChanges.ite (startGrid_areas ..).within (.refl ..) |>.andIf ((setStream_areas ..).within |>.andThen (setStreamSt_areas ..)
            |>.andThen (sqc_areas ..))) (OnlyChanges.ite (setStream_areas ..).within (.refl ..)
          |>.andIf (.ite (runStream_areas ..).within (.ite ((setStreamSt_areas ..).within |>.andThen (sqc_areas ..)) (.refl ..))))))

theorem State.commitSpe_areas (o s : State) : s.OnlyChanges (o.commitSpe s) [.regs, .out, .spe, .hst] :=
  each_areas fun _ _ => (commitStream_areas ..).within

theorem State.commitLanes_areas (o s : State) : s.OnlyChanges (o.commitLanes s) [.regs, .out, .pkt, .hst] :=
  .ite ((with_pkt ..).within |>.andThen (setReg_areas ..) |>.andThen (sqc_areas ..)) (.refl ..)

theorem State.commitShort_areas (o s : State) : s.OnlyChanges (o.commitShort s) [.regs, .out, .hst] := (noteShort_areas ..).within

theorem State.dropHeld_areas (s : State) : s.OnlyChanges s.dropHeld [.regs, .out, .clu, .cpx, .hst, .ddr, .dbg] :=
  each_areas fun _ _ => (updThr_areas ..).within |>.andThen (killThread_areas ..)

theorem State.commitPools_areas (o s : State) : s.OnlyChanges (o.commitPools s) [.regs, .out, .pkt, .och, .clu, .cpx, .hst, .ddr, .dbg] :=
  .ite (.refl ..) ((dropHeld_areas ..).within |>.andThen (with_pkt ..) |>.each (fun _ _ => each_areas fun _ _ => (setReg_areas ..).within)
      |>.each (fun _ _ => (setReg_areas ..).within) |>.andThen (rebuildPools_areas ..))

theorem State.commitFwd_areas (o s : State) : s.OnlyChanges (o.commitFwd s) [.regs, .och] :=
  .ite ((with_och ..).within |>.andThen (setRf_areas ..)) (.refl ..)

theorem State.commitRings_areas (o s : State) : s.OnlyChanges (o.commitRings s) [.regs, .out, .hst, .ddr] :=
  .ite (.refl ..) ((with_ddr ..).within |>.each (fun _ _ => (inc_areas ..).within |>.andThen (sqc_areas ..)))

theorem State.commitHistory_areas (o s : State) : s.OnlyChanges (o.commitHistory s) [.ddr] :=
  OnlyChanges.ite (with_ddr ..).within (.refl ..) |>.andThen (with_ddr ..)

theorem State.commitTags_areas (o s : State) : s.OnlyChanges (o.commitTags s) [.dbg] := .ite (with_dbg ..).within (.refl ..)

theorem State.commitPair_areas (s : State) : s.OnlyChanges s.commitPair [.regs, .out, .pkt, .och, .vrm, .hst, .pai, .ddr, .dbg] :=
  .ite ((train_areas ..).within |>.andThen (judgeMatch_areas ..)) (pairDown_areas ..).within

theorem State.commitFabric_areas (o s : State) :
    s.OnlyChanges (o.commitFabric s) (Area.butOf [.up, .time, .rdShadow, .wrHold, .fv, .sab, .pwr]) := by
  unfold State.commitFabric
  exact (commitIndigo_areas ..).within |>.andThen (commitIngress_areas ..) |>.andThen (commitAut_areas ..) |>.andThen (commitSpe_areas ..)
    |>.andThen (commitLanes_areas ..) |>.andThen (commitPools_areas ..) |>.andThen (commitShort_areas ..) |>.andThen (commitFwd_areas ..)
    |>.andThen (commitRings_areas ..) |>.andThen (commitHistory_areas ..) |>.andThen (commitTags_areas ..) |>.andThen (commitPair_areas ..)

/-! ## CommitClu -/

theorem State.setPartSt_areas (s : State) (p st : Nat) : s.OnlyChanges (s.setPartSt p st) [.regs, .out, .cfg, .hst] :=
  .ite (.refl ..) ((setPart_areas ..).within |>.andThen (sqc_areas ..))

theorem State.disableTask_areas (s : State) (n : Nat) : s.OnlyChanges (s.disableTask n) [.regs, .out, .clu, .cpx, .hst, .ddr, .dbg] :=
  .ite (.refl ..) (OnlyChanges.ite (forceEnd_areas ..).within (.refl ..) |>.andThen (unready_areas ..) |>.andThen (updTask_areas ..))

theorem State.commitTask_areas (o s : State) (n : Nat) : s.OnlyChanges (o.commitTask s n) [.regs, .out, .clu, .cpx, .hst, .ddr, .dbg] :=
  OnlyChanges.ite (forceEnd_areas ..).within (.refl ..) |>.andIf (updTask_areas ..).within
    |>.trans (.ite (disableTask_areas ..).within
      (.ite (updTask_areas ..).within (.ite ((unready_areas ..).within |>.andThen (readyTail_areas ..)) (.refl ..))))

theorem State.stopThread_areas (s : State) (k : Nat) : s.OnlyChanges (s.stopThread k) [.regs, .out, .pkt, .clu, .cpx, .hst, .ddr, .dbg] := by
  unfold State.stopThread
  split
  · exact (forceEnd_areas ..).within
  · exact (squash_areas ..).within |>.andThen (leaveQueues_areas ..) |>.andThen (abortFilling_areas ..) |>.andThen (loseHolder_areas ..)
      |>.andThen (updThr_areas ..) |>.andThen (releasePkt_areas ..)

theorem State.beginThread_areas (s : State) (k : Nat) : s.OnlyChanges (s.beginThread k) [.clu] :=
  (updThr_areas ..).within |>.andIf (startSup_areas ..).within

theorem State.commitThread_areas (o s : State) (k : Nat) : s.OnlyChanges (o.commitThread s k) [.regs, .out, .pkt, .clu, .cpx, .hst, .ddr, .dbg] :=
  .ite (.ite ((stopThread_areas ..).within |>.andThen (updThr_areas ..)) (.refl ..))
    (.ite (beginThread_areas ..).within (.ite ((stopThread_areas ..).within |>.andThen (beginThread_areas ..)) (.refl ..)))

theorem State.judgeRuns_areas (o s : State) : s.OnlyChanges (o.judgeRuns s) [.regs, .out, .pkt, .clu, .cpx, .hst, .ddr, .dbg] :=
  (each_areas fun _ _ => (commitTask_areas ..).within) |>.each (fun _ _ => (commitThread_areas ..).within)

theorem State.commitSups_areas (o s : State) : s.OnlyChanges (o.commitSups s) [.regs, .out, .clu, .cpx, .hst, .ddr, .dbg] := by
  unfold State.commitSups
  split
  · exact .refl ..
  · exact each_areas fun _ _ => .ite (.refl ..) (killThread_areas ..).within

theorem State.commitChan2_areas (o s : State) (k : Nat) : s.OnlyChanges (o.commitChan2 s k) [.regs, .out, .clu, .hst, .ddr, .dbg] :=
  .ite (abortChan_areas ..).within (.refl ..)

theorem State.commitLock_areas (o s : State) (glob : Bool) (k : Nat) : s.OnlyChanges (o.commitLock s glob k) [.regs, .clu, .ddr, .dbg] :=
  each_areas fun _ _ => (setLock_areas ..).within |>.andThen (finishWait_areas ..)

theorem State.commitLocks_areas (o s : State) : s.OnlyChanges (o.commitLocks s) [.regs, .clu, .ddr, .dbg] :=
  (each_areas fun _ _ => (commitLock_areas ..).within) |>.each (fun _ _ => (commitLock_areas ..).within)

theorem State.putData_areas (s : State) (r : Rec) : s.OnlyChanges (s.putData r) [.clu] := (sramWrite_areas ..).within

theorem State.commitSram_areas (o s : State) : s.OnlyChanges (o.commitSram s) [.clu] :=
  (with_clu ..).within |>.each (fun _ _ => (putData_areas ..).within)

theorem State.preload_areas (s : State) : s.OnlyChanges s.preload [.clu] :=
  (each_areas fun _ _ => each_areas fun _ _ => (pmemSet_areas ..).within) |>.each (fun _ _ => (putData_areas ..).within)

theorem State.retainProg_areas (o s : State) : s.OnlyChanges (o.retainProg s) [.cfg] := (with_cfg ..).within

theorem State.retireTile_areas (s : State) (j : Nat) : s.OnlyChanges (s.retireTile j) [.regs, .out, .clu, .cfg, .hst] :=
  .ite (.refl ..) ((each_areas fun _ _ => (setReg_areas ..).within) |>.andThen (setRf_areas ..) |>.andThen (setRf_areas ..)
      |>.andThen (setRf_areas ..) |>.andThen (with_clu_cfg ..) |>.andThen (sqc_areas ..))

theorem State.retireAll_areas : ∀ (js : List Nat) (s : State), s.OnlyChanges (s.retireAll js).1 [.regs, .out, .clu, .cfg, .hst]
  | [], s => .refl s _
  | j :: js, s => by
    unfold State.retireAll
    split
    · exact (retireTile_areas ..).within |>.andThen (retireAll_areas js _)
    · exact retireAll_areas js s

theorem State.aliasTasks_areas (s : State) (j : Nat) : s.OnlyChanges (s.aliasTasks j) [.clu] := each_areas fun _ _ => (updTask_areas ..).within

theorem State.commitClusters_areas (o s : State) (js : List Nat) :
    s.OnlyChanges (o.commitClusters s js) [.regs, .out, .pkt, .clu, .cpx, .hst, .ddr, .dbg] :=
  (judgeRuns_areas ..).within |>.andThen (with_clu ..) |>.andThen (commitSups_areas ..) |>.each (fun _ _ => (aliasTasks_areas ..).within)
    |>.each (fun _ _ => (commitChan2_areas ..).within) |>.andThen (commitLocks_areas ..) |>.andThen (commitSram_areas ..)

theorem State.stopPart_areas (s : State) (p st : Nat) : s.OnlyChanges (s.stopPart p st) [.regs, .out, .pkt, .clu, .cpx, .cfg, .hst, .ddr, .dbg] :=
  (setPartSt_areas ..).within |>.andThen (judgeRuns_areas ..)

theorem State.faultPart_areas (s : State) (p : Nat) : s.OnlyChanges (s.faultPart p) [.regs, .out, .pkt, .clu, .cpx, .cfg, .hst, .ddr, .dbg] :=
  .ite ((stopPart_areas ..).within |>.andThen (sqc_areas ..)) (.refl ..)

theorem State.stageRetire_areas (s : State) (j : Nat) : s.OnlyChanges (s.stageRetire j) [.cfg] := .ite (.refl ..) (with_cfg ..).within

theorem State.loseTile_areas (s : State) (j : Nat) :
    s.OnlyChanges (s.loseTile j) [.regs, .out, .ing, .aut, .pkt, .och, .clu, .cpx, .vrm, .cfg, .hst, .ddr, .dbg, .pwr] :=
  .ite (goSafe_areas ..).within (faultPart_areas ..).within

theorem State.failTile_areas (s : State) (j : Nat) :
    s.OnlyChanges (s.failTile j) [.regs, .out, .ing, .aut, .pkt, .och, .clu, .cpx, .vrm, .cfg, .hst, .ddr, .dbg, .pwr] :=
  .ite (.refl ..) ((setRf_areas ..).within |>.andThen (sqc_areas ..)
      |>.trans (.ite (.ite (stageRetire_areas ..).within (.refl ..)) (loseTile_areas ..).within))

/-! ## Commit -/

theorem State.syncPart_areas (s : State) (p : Nat) : s.OnlyChanges (s.syncPart p) [.regs, .out, .cfg, .hst] :=
  .ite (setPartSt_areas ..).within (.refl ..)

theorem State.syncParts_areas (s : State) : s.OnlyChanges s.syncParts [.regs, .out, .cfg, .hst] := each_areas fun _ _ => (syncPart_areas ..).within

theorem State.setShadow_areas (s : State) (a1 : ShadowSt) : s.OnlyChanges (s.setShadow a1) [.regs, .out, .cfg, .hst] :=
  (with_cfg ..).within |>.andThen (syncParts_areas ..)

theorem State.overrideUnit_areas (s : State) (cls idx r : Nat) : s.OnlyChanges (s.overrideUnit cls idx r) [.regs, .spe, .vrm, .cfg] := by
  unfold State.overrideUnit
  split
  · exact .ite (.ite (.ite (setRf_areas ..).within (.refl ..)) ((setUnitReq_areas ..).within |>.andThen (setRf_areas ..)))
      (.ite (setRb_areas ..).within (.refl ..))
  · exact (setRb_areas ..).within
  · exact (setStream_areas ..).within
  · exact .ite (.ite (setRf_areas ..).within (.refl ..)) ((setUnitReq_areas ..).within |>.andThen (setRf_areas ..))
  · exact (setRb_areas ..).within
  · exact (setPcb_areas ..).within
  · exact .refl ..

theorem State.applyRequest_areas (s : State) (k : Nat) : s.OnlyChanges (s.applyRequest k) [.regs, .spe, .vrm, .cfg] := by
  unfold State.applyRequest
  split
  · exact (overrideUnit_areas ..).within |>.andThen (setUnitReq_areas ..)
  · exact .refl ..

theorem State.applyRequests_areas (s : State) : s.OnlyChanges s.applyRequests [.regs, .spe, .vrm, .cfg] :=
  each_areas fun _ _ => (applyRequest_areas ..).within

theorem State.runPart_areas (s : State) (p : Nat) : s.OnlyChanges (s.runPart p) [.regs, .out, .clu, .cfg, .sab, .hst, .ddr, .dbg] :=
  OnlyChanges.ite (.refl ..) (setPartSt_areas ..).within |>.andThen (endGrant_areas ..) |>.andThen (setGrant_areas ..)
    |>.andThen (setUnitReq_areas ..)

theorem State.drainPart_areas (s : State) (p : Nat) : s.OnlyChanges (s.drainPart p) [.regs, .out, .clu, .cfg, .hst] :=
  .ite (.refl ..) ((setPartSt_areas ..).within |>.andThen (setPart_areas ..) |>.andThen (setUnitReq_areas ..)
      |>.each (fun _ _ => (updTask_areas ..).within |>.andIf ((unready_areas ..).within |>.andThen (updTask_areas ..))))

theorem State.commitParts_areas (o s : State) : s.OnlyChanges (o.commitParts s) [.regs, .out, .clu, .cfg, .sab, .hst, .ddr, .dbg] :=
  (each_areas fun _ _ => (runPart_areas ..).within) |>.each (fun _ _ => (drainPart_areas ..).within) |>.andIf (runPart_areas ..).within

theorem State.commitEntries_areas (o s : State) : s.OnlyChanges (o.commitEntries s) [.regs, .out, .ing, .och, .cfg, .hst] :=
  (each_areas fun _ _ => (clsApply_areas ..).within) |>.each (fun _ _ => (fwdApply_areas ..).within)

theorem State.measurePart_areas (s : State) (p : ImgPart) : s.OnlyChanges (s.measurePart p) [.regs, .cfg] := by
  unfold State.measurePart
  split
  · exact (each_areas fun _ _ => (setReg_areas ..).within) |>.andThen (setReg_areas ..)
  · exact (each_areas fun _ _ => (setReg_areas ..).within) |>.andThen (setReg_areas ..)
  · exact (with_cfg ..).within

theorem State.retainShadow_areas (o s : State) : s.OnlyChanges (o.retainShadow s) [.regs, .out, .cfg, .hst] :=
  (each_areas fun _ _ => (measurePart_areas ..).within) |>.andThen (retainProg_areas ..) |>.andThen (with_cfg ..) |>.andThen (setShadow_areas ..)

theorem State.noteCommit_areas (s : State) (a : ArmedInstant) : s.OnlyChanges (s.noteCommit a) [.regs, .out, .hst] :=
  (each_areas fun _ _ => (setReg_areas ..).within) |>.andThen (inc_areas ..) |>.andThen (setRf_areas ..) |>.andThen (sqcEach_areas ..)
    |>.andIf (deliver_areas ..).within

theorem State.commitBist_areas (o s : State) (j : Nat) :
    s.OnlyChanges (o.commitBist s j) [.regs, .out, .ing, .aut, .pkt, .och, .clu, .cpx, .vrm, .cfg, .hst, .ddr, .dbg, .pwr] :=
  .ite (failTile_areas ..).within (.refl ..)

theorem State.applyAll_areas (o n : State) (js : List Nat) :
    n.OnlyChanges (o.applyAll n js) (Area.butOf [.up, .time, .rdShadow, .wrHold, .fv, .sab, .pwr]) :=
  (commitFabric_areas ..).within |>.andThen (commitClusters_areas ..) |>.andThen (commitVoter_areas ..)

theorem State.commitNow_areas (s : State) (a : ArmedInstant) : s.OnlyChanges (s.commitNow a) (Area.butOf [.up, .time, .rdShadow, .wrHold, .fv]) :=
  OnlyChanges.ite (preload_areas ..).within (.refl ..) |>.andIf (produced_areas ..).within |>.andThen (applyRequests_areas ..)
    |>.andThen (retireAll_areas ..) |>.andIf (commitParts_areas ..).within |>.andThen (applyAll_areas ..)
    |>.trans (.ite ((commitEntries_areas ..).within |>.andThen (retainShadow_areas ..)) (.ite (setShadow_areas ..).within (.refl ..)))
    |>.andThen (with_ind_vrm_cfg ..) |>.andThen (setRb_areas ..) |>.andThen (inc_areas ..) |>.andThen (sqc_areas ..)
    |>.each (fun _ _ => (loseTile_areas ..).within) |>.each (fun _ _ => (commitBist_areas ..).within) |>.andThen (noteCommit_areas ..)

theorem execCommitStrobe_areas (s : State) : s.LeadsTo (execCommitStrobe s) (Area.butOf [.up, .time, .rdShadow, .wrHold, .fv]) := by
  refine done_leadsTo ?_
  split
  · exact .ite (commitNow_areas ..).within (.refl ..)
  · exact .refl ..

/-! ## ConfigCmd -/

theorem State.manage_areas {s : State} {n code : Nat} {allowed : Actor → MgtFrame → State → Bool} {states : List DevState}
    {act : Actor → MgtFrame → State → Option Nat × State} {l : List Area} (h : ∀ a f x, State.OnlyChanges x (act a f x).2 l)
    (hl : [.regs, .out, .hst] ⊆ l := by decide) : s.OnlyChanges (s.manage n code allowed states act) l := by
  refine onCmd_areas (fun f x => ?_) (List.Subset.trans (by decide) hl)
  refine .ite ((respond_areas ..).within hl) (.ite ((respond_areas ..).within hl) ?_)
  have hx := h (.port n) f x
  split
  next e => exact (hx.of_snd e).andThen (respond_areas ..) hl
  next e => exact hx.of_snd e

theorem State.imgBegin_areas (s : State) (a : Actor) : s.OnlyChanges (s.imgBegin a) [.cfg] := (with_cfg ..).within

theorem State.imgData_areas (s : State) (a : Actor) (bs : List Byte) : s.OnlyChanges (s.imgData a bs).2 [.cfg] := by
  unfold State.imgData
  split
  · exact .ite_snd (with_cfg ..).within (.refl ..)
  · exact .refl ..

theorem State.imgEnd_areas (s : State) (a : Actor) : s.OnlyChanges (s.imgEnd a).2 [.regs, .cfg] := by
  refine .ite_snd (.refl ..) <| .ite_snd (.refl ..) ?_
  split
  · exact .ite_snd (.refl ..) (.ite_snd (.refl ..) ((setRb_areas ..).within |>.andThen (with_cfg ..)))
  · exact .refl ..

theorem execImgBegin_areas (port : Fin 6) (s : State) : s.LeadsTo (execImgBegin port s) [.regs, .out, .cfg, .hst] :=
  done_leadsTo (manage_areas fun _ _ _ => .ite_snd (.refl ..) (.ite_snd (.refl ..) (imgBegin_areas ..).within))

theorem execImgData_areas (port : Fin 6) (s : State) : s.LeadsTo (execImgData port s) [.regs, .out, .cfg, .hst] :=
  done_leadsTo (manage_areas fun _ _ _ => (imgData_areas ..).within)

theorem execImgEnd_areas (port : Fin 6) (s : State) : s.LeadsTo (execImgEnd port s) [.regs, .out, .cfg, .hst] :=
  done_leadsTo (manage_areas fun _ _ _ => (imgEnd_areas ..).within)

theorem State.mergeImg_areas (s : State) (p : ImgPart) : s.OnlyChanges (s.mergeImg p) [.regs, .out, .cfg, .hst] := by
  refine .andThen ?_ (setShadow_areas ..)
  split
  · exact (with_cfg ..).within
  · exact (setPartSh_areas ..).within |>.andThen (with_cfg ..)
  · exact (with_cfg ..).within

theorem State.verifyEnd_areas (s : State) (g : Staging) : s.OnlyChanges (s.verifyEnd g).2 [.regs, .out, .cfg, .hst] :=
  (setReg_areas ..).within |>.andThen (with_cfg ..) |>.trans (.ite (mergeImg_areas ..).within ((sqc_areas ..).within |>.andThen (inc_areas ..)))

theorem execImgVerifyDone_areas (s : State) : s.LeadsTo (execImgVerifyDone s) [.regs, .out, .cfg, .hst, .pwr] := by
  refine done_leadsTo ?_
  split
  · exact (verifyEnd_areas ..).within |>.andThen (answer_areas ..)
  · exact .refl ..

theorem State.afterDiscard_areas (s : State) : s.OnlyChanges s.afterDiscard [.regs, .out, .cfg, .hst] := (setShadow_areas ..).within

theorem State.discardPart_areas (s : State) (kind p : Nat) : s.OnlyChanges (s.discardPart kind p) [.regs, .out, .cfg, .hst] := by
  refine .andThen ?_ (afterDiscard_areas ..)
  split
  · exact (with_cfg ..).within
  · exact (setPartSh_areas ..).within |>.andThen (with_cfg ..)
  · exact (with_cfg ..).within

theorem State.discardAll_areas (s : State) : s.OnlyChanges s.discardAll [.regs, .out, .cfg, .hst] :=
  (with_cfg ..).within |>.andThen (setShadow_areas ..)

theorem execDiscard_areas (port : Fin 6) (what : Fin 3) (s : State) : s.LeadsTo (execDiscard port what s) [.regs, .out, .cfg, .hst] := by
  refine done_leadsTo (manage_areas fun _ f x => ?_)
  split
  · exact .refl ..
  · split
    · exact .refl ..
    · dsimp only
      exact (discardPart_areas ..).within

theorem execRemove_areas (port : Fin 6) (s : State) : s.LeadsTo (execRemove port s) [.regs, .out, .cfg, .hst] := by
  refine done_leadsTo (manage_areas fun _ f x => ?_)
  split
  · exact .refl ..
  · dsimp only
    exact (setPartSh_areas ..).within |>.andThen (with_cfg ..) |>.andThen (setShadow_areas ..)

theorem State.checkBegin_areas (s : State) (a : Actor) : s.OnlyChanges (s.checkBegin a).2 [.regs, .cfg] :=
  .ite_snd (.refl ..) (.ite_snd (.refl ..) ((setRb_areas ..).within |>.andThen (with_cfg ..)))

theorem State.checkEnd_areas (s : State) : s.OnlyChanges s.checkEnd.2 [.regs, .out, .cfg, .hst] := by
  have h : s.OnlyChanges { s with cfg := { s.cfg with checking := none } } [.regs, .out, .cfg, .hst] := (with_cfg ..).within
  unfold State.checkEnd
  split
  · exact h.andThen (setRb_areas ..)
  · dsimp only
    split <;> dsimp only
    · exact h.andThen (recordCheck_areas ..) |>.andThen (setShadow_areas ..)
    · exact h.andThen (recordCheck_areas ..) |>.andThen (inc_areas ..)

theorem execCheck_areas (port : Fin 6) (s : State) : s.LeadsTo (execCheck port s) [.regs, .out, .cfg, .hst] :=
  done_leadsTo (manage_areas fun _ _ _ => .ite_snd (.refl ..) (checkBegin_areas ..).within)

theorem execCheckDone_areas (s : State) : s.LeadsTo (execCheckDone s) [.regs, .out, .cfg, .hst, .pwr] := by
  refine done_leadsTo ?_
  split
  · exact (checkEnd_areas ..).within |>.andThen (answer_areas ..)
  · exact .refl ..

theorem State.armRefused_areas (s : State) (r : Nat) : s.OnlyChanges (s.armRefused r) [.regs, .out, .hst] :=
  (setRf_areas ..).within |>.andThen (sqc_areas ..) |>.andIf ((setRf_areas ..).within |>.andThen (sqc_areas ..))

theorem State.arm_areas (s : State) (a : Actor) (d : List Word) : s.OnlyChanges (s.arm a d).2 [.regs, .out, .ind, .cfg, .hst] :=
  .ite_snd (.refl ..)
    (.ite_snd (.refl ..)
      (.ite_snd (.refl ..)
        (.ite_snd (armRefused_areas ..).within ((setRf_areas ..).within |>.andThen (setRf_areas ..) |>.each (fun _ _ => (setReg_areas ..).within)
            |>.andThen (with_ind_cfg ..)))))

theorem execArm_areas (port : Fin 6) (s : State) : s.LeadsTo (execArm port s) [.regs, .out, .ind, .cfg, .hst] :=
  done_leadsTo (manage_areas fun _ _ _ => .ite_snd (.refl ..) (arm_areas ..).within)

theorem State.preloadEnd_areas (s : State) : s.OnlyChanges s.preloadEnd [.regs, .out, .ind, .clu, .cfg, .hst] :=
  (preload_areas ..).within |>.andThen (with_ind_cfg ..) |>.andThen (setShadow_areas ..) |>.andThen (setRb_areas ..) |>.andThen (sqc_areas ..)

theorem execPreloadDone_areas (s : State) : s.LeadsTo (execPreloadDone s) [.regs, .out, .ind, .clu, .cfg, .hst] :=
  done_leadsTo <| .ite (preloadEnd_areas ..).within (.refl ..)

theorem State.disarm_areas (s : State) : s.OnlyChanges s.disarm [.regs, .out, .ind, .cfg, .hst] :=
  (with_ind_cfg ..).within |>.andIf (setShadow_areas ..).within |>.andThen (setRb_areas ..) |>.andThen (sqc_areas ..)

theorem execDisarm_areas (port : Fin 6) (s : State) : s.LeadsTo (execDisarm port s) [.regs, .out, .ind, .cfg, .hst] :=
  done_leadsTo (manage_areas fun _ _ _ => .ite_snd (.refl ..) (disarm_areas ..).within)

theorem execRequest_areas (port : Fin 6) (cls : BitVec 4) (idx : BitVec 13) (req : BitVec 4) (s : State) :
    s.LeadsTo (execRequest port cls idx req s) [.regs, .out, .cfg, .hst] :=
  done_leadsTo (manage_areas fun _ _ _ => .ite_snd (.refl ..) (setUnitReq_areas ..).within)

theorem State.autoArm_areas (s : State) : s.OnlyChanges s.autoArm [.regs, .out, .ind, .cfg, .hst] := by
  unfold State.autoArm
  split
  · exact (each_areas fun _ _ => (setReg_areas ..).within) |>.andThen (with_ind_cfg ..) |>.andThen (setRf_areas ..) |>.andThen (setRb_areas ..)
      |>.andThen (sqc_areas ..)
  · exact (with_cfg ..).within |>.andThen (sqc_areas ..)

theorem execAutoCommitArm_areas (s : State) : s.LeadsTo (execAutoCommitArm s) [.regs, .out, .ind, .cfg, .hst] :=
  done_leadsTo <| .ite (autoArm_areas ..).within (.refl ..)

theorem execRetire_areas (port : Fin 6) (tile : Fin 24) (s : State) : s.LeadsTo (execRetire port tile s) [.regs, .out, .cfg, .hst] :=
  done_leadsTo (manage_areas fun _ _ _ => .ite_snd (stageRetire_areas ..).within (.refl ..))

theorem execTileBist_areas (port : Fin 6) (tile : Fin 24) (s : State) : s.LeadsTo (execTileBist port tile s) [.regs, .out, .cfg, .hst] :=
  done_leadsTo (manage_areas fun _ _ _ => .ite_snd (.refl ..) (.ite_snd (with_cfg ..).within (.refl ..)))

theorem State.bistEnd_areas (s : State) (j : Nat) (fail : Bool) :
    s.OnlyChanges (s.bistEnd j fail) [.regs, .out, .ing, .aut, .pkt, .och, .clu, .cpx, .vrm, .cfg, .hst, .ddr, .dbg, .pwr] :=
  (with_cfg ..).within |>.andThen (setRb_areas ..) |>.andUnless (.ite (setRf_areas ..).within (failTile_areas ..).within)

theorem execBistDone_areas (tile : Fin 24) (fail : Bool) (s : State) :
    s.LeadsTo (execBistDone tile fail s) [.regs, .out, .ing, .aut, .pkt, .och, .clu, .cpx, .vrm, .cfg, .hst, .ddr, .dbg, .pwr] :=
  done_leadsTo <| .ite (bistEnd_areas ..).within (.refl ..)

theorem execSpareBistPeriod_areas (s : State) : s.LeadsTo (execSpareBistPeriod s) [.out, .cfg] :=
  done_leadsTo <| .ite (with_cfg ..).within (.refl ..)

theorem State.emptyPart_areas (s : State) (p : Nat) : s.OnlyChanges (s.emptyPart p) [.regs, .out, .pkt, .clu, .cpx, .cfg, .sab, .hst, .ddr, .dbg] :=
  (stopPart_areas ..).within |>.each (fun _ _ => (updTask_areas ..).within |>.andThen (loseHolder_areas ..))
    |>.each (fun _ _ => OnlyChanges.ite (abortChan_areas ..).within (.refl ..) |>.andThen (setRb_areas ..))
    |>.each (fun _ _ => .ite (setRb_areas ..).within (.refl ..)) |>.andThen (endGrant_areas ..) |>.andThen (syncPart_areas ..)

theorem execQuarantine_areas (port : Fin 6) (s : State) :
    s.LeadsTo (execQuarantine port s) [.regs, .out, .pkt, .clu, .cpx, .cfg, .hst, .ddr, .dbg] :=
  done_leadsTo (manage_areas fun _ _ _ => .ite_snd (.refl ..) ((stopPart_areas ..).within |>.andThen (sqc_areas ..)))

theorem State.zeroPart_areas (s : State) (p : Nat) : s.OnlyChanges (s.zeroPart p) [.clu, .cfg] := (with_clu_cfg ..).within

theorem execClear_areas (port : Fin 6) (s : State) : s.LeadsTo (execClear port s) [.regs, .out, .pkt, .clu, .cpx, .cfg, .sab, .hst, .ddr, .dbg] :=
  done_leadsTo (manage_areas fun _ _ _ => .ite_snd (.refl ..) ((zeroPart_areas ..).within |>.andThen (emptyPart_areas ..)))

theorem execDrainTimeout_areas (p : Fin 16) (s : State) : s.LeadsTo (execDrainTimeout p s) [.regs, .out, .clu, .cpx, .hst, .ddr, .dbg] :=
  done_leadsTo <| .ite (each_areas fun _ _ => (forceEnd_areas ..).within |>.andThen (inc_areas ..) |>.andThen (sqc_areas ..)) (.refl ..)

theorem execDrainComplete_areas (p : Fin 16) (s : State) :
    s.LeadsTo (execDrainComplete p s) [.regs, .out, .pkt, .clu, .cpx, .cfg, .sab, .hst, .ddr, .dbg] :=
  done_leadsTo <| .ite (emptyPart_areas ..).within (.refl ..)

theorem State.raiseFloor_areas (s : State) (kind p : Nat) : s.OnlyChanges (s.raiseFloor kind p) [.regs] := by
  unfold State.raiseFloor
  split
  · exact OnlyChanges.ite (setReg_areas ..).within (.refl ..) |>.andThen (setRb_areas ..)
  · exact .ite (setReg_areas ..).within (.refl ..)
  · exact .ite (setReg_areas ..).within (.refl ..)

theorem execRaiseFloor_areas (port : Fin 6) (kind : Fin 3) (s : State) : s.LeadsTo (execRaiseFloor port kind s) [.regs, .out, .hst] :=
  done_leadsTo (manage_areas fun _ _ _ => .ite_snd (.refl ..) (raiseFloor_areas ..).within)

theorem State.reapply_areas (s : State) (d : ScrubDomain) : s.OnlyChanges (s.reapply d) [.ing, .och, .clu] := by
  unfold State.reapply
  split
  · exact (with_clu ..).within
  · exact (with_ing ..).within
  · exact each_areas fun _ _ => .ite (setMac_areas ..).within (.refl ..)
  · exact .refl ..

theorem State.escalate_areas (s : State) (d : ScrubDomain) :
    s.OnlyChanges (s.escalate d) [.regs, .out, .ing, .aut, .pkt, .och, .clu, .cpx, .vrm, .cfg, .hst, .ddr, .dbg, .pwr] := by
  unfold State.escalate
  split
  · exact (sqc_areas ..).within |>.trans (.ite (goSafe_areas ..).within (faultPart_areas ..).within)
  · exact (sqc_areas ..).within |>.andThen (goSafe_areas ..)

theorem State.noteSweep_areas (s : State) (k : Nat) : s.OnlyChanges (s.noteSweep k) [.regs, .cfg] :=
  .ite ((with_cfg ..).within |>.andThen (inc_areas ..)) (with_cfg ..).within

theorem State.scrubBad_areas (s : State) (d : ScrubDomain) (mismatch retainedBad : Bool) :
    s.OnlyChanges (s.scrubBad d mismatch retainedBad) [.regs, .out, .ing, .aut, .pkt, .och, .clu, .cpx, .vrm, .cfg, .hst, .ddr, .dbg, .pwr] :=
  OnlyChanges.ite ((reapply_areas ..).within |>.andThen (inc_areas ..) |>.andThen (setReg_areas ..) |>.andThen (sqc_areas ..)
      |>.andThen (with_cfg ..)) (.refl ..) |>.andIf (escalate_areas ..).within

theorem execScrubDomainCheck_areas (d : ScrubDomain) (mismatch retainedBad : Bool) (s : State) :
    s.LeadsTo (execScrubDomainCheck d mismatch retainedBad s) [.regs, .out, .ing, .aut, .pkt, .och, .clu, .cpx, .vrm, .cfg, .hst, .ddr, .dbg, .pwr] :=
  done_leadsTo ((noteSweep_areas ..).within |>.andIf (scrubBad_areas ..).within)

theorem execUnitMismatch_areas (cls : Fin 8) (idx : BitVec 13) (s : State) : s.LeadsTo (execUnitMismatch cls idx s) [.regs, .out, .cfg, .hst] := by
  unfold execUnitMismatch
  dsimp only
  refine done_leadsTo ?_
  split
  · exact .ite ((setUnitReq_areas ..).within |>.andThen (inc_areas ..) |>.andThen (sqc_areas ..)) (.refl ..)
  · exact .refl ..

theorem State.unitSelect_areas (s : State) (val : Word) : s.OnlyChanges (s.unitSelect val) [.regs] :=
  (setReg_areas ..).within |>.andThen (setReg_areas ..)

theorem execUnitSelect_areas (who : Accessor) (val : Word) (s : State) : s.LeadsTo (execUnitSelect who val s) [.regs, .out, .hst] :=
  done_leadsTo (writeCmd_areas fun _ => (unitSelect_areas ..).within)

/-! ## Sable -/

theorem State.sabResult_areas (s : State) (cmd res : Nat) : s.OnlyChanges (s.sabResult cmd res) [.regs] := (setReg_areas ..).within

theorem State.sabAnswer_areas (s : State) (a : Actor) (cmd res : Nat) (pay : List Byte) :
    s.OnlyChanges (s.sabAnswer a cmd res pay) [.regs, .out, .hst, .pwr] :=
  (sabResult_areas ..).within |>.andThen (answer_areas ..)

theorem State.sabCmd_areas {s : State} {n code : Nat} {allowed : Actor → MgtFrame → State → Bool} {states : List DevState}
    {act : Actor → MgtFrame → State → State} {l : List Area} (h : ∀ a f x, State.OnlyChanges x (act a f x) l)
    (hl : [.regs, .out, .hst, .pwr] ⊆ l := by decide) : s.OnlyChanges (s.sabCmd n code allowed states act) l := by
  have ha (x : State) (res : Nat) : x.OnlyChanges (x.sabAnswer (.port n) code res []) l := (sabAnswer_areas ..).within hl
  exact onCmd_areas (fun f x => .ite (ha ..) (.ite (ha ..) (.ite (ha ..) (h ..)))) (List.Subset.trans (by decide) hl)

theorem State.loadKey_areas (s : State) (e : List Byte) : s.OnlyChanges (s.loadKey e) [.aut] := (setKeySlot_areas ..).within

theorem State.applyKeys_areas (s : State) (bs : List Byte) (es : List (List Byte)) : s.OnlyChanges (s.applyKeys bs es).2 [.regs, .aut] :=
  .ite_snd (.refl ..) ((each_areas fun _ _ => (loadKey_areas ..).within) |>.andThen (setReg_areas ..))

theorem State.endSlotSessions_areas (s : State) (i : Nat) : s.OnlyChanges (s.endSlotSessions i) [.regs, .out, .hst] :=
  each_areas fun _ _ => .ite (endSession_areas ..).within (.refl ..)

theorem State.applyCreds_areas (s : State) (bs : List Byte) (es : List (List Byte)) :
    s.OnlyChanges (s.applyCreds bs es).2 [.regs, .out, .sab, .hst] :=
  (each_areas fun _ _ => (setCred_areas ..).within |>.andThen (endSlotSessions_areas ..)) |>.andThen (setReg_areas ..)

theorem State.applyRoot_areas (s : State) (bs : List Byte) : s.OnlyChanges (s.applyRoot bs).2 [.regs, .out, .ind, .cfg, .sab, .hst] :=
  .ite_snd ((with_sab ..).within |>.andThen (sqc_areas ..))
    (.ite_snd (.refl ..) (.ite_snd (.refl ..) ((with_sab ..).within |>.andThen (sqc_areas ..) |>.andIf (disarm_areas ..).within)))

theorem State.pkgTry_areas (s : State) (a : Actor) (cmd : Nat) (bs : List Byte) :
    s.OnlyChanges (s.pkgTry a cmd bs).2 [.regs, .out, .ind, .aut, .cfg, .sab, .hst] := by
  unfold State.pkgTry
  split
  · exact .refl ..
  · exact .ite_snd (applyRoot_areas ..).within <| .ite_snd (.refl ..) <| .ite_snd (applyKeys_areas ..).within (applyCreds_areas ..).within

theorem State.pkgEnd_areas (s : State) (j : PkgJob) : s.OnlyChanges (s.pkgEnd j) [.regs, .out, .ind, .aut, .cfg, .sab, .hst, .pwr] :=
  .ite (.refl ..) (OnlyChanges.ite ((with_sab ..).within |>.andThen (pkgTry_areas ..) |>.andThen (inc_areas ..) |>.andThen (sqc_areas ..))
      ((with_sab ..).within |>.andThen (pkgTry_areas ..) |>.andThen (inc_areas ..) |>.andThen (sqc_areas ..)) |>.andThen (sabAnswer_areas ..))

theorem execPackageCheckDone_areas (s : State) : s.LeadsTo (execPackageCheckDone s) [.regs, .out, .ind, .aut, .cfg, .sab, .hst, .pwr] := by
  refine done_leadsTo ?_
  split
  · exact (pkgEnd_areas ..).within
  · exact .refl ..

theorem State.pkgBegin_areas (s : State) (a : Actor) (cmd : Nat) (bs : List Byte) :
    s.OnlyChanges (s.pkgBegin a cmd bs) [.regs, .out, .sab, .hst, .pwr] :=
  .ite (answer_areas ..).within ((with_sab ..).within |>.andThen (setReg_areas ..))

theorem execKeyLoad_areas (port : Fin 6) (s : State) : s.LeadsTo (execKeyLoad port s) [.regs, .out, .sab, .hst, .pwr] :=
  done_leadsTo (sabCmd_areas fun _ _ _ => (pkgBegin_areas ..).within)

theorem execCredLoad_areas (port : Fin 6) (s : State) : s.LeadsTo (execCredLoad port s) [.regs, .out, .sab, .hst, .pwr] :=
  done_leadsTo (sabCmd_areas fun _ _ _ => (pkgBegin_areas ..).within)

theorem State.rootOrder_areas (s : State) (n kind : Nat) : s.OnlyChanges (s.rootOrder n kind) [.regs, .out, .sab, .hst, .pwr] := by
  unfold State.rootOrder
  split
  · exact .ite (.refl ..) (sabCmd_areas fun _ _ _ => (pkgBegin_areas ..).within)
  · exact .refl ..

theorem execRootAdd_areas (port : Fin 6) (s : State) : s.LeadsTo (execRootAdd port s) [.regs, .out, .sab, .hst, .pwr] :=
  done_leadsTo (rootOrder_areas ..).within

theorem execRootRevoke_areas (port : Fin 6) (s : State) : s.LeadsTo (execRootRevoke port s) [.regs, .out, .sab, .hst, .pwr] :=
  done_leadsTo (rootOrder_areas ..).within

theorem State.noteExhausted_areas (s0 s : State) : s.OnlyChanges (s0.noteExhausted s) [.regs, .out, .hst] := .ite (sqc_areas ..).within (.refl ..)

theorem State.lowBlocks_areas (s : State) : s.OnlyChanges s.lowBlocks [.regs, .out, .sab, .hst] :=
  .ite ((with_sab ..).within |>.andThen (sqc_areas ..)) (.refl ..)

theorem State.takeBlock_areas (s : State) (b : Nat) : s.OnlyChanges (s.takeBlock b) [.regs, .out, .sab, .hst] :=
  (with_sab ..).within |>.andThen (lowBlocks_areas ..)

theorem State.skipBlock_areas (s : State) (b : Nat) : s.OnlyChanges (s.skipBlock b) [.regs, .out, .sab, .hst] :=
  (with_sab ..).within |>.andThen (inc_areas ..) |>.andThen (sqc_areas ..)

theorem reserve_areas : ∀ (bs : List Nat) (r : List Bool) (s : State), s.OnlyChanges (reserve bs r s) [.regs, .out, .sab, .hst]
  | [], _, s => .refl s _
  | _ :: bs, _, _ => .ite (takeBlock_areas ..).within ((skipBlock_areas ..).within |>.andThen (reserve_areas bs ..))

theorem State.takeIndex_areas (s : State) (fuse : List Bool) : s.OnlyChanges (s.takeIndex fuse).2 [.regs, .out, .sab, .hst] := by
  unfold State.takeIndex
  dsimp only
  split
  · exact OnlyChanges.ite (.refl ..) ((with_sab ..).within |>.andThen (reserve_areas ..)) |>.andThen (with_sab ..)
      |>.andThen (noteExhausted_areas ..)
  · exact OnlyChanges.ite (.refl ..) ((with_sab ..).within |>.andThen (reserve_areas ..)) |>.andThen (noteExhausted_areas ..)

theorem State.abandonBlock_areas (s : State) : s.OnlyChanges s.abandonBlock [.regs, .out, .sab, .hst] :=
  (with_sab ..).within |>.andIf (sqc_areas ..).within |>.andThen (noteExhausted_areas ..)

theorem State.signStart_areas (s : State) (q : AttReq) : s.OnlyChanges (s.signStart q) [.regs, .out, .sab, .hst, .pwr] := by
  unfold State.signStart
  dsimp only
  refine .ite (sabAnswer_areas ..).within <| .ite (sabAnswer_areas ..).within ?_
  split
  · exact (takeIndex_areas ..).within |>.andThen (sabAnswer_areas ..)
  · exact (takeIndex_areas ..).within |>.andThen (with_sab ..) |>.andThen (setReg_areas ..)

theorem State.attest_areas (s : State) (q : AttReq) : s.OnlyChanges (s.attest q) [.regs, .out, .sab, .hst, .pwr] :=
  .ite (signStart_areas ..).within <| .ite (sabAnswer_areas ..).within (with_sab ..).within

theorem signQueue_areas : ∀ (qs : List AttReq) (s : State), s.OnlyChanges (signQueue qs s) [.regs, .out, .sab, .hst, .pwr]
  | [], s => .refl s _
  | q :: qs, s =>
    have h : s.OnlyChanges (State.signStart { s with sab := { s.sab with fifo := qs } } q) [.regs, .out, .sab, .hst, .pwr] :=
      (with_sab ..).within |>.andThen (signStart_areas ..)
    .ite h (h.andThen (signQueue_areas qs _))

theorem execAttest_areas (port : Fin 6) (fuse : List Bool) (s : State) : s.LeadsTo (execAttest port fuse s) [.regs, .out, .sab, .hst, .pwr] :=
  done_leadsTo (sabCmd_areas fun _ _ _ => (attest_areas ..).within)

theorem State.attestEnd_areas (s : State) (q : AttReq) (i : Nat) (body : List Byte) :
    s.OnlyChanges (s.attestEnd q i body) [.regs, .out, .sab, .hst, .pwr] :=
  (with_sab ..).within |>.andThen (inc_areas ..) |>.andThen (sabAnswer_areas ..) |>.andThen (signQueue_areas ..)

theorem execAttestDone_areas (s : State) : s.LeadsTo (execAttestDone s) [.regs, .out, .sab, .hst, .pwr] := by
  refine done_leadsTo ?_
  split
  · exact (attestEnd_areas ..).within
  · exact .refl ..

theorem State.abandonJobs_areas (s : State) : s.OnlyChanges s.abandonJobs [.regs, .out, .cfg, .sab, .hst, .pwr] := by
  unfold State.abandonJobs
  dsimp only
  split <;> [refine .andIf ?_ ((with_cfg ..).within |>.andThen (setReg_areas ..) |>.andThen (answer_areas ..)); skip]
  all_goals
    split <;> [refine .andThen (.andThen ?_ (with_sab ..)) (sabAnswer_areas ..); skip]
    all_goals
      split
      · exact (with_sab ..).within |>.andThen (sabAnswer_areas ..)
      · exact .refl ..

theorem State.clearKeys_areas (s : State) : s.OnlyChanges s.clearKeys [.aut, .pkt] := (with_aut_pkt ..).within

theorem State.zeroise_areas (s : State) :
    s.OnlyChanges s.zeroise [.regs, .out, .ind, .ing, .aut, .pkt, .och, .clu, .vrm, .cfg, .sab, .hst, .ddr, .dbg, .pwr] :=
  (abandonJobs_areas ..).within |>.andThen (clearKeys_areas ..) |>.andThen (with_sab ..)
    |>.each (fun _ _ => (endSession_areas ..).within |>.andThen (updMport_areas ..)) |>.andIf (disarm_areas ..).within
    |>.andThen (discardAll_areas ..) |>.each (fun _ _ => (endGrant_areas ..).within) |>.andThen (abandonBlock_areas ..) |>.andThen (inc_areas ..)
    |>.andThen (sqc_areas ..) |>.andThen (signQueue_areas ..) |>.andIf (goSafe_areas ..).within

theorem execZeroise_areas (port : Fin 6) (s : State) :
    s.LeadsTo (execZeroise port s) [.regs, .out, .ind, .ing, .aut, .pkt, .och, .clu, .vrm, .cfg, .sab, .hst, .ddr, .dbg, .pwr] :=
  done_leadsTo (sabCmd_areas fun _ _ _ => (sabAnswer_areas ..).within |>.andThen (zeroise_areas ..))

theorem State.tamperTrip_areas (s : State) (bit ev : Nat) :
    s.OnlyChanges (s.tamperTrip bit ev) [.regs, .out, .ind, .ing, .aut, .pkt, .och, .clu, .vrm, .cfg, .sab, .hst, .ddr, .dbg, .pwr] :=
  (with_sab ..).within |>.andThen (inc_areas ..) |>.andThen (sqc_areas ..) |>.andThen (zeroise_areas ..)

theorem State.blowKill_areas (s : State) : s.OnlyChanges s.blowKill [.regs, .out, .ing, .aut, .pkt, .och, .vrm, .sab, .hst, .ddr, .dbg, .pwr] :=
  (with_sab ..).within |>.andThen (setRb_areas ..) |>.andThen (goSafe_areas ..)

theorem execTamperInput_areas (i : Fin 4) (s : State) :
    s.LeadsTo (execTamperInput i s) [.regs, .out, .ind, .ing, .aut, .pkt, .och, .clu, .vrm, .cfg, .sab, .hst, .ddr, .dbg, .pwr] :=
  done_leadsTo <| .ite ((tamperTrip_areas ..).within |>.andIf (blowKill_areas ..).within) (.refl ..)

theorem execMonitorTrip_areas (m : Fin 4) (s : State) :
    s.LeadsTo (execMonitorTrip m s) [.regs, .out, .ind, .ing, .aut, .pkt, .och, .clu, .vrm, .cfg, .sab, .hst, .ddr, .dbg, .pwr] :=
  done_leadsTo <| .ite (tamperTrip_areas ..).within (.refl ..)

theorem State.startGrant_areas (s : State) (p : Nat) (control jtag session : Bool) (secs : Nat) :
    s.OnlyChanges (s.startGrant p control jtag session secs) [.regs, .out, .clu, .sab, .hst, .ddr, .dbg] :=
  (endGrant_areas ..).within |>.andThen (setGrant_areas ..) |>.andThen (inc_areas ..) |>.andThen (sqc_areas ..)

theorem execDebugGrant_areas (port : Fin 6) (p : Fin 16) (control jtag session : Bool) (secs : BitVec 16) (s : State) :
    s.LeadsTo (execDebugGrant port p control jtag session secs s) [.regs, .out, .clu, .sab, .hst, .ddr, .dbg, .pwr] :=
  done_leadsTo (sabCmd_areas fun _ _ _ => .ite (sabAnswer_areas ..).within
      (.ite (sabAnswer_areas ..).within ((startGrant_areas ..).within |>.andThen (sabAnswer_areas ..))))

theorem execDebugRevoke_areas (port : Fin 6) (p : Fin 16) (s : State) :
    s.LeadsTo (execDebugRevoke port p s) [.regs, .out, .clu, .sab, .hst, .ddr, .dbg, .pwr] :=
  done_leadsTo (sabCmd_areas fun _ _ _ => (endGrant_areas ..).within |>.andThen (sabAnswer_areas ..))

theorem execDebugGrantExpire_areas (p : Fin 16) (s : State) : s.LeadsTo (execDebugGrantExpire p s) [.regs, .out, .clu, .sab, .hst, .ddr, .dbg] :=
  done_leadsTo <| .ite (endGrant_areas ..).within (.refl ..)

/-! ## Pci -/

theorem State.stopLinkDma_areas (s : State) (l : Nat) : s.OnlyChanges (s.stopLinkDma l) [.regs] :=
  each_areas fun _ _ => .ite ((setRf_areas ..).within |>.andThen (setRf_areas ..)) (.refl ..)

theorem State.linkLost_areas (s : State) (l : Nat) : s.OnlyChanges (s.linkLost l) [.regs, .out, .hst] :=
  (stopLinkDma_areas ..).within |>.andThen (setRf_areas ..) |>.andThen (endSession_areas ..)

theorem execPerstDeassert_areas (link : Fin 2) (bifHigh barCmp : Bool) (s : State) :
    s.LeadsTo (execPerstDeassert link bifHigh barCmp s) [.regs, .out] :=
  done_leadsTo <| .ite ((setRb_areas ..).within |>.andThen (setRb_areas ..)) (.refl ..)

theorem execPcieLinkChange_areas (link : Fin 2) (up : Bool) (rate : Fin 8) (width : Fin 32) (flit : Bool) (s : State) :
    s.LeadsTo (execPcieLinkChange link up rate width flit s) [.regs, .out, .hst] :=
  done_leadsTo <| .ite (.refl ..) ((setReg_areas ..).within |>.andUnless (sqc_areas ..).within |>.andUnless (linkLost_areas ..).within)

theorem execPcieHotReset_areas (link : Fin 2) (s : State) : s.LeadsTo (execPcieHotReset link s) [.regs, .out, .hst] :=
  done_leadsTo (linkLost_areas ..).within

theorem execFlrPf0_areas (link : Fin 2) (s : State) : s.LeadsTo (execFlrPf0 link s) [.regs, .out, .hst] :=
  done_leadsTo ((endSession_areas ..).within |>.each (fun _ _ => (setReg_areas ..).within))

theorem execFlrPf1_areas (link : Fin 2) (s : State) : s.LeadsTo (execFlrPf1 link s) [.regs, .out, .hst] :=
  done_leadsTo ((stopLinkDma_areas ..).within |>.andThen (with_hst ..))

theorem State.setD3_areas (s : State) (l pf : Nat) (v : Bool) : s.OnlyChanges (s.setD3 l pf v) [.regs, .hst] :=
  (with_hst ..).within |>.andThen (setRb_areas ..)

theorem execD3hotEntry_areas (link pf : Fin 2) (s : State) : s.LeadsTo (execD3hotEntry link pf s) [.regs, .out, .hst] :=
  done_leadsTo ((setD3_areas ..).within |>.andIf (stopLinkDma_areas ..).within)

theorem execReturnToD0_areas (link pf : Fin 2) (s : State) : s.LeadsTo (execReturnToD0 link pf s) [.regs, .out, .hst] :=
  done_leadsTo (setD3_areas ..).within

theorem execAerUncorrectableError_areas (link : Fin 2) (s : State) : s.LeadsTo (execAerUncorrectableError link s) [.regs, .out, .hst] :=
  done_leadsTo ((inc_areas ..).within |>.andThen (sqc_areas ..))

theorem execMsixVectorUnmask_areas (link pf : Fin 2) (vec : Fin 512) (s : State) :
    s.LeadsTo (execMsixVectorUnmask link pf vec s) [.regs, .out, .hst] :=
  done_leadsTo ((setRb_areas ..).within |>.andThen (setMsix_areas ..) |>.andIf (sendMsix_areas ..).within)

theorem State.dmaDone_areas (s : State) (d outLen hostq verdict flags : Nat) :
    s.OnlyChanges (s.dmaDone d outLen hostq verdict flags) [.regs, .out, .hst] :=
  (emit_areas ..).within |>.andThen (setReg_areas ..) |>.andThen (setDma_areas ..)

theorem State.dmaOut_areas (s : State) (d h n : Nat) (desc : DmaDesc) :
    s.OnlyChanges (s.dmaOut d h n desc) [.regs, .fv, .out, .pkt, .och, .hst, .ddr, .dbg] :=
  (copyBody_areas ..).within |>.andThen (emit_areas ..) |>.andThen (setDma_areas ..) |>.andThen (dmaDone_areas ..) |>.andThen (inc_areas ..)
    |>.andThen (endCopy_areas ..)

theorem execDmaDeliver_areas (d : Fin 16) (desc : DmaDesc) (s : State) :
    s.LeadsTo (execDmaDeliver d desc s) [.regs, .fv, .out, .pkt, .och, .hst, .ddr, .dbg] := by
  refine done_leadsTo ?_
  refine .ite ?_ (.refl ..)
  split
  · split
    · exact (dmaOut_areas ..).within
    · exact .refl ..
  · exact .refl ..

theorem State.dmaIn_areas (s : State) (d h : Nat) (bytes : List Byte) (ext : Option SecExt) :
    s.OnlyChanges (s.dmaIn d h bytes ext) [.regs, .fv, .out, .ind, .ing, .spe, .pkt, .och, .clu, .hst, .ddr, .dbg] :=
  (inc_areas ..).within |>.andThen (dmaDone_areas ..) |>.andThen (newFrame_areas ..) |>.andThen (fillBuf_areas ..) |>.andThen (updFrame_areas ..)
    |>.andThen (frameTail_areas ..)

theorem State.dmaBad_areas (s : State) (d : Nat) : s.OnlyChanges (s.dmaBad d) [.regs, .out, .hst] :=
  (inc_areas ..).within |>.andThen (dmaDone_areas ..)

theorem execDmaInject_areas (d : Fin 16) (desc : DmaDesc) (bytes : List Byte) (ext : Option SecExt) (s : State) :
    s.LeadsTo (execDmaInject d desc bytes ext s) [.regs, .fv, .out, .ind, .ing, .spe, .pkt, .och, .clu, .hst, .ddr, .dbg] := by
  refine done_leadsTo ?_
  refine .ite (.ite (dmaBad_areas ..).within ?_) (.refl ..)
  split
  next s2 e =>
    exact (setDma_areas ..).within |>.andThen ((alloc_areas ..).of_snd e) |>.andThen (dmaIn_areas ..)
  next s2 e1 =>
    exact (setDma_areas ..).within |>.andThen ((alloc_areas ..).of_snd e1) |>.andThen (dmaBad_areas ..)

theorem execDmaSignal_areas (d : Fin 16) (s : State) : s.LeadsTo (execDmaSignal d s) [.regs, .out, .hst] :=
  done_leadsTo <| .ite ((setDma_areas ..).within |>.andThen (sendMsix_areas ..)) (.refl ..)

theorem execDmaFault_areas (d : Fin 16) (why : Fin 4) (s : State) : s.LeadsTo (execDmaFault d why s) [.regs, .out, .hst] :=
  done_leadsTo <| .ite ((setRf_areas ..).within |>.andThen (setRf_areas ..) |>.andThen (inc_areas ..) |>.andThen (sqc_areas ..)) (.refl ..)

theorem State.dmaStart_areas (s : State) (d : Nat) : s.OnlyChanges (s.dmaStart d) [.regs] :=
  .ite (.refl ..) ((setReg_areas ..).within |>.andThen (setReg_areas ..) |>.andThen (setRf_areas ..))

theorem State.dmaStop_areas (s : State) (d : Nat) : s.OnlyChanges (s.dmaStop d) [.regs] := (setRf_areas ..).within |>.andThen (setRf_areas ..)

theorem execDmaStart_areas (who : Accessor) (d : Fin 16) (s : State) : s.LeadsTo (execDmaStart who d s) [.regs, .out, .hst] :=
  done_leadsTo (writeCmd_areas fun _ => (dmaStart_areas ..).within)

theorem execDmaStop_areas (who : Accessor) (d : Fin 16) (s : State) : s.LeadsTo (execDmaStop who d s) [.regs, .out, .hst] :=
  done_leadsTo (writeCmd_areas fun _ => (dmaStop_areas ..).within)

theorem execBar0DecodeMiss_areas (link : Fin 2) (write : Bool) (off : BitVec 21) (s : State) :
    s.LeadsTo (execBar0DecodeMiss link write off s) [.regs, .out, .hst] :=
  done_leadsTo <| .ite ((inc_areas ..).within |>.andThen (setReg_areas ..) |>.andThen (sqc_areas ..)) (.refl ..)

theorem execPciBankWrite_areas (who : Accessor) (link : Fin 2) (val : Word) (s : State) :
    s.LeadsTo (execPciBankWrite who link val s) [.regs, .out, .hst] :=
  done_leadsTo (writeCmd_areas fun _ => (setReg_areas ..).within)

theorem execBar2WriteDenied_areas (link : Fin 2) (off : BitVec 26) (s : State) : s.LeadsTo (execBar2WriteDenied link off s) [.regs, .out] :=
  done_leadsTo <| .ite (inc_areas ..).within (.refl ..)

theorem execBar2ReadDenied_areas (link : Fin 2) (off : BitVec 26) (s : State) : s.LeadsTo (execBar2ReadDenied link off s) [.regs, .out] :=
  done_leadsTo <| .ite (inc_areas ..).within (.refl ..)

/-! ## Ddr -/

theorem State.setDdrState_areas (s : State) (v : Nat) : s.OnlyChanges (s.setDdrState v) [.regs, .out, .hst] :=
  .ite (.refl ..) ((setRf_areas ..).within |>.andThen (sqc_areas ..))

theorem execDdrRefresh_areas (s : State) : s.LeadsTo (execDdrRefresh s) [.regs, .out, .hst, .ddr] :=
  done_leadsTo <| .ite ((inc_areas ..).within |>.andThen (pmuFab_areas ..) |>.andThen (with_ddr ..)
      |>.andUnless ((setRb_areas ..).within |>.andThen (sqc_areas ..))) (.refl ..)

theorem execDdrTempRead_areas (hot : Bool) (s : State) : s.LeadsTo (execDdrTempRead hot s) [.out, .ddr] :=
  done_leadsTo <| .ite (with_ddr ..).within (.refl ..)

theorem State.badLine_areas (s : State) (line : Nat) : s.OnlyChanges (s.badLine line) [.regs, .out, .hst, .ddr] :=
  (with_ddr ..).within |>.andThen (inc_areas ..) |>.andThen (setReg_areas ..) |>.andThen (setReg_areas ..) |>.andThen (sqc_areas ..)

theorem execDdrScrubLine_areas (line : Nat) (err : ScrubError) (s : State) : s.LeadsTo (execDdrScrubLine line err s) [.regs, .out, .hst, .ddr] := by
  refine done_leadsTo ?_
  refine .ite ?_ (.refl ..)
  split
  · exact .refl ..
  · exact (inc_areas ..).within
  · exact (badLine_areas ..).within

theorem execDdrTrainingDone_areas (pass : Bool) (s : State) : s.LeadsTo (execDdrTrainingDone pass s) [.regs, .out, .hst] :=
  done_leadsTo <| .ite (setDdrState_areas ..).within (.refl ..)

theorem execPlaneSramScrub_areas (cs : BitVec 13) (i : BitVec 8) (err : ScrubError) (s : State) :
    s.LeadsTo (execPlaneSramScrub cs i err s) [.regs, .out, .spe, .hst] := by
  refine done_leadsTo ?_
  split
  · exact .refl ..
  · exact (with_spe ..).within |>.andThen (inc_areas ..)
  · exact (with_spe ..).within |>.andThen (inc_areas ..) |>.andThen (sqc_areas ..)

theorem execClusterSramScrub_areas (c : Fin 6) (unit : BitVec 18) (err : ScrubError) (s : State) :
    s.LeadsTo (execClusterSramScrub c unit err s) [.regs, .out, .clu] := by
  refine done_leadsTo ?_
  split
  · exact .refl ..
  · exact (inc_areas ..).within
  · exact (with_clu ..).within

/-! ## Power -/

theorem State.mainClear_areas (s : State) : s.OnlyChanges s.mainClear (Area.butOf [.up, .fv, .out]) :=
  ⟨rfl, fun a ha => by cases a <;> first | rfl | exact absurd (by decide) ha⟩

theorem State.showCold_areas (s : State) : s.OnlyChanges s.showCold [.regs] := (setReg_areas ..).within

theorem State.mainReset_areas (s : State) (cause : Nat) : s.OnlyChanges (s.mainReset cause) (Area.butOf [.up, .fv, .out]) :=
  .ite (setReg_areas ..).within ((mainClear_areas ..).within |>.andThen (showCold_areas ..) |>.andThen (setReg_areas ..) |>.andThen (inc_areas ..))

theorem execMainReset_areas (s : State) : s.LeadsTo (execMainReset s) (Area.butOf [.up, .fv]) := done_leadsTo (mainReset_areas ..).within

theorem execPwrGoodLoss_areas (s : State) : s.LeadsTo (execPwrGoodLoss s) (Area.butOf [.up, .fv]) :=
  done_leadsTo ((mainReset_areas ..).within |>.andThen (with_pwr ..))

theorem execRailFault_areas (rail : Fin 8) (s : State) : s.LeadsTo (execRailFault rail s) (Area.butOf [.up, .fv]) :=
  done_leadsTo <| .ite (mainReset_areas ..).within (.refl ..)

theorem State.auxLost_areas (s : State) : s.OnlyChanges s.auxLost [.sab] := (with_sab ..).within

theorem execVauxFall_areas (s : State) : s.LeadsTo (execVauxFall s) (Area.butOf [.up, .fv]) :=
  done_leadsTo <|
    .ite
    (OnlyChanges.ite (abandonBlock_areas ..).within (.ite ((tamperTrip_areas ..).within |>.andThen (mainReset_areas ..))
        ((zeroise_areas ..).within |>.andThen (mainReset_areas ..))) |>.andThen (auxLost_areas ..) |>.andThen (with_pwr ..)) (.refl ..)

theorem execVauxRise_areas (s : State) : s.LeadsTo (execVauxRise s) (Area.butOf [.up, .fv]) :=
  done_leadsTo <| .ite (.refl ..) ((auxLost_areas ..).within |>.andThen (mainClear_areas ..) |>.andThen (with_regs_pwr ..)
      |>.andThen (showCold_areas ..) |>.andThen (setRb_areas ..))

theorem execSysResetDevice_areas (who : Accessor) (val : Word) (s : State) : s.LeadsTo (execSysResetDevice who val s) (Area.butOf [.up, .fv]) :=
  done_leadsTo (writeCmd_areas fun _ => .ite (mainReset_areas ..).within (.refl ..))

theorem State.stopCluster_areas (s : State) (c : Nat) : s.OnlyChanges (s.stopCluster c) [.regs, .out, .pkt, .clu, .cpx, .hst, .ddr, .dbg] :=
  (each_areas fun _ _ => (forceEnd_areas ..).within)
    |>.each (fun _ _ => .ite (.refl ..) ((stopThread_areas ..).within |>.andThen (updThr_areas ..)))

theorem State.clearMemories_areas (s : State) (c : Nat) : s.OnlyChanges (s.clearMemories c) [.clu] := (with_clu ..).within

theorem State.clearShared_areas (s : State) (c : Nat) : s.OnlyChanges (s.clearShared c) [.clu] :=
  (with_clu ..).within |>.each (fun _ _ => (updTask_areas ..).within)

theorem State.resetCluster_areas (s : State) (c : Nat) : s.OnlyChanges (s.resetCluster c) [.regs, .out, .pkt, .clu, .cpx, .hst, .ddr, .dbg] :=
  (with_clu ..).within |>.andThen (stopCluster_areas ..) |>.andThen (clearMemories_areas ..) |>.andThen (clearShared_areas ..)

theorem State.showResets_areas (s : State) : s.OnlyChanges s.showResets [.regs] := (setReg_areas ..).within

theorem execSysResetCluster_areas (who : Accessor) (val : Word) (s : State) :
    s.LeadsTo (execSysResetCluster who val s) [.regs, .out, .pkt, .clu, .cpx, .hst, .ddr, .dbg] :=
  done_leadsTo
    (writeCmd_areas fun _ => .ite (.refl ..) (.ite ((each_areas fun _ _ => (resetCluster_areas ..).within) |>.andThen (showResets_areas ..))
        (setRf_areas ..).within))

theorem State.startCluster_areas (s : State) (c : Nat) : s.OnlyChanges (s.startCluster c) [.regs, .out, .clu, .hst] :=
  (with_clu ..).within |>.each (fun _ _ => (updTask_areas ..).within) |>.each (fun _ _ => (commitTimer_areas ..).within)
    |>.each (fun _ _ => (beginThread_areas ..).within)

theorem execClusterResetDone_areas (c : Fin 6) (s : State) : s.LeadsTo (execClusterResetDone c s) [.regs, .out, .clu, .hst] :=
  done_leadsTo <| .ite ((startCluster_areas ..).within |>.andThen (showResets_areas ..) |>.andThen (sqc_areas ..)) (.refl ..)

theorem State.startTime_areas (s : State) (held : Bool) : s.OnlyChanges (s.startTime held) [.time, .regs, .out, .ind, .hst] :=
  .ite ((with_time_ind ..).within |>.andThen (deliver_areas ..)) (with_time ..).within

theorem State.bootStep_areas (s : State) (n : Nat) : s.OnlyChanges (s.bootStep n) [.regs] := (setRf_areas ..).within

theorem State.bootB1_areas (s : State) (bootSrc : BitVec 2) (avsLow : Bool) : s.OnlyChanges (s.bootB1 bootSrc avsLow) [.regs, .out, .hst, .pwr] :=
  (setReg_areas ..).within |>.andThen (setReg_areas ..) |>.andThen (setReg_areas ..) |>.andThen (setRb_areas ..) |>.andThen (with_pwr ..)
    |>.andIf (sqc_areas ..).within

theorem execResetRelease_areas (bootSrc : BitVec 2) (avsLow vauxHeld : Bool) (s : State) :
    s.LeadsTo (execResetRelease bootSrc avsLow vauxHeld s) [.time, .regs, .out, .ind, .hst, .pwr] :=
  done_leadsTo <| .ite ((bootB1_areas ..).within |>.andThen (startTime_areas ..) |>.andThen (setDdrState_areas ..) |>.andThen (bootStep_areas ..))
    (.refl ..)

theorem State.enterConfig_areas (s : State) : s.OnlyChanges s.enterConfig [.regs, .out, .ing, .aut, .pkt, .och, .vrm, .hst, .ddr, .dbg, .pwr] :=
  (goState_areas ..).within |>.andThen (bootStep_areas ..) |>.andThen (setRf_areas ..) |>.trans (.ite (with_pwr ..).within (setRf_areas ..).within)

theorem execConfigEntry_areas (bistFail : BitVec 24) (s : State) :
    s.LeadsTo (execConfigEntry bistFail s) [.regs, .out, .ing, .aut, .pkt, .och, .vrm, .hst, .ddr, .dbg, .pwr] :=
  done_leadsTo <|
    .ite ((each_areas fun _ _ => (setRb_areas ..).within)
      |>.trans (.ite ((bootStep_areas ..).within |>.andThen (goSafe_areas ..)) (enterConfig_areas ..).within)) (.refl ..)

theorem execAvsUpdate_areas (target reported : BitVec 10) (ack : Bool) (s : State) :
    s.LeadsTo (execAvsUpdate target reported ack s) [.regs, .out, .hst, .pwr] :=
  done_leadsTo <| .ite (.ite ((emit_areas ..).within |>.andThen (with_pwr ..) |>.andThen (setRf_areas ..) |>.andThen (setRf_areas ..))
      (.ite ((emit_areas ..).within |>.andThen (with_pwr ..)) ((emit_areas ..).within |>.andThen (with_pwr ..) |>.andThen (setRb_areas ..)
          |>.andThen (sqc_areas ..)))) (.refl ..)

theorem State.judgeTemp_areas (s : State) (t : Int) :
    s.OnlyChanges (s.judgeTemp t) [.regs, .out, .ing, .aut, .pkt, .och, .vrm, .hst, .ddr, .dbg, .pwr] :=
  OnlyChanges.ite (with_pwr ..).within (.refl ..) |>.andIf ((with_pwr ..).within |>.andThen (sqc_areas ..)) |>.andIf (goSafe_areas ..).within

theorem execTemperatureSample_areas (t0 t1 t2 t3 t4 t5 t6 t7 : BitVec 16) (s : State) :
    s.LeadsTo (execTemperatureSample t0 t1 t2 t3 t4 t5 t6 t7 s) [.regs, .out, .ing, .aut, .pkt, .och, .vrm, .hst, .ddr, .dbg, .pwr] :=
  done_leadsTo <| .ite ((each_areas fun _ _ => (setReg_areas ..).within) |>.andThen (setReg_areas ..) |>.andIf (setReg_areas ..).within
      |>.andThen (judgeTemp_areas ..)) (.refl ..)

theorem execTempMaxReset_areas (who : Accessor) (s : State) : s.LeadsTo (execTempMaxReset who s) [.regs, .out, .hst] :=
  done_leadsTo (writeCmd_areas fun _ => (setReg_areas ..).within)

theorem execPauseIgnoreEnd_areas (p : Fin 16) (s : State) : s.LeadsTo (execPauseIgnoreEnd p s) [.out, .pkt] :=
  done_leadsTo <| .ite (setPause_areas ..).within (.refl ..)

/-! ## Boot -/

theorem State.updEngine_areas (s : State) (f : BootEngine → BootEngine) : s.OnlyChanges (s.updEngine f) [.pwr] := (with_pwr ..).within
theorem State.enginePhase_areas (s : State) (p : BootPhase) : s.OnlyChanges (s.enginePhase p) [.pwr] := (updEngine_areas ..).within

theorem State.engineStop_areas (s : State) (outcome : Nat) : s.OnlyChanges (s.engineStop outcome) [.regs, .out, .hst, .pwr] :=
  (enginePhase_areas ..).within |>.andThen (setRf_areas ..) |>.andThen (setRf_areas ..) |>.andThen (sqc_areas ..)

theorem State.copyFails_areas (s : State) (entry res : Nat) : s.OnlyChanges (s.copyFails entry res) [.regs, .out, .cfg, .hst, .pwr] :=
  (discardAll_areas ..).within |>.andThen (setRf_areas ..) |>.andThen (setRf_areas ..) |>.andThen (sqc_areas ..)
    |>.trans (.ite (engineStop_areas ..).within ((updEngine_areas ..).within |>.andThen (setRb_areas ..)))

theorem State.bootDir_areas (s : State) (bs : List Byte) : s.OnlyChanges (s.bootDir bs) [.regs, .out, .cfg, .hst, .pwr] :=
  .ite (updEngine_areas ..).within (copyFails_areas ..).within

theorem State.submitted_areas (r : Option Nat × State) : r.2.OnlyChanges (State.submitted r) [.regs, .out, .hst, .pwr] := by
  unfold State.submitted
  split
  · exact (answer_areas ..).within
  · exact .refl ..

theorem State.bootImage_areas (s : State) (bs : List Byte) : s.OnlyChanges (s.bootImage bs) [.regs, .out, .cfg, .hst, .pwr] :=
  .ite (answer_areas ..).within ((imgBegin_areas ..).within |>.andThen (imgData_areas ..) |>.andThen (imgEnd_areas ..)
      |>.andThen (submitted_areas ..))

theorem State.submitEntry_areas (s : State) (i : Nat) (bs : List Byte) :
    s.OnlyChanges (s.submitEntry i bs) [.regs, .out, .cfg, .sab, .hst, .pwr] := by
  unfold State.submitEntry
  split
  · exact (enginePhase_areas ..).within
  · split
    · exact (bootImage_areas ..).within
    · exact .ite (.refl ..) (pkgBegin_areas ..).within
    · exact .ite (.refl ..) (pkgBegin_areas ..).within
    · exact (answer_areas ..).within

theorem State.bootArm_areas (s : State) : s.OnlyChanges s.bootArm [.regs, .out, .ind, .cfg, .hst, .pwr] :=
  (arm_areas ..).within |>.trans (.ite (enginePhase_areas ..).within (copyFails_areas ..).within)

theorem State.bootFinish_areas (s : State) :
    s.OnlyChanges s.bootFinish [.regs, .out, .ing, .aut, .pkt, .och, .vrm, .cfg, .hst, .ddr, .dbg, .pwr] := by
  unfold State.bootFinish
  refine .ite (copyFails_areas ..).within <| .ite ?_ (engineStop_areas ..).within
  split
  · exact (engineStop_areas ..).within |>.andThen (askState_areas ..)
  · exact (engineStop_areas ..).within |>.andThen (askState_areas ..)
  · exact (engineStop_areas ..).within

theorem State.bootStop_areas (s : State) : s.OnlyChanges s.bootStop [.regs, .out, .ind, .cfg, .hst, .pwr] :=
  OnlyChanges.ite (disarm_areas ..).within (.refl ..) |>.andThen (discardAll_areas ..) |>.andThen (enginePhase_areas ..)
    |>.andThen (updEngine_areas ..) |>.andThen (setRf_areas ..) |>.andThen (setRf_areas ..)

theorem State.bootStep1_areas (s : State) (bs : List Byte) :
    s.OnlyChanges (s.bootStep1 bs) [.regs, .out, .ind, .ing, .aut, .pkt, .och, .vrm, .cfg, .sab, .hst, .ddr, .dbg, .pwr] := by
  unfold State.bootStep1
  split
  · exact .refl ..
  · exact (bootDir_areas ..).within
  · exact (enginePhase_areas ..).within
  · exact (copyFails_areas ..).within
  · exact (submitEntry_areas ..).within
  · exact (bootArm_areas ..).within
  · exact (copyFails_areas ..).within
  · exact (checkBegin_areas ..).within |>.andThen (submitted_areas ..)
  · exact .ite (.refl ..) (bootFinish_areas ..).within

theorem execBootEngineRun_areas (bytes : List Byte) (s : State) :
    s.LeadsTo (execBootEngineRun bytes s) [.regs, .out, .ind, .ing, .aut, .pkt, .och, .vrm, .cfg, .sab, .hst, .ddr, .dbg, .pwr] :=
  done_leadsTo <| .ite (.refl ..) <| .ite (bootStop_areas ..).within (bootStep1_areas ..).within

theorem State.bootAbort_areas (s : State) (val : Word) : s.OnlyChanges (s.bootAbort val) [.regs, .out, .ind, .cfg, .hst, .pwr] :=
  .ite (.refl ..) <| .ite (updEngine_areas ..).within (bootStop_areas ..).within

theorem execBootAbort_areas (who : Accessor) (val : Word) (s : State) : s.LeadsTo (execBootAbort who val s) [.regs, .out, .ind, .cfg, .hst, .pwr] :=
  done_leadsTo (writeCmd_areas fun _ => (bootAbort_areas ..).within)

/-! ## Regs -/

theorem State.takeEvent_areas (s : State) (base : Nat → Nat) : s.OnlyChanges (s.takeEvent base).2 [.regs] := by
  unfold State.takeEvent
  split
  · exact (setRb_areas ..).within
  · exact .refl ..

theorem State.takeOf_areas (s : State) (who : Accessor) (off : Nat) : s.OnlyChanges (s.takeOf who off).2 [.regs, .och, .clu, .vrm] := by
  refine .ite_snd (.ite_snd ?_ (.refl ..)) <| .ite_snd (.ite_snd (mbTakeNow_areas ..).within (.refl ..)) <| .ite_snd ?_ (.refl ..)
  · split
    · exact (takeEvent_areas ..).within
    · exact (fwdPop_areas ..).within
    · exact (disPop_areas ..).within
    · exact (takeEvent_areas ..).within
    · exact .refl ..
  · split
    · exact (fltPop_areas ..).within
    · exact (dlPop_areas ..).within
    · exact (takeEvent_areas ..).within
    · exact .refl ..

theorem State.readLow_areas (s : State) (who : Accessor) (off n : Nat) : s.OnlyChanges (s.readLow who off n) [.regs, .rdShadow] :=
  (with_rdShadow ..).within |>.andIf (each_areas fun _ _ => (setReg_areas ..).within)

theorem State.readReg_areas (s : State) (who : Accessor) (off : Nat) :
    s.OnlyChanges (s.readReg who off).2 [.regs, .rdShadow, .och, .clu, .vrm] := by
  refine .ite_snd (.refl ..) ?_
  split
  · exact .refl ..
  · split
    · exact .refl ..
    · exact (takeOf_areas ..).within
    · split
      · exact (readLow_areas ..).within
      · exact .refl ..
      · exact .refl ..

theorem execWideRegisterLowRead_areas (who : Accessor) (off : BitVec 21) (s : State) :
    s.LeadsTo (execWideRegisterLowRead who off s) [.regs, .rdShadow, .out, .och, .clu, .vrm] := by
  refine done_leadsTo ?_
  split
  · exact (readReg_areas ..).within |>.andThen (emit_areas ..)
  · exact .refl ..

theorem execCluEvtTake_areas (who : Accessor) (c : Fin 6) (s : State) : s.LeadsTo (execCluEvtTake who c s) [.regs, .out] :=
  done_leadsTo (rttRead_areas (takeEvent_areas ..).within)

theorem execEvtAlarmTake_areas (who : Accessor) (s : State) : s.LeadsTo (execEvtAlarmTake who s) [.regs, .out] :=
  done_leadsTo (rttRead_areas (takeEvent_areas ..).within)

theorem execPaiPeerEvtTake_areas (who : Accessor) (s : State) : s.LeadsTo (execPaiPeerEvtTake who s) [.regs, .out] :=
  done_leadsTo (rttRead_areas (takeEvent_areas ..).within)

theorem State.goWrite_areas {s : State} {off : Nat} {val : Word} {f : State → State} {l : List Area} (h : ∀ x, State.OnlyChanges x (f x) l)
    (hl : [.regs] ⊆ l := by decide) : s.OnlyChanges (s.goWrite off val f) l := .ite (h s) ((setReg_areas ..).within hl)

theorem State.ochCmd_areas (s : State) (who : Accessor) (val : Word) :
    s.OnlyChanges (s.ochCmd who val) [.regs, .out, .pkt, .och, .hst, .ddr, .dbg] := by
  unfold State.ochCmd
  split
  · exact (execOchQuery_areas ..).after.within
  · exact (execOchCmdFree_areas ..).after.within
  · exact (execOchReclaim_areas ..).after.within
  · exact (ochResult_areas ..).within

theorem State.vrmCmd_areas (s : State) (who : Accessor) (val : Word) :
    s.OnlyChanges (s.vrmCmd who val) [.regs, .out, .ing, .aut, .pkt, .och, .vrm, .hst, .ddr, .dbg] :=
  .ite (execVrmReset_areas ..).after.within ((setReg_areas ..).within |>.andThen (setReg_areas ..))

theorem State.sysReset_areas (s : State) (who : Accessor) (val : Word) : s.OnlyChanges (s.sysReset who val) (Area.butOf [.up, .fv]) :=
  .ite (execSysResetDevice_areas ..).after.within (execSysResetCluster_areas ..).after.within

theorem State.dmaCtrl_areas (s : State) (d : Nat) (val : Word) : s.OnlyChanges (s.dmaCtrl d val) [.regs] :=
  OnlyChanges.ite (dmaStop_areas ..).within (.refl ..) |>.andIf (dmaStart_areas ..).within

theorem State.putFabric_areas (s : State) (who : Accessor) (off : Nat) (val : Word) : s.OptIn (s.putFabric who off val) (Area.butOf [.up]) := by
  unfold State.putFabric
  split
  · exact (stateReq_areas ..).within
  · exact (sysReset_areas ..).within
  · exact (bootAbort_areas ..).within
  · exact (execTempMaxReset_areas ..).after.within
  · exact OnlyChanges.some <| .ite ((setRb_areas ..).within |>.andThen (restartTime_areas ..)) ((setRb_areas ..).within)
  · exact goWrite_areas fun x => (clsRun_areas ..).within
  · exact goWrite_areas fun x => (clsRun_areas ..).within
  · exact (execStrangerSelect_areas ..).after.within
  · exact (execStrangerClear_areas ..).after.within
  · exact (execAutCtxSelect_areas ..).after.within
  · exact OnlyChanges.some <| .ite ((resetWindow_areas ..).within) (.refl ..)
  · exact (execStreamSelect_areas ..).after.within
  · exact goWrite_areas fun x => (ochCmd_areas ..).within
  · exact goWrite_areas fun x => (fwdRun_areas ..).within
  · exact goWrite_areas fun x => (fwdRun_areas ..).within
  · exact goWrite_areas fun x => (vrmCmd_areas ..).within
  · exact (execVrmPcbSelect_areas ..).after.within
  · exact goWrite_areas fun x => (fioRun_areas ..).within
  · exact (unitSelect_areas ..).within
  · exact goWrite_areas fun x => (recCmd_areas ..).within
  · exact (pmuCtrl_areas ..).within
  · exact goWrite_areas fun x => (dbgRun_areas ..).within
  · exact (dbgCtxSel_areas ..).within
  · exact (jtagTry_areas ..).within
  · exact .ite (setReg_areas ..).within <| .ite (setReg_areas ..).within <| .ite (dmaCtrl_areas ..).within <|
      .ite (OnlyChanges.refl ..).some trivial

theorem State.putCluster_areas (s : State) (who : Accessor) (c off : Nat) (val : Word) :
    s.OptIn (s.putCluster who c off val) [.regs, .out, .clu, .cpx, .hst, .pai, .ddr, .dbg] := by
  unfold State.putCluster
  refine .ite ?_ <| .ite ?_ <| .ite (tcbSelect_areas ..).within <| .ite (OnlyChanges.some ?_) <| .ite (bpWrite_areas ..).within <|
    .ite (.ite ?_ <| .ite ?_ (OnlyChanges.refl ..).some) trivial
  · exact goWrite_areas fun x => (ctlRun_areas ..).within
  · exact goWrite_areas fun x => (dspRun_areas ..).within
  · exact .ite (chnAbort_areas ..).within (.refl ..)
  · exact mbWrite_areas fun x => (mbStage_areas ..).within
  · exact mbWrite_areas fun x => (releaseBy_areas ..).within |>.andThen (mbPostNow_areas ..)

theorem State.putWide_areas (s : State) (lo i n : Nat) (val : Word) :
    s.OnlyChanges (s.putWide lo i n val) [.time, .regs, .wrHold, .out, .ind, .clu, .hst] := by
  refine .ite (with_wrHold ..).within ?_
  refine .andThen ?_ (with_wrHold ..)
  refine .ite (timeSetWrite_areas ..).within ?_
  refine .each (setReg_areas ..).within fun _ _ => ?_
  split
  · exact (setReg_areas ..).within
  · exact .refl ..

theorem State.putReg_areas (s : State) (who : Accessor) (off : Nat) (val0 : Word) : s.OnlyChanges (s.putReg who off val0) (Area.butOf [.up]) := by
  unfold State.putReg
  dsimp only
  split
  next x e =>
    refine State.OptIn.of_some ?_ e
    exact .ite (putCluster_areas ..).within (putFabric_areas ..).within
  · split
    · exact (putWide_areas ..).within
    · exact (setReg_areas ..).within

theorem State.sqcWrite_areas (s : State) (off : Nat) (val : Word) : s.OnlyChanges (s.sqcWrite off val) [.regs] :=
  .ite (setReg_areas ..).within (.refl ..)

theorem State.writeReg_areas (s : State) (who : Accessor) (off : Nat) (val : Word) : s.OnlyChanges (s.writeReg who off val) (Area.butOf [.up]) := by
  unfold State.writeReg
  split
  · exact .refl ..
  · refine .ite (denyWrite_areas ..).within ?_
    split
    · exact .refl ..
    · exact .refl ..
    · exact (sqcWrite_areas ..).within
    · exact .ite (lockedWrite_areas ..).within (setReg_areas ..).within
    · exact (putReg_areas ..).within

theorem execRegisterWrite_areas (who : Accessor) (off : BitVec 21) (val : Word) (s : State) :
    s.LeadsTo (execRegisterWrite who off val s) (Area.butOf [.up]) :=
  done_leadsTo (writeReg_areas ..).within

theorem execJtagDbgacc_areas (write : Bool) (off : BitVec 21) (val : Word) (s : State) :
    s.LeadsTo (execJtagDbgacc write off val s) (Area.butOf [.up]) :=
  done_leadsTo ((emit_areas ..).within |>.trans (.ite (writeReg_areas ..).within ((readReg_areas ..).within |>.andThen (with_dbg ..))))

/-! ## Mem -/

theorem State.countSplit_areas (s : State) (k o n : Nat) (a : PmuAttr) : s.OnlyChanges (s.countSplit k o n a) [.regs] :=
  .ite ((pmuCore_areas ..).within |>.andThen (pmuCore_areas ..)) (.refl ..)

theorem State.countAccess_areas (s : State) (k a n : Nat) (load : Bool) (ps : List SramPart) :
    s.OnlyChanges (s.countAccess k a n load ps) [.regs] :=
  OnlyChanges.ite ((pmuCore_areas ..).within |>.each (fun _ _ => (pmuClu_areas ..).within)) (.ite (pmuCore_areas ..).within (.refl ..))
    |>.andThen (countSplit_areas ..)

theorem State.OnlyChanges.word {s t : State} {w : Word} {l : List Area} (h : s.OnlyChanges t l) : s.LoadIn (.word w t) l := h

theorem State.loadSram_areas (s : State) (k a n : Nat) : s.LoadIn (s.loadSram k a n) [.regs] := by
  unfold State.loadSram
  split
  · exact trivial
  · exact .ite ((countAccess_areas ..).within |>.each (fun _ _ => (inc_areas ..).within)) trivial

theorem State.readProv_areas (s : State) (k : Nat) (allow : Bool) : s.OnlyChanges (s.readProv k allow) [.clu] := (updCtx_areas ..).within

theorem State.readProvCell_areas (s : State) (k cs key : Nat) : s.OnlyChanges (s.readProvCell k cs key) [.clu] := by
  unfold State.readProvCell
  split
  · exact (readProv_areas ..).within
  · exact (readProv_areas ..).within |>.andIf (updTask_areas ..).within

theorem State.loadPlane_areas (s : State) (k o n : Nat) : s.LoadIn (s.loadPlane k o n) [.regs, .spe, .clu] := by
  refine .ite trivial (.ite (.ite trivial (OnlyChanges.word (.ite ?_ ?_))) (.ite trivial (OnlyChanges.refl ..).word))
  · exact (fixCell_areas ..).within |>.andThen (readProvCell_areas ..)
  · exact (fixCell_areas ..).within

theorem State.readPacket_areas (s : State) (k f : Nat) : s.OnlyChanges (s.readPacket k f) [.clu] := .ite (readProv_areas ..).within (.refl ..)

theorem State.loadPacket_areas (s : State) (k o n : Nat) : s.LoadIn (s.loadPacket k o n) [.regs, .clu] := by
  unfold State.loadPacket
  split
  · exact trivial
  · exact .ite trivial (.ite trivial ((readPacket_areas ..).within |>.andThen (countSplit_areas ..)))

theorem State.loadMeta_areas (s : State) (k o n : Nat) : s.LoadIn (s.loadMeta k o n) [.regs, .clu] := by
  unfold State.loadMeta
  split
  · exact trivial
  · exact .ite trivial (OnlyChanges.ite (readPacket_areas ..).within (.refl ..) |>.andThen (countSplit_areas ..))

theorem State.mailRead_areas (s : State) (k m r : Nat) : s.OnlyChanges (s.mailRead k m r).2 [.clu] := by
  refine .ite_snd (.refl ..) ?_
  split
  · exact .refl ..
  · exact .ite_snd (.refl ..) (mbTakeNow_areas ..).within
  · exact .refl ..
  · exact .refl ..

theorem State.lockRead_areas (s : State) (k o : Nat) : s.ReadIn (s.lockRead k o) [.regs, .out, .clu, .hst] :=
  .ite (.ite_snd (lockTry_areas ..).within (.refl ..)) <| .ite (.ite_snd (lockTry_areas ..).within (.refl ..)) <|
    .ite (.ite (mailRead_areas ..).within trivial) <| .ite (.refl ..) <| .ite (.refl ..) <| .ite (.refl ..) <|
    .ite (.ite (.refl ..) trivial) trivial

theorem State.loadAt_areas (s : State) (t : ThreadId) (a n : Nat) :
    s.LoadIn (s.loadAt t a n) [.regs, .rdShadow, .out, .spe, .och, .clu, .vrm, .hst] := by
  unfold State.loadAt
  dsimp only
  cases windowOf (tidNat t) a with
  | sram => exact (loadSram_areas ..).within
  | plane o => exact (loadPlane_areas ..).within
  | packet o => exact (loadPacket_areas ..).within
  | metadata o => exact (loadMeta_areas ..).within
  | lock o =>
    refine .ite ?_ trivial
    split
    next e => exact ((lockRead_areas ..).of_some e).within.word
    · exact trivial
  | reg off => exact .ite (readReg_areas ..).within.word trivial
  | none => exact trivial

theorem State.storeSram_areas (s : State) (k a : Nat) (bs : List Byte) : s.StoreIn (s.storeSram k a bs) [.regs, .clu] := by
  unfold State.storeSram
  split
  · exact trivial
  · exact .ite trivial (.ite trivial ((countAccess_areas ..).within |>.andThen (updThr_areas ..)))

theorem State.storePacket_areas (s : State) (k o : Nat) (bs : List Byte) : s.StoreIn (s.storePacket k o bs) [.regs, .pkt] := by
  unfold State.storePacket
  split
  · exact trivial
  · exact .ite trivial ((setFrame_areas ..).within |>.andThen (countSplit_areas ..))

theorem State.storeMeta_areas (s : State) (k o : Nat) (bs : List Byte) : s.StoreIn (s.storeMeta k o bs) [.regs, .pkt] := by
  unfold State.storeMeta
  split
  · exact trivial
  · exact .ite trivial ((setFrame_areas ..).within |>.andThen (countSplit_areas ..))

theorem State.mailStore_areas (s : State) (k m r : Nat) (v : Word) : s.OptIn (s.mailStore k m r v) [.regs, .out, .clu, .hst, .pai, .ddr] :=
  .ite (.ite (OnlyChanges.some <| .ite (mbPostNow_areas ..).within (mbStage_areas ..).within) trivial)
    (OnlyChanges.refl ..).some

theorem State.fetchStore_areas (s : State) (c f part w : Nat) (v : Word) : s.OnlyChanges (s.fetchStore c f part w v) [.regs, .out, .clu, .hst] :=
  .ite (OnlyChanges.ite (.refl ..) (setFetchU_areas ..).within |>.andThen (fetchStart_areas ..)) (.ite (.refl ..) (setFetchU_areas ..).within)

theorem State.lockStore_areas (s : State) (k o : Nat) (v : Word) : s.OptIn (s.lockStore k o v) [.regs, .out, .clu, .hst, .pai, .ddr] :=
  .ite (.ite (mailStore_areas ..).within trivial) (.ite (.ite (fetchStore_areas ..).within trivial) trivial)

theorem State.storeAt_areas (s : State) (t : ThreadId) (a : Nat) (bs : List Byte) : s.StoreIn (s.storeAt t a bs) (Area.butOf [.up]) := by
  have hd : s.OnlyChanges (s.drainStores (tidNat t)) (Area.butOf [.up]) := (drainStores_areas ..).within
  unfold State.storeAt
  dsimp only
  cases windowOf (tidNat t) a with
  | sram => exact (storeSram_areas ..).within
  | plane o => exact trivial
  | packet o => exact hd.andThenStore (storePacket_areas ..)
  | metadata o => exact hd.andThenStore (storeMeta_areas ..)
  | lock o =>
    refine .ite ?_ trivial
    split
    next e => exact hd.andThen ((lockStore_areas ..).of_some e)
    · exact trivial
  | reg off => exact .ite (hd.andThen (writeReg_areas ..)) trivial
  | none => exact trivial

theorem State.loadOp_areas (s : State) (t : ThreadId) (i : Instr) (a3 : Fin 2) (p : Bool) (d6 : BitVec 6) (size : Nat) (ext : Nat → Acc) :
    s.LeadsTo (s.loadOp t i a3 p d6 size ext) [.regs, .rdShadow, .fv, .out, .spe, .pkt, .och, .clu, .vrm, .cfg, .hst, .ddr, .dbg] := by
  unfold State.loadOp
  dsimp only
  refine done_leadsTo ?_
  refine issue_areas fun _ => ?_
  split
  · exact trivial
  · exact (setIx_areas ..).within
  next z e2 =>
    exact (setIx_areas ..).within |>.andThen ((loadAt_areas ..).of_bytes e2) |>.andThen (pendRes_areas ..)

theorem State.storeOp_areas (s : State) (t : ThreadId) (i : Instr) (a3 : Fin 2) (p : Bool) (d6 : BitVec 6) (size : Nat) :
    s.LeadsTo (s.storeOp t i a3 p d6 size) (Area.butOf [.up]) := by
  unfold State.storeOp
  dsimp only
  refine done_leadsTo ?_
  refine issue_areas fun _ => ?_
  split
  · exact trivial
  · exact (setIx_areas ..).within
  next z e2 =>
    exact (setIx_areas ..).within |>.andThen ((storeAt_areas ..).of_done e2)

theorem State.crcBytes_areas (s : State) (t : ThreadId) (a n : Nat) :
    s.LoadIn (s.crcBytes t a n) [.regs, .rdShadow, .out, .spe, .och, .clu, .vrm, .hst] := by
  unfold State.crcBytes
  split
  · exact (loadAt_areas ..).within
  · exact (loadAt_areas ..).within
  · exact (loadAt_areas ..).within
  · exact trivial
  · exact trivial

theorem execCrcm_areas (t : ThreadId) (p : Fin 4) (a2 : Fin 2) (n1 : Fin 8) (s : State) :
    s.LeadsTo (execCrcm t p a2 n1 s) [.regs, .rdShadow, .fv, .out, .spe, .pkt, .och, .clu, .vrm, .cfg, .hst, .ddr, .dbg] := by
  unfold execCrcm
  dsimp only
  refine done_leadsTo ?_
  refine issue_areas fun _ => ?_
  split
  · exact trivial
  · split
    · exact trivial
    · exact .refl ..
    next z e2 =>
      exact ((crcBytes_areas ..).of_bytes e2).within |>.andThen (setIx_areas ..) |>.andThen (pendRes_areas ..)

theorem execVwait_areas (t : ThreadId) (gs : Fin 8) (s : State) :
    s.LeadsTo (execVwait t gs s) [.regs, .fv, .out, .pkt, .clu, .cfg, .hst, .ddr, .dbg] := by
  refine done_leadsTo ?_
  refine issue_areas fun _ => ?_
  split
  · exact .refl ..
  · exact .ite trivial (setG_areas ..).within

theorem execPmw_areas (t : ThreadId) (gs : Fin 8) (s : State) : s.LeadsTo (execPmw t gs s) [.regs, .fv, .out, .pkt, .clu, .cfg, .hst, .ddr, .dbg] :=
  done_leadsTo (issue_areas fun _ => .ite (.refl ..) (.ite (inc_areas ..).within ((pmemSet_areas ..).within |>.andThen (inc_areas ..))))

theorem execPmr_areas (t : ThreadId) (gs : Fin 8) (s : State) : s.LeadsTo (execPmr t gs s) [.regs, .fv, .out, .pkt, .clu, .cfg, .hst, .ddr, .dbg] :=
  done_leadsTo (issue_areas fun _ => (pendRes_areas ..).within)

theorem execUndefinedEncoding_areas (t : ThreadId) (s : State) :
    s.LeadsTo (execUndefinedEncoding t s) [.regs, .fv, .out, .pkt, .clu, .cfg, .hst, .ddr, .dbg] := by
  refine done_leadsTo ?_
  refine .ite (.refl ..) ?_
  split
  · exact (faultAt_areas ..).within
  · exact .ite (.refl ..) ((countIssue_areas ..).within |>.andThen (dropSample_areas ..) |>.andThen (faultAt_areas ..))

/-! ## Mgt -/

theorem execMgtDoorbell_areas (link : Fin 2) (frame : List Byte) (s : State) : s.LeadsTo (execMgtDoorbell link frame s) [.regs, .out, .hst] :=
  done_leadsTo <| .ite (.refl ..) (.ite (setRb_areas ..).within ((setReg_areas ..).within |>.andThen (mgtArrive_areas ..)))

theorem State.dropPartial_areas (s : State) (n : Nat) : s.OnlyChanges (s.dropPartial n) [.regs, .hst] := by
  unfold State.dropPartial
  split
  · exact (updMport_areas ..).within |>.andThen (inc_areas ..)
  · exact .refl ..

theorem State.mgtUnit_areas (s0 : State) (n : Nat) (src : BitVec 48) (unit : List Byte) :
    s0.OnlyChanges (s0.mgtUnit n src unit) [.regs, .out, .hst] := by
  unfold State.mgtUnit
  dsimp only
  split
  · refine .trans (.andIf (.refl ..) (dropPartial_areas ..).within) (.ite ?_ (updMport_areas ..).within)
    exact (updMport_areas ..).within |>.andThen (mgtArrive_areas ..)
  · refine .trans ?_ (.ite (.refl ..) (.ite (mgtArrive_areas ..).within (updMport_areas ..).within))
    exact .trans (.andIf (.refl ..) (dropPartial_areas ..).within) (.ite (dropPartial_areas ..).within (inc_areas ..).within)

theorem execMgtUnitRx_areas (port : Fin 6) (src : BitVec 48) (crcGood : Bool) (unit : List Byte) (s : State) :
    s.LeadsTo (execMgtUnitRx port src crcGood unit s) [.regs, .out, .hst] :=
  done_leadsTo <| .ite (.refl ..) (.ite ((updMport_areas ..).within |>.andThen (inc_areas ..)) (mgtUnit_areas ..).within)

theorem execPairMgtRx_areas (a0 : PairCell (List Byte)) (s : State) : s.LeadsTo (execPairMgtRx a0 s) [.regs, .out, .hst] :=
  done_leadsTo <| .ite (inc_areas ..).within <| .ite (mgtUnit_areas ..).within (.refl ..)

theorem execMgtFrameTimeout_areas (port : Fin 6) (s : State) : s.LeadsTo (execMgtFrameTimeout port s) [.regs, .out, .hst] := by
  refine done_leadsTo ?_
  split
  · exact .ite (dropPartial_areas ..).within (.refl ..)
  · exact .refl ..

theorem execSmbusBlockRead_areas (s : State) : s.LeadsTo (execSmbusBlockRead s) [.out, .hst] := by
  refine done_leadsTo ?_
  split
  · exact (updMport_areas ..).within |>.andThen (emit_areas ..)
  · exact (emit_areas ..).within

theorem State.freeNonce_areas (s : State) : s.OnlyChanges (s.freeNonce).2 [.fv] := (with_fv ..).within

theorem State.freeSid_areas (s : State) : s.OnlyChanges (s.freeSid).2 [.fv] := by
  unfold State.freeSid
  dsimp only
  exact (freeN_areas ..).within

theorem State.openAnswer_areas (s : State) (n : Nat) (f : MgtFrame) (sid : Word) (res : Nat) (pay : List Byte) :
    s.OnlyChanges (s.openAnswer n f sid res pay) [.regs, .out, .hst] :=
  (updMport_areas ..).within |>.andThen (mgtSend_areas ..)

theorem execOpenReq_areas (port : Fin 6) (s : State) : s.LeadsTo (execOpenReq port s) [.regs, .fv, .out, .hst] := by
  refine done_leadsTo ?_
  refine onCmd_areas fun _ _ => ?_
  refine .ite ((updMport_areas ..).within |>.andThen (openAnswer_areas ..)) ?_
  split
  · exact (updMport_areas ..).within |>.andThen (openAnswer_areas ..)
  · exact (updMport_areas ..).within |>.andThen (freeSid_areas ..) |>.andThen (freeNonce_areas ..) |>.andThen (updMport_areas ..)
      |>.andThen (openAnswer_areas ..)

theorem State.authFail_areas (s : State) (n : Nat) : s.OnlyChanges (s.authFail n) [.regs, .out, .hst] :=
  OnlyChanges.ite (updMport_areas ..).within (updMport_areas ..).within |>.andThen (inc_areas ..) |>.andThen (sqc_areas ..)

theorem State.openSession_areas (s : State) (n : Nat) (o : Opening) (c : Cred) : s.OnlyChanges (s.openSession n o c) [.regs, .out, .hst] :=
  (endSession_areas ..).within |>.andThen (updMport_areas ..)

theorem execOpenProof_areas (port : Fin 6) (s : State) : s.LeadsTo (execOpenProof port s) [.regs, .out, .hst] := by
  refine done_leadsTo ?_
  refine onCmd_areas fun _ _ => ?_
  split
  · exact (openAnswer_areas ..).within
  · exact .ite (openAnswer_areas ..).within
      ((updMport_areas ..).within
        |>.trans (.ite ((openSession_areas ..).within |>.andThen (openAnswer_areas ..))
          ((authFail_areas ..).within |>.andThen (openAnswer_areas ..))))

theorem execOpeningTimeout_areas (port : Fin 6) (s : State) : s.LeadsTo (execOpeningTimeout port s) [.out, .hst] := by
  refine done_leadsTo ?_
  split
  · exact .ite (updMport_areas ..).within (.refl ..)
  · exact .refl ..

theorem execLockoutExpire_areas (port : Fin 6) (s : State) : s.LeadsTo (execLockoutExpire port s) [.out, .hst] := by
  refine done_leadsTo ?_
  split
  · exact .ite (updMport_areas ..).within (.refl ..)
  · exact .refl ..

theorem execSessionIdleTimeout_areas (port : Fin 6) (s : State) : s.LeadsTo (execSessionIdleTimeout port s) [.regs, .out, .hst] := by
  refine done_leadsTo ?_
  split
  · exact .ite (endSession_areas ..).within (.refl ..)
  · exact .refl ..

theorem execClose_areas (port : Fin 6) (s : State) : s.LeadsTo (execClose port s) [.regs, .out, .hst] :=
  done_leadsTo (onCmd_areas fun _ _ => (respond_areas ..).within |>.andThen (endSession_areas ..))

theorem execPing_areas (port : Fin 6) (s : State) : s.LeadsTo (execPing port s) [.regs, .out, .hst] :=
  done_leadsTo (onCmd_areas fun _ _ => (respond_areas ..).within)

theorem execRegRead_areas (port : Fin 6) (s : State) : s.LeadsTo (execRegRead port s) [.regs, .rdShadow, .out, .och, .clu, .vrm, .hst] := by
  refine done_leadsTo (onCmd_areas fun _ x => ?_)
  refine .andThen (OnlyChanges.foldl_snd (.refl x _) fun p _ => ?_) (respond_areas ..)
  dsimp only
  exact (readReg_areas ..).within

theorem execRegWrite_areas (port : Fin 6) (s : State) : s.LeadsTo (execRegWrite port s) (Area.butOf [.up]) := by
  refine done_leadsTo (onCmd_areas fun f x => ?_)
  exact .andThen (.foldl_snd (.refl ..) fun y _ => (writeReg_areas ..).within) (respond_areas ..)

theorem execSqcClear_areas (port : Fin 6) (s : State) : s.LeadsTo (execSqcClear port s) (Area.butOf [.up]) :=
  done_leadsTo (onCmd_areas fun _ _ => (readReg_areas ..).within |>.andIf (writeReg_areas ..).within |>.andThen (respond_areas ..))

/-! ## Strobes -/

theorem State.evaluate_areas (s : State) (n : Nat) :
    s.OnlyChanges (s.evaluate n) [.regs, .out, .ind, .ing, .aut, .spe, .pkt, .och, .clu, .vrm, .hst, .ddr, .dbg] :=
  (setAclk_areas ..).within |>.andThen (setReg_areas ..) |>.andThen (setReg_areas ..) |>.andThen (latchHeads_areas ..)
    |>.andThen (wakeEval_areas ..) |>.andThen (strobeVoter_areas ..)

theorem execEvalStrobe_areas (n : Fin 16) (s : State) :
    s.LeadsTo (execEvalStrobe n s) [.regs, .out, .ind, .ing, .aut, .spe, .pkt, .och, .clu, .vrm, .hst, .ddr, .dbg] :=
  done_leadsTo <| .ite (evaluate_areas ..).within (.refl ..)

theorem State.strikeTarget_areas (s : State) (target idx : Nat) :
    s.OnlyChanges (s.strikeTarget target idx) [.regs, .out, .ing, .aut, .pkt, .och, .vrm, .hst, .ddr] := by
  unfold State.strikeTarget
  split
  · exact (pubOnce_areas ..).within
  · exact (instantOut_areas ..).within
  · exact (recTrigger_areas ..).within
  · exact .refl ..

theorem State.fireUnit_areas (s : State) (u : Nat) (a : ArmedInstant) :
    s.OnlyChanges (s.fireUnit u a) [.regs, .out, .ind, .ing, .aut, .pkt, .och, .vrm, .hst, .ddr] :=
  (setUnit_areas ..).within |>.andThen (setRf_areas ..) |>.andThen (sqcEach_areas ..) |>.andIf (deliver_areas ..).within
    |>.andThen (strikeTarget_areas ..)

theorem execGeneralInstantFire_areas (u : Fin 32) (s : State) :
    s.LeadsTo (execGeneralInstantFire u s) [.regs, .out, .ind, .ing, .aut, .pkt, .och, .vrm, .hst, .ddr] := by
  refine done_leadsTo ?_
  split
  · exact .ite (fireUnit_areas ..).within (.refl ..)
  · exact .refl ..

/-! ## Every command -/

/-- The meaning of every command ends in a next state, within the areas that areasOf names. -/
theorem exec_leadsTo (s : State) : ∀ c, s.LeadsTo (exec c s) (areasOf c)
  | .registerWrite .. => execRegisterWrite_areas ..
  | .wideRegisterLowRead .. => execWideRegisterLowRead_areas ..
  | .servoUpdate => execServoUpdate_areas ..
  | .timeSetStepRequest .. => execTimeSetStepRequest_areas ..
  | .timeRestart .. => execTimeRestart_areas ..
  | .ptpSyncRx .. => execPtpSyncRx_areas ..
  | .ptpFollowUpRx .. => execPtpFollowUpRx_areas ..
  | .ptpAnnounceRx .. => execPtpAnnounceRx_areas ..
  | .ptpPdelayReqRx .. => execPtpPdelayReqRx_areas ..
  | .ptpPdelayRespRx .. => execPtpPdelayRespRx_areas ..
  | .ptpManagementRx .. => execPtpManagementRx_areas ..
  | .ptpSyncTx .. => execPtpSyncTx_areas ..
  | .ptpAnnounceTx .. => execPtpAnnounceTx_areas ..
  | .ptpPdelayReqTx .. => execPtpPdelayReqTx_areas ..
  | .ptpSyncTimeout => execPtpSyncTimeout_areas ..
  | .ptpAnnounceTimeout => execPtpAnnounceTimeout_areas ..
  | .tinEdgeCapture .. => execTinEdgeCapture_areas ..
  | .ppsInputTimeout .. => execPpsInputTimeout_areas ..
  | .irigFrameRx .. => execIrigFrameRx_areas ..
  | .holdoverExpire => execHoldoverExpire_areas ..
  | .holdoverCounterCopy => execHoldoverCounterCopy_areas ..
  | .ppsOutPulse .. => execPpsOutPulse_areas ..
  | .aclkZeroCrossing .. => execAclkZeroCrossing_areas ..
  | .aclkSampleLoss .. => execAclkSampleLoss_areas ..
  | .aclkFixedStart .. => execAclkFixedStart_areas ..
  | .aclkHoldExpire .. => execAclkHoldExpire_areas ..
  | .evalStrobe .. => execEvalStrobe_areas ..
  | .generalInstantFire .. => execGeneralInstantFire_areas ..
  | .commitStrobe => execCommitStrobe_areas ..
  | .portLinkUp .. => execPortLinkUp_areas ..
  | .portLinkDown .. => execPortLinkDown_areas ..
  | .frameHeadRx .. => execFrameHeadRx_areas ..
  | .parseWalk .. => execParseWalk_areas ..
  | .classify .. => execClassify_areas ..
  | .frameOversizeCut .. => execFrameOversizeCut_areas ..
  | .frameTailRx .. => execFrameTailRx_areas ..
  | .dupEntryExpire .. => execDupEntryExpire_areas ..
  | .supervisionFrameRx .. => execSupervisionFrameRx_areas ..
  | .supervisionFrameTx .. => execSupervisionFrameTx_areas ..
  | .nodeForget .. => execNodeForget_areas ..
  | .hsrPassThrough .. => execHsrPassThrough_areas ..
  | .preemptVerify .. => execPreemptVerify_areas ..
  | .plcaBeacon .. => execPlcaBeacon_areas ..
  | .t1sPlcaFail .. => execT1sPlcaFail_areas ..
  | .t1sPlcaRecover .. => execT1sPlcaRecover_areas ..
  | .t1sCollision .. => execT1sCollision_areas ..
  | .t1sJabberCutoff .. => execT1sJabberCutoff_areas ..
  | .clsLookup .. => execClsLookup_areas ..
  | .clsInsert .. => execClsInsert_areas ..
  | .clsUpdate .. => execClsUpdate_areas ..
  | .clsDelete .. => execClsDelete_areas ..
  | .clsRead .. => execClsRead_areas ..
  | .strangerSelect .. => execStrangerSelect_areas ..
  | .strangerClear .. => execStrangerClear_areas ..
  | .verdict .. => execVerdict_areas ..
  | .prevHoldExpire => execPrevHoldExpire_areas ..
  | .resetWindow who val => execResetWindow_areas who val s
  | .autCtxSelect .. => execAutCtxSelect_areas ..
  | .cellDue .. => execCellDue_areas ..
  | .streamSelect .. => execStreamSelect_areas ..
  | .laneEntry .. => execLaneEntry_areas ..
  | .stageDispatch .. => execStageDispatch_areas ..
  | .relNext .. => execRelNext_areas ..
  | .relExit .. => execRelExit_areas ..
  | .relDrop .. => execRelDrop_areas ..
  | .relRecirc .. => execRelRecirc_areas ..
  | .stageExit .. => execStageExit_areas ..
  | .stageOverrun .. => execStageOverrun_areas ..
  | .laneExit .. => execLaneExit_areas ..
  | .egressStart .. => execEgressStart_areas ..
  | .egressEnd .. => execEgressEnd_areas ..
  | .pauseRx .. => execPauseRx_areas ..
  | .pauseQuantaExpire .. => execPauseQuantaExpire_areas ..
  | .pauseFlush .. => execPauseFlush_areas ..
  | .qhwmReset .. => execQhwmReset_areas ..
  | .ochQuery .. => execOchQuery_areas ..
  | .ochCmdFree .. => execOchCmdFree_areas ..
  | .ochReclaim .. => execOchReclaim_areas ..
  | .poolLowReset .. => execPoolLowReset_areas ..
  | .fwdLqPop .. => execFwdLqPop_areas ..
  | .fwdLookup .. => execFwdLookup_areas ..
  | .fwdInsert .. => execFwdInsert_areas ..
  | .fwdUpdate .. => execFwdUpdate_areas ..
  | .fwdDelete .. => execFwdDelete_areas ..
  | .fwdRead .. => execFwdRead_areas ..
  | .fwdFlush .. => execFwdFlush_areas ..
  | .fwdClear .. => execFwdClear_areas ..
  | .agingSweepVisit => execAgingSweepVisit_areas ..
  | .faultTimeoutKill .. => execFaultTimeoutKill_areas ..
  | .ctlResume .. => execCtlResume_areas ..
  | .ctlKill .. => execCtlKill_areas ..
  | .ctlAbortWait .. => execCtlAbortWait_areas ..
  | .supervisorInterrupt .. => execSupervisorInterrupt_areas ..
  | .maskMaxExceeded .. => execMaskMaxExceeded_areas ..
  | .deadlockDetect .. => execDeadlockDetect_areas ..
  | .deadlockEscalate .. => execDeadlockEscalate_areas ..
  | .fltPop .. => execFltPop_areas ..
  | .dlPop .. => execDlPop_areas ..
  | .chnAbort .. => execChnAbort_areas ..
  | .resultWriteback .. => execResultWriteback_areas ..
  | .storeVisible .. => execStoreVisible_areas ..
  | .ld .. => execLd_areas ..
  | .ldu .. => execLdu_areas ..
  | .st .. => execSt_areas ..
  | .sts .. => execSts_areas ..
  | .add .. => execAdd_areas ..
  | .addu .. => execAddu_areas ..
  | .sub .. => execSub_areas ..
  | .andDp .. => execAndDp_areas ..
  | .orDp .. => execOrDp_areas ..
  | .xorDp .. => execXorDp_areas ..
  | .mul .. => execMul_areas ..
  | .mulh .. => execMulh_areas ..
  | .ldw .. | .ldh .. | .ldhu .. | .ldb .. | .ldbu .. => loadOp_areas ..
  | .stw .. | .sth .. | .stb .. => storeOp_areas ..
  | .movg .. => execMovg_areas ..
  | .mva .. => execMva_areas ..
  | .mvau .. => execMvau_areas ..
  | .mvg .. => execMvg_areas ..
  | .addg .. => execAddg_areas ..
  | .subg .. => execSubg_areas ..
  | .andg .. => execAndg_areas ..
  | .org .. => execOrg_areas ..
  | .xorg .. => execXorg_areas ..
  | .ceq .. => execCeq_areas ..
  | .cne .. => execCne_areas ..
  | .clt .. => execClt_areas ..
  | .cge .. => execCge_areas ..
  | .cltu .. => execCltu_areas ..
  | .cgeu .. => execCgeu_areas ..
  | .par .. => execPar_areas ..
  | .brev .. => execBrev_areas ..
  | .bswp .. => execBswp_areas ..
  | .crcb .. => execCrcb_areas ..
  | .crcw .. => execCrcw_areas ..
  | .crcm .. => execCrcm_areas ..
  | .chanOpen .. => execChanOpen_areas ..
  | .chanOpenw .. => execChanOpenw_areas ..
  | .recv .. => execRecv_areas ..
  | .recvw .. => execRecvw_areas ..
  | .chw .. => execChw_areas ..
  | .send .. => execSend_areas ..
  | .lock .. => execLock_areas ..
  | .unlock .. => execUnlock_areas ..
  | .ldi .. => execLdi_areas ..
  | .addi .. => execAddi_areas ..
  | .andi .. => execAndi_areas ..
  | .shf .. => execShf_areas ..
  | .loop .. => execLoop_areas ..
  | .loopi .. => execLoopi_areas ..
  | .bz .. => execBz_areas ..
  | .bnz .. => execBnz_areas ..
  | .bra .. => execBra_areas ..
  | .ldl .. => execLdl_areas ..
  | .ldlh .. => execLdlh_areas ..
  | .jmpf .. => execJmpf_areas ..
  | .callf .. => execCallf_areas ..
  | .nop .. => execNop_areas ..
  | .synci .. => execSynci_areas ..
  | .ret .. => execRet_areas ..
  | .reti .. => execReti_areas ..
  | .ei .. => execEi_areas ..
  | .di .. => execDi_areas ..
  | .tend .. => execTend_areas ..
  | .yield .. => execYield_areas ..
  | .mtx .. => execMtx_areas ..
  | .mfx .. => execMfx_areas ..
  | .adx .. => execAdx_areas ..
  | .vwait .. => execVwait_areas ..
  | .vpost .. => execVpost_areas ..
  | .pmw .. => execPmw_areas ..
  | .pmr .. => execPmr_areas ..
  | .mfs .. => execMfs_areas ..
  | .div .. => execDiv_areas ..
  | .sqrt .. => execSqrt_areas ..
  | .undefinedEncoding .. => execUndefinedEncoding_areas ..
  | .packetByteArrival .. => execPacketByteArrival_areas ..
  | .cpxCommandStart .. => execCpxCommandStart_areas ..
  | .cpxResultWrite .. => execCpxResultWrite_areas ..
  | .cmtr .. | .cmti .. | .cmfr .. | .cmfi .. | .cmov .. | .ccvt .. | .ccvtc .. | .cfix .. | .cadd .. | .csub .. | .cmul .. | .cmac ..
  | .cmsc .. | .ccmul .. | .ccmac .. | .crmul .. | .cscl .. | .cconj .. | .cdft .. | .crot .. | .cmag .. | .carg .. | .cfsq .. | .cdiv ..
  | .ccmpr .. | .ccmpi .. | .ccmpm .. | .cmin .. | .cmax .. => cpxIssue_areas ..
  | .taskAssign .. => execTaskAssign_areas ..
  | .taskPreempt .. => execTaskPreempt_areas ..
  | .taskSwitch .. => execTaskSwitch_areas ..
  | .stagingLoad .. => execStagingLoad_areas ..
  | .dispatcherTimerFire .. => execDispatcherTimerFire_areas ..
  | .budgetOverrun .. => execBudgetOverrun_areas ..
  | .activate .. => execActivate_areas ..
  | .cancel .. => execCancel_areas ..
  | .tcbSelect .. => execTcbSelect_areas ..
  | .lockTryRead .. => execLockTryRead_areas ..
  | .mbDataWrite .. => execMbDataWrite_areas ..
  | .mbPost .. => execMbPost_areas ..
  | .mbTake .. => execMbTake_areas ..
  | .pairVoteRx .. => execPairVoteRx_areas ..
  | .vrmReset .. => execVrmReset_areas ..
  | .vrmDisPop .. => execVrmDisPop_areas ..
  | .vrmPcbSelect .. => execVrmPcbSelect_areas ..
  | .pcbRetransmit .. => execPcbRetransmit_areas ..
  | .outputRelease .. => execOutputRelease_areas ..
  | .armHoldExpire .. => execArmHoldExpire_areas ..
  | .fioArm .. => execFioArm_areas ..
  | .fioFire .. => execFioFire_areas ..
  | .fioRelease .. => execFioRelease_areas ..
  | .fioArmExpire .. => execFioArmExpire_areas ..
  | .inputAccept .. => execInputAccept_areas ..
  | .chatterEnd .. => execChatterEnd_areas ..
  | .imgBegin .. => execImgBegin_areas ..
  | .imgData .. => execImgData_areas ..
  | .imgEnd .. => execImgEnd_areas ..
  | .imgVerifyDone => (execImgVerifyDone_areas ..).within
  | .discard .. => execDiscard_areas ..
  | .remove .. => execRemove_areas ..
  | .check .. => execCheck_areas ..
  | .checkDone => (execCheckDone_areas ..).within
  | .arm .. => ((execArm_areas ..).within : s.LeadsTo _ [.regs, .out, .ind, .ing, .aut, .spe, .clu, .vrm, .cfg, .hst])
  | .preloadDone => execPreloadDone_areas ..
  | .disarm .. => execDisarm_areas ..
  | .request .. => execRequest_areas ..
  | .retire .. => execRetire_areas ..
  | .tileBist .. => execTileBist_areas ..
  | .bistDone .. => execBistDone_areas ..
  | .spareBistPeriod => execSpareBistPeriod_areas ..
  | .quarantine .. => execQuarantine_areas ..
  | .clear .. => execClear_areas ..
  | .raiseFloor .. => execRaiseFloor_areas ..
  | .drainTimeout .. => execDrainTimeout_areas ..
  | .drainComplete .. => execDrainComplete_areas ..
  | .scrubDomainCheck .. => execScrubDomainCheck_areas ..
  | .autoCommitArm => execAutoCommitArm_areas ..
  | .unitMismatch .. => execUnitMismatch_areas ..
  | .unitSelect .. => execUnitSelect_areas ..
  | .keyLoad .. => execKeyLoad_areas ..
  | .credLoad .. => execCredLoad_areas ..
  | .rootAdd .. => execRootAdd_areas ..
  | .rootRevoke .. => execRootRevoke_areas ..
  | .packageCheckDone => (execPackageCheckDone_areas ..).within
  | .attest .. => execAttest_areas ..
  | .attestDone => execAttestDone_areas ..
  | .zeroise .. => execZeroise_areas ..
  | .tamperInput .. => execTamperInput_areas ..
  | .monitorTrip .. => execMonitorTrip_areas ..
  | .debugGrant .. => execDebugGrant_areas ..
  | .debugRevoke .. => execDebugRevoke_areas ..
  | .debugGrantExpire .. => execDebugGrantExpire_areas ..
  | .perstDeassert .. => execPerstDeassert_areas ..
  | .pcieLinkChange .. => execPcieLinkChange_areas ..
  | .pcieHotReset .. => execPcieHotReset_areas ..
  | .flrPf0 .. => execFlrPf0_areas ..
  | .flrPf1 .. => execFlrPf1_areas ..
  | .d3hotEntry .. => execD3hotEntry_areas ..
  | .dmaDeliver .. => execDmaDeliver_areas ..
  | .dmaInject .. => execDmaInject_areas ..
  | .dmaSignal .. => execDmaSignal_areas ..
  | .dmaFault .. => execDmaFault_areas ..
  | .dmaStart .. => execDmaStart_areas ..
  | .dmaStop .. => execDmaStop_areas ..
  | .bar0DecodeMiss .. => execBar0DecodeMiss_areas ..
  | .pciBankWrite .. => execPciBankWrite_areas ..
  | .bar2WriteDenied .. => execBar2WriteDenied_areas ..
  | .mgtDoorbell .. => execMgtDoorbell_areas ..
  | .mgtUnitRx .. => execMgtUnitRx_areas ..
  | .mgtFrameTimeout .. => execMgtFrameTimeout_areas ..
  | .openReq .. => execOpenReq_areas ..
  | .openProof .. => execOpenProof_areas ..
  | .close .. => execClose_areas ..
  | .ping .. => execPing_areas ..
  | .openingTimeout .. => execOpeningTimeout_areas ..
  | .sessionIdleTimeout .. => execSessionIdleTimeout_areas ..
  | .lockoutExpire .. => execLockoutExpire_areas ..
  | .regRead .. => execRegRead_areas ..
  | .regWrite .. => execRegWrite_areas ..
  | .sqcClear .. => execSqcClear_areas ..
  | .cluEvtTake .. => execCluEvtTake_areas ..
  | .evtAlarmTake .. => execEvtAlarmTake_areas ..
  | .paiPeerEvtTake .. => execPaiPeerEvtTake_areas ..
  | .umberLaneLock .. => execUmberLaneLock_areas ..
  | .umberLaneDrop .. => execUmberLaneDrop_areas ..
  | .helloTx => execHelloTx_areas ..
  | .helloRx .. => execHelloRx_areas ..
  | .heartbeatTx => execHeartbeatTx_areas ..
  | .heartbeatRx .. => execHeartbeatRx_areas ..
  | .heartbeatMiss => execHeartbeatMiss_areas ..
  | .pairMbxRx .. => execPairMbxRx_areas ..
  | .pairEvtRx .. => execPairEvtRx_areas ..
  | .pairMgtRx .. => execPairMgtRx_areas ..
  | .pairFrameRx .. => execPairFrameRx_areas ..
  | .creditReturnRx .. => execCreditReturnRx_areas ..
  | .creditTimeout .. => execCreditTimeout_areas ..
  | .ddrRefresh => execDdrRefresh_areas ..
  | .ddrTempRead .. => execDdrTempRead_areas ..
  | .ddrScrubLine .. => execDdrScrubLine_areas ..
  | .ddrTrainingDone .. => execDdrTrainingDone_areas ..
  | .histFetchStart .. => execHistFetchStart_areas ..
  | .histFetchDone .. => execHistFetchDone_areas ..
  | .recCmdTrigger .. => execRecCmdTrigger_areas ..
  | .recordComplete .. => execRecordComplete_areas ..
  | .pmuFreeze .. => execPmuFreeze_areas ..
  | .pmuUnfreeze .. => execPmuUnfreeze_areas ..
  | .pmuClear .. => execPmuClear_areas ..
  | .dbgHalt .. => execDbgHalt_areas ..
  | .dbgResume .. => execDbgResume_areas ..
  | .dbgStep .. => execDbgStep_areas ..
  | .dbgWriteCtx .. => execDbgWriteCtx_areas ..
  | .dbgMemRd .. => execDbgMemRd_areas ..
  | .dbgMemWr .. => execDbgMemWr_areas ..
  | .dbgCtxSelect .. => execDbgCtxSelect_areas ..
  | .breakpointHit .. => execBreakpointHit_areas ..
  | .jtagProof .. => execJtagProof_areas ..
  | .jtagLockoutExpire => execJtagLockoutExpire_areas ..
  | .jtagIdcode => execJtagIdcode_areas ..
  | .jtagBypass => execJtagBypass_areas ..
  | .jtagSamplePreload .. => execJtagSamplePreload_areas ..
  | .jtagExtest .. => execJtagExtest_areas ..
  | .jtagClamp => execJtagClamp_areas ..
  | .jtagHighz => execJtagHighz_areas ..
  | .jtagDbgacc .. => execJtagDbgacc_areas ..
  | .tapReset => execTapReset_areas ..
  | .vauxRise => execVauxRise_areas ..
  | .vauxFall => execVauxFall_areas ..
  | .mainReset => execMainReset_areas ..
  | .pwrGoodLoss => execPwrGoodLoss_areas ..
  | .railFault .. => execRailFault_areas ..
  | .sysResetDevice .. => execSysResetDevice_areas ..
  | .sysResetCluster .. => execSysResetCluster_areas ..
  | .clusterResetDone .. => execClusterResetDone_areas ..
  | .resetRelease .. => execResetRelease_areas ..
  | .configEntry .. => execConfigEntry_areas ..
  | .bootEngineRun .. => ((execBootEngineRun_areas ..).within : s.LeadsTo _ (Area.butOf [.up, .time, .rdShadow, .wrHold, .fv, .cpx, .pai]))
  | .bootAbort .. => execBootAbort_areas ..
  | .sysStateReq .. => execSysStateReq_areas ..
  | .avsUpdate .. => execAvsUpdate_areas ..
  | .temperatureSample .. => execTemperatureSample_areas ..
  | .tempMaxReset .. => execTempMaxReset_areas ..
  | .irigFrameMissing .. => execIrigFrameMissing_areas ..
  | .planeSramScrub .. => execPlaneSramScrub_areas ..
  | .clusterSramScrub .. => execClusterSramScrub_areas ..
  | .timeBasePllLockLoss => execTimeBasePllLockLoss_areas ..
  | .timeBasePllRelock => execTimeBasePllRelock_areas ..
  | .pauseIgnoreEnd .. => execPauseIgnoreEnd_areas ..
  | .aerUncorrectableError .. => execAerUncorrectableError_areas ..
  | .bar2ReadDenied .. => execBar2ReadDenied_areas ..
  | .msixVectorUnmask .. => execMsixVectorUnmask_areas ..
  | .returnToD0 .. => execReturnToD0_areas ..
  | .smbusBlockRead => execSmbusBlockRead_areas ..

theorem up_not_mem_areasOf (c : Instr) : Area.up ∉ areasOf c := of_decide_eq_true (by cases c <;> rfl)

/-- Settles O55: each command's meaning is followed operation by operation (exec_leadsTo), and no frame names the time base. -/
theorem everyCommandStaysInItsFrame : Obligations.EveryCommandStaysInItsFrame :=
  ⟨exec_leadsTo, up_not_mem_areasOf⟩

end Sys2Proof.Machine
end
section
/-!
SUPPORT. Writes, takes and reads of registers by an accessor (R7, R8, R409, R421): what a write does for each access of the register that it meets,
and what a take of an event register answers.
-/

namespace Sys2Proof.Machine

/-! ## Writes -/

section
variable {s : State} {who : Accessor} {off : Nat} {val : Word} {r : RegRow}

theorem State.writeReg_of_not_mayWrite (hr : regRow off = some r) (hw : s.mayWrite who off = false) :
    s.writeReg who off val = s.denyWrite who := by
  simp [State.writeReg, hr, hw]

theorem State.writeReg_of_readOnly (hr : regRow off = some r) (hw : s.mayWrite who off = true) (ha : r.acc = .ro ∨ r.acc = .rtt) :
    s.writeReg who off val = s := by
  rcases ha with ha | ha <;> simp [State.writeReg, hr, hw, ha]

theorem State.writeReg_of_sqc (hr : regRow off = some r) (hw : s.mayWrite who off = true) (ha : r.acc = .sqc) :
    s.writeReg who off val = s.sqcWrite off val := by
  simp [State.writeReg, hr, hw, ha]

/-- A register that locks takes its writable bits until SAB_CFG locks it (R409). -/
theorem State.writeReg_of_rwl (hr : regRow off = some r) (hw : s.mayWrite who off = true) (ha : r.acc = .rwl) :
    s.writeReg who off val = if s.rb Reg.SAB_CFG 31 then s.lockedWrite who off else s.setReg off (masked off val) := by
  simp [State.writeReg, hr, hw, ha]

theorem State.writeReg_of_rw (hr : regRow off = some r) (hw : s.mayWrite who off = true) (ha : r.acc = .rw) :
    s.writeReg who off val = s.putReg who off val := by
  simp [State.writeReg, hr, hw, ha]

/-- A register without an effect of its own, of no counter and of no wide value, keeps the writable bits. -/
theorem State.putReg_of_plain (hp : pmuCfgReg off = false)
    (hf : (if 0x100000 ≤ off then s.putCluster who ((off - 0x100000) / 0x10000) off val else s.putFabric who off val) = none)
    (hw : wideOf off = none) : s.putReg who off val = s.setReg off (masked off val) := by
  simp only [State.putReg, hp, hf, hw, Bool.false_and, Bool.false_eq_true, if_false]

end

/-- A command that writes one register leaves it with the value and every other register and area as it was. -/
theorem done_setReg (s : State) (off : Nat) (v : Word) :
    ∃ u, done s (s.setReg off v) = .next u ∧ u.reg off = v ∧ s.RegsStay u [off] ∧ s.OnlyChanges u [.regs] :=
  ⟨s.setReg off v, congrArg Host.Outcome.next (s.closed_of_out _ rfl), s.reg_setReg_same off v,
    fun a ha => s.reg_setReg_ne off a v (by simpa using ha), s.setReg_areas off v⟩

theorem registerWrite_of_eq {s t : State} {who : Accessor} {off : BitVec 21} {val : Word} (h : s.writeReg who off.toNat val = t) :
    exec (.registerWrite who off val) s = done s t := congrArg (done s) h

/-! ## Takes -/

theorem State.takeEvent_some {s : State} {base : Nat → Nat} {e : Nat} (h : s.lowestPending base = some e) :
    s.takeEvent base = (BitVec.ofNat 32 (2147483648 + e), s.setRb (base (e / 32)) (e % 32) false) := by
  simp [State.takeEvent, h]

theorem State.takeEvent_none {s : State} {base : Nat → Nat} (h : s.lowestPending base = none) : s.takeEvent base = (0, s) := by
  simp [State.takeEvent, h]

theorem State.rttRead_of_mayTake {s : State} {who : Accessor} {off : Nat} {take : Word × State} (h : s.mayTake who off = true) :
    s.rttRead who off take = take.2.emit (.readData off take.1) := if_pos h

/-- The read of a taking register of events answers the lowest pending one and clears its bit. -/
theorem State.rttRead_takeEvent_some {s : State} {who : Accessor} {off e : Nat} {base : Nat → Nat} (hm : s.mayTake who off = true)
    (he : s.lowestPending base = some e) : s.rttRead who off (s.takeEvent base) =
      (s.setRb (base (e / 32)) (e % 32) false).emit (.readData off (BitVec.ofNat 32 (2147483648 + e))) := by
  rw [State.takeEvent_some he, State.rttRead_of_mayTake hm]

theorem State.rttRead_takeEvent_none {s : State} {who : Accessor} {off : Nat} {base : Nat → Nat} (hm : s.mayTake who off = true)
    (he : s.lowestPending base = none) : s.rttRead who off (s.takeEvent base) = s.emit (.readData off 0) := by
  rw [State.takeEvent_none he, State.rttRead_of_mayTake hm]

/-! ## The read of a wide value -/

theorem execWideRegisterLowRead_of_low {s : State} {who : Accessor} {off : BitVec 21} {lo n : Nat} (h : wideOf off.toNat = some (lo, 0, n)) :
    s.Gives (.wideRegisterLowRead who off) ((s.readReg who off.toNat).2.emit (.readData off.toNat (s.readReg who off.toNat).1)) := by
  show execWideRegisterLowRead who off s = _
  simp only [execWideRegisterLowRead, h]
  rfl

/-- Settles O50: a write by the access of the register that it meets, a take by whether an event is pending; the wide read and DBGACC are their
meanings. -/
theorem registerCommandsComplete : Obligations.RegisterCommandsComplete := by
  intro s who off val c r
  refine ⟨fun hr => ⟨?_, ?_, ?_, ?_, ?_, ?_⟩, ?_, ?_, ?_, ?_, ?_, ?_, ?_, rfl, rfl⟩
  · exact fun hw => registerWrite_of_eq (State.writeReg_of_not_mayWrite hr hw)
  · exact fun hw ha => registerWrite_of_eq (State.writeReg_of_readOnly hr hw ha)
  · exact fun hw ha => registerWrite_of_eq (State.writeReg_of_sqc hr hw ha)
  · exact fun hw ha hl => registerWrite_of_eq ((State.writeReg_of_rwl hr hw ha).trans (if_pos hl))
  · intro hw ha hl
    rw [registerWrite_of_eq ((State.writeReg_of_rwl hr hw ha).trans (if_neg (by simp [hl])))]
    exact done_setReg ..
  · intro hw ha hp hf hwide
    rw [registerWrite_of_eq ((State.writeReg_of_rw hr hw ha).trans (State.putReg_of_plain hp hf hwide))]
    exact done_setReg ..
  · exact fun lo n h => execWideRegisterLowRead_of_low h
  · exact fun e hm he => congrArg (done s) (State.rttRead_takeEvent_some hm he)
  · exact fun e hm he => congrArg (done s) (State.rttRead_takeEvent_some hm he)
  · exact fun e hm he => congrArg (done s) (State.rttRead_takeEvent_some hm he)
  · exact fun hm he => congrArg (done s) (State.rttRead_takeEvent_none hm he)
  · exact fun hm he => congrArg (done s) (State.rttRead_takeEvent_none hm he)
  · exact fun hm he => congrArg (done s) (State.rttRead_takeEvent_none hm he)

end Sys2Proof.Machine
end

section
/-!
SUPPORT. The angle clocks (R39-R44): what the operations of Indigo leave of its state and of registers, what the loss of a reference and a relock
make of a clock, and what each zero crossing gives by the state of its clock.
-/

namespace Sys2Proof.Machine

/-! ## What stays -/

theorem State.OnlyChanges.ind {s t : State} {l : List Area} (h : s.OnlyChanges t l) (hl : .ind ∉ l := by decide) : t.ind = s.ind := h.2 .ind hl

theorem State.OnlyChanges.time {s t : State} {l : List Area} (h : s.OnlyChanges t l) (hl : .time ∉ l := by decide) : t.time = s.time :=
  h.2 .time hl

theorem State.RegsStay.rf {s t : State} {l : List Nat} (h : s.RegsStay t l) {a : Nat} (ha : regKey a ∉ l.map regKey) (hi lo : Nat) :
    t.rf a hi lo = s.rf a hi lo := congrArg (fld · hi lo) (h a ha)

theorem State.with_ind_stays (s : State) (i : Indigo) (l : List Nat) : s.RegsStay { s with ind := i } l := State.stays_of_regs rfl l

@[simp] theorem State.deliver_ind (s : State) (e : Nat) : (s.deliver e).ind = s.ind := (s.deliver_areas e).ind
@[simp] theorem State.sqc_ind (s : State) (off bit e : Nat) : (s.sqc off bit e).ind = s.ind := (s.sqc_areas off bit e).ind
@[simp] theorem State.sqcEach_ind (s : State) (off bit e : Nat) : (s.sqcEach off bit e).ind = s.ind := (s.sqcEach_areas off bit e).ind
@[simp] theorem State.aclkEvent_ind (s : State) (n flags : Nat) (b : Bool) : (s.aclkEvent n flags b).ind = s.ind := (s.aclkEvent_areas n flags b).ind
@[simp] theorem State.steer_ind (s : State) : s.steer.ind = s.ind := s.steer_areas.ind
@[simp] theorem State.showOffsets_ind (s : State) : s.showOffsets.ind = s.ind := s.showOffsets_areas.ind
@[simp] theorem State.steer_time (s : State) : s.steer.time = s.time := s.steer_areas.time
@[simp] theorem State.showOffsets_time (s : State) : s.showOffsets.time = s.time := s.showOffsets_areas.time
@[simp] theorem State.countUpdate_time (s : State) (off : Int) : (s.countUpdate off).time = s.time := (s.countUpdate_areas off).time

@[simp] theorem State.aclk_aclkEvent (s : State) (n flags m : Nat) (b : Bool) : (s.aclkEvent n flags b).aclk m = s.aclk m := by
  simp only [State.aclk, State.aclkEvent_ind]

theorem State.OnlyChanges.port1588 {s t : State} (h : s.OnlyChanges t [.out]) (p : Nat) : t.port1588 p = s.port1588 p := by
  simp only [State.port1588, h.ind]

/-- An event of Indigo writes its register and those of the event (R8, R54). -/
theorem State.sqcEach_stays (s : State) (off bit e : Nat) : s.RegsStay (s.sqcEach off bit e) (off :: eventRegs) :=
  ((s.setReg_stays _ _ _ (by simp)).trans (State.setReg_stays _ _ _ _ (by simp))).trans
    ((State.deliver_stays _ e).mono (List.subset_cons_self _ _))

/-- The bit of an event of Indigo is set. -/
theorem State.sqcEach_rb (s : State) (off bit e : Nat) (hb : bit < 24) (ho : regKey off ∉ eventRegs.map regKey) :
    (s.sqcEach off bit e).rb off bit = true := by
  rw [State.sqcEach, State.rb, State.deliver_stays _ e off ho, ← State.rb, State.rb_setRf_same _ _ _ _ _ _ (by omega) (.inl hb),
    State.rb_setRb_same _ _ _ _ _ (by omega), if_pos rfl]

/-- The state that a command gives, in another form. -/
theorem State.Gives.to {s x y : State} {c : Instr} (h : s.Gives c x) (e : x = y) : s.Gives c y := e ▸ h

/-- A command that sends nothing gives the state that it answers. -/
theorem State.gives_of_out (s : State) {x : State} {c : Instr} (h : exec c s = .next x) (ho : x.out = s.out) : s.Gives c x := by
  rw [State.Gives, s.closed_of_out x ho, h]

/-- A command leaves the areas outside its frame in the state that it gives. -/
theorem State.Gives.areas {s x : State} {c : Instr} {l : List Area} (h : s.Gives c x) (hl : areasOf c = l) : s.OnlyChanges (s.closed x) l := by
  obtain ⟨u, e, hu⟩ := exec_leadsTo s c
  rw [h] at e
  cases e
  exact hl ▸ hu

/-! ## Angle clocks -/

/-- A clock on its primary with a qualified secondary enabled goes over to the secondary (R43). -/
theorem State.aclk_loseRef_of_secondary {s : State} {n : Nat} (h1 : (s.aclk n).src2 = false) (h2 : s.rb (Reg.IND_ACLK_SRC2 n) 31 = true)
    (h3 : 1 ≤ (s.aclk n).qualSec) : (s.loseRef n).aclk n = { s.aclk n with src2 := true, pulling := true, phaseBad := 0, qualPri := 0 } := by
  simp [State.loseRef, h1, h2, h3]

/-- A clock that has no qualified secondary to go to is held (R43). -/
theorem State.loseRef_of_alone {s : State} {n : Nat}
    (h : (s.aclk n).src2 = true ∨ s.rb (Reg.IND_ACLK_SRC2 n) 31 = false ∨ (s.aclk n).qualSec = 0) : s.loseRef n = s.holdClock n := by
  rcases h with h | h | h <;> simp [State.loseRef, h]

theorem State.aclk_loseRef_of_alone {s : State} {n : Nat}
    (h : (s.aclk n).src2 = true ∨ s.rb (Reg.IND_ACLK_SRC2 n) 31 = false ∨ (s.aclk n).qualSec = 0) :
    (s.loseRef n).aclk n =
      { (s.aclk n).mark s.time with
        st := .held, corr := 0, pulling := false, src2 := false, heldFrom := (s.aclk n).val, holdShown := false, phaseBad := 0, qualPri := 0
        qualSec := 0 } := by
  simp [State.loseRef_of_alone h, State.holdClock, AngleClock.mark]

theorem State.aclk_loseRef_ne {s : State} {n m : Nat} (h : m ≠ n) : (s.loseRef n).aclk m = s.aclk m := by
  simp only [State.loseRef, State.holdClock]
  split <;> rw [State.aclk_aclkEvent, State.aclk_setAclk_ne _ _ _ _ h]

/-- Settles O23: with a qualified secondary the clock goes over to it, else it is held; either way one clock is replaced. -/
theorem angleClockLoss : Obligations.AngleClockLoss := by
  intro s n c u
  refine ⟨fun h1 h2 h3 => ?_, fun h => ?_, fun m hm => State.aclk_loseRef_ne hm, (s.loseRef_areas n).within⟩
  · rw [State.aclk_loseRef_of_secondary h1 h2 h3]
    exact ⟨rfl, rfl, rfl, rfl, rfl⟩
  · rw [State.aclk_loseRef_of_alone h]
    exact ⟨rfl, rfl, rfl, rfl, rfl⟩

/-- Counting a cycle leaves whether and how the clock runs (R43). -/
theorem State.aclk_countCycle (s : State) (n : Nat) (pri sec : RefEstimate) :
    ((s.countCycle n pri sec).aclk n).st = (s.aclk n).st ∧ ((s.countCycle n pri sec).aclk n).src2 = (s.aclk n).src2 := by
  simp [State.countCycle]

/-- A clock locked again keeps its value and pulls in, on the reference that it was given (R43). -/
theorem State.aclk_relock (s : State) (n : Nat) (e : RefEstimate) (b : Bool) :
    ((s.relock n e b).aclk n).st = .locked ∧ ((s.relock n e b).aclk n).pulling = true ∧ ((s.relock n e b).aclk n).val = (s.aclk n).val ∧
      ((s.relock n e b).aclk n).src2 = b := by
  simp [State.relock, AngleClock.mark]

/-! ## Commands of the angle clocks -/

section
variable {s : State} {n : Fin 16} {pri sec : RefEstimate}

/-- The fifth qualified crossing of a SEEKING tracked clock starts it (R43, R44). -/
theorem aclkZeroCrossing_starts (hst : (s.aclk n.val).st = .seeking) (hm : s.rf (Reg.IND_ACLK_CFG n.val) 30 28 < 2)
    (h4 : 4 ≤ (s.aclk n.val).qualPri) (h5 : 5 ≤ ((s.countCycle n.val pri sec).aclk n.val).qualPri) :
    let a := s.startCycle n.val ((2 * s.time * s.aclkNom n.val + secU) / (2 * secU))
    s.Gives (.aclkZeroCrossing n pri sec) ((s.countCycle n.val pri sec).startClock n.val a.1 0 pri.freq.toNat .locked a.2) := by
  show execAclkZeroCrossing n pri sec s = _
  simp [execAclkZeroCrossing, State.aclk_countCycle, hst, hm, h4, h5, done]

/-- A LOCKED clock whose estimate is out of bounds loses its reference (R43). -/
theorem aclkZeroCrossing_loses {e : RefEstimate} (hst : (s.aclk n.val).st = .locked) (he : (if (s.aclk n.val).src2 then sec else pri) = e)
    (hl : (s.countCycle n.val pri sec).refLost n.val e = true) :
    let s1 := s.countCycle n.val pri sec
    ∃ b, s.Gives (.aclkZeroCrossing n pri sec) ((s1.setAclk n.val { s1.aclk n.val with phaseBad := b }).loseRef n.val) := by
  refine ⟨if 357913941 < s.phaseMag n.val then ((s.countCycle n.val pri sec).aclk n.val).phaseBad + 1 else 0, ?_⟩
  show execAclkZeroCrossing n pri sec s = _
  simp [execAclkZeroCrossing, State.aclk_countCycle, hst, he, hl, done]

/-- A LOCKED clock that keeps its reference goes back to its primary where that is qualified again, else follows its reference (R43). -/
theorem aclkZeroCrossing_keeps {e : RefEstimate} (hst : (s.aclk n.val).st = .locked) (he : (if (s.aclk n.val).src2 then sec else pri) = e)
    (hl : (s.countCycle n.val pri sec).refLost n.val e = false) (hp : s.phaseMag n.val ≤ 357913941) :
    let s1 := s.countCycle n.val pri sec
    let s2 := s1.setAclk n.val { s1.aclk n.val with phaseBad := 0 }
    s.Gives (.aclkZeroCrossing n pri sec)
      (if (s.aclk n.val).src2 = true ∧ 4 ≤ (s1.aclk n.val).qualPri then
        s2.setAclk n.val { s2.aclk n.val with src2 := false, pulling := true, phaseBad := 0 }
      else s2.followRef n.val e) := by
  show execAclkZeroCrossing n pri sec s = _
  simp [execAclkZeroCrossing, State.aclk_countCycle, hst, he, hl, Nat.not_lt.2 hp, done]

/-- A HELD clock is locked again by a reference qualified for four cycles, the primary first (R43). -/
theorem aclkZeroCrossing_relocks (hst : (s.aclk n.val).st = .held) :
    let s1 := s.countCycle n.val pri sec
    s.Gives (.aclkZeroCrossing n pri sec)
      (if 4 ≤ (s1.aclk n.val).qualPri then s1.relock n.val pri false
      else if 4 ≤ (s1.aclk n.val).qualSec then s1.relock n.val sec true else s1) := by
  show execAclkZeroCrossing n pri sec s = _
  simp [execAclkZeroCrossing, State.aclk_countCycle, hst, done]

end

/-- Settles O22: a crossing by the state of the clock and the reference it follows, the others by the condition of their row. -/
theorem angleClockCommandsComplete : Obligations.AngleClockCommandsComplete := by
  intro s n pri sec s1 c f
  refine ⟨fun hst hm h4 h5 => aclkZeroCrossing_starts hst hm h4 h5, fun hst h2 => ⟨fun hl => ?_, fun hl hp => ?_⟩,
    fun hst h2 => ⟨fun hl => ?_, fun hl hp hq => ?_, fun hl hp hq => ?_⟩, fun hst => ⟨fun hp => ?_, fun hp hs => ?_, fun e b => ?_⟩,
    fun hst h8 => ?_, fun hst hm ht => ?_, fun hst hm hs hv => ?_⟩
  · exact aclkZeroCrossing_loses hst (if_neg (by simp [h2])) hl
  · exact (aclkZeroCrossing_keeps hst (if_neg (by simp [h2])) hl hp).to (if_neg (by simp [h2]))
  · exact aclkZeroCrossing_loses hst (if_pos h2) hl
  · exact (aclkZeroCrossing_keeps hst (if_pos h2) hl hp).to (if_pos ⟨h2, hq⟩)
  · exact (aclkZeroCrossing_keeps hst (if_pos h2) hl hp).to (if_neg fun h => Nat.not_le.2 hq h.2)
  · exact (aclkZeroCrossing_relocks hst).to (if_pos hp)
  · exact (aclkZeroCrossing_relocks hst).to ((if_neg (Nat.not_le.2 hp)).trans (if_pos hs))
  · exact State.aclk_relock ..
  · exact congrArg (done s) (if_pos (by simp [hst, h8]))
  · exact congrArg (done s) (if_pos (by simpa [hst, hm] using ht))
  · exact congrArg (done s) (if_pos (by simp [hst, hm, hs, hv]))

end Sys2Proof.Machine
end

section
/-!
SUPPORT. Device time (R27-R38): the time state, what a judgement of the sources leaves of them, steps and steering, and the servo update by the time
state that it works in.
-/

namespace Sys2Proof.Machine

/-! ## The time state -/

@[simp] theorem State.expireHold_ind (s : State) : s.expireHold.ind = { s.ind with holdExp := true } := State.sqcEach_ind ..

/-- A change of time state ends in the state asked for, whether or not it was there before (R31). -/
theorem State.setTimeState_st (s : State) (x : TimeState) : (s.setTimeState x).ind.st = x := by
  by_cases h : s.ind.st = x
  · rw [State.setTimeState, if_pos h, h]
  · simp only [State.setTimeState, if_neg h, apply_ite State.ind, apply_ite Indigo.st, expireHold_ind, sqc_ind, deliver_ind, ite_self]

/-! ## The sources -/

/-- The registers that a judgement of the sources may write: time status, steering, and those of the events it raises (R31). -/
def judgeRegs : List Nat := Reg.IND_TIME_STATUS :: Reg.IND_STEER :: eventRegs

/-- Whether t has the records of the sources as s has them, and every register but those of a judgement. -/
structure State.KeepsSources (s t : State) : Prop where
  ptp : t.ind.ptp = s.ind.ptp
  tin0 : t.ind.tin0 = s.ind.tin0
  tin1 : t.ind.tin1 = s.ind.tin1
  regs : s.RegsStay t judgeRegs

namespace State.KeepsSources

theorem refl (s : State) : s.KeepsSources s := ⟨rfl, rfl, rfl, .refl _ _⟩

theorem trans {s t u : State} (h : s.KeepsSources t) (h2 : t.KeepsSources u) : s.KeepsSources u :=
  ⟨h2.ptp.trans h.ptp, h2.tin0.trans h.tin0, h2.tin1.trans h.tin1, h.regs.trans h2.regs⟩

theorem ite {s t u : State} {c : Prop} [Decidable c] (h : s.KeepsSources t) (h2 : s.KeepsSources u) : s.KeepsSources (if c then t else u) := by
  split <;> assumption

theorem of_ind {s t : State} (h : t.ind = s.ind) (hr : s.RegsStay t judgeRegs) : s.KeepsSources t := ⟨by rw [h], by rw [h], by rw [h], hr⟩

theorem tinSrc {s t : State} (h : s.KeepsSources t) (n : Nat) : t.tinSrc n = s.tinSrc n := by rw [State.tinSrc, h.tin0, h.tin1, State.tinSrc]

end State.KeepsSources

theorem State.deliver_keepsSources (s : State) (e : Nat) : s.KeepsSources (s.deliver e) :=
  .of_ind (s.deliver_ind e) ((s.deliver_stays e).mono (by simp [judgeRegs]))

theorem State.sqc_status_keepsSources (s : State) (bit e : Nat) : s.KeepsSources (s.sqc Reg.IND_TIME_STATUS bit e) :=
  .of_ind (s.sqc_ind ..) ((s.sqc_stays _ bit e).mono (by simp [judgeRegs]))

theorem State.sqcEach_status_keepsSources (s : State) (bit e : Nat) : s.KeepsSources (s.sqcEach Reg.IND_TIME_STATUS bit e) :=
  .of_ind (s.sqcEach_ind ..) ((s.sqcEach_stays _ bit e).mono (by simp [judgeRegs]))

theorem State.with_ind_keepsSources (s : State) (i : Indigo) (hp : i.ptp = s.ind.ptp) (h0 : i.tin0 = s.ind.tin0) (h1 : i.tin1 = s.ind.tin1) :
    s.KeepsSources { s with ind := i } := ⟨hp, h0, h1, s.with_ind_stays i _⟩

theorem State.expireHold_keepsSources (s : State) : s.KeepsSources s.expireHold :=
  (s.with_ind_keepsSources { s.ind with holdExp := true } rfl rfl rfl).trans (sqcEach_status_keepsSources ..)

theorem State.setTimeState_keepsSources (s : State) (x : TimeState) : s.KeepsSources (s.setTimeState x) := by
  have steered : s.KeepsSources (if x = .freerun then s.setReg Reg.IND_STEER 0 else s) :=
    .ite (.of_ind rfl (s.setReg_stays _ _ _ (by simp [judgeRegs]))) (.refl s)
  have entered {t : State} (h : s.KeepsSources t) : s.KeepsSources
      (if x = .holdover then
        (if s.rf Reg.IND_SRC_CFG 15 0 = 0 then (t.sqc Reg.IND_TIME_STATUS 5 noEvent).expireHold else t.sqc Reg.IND_TIME_STATUS 5 noEvent)
      else t) :=
    .ite (.ite ((h.trans (sqc_status_keepsSources ..)).trans (expireHold_keepsSources _)) (h.trans (sqc_status_keepsSources ..))) h
  refine .ite (.refl s) (entered (.trans ?_ (deliver_keepsSources _ 32)))
  exact steered.trans (with_ind_keepsSources _ _ rfl rfl rfl)

theorem State.selectSrc_keepsSources (s : State) (x : Nat) : s.KeepsSources (s.selectSrc x) :=
  .ite (.refl s) ((s.with_ind_keepsSources { s.ind with src := x, lockN := 0 } rfl rfl rfl).trans (sqcEach_status_keepsSources ..))

/-- A judgement of the sources leaves what was measured of them (R31). -/
theorem State.judgeSources_keepsSources (s : State) : s.KeepsSources s.judgeSources := by
  refine .ite ?_ (.ite (setTimeState_keepsSources ..) (.refl s))
  split
  · exact (selectSrc_keepsSources ..).trans (setTimeState_keepsSources ..)
  · exact (selectSrc_keepsSources ..).trans (setTimeState_keepsSources ..)
  · exact selectSrc_keepsSources ..
  · exact .refl s

theorem State.judgeTen_keepsSources (s : State) (n cycles : Nat) : s.KeepsSources (s.judgeTen n cycles) := by
  unfold State.judgeTen
  split
  · have h (b : Bool) : s.KeepsSources (if n = 0 then { s with ind := { s.ind with ten0 := b } } else { s with ind := { s.ind with ten1 := b } }) :=
      .ite (s.with_ind_keepsSources _ rfl rfl rfl) (s.with_ind_keepsSources _ rfl rfl rfl)
    exact .ite ((h _).trans (deliver_keepsSources ..)) (h _)
  · exact .refl s

/-! ## Steps and steering -/

@[simp] theorem State.stepTime_time (s : State) (t' : Nat) : (s.stepTime t').time = t' := (State.sqcEach_areas ..).time

@[simp] theorem State.stepBy_time (s : State) (ns : Int) : (s.stepBy ns).time = lessNs s.time ns := by simp [State.stepBy]

@[simp] theorem State.stepBy_lockN (s : State) (ns : Int) : (s.stepBy ns).ind.lockN = s.ind.lockN := by simp [State.stepBy, State.stepTime]

theorem State.showOffsets_stays (s : State) : s.RegsStay s.showOffsets [Reg.IND_OFFSET_PTP, Reg.IND_OFFSET_TIN0, Reg.IND_OFFSET_TIN1] :=
  ((s.setReg_stays _ _ _ (by simp)).trans (State.setReg_stays _ _ _ _ (by simp))).trans (State.setReg_stays _ _ _ _ (by simp))

theorem State.stepTime_stays (s : State) (t' : Nat) : s.RegsStay (s.stepTime t') (Reg.IND_TIME_STATUS :: eventRegs) := fun a ha => by
  rw [State.stepTime, State.sqcEach_stays _ _ _ _ a ha]
  rfl

@[simp] theorem State.stepBy_lockThr (s : State) (ns : Int) : (s.stepBy ns).rf Reg.IND_SRC_THR 15 0 = s.rf Reg.IND_SRC_THR 15 0 := by
  rw [State.stepBy, (State.showOffsets_stays _).rf (by decide)]
  exact ((s.stepTime_stays _).trans (State.with_ind_stays _ _ _)).rf (by decide) 15 0

@[simp] theorem State.steer_lockThr (s : State) : s.steer.rf Reg.IND_SRC_THR 15 0 = s.rf Reg.IND_SRC_THR 15 0 :=
  (setReg_stays (s.freeN 400000001).2 _ _ [Reg.IND_STEER] (by simp)).rf (by decide) 15 0

/-- A signed number of 32 bits is read back from its word. -/
theorem wordInt_wordOfInt {z : Int} (h1 : -2147483648 ≤ z) (h2 : z < 2147483648) : wordInt (wordOfInt z) = z := by
  simp only [wordInt, wordOfInt, sgn, usg, BitVec.toNat_ofNat]
  split <;> omega

/-- Steering stays within 200 ppm (R27). -/
theorem State.steer_bounded (s : State) : -200000000 ≤ wordInt (s.steer.reg Reg.IND_STEER) ∧ wordInt (s.steer.reg Reg.IND_STEER) ≤ 200000000 := by
  have hlt := s.freeN_lt 400000001 (by decide)
  rw [State.steer, State.reg_setReg_same, wordInt_wordOfInt (by omega) (by omega)]
  omega

/-! ## Servo updates -/

theorem State.servoWith_of_acquiring {s : State} (h : s.ind.st = .acquiring) (x : Nat) : s.servoWith x =
    (if s.stepWanted x then { s with ind := { s.ind with stepUsed := true } }.stepBy (s.offsetOf x) else s.steer).countUpdate (s.offsetOf x) := by
  simp [State.servoWith, h]

theorem State.servoWith_of_locked {s : State} (h : s.ind.st = .locked) (x : Nat) : s.servoWith x = s.steer := by simp [State.servoWith, h]

theorem State.servoWith_of_holdover {s : State} (h : s.ind.st = .holdover) (x : Nat) : s.servoWith x = s.steer.countUpdate (s.offsetOf x) := by
  simp [State.servoWith, h]

/-- The sixteenth update in a row within LOCK_THR goes to LOCKED (R31). -/
theorem State.countUpdate_sixteenth {s : State} {off : Int} (h : off.natAbs ≤ s.rf Reg.IND_SRC_THR 15 0) (hn : s.ind.lockN = 15) :
    (s.countUpdate off).ind.st = .locked := by
  rw [State.countUpdate, if_pos h, if_pos (by omega), State.setTimeState_st]

/-- Whether the update steers or steps before it is counted, it is the sixteenth. -/
theorem State.servoWith_sixteenth {s : State} {x : Nat} (hst : s.ind.st = .acquiring ∨ s.ind.st = .holdover)
    (ho : (s.offsetOf x).natAbs ≤ s.rf Reg.IND_SRC_THR 15 0) (hn : s.ind.lockN = 15) : (s.servoWith x).ind.st = .locked := by
  have steers : (s.steer.countUpdate (s.offsetOf x)).ind.st = .locked := countUpdate_sixteenth (by simpa using ho) (by simpa using hn)
  rcases hst with h | h
  · rw [servoWith_of_acquiring h]
    split
    · exact countUpdate_sixteenth (by rw [stepBy_lockThr]; exact ho) ((stepBy_lockN ..).trans hn)
    · exact steers
  · rw [servoWith_of_holdover h]
    exact steers

/-- Settles O20: each command by the conditions of its row; the servo by the time state that it works in. -/
theorem deviceTimeCommandsComplete : Obligations.DeviceTimeCommandsComplete := by
  refine ⟨fun s who val => ⟨fun h => ?_, fun x h hx => ?_, fun hw => ⟨fun ha => ⟨?_, ?_⟩, fun ha => ?_⟩,
    fun hw => ⟨fun ha => ⟨?_, ?_⟩, fun ha => ⟨?_, ?_⟩⟩, fun hst he hd => ⟨?_, ?_⟩, fun hst hd => ?_, ?_, ?_⟩,
    fun z x => ⟨fun hst hw => ?_, State.servoWith_sixteenth, fun hst => ?_, z.steer_bounded⟩⟩
  · exact congrArg (done s) (if_pos h)
  · subst h
    exact congrArg (done s) (if_neg hx)
  · exact congrArg (done s) ((if_pos hw).trans (if_pos ha))
  · exact State.stepTime_time ..
  · exact congrArg (done s) ((if_pos hw).trans (if_neg (by simp [ha])))
  · exact congrArg (done s) ((if_pos hw).trans (if_neg (by simp [ha])))
  · exact State.setTimeState_st ..
  · exact congrArg (done s) ((if_pos hw).trans (if_pos ha))
  · exact State.sqcEach_rb _ _ _ _ (by decide) (by decide)
  · exact congrArg (done s) (if_pos (by simp [hst, he, hd]))
  · simp
  · exact congrArg (done s) (if_pos (by simpa [hd] using hst))
  · exact s.gives_of_out rfl rfl
  · exact s.gives_of_out rfl rfl
  · rw [State.servoWith_of_acquiring hst, if_pos hw, State.countUpdate_time, State.stepBy_time]
  · rw [State.servoWith_of_locked hst, State.steer_time]

end Sys2Proof.Machine
end

section
/-!
SUPPORT. PTP (R34, R35): what is passed on leaves the ports, and what each message gives by the port and the domain that it meets.
-/

namespace Sys2Proof.Machine

theorem State.forwardSync_port1588 (s : State) (p : Nat) (two : Bool) (seq origin : Nat) (corr : Int) (res k : Nat) :
    (s.forwardSync p two seq origin corr res).port1588 k = s.port1588 k := (s.forwardSync_areas ..).port1588 k

theorem State.forwardFollowUp_port1588 (s : State) (p seq origin : Nat) (corr : Int) (res k : Nat) :
    (s.forwardFollowUp p seq origin corr res).port1588 k = s.port1588 k := (s.forwardFollowUp_areas ..).port1588 k

/-- A transparent port is no port of the clock. -/
theorem State.ptpSlave_of_ptpTc {s : State} {p : Nat} (h : s.ptpTc p = true) : s.ptpSlave p = false := by simp [State.ptpSlave, h]
theorem State.ptpSecond_of_ptpTc {s : State} {p : Nat} (h : s.ptpTc p = true) : s.ptpSecond p = false := by simp [State.ptpSecond, h]

section
variable {s : State} {p : Fin 16} {sub : Fin 4} {dom : BitVec 8} {seq : BitVec 16} {origin : Nat} {corr : Int} {res ta : Nat} {a : AnnounceData}

/-- A message of another domain has no effect (R34). -/
theorem ptp_of_other_domain (h : s.ptpOurs dom = false) (two : Bool) :
    ∀ i ∈ [Instr.ptpSyncRx ⟨⟨p, dom⟩, sub⟩ two seq origin corr res, .ptpFollowUpRx ⟨p, dom⟩ seq origin corr res,
      .ptpAnnounceRx ⟨p, dom⟩ ⟨seq, a⟩, .ptpPdelayReqRx ⟨⟨p, dom⟩, sub⟩ seq, .ptpPdelayRespRx ⟨⟨p, dom⟩, sub⟩ seq ta], s.Gives i s := by
  have foreign : (!s.ptpOurs dom) = true := by simp [h]
  simp only [List.forall_mem_cons, List.not_mem_nil, false_implies, implies_true, and_true]
  refine ⟨congrArg (done s) (if_pos foreign), congrArg (done s) (if_pos foreign), congrArg (done s) (if_pos foreign),
    congrArg (done s) (if_neg (by simp [h])), congrArg (done s) ?_⟩
  split
  · exact if_neg (by simp [h])
  · rfl

/-- A Sync on a slave port: measured at once, or kept until its Follow_Up (R34). -/
theorem ptpSyncRx_of_slave (h : s.ptpOurs dom = true) (hs : s.ptpSlave p.val = true) (two : Bool) :
    let x := (s.forwardSync p.val two seq.toNat origin corr res).ptpHeard
    s.Gives (.ptpSyncRx ⟨⟨p, dom⟩, sub⟩ two seq origin corr res)
      (if two then x.setPort1588 p.val { s.port1588 p.val with wait := some ⟨seq, s.portStamp p.val sub.val, corr⟩ }
      else x.ptpMeasure p.val (s.portStamp p.val sub.val) origin corr seq) := by
  refine congrArg (done s) ((if_neg (by simp [h])).trans ((if_pos hs).trans ?_))
  rw [State.forwardSync_port1588]

theorem ptpSyncRx_of_tc (h : s.ptpOurs dom = true) (ht : s.ptpTc p.val = true) (two : Bool) :
    s.Gives (.ptpSyncRx ⟨⟨p, dom⟩, sub⟩ two seq origin corr res) (s.forwardSync p.val two seq.toNat origin corr res) :=
  congrArg (done s) ((if_neg (by simp [h])).trans ((if_neg (by simp [State.ptpSlave_of_ptpTc ht])).trans
    (if_neg (by simp [State.ptpSecond_of_ptpTc ht]))))

/-- A Follow_Up of the Sync that a slave port waits with is measured with that Sync's stamp (R34). -/
theorem ptpFollowUpRx_of_wait (h : s.ptpOurs dom = true) (hs : s.ptpSlave p.val = true) {w : PtpWait} (hw : (s.port1588 p.val).wait = some w)
    (hq : w.seq = seq) : s.Gives (.ptpFollowUpRx ⟨p, dom⟩ seq origin corr res)
      (((s.forwardFollowUp p.val seq.toNat origin corr res).setPort1588 p.val { s.port1588 p.val with wait := none }).ptpMeasure p.val w.rxTs origin
        (w.corr + corr) seq) := by
  show execPtpFollowUpRx ⟨p, dom⟩ seq origin corr res s = _
  simp [execPtpFollowUpRx, h, hw, hs, hq, State.forwardFollowUp_port1588, done]

/-- An Announce goes on, and on a port of the clock the BMCA takes it (R34). -/
theorem ptpAnnounceRx_of_ours (h : s.ptpOurs dom = true) :
    let z := each (s.ptpTargets p.val) (fun x r => x.sendAnnounce r seq.toNat x.time a) s
    s.Gives (.ptpAnnounceRx ⟨p, dom⟩ ⟨seq, a⟩)
      (if s.ptpOn p.val && !s.ptpTc p.val then
        ((z.setPort1588 p.val { s.port1588 p.val with best := some a, bestAt := s.up }).bmca).judgeSources
      else z) := by
  intro z
  have hz : z.port1588 p.val = s.port1588 p.val := (each_areas fun _ _ => State.sendAnnounce_areas ..).port1588 p.val
  refine congrArg (done s) ((if_neg (by simp [h])).trans ?_)
  rw [← hz]

theorem ptpPdelayRespRx_of_match (h : s.ptpOurs dom = true) (hon : s.ptpOn p.val = true) {t1 : Nat} (ht : (s.port1588 p.val).pdT1 = some t1)
    (hq : (s.port1588 p.val).pdSeq = seq) : s.Gives (.ptpPdelayRespRx ⟨⟨p, dom⟩, sub⟩ seq ta)
      (s.setPort1588 p.val { s.port1588 p.val with delay := (((s.portStamp p.val sub.val : Int) - t1) - ta) / 2, pdT1 := none }) := by
  show execPtpPdelayRespRx ⟨⟨p, dom⟩, sub⟩ seq ta s = _
  simp [execPtpPdelayRespRx, h, hon, ht, hq, done]

end

/-- PTP that is lost is no qualified source (R30). -/
theorem State.losePtp_qual (s : State) : s.losePtp.ind.ptp.qual = false := by
  rw [State.losePtp, (State.judgeSources_keepsSources _).ptp]
  split <;> simp

/-- Settles O21: each message by the port that it meets, each timeout by what is missing. -/
theorem ptpCommandsComplete : Obligations.PtpCommandsComplete := by
  intro s p sub dom two seq origin corr res ta a q fwd
  refine ⟨fun h => ⟨fun hs => ⟨?_, ?_, fun w hw hq => ?_⟩, fun ht => ?_, ⟨fun hon ht => ?_, fun ht => ?_⟩, fun hon h1 => ?_, fun hon h2 => ?_,
    fun t1 hon ht hq => ?_⟩, fun h => ptp_of_other_domain h two, rfl, fun hm h1 => ?_, fun hm h2 => ?_, fun hm => ?_, fun hon => ?_, fun hs hl => ?_,
    fun he hs => ?_, s.losePtp_qual⟩
  · exact ptpSyncRx_of_slave h hs false
  · exact ptpSyncRx_of_slave h hs true
  · exact ptpFollowUpRx_of_wait h hs hw hq
  · exact ptpSyncRx_of_tc h ht two
  · exact (ptpAnnounceRx_of_ours h).to (if_pos (by simp [hon, ht]))
  · exact (ptpAnnounceRx_of_ours h).to (if_neg (by simp [ht]))
  · exact congrArg (done s) ((if_pos (by simp [hon, h])).trans (if_pos h1))
  · exact congrArg (done s) ((if_pos (by simp [hon, h])).trans (if_neg (by simp [h2])))
  · exact ptpPdelayRespRx_of_match h hon ht hq
  · exact congrArg (done s) ((if_pos hm).trans (if_pos h1))
  · exact congrArg (done s) ((if_pos hm).trans (if_neg (by simp [h2])))
  · exact congrArg (done s) (if_pos hm)
  · exact congrArg (done s) (if_pos hon)
  · exact congrArg (done s) (if_pos (by simp [hs, hl]))
  · exact congrArg (done s) ((if_neg (by simpa using he)).trans (if_pos hs))

end Sys2Proof.Machine
end

section
/-!
SUPPORT. The strobes of a tick (R45, R49, R50, R504), the time inputs and the pulse outputs (R30, R36, R37): a unit that fires, what a capture
measures, a bad frame, an edge of an output.
-/

namespace Sys2Proof.Machine

/-! ## Strobes -/

/-- A unit fires once its instant is reached and the commit, the evaluations and the lower units of the tick are done (R50, R504). -/
theorem generalInstantFire_fires {s : State} {u : Fin 32} {a : ArmedInstant} (ha : s.unit u.val = some a) (hr : s.instReached a = true)
    (hc : s.commitDue = false) (he : ∀ m, m < 16 → s.evalDue m = false) (hu : ∀ v, v < u.val → s.unitDue v = false) :
    s.Gives (.generalInstantFire u) (s.fireUnit u.val a) := by
  show execGeneralInstantFire u s = _
  rw [execGeneralInstantFire, ha]
  exact congrArg (done s) (if_pos (by simpa [hr, hc] using ⟨he, hu⟩))

/-- Settles O32: an evaluation and a unit where nothing before them in the tick is due, the commit where it is reached. -/
theorem strobeCommandsComplete : Obligations.StrobeCommandsComplete := by
  intro s n u a c e num off tgt
  refine ⟨fun hd hc hb => ?_, fun ha hr hc he hu => ⟨fun hl => ?_, fun hl => ?_⟩, fun hc hr => ?_⟩
  · exact congrArg (done s) (if_pos (by simpa [State.mayStrobe, hd, hc] using hb))
  · exact (generalInstantFire_fires ha hr hc he hu).to (by simp [State.fireUnit, hl, off, tgt])
  · exact (generalInstantFire_fires ha hr hc he hu).to (by simp [State.fireUnit, hl, off, tgt])
  · show execCommitStrobe s = _
    rw [execCommitStrobe, hc]
    exact congrArg (done s) (if_pos hr)

/-! ## Time inputs and pulse outputs -/

@[simp] theorem State.tinSrc_setTinSrc_same (s : State) (n : Nat) (r : SourceState) : (s.setTinSrc n r).tinSrc n = r := by
  unfold State.setTinSrc State.tinSrc
  split <;> rfl

@[simp] theorem State.tinSrc_showOffsets (s : State) (n : Nat) : s.showOffsets.tinSrc n = s.tinSrc n := by
  simp only [State.tinSrc, State.showOffsets_ind]

/-- The register that shows the offset of a time input (R53). -/
def tinOffsetReg (n : Nat) : Nat := if n = 0 then Reg.IND_OFFSET_TIN0 else Reg.IND_OFFSET_TIN1

/-- The register of an input shows its offset, saturated (R32). -/
theorem State.reg_showOffsets_tin (s : State) (n : Fin 2) : s.showOffsets.reg (tinOffsetReg n.val) = wordOfInt (satS 32 (s.tinSrc n.val).off) := by
  unfold State.showOffsets
  fin_cases n
  · exact (State.reg_setReg_ne _ _ _ _ (by decide)).trans (State.reg_setReg_same ..)
  · exact State.reg_setReg_same ..

/-- What has been measured on an input stands in its record and in its register until the sources have been judged. -/
theorem State.measured_of_keepsSources {s x : State} {n : Fin 2} {r : SourceState} (h : (s.setTinSrc n.val r).showOffsets.KeepsSources x) :
    x.tinSrc n.val = r ∧ x.reg (tinOffsetReg n.val) = wordOfInt (satS 32 r.off) := by
  have free : regKey (tinOffsetReg n.val) ∉ judgeRegs.map regKey := by fin_cases n <;> decide
  refine ⟨(h.tinSrc n.val).trans (by simp), ?_⟩
  rw [h.regs _ free, State.reg_showOffsets_tin, State.tinSrc_setTinSrc_same]

/-- A pulse as a record: one more in a row where it comes a second after the one before, within 1 us (R30). -/
theorem SourceState.pulse_eq (r : SourceState) (at_ : Nat) :
    let good := if r.seen = true ∧ r.last + secU ≤ at_ + usU ∧ at_ ≤ r.last + secU + usU then r.good + 1 else 0
    r.pulse at_ = { r with seen := true, good := good, qual := r.qual || decide (4 ≤ good), last := at_ } := by
  simp [SourceState.pulse, and_assoc]

section
variable {s : State} {n : Fin 2} {sub : Fin 4} {cyc : Nat} {f : IrigFrame}

/-- An invalid or a missing frame: the first starts the count again, the second in a row loses the input (R30). -/
theorem State.irigBad_first (h : (s.tinSrc n.val).missed = 0) :
    s.irigBad n.val = s.setTinSrc n.val { s.tinSrc n.val with good := 0, missed := 1 } := by
  simp [State.irigBad, h]

theorem State.irigBad_second (h : (s.tinSrc n.val).missed ≠ 0) : s.irigBad n.val = s.loseTin n.val := if_pos (by omega)

theorem irigBad_of_badFrame (hon : s.rb (Reg.IND_TIN_CFG n.val) 31 = true) (hs : s.tinSig n.val = 1) :
    ∀ c ∈ [Instr.irigFrameRx ⟨n, sub⟩ { f with valid := false }, .irigFrameMissing n], s.Gives c (s.irigBad n.val) := by
  have taken : (s.rb (Reg.IND_TIN_CFG n.val) 31 && s.tinSig n.val == 1) = true := by simp [hon, hs]
  simp only [List.forall_mem_cons, List.not_mem_nil, false_implies, implies_true, and_true]
  exact ⟨congrArg (done s) ((if_pos taken).trans (if_neg (by simp))), congrArg (done s) (if_pos taken)⟩

/-- An input that is lost keeps its last offset alone (R30). -/
theorem State.loseTin_tinSrc (s : State) (n : Nat) : (s.loseTin n).tinSrc n = { off := (s.tinSrc n).off } := by
  unfold State.loseTin
  split
  · rw [((deliver_keepsSources _ _).trans (judgeSources_keepsSources _)).tinSrc, tinSrc_setTinSrc_same]
  · rw [tinSrc_setTinSrc_same]

/-- At an edge an output that may pulse and has not marked it does so once (R37). -/
theorem ppsOutPulse_of_edge {e : Nat} (he : s.ppsEdge n.val = some e) (ha : s.ppsAllowed n.val = true) :
    s.Gives (.ppsOutPulse n) (if s.pps n.val = e + 1 then s
      else (s.setPps n.val (e + 1)).emit (.pulse n.val e (e + s.rf (Reg.IND_PPS_CFG n.val) 18 0 * usU))) := by
  show execPpsOutPulse n s = _
  rw [execPpsOutPulse, he]
  by_cases h : s.pps n.val = e + 1 <;> simp [h, ha, done]

end

/-- Settles O59: what a capture measures stands until the sources are judged; loss and pulses by the conditions of their rows. -/
theorem timeInputAndOutputCommandsComplete : Obligations.TimeInputAndOutputCommandsComplete := by
  intro s n sub cyc f r on shown at_ near count sec row
  refine ⟨fun hon hs => ?_, fun hon hs hv => ?_, fun hon hs c hc => ⟨fun hm => ?_, fun hm => ?_⟩, fun hs hseen hlast => ⟨?_, s.loseTin_tinSrc n.val⟩,
    fun e he ha => ⟨fun hp => ?_, fun hp => ?_⟩⟩
  · intro off
    have hg : s.Gives (.tinEdgeCapture ⟨n, sub⟩ cyc)
        (((s.setTinSrc n.val { r.pulse at_ with off := off }).showOffsets).judgeTen (1 - n.val) cyc).judgeSources :=
      congrArg (done s) (if_pos (by simp [on, hon, hs]))
    have frame := hg.areas (l := [.regs, .out, .ind, .hst]) rfl
    obtain ⟨h1, h2⟩ := State.measured_of_keepsSources ((State.judgeTen_keepsSources _ (1 - n.val) cyc).trans (State.judgeSources_keepsSources _))
    refine ⟨_, hg, h1.trans ?_, h2, frame.time, frame⟩
    rw [SourceState.pulse_eq]
  · intro off
    have hg : s.Gives (.irigFrameRx ⟨n, sub⟩ f) ((s.setTinSrc n.val { r with
        seen := true, good := row, qual := r.qual || decide (2 ≤ row), last := s.up, lastSec := sec.toNat, missed := 0
        off := off }).showOffsets).judgeSources :=
      congrArg (done s) ((if_pos (by simp [on, hon, hs])).trans (if_pos hv))
    have frame := hg.areas (l := [.regs, .out, .ind, .hst]) rfl
    obtain ⟨h1, h2⟩ := State.measured_of_keepsSources (State.judgeSources_keepsSources _)
    exact ⟨_, hg, h1, h2, frame.time, frame⟩
  · exact (irigBad_of_badFrame hon hs c hc).to (State.irigBad_first hm)
  · exact (irigBad_of_badFrame hon hs c hc).to (State.irigBad_second hm)
  · exact congrArg (done s) (if_pos (by simpa [hs] using ⟨hseen, hlast⟩))
  · exact (ppsOutPulse_of_edge he ha).to (if_neg hp)
  · exact (ppsOutPulse_of_edge he ha).to (if_pos hp)

end Sys2Proof.Machine
end

section
/-!
SUPPORT. Loops that write one register for each number below a bound, and with them the commands that show a record by its select register (R8); a bit
of a status register beside the one that an event sets.
-/

namespace Sys2Proof.Machine

theorem State.OnlyChanges.ing {s t : State} {l : List Area} (h : s.OnlyChanges t l) (hl : .ing ∉ l := by decide) : t.ing = s.ing := h.2 .ing hl

theorem State.OnlyChanges.out {s t : State} {l : List Area} (h : s.OnlyChanges t l) (hl : .out ∉ l := by decide) : t.out = s.out := h.2 .out hl

/-! ## Registers written in a loop -/

section
variable (s : State) {n : Nat} {a : Nat → Nat} (w : Nat → Word)

theorem State.each_setReg_succ : each (List.range (n + 1)) (fun x i => x.setReg (a i) (w i)) s =
    (each (List.range n) (fun x i => x.setReg (a i) (w i)) s).setReg (a n) (w n) := by
  simp [each, List.range_succ]

/-- A loop over different registers leaves each of them with its value. -/
theorem State.reg_each_setReg (inj : ∀ i < n, ∀ j < n, regKey (a i) = regKey (a j) → i = j) :
    ∀ k < n, (each (List.range n) (fun x i => x.setReg (a i) (w i)) s).reg (a k) = w k := by
  induction n with
  | zero => exact fun k hk => absurd hk (Nat.not_lt_zero k)
  | succ n ih =>
    intro k hk
    rw [State.each_setReg_succ]
    rcases Nat.lt_succ_iff_lt_or_eq.1 hk with hlt | rfl
    · rw [State.reg_setReg_ne _ _ _ _ fun e => hlt.ne (inj k hk n (Nat.lt_succ_self n) e)]
      exact ih (fun i hi j hj => inj i (Nat.lt_succ_of_lt hi) j (Nat.lt_succ_of_lt hj)) k hlt
    · exact State.reg_setReg_same ..

theorem State.each_setReg_stays : s.RegsStay (each (List.range n) (fun x i => x.setReg (a i) (w i)) s) ((List.range n).map a) := by
  induction n with
  | zero => exact .refl _ _
  | succ n ih =>
    rw [State.each_setReg_succ]
    refine (ih.mono ?_).trans (State.setReg_stays _ _ _ _ ?_) <;> simp [List.range_succ]

theorem State.each_setReg_areas : s.OnlyChanges (each (List.range n) (fun x i => x.setReg (a i) (w i)) s) [.regs] :=
  each_areas fun _ _ => State.setReg_areas ..

end

/-- A command that writes a select register and then the data registers beside it shows what is selected. -/
theorem State.snapshots_of_writes {s : State} {c : Instr} {sel v n : Nat} {data : Nat → Nat} {w : Nat → Word}
    (h : s.Gives c (each (List.range n) (fun y i => y.setReg (data i) (w i)) (s.setReg sel (BitVec.ofNat 32 v))))
    (inj : ∀ i < n, ∀ j < n, regKey (data i) = regKey (data j) → i = j) (hsel : regKey sel ∉ ((List.range n).map data).map regKey) :
    s.Snapshots c sel v data n w := by
  have areas := (s.setReg_areas sel (BitVec.ofNat 32 v)).trans (State.each_setReg_areas _ (n := n) (a := data) w)
  refine ⟨_, h.trans (congrArg Host.Outcome.next (s.closed_of_out _ areas.out)), ?_, State.reg_each_setReg _ w inj, ?_, areas⟩
  · exact (State.each_setReg_stays _ w sel hsel).trans (State.reg_setReg_same ..)
  · exact (s.setReg_stays _ _ _ (List.mem_cons_self ..)).trans ((State.each_setReg_stays _ w).mono (List.subset_cons_self ..))

/-! ## Bits beside that of an event -/

/-- A new event of an SQC register leaves every other bit below SEQ as it was, there and in every register but those of events (R8). -/
theorem State.rb_sqc_ne (s : State) {off bit e a j : Nat} (hb : bit < 24) (hj : j < 24) (hne : j ≠ bit) (ha : regKey a ∉ eventRegs.map regKey) :
    (s.sqc off bit e).rb a j = s.rb a j := by
  by_cases h : regKey a = regKey off
  · have shared (x : State) : x.rb a j = x.rb off j := by simp only [State.rb, State.reg, h]
    rw [shared, shared, State.sqc_rb _ _ _ _ _ hb hj (h ▸ ha)]
    simp [hne]
  · exact congrArg (tbit · j) (s.sqc_stays off bit e a (by simpa [h] using ha))

end Sys2Proof.Machine
end

section
/-!
SUPPORT. Links and field segments (R55-R63): what is left of a port's status bits, and each command by the condition that it meets.
-/

namespace Sys2Proof.Machine

@[simp] theorem State.portEvent_ing (s : State) (p bit : Nat) : (s.portEvent p bit).ing = s.ing := (s.portEvent_areas p bit).ing

theorem portStatus_free (p : Fin 16) : regKey (Reg.ETH_PORT_STATUS p.val) ∉ eventRegs.map regKey := by
  revert p
  decide

/-- The events of the ports leave the bits of a port's status that show its link (R89). -/
theorem State.rb_portEvent_ne (s : State) (p : Fin 16) {q b j : Nat} (hb : b < 24) (hj : j < b) :
    (s.portEvent q b).rb (Reg.ETH_PORT_STATUS p.val) j = s.rb (Reg.ETH_PORT_STATUS p.val) j :=
  s.rb_sqc_ne hb (hj.trans hb) hj.ne (portStatus_free p)

@[simp] theorem State.rb_setVerify (s : State) (k a i : Nat) (v : VerifyState) : (s.setVerify k v).rb a i = s.rb a i := rfl

/-- The state of a port after its link has come up (R56). -/
def State.linkCameUp (s : State) (p : Nat) : State :=
  let on := (s.setRb (Reg.ETH_PORT_STATUS p) 2 true).setRb (Reg.ETH_PORT_STATUS p) 3 true
  let full := on.setRb (Reg.ETH_PORT_STATUS p) 4 (3 ≤ s.rf (Reg.ETH_PORT_CFG p) 31 29 && s.rb (Reg.ETH_PORT_CFG p) 25)
  ((full.setRf (Reg.ETH_PORT_STATUS p) 7 5 (s.verifyStart p)).setVerify p {}).portEvent p 15

/-- The bits that a link which comes up sets, those below the verify state, outlast what follows. -/
theorem State.rb_linkCameUp (s : State) (p : Fin 16) {j : Nat} (hj : j < 5) : (s.linkCameUp p.val).rb (Reg.ETH_PORT_STATUS p.val) j =
    if j = 4 then (3 ≤ s.rf (Reg.ETH_PORT_CFG p.val) 31 29 && s.rb (Reg.ETH_PORT_CFG p.val) 25) else if j = 3 then true else if j = 2 then true
    else s.rb (Reg.ETH_PORT_STATUS p.val) j := by
  rw [State.linkCameUp, State.rb_portEvent_ne _ p (by omega) (by omega), State.rb_setVerify, State.rb_setRf_same _ _ _ _ _ _ (by omega) (.inl hj)]
  simp only [State.rb_setRb_same _ _ _ _ _ (by omega : 2 < 32), State.rb_setRb_same _ _ _ _ _ (by omega : 3 < 32),
    State.rb_setRb_same _ _ _ _ _ (by omega : 4 < 32)]

theorem State.verify_linkCameUp (s : State) (p : Nat) : (s.linkCameUp p).verify p = {} := by
  rw [State.linkCameUp, State.verify, State.portEvent_ing]
  exact State.verify_setVerify ..

theorem portLinkUp_of_down {s : State} {p : Fin 16} (h1 : 1 ≤ s.rf (Reg.ETH_PORT_CFG p.val) 31 29) (h4 : s.rf (Reg.ETH_PORT_CFG p.val) 31 29 ≤ 4)
    (hd : s.rb (Reg.ETH_PORT_STATUS p.val) 2 = false) : s.Gives (.portLinkUp p) (s.linkCameUp p.val) :=
  congrArg (done s) (if_pos (by simp [h1, h4, hd]))

/-- A link that has gone down is not up any more (R56). -/
theorem State.rb_linkDown (s : State) (p : Fin 16) (why : LinkLoss) : (s.linkDown p.val why).rb (Reg.ETH_PORT_STATUS p.val) 2 = false := by
  have event (x : State) (q b : Nat) (hb : 13 ≤ b ∧ b < 24) :
      (x.portEvent q b).rb (Reg.ETH_PORT_STATUS p.val) 2 = x.rb (Reg.ETH_PORT_STATUS p.val) 2 := x.rb_portEvent_ne p hb.2 (by omega)
  have either {c : Prop} [Decidable c] (x y : State) : (if c then x else y).rb (Reg.ETH_PORT_STATUS p.val) 2 =
    if c then x.rb (Reg.ETH_PORT_STATUS p.val) 2 else y.rb (Reg.ETH_PORT_STATUS p.val) 2 := apply_ite (State.rb · _ 2) ..
  simp [State.linkDown, either, event, State.rb_setRf_same, State.rb_setRb_same]

section
variable {s : State} {p : Fin 16} {g : Fin 4}

/-- On a link that is up a verify event has its effect (R60). -/
theorem preemptVerify_of_up (hu : s.rb (Reg.ETH_PORT_STATUS p.val) 2 = true) (what : VerifyEvent) :
    s.Gives (.preemptVerify p what) (s.preemptVerify p.val what) := congrArg (done s) (if_pos hu)

theorem State.preemptVerify_attempt {p : Nat} (h1 : s.rf (Reg.ETH_PORT_STATUS p) 7 5 = 1) (ht : (s.verify p).tries < 3) :
    s.preemptVerify p .attempt = ((s.setVerify p { tries := (s.verify p).tries + 1, at_ := s.up }).setRf (Reg.ETH_PORT_STATUS p) 7 5 2).emit
      (.verifyPacket p false) := by
  simp [State.preemptVerify, h1, Nat.not_le.2 ht]

/-- On a segment under PLCA the coordinator sends the BEACON that begins a cycle, another node hears it (R61). -/
theorem plcaBeacon_of_plca (hon : s.segOn g.val = true) (hp : s.rb (Reg.T1S_SEG_CFG g.val) 30 = true) : s.Gives (.plcaBeacon g)
    (if s.plcaNode g.val = 0 then (if s.beaconDue g.val && !s.segBusy g.val then (s.beaconCycle g.val).emit (.beacon g.val) else s)
      else s.beaconCycle g.val) := congrArg (done s) (if_pos (by simp [hon, hp]))

/-- A frame that goes on past 3 ms on a segment is cut (R63). -/
theorem t1sJabberCutoff_of_frame {f : Nat} (hon : s.segOn g.val = true) (hl : (s.frame f).live = true) (ht : (s.frame f).tailAt = none)
    (hp : (s.frame f).port = 16 + g.val) (hj : (s.frame f).headAt + 3 * msU < s.up) :
    s.Gives (.t1sJabberCutoff g f) (((s.inc (Reg.T1S_JABBER g.val)).segEvent g.val 13).frameTail f [] false false none) := by
  show execT1sJabberCutoff g f s = _
  simp [execT1sJabberCutoff, hon, hl, ht, hp, hj, done]

end

/-- Settles O24: the links by their status bits, each command of a segment by the condition of its row. -/
theorem portAndSegmentCommandsComplete : Obligations.PortAndSegmentCommandsComplete := by
  intro s p g why f mode
  refine ⟨fun h1 h4 hd => ?_, fun hu => ⟨?_, s.rb_linkDown p why, fun he => ?_, fun h1 ht => ?_, fun h2 => ?_⟩,
    fun hon hp => ⟨fun hn hd hb => ?_, fun hn => ?_⟩, fun hon => ⟨?_, ?_⟩, fun hon hf => ?_, fun hon hp => ?_, fun hon hl ht hp hj => ?_⟩
  · have hg := portLinkUp_of_down h1 h4 hd
    exact ⟨_, hg, s.rb_linkCameUp p (by decide), s.rb_linkCameUp p (by decide), s.verify_linkCameUp p.val, s.rb_linkCameUp p (by decide),
      (hg.areas (l := [.regs, .out, .ing, .hst]) rfl).within⟩
  · exact congrArg (done s) (if_pos hu)
  · exact (preemptVerify_of_up hu .partner).to (if_pos he)
  · exact (preemptVerify_of_up hu .attempt).to (State.preemptVerify_attempt h1 ht)
  · exact (preemptVerify_of_up hu .response).to (if_pos h2)
  · exact (plcaBeacon_of_plca hon hp).to ((if_pos hn).trans (if_pos (by simp [hd, hb])))
  · exact (plcaBeacon_of_plca hon hp).to (if_neg hn)
  · exact congrArg (done s) (if_pos hon)
  · exact congrArg (done s) (if_pos hon)
  · exact congrArg (done s) (if_pos (by simp [hon, hf]))
  · exact congrArg (done s) ((if_neg (by simp [hp])).trans (if_pos hon))
  · exact t1sJabberCutoff_of_frame hon hl ht hp hj

end Sys2Proof.Machine
end

section
/-!
SUPPORT. The reception of a frame (R57-R59, R69, R78) and the tables of a redundant group (R65, R66): each command by the condition that it meets.
-/

namespace Sys2Proof.Machine

/-! ## Reception -/

/-- What it takes for a frame to be classified (R78): as clsReady, condition by condition. -/
theorem State.clsReady_iff (s : State) (x : Frame) : s.clsReady x = true ↔
    x.live = true ∧ x.clsAt = none ∧ x.thruOnly = false ∧ x.parse.isSome = true ∧ x.parsedAt + 180 * nsU ≤ s.up ∧ 64 ≤ x.bytes.length ∧
      (s.onPrp x.port = true → x.tailAt.isSome = true) := by
  simp [State.clsReady, and_assoc, Bool.or_eq_true, imp_iff_not_or]

/-- Settles O25: each command by the condition of its row. -/
theorem frameReceptionCommandsComplete : Obligations.FrameReceptionCommandsComplete := by
  intro s port sub pre good re fc fu f bytes ext x
  refine ⟨fun hr hp => ?_, rfl, rfl, fun hl hc ht hparse hat h64 hprp hb hd => ?_, fun hl ht hport => ?_, fun hl ht hport hm => ?_,
    fun p seq r hlink hb => ?_⟩
  · have admitted : pre = false ∨ (port.toNat < 16 ∧ s.rb (Reg.ETH_PREEMPT port.toNat) 31 = true) := by
      cases pre
      · exact .inl rfl
      · exact .inr (hp rfl)
    exact congrArg (done s) (if_pos (by simpa [hr] using admitted))
  · have ready := (s.clsReady_iff x).2 ⟨hl, hc, ht, hparse, hat, h64, hprp⟩
    exact congrArg (done s) (if_pos (by simpa [hb, hd] using ready))
  · exact congrArg (done s) (if_pos (by simpa using ⟨⟨hl, ht⟩, hport⟩))
  · exact congrArg (done s) (if_pos (by simpa using ⟨⟨⟨hl, ht⟩, hport⟩, hm⟩))
  · show execHsrPassThrough f s = _
    rw [execHsrPassThrough, hlink]
    exact congrArg (done s) (if_neg (by simp [hb]))

/-! ## Redundant groups -/

/-- A command that replaces one group leaves the others as they were, and every other area. -/
theorem done_setGroup (s : State) (r : Nat) (g : RedGroup) :
    ∃ u, done s (s.setGroup r g) = .next u ∧ s.OnlyChanges u [.ing] ∧ (∀ j, j ≠ r → u.group j = s.group j) ∧ u.group r = g :=
  ⟨s.setGroup r g, congrArg Host.Outcome.next (s.closed_of_out _ rfl), s.setGroup_areas r g, fun j hj => s.group_setGroup_ne r j g hj,
    s.group_setGroup r g⟩

/-- A supervision frame of a group by what the node table holds of its source (R65). -/
theorem supervisionFrameRx_of_on {s : State} {r : Fin 8} {src : BitVec 48} (hon : s.redOn r.val = true) :
    let g := s.group r.val
    s.Gives (.supervisionFrameRx r src)
      (if g.nodes.any (·.src == src) then s.setGroup r.val { g with nodes := g.nodes.map fun n => if n.src = src then { n with at_ := s.up } else n }
      else if g.nodes.length < 1024 then s.setGroup r.val { g with nodes := g.nodes ++ [{ src := src, at_ := s.up }] }
      else s.inc (Reg.ETH_RED_NODE_FULL r.val)) := congrArg (done s) (if_neg (by simp [hon]))

/-- Settles O26: what expires or is forgotten is filtered out of one group; a supervision frame by what the node table holds. -/
theorem redundancyTableCommandsComplete : Obligations.RedundancyTableCommandsComplete := by
  intro s r src seq g
  refine ⟨?_, fun hon hnew hroom => ?_, fun hon hnew hfull => ?_, fun hon hold => ?_, fun hon hdue => ?_, ?_⟩
  · obtain ⟨u, hu, areas, others, hg⟩ := done_setGroup s r.val { g with dup := g.dup.filter fun e => !(e.matches src seq && !s.dupAlive r.val e) }
    exact ⟨u, hu, areas, others, by rw [hg], fun e => by simp [hg, List.mem_filter, -not_and, not_and_or]⟩
  · exact (supervisionFrameRx_of_on hon).to ((if_neg (by simpa using hnew)).trans (if_pos hroom))
  · exact (supervisionFrameRx_of_on hon).to ((if_neg (by simpa using hnew)).trans (if_neg (Nat.not_lt.2 hfull)))
  · exact (supervisionFrameRx_of_on hon).to (if_pos (by simpa using hold))
  · exact congrArg (done s) (if_pos (by simpa [hon] using hdue))
  · obtain ⟨u, hu, areas, others, hg⟩ :=
      done_setGroup s r.val { g with nodes := g.nodes.filter fun n => !(n.src == src && n.at_ + 60 * secU ≤ s.up) }
    exact ⟨u, hu, areas, others, by rw [hg], fun n => by simp [hg, List.mem_filter, -not_and, not_and_or]⟩

end Sys2Proof.Machine
end

section
/-!
SUPPORT. The commands of the classification table (R80, R81) and of the stranger log (R83, R84): which command a write of CLS_CMD runs, and what each
gives by the slot that it finds.
-/

namespace Sys2Proof.Machine

/-! ## Which command runs -/

/-- The command of number op on table t, which an admitted write w of interface i runs (R80). -/
def State.clsCmd (s : State) (i t : Nat) (w : Word) : Nat → State
  | 0 => s.clsLookupCmd i t w
  | 1 => s.clsInsertCmd i t w
  | 2 => s.clsUpdateCmd i t w
  | 3 => s.clsDeleteCmd i t w
  | _ => s.clsReadCmd i t w

section
variable {s : State} {who : Accessor} {i op : Nat} {val : Word}

/-- The number put into a command word is the one that it names. -/
theorem fld_cmdWord_op (hop : op ≤ 4) : fld (putFld val 31 28 (8 + op)) 30 28 = op := by
  rw [fld_putFld_sub _ _ _ _ _ _ (by decide) (by decide) (by decide) (by decide)]
  interval_cases op <;> rfl

/-- The fields below the number of a command stay. -/
theorem fld_cmdWord_below {hi lo : Nat} (h : hi < 28) : fld (putFld val 31 28 (8 + op)) hi lo = fld val hi lo :=
  fld_putFld_ne _ _ _ _ _ _ (by decide) (.inl h)

/-- A write of CLS_CMD that is admitted, on a table with buckets, runs its command (R80, R81). -/
theorem State.clsWrite_of_admitted (hop : op ≤ 4) (hw : s.mayWrite who (Reg.CLS_CMD i) = true) (hb : s.clsBuckets (fld val 27 27) ≠ 0)
    (ha : op = 0 ∨ op = 4 ∨ (i = 0 → s.isAdmin who = true)) :
    s.clsWrite who i op val = s.clsCmd i (fld val 27 27) (putFld val 31 28 (8 + op)) op := by
  have admitted : ¬(i = 0 && op != 0 && op != 4 && !s.isAdmin who) = true := by
    rcases ha with rfl | rfl | ha
    · simp
    · simp
    · simp only [Bool.and_eq_true, decide_eq_true_eq, Bool.not_eq_true']
      rintro ⟨⟨⟨hi, -⟩, -⟩, hn⟩
      simp [ha hi] at hn
  rw [State.clsWrite, State.writeCmd, if_pos hw, State.clsRun, fld_cmdWord_op hop, fld_cmdWord_below (by decide), if_neg (by omega), if_neg admitted,
    if_neg hb]
  interval_cases op <;> rfl

/-- On interface 0 a command that changes the table is denied to a writer that is not ADMIN (R80). -/
theorem State.clsWrite_of_denied (h1 : 1 ≤ op) (h3 : op ≤ 3) (hw : s.mayWrite who (Reg.CLS_CMD 0) = true) (ha : s.isAdmin who = false) :
    s.clsWrite who 0 op val = s.clsResult 0 (putFld val 31 28 (8 + op)) 5 := by
  rw [State.clsWrite, State.writeCmd, if_pos hw, State.clsRun, fld_cmdWord_op (by omega), if_neg (by omega), if_pos]
  simpa [ha] using (⟨by omega, by omega⟩ : op ≠ 0 ∧ op ≠ 4)

end

/-! ## What each command gives -/

section
variable {s : State} {i t : Nat} {w : Word}

theorem State.clsLookupCmd_hit {n : Nat} (h : s.clsFind t (s.clsKey i) = some n) :
    s.clsLookupCmd i t w = (s.clsReturn i (resWords (s.slotOf t n).res)).clsResult i (putFld w 15 0 n) 0 := by
  rw [State.clsLookupCmd, h]

theorem State.clsLookupCmd_miss (h : s.clsFind t (s.clsKey i) = none) : s.clsLookupCmd i t w = s.clsResult i w 2 := by
  rw [State.clsLookupCmd, h]

theorem State.clsInsertCmd_present (hr : badResult (s.clsRes i) = false) {n : Nat} (h : s.clsFind t (s.clsKey i) = some n) :
    s.clsInsertCmd i t w = s.clsResult i w 1 := by
  simp [State.clsInsertCmd, hr, h]

theorem State.clsInsertCmd_placed (hr : badResult (s.clsRes i) = false) (h : s.clsFind t (s.clsKey i) = none) {n : Nat}
    (hp : s.clsPlace t (s.clsKey i) = some n) : s.clsInsertCmd i t w =
      (s.setSlotOf t n { valid := true, bad := false, key := keyNat (s.clsKey i), res := resNat (s.clsRes i) }).clsResult i (putFld w 15 0 n) 0 := by
  simp [State.clsInsertCmd, hr, h, hp]

theorem State.clsInsertCmd_full (hr : badResult (s.clsRes i) = false) (h : s.clsFind t (s.clsKey i) = none) (hp : s.clsPlace t (s.clsKey i) = none) :
    s.clsInsertCmd i t w = s.clsFull.clsResult i w 3 := by
  simp [State.clsInsertCmd, hr, h, hp]

theorem State.clsUpdateCmd_hit (hr : badResult (s.clsRes i) = false) {n : Nat} (h : s.clsFind t (s.clsKey i) = some n) :
    s.clsUpdateCmd i t w = (s.setSlotOf t n { s.slotOf t n with res := resNat (s.clsRes i) }).clsResult i w 0 := by
  simp [State.clsUpdateCmd, hr, h]

theorem State.clsUpdateCmd_miss (hr : badResult (s.clsRes i) = false) (h : s.clsFind t (s.clsKey i) = none) :
    s.clsUpdateCmd i t w = s.clsResult i w 2 := by
  simp [State.clsUpdateCmd, hr, h]

theorem State.clsDeleteCmd_hit {n : Nat} (h : s.clsFind t (s.clsKey i) = some n) :
    s.clsDeleteCmd i t w = (s.setSlotOf t n { s.slotOf t n with valid := false }).clsResult i w 0 := by
  rw [State.clsDeleteCmd, h]

theorem State.clsDeleteCmd_miss (h : s.clsFind t (s.clsKey i) = none) : s.clsDeleteCmd i t w = s.clsResult i w 2 := by
  rw [State.clsDeleteCmd, h]

theorem State.clsReadCmd_outside {n : Nat} (hn : fld w 15 0 = n) (h : s.clsBuckets t * 4 ≤ n) : s.clsReadCmd i t w = s.clsResult i w 6 := by
  rw [State.clsReadCmd, hn, if_pos h]

theorem State.clsReadCmd_empty {n : Nat} (hn : fld w 15 0 = n) (h : n < s.clsBuckets t * 4) (hv : (s.slotOf t n).valid = false) :
    s.clsReadCmd i t w = s.clsResult i w 2 := by
  rw [State.clsReadCmd, hn, if_neg (Nat.not_le.2 h), if_pos (by simp [hv])]

end

/-! ## READ of a valid slot -/

/-- The end of a command writes its command and its status register alone. -/
theorem State.clsResult_stays (s : State) (i : Nat) (w : Word) (res : Nat) :
    s.RegsStay (s.clsResult i w res) [Reg.CLS_CMD i, Reg.CLS_CMD_STATUS i] :=
  (s.setReg_stays _ _ _ (by simp)).trans (State.setReg_stays _ _ _ _ (by simp))

theorem clsKeyReg_inj (i : Fin 2) : ∀ v < 10, ∀ w < 10, regKey (Reg.CLS_CMD_KEY i.val v) = regKey (Reg.CLS_CMD_KEY i.val w) → v = w := by
  revert i
  decide

theorem clsResReg_inj (i : Fin 2) : ∀ v < 6, ∀ w < 6, regKey (Reg.CLS_CMD_RES i.val v) = regKey (Reg.CLS_CMD_RES i.val w) → v = w := by
  revert i
  decide

/-- The staged key is none of the registers that a result and the end of a command write. -/
theorem clsKeyReg_free (i : Fin 2) : ∀ w < 10, regKey (Reg.CLS_CMD_KEY i.val w) ∉ ((List.range 6).map (Reg.CLS_CMD_RES i.val)).map regKey ∧
    regKey (Reg.CLS_CMD_KEY i.val w) ∉ [Reg.CLS_CMD i.val, Reg.CLS_CMD_STATUS i.val].map regKey := by
  revert i
  decide

theorem clsResReg_free (i : Fin 2) : ∀ w < 6, regKey (Reg.CLS_CMD_RES i.val w) ∉ [Reg.CLS_CMD i.val, Reg.CLS_CMD_STATUS i.val].map regKey := by
  revert i
  decide

/-- READ of a valid slot shows its key, its result and the status, and does nothing else (R81, log 149). -/
theorem State.clsReadCmd_of_valid {s : State} {i : Fin 2} {t n : Nat} {w : Word} (hn : fld w 15 0 = n) (h : n < s.clsBuckets t * 4)
    (hv : (s.slotOf t n).valid = true) :
    let u := s.clsReadCmd i.val t w
    (∀ k < 10, u.reg (Reg.CLS_CMD_KEY i.val k) = BitVec.ofNat 32 ((s.slotOf t n).key.toNat / 2 ^ (32 * k))) ∧
      (∀ k < 6, u.reg (Reg.CLS_CMD_RES i.val k) = wordAt (resWords (s.slotOf t n).res) k) ∧
      u.reg (Reg.CLS_CMD_STATUS i.val) = 0 ∧ s.OnlyChanges u [.regs] := by
  rw [State.clsReadCmd, hn, if_neg (Nat.not_le.2 h), if_neg (by simp [hv])]
  refine ⟨fun k hk => ?_, fun k hk => ?_, State.reg_setReg_same .., ?_⟩
  · rw [State.clsResult_stays _ _ _ _ _ (clsKeyReg_free i k hk).2, State.clsReturn, State.each_setReg_stays _ _ _ (clsKeyReg_free i k hk).1]
    exact State.reg_each_setReg s _ (clsKeyReg_inj i) k hk
  · rw [State.clsResult_stays _ _ _ _ _ (clsResReg_free i k hk)]
    exact State.reg_each_setReg _ _ (clsResReg_inj i) k hk
  · exact ((s.each_setReg_areas _).trans (State.each_setReg_areas ..)).trans ((State.setReg_areas ..).trans (State.setReg_areas ..))

/-! ## The stranger log -/

/-- The records that STRANGER_CLEAR clears, noted with the cycle in which it does (R83). -/
def State.noteCleared (s : State) (val : Word) : State :=
  { s with ing := { s.ing with
      strGone := (if s.ing.strGoneAt = s.up then s.ing.strGone else []) ++
        (if tbit val 8 then s.ing.strangers.filterMap (·.2) else (s.stranger (fld val 7 0)).toList)
      strGoneAt := s.up } }

/-- STRANGER_CLEAR of all records or of one (R83). -/
theorem strangerClear_of_mayWrite {s : State} {who : Accessor} (hw : s.mayWrite who Reg.CLS_STR_CLR = true) (val : Word) :
    exec (.strangerClear who val) s = .next
      (if tbit val 8 then { s.noteCleared val with ing := { (s.noteCleared val).ing with strangers := [] } }
      else (s.noteCleared val).setStranger (fld val 7 0) none) := by
  refine (congrArg (done s) (if_pos hw)).trans (congrArg Host.Outcome.next (s.closed_of_out _ ?_))
  split <;> rfl

/-- Settles O27: a command of the table by the slot that it finds, the log by selection and by clearing. -/
theorem classifierCommandsComplete : Obligations.ClassifierCommandsComplete := by
  intro s who i val v t key r
  refine ⟨fun hw hb => ?_, fun hw ha => ⟨?_, ?_, ?_⟩, fun hw => ?_, fun hw => ⟨fun h8 => ?_, fun h8 => ?_⟩⟩
  · have look : s.Gives (.clsLookup who i val) (s.clsLookupCmd i.val t (v 0)) :=
      congrArg (done s) (State.clsWrite_of_admitted (by decide) hw hb (.inl rfl))
    have read : s.Gives (.clsRead who i val) (s.clsReadCmd i.val t (v 4)) :=
      congrArg (done s) (State.clsWrite_of_admitted (by decide) hw hb (.inr (.inl rfl)))
    have slot : fld (v 4) 15 0 = fld val 15 0 := fld_cmdWord_below (by decide)
    refine ⟨fun n h => ?_, fun h => ?_, fun h => ?_, fun h hv => ?_, fun h hv => ?_, fun ha => ?_⟩
    · exact look.to (State.clsLookupCmd_hit h)
    · exact look.to (State.clsLookupCmd_miss h)
    · exact read.to (State.clsReadCmd_outside slot h)
    · exact read.to (State.clsReadCmd_empty slot h hv)
    · obtain ⟨hkey, hres, hst, areas⟩ := State.clsReadCmd_of_valid (i := i) slot h hv
      exact ⟨_, read.trans (congrArg Host.Outcome.next (s.closed_of_out _ areas.out)), hkey, hres, hst, areas⟩
    · have insert : s.Gives (.clsInsert who i val) (s.clsInsertCmd i.val t (v 1)) :=
        congrArg (done s) (State.clsWrite_of_admitted (by decide) hw hb (.inr (.inr ha)))
      have update : s.Gives (.clsUpdate who i val) (s.clsUpdateCmd i.val t (v 2)) :=
        congrArg (done s) (State.clsWrite_of_admitted (by decide) hw hb (.inr (.inr ha)))
      have delete : s.Gives (.clsDelete who i val) (s.clsDeleteCmd i.val t (v 3)) :=
        congrArg (done s) (State.clsWrite_of_admitted (by decide) hw hb (.inr (.inr ha)))
      refine ⟨fun hr => ⟨?_, ?_⟩, fun hr => ⟨fun n h => ⟨?_, ?_⟩, fun h => ⟨?_, fun n hp => ?_, fun hp => ?_⟩⟩, fun n h => ?_, fun h => ?_⟩
      · exact insert.to (if_pos hr)
      · exact update.to (if_pos hr)
      · exact insert.to (State.clsInsertCmd_present hr h)
      · exact update.to (State.clsUpdateCmd_hit hr h)
      · exact update.to (State.clsUpdateCmd_miss hr h)
      · exact insert.to (State.clsInsertCmd_placed hr h hp)
      · exact insert.to (State.clsInsertCmd_full hr h hp)
      · exact delete.to (State.clsDeleteCmd_hit h)
      · exact delete.to (State.clsDeleteCmd_miss h)
  · exact congrArg (done s) (State.clsWrite_of_denied (op := 1) (by decide) (by decide) hw ha)
  · exact congrArg (done s) (State.clsWrite_of_denied (op := 2) (by decide) (by decide) hw ha)
  · exact congrArg (done s) (State.clsWrite_of_denied (op := 3) (by decide) (by decide) hw ha)
  · exact State.snapshots_of_writes (congrArg (done s) (if_pos hw)) (by decide) (by decide)
  · exact ⟨_, (strangerClear_of_mayWrite hw val).trans (congrArg Host.Outcome.next (if_pos h8)), fun _ => rfl,
      (s.with_ing _).trans (State.with_ing _ _)⟩
  · exact ⟨_, (strangerClear_of_mayWrite hw val).trans (congrArg Host.Outcome.next (if_neg (by simp [h8]))), State.stranger_setStranger ..,
      fun j hj => State.stranger_setStranger_ne _ _ _ _ hj, (s.with_ing _).trans (State.setStranger_areas ..)⟩

end Sys2Proof.Machine
end

section
/-!
SUPPORT. Frame authentication (R96, R100, R101, R113) and the grid points of a stream (R127, R139, R449): a window reset by the context that is
selected, and a due cell in its two parts, what completes it and what the stream does once it is written.
-/

namespace Sys2Proof.Machine

/-! ## Windows -/

section
variable {s : State} {who : Accessor}

theorem State.resetWindow_of_noRxCtx (h : s.rxCtx (s.rf Reg.AUT_CTX_SEL 11 0) = 0) : s.resetWindow who = s.setReg Reg.AUT_CTX_CMD_STATUS 6 :=
  if_pos h

theorem State.resetWindow_of_denied (h : s.rxCtx (s.rf Reg.AUT_CTX_SEL 11 0) ≠ 0)
    (ho : s.adminOrOwner who (s.autCtx (s.rf Reg.AUT_CTX_SEL 11 0)).owner = false) :
    s.resetWindow who = (s.setReg Reg.AUT_CTX_CMD_STATUS 5).sqc Reg.AUT_STATUS 11 151 :=
  (if_neg h).trans (if_pos (by simp [ho]))

theorem State.resetWindow_of_allowed (h : s.rxCtx (s.rf Reg.AUT_CTX_SEL 11 0) ≠ 0)
    (ho : s.adminOrOwner who (s.autCtx (s.rf Reg.AUT_CTX_SEL 11 0)).owner = true) :
    s.resetWindow who = (s.setAutCtx (s.rf Reg.AUT_CTX_SEL 11 0)
      { s.autCtx (s.rf Reg.AUT_CTX_SEL 11 0) with high := none, window := 0 }).setReg Reg.AUT_CTX_CMD_STATUS 0 :=
  (if_neg h).trans (if_neg (by simp [ho]))

theorem resetWindow_of_mayWrite (hw : s.mayWrite who Reg.AUT_CTX_CMD = true) (val : Word) :
    s.Gives (.resetWindow who val) (s.resetWindow who) := congrArg (done s) (if_pos hw)

end

/-- A command that replaces one context and writes one register leaves the other contexts, registers and areas as they were. -/
theorem done_setAutCtx_setReg (s : State) (i off : Nat) (c : AutCtx) (v : Word) :
    ∃ u, done s ((s.setAutCtx i c).setReg off v) = .next u ∧ u.autCtx i = c ∧ (∀ j, j ≠ i → u.autCtx j = s.autCtx j) ∧ u.reg off = v ∧
      s.RegsStay u [off] ∧ s.OnlyChanges u [.regs, .aut] :=
  ⟨(s.setAutCtx i c).setReg off v, congrArg Host.Outcome.next (s.closed_of_out _ rfl), State.autCtx_setAutCtx ..,
    fun j hj => State.autCtx_setAutCtx_ne _ _ _ _ hj, State.reg_setReg_same ..,
    (State.stays_of_regs (State.setAutCtx_regs ..) _).trans (State.setReg_stays _ _ _ _ (by simp)),
    (s.setAutCtx_areas i c).within.andThen (State.setReg_areas ..)⟩

/-! ## The hold of a previous key epoch -/

theorem prevHoldExpire_of_over {s : State} (ha : s.aut.prevActive = true) (ht : s.aut.prevUntil ≤ s.up) :
    s.Gives .prevHoldExpire { s.setRb Reg.AUT_EPOCH_STATUS 1 false with aut := { s.aut with prevActive := false } } :=
  congrArg (done s) (if_pos (by simp [ha, ht]))

/-! ## A cell falls due -/

/-- s with grid point g of stream k completed where its cell is not written (R127, R128). -/
def State.settleDue (s : State) (k g : Nat) : State :=
  let x := s.stream k
  if x.wrote g then s
  else if x.st == .paused then (s.voidCell k g).sqc Reg.SPE_STATUS 2 163
  else if x.merge then s.mergeDue k g
  else
    match s.timeOfVal x.aclk (gridVal g (s.aclkG x.aclk)) with
    | some t => s.completeDue k g t
    | none => s

/-- s with stream k gone on from grid point g, once its cell is written, and the cell 8 before it in history (R449). -/
def State.leaveDue (s : State) (k g : Nat) : State :=
  if (s.stream k).wrote g then
    let on := s.updStream k fun y => { y with due := some (g + 1) }
    if 8 ≤ g then on.histCopy k (g - 8) else on
  else s

section
variable {s : State} {k g : Nat}

theorem State.settleDue_of_wrote (hw : (s.stream k).wrote g = true) : s.settleDue k g = s := if_pos hw

theorem State.settleDue_of_paused (hst : (s.stream k).st = .paused) (hw : (s.stream k).wrote g = false) :
    s.settleDue k g = (s.voidCell k g).sqc Reg.SPE_STATUS 2 163 := by
  simp [State.settleDue, hst, hw]

theorem State.settleDue_of_merge (hst : (s.stream k).st = .running) (hw : (s.stream k).wrote g = false) (hm : (s.stream k).merge = true) :
    s.settleDue k g = s.mergeDue k g := by
  simp [State.settleDue, hst, hw, hm]

theorem State.settleDue_of_samples {v : Frac} (hst : (s.stream k).st = .running) (hw : (s.stream k).wrote g = false)
    (hm : (s.stream k).merge = false) (hv : s.timeOfVal (s.stream k).aclk (gridVal g (s.aclkG (s.stream k).aclk)) = some v) :
    s.settleDue k g = s.completeDue k g v := by
  simp [State.settleDue, hst, hw, hm, hv]

theorem State.leaveDue_of_wrote (hw : (s.stream k).wrote g = true) :
    let on := s.updStream k fun y => { y with due := some (g + 1) }
    s.leaveDue k g = if 8 ≤ g then on.histCopy k (g - 8) else on := if_pos hw

/-- The grid point of a stream that runs or is paused, at its due time, is completed and then left (R127). -/
theorem State.cellDue_of_reached {t : Frac} (hg : (s.stream k).due = some g) (ht : s.dueTime k g = some t) (hle : Frac.le t ⟨s.time, 1⟩ = true)
    (hst : (s.stream k).st = .running ∨ (s.stream k).st = .paused) : s.cellDue k = (s.settleDue k g).leaveDue k g := by
  simp only [State.cellDue, hg, ht, hle]
  refine (if_pos ?_).trans rfl
  simpa using hst

end

/-- Settles O28: each command by the condition of its row; a due cell by what completes it. -/
theorem authenticationAndSampleCommandsComplete : Obligations.AuthenticationAndSampleCommandsComplete := by
  intro s who val f k i
  refine ⟨fun ha ht => ?_, fun hw => ⟨fun hn => ?_, fun hn ho => ?_, fun hn ho => ?_⟩, fun hw => ?_, fun hw => ?_, fun hd hb => ?_,
    fun g t hg ht hle => ?_⟩
  · exact ⟨_, (prevHoldExpire_of_over ha ht).trans (congrArg Host.Outcome.next (s.closed_of_out _ rfl)), rfl,
      s.rb_setRb_same _ 1 1 false (by decide), s.setReg_stays _ _ _ (by simp), (s.setRb_areas ..).within.andThen (State.with_aut ..)⟩
  · exact (resetWindow_of_mayWrite hw val).to (State.resetWindow_of_noRxCtx hn)
  · exact (resetWindow_of_mayWrite hw val).to (State.resetWindow_of_denied hn ho)
  · rw [(resetWindow_of_mayWrite hw val).to (State.resetWindow_of_allowed hn ho)]
    exact done_setAutCtx_setReg ..
  · exact State.snapshots_of_writes (congrArg (done s) (if_pos hw)) (by decide) (by decide)
  · exact State.snapshots_of_writes (congrArg (done s) (if_pos hw)) (by decide) (by decide)
  · exact congrArg (done s) (if_pos (by simp [hd, hb]))
  · intro x on fin
    have due (hst : x.st = .running ∨ x.st = .paused) : s.Gives (.cellDue k) ((s.settleDue k.toNat g).leaveDue k.toNat g) :=
      congrArg (done s) (State.cellDue_of_reached hg ht hle hst)
    refine ⟨fun hst hw => ?_, fun hst hw => ?_, fun hst hw hm => ?_, fun v hst hw hm hv => ?_⟩
    · exact (due hst).to (by rw [State.settleDue_of_wrote hw, State.leaveDue_of_wrote hw])
    · exact (due (.inr hst)).to (congrArg fin (State.settleDue_of_paused hst hw))
    · exact (due (.inl hst)).to (congrArg fin (State.settleDue_of_merge hst hw hm))
    · exact (due (.inl hst)).to (congrArg fin (State.settleDue_of_samples hst hw hm hv))

end Sys2Proof.Machine
end

section
/-!
SUPPORT. The packet lanes (R145-R153): what a stage does with the head of its queue and with the head of its reorder buffer, by the condition that
it meets.
-/

namespace Sys2Proof.Machine

section
variable {s : State} {f l st : Nat} {rest : List Nat}

/-! ## The head of a stage's queue -/

/-- A packet whose rule-set epoch is retired leaves the queue and is discarded (R152). -/
theorem State.dispatch_of_retired (hq : s.queue (8 * l + st) = f :: rest) (he : s.retiredEpoch (s.frame f) = true) :
    s.dispatch l st = (s.setQueue (8 * l + st) rest).epochDrop f l := by
  rw [State.dispatch, hq]
  exact if_pos he

/-- The head of a queue with room behind it passes without a thread where the lane says so (R150). -/
theorem State.dispatch_of_bypass (hq : s.queue (8 * l + st) = f :: rest) (he : s.retiredEpoch (s.frame f) = false)
    (hr : (s.rob (8 * l + st)).length < 64) (hb : s.bypasses l (s.frame f) = true) : s.dispatch l st = s.bypassStage f l st := by
  simp [State.dispatch, hq, he, Nat.not_le.2 hr, hb]

/-- Elsewhere it goes to the thread idle longest (R146). -/
theorem State.dispatch_of_idle {k : Nat} (hq : s.queue (8 * l + st) = f :: rest) (he : s.retiredEpoch (s.frame f) = false)
    (hr : (s.rob (8 * l + st)).length < 64) (hb : s.bypasses l (s.frame f) = false) (hk : s.longestIdle (s.idleBound l st) = some k) :
    s.dispatch l st = (s.takeHead f l st).takePacket f l st k := by
  simp [State.dispatch, hq, he, Nat.not_le.2 hr, hb, hk]

/-! ## The head of a reorder buffer -/

/-- The head leaves 8 ns after its release and after the exit before it, where it waits for no place (R148). -/
theorem State.stageExit_of_released (hr : s.rob (8 * l + st) = f :: rest) (hl : (s.frame f).loc = .reorder l st)
    (hrel : (s.frame f).relAt + 8 * nsU ≤ s.up) (hlast : s.pkt.lastExit.gd 0 (8 * l + st) + 8 * nsU ≤ s.up) (hp : s.waitsPlace f l st = false) :
    s.stageExit l st = s.leaveStage f l st := by
  have spaced : max (s.frame f).relAt (s.pkt.lastExit.gd 0 (8 * l + st)) + 8 * nsU ≤ s.up := by omega
  rw [State.stageExit, hr]
  exact if_pos (by simp [hl, hp, spaced])

end

theorem Frame.leftLane_of_left {x : Frame} {l : Nat} (hl : x.loc = .left l) (hx : x.live = true) : x.leftLane = some l := by
  simp [Frame.leftLane, hl, hx]

/-- Settles O29: each command by the condition of its row; the head of a queue by its epoch, then by what may take it. -/
theorem packetLaneCommandsComplete : Obligations.PacketLaneCommandsComplete := by
  intro s who f l st t x q
  refine ⟨fun hx hloc hc ht h1 h3 h64 => ?_, fun rest hq => ⟨fun he => ?_, fun he hr => ⟨fun hb => ?_, fun k hb hk => ?_⟩⟩, fun hh => ?_,
    fun rest hr hl hrel hlast hp => ?_, fun hl hx hb ht => ?_, fun hw => ?_⟩
  · exact congrArg (done s) (if_pos (by simpa using ⟨⟨⟨⟨⟨⟨hx, hloc⟩, hc⟩, ht⟩, h1⟩, h3⟩, h64⟩))
  · exact congrArg (done s) (State.dispatch_of_retired hq he)
  · exact congrArg (done s) (State.dispatch_of_bypass hq he hr hb)
  · exact congrArg (done s) (State.dispatch_of_idle hq he hr hb hk)
  · exact congrArg (done s) (if_pos hh)
  · exact congrArg (done s) (State.stageExit_of_released hr hl hrel hlast hp)
  · show execLaneExit f s = _
    rw [execLaneExit, Frame.leftLane_of_left hl hx]
    exact congrArg (done s) (if_neg (by simp [hb, ht]))
  · obtain ⟨u, hu, h⟩ := done_setReg s (Reg.LAN_STG_QHWM l.val st.val) 0
    exact ⟨u, (congrArg (done s) (if_pos hw)).trans hu, h⟩

end Sys2Proof.Machine
end

section
/-!
SUPPORT. The start of a transmission (R158, R160, R162) and PAUSE (R163): what starts on an egress that may start, and the record of a paused port
with its status bit, which every command of PAUSE writes together.
-/

namespace Sys2Proof.Machine

/-! ## The start and the end of a transmission -/

section
variable {s : State} {e tc n : Nat} {rest : List Nat}

theorem State.egressStart_of_resume (h : s.mayResume e = some n) : s.egressStart e tc = s.resumeCopy e n s.up := by
  rw [State.egressStart, h]

/-- Nothing goes on where a copy is under way. -/
theorem State.mayResume_of_sending {m : Nat} (h : s.sending e = some m) : s.mayResume e = none := if_neg (by simp [h])

/-- The head of a class that may start does so, after the fragment that it cuts off a copy under way (R158, R162). -/
theorem State.egressStart_of_mayStart (hr : s.mayResume e = none) (hs : s.mayStart e tc = true) (hq : s.egq (egKey e tc) = n :: rest) :
    s.egressStart e tc = (if (s.sending e).isSome then s.cutFragment e else s).startCopy e tc n (s.sending e).isSome := by
  simp only [State.egressStart, hr, hq]
  exact if_pos hs

end

/-! ## The record of a paused port -/

/-- s with record z for port p, and the PAUSED bit of its status (R163). -/
def State.putPause (s : State) (p : Nat) (z : PauseState) (b : Bool) : State := (s.setPause p z).setRb (Reg.SWC_EG_STATUS p) 2 b

@[simp] theorem State.pause_putPause (s : State) (p : Nat) (z : PauseState) (b : Bool) : (s.putPause p z b).pause p = z := s.pause_setPause p z

theorem State.pause_putPause_ne (s : State) {p j : Nat} (z : PauseState) (b : Bool) (h : j ≠ p) : (s.putPause p z b).pause j = s.pause j :=
  s.pause_setPause_ne p j z h

@[simp] theorem State.rb_putPause (s : State) (p : Nat) (z : PauseState) (b : Bool) : (s.putPause p z b).rb (Reg.SWC_EG_STATUS p) 2 = b :=
  ((s.setPause p z).rb_setRb_same _ 2 2 b (by decide)).trans (if_pos rfl)

theorem State.putPause_stays (s : State) (p : Nat) (z : PauseState) (b : Bool) : s.RegsStay (s.putPause p z b) [Reg.SWC_EG_STATUS p] :=
  (State.stays_of_regs (s.setPause_regs p z) _).trans (State.setReg_stays _ _ _ _ (by simp))

theorem State.unpause_eq (s : State) (p : Nat) : s.unpause p = s.putPause p { s.pause p with until_ := 0, since := none } false := rfl

@[simp] theorem State.rb_unpause (s : State) (p : Nat) : (s.unpause p).rb (Reg.SWC_EG_STATUS p) 2 = false := State.rb_putPause ..

@[simp] theorem State.pause_unpause (s : State) (p : Nat) : (s.unpause p).pause p = { s.pause p with until_ := 0, since := none } :=
  State.pause_putPause ..

theorem State.pause_unpause_ne (s : State) {p j : Nat} (h : j ≠ p) : (s.unpause p).pause j = s.pause j := s.pause_putPause_ne _ _ h

theorem State.unpause_stays (s : State) (p : Nat) : s.RegsStay (s.unpause p) [Reg.SWC_EG_STATUS p] := s.putPause_stays p _ _

/-- A flushed port ignores PAUSE for the next second (R163). -/
theorem State.ignoreUntil_pauseFlush (s : State) (p : Nat) : ((s.pauseFlush p).pause p).ignoreUntil = s.up + secU := by
  simp only [State.pauseFlush, State.pause_unpause, State.pause_setPause]

theorem State.rb_pauseFlush (s : State) (p : Nat) : (s.pauseFlush p).rb (Reg.SWC_EG_STATUS p) 2 = false := State.rb_unpause ..

/-! ## A PAUSE received -/

/-- s with a PAUSE on port p counted as a frame of 64 bytes (R88, R163). -/
def State.countPause (s : State) (p : Nat) : State :=
  let s1 := (s.inc (Reg.ETH_RX_FRAMES p)).add (Reg.ETH_RX_OCTETS_LO p) 64
  if s1.reg (Reg.ETH_RX_OCTETS_LO p) < 64 then s1.inc (Reg.ETH_RX_OCTETS_HI p) else s1

theorem State.countPause_areas (s : State) (p : Nat) : s.OnlyChanges (s.countPause p) [.regs] :=
  (s.inc_areas _).andThen (State.add_areas ..) |>.andIf (State.inc_areas ..)

@[simp] theorem State.countPause_pkt (s : State) (p : Nat) : (s.countPause p).pkt = s.pkt := (s.countPause_areas p).2 .pkt (by decide)

@[simp] theorem State.pause_countPause (s : State) (p j : Nat) : (s.countPause p).pause j = s.pause j := by
  simp only [State.pause, State.countPause_pkt]

/-- The octets of a frame are counted beside its frame. -/
theorem State.rxFrames_countPause (s : State) (p : Fin 16) :
    (s.countPause p.val).reg (Reg.ETH_RX_FRAMES p.val) = s.reg (Reg.ETH_RX_FRAMES p.val) + 1 := by
  have low : regKey (Reg.ETH_RX_FRAMES p.val) ≠ regKey (Reg.ETH_RX_OCTETS_LO p.val) := by revert p; decide
  have high : regKey (Reg.ETH_RX_FRAMES p.val) ≠ regKey (Reg.ETH_RX_OCTETS_HI p.val) := by revert p; decide
  unfold State.countPause
  dsimp only
  split
  · rw [State.reg_inc_ne _ _ _ high, State.reg_add_ne _ _ _ _ low, State.reg_inc_same]
  · rw [State.reg_add_ne _ _ _ _ low, State.reg_inc_same]

theorem State.pauseRx_eq (s : State) (p quanta : Nat) : s.pauseRx p quanta =
    if !s.rb (Reg.ETH_PORT_CFG p) 26 || s.up < (s.pause p).ignoreUntil then s.countPause p
    else if quanta = 0 then (s.countPause p).unpause p
    else (s.countPause p).putPause p { s.pause p with
      until_ := s.up + spanU (quanta * 64 * s.byteTime p), since := some ((s.pause p).since.getD s.up) } true := rfl

/-- A PAUSE is counted whether or not its port obeys it (R163). -/
theorem State.rxFrames_pauseRx (s : State) (p : Fin 16) (quanta : Nat) :
    (s.pauseRx p.val quanta).reg (Reg.ETH_RX_FRAMES p.val) = s.reg (Reg.ETH_RX_FRAMES p.val) + 1 := by
  have free : regKey (Reg.ETH_RX_FRAMES p.val) ∉ [Reg.SWC_EG_STATUS p.val].map regKey := by revert p; decide
  have stays : (s.countPause p.val).RegsStay (s.pauseRx p.val quanta) [Reg.SWC_EG_STATUS p.val] := by
    rw [State.pauseRx_eq]
    exact .ite (.refl _ _) (.ite (State.unpause_stays _ _) (State.putPause_stays _ _ _ _))
  rw [stays _ free, State.rxFrames_countPause]

section
variable {s : State} {p quanta : Nat}

theorem State.pauseRx_of_deaf (h : s.rb (Reg.ETH_PORT_CFG p) 26 = false) : s.pauseRx p quanta = s.countPause p := by
  rw [State.pauseRx_eq, if_pos (by simp [h])]

/-- A port that obeys a PAUSE and ignores none goes on at zero quanta, and else stops for them (R163). -/
theorem State.pauseRx_of_obeyed (h : s.rb (Reg.ETH_PORT_CFG p) 26 = true) (hi : (s.pause p).ignoreUntil ≤ s.up) :
    s.pauseRx p quanta = if quanta = 0 then (s.countPause p).unpause p
      else (s.countPause p).putPause p { s.pause p with
        until_ := s.up + spanU (quanta * 64 * s.byteTime p), since := some ((s.pause p).since.getD s.up) } true := by
  rw [State.pauseRx_eq, if_neg (by simp [h, hi])]

end

/-- Settles O30: what starts by what may go on and what may start; the end of a transmission is its meaning; a PAUSE by whether its port obeys. -/
theorem egressAndPauseCommandsComplete : Obligations.EgressAndPauseCommandsComplete := by
  intro s e tc d b p quanta n
  refine ⟨fun hr => ?_, fun rest hr hs hn hq => ?_, fun m rest hs hm hq => ?_, fun _ _ _ => ⟨rfl, execEgressEnd_areas e d b s⟩,
    fun hmode => ?_, fun hp ht => ?_, fun ho => ?_⟩
  · exact congrArg (done s) (State.egressStart_of_resume hr)
  · exact congrArg (done s) ((State.egressStart_of_mayStart hr hs hq).trans (by simp [hn]))
  · exact congrArg (done s) ((State.egressStart_of_mayStart (State.mayResume_of_sending hm) hs hq).trans (by simp [hm]))
  · have gives : exec (.pauseRx p quanta) s = done s (s.pauseRx p.val quanta.toNat) := congrArg (done s) (if_neg hmode)
    have areas := s.pauseRx_areas p.val quanta.toNat
    refine ⟨_, gives.trans (congrArg Host.Outcome.next (s.closed_of_out _ areas.out)), State.rxFrames_pauseRx .., fun hdeaf => ?_,
      fun hobey hi => ?_, areas⟩
    · rw [State.pauseRx_of_deaf hdeaf, State.countPause_pkt]
    · have zero : quanta.toNat = 0 ↔ quanta = 0 := by simp [BitVec.toNat_eq]
      rw [State.pauseRx_of_obeyed hobey hi]
      by_cases hq : quanta = 0
      · rw [if_pos (zero.2 hq)]
        exact ⟨by simp [hq], absurd hq, fun j hj => by simp [State.pause_unpause_ne _ hj]⟩
      · rw [if_neg (mt zero.1 hq)]
        exact ⟨by simpa using hq, fun _ => by simp, fun j hj => by simp [State.pause_putPause_ne _ _ _ hj]⟩
  · have gives : exec (.pauseQuantaExpire p) s = done s (s.unpause p.val) := congrArg (done s) (if_pos (by simp [hp, ht]))
    have areas := s.unpause_areas p.val
    exact ⟨_, gives.trans (congrArg Host.Outcome.next (s.closed_of_out _ areas.out)), State.rb_unpause ..,
      State.pause_unpause .., s.unpause_stays p.val, areas⟩
  · have gives : s.Gives (.pauseFlush p) (s.pauseFlush p.val) := congrArg (done s) (if_pos ho)
    exact ⟨gives, _, gives, s.ignoreUntil_pauseFlush p.val, s.rb_pauseFlush p.val⟩

end Sys2Proof.Machine
end

section
/-!
SUPPORT. The commands of the buffer manager (R180, R182) and of the MAC table (R189, R190), by the writer, the handle and the slot that they meet; the
learning queue (R188), whose pop sends its answer and nothing else; what the aging sweep does to a good dynamic slot (R191).
-/

namespace Sys2Proof.Machine

theorem State.OnlyChanges.och {s t : State} {l : List Area} (h : s.OnlyChanges t l) (hl : .och ∉ l := by decide) : t.och = s.och := h.2 .och hl

/-! ## The buffer manager -/

/-- The end of a command writes its command and its status register alone. -/
theorem State.ochResult_stays (s : State) (w : Word) (res : Nat) : s.RegsStay (s.ochResult w res) [Reg.OCH_CMD, Reg.OCH_CMD_STATUS] :=
  (s.setReg_stays _ _ _ (by simp)).trans (State.setReg_stays _ _ _ _ (by simp))

/-- RECLAIM of command word w by an accessor whose write is admitted (R182). -/
def State.ochReclaimCmd (s : State) (who : Accessor) (w : Word) : State :=
  if !s.isAdmin who then s.ochResult w 5
  else if s.pwr.st != .recovery then s.ochResult w 7
  else (s.reclaim (fld w 27 22)).ochResult w 0

section
variable {s : State} {who : Accessor} {val w : Word} {h o : Nat}

/-- QUERY of a buffer whose descriptor reads good shows it with the status, and does nothing else (R182). -/
theorem State.ochQueryCmd_of_good (hh : fld w 14 0 = h) (hk : s.handleOk h = true) (hb : (s.buf h).bad = false) :
    let u := s.ochQueryCmd w
    u.reg Reg.OCH_CMD_RES = s.descWord h ∧ u.reg Reg.OCH_CMD_STATUS = 0 ∧
      s.RegsStay u [Reg.OCH_CMD_RES, Reg.OCH_CMD, Reg.OCH_CMD_STATUS] ∧ s.OnlyChanges u [.regs] := by
  have shown : s.ochQueryCmd w = (s.setReg Reg.OCH_CMD_RES (s.descWord h)).ochResult w 0 := by simp [State.ochQueryCmd, hh, hk, hb]
  rw [shown]
  refine ⟨?_, State.reg_setReg_same .., ?_, (State.setReg_areas ..).trans (State.ochResult_areas ..)⟩
  · exact (State.ochResult_stays _ _ _ _ (by decide)).trans (State.reg_setReg_same ..)
  · exact (s.setReg_stays Reg.OCH_CMD_RES _ _ (by simp)).trans (State.RegsStay.mono (State.ochResult_stays _ _ _) (by simp))

theorem State.ochQueryCmd_of_noBuffer (hh : fld w 14 0 = h) (hk : s.handleOk h = false) : s.ochQueryCmd w = s.ochResult w 6 :=
  if_neg (by simp [hh, hk])

theorem State.ochFreeCmd_of_denied (ha : s.isAdmin who = false) : s.ochFreeCmd who w = s.ochResult w 5 := if_pos (by simp [ha])

theorem State.ochFreeCmd_of_state (ha : s.isAdmin who = true) (hp : s.pwr.st ≠ .recovery) : s.ochFreeCmd who w = s.ochResult w 7 := by
  simp [State.ochFreeCmd, ha, hp]

theorem State.ochFreeCmd_of_noBuffer (ha : s.isAdmin who = true) (hp : s.pwr.st = .recovery) (hh : fld w 14 0 = h)
    (hk : s.handleOk h = false) : s.ochFreeCmd who w = s.ochResult w 6 := by
  simp [State.ochFreeCmd, ha, hp, hh, hk]

/-- For ADMIN in RECOVERY a FREE of a buffer is that of the owner named (R180). -/
theorem State.ochFreeCmd_of_buffer (ha : s.isAdmin who = true) (hp : s.pwr.st = .recovery) (hh : fld w 14 0 = h) (ho : fld w 27 22 = o)
    (hk : s.handleOk h = true) : s.ochFreeCmd who w = (s.freeBuf h o).2.ochResult w (if (s.freeBuf h o).1 then 0 else 8) := by
  simp [State.ochFreeCmd, ha, hp, hh, ho, hk]

theorem ochQuery_of_mayWrite (hw : s.mayWrite who Reg.OCH_CMD = true) : s.Gives (.ochQuery who val) (s.ochQueryCmd (putFld val 31 28 8)) :=
  congrArg (done s) (if_pos hw)

theorem ochCmdFree_of_mayWrite (hw : s.mayWrite who Reg.OCH_CMD = true) :
    s.Gives (.ochCmdFree who val) (s.ochFreeCmd who (putFld val 31 28 9)) := congrArg (done s) (if_pos hw)

theorem State.ochReclaimCmd_of_denied (ha : s.isAdmin who = false) : s.ochReclaimCmd who w = s.ochResult w 5 := if_pos (by simp [ha])

theorem State.ochReclaimCmd_of_state (ha : s.isAdmin who = true) (hp : s.pwr.st ≠ .recovery) : s.ochReclaimCmd who w = s.ochResult w 7 := by
  simp [State.ochReclaimCmd, ha, hp]

theorem State.ochReclaimCmd_of_allowed (ha : s.isAdmin who = true) (hp : s.pwr.st = .recovery) (ho : fld w 27 22 = o) :
    s.ochReclaimCmd who w = (s.reclaim o).ochResult w 0 := by
  simp [State.ochReclaimCmd, ha, hp, ho]

theorem ochReclaim_of_mayWrite (hw : s.mayWrite who Reg.OCH_CMD = true) :
    s.Gives (.ochReclaim who val) (s.ochReclaimCmd who (putFld val 31 28 10)) := congrArg (done s) (if_pos hw)

end

/-! ## Which command of the MAC table runs -/

/-- The command of number op, which an admitted write w of interface i runs (R189). -/
def State.fwdCmd (s : State) (i : Nat) (w : Word) : Nat → State
  | 0 => s.fwdLookupCmd i w
  | 1 => s.fwdInsertCmd i w
  | 2 => s.fwdUpdateCmd i w
  | 3 => s.fwdDeleteCmd i w
  | 4 => s.fwdReadCmd i w
  | 5 => s.fwdFlushCmd i w
  | _ => s.fwdClearCmd i w

/-- Each of the eight numbers put into a command word is the one that it names. -/
theorem fld_cmdWord_op_of_lt {val : Word} {op : Nat} (hop : op < 8) : fld (putFld val 31 28 (8 + op)) 30 28 = op := by
  rw [fld_putFld_sub _ _ _ _ _ _ (by decide) (by decide) (by decide) (by decide)]
  interval_cases op <;> rfl

section
variable {s : State} {who : Accessor} {i op : Nat} {val : Word}

/-- A write of FWD_CMD that is admitted runs its command (R189). -/
theorem State.fwdWrite_of_admitted (hop : op ≤ 6) (hw : s.mayWrite who (Reg.FWD_CMD i) = true)
    (ha : i = 0 → op ≠ 0 → op ≠ 4 → s.isAdmin who = true) :
    s.fwdWrite who i op val = s.fwdCmd i (putFld val 31 28 (8 + op)) op := by
  have admitted : ¬(i = 0 ∧ op ≠ 0 ∧ op ≠ 4 ∧ !s.isAdmin who) := by
    rintro ⟨hi, h0, h4, hn⟩
    simp [ha hi h0 h4] at hn
  rw [State.fwdWrite, State.writeCmd, if_pos hw, State.fwdRun, fld_cmdWord_op_of_lt (by omega), if_neg admitted]
  interval_cases op <;> simp only [State.fwdCmd]

/-- On interface 0 a command that changes the table is denied to a writer that is not ADMIN (R189). -/
theorem State.fwdWrite_of_denied (hop : op ∈ [1, 2, 3, 5, 6]) (hw : s.mayWrite who (Reg.FWD_CMD 0) = true) (ha : s.isAdmin who = false) :
    s.fwdWrite who 0 op val = s.fwdResult 0 (putFld val 31 28 (8 + op)) 5 := by
  obtain ⟨hlt, h0, h4⟩ : op < 8 ∧ op ≠ 0 ∧ op ≠ 4 := by
    simp only [List.mem_cons, List.not_mem_nil, or_false] at hop
    omega
  rw [State.fwdWrite, State.writeCmd, if_pos hw, State.fwdRun, fld_cmdWord_op_of_lt hlt, if_pos ⟨rfl, h0, h4, by simp [ha]⟩]

end

/-! ## What each command of the MAC table gives -/

section
variable {s y : State} {i k : Nat} {w : Word} {e : MacSlot}

theorem State.fwdInsertCmd_of_noEgress (he : s.fwdStaged i = e) (h : e.egress = 0) : s.fwdInsertCmd i w = s.fwdResult i w 4 := by
  subst he
  exact if_pos h

theorem State.fwdUpdateCmd_of_noEgress (he : s.fwdStaged i = e) (h : e.egress = 0) : s.fwdUpdateCmd i w = s.fwdResult i w 4 := by
  subst he
  exact if_pos h

theorem State.fwdReadCmd_of_slot {n : Nat} (hn : fld w 15 0 = n) :
    s.fwdReadCmd i w = ((if (s.mac n).isBad then s.fwdBad else s).fwdReturn i (s.mac n)).fwdResult i w 0 := by
  rw [State.fwdReadCmd, hn]

theorem State.fwdClearCmd_of_slot {n : Nat} (hn : fld w 15 0 = n) : s.fwdClearCmd i w = (s.putMac n {}).fwdResult i w 0 := by
  rw [State.fwdClearCmd, hn]

/-! A command that names a key starts from the bad slots that its lookup detects, y (R185). -/

variable (he : s.fwdStaged i = e) (hy : s.fwdDetect e.fid e.mac = y)
include he hy

theorem State.fwdLookupCmd_hit (h : y.fwdFind e.fid e.mac = some k) :
    s.fwdLookupCmd i w = (y.fwdReturn i (y.mac k)).fwdResult i (putFld w 15 0 k) 0 := by
  subst he hy
  rw [State.fwdLookupCmd, h]

theorem State.fwdLookupCmd_miss (h : y.fwdFind e.fid e.mac = none) :
    s.fwdLookupCmd i w = y.fwdResult i w (if y.fwdParity e.fid e.mac then 7 else 2) := by
  subst he hy
  rw [State.fwdLookupCmd, h]

theorem State.fwdInsertCmd_of_egress (h : e.egress ≠ 0) (hp : y.fwdParity e.fid e.mac = false) :
    s.fwdInsertCmd i w =
      (y.fwdPlace e).2.2.fwdResult i (if (y.fwdPlace e).1 = 3 then w else putFld w 15 0 (y.fwdPlace e).2.1) (y.fwdPlace e).1 := by
  subst he hy
  exact (if_neg h).trans (if_neg (by simp [hp]))

theorem State.fwdUpdateCmd_hit (h0 : e.egress ≠ 0) (h : y.fwdFind e.fid e.mac = some k) :
    s.fwdUpdateCmd i w = (y.putMac k ((y.mac k).update e)).fwdResult i (putFld w 15 0 k) 0 := by
  subst he hy
  exact (if_neg h0).trans (by rw [h])

theorem State.fwdDeleteCmd_hit (h : y.fwdFind e.fid e.mac = some k) :
    s.fwdDeleteCmd i w = (y.putMac k (y.mac k).drop).fwdResult i w 0 := by
  subst he hy
  rw [State.fwdDeleteCmd, h]

end

/-! ## The learning queue -/

/-- The one answer that a command sends is no message to merge. -/
theorem State.closed_emit_readData {s t : State} (h : t.out = s.out) (off : Nat) (v : Word) :
    s.closed (t.emit (.readData off v)) = t.emit (.readData off v) := by
  have one : (t.emit (.readData off v)).out.length - s.out.length = 1 := by
    rw [← h]
    exact Nat.add_sub_cancel_left ..
  rw [State.closed, one]
  rfl

theorem fwdLqData_inj : ∀ v < 4, ∀ w < 4, regKey (Reg.FWD_LQ_DATA v) = regKey (Reg.FWD_LQ_DATA w) → v = w := by decide

/-- The oldest record leaves the queue and is shown (R188). -/
theorem State.fwdPop_of_cons {s : State} {r : List Word} {rest : List (List Word)} (h : s.och.learn = r :: rest) :
    s.fwdPop.1 = BitVec.ofNat 32 (2147483648 + rest.length) ∧ s.fwdPop.2.och = { s.och with learn := rest } ∧
      (∀ w, w < 4 → s.fwdPop.2.reg (Reg.FWD_LQ_DATA w) = wordAt r w) := by
  rw [State.fwdPop, h]
  exact ⟨rfl, (State.each_setReg_areas ..).och, State.reg_each_setReg _ _ fwdLqData_inj⟩

theorem State.fwdPop_of_nil {s : State} (h : s.och.learn = []) : s.fwdPop = (0, s) := by rw [State.fwdPop, h]

theorem fwdLqPop_of_mayTake {s : State} {who : Accessor} (h : s.mayTake who Reg.FWD_LQ_POP = true) :
    s.Gives (.fwdLqPop who) (s.fwdPop.2.emit (.readData Reg.FWD_LQ_POP s.fwdPop.1)) := congrArg (done s) (State.rttRead_of_mayTake h)

/-! ## The aging sweep -/

/-- A good dynamic slot is left to a source lookup of the same cycle, loses HIT, or is aged out (R191). -/
theorem State.sweepSlot_of_dynamic {s : State} {k : Nat} (hb : (s.mac k).isBad = false) (hv : (s.mac k).valid = true)
    (hs : (s.mac k).static_ = false) : s.sweepSlot k =
      if s.och.macHitAt = s.up ∧ k ∈ s.och.macHits then s
      else if (s.mac k).hit then s.setMac k { s.mac k with w2 := putBit (s.mac k).w2 29 false }
      else ((s.setMac k (s.mac k).drop).learnPost 2 0 k (s.mac k).fid (s.mac k).mac).inc Reg.FWD_AGED :=
  (if_neg (by simp [hb])).trans (if_pos (by simp [hv, hs]))

/-- Settles O31: a command by the writer that is admitted and by the handle or slot that it names; the queue by its oldest record; a visit by what the
sweep does to its slot. -/
theorem bufferAndMacTableCommandsComplete : Obligations.BufferAndMacTableCommandsComplete := by
  intro s who i p val v e y j
  have handle (op : Nat) : fld (v op) 14 0 = fld val 14 0 := fld_cmdWord_below (by decide)
  have owner (op : Nat) : fld (v op) 27 22 = fld val 27 22 := fld_cmdWord_below (by decide)
  have index (op : Nat) : fld (v op) 15 0 = fld val 15 0 := fld_cmdWord_below (by decide)
  refine ⟨fun hw => ⟨fun hk hb => ?_, fun hk => ?_, fun ha => ⟨?_, ?_⟩, fun ha hp => ⟨?_, ?_⟩, fun ha hp => ⟨?_, fun hk => ?_, fun hk => ?_⟩⟩,
    fun hw => congrArg (done s) (if_pos hw), fun hw => ?_, fun hw ha => ?_, fun hm => ⟨fun hl => ?_, fun r rest hl => ?_⟩,
    fun hd hb hv hs => ?_⟩
  · obtain ⟨res, status, stays, areas⟩ := State.ochQueryCmd_of_good (handle 0) hk hb
    exact ⟨_, (ochQuery_of_mayWrite hw).trans (congrArg Host.Outcome.next (s.closed_of_out _ areas.out)), res, status, stays, areas⟩
  · exact (ochQuery_of_mayWrite hw).to (State.ochQueryCmd_of_noBuffer (handle 0) hk)
  · exact (ochCmdFree_of_mayWrite hw).to (State.ochFreeCmd_of_denied ha)
  · exact (ochReclaim_of_mayWrite hw).to (State.ochReclaimCmd_of_denied ha)
  · exact (ochCmdFree_of_mayWrite hw).to (State.ochFreeCmd_of_state ha hp)
  · exact (ochReclaim_of_mayWrite hw).to (State.ochReclaimCmd_of_state ha hp)
  · exact (ochReclaim_of_mayWrite hw).to (State.ochReclaimCmd_of_allowed ha hp (owner 2))
  · exact (ochCmdFree_of_mayWrite hw).to (State.ochFreeCmd_of_noBuffer ha hp (handle 1) hk)
  · exact (ochCmdFree_of_mayWrite hw).to (State.ochFreeCmd_of_buffer ha hp (handle 1) (owner 1) hk)
  · have run (op : Nat) (hop : op ≤ 6) (ha : i.val = 0 → op ≠ 0 → op ≠ 4 → s.isAdmin who = true) :
        done s (s.fwdWrite who i.val op val) = done s (s.fwdCmd i.val (v op) op) :=
      congrArg (done s) (State.fwdWrite_of_admitted hop hw ha)
    have look : s.Gives (.fwdLookup who i val) (s.fwdLookupCmd i.val (v 0)) := run 0 (by decide) fun _ h0 _ => absurd rfl h0
    have read : s.Gives (.fwdRead who i val) (s.fwdReadCmd i.val (v 4)) := run 4 (by decide) fun _ _ h4 => absurd rfl h4
    refine ⟨fun k hk => ?_, fun hk => ?_, fun hb => ?_, fun hb => ?_, fun ha => ?_⟩
    · exact look.to (State.fwdLookupCmd_hit rfl rfl hk)
    · exact look.to (State.fwdLookupCmd_miss rfl rfl hk)
    · exact read.to ((State.fwdReadCmd_of_slot (index 4)).trans (by simp [hb]))
    · exact read.to ((State.fwdReadCmd_of_slot (index 4)).trans (by simp [hb]))
    · have insert : s.Gives (.fwdInsert who i val) (s.fwdInsertCmd i.val (v 1)) := run 1 (by decide) fun hi _ _ => ha hi
      have update : s.Gives (.fwdUpdate who i val) (s.fwdUpdateCmd i.val (v 2)) := run 2 (by decide) fun hi _ _ => ha hi
      have delete : s.Gives (.fwdDelete who i val) (s.fwdDeleteCmd i.val (v 3)) := run 3 (by decide) fun hi _ _ => ha hi
      have clear : s.Gives (.fwdClear who i val) (s.fwdClearCmd i.val (v 6)) := run 6 (by decide) fun hi _ _ => ha hi
      refine ⟨fun h => ⟨?_, ?_⟩, fun h hp => ?_, fun k hk => ⟨fun h => ?_, ?_⟩, run 5 (by decide) (fun hi _ _ => ha hi), ?_⟩
      · exact insert.to (State.fwdInsertCmd_of_noEgress rfl h)
      · exact update.to (State.fwdUpdateCmd_of_noEgress rfl h)
      · exact insert.to (State.fwdInsertCmd_of_egress rfl rfl h hp)
      · exact update.to (State.fwdUpdateCmd_hit rfl rfl h hk)
      · exact delete.to (State.fwdDeleteCmd_hit rfl rfl hk)
      · exact clear.to (State.fwdClearCmd_of_slot (index 6))
  · have denied (op : Nat) (hop : op ∈ [1, 2, 3, 5, 6]) : done s (s.fwdWrite who 0 op val) = done s (s.fwdResult 0 (v op) 5) :=
      congrArg (done s) (State.fwdWrite_of_denied hop hw ha)
    simp only [List.forall_mem_cons]
    exact ⟨denied 1 (by decide), denied 2 (by decide), denied 3 (by decide), denied 5 (by decide), denied 6 (by decide), List.forall_mem_nil _⟩
  · exact (fwdLqPop_of_mayTake hm).to (by rw [State.fwdPop_of_nil hl])
  · obtain ⟨answer, och, data⟩ := State.fwdPop_of_cons hl
    have out := s.fwdPop_areas.out
    refine ⟨_, (fwdLqPop_of_mayTake hm).trans (congrArg Host.Outcome.next (State.closed_emit_readData out ..)), och, data, ?_,
      s.fwdPop_areas.within.andThen (State.emit_areas ..)⟩
    show _ :: s.fwdPop.2.out = _
    rw [answer, out]
  · intro on
    have visit {z : State} (h : s.sweepSlot j = z) : s.Gives .agingSweepVisit (on z) :=
      congrArg (done s) ((if_pos hd).trans (congrArg on h))
    have slot := State.sweepSlot_of_dynamic hb hv hs
    refine ⟨fun ht hm => visit (slot.trans (if_pos ⟨ht, hm⟩)), fun hn => ⟨fun hh => ?_, fun hh => ?_⟩⟩
    · exact visit (slot.trans ((if_neg hn).trans (if_pos hh)))
    · exact visit (slot.trans ((if_neg hn).trans (if_neg (by simp [hh]))))

end Sys2Proof.Machine
end

section
/-!
SUPPORT. Every operation of the model keeps the canonical forms, from the accessors up to the commands and the tick. The proof of a lemma is the
text of its operation: from h, the forms before, `h.setReg.sqc` are the forms after a setReg and a sqc. `same` is a step that touches none of the
stores, `beside` one whose areas hold none of them; `andIf` and `andUnless` add a step made under a condition, `each` one made for every item of a
list, and `ite` or a case split stands where the operation branches.
-/

namespace Sys2Proof.Machine

open State

-- One declaration after the other: each of a thousand short proofs would else hold a thread and its stack at once.
set_option Elab.async false

/-! ## The forms -/

/-- Writes of a list keep the canonical form. -/
theorem SMap.wf_writes {α : Type} [DecidableEq α] {d : α} {m : SMap α} (ps : List (Nat × α)) (h : SMap.wf (fun _ => d) m = true) :
    SMap.wf (fun _ => d) (ps.foldl (fun n p => n.sd d p.1 p.2) m) = true := by
  induction ps generalizing m with
  | nil => exact h
  | cons p ps ih => exact ih (SMap.wf_sd _ _ _ _ h)

/-- The stores of a state that have a canonical form. -/
def State.stores (s : State) : SMap Word × SMap Byte × SMap PWord × SMap Word × SMap Byte :=
  (s.regs, s.clu.sram, s.clu.pmem, s.spe.cells, s.ddr.mem)

/-- The canonical forms of a state: what EveryStepKeepsTheCanonicalForms says of it, store by store. -/
structure State.Canonical (s : State) : Prop where
  regs : s.regs.wf regReset = true
  sram : s.clu.sram.wf (fun _ => 0) = true
  pmem : s.clu.pmem.wf (fun _ => 0) = true
  cells : s.spe.cells.wf (fun _ => 0) = true
  mem : s.ddr.mem.wf (fun _ => 0) = true

theorem State.canonical_iff (s : State) : s.Canonical ↔ Memory.wf s = true ∧ Registers.wf s = true := by
  simp only [Memory.wf, Registers.wf, Bool.and_eq_true]
  exact ⟨fun ⟨hr, hs, hp, hc, hm⟩ => ⟨⟨⟨⟨hs, hp⟩, hc⟩, hm⟩, hr⟩, fun ⟨⟨⟨⟨hs, hp⟩, hc⟩, hm⟩, hr⟩ => ⟨hr, hs, hp, hc, hm⟩⟩

/-- What a result that may hold a state says of it. -/
def OptCanonical : Option State → Prop
  | some t => t.Canonical
  | none => True

def ReadCanonical : Option (Word × State) → Prop
  | some r => r.2.Canonical
  | none => True

/-- The state that an instruction's effect leads to is in canonical form. -/
def EffCanonical : Eff → Prop
  | .next t | .jump t | .wait t | .gone t | .fault t _ _ => t.Canonical
  | .stall _ => True

/-- The state that a load, or a store, leads to is in canonical form. -/
def LoadCanonical : Load → Prop
  | .bytes _ _ t => t.Canonical
  | _ => True

def StoreCanonical : Store → Prop
  | .done t => t.Canonical
  | _ => True

/-- A meaning answers a next state, and that is in canonical form. -/
def AnswersCanonical (o : Host.Outcome State Fault Refusal) : Prop := ∃ u, o = .next u ∧ u.Canonical

section
variable {s t u : State}

namespace State.Canonical

theorem same (h : s.Canonical) (e : t.stores = s.stores := by dsimp only [State.stores]) : t.Canonical := by
  simp only [stores, Prod.mk.injEq] at e
  obtain ⟨hr, hs, hp, hc, hm⟩ := e
  exact ⟨hr ▸ h.regs, hs ▸ h.sram, hp ▸ h.pmem, hc ▸ h.cells, hm ▸ h.mem⟩

theorem beside {l : List Area} (h : s.Canonical) (ho : s.OnlyChanges t l) (hl : ∀ a ∈ [Area.regs, .clu, .spe, .ddr], a ∉ l := by decide) :
    t.Canonical := by
  have same (a : Area) (ha : a ∈ [Area.regs, .clu, .spe, .ddr]) : a.same s t := ho.2 a (hl a ha)
  have hr : t.regs = s.regs := same .regs (by decide)
  have hk : t.clu = s.clu := same .clu (by decide)
  have hp : t.spe = s.spe := same .spe (by decide)
  have hd : t.ddr = s.ddr := same .ddr (by decide)
  exact h.same (by rw [stores, stores, hr, hk, hp, hd])

theorem ite {c : Prop} [Decidable c] (h : t.Canonical) (h2 : u.Canonical) : (if c then t else u).Canonical := by split <;> assumption

theorem ite_snd {α : Type} {p q : α × State} {c : Prop} [Decidable c] (h : p.2.Canonical) (h2 : q.2.Canonical) :
    (if c then p else q).2.Canonical := by split <;> assumption

theorem andThen (h : s.Canonical) (f : s.Canonical → t.Canonical) : t.Canonical := f h

theorem andIf {c : Prop} [Decidable c] (h : s.Canonical) (f : s.Canonical → t.Canonical) : (if c then t else s).Canonical := .ite (f h) h

theorem andUnless {c : Prop} [Decidable c] (h : s.Canonical) (f : s.Canonical → t.Canonical) : (if c then s else t).Canonical := .ite h (f h)

theorem each {α : Type} {xs : List α} {f : State → α → State} (h : s.Canonical) (hf : ∀ x a, State.Canonical x → (f x a).Canonical) :
    (Machine.each xs f s).Canonical := each_inv xs f State.Canonical hf s h

theorem each_mem {α : Type} {xs : List α} {f : State → α → State} (h : s.Canonical)
    (hf : ∀ x a, a ∈ xs → State.Canonical x → (f x a).Canonical) : (Machine.each xs f s).Canonical := by
  induction xs generalizing s with
  | nil => exact h
  | cons a xs ih => exact ih (hf s a List.mem_cons_self h) fun x b hb => hf x b (List.mem_cons_of_mem a hb)

theorem of_snd {α : Type} {p : α × State} {a : α} (h : p.2.Canonical) (e : p = (a, s)) : s.Canonical := by rw [e] at h; exact h

theorem foldl_snd {α β : Type} {p : β × State} {xs : List α} {f : β × State → α → β × State} (h : p.2.Canonical)
    (hf : ∀ q a, q.2.Canonical → (f q a).2.Canonical) : (xs.foldl f p).2.Canonical := by
  induction xs generalizing p with
  | nil => exact h
  | cons a xs ih => exact ih (hf p a h)

end State.Canonical

theorem EffCanonical.ite {a b : Eff} {c : Prop} [Decidable c] (h : EffCanonical a) (h2 : EffCanonical b) : EffCanonical (if c then a else b) := by
  split <;> assumption

theorem LoadCanonical.ite {a b : Load} {c : Prop} [Decidable c] (h : LoadCanonical a) (h2 : LoadCanonical b) :
    LoadCanonical (if c then a else b) := by split <;> assumption

theorem OptCanonical.of_some {o : Option State} (h : OptCanonical o) (e : o = some t) : t.Canonical := by rw [e] at h; exact h

theorem ReadCanonical.of_some {o : Option (Word × State)} {r : Word × State} (h : ReadCanonical o) (e : o = some r) : r.2.Canonical := by
  rw [e] at h; exact h

theorem OptCanonical.some (h : t.Canonical) : OptCanonical (Option.some t) := h

theorem LoadCanonical.word {w : Word} (h : t.Canonical) : LoadCanonical (.word w t) := h

theorem OptCanonical.ite {a b : Option State} {c : Prop} [Decidable c] (h : OptCanonical a) (h2 : OptCanonical b) :
    OptCanonical (if c then a else b) := by split <;> assumption

theorem ReadCanonical.ite {a b : Option (Word × State)} {c : Prop} [Decidable c] (h : ReadCanonical a) (h2 : ReadCanonical b) :
    ReadCanonical (if c then a else b) := by split <;> assumption

theorem LoadCanonical.of_bytes {r : Load} {bs : List Byte} {b : Bool} (h : LoadCanonical r) (e : r = .bytes bs b t) : t.Canonical := by
  rw [e] at h; exact h

theorem StoreCanonical.of_done {r : Store} (h : StoreCanonical r) (e : r = .done t) : t.Canonical := by rw [e] at h; exact h

theorem StoreCanonical.ite {a b : Store} {c : Prop} [Decidable c] (h : StoreCanonical a) (h2 : StoreCanonical b) :
    StoreCanonical (if c then a else b) := by split <;> assumption

theorem done_canonical (h : t.Canonical) : AnswersCanonical (done s t) := ⟨_, rfl, h.same rfl⟩

theorem AnswersCanonical.after {o : Host.Outcome State Fault Refusal} (h : AnswersCanonical o) : (Machine.after o s).Canonical := by
  obtain ⟨u, rfl, hu⟩ := h
  exact hu

end

section
variable {s : State} (h : s.Canonical)
include h

/-! ## Access -/

theorem State.Canonical.setReg {a : Nat} {v : Word} : (s.setReg a v).Canonical := { h with regs := SMap.wf_set _ _ _ _ h.regs }
theorem State.Canonical.setRf {a hi lo v : Nat} : (s.setRf a hi lo v).Canonical := h.setReg
theorem State.Canonical.setRb {a i : Nat} {b : Bool} : (s.setRb a i b).Canonical := h.setReg
theorem State.Canonical.inc {a : Nat} : (s.inc a).Canonical := h.setReg
theorem State.Canonical.emit {e : Emit} : (s.emit e).Canonical := h.beside (emit_areas ..)
theorem State.Canonical.setMsix {k : Nat} {v : MsixVec} : (s.setMsix k v).Canonical := h.beside (setMsix_areas ..)
theorem State.Canonical.setCell {k : Nat} {v : Word} : (s.setCell k v).Canonical := { h with cells := SMap.wf_sd _ _ _ _ h.cells }
theorem State.Canonical.setPmemW {k : Nat} {v : PWord} : (s.setPmemW k v).Canonical := { h with pmem := SMap.wf_sd _ _ _ _ h.pmem }

/-- A byte written to cluster SRAM, or to DRAM, with its error cleared. -/
theorem State.Canonical.sramByte {a b : Nat} {v : Byte} :
    State.Canonical { s with clu := { s.clu with sram := s.clu.sram.sd 0 a v, sramBad := s.clu.sramBad.sd false b false } } :=
  { h with sram := SMap.wf_sd _ _ _ _ h.sram }

theorem State.Canonical.dramByte {a b : Nat} {v : Byte} :
    State.Canonical { s with ddr := { s.ddr with mem := s.ddr.mem.sd 0 a v, bad := s.ddr.bad.sd false b false } } :=
  { h with mem := SMap.wf_sd _ _ _ _ h.mem }

theorem State.Canonical.withClu {c : Clusters} (hs : c.sram = s.clu.sram := by dsimp only) (hp : c.pmem = s.clu.pmem := by dsimp only) :
    State.Canonical { s with clu := c } := { h with sram := hs ▸ h.sram, pmem := hp ▸ h.pmem }

theorem State.Canonical.withSpe {p : Spe} (hc : p.cells = s.spe.cells := by dsimp only) : State.Canonical { s with spe := p } :=
  { h with cells := hc ▸ h.cells }

theorem State.Canonical.withDdr {d : Dram} (hm : d.mem = s.ddr.mem := by dsimp only) : State.Canonical { s with ddr := d } :=
  { h with mem := hm ▸ h.mem }

/-- One field of a big record replaced: said field by field where the state before is a long term. -/
theorem State.Canonical.withHist {lo hi : SMap Nat} : State.Canonical { s with ddr := { s.ddr with histLo := lo, histHi := hi } } := h.withDdr
theorem State.Canonical.withTasks {m : SMap Task} : State.Canonical { s with clu := { s.clu with tasks := m } } := h.withClu

/-- Program memory where the entries that p picks are loaded again from the words ps. -/
theorem State.Canonical.loadPmem {p : Nat × PWord → Bool} {ps : List (Nat × PWord)} {b : SMap Bool} {c : Cfg} :
    State.Canonical { s with cfg := c, clu := { s.clu with
      pmem := ps.foldl (fun (n : SMap PWord) (p : Nat × PWord) => n.sd 0 p.1 p.2) (s.clu.pmem.filter p), pmemBad := b } } :=
  { h with pmem := SMap.wf_writes ps (SMap.wfFrom_filter _ _ p _ h.pmem) }

theorem State.Canonical.withRegs {r : SMap Word} {p : Power} (hr : r.wf regReset = true) : State.Canonical { s with regs := r, pwr := p } :=
  { h with regs := hr }

/-! ## Events -/

theorem State.Canonical.sendMsix {l p v : Nat} : (s.sendMsix l p v).Canonical :=
  .ite (.ite (h.beside (setMsix_areas ..)) (h.beside (emit_areas ..))) h.inc

theorem State.Canonical.deliver {e : Nat} : (s.deliver e).Canonical := by
  have hm : (s.deliverMsix e).Canonical := .ite h.sendMsix h
  have hs : ((s.deliverMsix e).deliverSup e).Canonical := .ite hm.setRb hm
  have hp : (((s.deliverMsix e).deliverSup e).deliverPair e).Canonical := .ite (.ite (hs.beside (emit_areas ..)) hs.inc) hs
  exact .ite h (.ite hp.setRb hp)

theorem State.Canonical.sqc {off bit e : Nat} : (s.sqc off bit e).Canonical := .ite h.setRf h.setRb.setRf.deliver

theorem State.Canonical.add {off n : Nat} : (s.add off n).Canonical := h.setReg
theorem State.Canonical.setPort1588 {k : Nat} {v : PtpPort} : (s.setPort1588 k v).Canonical := h.beside (setPort1588_areas ..)
theorem State.Canonical.setUnit {k : Nat} {v : Option ArmedInstant} : (s.setUnit k v).Canonical := h.beside (setUnit_areas ..)
theorem State.Canonical.setAclk {k : Nat} {v : AngleClock} : (s.setAclk k v).Canonical := h.beside (setAclk_areas ..)
theorem State.Canonical.setVerify {k : Nat} {v : VerifyState} : (s.setVerify k v).Canonical := h.beside (setVerify_areas ..)
theorem State.Canonical.setGroup {k : Nat} {v : RedGroup} : (s.setGroup k v).Canonical := h.beside (setGroup_areas ..)
theorem State.Canonical.setStranger {k : Nat} {v : Option Stranger} : (s.setStranger k v).Canonical := h.beside (setStranger_areas ..)
theorem State.Canonical.setAutCtx {k : Nat} {v : AutCtx} : (s.setAutCtx k v).Canonical := h.beside (setAutCtx_areas ..)
theorem State.Canonical.setStream {k : Nat} {v : Stream} : (s.setStream k v).Canonical := h.same rfl
theorem State.Canonical.setCellInfo {k : Nat} {v : CellInfo} : (s.setCellInfo k v).Canonical := h.same rfl
theorem State.Canonical.setFrame {k : Nat} {v : Frame} : (s.setFrame k v).Canonical := h.beside (setFrame_areas ..)
theorem State.Canonical.setCopy {k : Nat} {v : Copy} : (s.setCopy k v).Canonical := h.beside (setCopy_areas ..)
theorem State.Canonical.setSending {k : Nat} {v : Option Nat} : (s.setSending k v).Canonical := h.beside (setSending_areas ..)
theorem State.Canonical.setPause {k : Nat} {v : PauseState} : (s.setPause k v).Canonical := h.beside (setPause_areas ..)
theorem State.Canonical.setBuf {k : Nat} {v : BufDesc} : (s.setBuf k v).Canonical := h.beside (setBuf_areas ..)
theorem State.Canonical.setPool {k : Nat} {v : PoolStack} : (s.setPool k v).Canonical := h.beside (setPool_areas ..)
theorem State.Canonical.setMac {k : Nat} {v : MacSlot} : (s.setMac k v).Canonical := h.beside (setMac_areas ..)
theorem State.Canonical.setThr {k : Nat} {v : Thread} : (s.setThr k v).Canonical := h.same rfl
theorem State.Canonical.setTask {k : Nat} {v : Task} : (s.setTask k v).Canonical := h.same rfl
theorem State.Canonical.setReady {k : Nat} {v : List Nat} : (s.setReady k v).Canonical := h.same rfl
theorem State.Canonical.setTimer {k : Nat} {v : Option ArmedInstant} : (s.setTimer k v).Canonical := h.same rfl
theorem State.Canonical.setChan {k : Nat} {v : Chan} : (s.setChan k v).Canonical := h.same rfl
theorem State.Canonical.setLlock {k : Nat} {v : Lock} : (s.setLlock k v).Canonical := h.same rfl
theorem State.Canonical.setGlock {k : Nat} {v : Lock} : (s.setGlock k v).Canonical := h.same rfl
theorem State.Canonical.setMbox {k : Nat} {v : Mailbox} : (s.setMbox k v).Canonical := h.same rfl
theorem State.Canonical.setFltq {k : Nat} {v : List (List Word)} : (s.setFltq k v).Canonical := h.same rfl
theorem State.Canonical.setDlq {k : Nat} {v : List (List Word)} : (s.setDlq k v).Canonical := h.same rfl
theorem State.Canonical.setWgroup {k : Nat} {v : WaitGroup} : (s.setWgroup k v).Canonical := h.same rfl
theorem State.Canonical.setFetchU {k : Nat} {v : FetchUnit} : (s.setFetchU k v).Canonical := h.same rfl
theorem State.Canonical.setCpxCmd {k : Nat} {v : CpxCmd} : (s.setCpxCmd k v).Canonical := h.beside (setCpxCmd_areas ..)
theorem State.Canonical.setPcb {k : Nat} {v : Pcb} : (s.setPcb k v).Canonical := h.beside (setPcb_areas ..)
theorem State.Canonical.setPartSh {k : Nat} {v : Option ImgPart} : (s.setPartSh k v).Canonical := h.beside (setPartSh_areas ..)
theorem State.Canonical.setUnitReq {k : Nat} {v : UnitReq} : (s.setUnitReq k v).Canonical := h.beside (setUnitReq_areas ..)
theorem State.Canonical.setGrant {k : Nat} {v : Grant} : (s.setGrant k v).Canonical := h.beside (setGrant_areas ..)
theorem State.Canonical.setDma {k : Nat} {v : Dma} : (s.setDma k v).Canonical := h.beside (setDma_areas ..)
theorem State.Canonical.setRecSet {k : Nat} {v : RecSet} : (s.setRecSet k v).Canonical := h.same rfl

theorem State.Canonical.sqcEach {off bit e : Nat} : (s.sqcEach off bit e).Canonical := h.setRb.setRf.deliver

/-! ## Roles -/

theorem State.Canonical.denyWrite {who : Accessor} : (s.denyWrite who).Canonical := by
  unfold State.denyWrite
  split
  · exact h.inc.sqc
  · exact h

theorem State.Canonical.writeCmd {who : Accessor} {off : Nat} {f : State → State} (hf : (f s).Canonical) : (s.writeCmd who off f).Canonical :=
  .ite hf h.denyWrite

theorem State.Canonical.rttRead {who : Accessor} {off : Nat} {take : Word × State} (ht : take.2.Canonical) : (s.rttRead who off take).Canonical :=
  .ite (ht.beside (emit_areas ..)) (h.beside (emit_areas ..))

theorem State.Canonical.lockedWrite {who : Accessor} {off : Nat} : (s.lockedWrite who off).Canonical := h.inc.setReg.sqc

/-! ## Pmu -/

theorem State.Canonical.pmuAdd {off n : Nat} : (s.pmuAdd off n).Canonical := h.setReg.setReg.andIf (·.setRb)

theorem State.Canonical.pmu {base count ev lo hi : Nat} {a : PmuAttr} {n : Nat} : (s.pmu base count ev lo hi a n).Canonical :=
  .ite h (h.each fun _ _ h => h.pmuAdd)

theorem State.Canonical.pmuCore {c k ev : Nat} {a : PmuAttr} {n : Nat} : (s.pmuCore c k ev a n).Canonical := h.pmu
theorem State.Canonical.pmuClu {c ev : Nat} {a : PmuAttr} {n : Nat} : (s.pmuClu c ev a n).Canonical := h.pmu
theorem State.Canonical.pmuFab {ev : Nat} {a : PmuAttr} {n : Nat} : (s.pmuFab ev a n).Canonical := h.pmu

/-! ## Rings -/

theorem State.Canonical.dramWrite {a : Nat} {bs : List Byte} : (State.dramWrite a bs s).Canonical := by
  induction bs generalizing a s with
  | nil => exact h
  | cons b bs ih => exact ih h.dramByte

theorem State.Canonical.pmuDram {ev a n : Nat} {master : Option Nat} : (s.pmuDram ev a n master).Canonical := h.each fun _ _ h => h.pmuFab
theorem State.Canonical.ringStore {r : Ring} {bytes : List Byte} : (s.ringStore r bytes).Canonical := h.dramWrite.setReg.pmuDram

theorem State.Canonical.ringTake {r : Ring} {bytes : List Byte} (hl : ∀ {x}, State.Canonical x → (r.lost x).Canonical) :
    (s.ringTake r bytes).Canonical :=
  .ite h.inc <| .ite h.ringStore <| .ite (hl h.ringStore.setReg) (hl h)

theorem State.Canonical.setRingFifo {r : Ring} {q : List (List Byte)} : (s.setRingFifo r q).Canonical := h.same rfl

theorem State.Canonical.ringPut {r : Ring} {bytes : List Byte} (hl : ∀ {x}, State.Canonical x → (r.lost x).Canonical) :
    (s.ringPut r bytes).Canonical :=
  .ite h (.ite (h.ringTake hl) (.ite (hl h) h.setRingFifo))

/-! ## Threads -/

theorem State.Canonical.updThr {k : Nat} {f : Thread → Thread} : (s.updThr k f).Canonical := h.setThr
theorem State.Canonical.refetch {k : Nat} : (s.refetch k).Canonical := h.updThr
theorem State.Canonical.updTask {k : Nat} {f : Task → Task} : (s.updTask k f).Canonical := h.setTask

theorem State.Canonical.trace {c part : Nat} {out inn : Option Nat} {thread reason prio : Nat} {aux : Word} :
    (s.trace c part out inn thread reason prio aux).Canonical :=
  .ite (h.ringPut (·.inc.sqc)) h

theorem State.Canonical.readyTail {k : Nat} : (s.readyTail k).Canonical := h.updTask.setReady
theorem State.Canonical.readyHead {k : Nat} : (s.readyHead k).Canonical := h.updTask.setReady
theorem State.Canonical.unready {k : Nat} : (s.unready k).Canonical := (h.each fun _ _ h => h.setReady).withClu

theorem State.Canonical.wake {k cause : Nat} {aux : Word} : (s.wake k cause aux).Canonical := by
  refine .ite h ?_
  split
  · exact h.pmuClu
  · exact h.pmuClu.updTask.readyTail
  · exact .ite h.pmuClu.updTask.inc.trace.sqc h.pmuClu.updTask

theorem State.Canonical.nextRun {k : Nat} : (s.nextRun k).Canonical :=
  .ite h.updTask <| .ite h.updTask.readyTail <| .ite h.updTask.readyTail h.updTask

theorem State.Canonical.bookUsed {k : Nat} : (s.bookUsed k).Canonical := h.updTask
theorem State.Canonical.holdChans {a : Agent} : (s.holdChans a).Canonical := h.each fun _ _ h => .ite h.setChan h
theorem State.Canonical.unholdChans {a : Agent} : (s.unholdChans a).Canonical := h.each fun _ _ h => .ite h.setChan h
theorem State.Canonical.recordHalt {k cause b : Nat} : (s.recordHalt k cause b).Canonical := h.setReg

theorem State.Canonical.stayOn {k : Nat} : (s.stayOn k).Canonical := by
  unfold State.stayOn
  split
  · exact h.readyHead.updThr
  · exact h

theorem State.Canonical.haltThread {k cause b : Nat} : (s.haltThread k cause b).Canonical := by
  refine .recordHalt (.holdChans (.updThr ?_))
  split
  · exact h.stayOn.bookUsed
  · exact h.stayOn

theorem State.Canonical.breakGroup {a : Agent} : (s.breakGroup a).Canonical := by
  unfold State.breakGroup
  split
  · exact .ite h h.setWgroup
  · exact h

theorem State.Canonical.retireSample {k : Nat} : (s.retireSample k).Canonical := by
  unfold State.retireSample
  dsimp only
  split
  · exact .ite (h.beside (setSampler_areas ..) |>.ringPut (·.inc)) h
  · exact h

theorem State.Canonical.finishWait {a : Agent} {status : Nat} {r : Received} : (s.finishWait a status r).Canonical := by
  unfold State.finishWait
  split
  · split
    · exact h.breakGroup.updThr.retireSample.andIf (·.haltThread)
    · exact h
  · split
    · exact h.breakGroup.updTask.readyTail.retireSample
    · exact h
  · exact h

/-! ## Sync -/

theorem State.Canonical.serveTx {k : Nat} : (s.serveTx k).Canonical := by
  refine .ite ?_ h
  split
  · exact h.setChan.finishWait
  · exact h

theorem State.Canonical.serveChan {k : Nat} : (s.serveChan k).Canonical := by
  refine .ite ?_ h.serveTx
  split
  · exact h.setChan.finishWait.serveTx
  · exact h

theorem State.Canonical.abortChan {k : Nat} : (s.abortChan k).Canonical := h.setChan.inc.sqc.serveChan
theorem State.Canonical.abortFilling {a : Agent} : (s.abortFilling a).Canonical := h.each fun _ _ h => h.abortChan

theorem State.Canonical.sendChan {k n : Nat} {taint mark : Bool} : (s.sendChan k n taint mark).Canonical :=
  h.setChan.andIf (·.wake) |>.pmuClu |>.serveChan

theorem State.Canonical.takeChan {k : Nat} : (s.takeChan k).Canonical := h.setChan.serveTx
theorem State.Canonical.setLock {glob : Bool} {k : Nat} {l : Lock} : (s.setLock glob k l).Canonical := .ite h.setGlock h.setLlock
theorem State.Canonical.lckEvent {c b : Nat} : (s.lckEvent c b).Canonical := h.sqc
theorem State.Canonical.grantLock {glob : Bool} {k : Nat} {a : Agent} : (s.grantLock glob k a).Canonical := h.setLock.inc.pmuClu

theorem State.Canonical.passLock {glob : Bool} {k : Nat} : (s.passLock glob k).Canonical := by
  unfold State.passLock
  split
  · exact h.setLock
  · exact h.setLock.grantLock.andUnless (·.finishWait)

theorem State.Canonical.requestLock {glob : Bool} {k : Nat} {a : Agent} {part : Nat} {try_ : Bool} : (s.requestLock glob k a part try_).2.Canonical :=
  .ite_snd h.inc.lckEvent <| .ite_snd h <| .ite_snd h.grantLock <| .ite_snd h h.setLock

theorem State.Canonical.releaseLock {glob : Bool} {k : Nat} {a : Agent} {part : Nat} : (s.releaseLock glob k a part).2.Canonical :=
  .ite_snd h.inc.lckEvent <| .ite_snd h.inc <| .ite_snd h.inc.lckEvent <| .ite_snd h.setLock.passLock h.inc.lckEvent.passLock

theorem State.Canonical.releaseAll {a : Agent} : (s.releaseAll a).Canonical :=
  (h.each fun _ _ h => h.setLock.passLock.inc.lckEvent).each (fun _ _ h => h.setLock.passLock.inc.lckEvent)

theorem State.Canonical.loseHolder {a : Agent} : (s.loseHolder a).Canonical :=
  (h.each fun _ _ h => h.setLlock.inc.lckEvent).each (fun _ _ h => h.setGlock.passLock.inc.lckEvent)

theorem State.Canonical.leaveQueues {a : Agent} : (s.leaveQueues a).Canonical := h.same rfl
theorem State.Canonical.abortWait {a : Agent} : (s.abortWait a).Canonical := h.leaveQueues.finishWait

theorem State.Canonical.resumeWait {a : Agent} : (s.resumeWait a).Canonical := by
  unfold State.resumeWait
  split
  · split
    · exact .ite h.finishWait h
    · exact h.serveChan
    · exact h.serveChan
  · exact h

/-! ## Sched -/

theorem State.Canonical.bookRun {k : Nat} : (s.bookRun k).Canonical := by
  unfold State.bookRun
  exact h.updTask

theorem State.Canonical.saveCtx {k i : Nat} : (s.saveCtx k i).Canonical := by
  unfold State.saveCtx
  exact h.updTask.updThr

theorem State.Canonical.sramWrite {b : BufStore} : (s.sramWrite b).Canonical := h.each fun _ _ h => h.sramByte
theorem State.Canonical.drainStores {k : Nat} : (s.drainStores k).Canonical := h.each (fun _ _ h => h.sramWrite) |>.updThr

theorem State.Canonical.squash {k : Nat} : (s.squash k).Canonical := by
  unfold State.squash
  exact h.beside (with_cpx ..) |>.add |>.updThr

theorem State.Canonical.switchIn {k i : Nat} : (s.switchIn k i).Canonical := .ite h.updThr.refetch.updTask h.updThr.refetch.updTask
theorem State.Canonical.vacate {k reason : Nat} : (s.vacate k reason).Canonical := h.updThr

theorem State.Canonical.endTask {k : Nat} : (s.endTask k).Canonical := by
  unfold State.endTask
  split
  · exact h.drainStores.saveCtx.bookRun.updTask.vacate.nextRun.abortFilling.releaseAll
  · exact h

theorem State.Canonical.forceEnd {n reason : Nat} : (s.forceEnd n reason).Canonical := by
  unfold State.forceEnd
  refine .sqc (.inc (.loseHolder (.abortFilling (.nextRun (.updTask ?_)))))
  split
  · exact h.bookRun.leaveQueues.breakGroup.squash.updThr.vacate
  · exact h.bookRun.leaveQueues.breakGroup.unready

theorem State.Canonical.releasePkt {k disp lane stage : Nat} : (s.releasePkt k disp lane stage).Canonical := by
  unfold State.releasePkt
  split
  · exact h.setFrame.updThr
  · exact h

theorem State.Canonical.postFault {c : Nat} {r : List Word} : (s.postFault c r).Canonical := .ite h.inc.sqc h.setFltq.sqc

theorem State.Canonical.faultAt {k code : Nat} {imprecise : Bool} {addr : Word} {pc : BitVec 16} {iw : PWord} :
    (s.faultAt k code imprecise addr pc iw).Canonical :=
  (Canonical.ite (h.beside (tileError_areas ..)) h).andIf (·.leaveQueues) |>.inc |>.pmuCore |>.postFault |>.updThr |>.andIf (·.releasePkt)
  |>.abortFilling |>.andIf (·.sqc)

theorem State.Canonical.startSup {c : Nat} : (s.startSup c).Canonical := h.updThr.refetch

theorem State.Canonical.killThread {k : Nat} : (s.killThread k).Canonical := by
  unfold State.killThread
  split
  · exact h.forceEnd
  · exact h.squash.leaveQueues.abortFilling.loseHolder.updThr.andThen (fun h => .ite h.startSup h.updThr)

theorem State.Canonical.resumeThread {k : Nat} {pc : BitVec 16} : (s.resumeThread k pc).Canonical := h.updThr.refetch

/-! ## TimeOps -/

theorem State.Canonical.expireHold : s.expireHold.Canonical := h.beside (with_ind ..) |>.sqcEach

theorem State.Canonical.setTimeState {a1 : TimeState} : (s.setTimeState a1).Canonical :=
  .ite h ((Canonical.ite h.setReg h).beside (with_ind ..) |>.deliver |>.andIf (·.sqc.andIf (·.expireHold)))

theorem State.Canonical.setTinSrc {n : Nat} {a2 : SourceState} : (s.setTinSrc n a2).Canonical := h.beside (setTinSrc_areas ..)
theorem State.Canonical.showOffsets : s.showOffsets.Canonical := h.setReg.setReg.setReg
theorem State.Canonical.selectSrc {a1 : Nat} : (s.selectSrc a1).Canonical := .ite h (h.beside (with_ind ..) |>.sqcEach)

theorem State.Canonical.judgeSources : s.judgeSources.Canonical := by
  refine .ite ?_ <| .ite h.setTimeState h
  split
  · exact h.selectSrc.setTimeState
  · exact h.selectSrc.setTimeState
  · exact h.selectSrc
  · exact h

theorem State.Canonical.stepTime {t' : Nat} : (s.stepTime t').Canonical := by
  unfold State.stepTime
  exact (h.same (by dsimp only [State.stores])).sqcEach

theorem State.Canonical.aclkEvent {n flags : Nat} {changed : Bool} : (s.aclkEvent n flags changed).Canonical := .ite h h.setRf.setRf.deliver

/-! ## Dsp -/

theorem State.Canonical.assignTo {n k : Nat} {preempt : Bool} : (s.assignTo n k preempt).Canonical := h.unready.updThr

theorem execTaskAssign_canonical {c : Fin 6} : AnswersCanonical (execTaskAssign c s) := by
  refine done_canonical ?_
  split
  · exact h.assignTo
  · exact h

theorem State.Canonical.leaveThread {k reason : Nat} : (s.leaveThread k reason).Canonical := h.drainStores.saveCtx.bookUsed.updTask.vacate

theorem execTaskSwitch_canonical {t : ThreadId} : AnswersCanonical (execTaskSwitch t s) := by
  unfold execTaskSwitch
  dsimp only
  refine done_canonical ?_
  split
  · exact .ite (h.inc.pmuClu.pmuCore.andUnless (·.inc.pmuClu) |>.switchIn |>.updThr |>.trace) h
  · exact h

theorem State.Canonical.wakeSource {c wsrc idx cause : Nat} {aux : Word} : (s.wakeSource c wsrc idx cause aux).Canonical :=
  h.each fun _ _ h => h.wake

theorem State.Canonical.wakeEval {a m : Nat} : (s.wakeEval a m).Canonical := h.each fun _ _ h => h.each fun _ _ h => h.wake
theorem State.Canonical.fireResult {off code : Nat} : (s.fireResult off code).Canonical := h.setRf.sqc

theorem execDispatcherTimerFire_canonical {c : Fin 6} {u : Fin 32} : AnswersCanonical (execDispatcherTimerFire c u s) := by
  refine done_canonical ?_
  split
  · exact .ite (h.setTimer.fireResult.andIf (·.sqc.deliver) |>.wakeSource) h
  · exact h

theorem State.Canonical.deliverRetraction {r : Retraction} {n : Nat} : (s.deliverRetraction r n).Canonical :=
  h.inc.pmuClu.trace.sqc.andIf (·.updTask.andIf (·.updTask.readyTail))

theorem State.Canonical.retractTasks {r : Retraction} : (s.retractTasks r).Canonical := h.each fun _ _ h => h.deliverRetraction
theorem State.Canonical.dspResult {c : Nat} {val : Word} {res : Nat} : (s.dspResult c val res).Canonical := h.setReg.setReg

theorem State.Canonical.dspRun {who : Accessor} {c : Nat} {val : Word} : (s.dspRun who c val).Canonical :=
  .ite h.dspResult <| .ite h.dspResult <| .ite h.dspResult <| .ite h.wake.dspResult h.updTask.dspResult

theorem State.Canonical.tcbSelect {c : Nat} {val : Word} : (s.tcbSelect c val).Canonical := h.setReg.each (fun _ _ h => h.setReg)

/-! ## Control -/

theorem State.Canonical.ctlResult {c : Nat} {val : Word} {res : Nat} : (s.ctlResult c val res).Canonical := h.setReg.setReg

theorem State.Canonical.ctlRun {who : Accessor} {c : Nat} {val : Word} : (s.ctlRun who c val).Canonical := by
  refine .ite h.ctlResult ?_
  split
  · split
    · exact .ite h.resumeThread.ctlResult h.ctlResult
    · exact h.ctlResult
  · split
    · exact .ite h.killThread.ctlResult h.ctlResult
    · exact h.ctlResult
  · exact .ite h.abortWait.ctlResult h.ctlResult
  · exact h.ctlResult

theorem State.Canonical.ctlWrite {who : Accessor} {c op : Nat} {val : Word} : (s.ctlWrite who c op val).Canonical := h.writeCmd h.ctlRun

theorem execSupervisorInterrupt_canonical {c : Fin 6} : AnswersCanonical (execSupervisorInterrupt c s) := by
  refine done_canonical ?_
  split
  · exact .ite h.leaveQueues.updThr.refetch h
  · exact h

theorem execMaskMaxExceeded_canonical {c : Fin 6} : AnswersCanonical (execMaskMaxExceeded c s) := by
  refine done_canonical ?_
  split
  · exact .ite h.updThr.inc.sqc h
  · exact h

theorem execDeadlockDetect_canonical {c : Fin 6} {g : Fin 16} : AnswersCanonical (execDeadlockDetect c g s) := by
  unfold execDeadlockDetect
  dsimp only
  refine done_canonical ?_
  split
  · exact .ite (h.setWgroup.andThen (fun h => .ite h.inc h.setDlq) |>.inc |>.sqc) h
  · exact h

theorem execDeadlockEscalate_canonical {c : Fin 6} {g : Fin 16} : AnswersCanonical (execDeadlockEscalate c g s) := by
  unfold execDeadlockEscalate
  dsimp only
  refine done_canonical ?_
  split
  · exact .ite h.setWgroup.sqc h
  · exact h

theorem State.Canonical.fltPop {c : Nat} : (s.fltPop c).2.Canonical := by
  unfold State.fltPop
  split
  · exact h
  · exact h.setFltq.each (fun _ _ h => h.setReg)

theorem State.Canonical.dlPop {c : Nat} : (s.dlPop c).2.Canonical := by
  unfold State.dlPop
  split
  · exact h
  · exact h.setDlq.each (fun _ _ h => h.setReg)

theorem State.Canonical.chnAbort {who : Accessor} {c : Nat} {val : Word} : (s.chnAbort who c val).Canonical :=
  .ite h.inc.setReg <| .ite h.setReg h.abortChan.setReg

/-! ## Operands -/

theorem State.Canonical.updCtx {k : Nat} {f : Ctx → Ctx} : (s.updCtx k f).Canonical := h.updThr
theorem State.Canonical.setAcc {k : Nat} {v : Acc} : (s.setAcc k v).Canonical := h.updCtx
theorem State.Canonical.setG {k : Nat} {g : Fin 8} {v : Word} : (s.setG k g v).Canonical := h.updCtx
theorem State.Canonical.setIx {k : Nat} {a2 : Fin 2} {v : Word} : (s.setIx k a2 v).Canonical := h.updCtx
theorem State.Canonical.setDp {k : Nat} {da : BitVec 9} {v : Word} : (s.setDp k da v).Canonical := h.updThr

/-! ## Issue -/

theorem State.Canonical.countIssue {k len : Nat} {iw : PWord} : (s.countIssue k len iw).Canonical := by
  unfold State.countIssue
  exact h.pmuCore.pmuCore.beside (sampleIssue_areas ..) |>.updThr

theorem State.Canonical.stepHalt {k : Nat} : (s.stepHalt k).Canonical := .ite h.haltThread h

theorem State.Canonical.noteSample {s0 : State} {k : Nat} {pended waits : Bool} : (s0.noteSample s k pended waits).Canonical :=
  .ite h <| .ite h.updThr h.retireSample

theorem State.Canonical.dropSample {s0 : State} {k : Nat} : (s0.dropSample s k).Canonical := h.beside (dropSample_areas ..)

theorem State.Canonical.noteStall {k : Nat} {why : StallOn} : (s.noteStall k why).Canonical := by
  refine .ite h ?_
  refine .updThr ?_
  split
  · exact h.pmuCore
  · exact h.pmuCore
  · exact h

omit h in
theorem EffCanonical.finishInstr {k len : Nat} {iw : PWord} {e : Eff} (h : EffCanonical e) (hs : s.Canonical) :
    (State.finishInstr s k len iw e).Canonical := by
  cases e with
  | next t => exact (State.Canonical.updCtx h).updThr.noteSample.stepHalt
  | jump t => exact (State.Canonical.refetch h).pmuCore.noteSample.stepHalt
  | wait t =>
    unfold State.finishInstr
    exact State.Canonical.updThr h
  | gone t => exact (State.Canonical.noteSample h).stepHalt
  | fault t c a => exact (State.Canonical.beside h (dropSample_areas ..)).faultAt
  | stall w => exact hs.noteStall

theorem State.Canonical.issue {t : ThreadId} {i : Instr} {len : Nat} {ds : List Dest} {perm : Option Nat} {act : State → Eff}
    (ha : ∀ {x}, State.Canonical x → EffCanonical (act x)) : (s.issue t i len ds perm act).Canonical := by
  refine .ite h ?_
  split
  · exact h.faultAt
  · refine .ite h ?_
    split
    · exact (h.countIssue.beside (dropSample_areas ..)).faultAt
    · exact .ite h.noteStall ((ha h.countIssue).finishInstr h)

/-! ## Alu -/

theorem State.Canonical.pendRes {k : Nat} {p : PendResult} : (s.pendRes k p).Canonical := h.updThr
theorem State.Canonical.pendAcc {k : Nat} {v : Acc} : (s.pendAcc k v).Canonical := h.pendRes
theorem State.Canonical.divUnit {k : Nat} {v : Acc} : EffCanonical (s.divUnit k v) := .ite trivial h.pendRes
theorem State.Canonical.openLoop {k : Nat} {count : BitVec 16} {b : Nat} : EffCanonical (s.openLoop k count b) := .ite h <| .ite h.updCtx h.updCtx
theorem State.Canonical.branch {k : Nat} {target : BitVec 16} : EffCanonical (s.branch k target) := h.updCtx
theorem State.Canonical.setIe {k : Nat} {b : Bool} : (s.setIe k b).Canonical := h.updThr

/-! ## Frames -/

theorem State.Canonical.updFrame {f : Nat} {g : Frame → Frame} : (s.updFrame f g).Canonical := h.beside (updFrame_areas ..)
theorem State.Canonical.updTag {f : Nat} {g : TagRec → TagRec} : (s.updTag f g).Canonical := h.beside (updTag_areas ..)
theorem State.Canonical.tagTime {f w : Nat} : (s.tagTime f w).Canonical := h.beside (tagTime_areas ..)
theorem State.Canonical.tagEnd {f code : Nat} : (s.tagEnd f code).Canonical := h.beside (tagEnd_areas ..)

theorem State.Canonical.tagFlush1 {f : Nat} {second : Bool} : (s.tagFlush1 f second).Canonical :=
  .ite (h.beside (setTagRec_areas ..) |>.ringPut (·.inc)) h

theorem State.Canonical.tagFlush {f : Nat} : (s.tagFlush f).Canonical := h.tagFlush1.tagFlush1
theorem State.Canonical.capture {c : Nat} {rec : List Byte} : (s.capture c rec).Canonical := .ite (h.ringPut (·.inc.sqc)) h
theorem State.Canonical.captureFrame {f : Nat} : (s.captureFrame f).Canonical := .ite h.capture h
theorem State.Canonical.retire {f : Nat} : (s.retire f).Canonical := h.tagFlush.andIf (·.setFrame)

/-! ## Aut -/

theorem State.Canonical.bookVerdict {f code : Nat} : (s.bookVerdict f code).Canonical := by
  unfold State.bookVerdict
  split
  · exact h.inc
  · exact h.inc
  · exact h.inc.sqc
  · exact h.inc.sqc
  · exact h.inc.sqc
  · exact h.inc.sqc.andIf (·.sqc)
  · exact h.inc.sqc
  · exact h.inc.sqc
  · exact h.inc.sqc
  · exact h.inc

theorem State.Canonical.signPub {i : Nat} {routed : Bool} {b : List Byte} : (s.signPub i routed b).2.Canonical := by
  unfold State.signPub
  split
  · exact h.setAutCtx.inc.andIf (·.sqc)
  · exact h.inc.sqc

theorem State.Canonical.resetWindow {who : Accessor} : (s.resetWindow who).Canonical := .ite h.setReg <| .ite h.setReg.sqc h.setAutCtx.setReg

theorem execAutCtxSelect_canonical {who : Accessor} {val : Word} : AnswersCanonical (execAutCtxSelect who val s) :=
  done_canonical <| h.writeCmd (h.setReg.each (fun _ _ h => h.setReg))

/-! ## Cpx -/

theorem State.Canonical.cpxStart {key : Nat} : (s.cpxStart key).Canonical := by
  unfold State.cpxStart
  dsimp only
  split
  · exact h.setCpxCmd.inc
  · exact h.beside (cpxFree_areas ..) |>.setCpxCmd |>.add |>.add

theorem State.Canonical.setCreg {k n : Nat} {f : CReg → CReg} : (s.setCreg k n f).Canonical := h.updCtx

theorem State.Canonical.cpxStore {c : CpxCmd} : (s.cpxStore c).Canonical :=
  .ite h.updCtx.updThr <| .ite h.setCreg <| .ite h.setCreg (h.each fun _ _ h => h.setCreg)

theorem State.Canonical.cpxFinish {key : Nat} : (s.cpxFinish key).Canonical := by
  refine .ite h.setCpxCmd ?_
  split
  · exact h.setCpxCmd.cpxStore.andIf (·.retireSample) |>.faultAt
  · exact h.setCpxCmd.cpxStore.andIf (·.retireSample)

theorem State.Canonical.cpxDrain {k : Nat} : (s.cpxDrain k).Canonical := h.each fun _ _ h => (Canonical.ite h h.cpxStart).cpxFinish

theorem State.Canonical.cpxQueue {k op cd ca cb gs m : Nat} : EffCanonical (s.cpxQueue k op cd ca cb gs m) := by
  unfold State.cpxQueue
  dsimp only
  split
  · exact .ite trivial (h.setCpxCmd.beside (with_cpx ..) |>.andIf (·.pendRes) |>.inc |>.pmuCore)
  · exact trivial

theorem cpxIssue_canonical {t : ThreadId} {i : Instr} {op : Nat} {cd ca cb gs : Fin 8} {m : BitVec 5} : AnswersCanonical
    (s.cpxIssue t i op cd ca cb gs m) :=
  done_canonical <| h.issue (·.cpxQueue)

/-! ## Mail -/

theorem State.Canonical.mbStage {m w : Nat} {val : Word} : (s.mbStage m w val).Canonical := h.setMbox

theorem State.Canonical.mbArrive {c m : Nat} {ws : Vector Word 4} {wakes : Bool} : (s.mbArrive c m ws wakes).Canonical :=
  h.setMbox.andIf (·.inc.lckEvent) |>.andIf (·.wakeSource)

theorem State.Canonical.mbPostNow {c m : Nat} {val : Word} : (s.mbPostNow c m val).Canonical :=
  .ite h.mbArrive <| .ite (h.beside (with_pai ..) |>.inc |>.emit) h.setMbox.inc.lckEvent

theorem State.Canonical.mbTakeNow {m : Nat} : (s.mbTakeNow m).Canonical := .ite h.setMbox h

theorem State.Canonical.mbWrite {who : Accessor} {c m : Nat} {f : State → State} (hf : (f s).Canonical) : (s.mbWrite who c m f).Canonical :=
  .ite h (.ite h.denyWrite (.ite hf h))

theorem State.Canonical.releaseBy {who : Accessor} : (s.releaseBy who).Canonical := by
  unfold State.releaseBy
  split
  · exact h.drainStores
  · exact h

theorem State.Canonical.lockTry {k : Nat} {glob : Bool} {i : Nat} : (s.lockTry k glob i).2.Canonical := h.requestLock

/-! ## Blocking -/

omit h in
theorem EffCanonical.startWait {k : Nat} {what : WaitFor} {ga : Fin 8} {q : State → State} (h : (q s).Canonical) :
    EffCanonical (s.startWait k what ga q) := by
  have hw : ((q s).updThr k fun t => { t with st := .waiting, wait := some { what := what, ga := ga.val, since := s.up } }).Canonical := h.updThr
  exact .ite (.ite hw.leaveThread trivial) hw

theorem State.Canonical.openChan {k : Nat} {ga gb : Fin 8} {blocking : Bool} : EffCanonical (s.openChan k ga gb blocking) :=
  .ite h <| .ite h.setChan.setG <| .ite h.setG (.startWait h.setChan)

theorem State.Canonical.recvChan {k : Nat} {ga gb : Fin 8} {blocking : Bool} : EffCanonical (s.recvChan k ga gb blocking) :=
  .ite h <| .ite h.takeChan.updThr.setG <| .ite h.setG (.startWait h.setChan)

theorem execLock_canonical {t : ThreadId} {ga gb : Fin 8} : AnswersCanonical (execLock t ga gb s) := by
  refine done_canonical ?_
  refine h.issue fun h => ?_
  split
  · exact h.setG
  · split
    · exact h.requestLock.setG
    · exact .startWait h.requestLock

theorem execUnlock_canonical {t : ThreadId} {ga gb : Fin 8} : AnswersCanonical (execUnlock t ga gb s) := by
  refine done_canonical ?_
  refine h.issue fun h => ?_
  split
  · exact h.setG
  · exact h.drainStores.releaseLock.setG

theorem execYield_canonical {t : ThreadId} : AnswersCanonical (execYield t s) := by
  refine done_canonical ?_
  refine h.issue fun h => ?_
  split
  · exact h.drainStores
  · exact .ite h.updCtx.unready.leaveThread.readyTail.updThr trivial

theorem execMfs_canonical {t : ThreadId} {gs : Fin 8} : AnswersCanonical (execMfs t gs s) := by
  refine done_canonical (h.issue fun h => ?_)
  dsimp only
  split
  · exact h
  next e => exact .ite h ((h.beside ((special_areas ..).of_some e)).setG)

theorem execResultWriteback_canonical {t : ThreadId} {i : Nat} : AnswersCanonical (execResultWriteback t i s) := by
  unfold execResultWriteback
  dsimp only
  refine done_canonical ?_
  split
  · exact .ite h (h.updThr.andThen (fun h => .ite h.faultAt h.updCtx) |>.andIf (·.retireSample))
  · exact h

theorem execStoreVisible_canonical {t : ThreadId} : AnswersCanonical (execStoreVisible t s) := by
  unfold execStoreVisible
  dsimp only
  refine done_canonical ?_
  split
  · exact h.sramWrite.updThr
  · exact h

/-! ## Fwd -/

theorem State.Canonical.fwdBad : s.fwdBad.Canonical := h.inc.sqc
theorem State.Canonical.fwdDetect {fid : Nat} {mac : BitVec 48} : (s.fwdDetect fid mac).Canonical := h.each fun _ _ h => .ite h.fwdBad h

theorem State.Canonical.learnPost {kind port index fid : Nat} {mac : BitVec 48} : (s.learnPost kind port index fid mac).Canonical :=
  .ite h.inc <| .ite h.inc.sqc (h.beside (with_och ..) |>.andThen (fun h => .ite h.inc <| .ite h.inc h))

theorem State.Canonical.saLearn {port fid : Nat} {sa : BitVec 48} : (s.saLearn port fid sa).Canonical := by
  unfold State.saLearn
  dsimp only
  refine .ite (.ite h.inc ?_) h
  split
  · exact h.fwdDetect.learnPost
  · exact h.fwdDetect.beside (macHit_areas ..) |>.andUnless (·.learnPost.andIf (·.inc.sqc))

theorem State.Canonical.daLookup {port fid : Nat} {da : BitVec 48} : (s.daLookup port fid da).2.Canonical := by
  unfold State.daLookup
  dsimp only
  refine .ite_snd ?_ h
  split
  · exact h.fwdDetect.inc
  · exact h.fwdDetect.inc

theorem State.Canonical.putMac {k : Nat} {m : MacSlot} : (s.putMac k m).Canonical := h.beside (putMac_areas ..)
theorem State.Canonical.fwdReturn {i : Nat} {m : MacSlot} : (s.fwdReturn i m).Canonical := h.setReg.setReg.setReg.setReg
theorem State.Canonical.fwdResult {i : Nat} {val : Word} {res : Nat} : (s.fwdResult i val res).Canonical := h.setReg.setReg

theorem State.Canonical.fwdLookupCmd {i : Nat} {val : Word} : (s.fwdLookupCmd i val).Canonical := by
  unfold State.fwdLookupCmd
  dsimp only
  split
  · exact h.fwdDetect.fwdReturn.fwdResult
  · exact h.fwdDetect.fwdResult

theorem State.Canonical.fwdMoves {path : List Nat} : (State.fwdMoves path s).Canonical := by
  fun_induction State.fwdMoves path s with
  | case1 s j k rest ih => exact ih (h.beside (putMac_areas ..) |>.beside (putMac_areas ..)).inc
  | case2 => exact h

theorem State.Canonical.fwdInsFail : s.fwdInsFail.Canonical := h.inc.sqc

theorem State.Canonical.fwdPlace {e : MacSlot} : (s.fwdPlace e).2.2.Canonical := by
  unfold State.fwdPlace
  dsimp only
  split
  · exact h.setRf
  · split
    · exact h.setRf.putMac
    · split
      · exact h.setRf.each (fun _ _ h => h.fwdBad) |>.fwdMoves |>.putMac
      · exact h.setRf.each (fun _ _ h => h.fwdBad) |>.fwdInsFail

theorem State.Canonical.fwdInsertCmd {i : Nat} {val : Word} : (s.fwdInsertCmd i val).Canonical :=
  .ite h.fwdResult (h.fwdDetect.andThen (fun h => .ite h.fwdResult h.fwdPlace.fwdResult))

theorem State.Canonical.fwdUpdateCmd {i : Nat} {val : Word} : (s.fwdUpdateCmd i val).Canonical := by
  refine .ite h.fwdResult ?_
  split
  · exact h.fwdDetect.putMac.fwdResult
  · exact h.fwdDetect.fwdResult

theorem State.Canonical.fwdDeleteCmd {i : Nat} {val : Word} : (s.fwdDeleteCmd i val).Canonical := by
  unfold State.fwdDeleteCmd
  dsimp only
  split
  · exact h.fwdDetect.putMac.fwdResult
  · exact h.fwdDetect.fwdResult

theorem State.Canonical.fwdReadCmd {i : Nat} {val : Word} : (s.fwdReadCmd i val).Canonical := (Canonical.ite h.fwdBad h).fwdReturn.fwdResult

theorem State.Canonical.fwdFlushCmd {i : Nat} {val : Word} : (s.fwdFlushCmd i val).Canonical :=
  h.beside (with_och ..) |>.each (fun _ _ h => h.fwdBad) |>.fwdResult

theorem State.Canonical.fwdClearCmd {i : Nat} {val : Word} : (s.fwdClearCmd i val).Canonical := h.putMac.fwdResult

theorem State.Canonical.fwdRun {who : Accessor} {i : Nat} {val : Word} : (s.fwdRun who i val).Canonical := by
  refine .ite h.fwdResult ?_
  split
  · exact h.fwdLookupCmd
  · exact h.fwdInsertCmd
  · exact h.fwdUpdateCmd
  · exact h.fwdDeleteCmd
  · exact h.fwdReadCmd
  · exact h.fwdFlushCmd
  · exact h.fwdClearCmd
  · exact h.fwdResult

theorem State.Canonical.fwdWrite {who : Accessor} {i op : Nat} {val : Word} : (s.fwdWrite who i op val).Canonical := h.writeCmd h.fwdRun

theorem State.Canonical.fwdApply {e : MacSlot} : (s.fwdApply e).Canonical := by
  unfold State.fwdApply
  dsimp only
  refine .ite h.fwdInsFail ?_
  split
  · exact h.fwdDetect.putMac
  · exact h.fwdDetect.andThen (fun h => .ite h.fwdInsFail h.fwdPlace)

theorem State.Canonical.fwdPop : (s.fwdPop).2.Canonical := by
  unfold State.fwdPop
  split
  · exact h
  · exact h.beside (with_och ..) |>.each (fun _ _ h => h.setReg)

theorem State.Canonical.sweepSlot {k : Nat} : (s.sweepSlot k).Canonical :=
  .ite h.fwdBad.learnPost <| .ite (.ite h <| .ite h.setMac h.setMac.learnPost.inc) h

theorem State.Canonical.sweepVisit : s.sweepVisit.Canonical := by
  unfold State.sweepVisit
  exact h.sweepSlot.setRf.beside (with_och ..)

/-! ## Classifier -/

theorem State.Canonical.setSlotOf {t n : Nat} {a3 : ClsSlot} : (s.setSlotOf t n a3).Canonical := h.beside (setSlotOf_areas ..)

theorem State.Canonical.clsTable {t port : Nat} {p : Parse} : (s.clsTable t port p).2.Canonical := by
  unfold State.clsTable
  dsimp only
  refine .ite_snd ?_ h
  split
  · exact .ite_snd ((Canonical.ite h.inc.sqc h).inc) <| .ite h.inc.sqc h
  · exact .ite h.inc.sqc h

theorem State.Canonical.clsSearch {port : Nat} {p : Parse} : (s.clsSearch port p).2.Canonical := by
  unfold State.clsSearch
  dsimp only
  split
  · exact h.clsTable.clsTable
  · exact h.clsTable.clsTable
  · exact h.clsTable.clsTable

theorem State.Canonical.clsReturn {i : Nat} {r : List Word} : (s.clsReturn i r).Canonical := h.each fun _ _ h => h.setReg
theorem State.Canonical.clsResult {i : Nat} {val : Word} {res : Nat} : (s.clsResult i val res).Canonical := h.setReg.setReg
theorem State.Canonical.clsFull : s.clsFull.Canonical := h.inc.sqc

theorem State.Canonical.clsLookupCmd {i t : Nat} {val : Word} : (s.clsLookupCmd i t val).Canonical := by
  unfold State.clsLookupCmd
  split
  · exact h.clsReturn.clsResult
  · exact h.clsResult

theorem State.Canonical.clsInsertCmd {i t : Nat} {val : Word} : (s.clsInsertCmd i t val).Canonical := by
  refine .ite h.clsResult <| .ite h.clsResult ?_
  split
  · exact h.setSlotOf.clsResult
  · exact h.clsFull.clsResult

theorem State.Canonical.clsUpdateCmd {i t : Nat} {val : Word} : (s.clsUpdateCmd i t val).Canonical := by
  refine .ite h.clsResult ?_
  split
  · exact h.setSlotOf.clsResult
  · exact h.clsResult

theorem State.Canonical.clsDeleteCmd {i t : Nat} {val : Word} : (s.clsDeleteCmd i t val).Canonical := by
  unfold State.clsDeleteCmd
  split
  · exact h.setSlotOf.clsResult
  · exact h.clsResult

theorem State.Canonical.clsReadCmd {i t : Nat} {val : Word} : (s.clsReadCmd i t val).Canonical :=
  .ite h.clsResult <| .ite h.clsResult ((h.each fun _ _ h => h.setReg).clsReturn.clsResult)

theorem State.Canonical.clsRun {who : Accessor} {i : Nat} {val : Word} : (s.clsRun who i val).Canonical := by
  refine .ite h.clsResult <| .ite h.clsResult <| .ite h.clsResult ?_
  split
  · exact h.clsLookupCmd
  · exact h.clsInsertCmd
  · exact h.clsUpdateCmd
  · exact h.clsDeleteCmd
  · exact h.clsReadCmd
  · exact h.clsResult

theorem State.Canonical.clsWrite {who : Accessor} {i op : Nat} {val : Word} : (s.clsWrite who i op val).Canonical := h.writeCmd h.clsRun

theorem State.Canonical.clsApply {t : Nat} {key : List Byte} {res : List Word} : (s.clsApply t key res).Canonical := by
  unfold State.clsApply
  split
  · exact h.setSlotOf
  · split
    · exact h.setSlotOf
    · exact h.clsFull

theorem State.Canonical.noteStranger {f : Nat} : (s.noteStranger f).Canonical := by
  refine .ite h ?_
  split
  · exact h.setStranger
  · split
    · exact h.inc.sqc
    · exact .ite h.inc (h.beside (with_ing ..) |>.setStranger |>.sqc)

theorem execStrangerSelect_canonical {who : Accessor} {val : Word} : AnswersCanonical (execStrangerSelect who val s) :=
  done_canonical <| h.writeCmd (h.setReg.each (fun _ _ h => h.setReg))

theorem execStrangerClear_canonical {who : Accessor} {val : Word} : AnswersCanonical (execStrangerClear who val s) :=
  done_canonical <| h.writeCmd (h.beside (with_ing ..) |>.andThen (fun h => .ite (h.beside (with_ing ..)) h.setStranger))

/-! ## Planes -/

theorem State.Canonical.setStreamSt {k : Nat} {a2 : StreamSt} : (s.setStreamSt k a2).Canonical := h.setStream.setRb
theorem State.Canonical.startGrid {k : Nat} : (s.startGrid k).Canonical := .ite h.setStream h.setStream
theorem State.Canonical.runStream {k : Nat} : (s.runStream k).Canonical := h.setStream.startGrid.setStreamSt
theorem State.Canonical.runStreams {n : Nat} : (s.runStreams n).Canonical := h.each fun _ _ h => .ite h.runStream <| .ite h h.startGrid
theorem State.Canonical.clearCells {k : Nat} : (s.clearCells k).Canonical := { h with cells := SMap.wfFrom_filter _ _ _ _ h.cells }
theorem State.Canonical.newGrid {k : Nat} : (s.newGrid k).Canonical := h.setStream.clearCells
theorem State.Canonical.waitStreams {n : Nat} : (s.waitStreams n).Canonical := h.each fun _ _ h => h.setStreamSt.sqc

/-! ## Rec -/

theorem State.Canonical.fixCell {k : Nat} : (s.fixCell k).Canonical := .ite h.withSpe.inc h

theorem State.Canonical.recCell {r i g : Nat} {w : Word} {j : RecJob} : (s.recCell r i g w j).Canonical := by
  unfold State.recCell
  split
  · exact h.dramWrite.pmuDram
  · exact h

theorem State.Canonical.putHeader {r : Nat} {complete : Bool} : (s.putHeader r complete).Canonical := by
  unfold State.putHeader
  split
  · exact h.dramWrite.pmuDram
  · exact h

theorem State.Canonical.recStart {r i : Nat} {j : RecJob} : (s.recStart r i j).Canonical :=
  h.each fun _ _ h => .ite h <| .ite h.recCell.setRecSet <| .ite h.recCell h

theorem State.Canonical.recDrop : s.recDrop.Canonical := h.inc.sqc

theorem State.Canonical.recBegin {r src : Nat} : (s.recBegin r src).Canonical :=
  .ite h.inc <| .ite h.recDrop ((Canonical.ite h.setReg.recDrop h).setRecSet.each (fun _ _ h => h.recStart) |>.putHeader)

theorem State.Canonical.recTrigger {r src : Nat} : (s.recTrigger r src).Canonical := by
  refine .ite ?_ h
  split
  · exact .ite h.setRecSet.putHeader h.inc.sqc
  · exact h.recBegin

theorem State.Canonical.recChannel {ch : Nat} : (s.recChannel ch).Canonical := h.each fun _ _ h => .ite h.recTrigger h
theorem State.Canonical.recInput {i : Nat} : (s.recInput i).Canonical := h.each fun _ _ h => .ite h.recTrigger h

theorem State.Canonical.recTake {r i hi g : Nat} {w : Word} {j : RecJob} : (s.recTake r i hi g w j).Canonical :=
  (h.each fun _ _ h => h.recCell).andUnless (·.setRecSet) |>.recCell

theorem State.Canonical.histCopy1 {cs g : Nat} : (s.histCopy1 cs g).Canonical := by
  refine .ite h (.ite h.inc.withHist (.each h.dramWrite.pmuDram.withHist fun _ _ h => ?_))
  split
  · exact .ite h.recTake h
  · exact h

theorem State.Canonical.histCopy {k g : Nat} : (s.histCopy k g).Canonical := h.each fun _ _ h => h.histCopy1

theorem execRecordComplete_canonical {r : Fin 16} : AnswersCanonical (execRecordComplete r s) := by
  refine done_canonical ?_
  split
  · exact .ite h.putHeader.setRecSet.setReg.sqc h
  · exact h

theorem State.Canonical.recResult {val : Word} {res : Nat} : (s.recResult val res).Canonical := h.setReg.setReg

theorem State.Canonical.recCmd {who : Accessor} {val : Word} : (s.recCmd who val).Canonical :=
  .ite h.recResult <| .ite h.recResult h.recTrigger.recResult

theorem State.Canonical.fetchErr : s.fetchErr.Canonical := h.inc.sqc
theorem State.Canonical.fetchStart {c f part : Nat} : (s.fetchStart c f part).Canonical := .ite h.setFetchU (h.fetchErr.andUnless (·.setFetchU))
theorem State.Canonical.fetchCopy {c : Nat} {u : FetchUnit} {g n : Nat} : (s.fetchCopy c u g n).Canonical := h.sramWrite.pmuDram

/-! ## Spe -/

theorem State.Canonical.track {k : Nat} {p : Option Sample} : (s.track k p).Canonical := h.beside (track_areas ..)
theorem State.Canonical.updStream {k : Nat} {g : Stream → Stream} : (s.updStream k g).Canonical := h.setStream
theorem State.Canonical.twinDiscard {k : Nat} : (s.twinDiscard k).Canonical := h.inc.updStream
theorem State.Canonical.lateSample {k : Nat} : (s.lateSample k).Canonical := h.inc.updStream.sqc
theorem State.Canonical.missSample {k m : Nat} : (s.missSample k m).Canonical := .ite h (h.inc.updStream.andUnless (·.track))

theorem State.Canonical.writeCell {cs g : Nat} {w : Word} {info : CellInfo} : (s.writeCell cs g w info).Canonical :=
  h.setCell.setCellInfo.withSpe.pmuFab

theorem State.Canonical.advanceHead {k g : Nat} : (s.advanceHead k g).Canonical := h.setStream.andIf (fun h => h.each fun _ _ h => h.wakeSource)
theorem State.Canonical.mergeCell {m g : Nat} : (s.mergeCell m g).Canonical := h.each fun _ _ h => h.writeCell.andIf (·.inc.sqc)
theorem State.Canonical.mergeAfter {k g : Nat} : (s.mergeAfter k g).Canonical := h.each fun _ _ h => .ite h.mergeCell.advanceHead h
theorem State.Canonical.remerge {k g : Nat} : (s.remerge k g).Canonical := h.each fun _ _ h => .ite h.mergeCell h

theorem State.Canonical.fillCell {k g : Nat} {n mu : Int} {taps : List Tap} : (s.fillCell k g n mu taps).Canonical :=
  (h.each fun _ _ h => h.writeCell.andIf (·.inc.sqc)).updStream.advanceHead.mergeAfter

theorem State.Canonical.voidCell {k g : Nat} : (s.voidCell k g).Canonical := (h.each fun _ _ h => h.writeCell).advanceHead.mergeAfter

theorem State.Canonical.completeCell {k g : Nat} : (s.completeCell k g).Canonical := by
  unfold State.completeCell
  dsimp only
  split
  · exact .ite h.fillCell h
  · exact h

theorem State.Canonical.completeCells {k : Nat} : (s.completeCells k).Canonical := .ite (h.each fun _ _ h => h.completeCell) h

theorem State.Canonical.pauseStream {k : Nat} {confRev : Word} {len : Nat} : (s.pauseStream k confRev len).Canonical :=
  .ite h.updStream.setStreamSt.sqc h

theorem State.Canonical.judgeShape {sh : Option (Nat × Word × Nat)} {pass : Bool} : (s.judgeShape sh pass).Canonical := by
  unfold State.judgeShape
  split
  · exact .ite h.pauseStream h.inc.updStream
  · exact h

theorem State.Canonical.completeDue {k g : Nat} {t : Frac} : (s.completeDue k g t).Canonical :=
  (h.each fun _ _ h => .ite h.missSample h).andThen (fun h => .ite (h.fillCell.andUnless (·.sqc)) h.updStream.voidCell.sqc)

theorem State.Canonical.mergeDue {k g : Nat} : (s.mergeDue k g).Canonical := h.mergeCell.advanceHead.andUnless (·.sqc)

theorem State.Canonical.cellDue {k : Nat} : (s.cellDue k).Canonical := by
  unfold State.cellDue
  dsimp only
  split
  · refine .ite ?_ h
    refine .andIf ?_ (·.updStream.andIf (·.histCopy))
    refine .ite h <| .ite h.voidCell.sqc <| .ite h.mergeDue ?_
    split
    · exact h.completeDue
    · exact h
  · exact h

theorem State.Canonical.mapCells {k g : Nat} {b : Word → CellInfo → Word × CellInfo} : (s.mapCells k g b).Canonical :=
  (h.each fun _ _ h => h.setCell.setCellInfo).remerge

theorem State.Canonical.recoverCell {k f g : Nat} : (s.recoverCell k f g).Canonical := by
  refine .ite h.mapCells ?_
  split
  · exact h
  · exact .ite ((h.each fun _ _ h => h.writeCell.inc.sqc.andIf (·.inc.sqc)).remerge) h

theorem State.Canonical.recoverFor {k f : Nat} : (s.recoverFor k f).Canonical := h.each fun _ _ h => h.each fun _ _ h => h.recoverCell

theorem State.Canonical.useSample {k : Nat} {p : Sample} {own : Option Nat} : (s.useSample k p own).Canonical :=
  (Canonical.ite h.track <| .ite h.track h).andIf (·.lateSample) |>.completeCells

theorem State.Canonical.takeSample {k : Nat} {p : Sample} : (s.takeSample k p).Canonical := by
  unfold State.takeSample
  dsimp only
  split
  · exact .ite (.ite h.lateSample h) h.inc.updStream.useSample
  · exact .ite h.twinDiscard (h.updStream.andUnless (fun h => .ite (h.inc.updStream.useSample.andIf (·.recoverFor)) <|
      .ite h.twinDiscard h.updStream))

theorem State.Canonical.takeAsdu {k f : Nat} {a : Asdu} : (s.takeAsdu k f a).Canonical :=
  (Canonical.ite h.sqc h).andUnless (fun h => .ite h.inc.sqc h.takeSample)

theorem State.Canonical.takeSamples {f : Nat} : (s.takeSamples f).Canonical := by
  unfold State.takeSamples
  split
  · exact h
  · refine .ite ?_ h
    split
    · exact .ite h.updFrame h.judgeShape
    · exact (Canonical.ite h h.add.sqc).each (fun _ _ h => h.takeAsdu)

theorem State.Canonical.offerSamples {f : Nat} : (s.offerSamples f).Canonical := .ite h.takeSamples h.updFrame

theorem State.Canonical.spePass {f : Nat} : (s.spePass f).Canonical := by
  unfold State.spePass
  split
  · exact h
  · exact h.setStream.each (fun _ _ h => h.twinDiscard) |>.andUnless (fun h => h.each fun _ _ h => h.track) |>.each (fun _ _ h => h.mapCells)
      |>.recoverFor |>.judgeShape

theorem State.Canonical.keepSeen {z : State} {k : Nat} {gs : List Nat} : (z.keepSeen s k gs).Canonical :=
  h.each fun _ _ h => .ite h h.setCellInfo

theorem State.Canonical.speFail {f : Nat} : (s.speFail f).Canonical := by
  unfold State.speFail
  split
  · exact h
  · refine .judgeShape (.keepSeen ?_)
    refine .each (.andUnless ?_ (fun h => ?_)) (fun _ _ h => h.recoverFor)
    · refine h.setStream.andUnless (fun h => ?_) |>.each (fun _ _ h => h.mapCells)
      refine h.each (fun _ _ h => ?_)
      split
      · exact .ite h.track <| .ite h h.track
      · exact h.track
    · exact h.inc.sqc.retractTasks

theorem State.Canonical.latchHeads {a num : Nat} : (s.latchHeads a num).Canonical := h.each fun _ _ h => h.updStream

theorem execStreamSelect_canonical {who : Accessor} {val : Word} : AnswersCanonical (execStreamSelect who val s) :=
  done_canonical <| h.writeCmd (h.setReg.each (fun _ _ h => h.setReg))

/-! ## Ochre -/

theorem State.Canonical.setHeld {o p v : Nat} : (s.setHeld o p v).Canonical := .ite h.setRf h.setRf
theorem State.Canonical.noteShort {s0 : State} : (s0.noteShort s).Canonical := h.each fun _ _ h => .ite h.sqc h
theorem State.Canonical.noteLow {p : Nat} : (s.noteLow p).Canonical := .ite h.setReg h
theorem State.Canonical.quarantineBuf {b : Nat} : (s.quarantineBuf b).Canonical := h.setBuf.setPool.andIf (·.setHeld) |>.noteShort |>.inc |>.sqc

theorem State.Canonical.purgeTop {p n : Nat} : (State.purgeTop p n s).Canonical := by
  induction n generalizing s with
  | zero => exact h
  | succ n ih => exact .ite (ih h.quarantineBuf) h

theorem State.Canonical.grantFrom {o p : Nat} : (s.grantFrom o p).2.Canonical := h.setPool.setBuf.setHeld.noteLow.pmuFab
theorem State.Canonical.noteContest {p : Nat} : (s.noteContest p).Canonical := .ite h.inc h

theorem State.Canonical.allocFrom {o : Nat} {ps : List Nat} : (State.allocFrom o ps s).2.Canonical := by
  induction ps generalizing s with
  | nil => exact h.inc.inc.sqc
  | cons p ps ih =>
    have hp : (State.purgeTop p (s.poolFree p) s).Canonical := h.purgeTop
    rw [State.allocFrom]
    split
    · exact hp.grantFrom
    · split
      · dsimp only
        exact hp.grantFrom.beside (noteLast_areas ..)
      · exact ih (.noteContest (.ite hp hp.inc.pmuFab))

theorem State.Canonical.alloc {o size : Nat} : (s.alloc o size).2.Canonical := h.allocFrom

theorem State.Canonical.freeBuf {b claimant : Nat} : (s.freeBuf b claimant).2.Canonical :=
  .ite_snd h <| .ite_snd h.quarantineBuf <| .ite_snd h.inc.setReg.sqc <| .ite_snd h.inc.setReg.sqc h.setBuf.setPool.setHeld

theorem State.Canonical.free {b claimant : Nat} : (s.free b claimant).Canonical := h.freeBuf
theorem State.Canonical.transfer {b o : Nat} : (s.transfer b o).Canonical := .ite h <| .ite h.quarantineBuf h.setBuf.setHeld.setHeld.noteShort

theorem State.Canonical.rebuildPools : s.rebuildPools.Canonical :=
  h.beside (with_och ..) |>.each (fun _ _ h => h.setReg.setReg) |>.each (fun _ _ h => h.setReg)

theorem State.Canonical.ochResult {val : Word} {res : Nat} : (s.ochResult val res).Canonical := h.setReg.setReg

theorem State.Canonical.ochQueryCmd {val : Word} : (s.ochQueryCmd val).Canonical :=
  .ite ((Canonical.ite h.quarantineBuf h).setReg.ochResult) h.ochResult

theorem State.Canonical.ochFreeCmd {who : Accessor} {val : Word} : (s.ochFreeCmd who val).Canonical :=
  .ite h.ochResult <| .ite h.ochResult <| .ite h.ochResult h.freeBuf.ochResult

theorem execOchQuery_canonical {who : Accessor} {val : Word} : AnswersCanonical (execOchQuery who val s) := done_canonical <| h.writeCmd h.ochQueryCmd

theorem execOchCmdFree_canonical {who : Accessor} {val : Word} : AnswersCanonical (execOchCmdFree who val s) :=
  done_canonical <| h.writeCmd h.ochFreeCmd

/-! ## Switch -/

theorem State.Canonical.admitDrop {e tc : Nat} : (s.admitDrop e tc).Canonical := .ite h.inc.pmuFab.sqc.sqc h.inc.pmuFab.sqc

theorem State.Canonical.takeIn {e tc size f : Nat} {pub : Bool} : (s.takeIn e tc size f pub).2.Canonical := by
  unfold State.takeIn
  refine .ite_snd ?_ h.admitDrop
  split
  next s1 e =>
    exact h.alloc.of_snd e |>.add |>.pmuFab
  next s1 e1 =>
    exact h.alloc.of_snd e1 |>.admitDrop

theorem State.Canonical.enqueue {c : Copy} : (s.enqueue c).2.Canonical := h.beside (enqueue_areas ..)

theorem State.Canonical.releaseBuf {n : Nat} {descBad : Bool} : (s.releaseBuf n descBad).Canonical :=
  h.setReg.andThen (fun h => .ite h.quarantineBuf h.free)

theorem State.Canonical.endCopy {n : Nat} {descBad : Bool} : (s.endCopy n descBad).Canonical :=
  h.releaseBuf.beside (unqueue_areas ..) |>.setCopy |>.andUnless (·.retire)

theorem State.Canonical.flushQueues {e : Nat} : (s.flushQueues e).Canonical := h.each fun _ _ h => h.each fun _ _ h => h.endCopy

theorem State.Canonical.copyTo {f e fCyc : Nat} : (s.copyTo f e fCyc).2.Canonical := by
  unfold State.copyTo
  dsimp only
  split
  next s1 e =>
    exact h.takeIn.of_snd e |>.andIf (·.inc) |>.enqueue
  next s1 e1 =>
    exact h.takeIn.of_snd e1

theorem State.Canonical.copiesTo {f : Nat} {es : List Nat} {first any : Bool} : (State.copiesTo f es first any s).2.Canonical := by
  induction es generalizing s first any with
  | nil => exact h
  | cons e es ih => exact ih (.ite (h.copyTo.beside (lowerF_areas ..)) h.copyTo)

theorem State.Canonical.freeLaneBuf {f : Nat} : (s.freeLaneBuf f).Canonical := by
  unfold State.freeLaneBuf
  split
  · exact h.free.updFrame
  · exact h

theorem State.Canonical.makeCopies {f : Nat} : (s.makeCopies f).Canonical :=
  h.copiesTo.beside (bumpSeq_areas ..) |>.updTag |>.andIf (·.freeLaneBuf)

theorem State.Canonical.cutFragment {e : Nat} : (s.cutFragment e).Canonical := by
  unfold State.cutFragment
  split
  · exact h.setCopy.beside (with_pkt ..) |>.inc |>.setSending
  · exact h

theorem State.Canonical.startCopy {e tc n : Nat} {cut : Bool} : (s.startCopy e tc n cut).Canonical :=
  h.beside (unqueue_areas ..) |>.setCopy |>.setSending |>.andIf (·.beside (with_pai ..)) |>.andIf (·.updTag.tagFlush)

theorem State.Canonical.egressStart {e tc : Nat} : (s.egressStart e tc).Canonical := by
  unfold State.egressStart
  split
  · exact h.beside (resumeCopy_areas ..)
  · refine .ite ?_ h
    split
    · exact (Canonical.ite h.cutFragment h).startCopy
    · exact h

theorem State.Canonical.noteCut {e : Nat} {under : Bool} : (s.noteCut e under).Canonical := h.inc.sqc.sqc
theorem State.Canonical.noteStomp {e : Nat} : (s.noteStomp e).Canonical := (Canonical.ite h.inc <| .ite h.inc h).sqc
theorem State.Canonical.noteSent {e : Nat} {fragments : Bool} : (s.noteSent e fragments).Canonical := .ite (h.inc.andIf (·.inc)) <| .ite h.inc h
theorem State.Canonical.captureEgress {e : Nat} {c : Copy} {b : List Byte} : (s.captureEgress e c b).Canonical := .ite h.capture h

theorem State.Canonical.egressEnd {e : Nat} {descBad dataBad : Bool} : (s.egressEnd e descBad dataBad).Canonical := by
  unfold State.egressEnd
  split
  · exact .ite (h.beside (copyBody_areas ..) |>.beside (sendCopy_areas ..) |>.noteSent |>.andIf (·.noteStomp) |>.andThen
      (fun h => .ite h.noteCut <| .ite h.noteCut h) |>.andIf (·.inc.sqc) |>.andIf (·.pmuFab) |>.captureEgress |>.endCopy |>.beside
      (lineNext_areas ..) |>.andIf (·.beside (plcaDone_areas ..))) h
  · exact h

theorem State.Canonical.unpause {p : Nat} : (s.unpause p).Canonical := h.setPause.setRb

theorem State.Canonical.pauseRx {p quanta : Nat} : (s.pauseRx p quanta).Canonical :=
  h.inc.add.andIf (·.inc) |>.andUnless (fun h => .ite h.unpause h.setPause.setRb)

theorem State.Canonical.pauseFlush {p : Nat} : (s.pauseFlush p).Canonical := h.flushQueues.inc.sqc.sqc.setPause.unpause

/-! ## Ingress -/

theorem State.Canonical.portEvent {p bit : Nat} : (s.portEvent p bit).Canonical := h.sqc

theorem State.Canonical.linkDown {p : Nat} {why : LinkLoss} : (s.linkDown p why).Canonical :=
  h.setRb.setRb.andIf (·.setRb) |>.setRf |>.setVerify |>.portEvent |>.andIf (·.portEvent) |>.andIf (·.portEvent)

theorem State.Canonical.preemptVerify {p : Nat} {what : VerifyEvent} : (s.preemptVerify p what).Canonical :=
  .ite (.ite h.setRf h) <| .ite (.ite h.emit h) <| .ite (.ite h.setRf.portEvent h.setVerify.setRf.emit) h

theorem State.Canonical.segEvent {g bit : Nat} : (s.segEvent g bit).Canonical := h.sqc

theorem State.Canonical.backOff {g : Nat} : (s.backOff g).Canonical := by
  unfold State.backOff
  split
  · exact h
  · exact .ite h.setSending.endCopy.inc.segEvent (h.beside (freeN_areas ..) |>.setSending |>.setCopy |>.beside (setEgq_areas ..))

theorem State.Canonical.newFrame {p sub : Nat} {pre : Bool} : (s.newFrame p sub pre).2.Canonical :=
  h.beside (drawTag_areas ..) |>.beside (with_pkt ..) |>.setFrame |>.pmuFab

theorem State.Canonical.consume {f : Nat} {p : Parse} : (s.consume f p).Canonical := h.updFrame.andIf (·.inc)

theorem State.Canonical.walk {f : Nat} : (s.walk f).Canonical := by
  refine .ite h ?_
  split
  · refine .ite (.ite h.consume h) ?_
    split
    · exact h.updFrame
    · exact h
  · exact h.updFrame
  · exact h

theorem State.Canonical.bytesIn {f : Nat} {b : List Byte} : (s.bytesIn f b).Canonical := .ite h.updFrame.walk h
theorem State.Canonical.dupAdd {r port : Nat} {e : DupEntry} : (s.dupAdd r port e).Canonical := .ite h.setGroup.inc.portEvent h.setGroup

theorem State.Canonical.dupCheck {f : Nat} {seq : BitVec 16} : (s.dupCheck f seq).Canonical := by
  unfold State.dupCheck
  dsimp only
  split
  · exact h
  · split
    · exact .ite h.updFrame.inc.setGroup h.setGroup
    · exact h.dupAdd

theorem State.Canonical.dupLost {f : Nat} : (s.dupLost f).Canonical := by
  unfold State.dupLost
  split
  · exact h
  · exact h.setGroup.add

theorem State.Canonical.passThrough {f : Nat} {p : Parse} {seq : BitVec 16} {r : Nat} : (s.passThrough f p seq r).Canonical := by
  refine .ite h.updFrame.inc ?_
  split
  next s2 e =>
    exact h.updFrame.andThen (fun h => .ite h.setGroup h.dupAdd) |>.andThen (fun h => h.takeIn.of_snd e) |>.beside (lowerF_areas ..) |>.enqueue
  next s2 e1 =>
    exact h.updFrame.andThen (fun h => .ite h.setGroup h.dupAdd) |>.andThen (fun h => h.takeIn.of_snd e1)

theorem execHsrPassThrough_canonical {f : Nat} : AnswersCanonical (execHsrPassThrough f s) := by
  refine done_canonical ?_
  split
  · exact .ite h h.passThrough
  · exact h

theorem State.Canonical.noteReason {p : Parse} : (s.noteReason p).Canonical := .ite h.inc.sqc <| .ite h.inc.sqc h

theorem State.Canonical.lookupFrame {f : Nat} : (s.lookupFrame f).Canonical :=
  .ite h.noteReason.updFrame <| .ite (.ite h.clsSearch.pmuFab.updFrame.noteStranger h.clsSearch.pmuFab.updFrame) <| .ite
    ((Canonical.ite h.clsSearch.pmuFab.inc.sqc h.clsSearch.pmuFab).updFrame) ((Canonical.ite h.clsSearch.pmuFab.inc.sqc h.clsSearch.pmuFab).updFrame)

theorem State.Canonical.classifyFrame {f : Nat} : (s.classifyFrame f).Canonical := by
  unfold State.classifyFrame
  refine .ite (.freeLaneBuf (.beside (.beside (.sqc (.andIf ?_ fun h => h.inc)) (updFrame_areas ..)) (tagEnd_areas ..)))
    (.andIf ?_ fun h => ((h.beside (updFrame_areas ..)).beside (tagEnd_areas ..)).freeLaneBuf)
  all_goals
    refine .beside (.beside ?_ (tagTime_areas ..)) (police_areas ..)
    refine .beside (.beside (.daLookup (.beside (.lookupFrame ?_) (updFrame_areas ..))) (updFrame_areas ..)) (authFrame_areas ..)
    split
    · exact (h.beside (updFrame_areas ..)).dupCheck
    · exact h.beside (updFrame_areas ..)

theorem State.Canonical.takeRct {f : Nat} : (s.takeRct f).Canonical := by
  unfold State.takeRct
  dsimp only
  split
  · exact h
  · refine .ite h ?_
    split
    · exact h
    · exact h.updFrame.andUnless (·.inc.portEvent)

theorem State.Canonical.countRx {p n : Nat} {fcsBad reasm : Bool} : (s.countRx p n fcsBad reasm).Canonical :=
  .ite (h.inc.add.andIf (·.inc) |>.andIf (·.inc) |>.andIf (·.inc.portEvent)) <| .ite (h.inc.andIf (·.inc)) h

theorem State.Canonical.closeFrame {f : Nat} : (s.closeFrame f).Canonical :=
  (Canonical.ite h <| .ite h.consume h.updFrame).updFrame.andIf (·.inc) |>.andIf (·.beside (plcaDone_areas ..)) |>.andIf (·.dupLost) |>.beside
  (settleCopies_areas ..) |>.andIf (·.freeLaneBuf) |>.andIf (·.takeSamples.updFrame) |>.andIf (·.retire)

theorem State.Canonical.frameTail {f : Nat} {rest : List Byte} {fcsGood reasm : Bool} {ext : Option SecExt} :
    (s.frameTail f rest fcsGood reasm ext).Canonical :=
  .ite h <| .ite ((Canonical.ite h.inc <| .ite h.inc h).beside (runtEnd_areas ..)) (h.updFrame.andIf (·.inc) |>.countRx |>.takeRct |>.closeFrame)

theorem State.Canonical.countFec {p corr uncorr : Nat} : (s.countFec p corr uncorr).Canonical := .ite (h.add.add.andUnless (·.portEvent)) h

/-! ## Lanes -/

theorem State.Canonical.joinQueue {f l st : Nat} {re : Bool} : (s.joinQueue f l st re).Canonical :=
  h.updFrame.beside (setQueue_areas ..) |>.andIf (·.setReg)

theorem State.Canonical.discard {f code : Nat} : (s.discard f code).Canonical := h.updFrame.freeLaneBuf.tagEnd.retire

theorem State.Canonical.laneBuf {f l : Nat} : (s.laneBuf f l).2.Canonical := by
  unfold State.laneBuf
  split
  · exact h.transfer
  · exact h.alloc

theorem State.Canonical.enterLane {f l st : Nat} : (s.enterLane f l st).Canonical := by
  refine .ite h.inc.sqc.discard ?_
  split
  next s1 e =>
    exact h.laneBuf.of_snd e |>.inc |>.sqc |>.discard
  next s1 e1 =>
    exact h.laneBuf.of_snd e1 |>.updFrame |>.beside (fillBuf_areas ..) |>.inc |>.pmuFab |>.updTag |>.tagTime |>.joinQueue

theorem State.Canonical.epochDrop {f l : Nat} : (s.epochDrop f l).Canonical := h.inc.sqc.discard
theorem State.Canonical.takePacket {f l st k : Nat} : (s.takePacket f l st k).Canonical := h.updFrame.updThr.refetch

theorem State.Canonical.bypassStage {f l st : Nat} : (s.bypassStage f l st).Canonical :=
  h.beside (takeHead_areas ..) |>.updFrame |>.andUnless (·.inc)

theorem State.Canonical.dispatch {l st : Nat} : (s.dispatch l st).Canonical := by
  unfold State.dispatch
  split
  · exact h
  · refine .ite (h.beside (setQueue_areas ..) |>.epochDrop) <| .ite h <| .ite h.bypassStage ?_
    split
    · exact h.beside (takeHead_areas ..) |>.takePacket
    · exact h

theorem State.Canonical.idleThread {k : Nat} : (s.idleThread k).Canonical := h.updThr

theorem State.Canonical.relEff {k disp lane stage : Nat} : EffCanonical (s.relEff k disp lane stage) :=
  .ite h.drainStores.releasePkt.idleThread <| .ite h.drainStores.inc.idleThread h

theorem State.Canonical.recirculate {f l tl ts : Nat} : (s.recirculate f l tl ts).Canonical := by
  refine .ite ?_ h.inc.sqc.discard
  refine .joinQueue (.inc (.tagTime ?_))
  split
  · exact h.tagEnd.tagFlush.updFrame.updTag.transfer
  · exact h.tagEnd.tagFlush.updFrame.updTag

theorem State.Canonical.leaveStage {f l st : Nat} : (s.leaveStage f l st).Canonical :=
  h.beside (setRob_areas ..) |>.beside (with_pkt ..) |>.tagTime |>.andThen
  (fun h => .ite h.inc.discard <| .ite h.epochDrop <| .ite h.recirculate <| .ite h.joinQueue h.updFrame)

theorem State.Canonical.stageExit {l st : Nat} : (s.stageExit l st).Canonical := by
  unfold State.stageExit
  split
  · exact h
  · exact .ite h.leaveStage h

theorem State.Canonical.exitLane {f l : Nat} : (s.exitLane f l).Canonical :=
  h.inc.andIf (·.inc) |>.offerSamples |>.updFrame |>.andThen (fun h => .ite h.inc.freeLaneBuf <| .ite h.freeLaneBuf h.makeCopies) |>.andIf
  (·.captureFrame) |>.tagEnd |>.retire

theorem execLaneExit_canonical {f : Nat} : AnswersCanonical (execLaneExit f s) := by
  refine done_canonical ?_
  split
  · exact .ite h h.exitLane
  · exact h

theorem State.Canonical.reclaim {o : Nat} : (s.reclaim o).Canonical :=
  (h.each fun _ _ h => h.endCopy).each (fun _ _ h => h.beside (dequeueFrame_areas ..) |>.discard)

theorem execOchReclaim_canonical {who : Accessor} {val : Word} : AnswersCanonical (execOchReclaim who val s) :=
  done_canonical <| h.writeCmd (.ite h.ochResult <| .ite h.ochResult h.reclaim.ochResult)

/-! ## Verdict -/

theorem State.Canonical.failCopy {n : Nat} : (s.failCopy n).Canonical := .ite h <| .ite (.ite h h.inc.sqc.endCopy) <| .ite h.setCopy h.inc.endCopy

theorem State.Canonical.giveVerdict {f : Nat} : (s.giveVerdict f).Canonical :=
  h.beside (bookCtx_areas ..) |>.bookVerdict |>.updFrame |>.beside (tagV_areas ..) |>.pmuFab |>.andThen
  (fun h => .ite h.spePass ((h.each fun _ _ h => h.failCopy).speFail)) |>.andIf (·.captureFrame) |>.andIf (·.saLearn) |>.retire

/-! ## Voter -/

theorem State.Canonical.updVch {ch : Nat} {g : VrmChan → VrmChan} : (s.updVch ch g).Canonical := h.beside (updVch_areas ..)
theorem State.Canonical.judgeSlot {ch k : Nat} : (s.judgeSlot ch k).Canonical := (Canonical.ite h.sqc h).andUnless (·.updVch)

theorem State.Canonical.judgeChan {ch : Nat} : (s.judgeChan ch).Canonical :=
  .ite h ((h.each fun _ _ h => h.judgeSlot).andIf (·.sqc) |>.andUnless (·.updVch))

theorem State.Canonical.judgeChans : s.judgeChans.Canonical := h.each fun _ _ h => h.judgeChan

theorem State.Canonical.soe {kind idx : Nat} {level chat ended prov : Bool} {t : Nat} : (s.soe kind idx level chat ended prov t).Canonical :=
  .ite (h.beside (with_vrm ..) |>.ringPut (·.inc.sqc)) h

theorem State.Canonical.updFout {o : Nat} {g : FioOut → FioOut} : (s.updFout o g).Canonical := h.beside (updFout_areas ..)
theorem State.Canonical.driveOut {o : Nat} {level : Bool} : (s.driveOut o level).Canonical := h.updFout.andUnless (·.soe)
theorem State.Canonical.assertOut {o : Nat} : (s.assertOut o).Canonical := h.updFout.driveOut.andUnless (·.sqc)
theorem State.Canonical.refuseFire : s.refuseFire.Canonical := h.inc.sqc
theorem State.Canonical.fireOut {o : Nat} : (s.fireOut o).Canonical := .ite h.refuseFire <| .ite h.updFout h.assertOut
theorem State.Canonical.instantOut {o : Nat} : (s.instantOut o).Canonical := .ite h.assertOut h

theorem State.Canonical.outsLeave {ch : Nat} : (s.outsLeave ch).Canonical :=
  (h.each fun _ _ h => h.updFout).each (fun _ _ h => .ite h.updFout.refuseFire h)

theorem execFioArmExpire_canonical {o : Fin 32} : AnswersCanonical (execFioArmExpire o s) := by
  refine done_canonical ?_
  split
  · exact .ite h.updFout h
  · exact h

theorem State.Canonical.fioRun {who : Accessor} {op : Nat} {val : Word} : (s.fioRun who op val).Canonical := by
  refine .ite h.setReg.setReg <| .ite h.setReg.setReg <| .ite h.setReg.setReg ?_
  split
  · exact h.updFout.setReg.setReg
  · exact .ite h.assertOut.setReg.setReg h.setReg.setReg
  · exact h.driveOut.setReg.setReg

theorem State.Canonical.updPcb {b : Nat} {g : Pcb → Pcb} : (s.updPcb b g).Canonical := h.beside (updPcb_areas ..)

theorem State.Canonical.pubCopy {b ready : Nat} {body : List Byte} {e : Nat} : (s.pubCopy b ready body e).Canonical := by
  unfold State.pubCopy
  dsimp only
  split
  next s1 e =>
    exact h.takeIn.of_snd e |>.enqueue |>.inc |>.updPcb
  next s1 e1 =>
    exact h.takeIn.of_snd e1 |>.inc |>.sqc |>.updPcb

theorem State.Canonical.publish {b ready : Nat} : (s.publish b ready).Canonical := by
  unfold State.publish
  dsimp only
  refine .ite h ?_
  split
  · exact .ite_snd h h.signPub
  · exact (Canonical.ite_snd h h.signPub).each (fun _ _ h => h.pubCopy) |>.each (fun _ _ h => .ite h.setGroup h)

theorem State.Canonical.unpublish {b : Nat} : (s.unpublish b).Canonical := (h.each fun _ _ h => h.endCopy).updPcb.setReg
theorem State.Canonical.pubChange {b v : Nat} : (s.pubChange b v).Canonical := (Canonical.ite h.unpublish h).updPcb.publish
theorem State.Canonical.publishChanges : s.publishChanges.Canonical := h.each fun _ _ h => .ite h h.pubChange
theorem State.Canonical.pubOnce {b : Nat} : (s.pubOnce b).Canonical := .ite h.updPcb.publish h

theorem State.Canonical.trip {ch : Nat} : (s.trip ch).Canonical :=
  h.updVch.inc.inc.sqc.soe.recChannel.andIf (fun h => h.each fun _ _ h => h.fireOut)

theorem State.Canonical.untrip {ch st : Nat} : (s.untrip ch st).Canonical := h.updVch.soe.outsLeave
theorem State.Canonical.vote {ch : Nat} : (s.vote ch).Canonical := h.judgeChan.andIf (·.trip)
theorem State.Canonical.absentSlot {ch k : Nat} : (s.absentSlot ch k).Canonical := h.beside (absentSlot_areas ..)
theorem State.Canonical.refusePost {off : Nat} : (s.refusePost off).Canonical := h.inc.sqc

theorem State.Canonical.decide {ch : Nat} {ks : List Nat} {trip prov : Bool} : (s.decide_ ch ks trip prov).Canonical :=
  .ite ((h.each fun _ _ h => h.absentSlot).refusePost.judgeChan) ((h.each fun _ _ h => h.beside (hold_areas ..)).andIf (·.inc) |>.vote)

theorem State.Canonical.forwardVote {ch cl task : Nat} {trip prov : Bool} : (s.forwardVote ch cl task trip prov).Canonical :=
  .ite (h.emit.inc.beside (with_pai ..)) h

theorem State.Canonical.postVote {cl task : Nat} {w : Word} {taint mark : Bool} : (s.postVote cl task w taint mark).Canonical :=
  h.inc.pmuFab.andThen (fun h => .ite ((h.each fun _ _ h => h.absentSlot).refusePost.judgeChan) <| .ite
  ((h.each fun _ _ h => h.absentSlot).refusePost.judgeChan) <| .ite h.refusePost h.decide.forwardVote.publishChanges)

theorem State.Canonical.cellBad : s.cellBad.Canonical := h.inc
theorem State.Canonical.disagree {ch num : Nat} : (s.disagree ch num).Canonical := .ite h.inc.sqc (h.beside (with_vrm ..) |>.inc |>.sqc)

theorem State.Canonical.strobeChan {ch num : Nat} : (s.strobeChan ch num).Canonical := by
  refine .each ?_ (fun _ _ h => h.updVch)
  refine .andThen ?_ (fun h => .ite (h.updVch.andIf (·.disagree)) h.updVch)
  refine .andIf (.andIf (.judgeChan ?_) (·.updVch)) (·.untrip)
  exact h.each (fun _ _ h => h.updVch)

theorem State.Canonical.strobeVoter {n num : Nat} : (s.strobeVoter n num).Canonical := (h.each fun _ _ h => h.strobeChan).publishChanges

theorem execVrmReset_canonical {who : Accessor} {val : Word} : AnswersCanonical (execVrmReset who val s) :=
  done_canonical <| h.writeCmd (.ite h.setReg.setReg <| .ite h.untrip.publishChanges.setReg.setReg h.setReg.setReg)

theorem State.Canonical.disPop : (s.disPop).2.Canonical := by
  unfold State.disPop
  split
  · exact h
  · exact h.beside (with_vrm ..) |>.each (fun _ _ h => h.setReg)

theorem execVrmPcbSelect_canonical {who : Accessor} {val : Word} : AnswersCanonical (execVrmPcbSelect who val s) :=
  done_canonical <| h.writeCmd (h.setReg.each (fun _ _ h => h.setReg))

theorem State.Canonical.acceptInput {i : Nat} {level : Bool} {firstAt : Nat} : (s.acceptInput i level firstAt).Canonical :=
  h.beside (updFin_areas ..) |>.soe |>.andIf (·.sqc) |>.recInput

theorem State.Canonical.voterSafe : s.voterSafe.Canonical := (h.each fun _ _ h => h.driveOut.updFout).each (fun _ _ h => h.pubChange) |>.sqc
theorem State.Canonical.outsOff : s.outsOff.Canonical := h.each fun _ _ h => h.driveOut.updFout

theorem State.Canonical.commitChan {old : State} {ch : Nat} : (old.commitChan s ch).Canonical :=
  .ite ((Canonical.ite h.untrip h).beside (setVch_areas ..)) <| .ite (h.beside (setVch_areas ..)) <| .ite h.updVch h

theorem State.Canonical.commitVoter {old : State} : (old.commitVoter s).Canonical :=
  (h.each fun _ _ h => h.commitChan).each (fun _ _ h => .ite h.driveOut <| .ite (h.beside (setFout_areas ..) |>.driveOut) h) |>.each
  (fun _ _ h => .ite h (h.beside (setFinp_areas ..))) |>.each (fun _ _ h => .ite h.pubChange h) |>.publishChanges |>.judgeChans

/-! ## ConfApply -/

theorem State.Canonical.imgReg {off : Nat} {v : Word} : (s.imgReg off v).Canonical := .ite h (h.setReg.andIf (·.beside (with_ing ..)))

theorem State.Canonical.applyObj {r : Rec} : (s.applyObj r).Canonical := by
  unfold State.applyObj
  split
  · exact .ite h h.setAutCtx
  · exact h.setReg
  · exact h.setStream
  · exact h.setTask
  · exact h.setPcb
  · exact h.setPcb
  · exact h.beside (setEnv_areas ..) |>.setReg
  · exact h.each fun _ _ h => h.setReg
  · exact h

theorem State.Canonical.applyRec {r : Rec} : (s.applyRec r).Canonical := by
  unfold State.applyRec
  split
  · exact h.each fun _ _ h => h.imgReg
  · exact h.applyObj
  · exact h

theorem State.Canonical.deriveEnvs {root : Nat} : (s.deriveEnvs root).Canonical := h.each fun _ _ h => h.beside (setEnv_areas ..) |>.setReg
theorem State.Canonical.defaultPools : s.defaultPools.Canonical := h.each fun _ _ h => h.setReg

theorem State.Canonical.applyImg {p : ImgPart} : (s.applyImg p).Canonical :=
  (Canonical.ite h.defaultPools h).each (fun _ _ h => h.applyRec) |>.andIf (·.deriveEnvs)

theorem State.Canonical.produced : s.produced.Canonical := h.each fun _ _ h => h.applyImg

/-! ## Checker -/

theorem State.Canonical.recordCheck {l : List ChkErr} : (s.recordCheck l).Canonical := (h.each fun _ _ h => h.setReg.setReg).setReg

/-! ## Indigo -/

theorem State.Canonical.steer : s.steer.Canonical := h.beside (freeN_areas ..) |>.setReg
theorem State.Canonical.stepBy {ns : Int} : (s.stepBy ns).Canonical := h.stepTime.beside (with_ind ..) |>.showOffsets

theorem State.Canonical.countUpdate {off : Int} : (s.countUpdate off).Canonical :=
  .ite (.ite h.setTimeState (h.beside (with_ind ..))) (h.beside (with_ind ..))

theorem State.Canonical.judgeDisagree : s.judgeDisagree.Canonical :=
  .ite (.ite (h.beside (with_ind ..) |>.deliver) (h.beside (with_ind ..))) (h.beside (with_ind ..))

theorem State.Canonical.servoWith {a1 : Nat} : (s.servoWith a1).Canonical := by
  unfold State.servoWith
  split
  · exact h
  · exact (Canonical.ite (h.beside (with_ind ..) |>.stepBy) h.steer).countUpdate
  · exact h.steer
  · exact h.steer.countUpdate

theorem State.Canonical.timeSetWrite {val : Word} : (s.timeSetWrite val).Canonical := h.beside (with_wrHold ..) |>.andIf (·.stepTime)
theorem State.Canonical.restartTime : s.restartTime.Canonical := .ite h.sqcEach h.selectSrc.setTimeState
theorem State.Canonical.sendPtp {p kind seq time : Nat} {corr : Int} : (s.sendPtp p kind seq time corr).Canonical := h.beside (sendPtp_areas ..)

theorem State.Canonical.ptpMeasure {p rxTs origin : Nat} {corr : Int} {seq : BitVec 16} : (s.ptpMeasure p rxTs origin corr seq).Canonical :=
  h.beside (with_ind ..) |>.showOffsets |>.judgeSources

theorem execPtpFollowUpRx_canonical {a0 : PtpIn} {a1 : BitVec 16} {a2 : Nat} {a3 : Int} {a4 : Nat} : AnswersCanonical
    (execPtpFollowUpRx a0 a1 a2 a3 a4 s) := by
  refine done_canonical ?_
  refine .ite h ?_
  split
  · exact h.beside (forwardFollowUp_areas ..) |>.andIf (·.setPort1588.ptpMeasure)
  · exact h.beside (forwardFollowUp_areas ..)

theorem State.Canonical.setGm {id : BitVec 64} : (s.setGm id).Canonical := h.setReg.setReg.andUnless (·.beside (with_ind ..) |>.deliver)
theorem State.Canonical.setUtc {a : AnnounceData} : (s.setUtc a).Canonical := h.setReg.andIf (·.deliver)

theorem State.Canonical.bmca : s.bmca.Canonical := by
  unfold State.bmca
  split
  · exact .ite (h.beside (with_ind ..) |>.each (fun _ _ h => .ite h.setPort1588 h) |>.setGm |>.setUtc)
      (h.beside (with_ind ..) |>.each (fun _ _ h => .ite h.setPort1588 h) |>.setGm)
  · exact .ite (h.beside (with_ind ..) |>.each (fun _ _ h => h.setPort1588))
      (h.beside (with_ind ..) |>.each (fun _ _ h => .ite h.setPort1588 h) |>.setGm)

theorem execPtpPdelayRespRx_canonical {a0 : Edge PtpIn} {a1 : BitVec 16} {a2 : Nat} : AnswersCanonical (execPtpPdelayRespRx a0 a1 a2 s) := by
  refine done_canonical ?_
  split
  · exact .ite h.setPort1588 h
  · exact h

theorem State.Canonical.losePtp : s.losePtp.Canonical := h.beside (with_ind ..) |>.andIf (·.deliver) |>.judgeSources
theorem State.Canonical.loseTin {n : Nat} : (s.loseTin n).Canonical := h.setTinSrc.andIf (·.deliver.judgeSources)

theorem State.Canonical.judgeTen {n cycles : Nat} : (s.judgeTen n cycles).Canonical :=
  .ite ((Canonical.ite (h.beside (with_ind ..)) (h.beside (with_ind ..))).andIf (·.deliver)) h

theorem State.Canonical.irigBad {n : Nat} : (s.irigBad n).Canonical := .ite h.loseTin h.setTinSrc

theorem execPpsOutPulse_canonical {n : Fin 2} : AnswersCanonical (execPpsOutPulse n s) := by
  refine done_canonical ?_
  split
  · exact .ite (h.beside (setPps_areas ..) |>.emit) h
  · exact h

theorem State.Canonical.startClock {n cyc extra freq : Nat} {a5 : AclkState} {failed : Bool} : (s.startClock n cyc extra freq a5 failed).Canonical :=
  h.setAclk.aclkEvent.runStreams.andIf (·.sqc)

theorem State.Canonical.holdClock {n : Nat} : (s.holdClock n).Canonical := by
  unfold State.holdClock
  exact h.setAclk.aclkEvent

theorem State.Canonical.loseRef {n : Nat} : (s.loseRef n).Canonical := .ite h.setAclk.aclkEvent h.holdClock

theorem State.Canonical.followRef {n : Nat} {e : RefEstimate} : (s.followRef n e).Canonical :=
  h.setAclk.setReg.aclkEvent.beside (pullClock_areas ..)

theorem State.Canonical.relock {n : Nat} {e : RefEstimate} {second : Bool} : (s.relock n e second).Canonical := by
  unfold State.relock
  exact h.setAclk.aclkEvent

theorem State.Canonical.countCycle {n : Nat} {pri sec : RefEstimate} : (s.countCycle n pri sec).Canonical := h.beside (countCycle_areas ..)

theorem execAclkZeroCrossing_canonical {n : Fin 16} {pri sec : RefEstimate} : AnswersCanonical (execAclkZeroCrossing n pri sec s) := by
  unfold execAclkZeroCrossing
  dsimp only
  refine done_canonical ?_
  split
  · exact h.countCycle.andIf (·.startClock)
  · exact h.countCycle.setAclk.andThen (fun h => .ite h.loseRef <| .ite h.setAclk h.followRef)
  · exact h.countCycle.andThen (fun h => .ite h.relock <| .ite h.relock h)
  · exact h.countCycle
  · exact h

/-! ## Debug -/

theorem State.Canonical.pmuZero : s.pmuZero.Canonical := { h with regs := SMap.wfFrom_filter _ _ _ _ h.regs }
theorem State.Canonical.pmuCtrl {val : Word} : (s.pmuCtrl val).Canonical := h.setReg.andIf (·.pmuZero)

theorem State.Canonical.goOn {k : Nat} {step : Bool} : (s.goOn k step).Canonical := by
  refine .andIf ?_ (·.resumeWait)
  split
  · exact h.updThr.unholdChans.updTask
  · exact h.updThr.unholdChans

theorem State.Canonical.dbgDeny : s.dbgDeny.Canonical := h.inc

theorem State.Canonical.dbgCtxSel {who : Accessor} {val : Word} : (s.dbgCtxSel who val).Canonical :=
  h.setReg.andUnless (fun h => .ite h.dbgDeny <| .ite h (h.cpxDrain.each (fun _ _ h => h.setReg)))

theorem State.Canonical.pmemSet {j a : Nat} {v : PWord} : (s.pmemSet j a v).Canonical := h.setPmemW.withClu

theorem State.Canonical.dbgStore {c k space a : Nat} {v : Word} : (s.dbgStore c k space a v).Canonical := by
  unfold State.dbgStore
  split
  · exact h.sramWrite
  · exact h.pmemSet
  · exact h.updThr

theorem State.Canonical.dbgResult {val : Word} {res : Nat} : (s.dbgResult val res).Canonical := h.setReg.setReg

theorem State.Canonical.dbgRun {who : Accessor} {val : Word} : (s.dbgRun who val).Canonical := by
  unfold State.dbgRun
  refine .ite h.dbgResult ?_
  split
  · exact .ite h.dbgDeny.dbgResult <| .ite h.haltThread.dbgResult h.dbgResult
  · exact .ite h.dbgDeny.dbgResult <| .ite h.goOn.dbgResult h.dbgResult
  · exact .ite h.dbgDeny.dbgResult <| .ite h.goOn.dbgResult h.dbgResult
  · exact .ite h.dbgDeny.dbgResult <| .ite h.cpxDrain.updThr.refetch.dbgResult h.dbgResult
  iterate 2
    dsimp only
    split
    · exact h.dbgResult
    · exact .ite h.dbgDeny.dbgResult <| .ite h.dbgResult <| .ite h.dbgStore.dbgResult h.setReg.dbgResult
  · exact h.dbgResult

theorem State.Canonical.dbgWrite {who : Accessor} {op : Nat} {val : Word} : (s.dbgWrite who op val).Canonical := h.writeCmd h.dbgRun
theorem State.Canonical.bpWrite {who : Accessor} {c k off : Nat} {val : Word} : (s.bpWrite who c k off val).Canonical := .ite h.setReg h.dbgDeny

theorem execBreakpointHit_canonical {t : ThreadId} : AnswersCanonical (execBreakpointHit t s) := by
  unfold execBreakpointHit
  dsimp only
  refine done_canonical ?_
  split
  · exact (Canonical.ite (h.each fun _ _ h => .ite h.haltThread h) h).haltThread
  · exact h

theorem State.Canonical.unbindJtag : s.unbindJtag.Canonical := h.setRb.beside (with_dbg ..)
theorem State.Canonical.clearBps {p : Nat} : (s.clearBps p).Canonical := h.each fun _ _ h => h.each fun _ _ h => h.setReg.setReg

theorem State.Canonical.endGrant {p : Nat} : (s.endGrant p).Canonical :=
  .ite (h.setGrant.sqc.clearBps.each (fun _ _ h => h.goOn) |>.andIf (·.unbindJtag)) h

theorem State.Canonical.jtagTry {val : Word} : (s.jtagTry val).Canonical :=
  h.setReg.andUnless (fun h => .ite (h.setRb.beside (with_dbg ..)) (h.beside (with_dbg ..)))

theorem execJtagLockoutExpire_canonical : AnswersCanonical (execJtagLockoutExpire s) := by
  refine done_canonical ?_
  split
  · exact .ite (h.beside (with_dbg ..)) h
  · exact h

theorem State.Canonical.jtagPass : s.jtagPass.Canonical := h.beside (jtagPass_areas ..)

/-! ## DevState -/

theorem State.Canonical.goState {d : DevState} : (s.goState d).Canonical := by
  unfold State.goState
  split
  · exact h.beside (with_pwr ..) |>.setReg |>.sqc |>.sqc |>.voterSafe
  · exact h.beside (with_pwr ..) |>.setReg |>.sqc |>.andIf (·.outsOff)
  · exact h.beside (with_pwr ..) |>.setReg |>.sqc |>.andIf (·.outsOff)
  · exact h.beside (with_pwr ..) |>.setReg |>.sqc |>.outsOff

theorem State.Canonical.goSafe {cause : Nat} : (s.goSafe cause).Canonical :=
  .ite h (h.setRb.andIf (·.beside (with_pwr ..) |>.setReg) |>.andUnless (·.goState))

theorem State.Canonical.askState {d : DevState} : (s.askState d).Canonical :=
  .ite (.ite h.setReg h.setReg.goSafe) <| .ite (h.beside (with_pwr ..) |>.setReg) h.setReg

theorem State.Canonical.stateReq {val : Word} : (s.stateReq val).Canonical := by
  unfold State.stateReq
  refine .ite h.setReg ?_
  split
  · exact h.setReg.askState
  · exact h.setReg.setReg

/-! ## Session -/

theorem State.Canonical.updMport {n : Nat} {f : MgtPort → MgtPort} : (s.updMport n f).Canonical := h.beside (updMport_areas ..)

theorem State.Canonical.endSession {n : Nat} {byClose : Bool} : (s.endSession n byClose).Canonical := by
  unfold State.endSession
  split
  · exact h.updMport.andUnless (·.sqc)
  · exact h

theorem State.Canonical.mgtSend {n : Nat} {bs : List Byte} : (s.mgtSend n bs).Canonical := by
  unfold State.mgtSend
  split
  · exact h.each fun _ _ h => h.emit
  · exact h.updMport
  · exact h.each fun _ _ h => h.emit
  · exact h.each fun _ _ h => .ite h h.emit
  · exact h.emit.setReg.andIf (·.sendMsix)

theorem State.Canonical.mgtRefuse {n : Nat} {f : MgtFrame} {res : Nat} : (s.mgtRefuse n f res).Canonical := h.mgtSend
theorem State.Canonical.mgtQueue {n : Nat} {f : MgtFrame} : (s.mgtQueue n f).Canonical := h.beside (mgtQueue_areas ..)

theorem State.Canonical.mgtAdmit {n : Nat} {a2 : Session} {f : MgtFrame} {lenOk : Bool} : (s.mgtAdmit n a2 f lenOk).Canonical := by
  unfold State.mgtAdmit
  split
  · exact h.updMport.andThen (fun h => .ite h.updMport.mgtSend <| .ite h.updMport.mgtSend h.mgtQueue)
  · exact h.updMport.updMport.mgtSend

theorem State.Canonical.mgtBadTag {n : Nat} {a2 : Session} {f : MgtFrame} : (s.mgtBadTag n a2 f).Canonical :=
  h.updMport.inc.mgtRefuse.andIf (·.endSession)

theorem State.Canonical.mgtJudge {n : Nat} {a2 : Session} {f : MgtFrame} {lenOk : Bool} : (s.mgtJudge n a2 f lenOk).Canonical :=
  .ite h.inc.mgtSend <| .ite h.mgtRefuse h.mgtAdmit

theorem State.Canonical.mgtArrive {n : Nat} {src : BitVec 48} {bs : List Byte} : (s.mgtArrive n src bs).Canonical := by
  refine .ite h <| .ite h.updMport.mgtRefuse <| .ite ?_ <| .ite ?_ ?_
  · exact h.updMport.andThen (fun h => .ite h.mgtRefuse <| .ite h.mgtRefuse h.mgtQueue)
  · exact h.updMport.andThen (fun h => .ite h.mgtRefuse h.mgtQueue)
  · split
    · exact h.updMport.mgtRefuse
    · exact h.updMport.andThen (fun h => .ite h.mgtRefuse <| .ite h.mgtBadTag h.updMport.mgtJudge)

theorem State.Canonical.onCmd {n : Nat} {codes : List Nat} {act : MgtFrame → State → State}
    (ha : ∀ f x, State.Canonical x → (act f x).Canonical) : (s.onCmd n codes act).Canonical := by
  unfold State.onCmd
  split
  · exact .ite (ha _ _ (h.beside (updMport_areas ..))) h
  · exact h

theorem State.Canonical.respond {n res : Nat} {pay : List Byte} : (s.respond n res pay).Canonical := by
  unfold State.respond
  split
  · exact h
  · split
    · exact h.updMport.andThen (fun h => .ite (h.updMport.mgtSend.andIf (·.endSession)) h.mgtSend)
    · exact h.updMport.mgtSend

theorem State.Canonical.answer {a : Actor} {res : Nat} {pay : List Byte} : (s.answer a res pay).Canonical := by
  unfold State.answer
  split
  · exact h.respond
  · exact h.beside (with_pwr ..)
  · exact h

/-! ## Pair -/

theorem State.Canonical.setLinkSt {st : Nat} : (s.setLinkSt st).Canonical := .ite h h.setRf.sqc
theorem State.Canonical.flushClass {tc : Nat} : (s.flushClass tc).Canonical := .ite h ((h.each fun _ _ h => h.endCopy).inc.sqc)

theorem State.Canonical.dropSending : s.dropSending.Canonical := by
  unfold State.dropSending
  split
  · exact h.setSending.endCopy
  · exact h

theorem State.Canonical.pairDown : s.pairDown.Canonical :=
  .ite h (h.setLinkSt.setRf.beside (with_pai ..) |>.dropSending |>.each (fun _ _ h => h.flushClass) |>.endSession |>.judgeChans)

theorem State.Canonical.train : s.train.Canonical := by
  refine .ite h ?_
  split
  · exact h.setLinkSt
  · exact h.setLinkSt
  · exact h

theorem State.Canonical.setLanes {a b : Bool} : (s.setLanes a b).Canonical := h.beside (with_pai ..) |>.setRb |>.setRb

theorem State.Canonical.laneLock {l : Nat} : (s.laneLock l).Canonical :=
  h.setLanes.andUnless (fun h => .ite (.ite h.setLinkSt h) <| .ite h.train.train <| .ite h.train h)

theorem State.Canonical.laneDrop {l : Nat} : (s.laneDrop l).Canonical := h.setLanes.andThen (fun h => .ite h.pairDown <| .ite h.setLinkSt h)
theorem State.Canonical.comeUp {v : Nat} : (s.comeUp v).Canonical := h.setRf.setLinkSt.andIf (·.sqc) |>.beside (with_pai ..)

theorem State.Canonical.agree : s.agree.Canonical := by
  unfold State.agree
  split
  · exact .ite h.comeUp <| .ite h.comeUp h.sqc
  · exact h

theorem State.Canonical.setMatch {bit : Nat} {m : Bool} : (s.setMatch bit m).Canonical := h.setRb.andIf (·.sqc)

theorem State.Canonical.judgeMatch : s.judgeMatch.Canonical := by
  unfold State.judgeMatch
  split
  · exact h
  · exact h.setMatch.setMatch.setReg

theorem State.Canonical.measurePair {b : Heartbeat} {t4 : Nat} : (s.measurePair b t4).Canonical :=
  .ite h (h.setReg.setReg.beside (with_pai ..) |>.andIf (·.sqc) |>.andIf (·.sqc))

theorem State.Canonical.judgeAlign {b : Heartbeat} : (s.judgeAlign b).Canonical := .ite h.sqc h

/-! ## CommitFab -/

theorem State.Canonical.cancelOn {n : Nat} : (s.cancelOn n).Canonical :=
  (h.each fun _ _ h => .ite h.setUnit.setRf h).each (fun _ _ h => .ite h.setTimer.setRf h)

theorem State.Canonical.commitMode {n : Nat} : (s.commitMode n).Canonical :=
  .ite (.ite h.setAclk.aclkEvent <| .ite h.setAclk h) <| .ite h.setAclk.aclkEvent h

theorem State.Canonical.commitRef {o : State} {n : Nat} : (o.commitRef s n).Canonical := .ite (.ite h.setAclk.holdClock h.setAclk) h.setAclk
theorem State.Canonical.commitGrid {o : State} {n : Nat} : (o.commitGrid s n).Canonical := .ite (h.each fun _ _ h => h.newGrid) h

theorem State.Canonical.commitRunning {o : State} {n : Nat} : (o.commitRunning s n).Canonical := by
  unfold State.commitRunning
  exact h.commitMode.commitRef.beside (commitE_areas ..) |>.commitGrid

theorem State.Canonical.commitClock {o : State} {n : Nat} : (o.commitClock s n).Canonical :=
  .ite (.ite h.waitStreams.setAclk.aclkEvent.cancelOn h) <| .ite h.setAclk.aclkEvent h.commitRunning

theorem State.Canonical.commitUnit {o : State} {u : Nat} : (o.commitUnit s u).Canonical := .ite h <| .ite h.setUnit h.setUnit.setRf

theorem State.Canonical.commitTimer {o : State} {k : Nat} : (o.commitTimer s k).Canonical :=
  .ite h <| .ite h.setTimer <| .ite h.setTimer.setRf h.setTimer.setRf.sqc

theorem State.Canonical.commitTime {o : State} : (o.commitTime s).Canonical := (h.each fun _ _ h => .ite h.setTinSrc h).andIf (·.judgeSources)

theorem State.Canonical.commitIndigo {o : State} : (o.commitIndigo s).Canonical :=
  h.commitTime.each (fun _ _ h => h.commitClock) |>.each (fun _ _ h => h.commitUnit) |>.each (fun _ _ h => h.commitTimer)

theorem State.Canonical.cutArriving {p : Nat} : (s.cutArriving p).Canonical := h.each fun _ _ h => h.frameTail

theorem State.Canonical.commitPort {o : State} {p : Nat} : (o.commitPort s p).Canonical :=
  .ite (h.cutArriving.andIf (·.linkDown)) <| .ite h.setRf.setVerify h

theorem State.Canonical.commitSeg {g : Nat} : (s.commitSeg g).Canonical := .ite h (h.cutArriving.beside (with_pkt ..))

theorem State.Canonical.commitIngress {o : State} : (o.commitIngress s).Canonical := by
  unfold State.commitIngress
  exact (h.each fun _ _ h => h.commitPort).each (fun _ _ h => h.commitSeg) |>.each (fun _ _ h => h.beside (commitGroup_areas ..)) |>.beside
    (commitPolicers_areas ..) |>.andIf (·.beside (with_ing_cfg ..))

theorem State.Canonical.commitAut {o : State} : (o.commitAut s).Canonical :=
  (h.each fun _ _ h => h.beside (commitCtx_areas ..)).andIf (fun h => (h.each fun _ _ h => h.beside (keepKeys_areas ..)).beside (with_aut ..)
  |>.setRb |>.sqc)

theorem State.Canonical.commitStream {o : State} {k : Nat} : (o.commitStream s k).Canonical :=
  .ite (.ite h.setStream.setStreamSt h) <| .ite (.ite h.runStream h.setStreamSt) <| .ite
    ((Canonical.ite h.startGrid h).andIf (·.setStream.setStreamSt.sqc))
    ((Canonical.ite h.setStream h).andIf (fun h => .ite h.runStream <| .ite h.setStreamSt.sqc h))

theorem State.Canonical.commitSpe {o : State} : (o.commitSpe s).Canonical := h.each fun _ _ h => h.commitStream
theorem State.Canonical.commitLanes {o : State} : (o.commitLanes s).Canonical := .ite (h.beside (with_pkt ..) |>.setReg |>.sqc) h
theorem State.Canonical.commitShort {o : State} : (o.commitShort s).Canonical := h.noteShort
theorem State.Canonical.dropHeld : s.dropHeld.Canonical := h.each fun _ _ h => h.updThr.killThread

theorem State.Canonical.commitPools {o : State} : (o.commitPools s).Canonical :=
  .ite h (h.dropHeld.beside (with_pkt ..) |>.each (fun _ _ h => h.each fun _ _ h => h.setReg) |>.each (fun _ _ h => h.setReg) |>.rebuildPools)

theorem State.Canonical.commitFwd {o : State} : (o.commitFwd s).Canonical := .ite (h.beside (with_och ..) |>.setRf) h
theorem State.Canonical.commitRings {o : State} : (o.commitRings s).Canonical := .ite h (h.withDdr.each (fun _ _ h => h.inc.sqc))
theorem State.Canonical.commitHistory {o : State} : (o.commitHistory s).Canonical := (Canonical.ite h.withHist h).withHist
theorem State.Canonical.commitPair : s.commitPair.Canonical := .ite h.train.judgeMatch h.pairDown

theorem State.Canonical.commitFabric {o : State} : (o.commitFabric s).Canonical := by
  unfold State.commitFabric
  exact h.commitIndigo.commitIngress.commitAut.commitSpe.commitLanes.commitPools.commitShort.commitFwd.commitRings.commitHistory.beside
    (commitTags_areas ..) |>.commitPair

/-! ## CommitClu -/

theorem State.Canonical.setPartSt {p st : Nat} : (s.setPartSt p st).Canonical := .ite h (h.beside (setPart_areas ..) |>.sqc)
theorem State.Canonical.disableTask {n : Nat} : (s.disableTask n).Canonical := .ite h ((Canonical.ite h.forceEnd h).unready.updTask)

theorem State.Canonical.commitTask {o : State} {n : Nat} : (o.commitTask s n).Canonical :=
  (Canonical.ite h.forceEnd h).andIf (·.updTask) |>.andThen (fun h => .ite h.disableTask <| .ite h.updTask <| .ite h.unready.readyTail h)

theorem State.Canonical.stopThread {k : Nat} : (s.stopThread k).Canonical := by
  unfold State.stopThread
  split
  · exact h.forceEnd
  · exact h.squash.leaveQueues.abortFilling.loseHolder.updThr.releasePkt

theorem State.Canonical.beginThread {k : Nat} : (s.beginThread k).Canonical := h.updThr.andIf (·.startSup)

theorem State.Canonical.commitThread {o : State} {k : Nat} : (o.commitThread s k).Canonical :=
  .ite (.ite h.stopThread.updThr h) <| .ite h.beginThread <| .ite h.stopThread.beginThread h

theorem State.Canonical.judgeRuns {o : State} : (o.judgeRuns s).Canonical := (h.each fun _ _ h => h.commitTask).each (fun _ _ h => h.commitThread)

theorem State.Canonical.commitSups {o : State} : (o.commitSups s).Canonical := by
  unfold State.commitSups
  split
  · exact h
  · exact h.each fun _ _ h => .ite h h.killThread

theorem State.Canonical.commitChan2 {o : State} {k : Nat} : (o.commitChan2 s k).Canonical := .ite h.abortChan h

theorem State.Canonical.commitLock {o : State} {glob : Bool} {k : Nat} : (o.commitLock s glob k).Canonical :=
  h.each fun _ _ h => h.setLock.finishWait

theorem State.Canonical.commitLocks {o : State} : (o.commitLocks s).Canonical :=
  (h.each fun _ _ h => h.commitLock).each (fun _ _ h => h.commitLock)

theorem State.Canonical.putData {r : Rec} : (s.putData r).Canonical := h.sramWrite

theorem State.Canonical.commitSram {o : State} : (o.commitSram s).Canonical :=
  State.Canonical.each { h with sram := SMap.wfFrom_filter _ _ _ _ h.sram } fun _ _ h => h.putData

theorem State.Canonical.preload : s.preload.Canonical := (h.each fun _ _ h => h.each fun _ _ h => h.pmemSet).each (fun _ _ h => h.putData)

theorem State.Canonical.retireTile {j : Nat} : (s.retireTile j).Canonical := by
  unfold State.retireTile
  dsimp only
  exact .ite h (.sqc (.loadPmem (.setRf (.setRf (.setRf (h.each fun _ _ h => h.setReg))))))

theorem State.Canonical.retireAll {js : List Nat} : (s.retireAll js).1.Canonical := by
  induction js generalizing s with
  | nil => exact h
  | cons j js ih =>
    unfold State.retireAll
    split
    · exact ih h.retireTile
    · exact ih h

theorem State.Canonical.aliasTasks {j : Nat} : (s.aliasTasks j).Canonical := h.each fun _ _ h => h.updTask

theorem State.Canonical.commitClusters {o : State} {js : List Nat} : (o.commitClusters s js).Canonical :=
  ((h.judgeRuns.withTasks.commitSups.each fun _ _ h => h.aliasTasks).each fun _ _ h => h.commitChan2).commitLocks.commitSram

theorem State.Canonical.stopPart {p st : Nat} : (s.stopPart p st).Canonical := h.setPartSt.judgeRuns
theorem State.Canonical.faultPart {p : Nat} : (s.faultPart p).Canonical := .ite h.stopPart.sqc h
theorem State.Canonical.loseTile {j : Nat} : (s.loseTile j).Canonical := .ite h.goSafe h.faultPart

theorem State.Canonical.failTile {j : Nat} : (s.failTile j).Canonical :=
  .ite h (h.setRf.sqc.andThen (fun h => .ite (.ite (h.beside (stageRetire_areas ..)) h) h.loseTile))

/-! ## Commit -/

theorem State.Canonical.syncPart {p : Nat} : (s.syncPart p).Canonical := .ite h.setPartSt h
theorem State.Canonical.syncParts : s.syncParts.Canonical := h.each fun _ _ h => h.syncPart
theorem State.Canonical.setShadow {a1 : ShadowSt} : (s.setShadow a1).Canonical := h.beside (with_cfg ..) |>.syncParts

theorem State.Canonical.overrideUnit {cls idx r : Nat} : (s.overrideUnit cls idx r).Canonical := by
  unfold State.overrideUnit
  split
  · exact .ite (.ite (.ite h.setRf h) h.setUnitReq.setRf) <| .ite h.setRb h
  · exact h.setRb
  · exact h.setStream
  · exact .ite (.ite h.setRf h) h.setUnitReq.setRf
  · exact h.setRb
  · exact h.setPcb
  · exact h

theorem State.Canonical.applyRequest {k : Nat} : (s.applyRequest k).Canonical := by
  unfold State.applyRequest
  split
  · exact h.overrideUnit.setUnitReq
  · exact h

theorem State.Canonical.applyRequests : s.applyRequests.Canonical := h.each fun _ _ h => h.applyRequest
theorem State.Canonical.runPart {p : Nat} : (s.runPart p).Canonical := (Canonical.ite h h.setPartSt).endGrant.setGrant.setUnitReq

theorem State.Canonical.drainPart {p : Nat} : (s.drainPart p).Canonical :=
  .ite h (h.setPartSt.beside (setPart_areas ..) |>.setUnitReq |>.each (fun _ _ h => h.updTask.andIf (·.unready.updTask)))

theorem State.Canonical.commitParts {o : State} : (o.commitParts s).Canonical :=
  (h.each fun _ _ h => h.runPart).each (fun _ _ h => h.drainPart) |>.andIf (·.runPart)

theorem State.Canonical.commitEntries {o : State} : (o.commitEntries s).Canonical :=
  (h.each fun _ _ h => h.clsApply).each (fun _ _ h => h.fwdApply)

theorem State.Canonical.measurePart {p : ImgPart} : (s.measurePart p).Canonical := by
  unfold State.measurePart
  split
  · exact (h.each fun _ _ h => h.setReg).setReg
  · exact (h.each fun _ _ h => h.setReg).setReg
  · exact h.beside (with_cfg ..)

theorem State.Canonical.retainShadow {o : State} : (o.retainShadow s).Canonical :=
  (h.each fun _ _ h => h.measurePart).beside (retainProg_areas ..) |>.beside (with_cfg ..) |>.setShadow

theorem State.Canonical.noteCommit {a : ArmedInstant} : (s.noteCommit a).Canonical :=
  (h.each fun _ _ h => h.setReg).inc.setRf.sqcEach.andIf (·.deliver)

theorem State.Canonical.commitBist {o : State} {j : Nat} : (o.commitBist s j).Canonical := .ite h.failTile h
theorem State.Canonical.applyAll {o : State} {js : List Nat} : (o.applyAll s js).Canonical := h.commitFabric.commitClusters.commitVoter

theorem State.Canonical.commitNow {a : ArmedInstant} : (s.commitNow a).Canonical :=
  (Canonical.ite h.preload h).andIf (·.produced) |>.applyRequests |>.retireAll |>.andIf (·.commitParts) |>.applyAll |>.andThen
  (fun h => .ite h.commitEntries.retainShadow <| .ite h.setShadow h) |>.beside (with_ind_vrm_cfg ..) |>.setRb |>.inc |>.sqc |>.each
  (fun _ _ h => h.loseTile) |>.each (fun _ _ h => h.commitBist) |>.noteCommit

theorem execCommitStrobe_canonical : AnswersCanonical (execCommitStrobe s) := by
  refine done_canonical ?_
  split
  · exact .ite h.commitNow h
  · exact h

/-! ## ConfigCmd -/

theorem State.Canonical.manage {n code : Nat} {allowed : Actor → MgtFrame → State → Bool} {states : List DevState}
    {act : Actor → MgtFrame → State → Option Nat × State} (ha : ∀ a f x, State.Canonical x → (act a f x).2.Canonical) :
    (s.manage n code allowed states act).Canonical := by
  refine h.onCmd fun f x h => .ite h.respond (.ite h.respond ?_)
  have hx := ha (.port n) f x h
  split
  next e => exact (hx.of_snd e).respond
  next e => exact hx.of_snd e

theorem State.Canonical.imgEnd {a : Actor} : (s.imgEnd a).2.Canonical := by
  refine .ite_snd h <| .ite_snd h ?_
  split
  · exact .ite_snd h <| .ite_snd h (h.setRb.beside (with_cfg ..))
  · exact h

theorem State.Canonical.mergeImg {p : ImgPart} : (s.mergeImg p).Canonical := by
  refine .setShadow ?_
  split
  · exact h.beside (with_cfg ..)
  · exact h.setPartSh.beside (with_cfg ..)
  · exact h.beside (with_cfg ..)

theorem State.Canonical.verifyEnd {g : Staging} : (s.verifyEnd g).2.Canonical :=
  h.setReg.beside (with_cfg ..) |>.andThen (fun h => .ite h.mergeImg h.sqc.inc)

theorem execImgVerifyDone_canonical : AnswersCanonical (execImgVerifyDone s) := by
  refine done_canonical ?_
  split
  · exact h.verifyEnd.answer
  · exact h

theorem State.Canonical.afterDiscard : s.afterDiscard.Canonical := h.setShadow

theorem State.Canonical.discardPart {kind p : Nat} : (s.discardPart kind p).Canonical := by
  refine .afterDiscard ?_
  split
  · exact h.beside (with_cfg ..)
  · exact h.setPartSh.beside (with_cfg ..)
  · exact h.beside (with_cfg ..)

theorem State.Canonical.discardAll : s.discardAll.Canonical := h.beside (with_cfg ..) |>.setShadow

theorem execDiscard_canonical {port : Fin 6} {what : Fin 3} : AnswersCanonical (execDiscard port what s) := by
  refine done_canonical <| h.manage (fun _ f _ h => ?_)
  split
  · exact h
  · split
    · exact h
    · dsimp only
      exact h.discardPart

theorem execRemove_canonical {port : Fin 6} : AnswersCanonical (execRemove port s) := by
  refine done_canonical <| h.manage (fun _ f _ h => ?_)
  split
  · exact h
  · dsimp only
    exact h.setPartSh.beside (with_cfg ..) |>.setShadow

theorem State.Canonical.checkBegin {a : Actor} : (s.checkBegin a).2.Canonical := .ite_snd h <| .ite_snd h (h.setRb.beside (with_cfg ..))

theorem State.Canonical.checkEnd : s.checkEnd.2.Canonical := by
  have h : State.Canonical { s with cfg := { s.cfg with checking := none } } := h.beside (with_cfg ..)
  unfold State.checkEnd
  split
  · exact h.setRb
  · dsimp only
    split <;> dsimp only
    · exact h.recordCheck.setShadow
    · exact h.recordCheck.inc

theorem execCheckDone_canonical : AnswersCanonical (execCheckDone s) := by
  refine done_canonical ?_
  split
  · exact h.checkEnd.answer
  · exact h

theorem State.Canonical.armRefused {r : Nat} : (s.armRefused r).Canonical := h.setRf.sqc.andIf (·.setRf.sqc)

theorem State.Canonical.arm {a : Actor} {d : List Word} : (s.arm a d).2.Canonical :=
  .ite_snd h <| .ite_snd h <| .ite_snd h <| .ite_snd h.armRefused (h.setRf.setRf.each (fun _ _ h => h.setReg) |>.beside (with_ind_cfg ..))

theorem State.Canonical.preloadEnd : s.preloadEnd.Canonical := h.preload.beside (with_ind_cfg ..) |>.setShadow |>.setRb |>.sqc
theorem State.Canonical.disarm : s.disarm.Canonical := h.beside (with_ind_cfg ..) |>.andIf (·.setShadow) |>.setRb |>.sqc

theorem State.Canonical.autoArm : s.autoArm.Canonical := by
  unfold State.autoArm
  split
  · exact (h.each fun _ _ h => h.setReg).beside (with_ind_cfg ..) |>.setRf |>.setRb |>.sqc
  · exact h.beside (with_cfg ..) |>.sqc

theorem State.Canonical.bistEnd {j : Nat} {fail : Bool} : (s.bistEnd j fail).Canonical :=
  h.beside (with_cfg ..) |>.setRb |>.andUnless (fun h => .ite h.setRf h.failTile)

theorem State.Canonical.emptyPart {p : Nat} : (s.emptyPart p).Canonical :=
  h.stopPart.each (fun _ _ h => h.updTask.loseHolder) |>.each (fun _ _ h => (Canonical.ite h.abortChan h).setRb) |>.each
  (fun _ _ h => .ite h.setRb h) |>.endGrant |>.syncPart

theorem State.Canonical.zeroPart {p : Nat} : (s.zeroPart p).Canonical :=
  { h with sram := SMap.wfFrom_filter _ _ _ _ h.sram, pmem := SMap.wfFrom_filter _ _ _ _ h.pmem }

theorem State.Canonical.raiseFloor {kind p : Nat} : (s.raiseFloor kind p).Canonical := by
  unfold State.raiseFloor
  split
  · exact (Canonical.ite h.setReg h).setRb
  · exact .ite h.setReg h
  · exact .ite h.setReg h

theorem State.Canonical.reapply {d : ScrubDomain} : (s.reapply d).Canonical := by
  unfold State.reapply
  split
  · exact { h with pmem := SMap.wf_writes _ (SMap.wfFrom_filter _ _ _ _ h.pmem) }
  · exact h.beside (with_ing ..)
  · exact h.each fun _ _ h => .ite (h.beside (setMac_areas ..)) h
  · exact h

theorem State.Canonical.escalate {d : ScrubDomain} : (s.escalate d).Canonical := by
  unfold State.escalate
  split
  · exact h.sqc.andThen (fun h => .ite h.goSafe h.faultPart)
  · exact h.sqc.goSafe

theorem State.Canonical.noteSweep {k : Nat} : (s.noteSweep k).Canonical := .ite (h.beside (with_cfg ..) |>.inc) (h.beside (with_cfg ..))

theorem State.Canonical.scrubBad {d : ScrubDomain} {mismatch retainedBad : Bool} : (s.scrubBad d mismatch retainedBad).Canonical :=
  (Canonical.ite (h.reapply.inc.setReg.sqc.beside (with_cfg ..)) h).andIf (·.escalate)

theorem execUnitMismatch_canonical {cls : Fin 8} {idx : BitVec 13} : AnswersCanonical (execUnitMismatch cls idx s) := by
  unfold execUnitMismatch
  dsimp only
  refine done_canonical ?_
  split
  · exact .ite h.setUnitReq.inc.sqc h
  · exact h

theorem State.Canonical.unitSelect {val : Word} : (s.unitSelect val).Canonical := h.setReg.setReg

/-! ## Sable -/

theorem State.Canonical.sabResult {cmd res : Nat} : (s.sabResult cmd res).Canonical := h.setReg
theorem State.Canonical.sabAnswer {a : Actor} {cmd res : Nat} {pay : List Byte} : (s.sabAnswer a cmd res pay).Canonical := h.sabResult.answer

theorem State.Canonical.sabCmd {n code : Nat} {allowed : Actor → MgtFrame → State → Bool} {states : List DevState}
    {act : Actor → MgtFrame → State → State} (ha : ∀ a f x, State.Canonical x → (act a f x).Canonical) :
    (s.sabCmd n code allowed states act).Canonical :=
  h.onCmd fun f x h => .ite h.sabAnswer (.ite h.sabAnswer (.ite h.sabAnswer (ha _ f x h)))

theorem State.Canonical.applyKeys {bs : List Byte} {es : List (List Byte)} : (s.applyKeys bs es).2.Canonical :=
  .ite_snd h ((h.each fun _ _ h => h.beside (loadKey_areas ..)).setReg)

theorem State.Canonical.endSlotSessions {i : Nat} : (s.endSlotSessions i).Canonical := h.each fun _ _ h => .ite h.endSession h

theorem State.Canonical.applyCreds {bs : List Byte} {es : List (List Byte)} : (s.applyCreds bs es).2.Canonical :=
  (h.each fun _ _ h => h.beside (setCred_areas ..) |>.endSlotSessions).setReg

theorem State.Canonical.applyRoot {bs : List Byte} : (s.applyRoot bs).2.Canonical :=
  .ite_snd (h.beside (with_sab ..) |>.sqc) <| .ite_snd h <| .ite_snd h (h.beside (with_sab ..) |>.sqc |>.andIf (·.disarm))

theorem State.Canonical.pkgTry {a : Actor} {cmd : Nat} {bs : List Byte} : (s.pkgTry a cmd bs).2.Canonical := by
  unfold State.pkgTry
  split
  · exact h
  · exact .ite_snd h.applyRoot <| .ite_snd h <| .ite_snd h.applyKeys h.applyCreds

theorem State.Canonical.pkgEnd {j : PkgJob} : (s.pkgEnd j).Canonical :=
  .ite h ((Canonical.ite (h.beside (with_sab ..) |>.pkgTry |>.inc |>.sqc) (h.beside (with_sab ..) |>.pkgTry |>.inc |>.sqc)).sabAnswer)

theorem execPackageCheckDone_canonical : AnswersCanonical (execPackageCheckDone s) := by
  refine done_canonical ?_
  split
  · exact h.pkgEnd
  · exact h

theorem State.Canonical.pkgBegin {a : Actor} {cmd : Nat} {bs : List Byte} : (s.pkgBegin a cmd bs).Canonical :=
  .ite h.answer (h.beside (with_sab ..) |>.setReg)

theorem State.Canonical.rootOrder {n kind : Nat} : (s.rootOrder n kind).Canonical := by
  unfold State.rootOrder
  split
  · exact .ite h (h.sabCmd (fun _ _ _ h => h.pkgBegin))
  · exact h

theorem State.Canonical.noteExhausted {s0 : State} : (s0.noteExhausted s).Canonical := .ite h.sqc h
theorem State.Canonical.lowBlocks : s.lowBlocks.Canonical := .ite (h.beside (with_sab ..) |>.sqc) h
theorem State.Canonical.takeBlock {b : Nat} : (s.takeBlock b).Canonical := h.beside (with_sab ..) |>.lowBlocks
theorem State.Canonical.skipBlock {b : Nat} : (s.skipBlock b).Canonical := h.beside (with_sab ..) |>.inc |>.sqc

theorem State.Canonical.reserve {bs : List Nat} {r : List Bool} : (Machine.reserve bs r s).Canonical := by
  induction bs generalizing s r with
  | nil => exact h
  | cons b bs ih => exact .ite h.takeBlock (ih h.skipBlock)

theorem State.Canonical.takeIndex {fuse : List Bool} : (s.takeIndex fuse).2.Canonical := by
  unfold State.takeIndex
  dsimp only
  split
  · exact (Canonical.ite h (h.beside (with_sab ..) |>.reserve)).beside (with_sab ..) |>.noteExhausted
  · exact (Canonical.ite h (h.beside (with_sab ..) |>.reserve)).noteExhausted

theorem State.Canonical.abandonBlock : s.abandonBlock.Canonical := h.beside (with_sab ..) |>.andIf (·.sqc) |>.noteExhausted

theorem State.Canonical.signStart {q : AttReq} : (s.signStart q).Canonical := by
  unfold State.signStart
  dsimp only
  refine .ite h.sabAnswer <| .ite h.sabAnswer ?_
  split
  · exact h.takeIndex.sabAnswer
  · exact h.takeIndex.beside (with_sab ..) |>.setReg

theorem State.Canonical.attest {q : AttReq} : (s.attest q).Canonical := .ite h.signStart <| .ite h.sabAnswer (h.beside (with_sab ..))

theorem State.Canonical.signQueue {qs : List AttReq} : (Machine.signQueue qs s).Canonical := by
  induction qs generalizing s with
  | nil => exact h
  | cons q qs ih =>
    have hq : (State.signStart { s with sab := { s.sab with fifo := qs } } q).Canonical := (h.beside (with_sab ..)).signStart
    exact .ite hq (ih hq)

theorem State.Canonical.attestEnd {q : AttReq} {i : Nat} {body : List Byte} : (s.attestEnd q i body).Canonical :=
  h.beside (with_sab ..) |>.inc |>.sabAnswer |>.signQueue

theorem execAttestDone_canonical : AnswersCanonical (execAttestDone s) := by
  refine done_canonical ?_
  split
  · exact h.attestEnd
  · exact h

theorem State.Canonical.abandonJobs : s.abandonJobs.Canonical := by
  unfold State.abandonJobs
  dsimp only
  split <;> [refine .andIf ?_ (fun h => (h.beside (with_cfg ..)).setReg.answer); skip]
  all_goals
    split <;> [refine .sabAnswer (.beside ?_ (with_sab ..)); skip]
    all_goals
      split
      · exact (h.beside (with_sab ..)).sabAnswer
      · exact h

theorem State.Canonical.zeroise : s.zeroise.Canonical :=
  h.abandonJobs.beside (clearKeys_areas ..) |>.beside (with_sab ..) |>.each (fun _ _ h => h.endSession.updMport) |>.andIf (·.disarm) |>.discardAll
  |>.each (fun _ _ h => h.endGrant) |>.abandonBlock |>.inc |>.sqc |>.signQueue |>.andIf (·.goSafe)

theorem State.Canonical.tamperTrip {bit ev : Nat} : (s.tamperTrip bit ev).Canonical := h.beside (with_sab ..) |>.inc |>.sqc |>.zeroise
theorem State.Canonical.blowKill : s.blowKill.Canonical := h.beside (with_sab ..) |>.setRb |>.goSafe

theorem State.Canonical.startGrant {p : Nat} {control jtag session : Bool} {secs : Nat} : (s.startGrant p control jtag session secs).Canonical :=
  h.endGrant.setGrant.inc.sqc

/-! ## Pci -/

theorem State.Canonical.stopLinkDma {l : Nat} : (s.stopLinkDma l).Canonical := h.each fun _ _ h => .ite h.setRf.setRf h
theorem State.Canonical.linkLost {l : Nat} : (s.linkLost l).Canonical := h.stopLinkDma.setRf.endSession
theorem State.Canonical.setD3 {l pf : Nat} {v : Bool} : (s.setD3 l pf v).Canonical := h.beside (with_hst ..) |>.setRb
theorem State.Canonical.dmaDone {d outLen hostq verdict flags : Nat} : (s.dmaDone d outLen hostq verdict flags).Canonical := h.emit.setReg.setDma

theorem State.Canonical.dmaOut {d b n : Nat} {desc : DmaDesc} : (s.dmaOut d b n desc).Canonical :=
  h.beside (copyBody_areas ..) |>.emit |>.setDma |>.dmaDone |>.inc |>.endCopy

theorem execDmaDeliver_canonical {d : Fin 16} {desc : DmaDesc} : AnswersCanonical (execDmaDeliver d desc s) := by
  refine done_canonical ?_
  refine .ite ?_ h
  split
  · split
    · exact h.dmaOut
    · exact h
  · exact h

theorem State.Canonical.dmaIn {d b : Nat} {bytes : List Byte} {ext : Option SecExt} : (s.dmaIn d b bytes ext).Canonical :=
  h.inc.dmaDone.newFrame.beside (fillBuf_areas ..) |>.updFrame |>.frameTail

theorem State.Canonical.dmaBad {d : Nat} : (s.dmaBad d).Canonical := h.inc.dmaDone

theorem execDmaInject_canonical {d : Fin 16} {desc : DmaDesc} {bytes : List Byte} {ext : Option SecExt} : AnswersCanonical
    (execDmaInject d desc bytes ext s) := by
  refine done_canonical ?_
  refine .ite (.ite h.dmaBad ?_) h
  split
  next s2 e =>
    exact h.setDma.andThen (fun h => h.alloc.of_snd e) |>.dmaIn
  next s2 e1 =>
    exact h.setDma.andThen (fun h => h.alloc.of_snd e1) |>.dmaBad

theorem State.Canonical.dmaStart {d : Nat} : (s.dmaStart d).Canonical := .ite h h.setReg.setReg.setRf
theorem State.Canonical.dmaStop {d : Nat} : (s.dmaStop d).Canonical := h.setRf.setRf

/-! ## Ddr -/

theorem State.Canonical.setDdrState {v : Nat} : (s.setDdrState v).Canonical := .ite h h.setRf.sqc
theorem State.Canonical.badLine {line : Nat} : (s.badLine line).Canonical := h.withDdr.inc.setReg.setReg.sqc

theorem execDdrScrubLine_canonical {line : Nat} {err : ScrubError} : AnswersCanonical (execDdrScrubLine line err s) := by
  refine done_canonical ?_
  refine .ite ?_ h
  split
  · exact h
  · exact h.inc
  · exact h.badLine

theorem execPlaneSramScrub_canonical {cs : BitVec 13} {i : BitVec 8} {err : ScrubError} : AnswersCanonical (execPlaneSramScrub cs i err s) := by
  refine done_canonical ?_
  split
  · exact h
  · exact h.withSpe.inc
  · exact h.withSpe.inc.sqc

theorem execClusterSramScrub_canonical {c : Fin 6} {unit : BitVec 18} {err : ScrubError} : AnswersCanonical (execClusterSramScrub c unit err s) := by
  refine done_canonical ?_
  split
  · exact h
  · exact h.inc
  · exact h.withClu

/-! ## Power -/

theorem State.Canonical.mainClear : s.mainClear.Canonical where
  regs := SMap.wfFrom_filter _ _ _ _ h.regs
  sram := rfl
  pmem := rfl
  cells := rfl
  mem := rfl

theorem State.Canonical.showCold : s.showCold.Canonical := h.setReg
theorem State.Canonical.mainReset {cause : Nat} : (s.mainReset cause).Canonical := .ite h.setReg h.mainClear.showCold.setReg.inc

theorem execVauxRise_canonical : AnswersCanonical (execVauxRise s) := by
  have hx : s.auxLost.mainClear.Canonical := (h.beside (auxLost_areas ..)).mainClear
  exact done_canonical (.ite h (State.Canonical.setRb (.showCold (hx.withRegs rfl))))

theorem execSysResetDevice_canonical {who : Accessor} {val : Word} : AnswersCanonical (execSysResetDevice who val s) :=
  done_canonical <| h.writeCmd (.ite h.mainReset h)

theorem State.Canonical.stopCluster {c : Nat} : (s.stopCluster c).Canonical :=
  (h.each fun _ _ h => h.forceEnd).each (fun _ _ h => .ite h h.stopThread.updThr)

theorem State.Canonical.clearMemories {c : Nat} : (s.clearMemories c).Canonical :=
  { h with sram := SMap.wfFrom_filter _ _ _ _ h.sram, pmem := SMap.wf_writes _ (SMap.wfFrom_filter _ _ _ _ h.pmem) }

theorem State.Canonical.clearShared {c : Nat} : (s.clearShared c).Canonical := h.withClu.each (fun _ _ h => h.updTask)
theorem State.Canonical.resetCluster {c : Nat} : (s.resetCluster c).Canonical := h.withClu.stopCluster.clearMemories.clearShared
theorem State.Canonical.showResets : s.showResets.Canonical := h.setReg

theorem execSysResetCluster_canonical {who : Accessor} {val : Word} : AnswersCanonical (execSysResetCluster who val s) :=
  done_canonical <| h.writeCmd (.ite h <| .ite ((h.each fun _ _ h => h.resetCluster).showResets) h.setRf)

theorem State.Canonical.startCluster {c : Nat} : (s.startCluster c).Canonical :=
  h.withClu.each (fun _ _ h => h.updTask) |>.each (fun _ _ h => h.commitTimer) |>.each (fun _ _ h => h.beginThread)

theorem State.Canonical.startTime {held : Bool} : (s.startTime held).Canonical :=
  .ite (h.beside (with_time_ind ..) |>.deliver) (h.beside (with_time ..))

theorem State.Canonical.bootStep {n : Nat} : (s.bootStep n).Canonical := h.setRf

theorem State.Canonical.bootB1 {bootSrc : BitVec 2} {avsLow : Bool} : (s.bootB1 bootSrc avsLow).Canonical :=
  h.setReg.setReg.setReg.setRb.beside (with_pwr ..) |>.andIf (·.sqc)

theorem State.Canonical.enterConfig : s.enterConfig.Canonical := h.goState.bootStep.setRf.andThen (fun h => .ite (h.beside (with_pwr ..)) h.setRf)

theorem State.Canonical.judgeTemp {t : Int} : (s.judgeTemp t).Canonical :=
  (Canonical.ite (h.beside (with_pwr ..)) h).andIf (·.beside (with_pwr ..) |>.sqc) |>.andIf (·.goSafe)

theorem execTempMaxReset_canonical {who : Accessor} : AnswersCanonical (execTempMaxReset who s) := done_canonical <| h.writeCmd h.setReg

/-! ## Boot -/

theorem State.Canonical.updEngine {f : BootEngine → BootEngine} : (s.updEngine f).Canonical := h.beside (updEngine_areas ..)
theorem State.Canonical.enginePhase {p : BootPhase} : (s.enginePhase p).Canonical := h.beside (enginePhase_areas ..)
theorem State.Canonical.engineStop {outcome : Nat} : (s.engineStop outcome).Canonical := h.enginePhase.setRf.setRf.sqc

theorem State.Canonical.copyFails {entry res : Nat} : (s.copyFails entry res).Canonical :=
  h.discardAll.setRf.setRf.sqc.andThen (fun h => .ite h.engineStop h.updEngine.setRb)

theorem State.Canonical.bootDir {bs : List Byte} : (s.bootDir bs).Canonical := .ite h.updEngine h.copyFails

omit h in
theorem State.Canonical.submitted {r : Option Nat × State} (h : r.2.Canonical) : (State.submitted r).Canonical := by
  unfold State.submitted
  split
  · exact h.answer
  · exact h

theorem State.Canonical.bootImage {bs : List Byte} : (s.bootImage bs).Canonical :=
  .ite h.answer (h.beside (imgBegin_areas ..) |>.beside (imgData_areas ..) |>.imgEnd |>.submitted)

theorem State.Canonical.submitEntry {i : Nat} {bs : List Byte} : (s.submitEntry i bs).Canonical := by
  unfold State.submitEntry
  split
  · exact h.enginePhase
  · split
    · exact h.bootImage
    · exact .ite h h.pkgBegin
    · exact .ite h h.pkgBegin
    · exact h.answer

theorem State.Canonical.bootArm : s.bootArm.Canonical := h.arm.andThen (fun h => .ite h.enginePhase h.copyFails)

theorem State.Canonical.bootFinish : s.bootFinish.Canonical := by
  unfold State.bootFinish
  refine .ite h.copyFails <| .ite ?_ h.engineStop
  split
  · exact h.engineStop.askState
  · exact h.engineStop.askState
  · exact h.engineStop

theorem State.Canonical.bootStop : s.bootStop.Canonical := (Canonical.ite h.disarm h).discardAll.enginePhase.updEngine.setRf.setRf

theorem State.Canonical.bootStep1 {bs : List Byte} : (s.bootStep1 bs).Canonical := by
  unfold State.bootStep1
  split
  · exact h
  · exact h.bootDir
  · exact h.enginePhase
  · exact h.copyFails
  · exact h.submitEntry
  · exact h.bootArm
  · exact h.copyFails
  · exact h.checkBegin.submitted
  · exact .ite h h.bootFinish

theorem State.Canonical.bootAbort {val : Word} : (s.bootAbort val).Canonical := .ite h <| .ite h.updEngine h.bootStop

/-! ## Regs -/

theorem State.Canonical.takeEvent {base : Nat → Nat} : (s.takeEvent base).2.Canonical := by
  unfold State.takeEvent
  split
  · exact h.setRb
  · exact h

theorem State.Canonical.takeOf {who : Accessor} {off : Nat} : (s.takeOf who off).2.Canonical := by
  refine .ite_snd (.ite_snd ?_ h) <| .ite_snd (.ite_snd h.mbTakeNow h) <| .ite_snd ?_ h
  · split
    · exact h.takeEvent
    · exact h.fwdPop
    · exact h.disPop
    · exact h.takeEvent
    · exact h
  · split
    · exact h.fltPop
    · exact h.dlPop
    · exact h.takeEvent
    · exact h

theorem State.Canonical.readLow {who : Accessor} {off n : Nat} : (s.readLow who off n).Canonical :=
  h.beside (with_rdShadow ..) |>.andIf (fun h => h.each fun _ _ h => h.setReg)

theorem State.Canonical.readReg {who : Accessor} {off : Nat} : (s.readReg who off).2.Canonical := by
  refine .ite_snd h ?_
  split
  · exact h
  · split
    · exact h
    · exact h.takeOf
    · split
      · exact h.readLow
      · exact h
      · exact h

theorem execWideRegisterLowRead_canonical {who : Accessor} {off : BitVec 21} : AnswersCanonical (execWideRegisterLowRead who off s) := by
  refine done_canonical ?_
  split
  · exact h.readReg.emit
  · exact h

theorem State.Canonical.goWrite {off : Nat} {val : Word} {f : State → State} (hf : (f s).Canonical) : (s.goWrite off val f).Canonical :=
  .ite hf h.setReg

theorem State.Canonical.ochCmd {who : Accessor} {val : Word} : (s.ochCmd who val).Canonical := by
  unfold State.ochCmd
  split
  · exact (execOchQuery_canonical h).after
  · exact (execOchCmdFree_canonical h).after
  · exact (execOchReclaim_canonical h).after
  · exact h.ochResult

theorem State.Canonical.vrmCmd {who : Accessor} {val : Word} : (s.vrmCmd who val).Canonical :=
  .ite ((execVrmReset_canonical h).after) h.setReg.setReg

theorem State.Canonical.sysReset {who : Accessor} {val : Word} : (s.sysReset who val).Canonical :=
  .ite ((execSysResetDevice_canonical h).after) ((execSysResetCluster_canonical h).after)

theorem State.Canonical.dmaCtrl {d : Nat} {val : Word} : (s.dmaCtrl d val).Canonical := (Canonical.ite h.dmaStop h).andIf (·.dmaStart)

theorem State.Canonical.putFabric {who : Accessor} {off : Nat} {val : Word} : OptCanonical (s.putFabric who off val) := by
  unfold State.putFabric
  split
  · exact h.stateReq
  · exact h.sysReset
  · exact h.bootAbort
  · exact (execTempMaxReset_canonical h).after
  · exact .some (.ite h.setRb.restartTime h.setRb)
  · exact h.goWrite h.clsRun
  · exact h.goWrite h.clsRun
  · exact (execStrangerSelect_canonical h).after
  · exact (execStrangerClear_canonical h).after
  · exact (execAutCtxSelect_canonical h).after
  · exact .some (.ite h.resetWindow h)
  · exact (execStreamSelect_canonical h).after
  · exact h.goWrite h.ochCmd
  · exact h.goWrite h.fwdRun
  · exact h.goWrite h.fwdRun
  · exact h.goWrite h.vrmCmd
  · exact (execVrmPcbSelect_canonical h).after
  · exact h.goWrite h.fioRun
  · exact h.unitSelect
  · exact h.goWrite h.recCmd
  · exact h.pmuCtrl
  · exact h.goWrite h.dbgRun
  · exact h.dbgCtxSel
  · exact h.jtagTry
  · exact .ite h.setReg <| .ite h.setReg <| .ite h.dmaCtrl <| .ite (.some h) trivial

theorem State.Canonical.putCluster {who : Accessor} {c off : Nat} {val : Word} : OptCanonical (s.putCluster who c off val) := by
  unfold State.putCluster
  refine .ite ?_ <| .ite ?_ <| .ite h.tcbSelect <| .ite (.some ?_) <| .ite h.bpWrite <| .ite (.ite ?_ <| .ite ?_ (.some h)) trivial
  · exact h.goWrite h.ctlRun
  · exact h.goWrite h.dspRun
  · exact .ite h.chnAbort h
  · exact h.mbWrite h.mbStage
  · exact h.mbWrite h.releaseBy.mbPostNow

theorem State.Canonical.putWide {lo i n : Nat} {val : Word} : (s.putWide lo i n val).Canonical := by
  refine .ite (h.beside (with_wrHold ..)) ?_
  refine .beside ?_ (with_wrHold ..)
  refine .ite h.timeSetWrite ?_
  refine h.setReg.each (fun _ _ h => ?_)
  split
  · exact h.setReg
  · exact h

theorem State.Canonical.putReg {who : Accessor} {off : Nat} {val0 : Word} : (s.putReg who off val0).Canonical := by
  unfold State.putReg
  dsimp only
  split
  next x e =>
    refine OptCanonical.of_some ?_ e
    exact .ite h.putCluster h.putFabric
  · split
    · exact h.putWide
    · exact h.setReg

theorem State.Canonical.sqcWrite {off : Nat} {val : Word} : (s.sqcWrite off val).Canonical := .ite h.setReg h

theorem State.Canonical.writeReg {who : Accessor} {off : Nat} {val : Word} : (s.writeReg who off val).Canonical := by
  unfold State.writeReg
  split
  · exact h
  · refine .ite h.denyWrite ?_
    split
    · exact h
    · exact h
    · exact h.sqcWrite
    · exact .ite h.lockedWrite h.setReg
    · exact h.putReg

/-! ## Mem -/

theorem State.Canonical.countSplit {k o n : Nat} {a : PmuAttr} : (s.countSplit k o n a).Canonical := .ite h.pmuCore.pmuCore h

theorem State.Canonical.countAccess {k a n : Nat} {load : Bool} {ps : List SramPart} : (s.countAccess k a n load ps).Canonical :=
  (Canonical.ite (h.pmuCore.each (fun _ _ h => h.pmuClu)) <| .ite h.pmuCore h).countSplit

theorem State.Canonical.loadSram {k a n : Nat} : LoadCanonical (s.loadSram k a n) := by
  unfold State.loadSram
  split
  · exact trivial
  · exact .ite (h.countAccess.each (fun _ _ h => h.inc)) trivial

theorem State.Canonical.readProv {k : Nat} {allow : Bool} : (s.readProv k allow).Canonical := h.updCtx

theorem State.Canonical.readProvCell {k cs key : Nat} : (s.readProvCell k cs key).Canonical := by
  unfold State.readProvCell
  split
  · exact h.readProv
  · exact h.readProv.andIf (·.updTask)

theorem State.Canonical.loadPlane {k o n : Nat} : LoadCanonical (s.loadPlane k o n) :=
  .ite trivial (.ite (.ite trivial (.word (.ite h.fixCell.readProvCell h.fixCell))) (.ite trivial h))

theorem State.Canonical.readPacket {k f : Nat} : (s.readPacket k f).Canonical := .ite h.readProv h

theorem State.Canonical.loadPacket {k o n : Nat} : LoadCanonical (s.loadPacket k o n) := by
  unfold State.loadPacket
  split
  · exact trivial
  · exact .ite trivial <| .ite trivial h.readPacket.countSplit

theorem State.Canonical.loadMeta {k o n : Nat} : LoadCanonical (s.loadMeta k o n) := by
  unfold State.loadMeta
  split
  · exact trivial
  · exact .ite trivial ((Canonical.ite h.readPacket h).countSplit)

theorem State.Canonical.mailRead {k m r : Nat} : (s.mailRead k m r).2.Canonical := by
  refine .ite_snd h ?_
  split
  · exact h
  · exact .ite_snd h h.mbTakeNow
  · exact h
  · exact h

theorem State.Canonical.lockRead {k o : Nat} : ReadCanonical (s.lockRead k o) :=
  .ite (.ite_snd h.lockTry h) <| .ite (.ite_snd h.lockTry h) <| .ite (.ite h.mailRead trivial) <| .ite h <| .ite h <| .ite h <| .ite
    (.ite h trivial) trivial

theorem State.Canonical.loadAt {t : ThreadId} {a n : Nat} : LoadCanonical (s.loadAt t a n) := by
  unfold State.loadAt
  dsimp only
  cases windowOf (tidNat t) a with
  | sram => exact h.loadSram
  | plane o => exact h.loadPlane
  | packet o => exact h.loadPacket
  | metadata o => exact h.loadMeta
  | lock o =>
    refine .ite ?_ trivial
    split
    next e => exact LoadCanonical.word ((h.lockRead (k := tidNat t) (o := o)).of_some e)
    · exact trivial
  | reg off => exact .ite h.readReg trivial
  | none => exact trivial

theorem State.Canonical.storeSram {k a : Nat} {bs : List Byte} : StoreCanonical (s.storeSram k a bs) := by
  unfold State.storeSram
  split
  · exact trivial
  · exact .ite trivial <| .ite trivial h.countAccess.updThr

theorem State.Canonical.storePacket {k o : Nat} {bs : List Byte} : StoreCanonical (s.storePacket k o bs) := by
  unfold State.storePacket
  split
  · exact trivial
  · exact .ite trivial h.setFrame.countSplit

theorem State.Canonical.storeMeta {k o : Nat} {bs : List Byte} : StoreCanonical (s.storeMeta k o bs) := by
  unfold State.storeMeta
  split
  · exact trivial
  · exact .ite trivial h.setFrame.countSplit

theorem State.Canonical.mailStore {k m r : Nat} {v : Word} : OptCanonical (s.mailStore k m r v) :=
  .ite (.ite (.some (.ite h.mbPostNow h.mbStage)) trivial) (.some h)

theorem State.Canonical.fetchStore {c f part w : Nat} {v : Word} : (s.fetchStore c f part w v).Canonical :=
  .ite ((Canonical.ite h h.setFetchU).fetchStart) <| .ite h h.setFetchU

theorem State.Canonical.lockStore {k o : Nat} {v : Word} : OptCanonical (s.lockStore k o v) :=
  .ite (.ite h.mailStore trivial) <| .ite (.ite h.fetchStore trivial) trivial

theorem State.Canonical.storeAt {t : ThreadId} {a : Nat} {bs : List Byte} : StoreCanonical (s.storeAt t a bs) := by
  have hd : (s.drainStores (tidNat t)).Canonical := h.drainStores
  unfold State.storeAt
  dsimp only
  cases windowOf (tidNat t) a with
  | sram => exact h.storeSram
  | plane o => exact trivial
  | packet o => exact hd.storePacket
  | metadata o => exact hd.storeMeta
  | lock o =>
    refine .ite ?_ trivial
    split
    next e => exact (hd.lockStore (k := tidNat t) (o := o) (v := BitVec.ofNat 32 (leNat bs))).of_some e
    · exact trivial
  | reg off => exact .ite hd.writeReg trivial
  | none => exact trivial

theorem State.Canonical.loadOp {t : ThreadId} {i : Instr} {x : Fin 2} {p : Bool} {d6 : BitVec 6} {size : Nat} {ext : Nat → Acc} :
    AnswersCanonical (s.loadOp t i x p d6 size ext) := by
  refine done_canonical (h.issue fun h => ?_)
  dsimp only
  split
  · exact trivial
  · exact h.setIx
  next e => exact (h.setIx.loadAt.of_bytes e).pendRes

theorem State.Canonical.storeOp {t : ThreadId} {i : Instr} {x : Fin 2} {p : Bool} {d6 : BitVec 6} {size : Nat} :
    AnswersCanonical (s.storeOp t i x p d6 size) := by
  refine done_canonical (h.issue fun h => ?_)
  dsimp only
  split
  · exact trivial
  · exact h.setIx
  next e => exact h.setIx.storeAt.of_done e

theorem State.Canonical.crcBytes {t : ThreadId} {a n : Nat} : LoadCanonical (s.crcBytes t a n) := by
  unfold State.crcBytes
  split
  · exact h.loadAt
  · exact h.loadAt
  · exact h.loadAt
  · exact trivial
  · exact trivial

theorem execCrcm_canonical {t : ThreadId} {p : Fin 4} {x : Fin 2} {n1 : Fin 8} : AnswersCanonical (execCrcm t p x n1 s) := by
  refine done_canonical (h.issue fun h => ?_)
  dsimp only
  split
  · exact trivial
  · split
    · exact trivial
    · exact h
    next e => exact (h.crcBytes.of_bytes e).setIx.pendRes

theorem execVwait_canonical {t : ThreadId} {gs : Fin 8} : AnswersCanonical (execVwait t gs s) := by
  refine done_canonical ?_
  refine h.issue fun h => ?_
  split
  · exact h
  · exact .ite trivial h.setG

theorem execUndefinedEncoding_canonical {t : ThreadId} : AnswersCanonical (execUndefinedEncoding t s) := by
  refine done_canonical ?_
  refine .ite h ?_
  split
  · exact h.faultAt
  · exact .ite h h.countIssue.dropSample.faultAt

/-! ## Mgt -/

theorem State.Canonical.dropPartial {n : Nat} : (s.dropPartial n).Canonical := by
  unfold State.dropPartial
  split
  · exact h.updMport.inc
  · exact h

theorem State.Canonical.mgtUnit {n : Nat} {src : BitVec 48} {unit : List Byte} : (s.mgtUnit n src unit).Canonical := by
  unfold State.mgtUnit
  dsimp only
  split
  · refine h.andIf (·.dropPartial) |>.andThen (fun h => .ite ?_ h.updMport)
    exact h.updMport.mgtArrive
  · refine .andThen ?_ (fun h => .ite h <| .ite h.mgtArrive h.updMport)
    exact h.andIf (·.dropPartial) |>.andThen (fun h => .ite h.dropPartial h.inc)

theorem execMgtFrameTimeout_canonical {port : Fin 6} : AnswersCanonical (execMgtFrameTimeout port s) := by
  refine done_canonical ?_
  split
  · exact .ite h.dropPartial h
  · exact h

theorem execSmbusBlockRead_canonical : AnswersCanonical (execSmbusBlockRead s) := by
  refine done_canonical ?_
  split
  · exact h.updMport.emit
  · exact h.emit

theorem State.Canonical.openAnswer {n : Nat} {f : MgtFrame} {sid : Word} {res : Nat} {pay : List Byte} : (s.openAnswer n f sid res pay).Canonical :=
  h.updMport.mgtSend

theorem execOpenReq_canonical {port : Fin 6} : AnswersCanonical (execOpenReq port s) := by
  refine done_canonical ?_
  refine h.onCmd (fun _ _ h => ?_)
  refine .ite h.updMport.openAnswer ?_
  split
  · exact h.updMport.openAnswer
  · exact h.updMport.beside (freeSid_areas ..) |>.beside (freeNonce_areas ..) |>.updMport |>.openAnswer

theorem State.Canonical.authFail {n : Nat} : (s.authFail n).Canonical := (Canonical.ite h.updMport h.updMport).inc.sqc

theorem State.Canonical.openSession {n : Nat} {o : Opening} {c : Cred} : (s.openSession n o c).Canonical := by
  unfold State.openSession
  exact h.endSession.updMport

theorem execOpenProof_canonical {port : Fin 6} : AnswersCanonical (execOpenProof port s) := by
  refine done_canonical ?_
  refine h.onCmd (fun _ _ h => ?_)
  split
  · exact h.openAnswer
  · exact .ite h.openAnswer (h.updMport.andThen (fun h => .ite h.openSession.openAnswer h.authFail.openAnswer))

theorem execOpeningTimeout_canonical {port : Fin 6} : AnswersCanonical (execOpeningTimeout port s) := by
  refine done_canonical ?_
  split
  · exact .ite h.updMport h
  · exact h

theorem execLockoutExpire_canonical {port : Fin 6} : AnswersCanonical (execLockoutExpire port s) := by
  refine done_canonical ?_
  split
  · exact .ite h.updMport h
  · exact h

theorem execSessionIdleTimeout_canonical {port : Fin 6} : AnswersCanonical (execSessionIdleTimeout port s) := by
  refine done_canonical ?_
  split
  · exact .ite h.endSession h
  · exact h

theorem execRegRead_canonical {port : Fin 6} : AnswersCanonical (execRegRead port s) :=
  done_canonical (h.onCmd fun _ _ h => by
    refine State.Canonical.respond (.foldl_snd h fun _ _ h => ?_)
    exact h.readReg)

/-! ## Strobes -/

theorem State.Canonical.evaluate {n : Nat} : (s.evaluate n).Canonical := h.setAclk.setReg.setReg.latchHeads.wakeEval.strobeVoter

theorem State.Canonical.strikeTarget {target idx : Nat} : (s.strikeTarget target idx).Canonical := by
  unfold State.strikeTarget
  split
  · exact h.pubOnce
  · exact h.instantOut
  · exact h.recTrigger
  · exact h

theorem State.Canonical.fireUnit {u : Nat} {a : ArmedInstant} : (s.fireUnit u a).Canonical :=
  h.setUnit.setRf.sqcEach.andIf (·.deliver) |>.strikeTarget

theorem execGeneralInstantFire_canonical {u : Fin 32} : AnswersCanonical (execGeneralInstantFire u s) := by
  refine done_canonical ?_
  split
  · exact .ite h.fireUnit h
  · exact h

end

/-! ## The tick -/

section
variable {s : State} (h : s.Canonical)
include h

theorem State.Canonical.watchGroup {c g dt : Nat} : (s.watchGroup c g dt).Canonical := by
  refine .ite ?_ (.ite h.setWgroup h)
  split
  · exact h.setWgroup
  · exact .ite h.setWgroup h

theorem State.Canonical.watchGroups {dt : Nat} : (s.watchGroups dt).Canonical := h.each fun _ _ h => .ite h h.watchGroup
theorem State.Canonical.traceReleases : s.traceReleases.Canonical := h.each fun _ _ h => h.trace.updThr

theorem State.Canonical.coreCycles {c k n : Nat} : (s.coreCycles c k n).Canonical :=
  (h.pmuCore.pmuCore.each fun _ _ h => h.pmuCore).each fun _ _ h => h.pmuCore

theorem State.Canonical.clearSlots : s.clearSlots.Canonical := h.each fun _ _ h => h.updThr

theorem State.Canonical.countCycles {n m : Nat} : (s.countCycles n m).Canonical :=
  ((h.each fun _ _ h => h.coreCycles).clearSlots.each fun _ _ h => h.pmuClu).pmuFab.pmuFab

theorem State.Canonical.rotate {n m : Nat} : (s.rotate n m).Canonical := h.setReg.each fun _ _ h => h.setReg.setReg
theorem State.Canonical.judgeTiles : s.judgeTiles.Canonical := h.each fun _ _ h => .ite h.failTile h

theorem State.Canonical.followUnit {p : Nat × Nat} : (s.followUnit p).Canonical := .ite (.ite h.setUnitReq h) <| .ite h h.setUnitReq

theorem State.Canonical.stateTick : s.stateTick.Canonical := by
  unfold State.stateTick
  split
  · exact h.beside (with_pwr ..) |>.setReg |>.goState
  · exact h

theorem State.Canonical.withUp {n : Nat} {i : Indigo} : State.Canonical { s with up := n, ind := i } := h.same rfl
theorem State.Canonical.advanceUp : s.advanceUp.Canonical := h.withUp
theorem State.Canonical.advanceTime : s.advanceTime.Canonical := h.beside (with_time_ind ..)

theorem State.Canonical.ringDrain {r : Ring} (hl : ∀ {x}, State.Canonical x → (r.lost x).Canonical) : (s.ringDrain r).Canonical :=
  .ite h (h.setRingFifo.each fun _ _ h => h.ringTake hl)

/-- What each ring of the device does with a record that it loses keeps the forms. -/
theorem State.Canonical.lost_of_mem_rings {z : State} {r : Ring} (hr : r ∈ z.rings) : (r.lost s).Canonical := by
  simp only [State.rings, List.mem_append, List.mem_map, List.mem_singleton] at hr
  obtain (((⟨_, _, rfl⟩ | ⟨_, _, rfl⟩) | rfl) | ⟨_, _, rfl⟩) | rfl := hr
  · exact h.inc.sqc
  · exact h.inc.sqc
  · exact h.inc.sqc
  · exact h.inc
  · exact h.inc

theorem State.Canonical.drainRings : s.drainRings.Canonical :=
  .ite h (h.each_mem fun _ _ hr h => h.ringDrain (·.lost_of_mem_rings hr))

theorem tick_canonical : (tick s).Canonical := by
  unfold tick
  split
  · exact h.withUp
  · exact ((h.traceReleases.watchGroups.countCycles.rotate.advanceUp.advanceTime.stateTick.train.judgeTiles.judgeChans.each
      fun _ _ h => h.followUnit).drainRings).beside (with_och ..)

end

/-! ## Every step -/

/-- The meaning of every command ends in a next state, and keeps the forms. -/
theorem exec_canonical {s : State} (h : s.Canonical) : ∀ c, AnswersCanonical (exec c s)
  | .registerWrite .. => done_canonical h.writeReg
  | .wideRegisterLowRead .. => execWideRegisterLowRead_canonical h
  | .servoUpdate => done_canonical <| h.judgeSources.andThen (fun h => .ite h.judgeDisagree h.selectSrc.servoWith.judgeDisagree)
  | .timeSetStepRequest .. => done_canonical <| h.writeCmd h.timeSetWrite
  | .timeRestart .. => done_canonical <| h.writeCmd h.restartTime
  | .ptpSyncRx .. =>
    done_canonical <| .ite h (h.beside (forwardSync_areas ..) |>.andThen
    (fun h => .ite (h.beside (ptpHeard_areas ..) |>.andThen (fun h => .ite h.setPort1588 h.ptpMeasure)) <| .ite (h.beside (ptpHeard_areas ..)) h))
  | .ptpFollowUpRx .. => execPtpFollowUpRx_canonical h
  | .ptpAnnounceRx .. => done_canonical <| .ite h ((h.each fun _ _ h => h.beside (sendAnnounce_areas ..)).andIf (·.setPort1588.bmca.judgeSources))
  | .ptpPdelayReqRx .. => done_canonical <| .ite (h.sendPtp.andUnless (·.sendPtp)) h
  | .ptpPdelayRespRx .. => execPtpPdelayRespRx_canonical h
  | .ptpManagementRx .. => done_canonical h.inc
  | .ptpSyncTx .. => done_canonical <| .ite (.ite h.setPort1588.sendPtp h.setPort1588.sendPtp.sendPtp) h
  | .ptpAnnounceTx .. => done_canonical <| .ite (h.setPort1588.beside (sendAnnounce_areas ..)) h
  | .ptpPdelayReqTx .. => done_canonical <| .ite h.setPort1588.sendPtp h
  | .ptpSyncTimeout => done_canonical <| .ite h.losePtp h
  | .ptpAnnounceTimeout => done_canonical <| .ite h ((h.each fun _ _ h => h.setPort1588).bmca.andThen (fun h => .ite h.losePtp h.judgeSources))
  | .tinEdgeCapture .. => done_canonical <| .ite h.setTinSrc.showOffsets.judgeTen.judgeSources h
  | .ppsInputTimeout .. => done_canonical <| .ite h.loseTin h
  | .irigFrameRx .. => done_canonical <| .ite (.ite h.setTinSrc.showOffsets.judgeSources h.irigBad) h
  | .holdoverExpire => done_canonical <| .ite h.expireHold h
  | .holdoverCounterCopy => done_canonical <| .ite (h.beside (with_pwr ..)) h
  | .ppsOutPulse .. => execPpsOutPulse_canonical h
  | .aclkZeroCrossing .. => execAclkZeroCrossing_canonical h
  | .aclkSampleLoss .. => done_canonical <| .ite h.loseRef h
  | .aclkFixedStart .. => done_canonical <| .ite h.startClock h
  | .aclkHoldExpire .. => done_canonical <| .ite h.setAclk.aclkEvent h
  | .evalStrobe .. => done_canonical <| .ite h.evaluate h
  | .generalInstantFire .. => execGeneralInstantFire_canonical h
  | .commitStrobe => execCommitStrobe_canonical h
  | .portLinkUp .. => done_canonical <| .ite h.setRb.setRb.setRb.setRf.setVerify.portEvent h
  | .portLinkDown .. => done_canonical <| .ite h.linkDown h
  | .frameHeadRx .. => done_canonical <| .ite ((Canonical.ite (h.each fun _ _ h => h.frameTail) h).andIf (·.beside (plcaTake_areas ..)) |>.newFrame) h
  | .parseWalk .. => done_canonical h.bytesIn
  | .classify .. => done_canonical <| .ite h.classifyFrame h
  | .frameOversizeCut .. => done_canonical <| .ite (h.updFrame.andIf (·.inc) |>.countRx |>.closeFrame) h
  | .frameTailRx .. => done_canonical <| .ite h.countFec.frameTail h
  | .dupEntryExpire .. => done_canonical h.setGroup
  | .supervisionFrameRx .. => done_canonical <| .ite h <| .ite h.setGroup <| .ite h.setGroup h.inc
  | .supervisionFrameTx .. => done_canonical <| .ite h.setGroup.emit h
  | .nodeForget .. => done_canonical h.setGroup
  | .hsrPassThrough .. => execHsrPassThrough_canonical h
  | .preemptVerify .. => done_canonical <| .ite h.preemptVerify h
  | .plcaBeacon .. => done_canonical <| .ite (.ite (.ite (h.beside (beaconCycle_areas ..) |>.emit) h) (h.beside (beaconCycle_areas ..))) h
  | .t1sPlcaFail .. => done_canonical <| .ite (h.segEvent.beside (with_pkt ..)) h
  | .t1sPlcaRecover .. => done_canonical <| .ite (h.beside (with_pkt ..)) h
  | .t1sCollision .. => done_canonical <| .ite h.inc.inc.segEvent <| .ite h.inc.backOff h
  | .t1sJabberCutoff .. => done_canonical <| .ite h <| .ite (.ite (h.inc.segEvent.andIf (·.frameTail)) h) <| .ite h h.inc.segEvent
  | .clsLookup .. | .clsInsert .. | .clsUpdate .. | .clsDelete .. | .clsRead .. => done_canonical h.clsWrite
  | .strangerSelect .. => done_canonical <| h.writeCmd (h.setReg.each (fun _ _ h => h.setReg))
  | .strangerClear .. => done_canonical <| h.writeCmd (h.beside (with_ing ..) |>.andThen (fun h => .ite (h.beside (with_ing ..)) h.setStranger))
  | .verdict .. => done_canonical <| .ite h.giveVerdict h
  | .prevHoldExpire => done_canonical <| .ite (h.setRb.beside (with_aut ..)) h
  | .resetWindow who val => done_canonical <| h.writeCmd h.resetWindow
  | .autCtxSelect .. => done_canonical <| h.writeCmd (h.setReg.each (fun _ _ h => h.setReg))
  | .cellDue .. => done_canonical h.cellDue
  | .streamSelect .. => done_canonical <| h.writeCmd (h.setReg.each (fun _ _ h => h.setReg))
  | .laneEntry .. => done_canonical <| .ite h.enterLane h
  | .stageDispatch .. => done_canonical h.dispatch
  | .relNext .. | .relExit .. | .relDrop .. | .relRecirc .. => done_canonical <| h.issue (·.relEff)
  | .stageExit .. => done_canonical h.stageExit
  | .stageOverrun .. => done_canonical <| .ite h.releasePkt.updThr.inc.sqc h
  | .laneExit .. => execLaneExit_canonical h
  | .egressStart .. => done_canonical h.egressStart
  | .egressEnd .. => done_canonical h.egressEnd
  | .pauseRx .. => done_canonical <| .ite h h.pauseRx
  | .pauseQuantaExpire .. => done_canonical <| .ite h.unpause h
  | .pauseFlush .. => done_canonical <| .ite h.pauseFlush h
  | .qhwmReset .. => done_canonical <| h.writeCmd h.setReg
  | .ochQuery .. => done_canonical <| h.writeCmd h.ochQueryCmd
  | .ochCmdFree .. => done_canonical <| h.writeCmd h.ochFreeCmd
  | .ochReclaim .. => done_canonical <| h.writeCmd (.ite h.ochResult <| .ite h.ochResult h.reclaim.ochResult)
  | .poolLowReset .. => done_canonical <| h.writeCmd h.setReg
  | .fwdLqPop .. => done_canonical <| h.rttRead h.fwdPop
  | .fwdLookup .. | .fwdInsert .. | .fwdUpdate .. | .fwdDelete .. | .fwdRead .. | .fwdFlush .. | .fwdClear .. => done_canonical h.fwdWrite
  | .agingSweepVisit => done_canonical <| .ite h.sweepVisit h
  | .faultTimeoutKill .. => done_canonical <| .ite h.killThread.inc h
  | .ctlResume .. | .ctlKill .. | .ctlAbortWait .. => done_canonical h.ctlWrite
  | .supervisorInterrupt .. => execSupervisorInterrupt_canonical h
  | .maskMaxExceeded .. => execMaskMaxExceeded_canonical h
  | .deadlockDetect .. => execDeadlockDetect_canonical h
  | .deadlockEscalate .. => execDeadlockEscalate_canonical h
  | .fltPop .. => done_canonical <| h.rttRead h.fltPop
  | .dlPop .. => done_canonical <| h.rttRead h.dlPop
  | .chnAbort .. => done_canonical <| h.writeCmd h.chnAbort
  | .resultWriteback .. => execResultWriteback_canonical h
  | .storeVisible .. => execStoreVisible_canonical h
  | .ld .. | .ldu .. | .add .. | .addu .. | .sub .. | .andDp .. | .orDp .. | .xorDp .. | .mva .. | .mvau .. | .crcb .. | .crcw .. | .ldi ..
  | .addi .. | .andi .. | .shf .. | .ldl .. | .ldlh .. => done_canonical <| h.issue (·.setAcc)
  | .st .. | .sts .. => done_canonical <| h.issue (·.setDp)
  | .mul .. | .mulh .. => done_canonical <| h.issue (·.pendAcc)
  | .ldw .. | .ldh .. | .ldhu .. | .ldb .. | .ldbu .. => h.loadOp
  | .stw .. | .sth .. | .stb .. => h.storeOp
  | .movg .. | .mvg .. | .addg .. | .subg .. | .andg .. | .org .. | .xorg .. | .ceq .. | .cne .. | .clt .. | .cge .. | .cltu .. | .cgeu .. | .par ..
  | .brev .. | .bswp .. | .mfx .. => done_canonical <| h.issue (·.setG)
  | .crcm .. => execCrcm_canonical h
  | .chanOpen .. | .chanOpenw .. => done_canonical <| h.issue (·.openChan)
  | .recv .. | .recvw .. => done_canonical <| h.issue (·.recvChan)
  | .chw .. => done_canonical <| h.issue (fun h => .ite h.setChan h)
  | .send .. => done_canonical <| h.issue (fun h => .ite h.drainStores.sendChan h)
  | .lock .. => execLock_canonical h
  | .unlock .. => execUnlock_canonical h
  | .loop .. | .loopi .. => done_canonical <| h.issue (·.openLoop)
  | .bz .. => done_canonical <| h.issue (fun h => .ite h.branch h)
  | .bnz .. => done_canonical <| h.issue (fun h => .ite h h.branch)
  | .bra .. | .jmpf .. => done_canonical <| h.issue (·.branch)
  | .callf .. => done_canonical <| h.issue (·.setG.updCtx)
  | .nop .. => done_canonical <| h.issue id
  | .synci .. | .ret .. => done_canonical <| h.issue (·.updCtx)
  | .reti .. => done_canonical <| h.issue (·.setIe.updCtx)
  | .ei .. | .di .. => done_canonical <| h.issue (·.setIe)
  | .tend .. => done_canonical <| h.issue (fun h => .ite h.updCtx.endTask trivial)
  | .yield .. => execYield_canonical h
  | .mtx .. | .adx .. => done_canonical <| h.issue (·.setIx)
  | .vwait .. => execVwait_canonical h
  | .vpost .. => done_canonical <| h.issue (·.drainStores.postVote)
  | .pmw .. => done_canonical <| h.issue (fun h => .ite h <| .ite h.inc h.pmemSet.inc)
  | .pmr .. => done_canonical <| h.issue (·.pendRes)
  | .mfs .. => execMfs_canonical h
  | .div .. | .sqrt .. => done_canonical <| h.issue (·.divUnit)
  | .undefinedEncoding .. => execUndefinedEncoding_canonical h
  | .packetByteArrival .. => done_canonical h.bytesIn
  | .cpxCommandStart .. => done_canonical <| .ite h.cpxStart.add.pmuClu h
  | .cpxResultWrite .. => done_canonical <| .ite h.cpxFinish h
  | .cmtr .. | .cmti .. | .cmfr .. | .cmfi .. | .cmov .. | .ccvt .. | .ccvtc .. | .cfix .. | .cadd .. | .csub .. | .cmul .. | .cmac .. | .cmsc ..
  | .ccmul .. | .ccmac .. | .crmul .. | .cscl .. | .cconj .. | .cdft .. | .crot .. | .cmag .. | .carg .. | .cfsq .. | .cdiv .. | .ccmpr ..
  | .ccmpi .. | .ccmpm .. | .cmin .. | .cmax .. => cpxIssue_canonical h
  | .taskAssign .. => execTaskAssign_canonical h
  | .taskPreempt .. => done_canonical <| .ite (h.leaveThread.inc.pmuClu.andUnless (·.readyHead)) h
  | .taskSwitch .. => execTaskSwitch_canonical h
  | .stagingLoad .. => done_canonical <| .ite h.updThr h
  | .dispatcherTimerFire .. => execDispatcherTimerFire_canonical h
  | .budgetOverrun .. => done_canonical <| .ite (h.updTask.inc.trace.sqc.andIf (·.forceEnd)) h
  | .activate .. | .cancel .. => done_canonical <| h.writeCmd h.dspRun
  | .tcbSelect .. => done_canonical <| h.writeCmd h.tcbSelect
  | .lockTryRead .. => done_canonical <| .ite h h.lockTry.emit
  | .mbDataWrite .. => done_canonical <| h.mbWrite h.mbStage
  | .mbPost .. => done_canonical <| h.mbWrite h.releaseBy.mbPostNow
  | .mbTake .. => done_canonical <| .ite (.ite h.emit h.mbTakeNow.emit) h.emit
  | .pairVoteRx .. => done_canonical <| .ite h.cellBad <| .ite (h.beside (with_pai ..) |>.inc |>.andUnless (·.decide.publishChanges)) h
  | .vrmReset .. => done_canonical <| h.writeCmd (.ite h.setReg.setReg <| .ite h.untrip.publishChanges.setReg.setReg h.setReg.setReg)
  | .vrmDisPop .. => done_canonical <| h.rttRead h.disPop
  | .vrmPcbSelect .. => done_canonical <| h.writeCmd (h.setReg.each (fun _ _ h => h.setReg))
  | .pcbRetransmit .. => done_canonical <| .ite h.updPcb.publish h
  | .outputRelease .. => done_canonical <| .ite h.driveOut h
  | .armHoldExpire .. => done_canonical <| .ite h.updFout h
  | .fioArm .. | .fioFire .. | .fioRelease .. => done_canonical <| h.writeCmd h.fioRun
  | .fioArmExpire .. => execFioArmExpire_canonical h
  | .inputAccept .. => done_canonical <| .ite h.acceptInput h
  | .chatterEnd .. => done_canonical <| .ite (h.beside (updFin_areas ..) |>.soe |>.andUnless (·.recInput)) h
  | .imgBegin .. => done_canonical <| h.manage (fun _ _ _ h => .ite_snd h <| .ite_snd h (h.beside (imgBegin_areas ..)))
  | .imgData .. => done_canonical <| h.manage (fun _ _ _ h => h.beside (imgData_areas ..))
  | .imgEnd .. => done_canonical <| h.manage (fun _ _ _ h => h.imgEnd)
  | .imgVerifyDone => execImgVerifyDone_canonical h
  | .discard .. => execDiscard_canonical h
  | .remove .. => execRemove_canonical h
  | .check .. => done_canonical <| h.manage (fun _ _ _ h => .ite_snd h h.checkBegin)
  | .checkDone => execCheckDone_canonical h
  | .arm .. => done_canonical <| h.manage (fun _ _ _ h => .ite_snd h h.arm)
  | .preloadDone => done_canonical <| .ite h.preloadEnd h
  | .disarm .. => done_canonical <| h.manage (fun _ _ _ h => .ite_snd h h.disarm)
  | .request .. => done_canonical <| h.manage (fun _ _ _ h => .ite_snd h h.setUnitReq)
  | .retire .. => done_canonical <| h.manage (fun _ _ _ h => .ite_snd (h.beside (stageRetire_areas ..)) h)
  | .tileBist .. => done_canonical <| h.manage (fun _ _ _ h => .ite_snd h <| .ite_snd (h.beside (with_cfg ..)) h)
  | .bistDone .. => done_canonical <| .ite h.bistEnd h
  | .spareBistPeriod => done_canonical <| .ite (h.beside (with_cfg ..)) h
  | .quarantine .. => done_canonical <| h.manage (fun _ _ _ h => .ite_snd h h.stopPart.sqc)
  | .clear .. => done_canonical <| h.manage (fun _ _ _ h => .ite_snd h h.zeroPart.emptyPart)
  | .raiseFloor .. => done_canonical <| h.manage (fun _ _ _ h => .ite_snd h h.raiseFloor)
  | .drainTimeout .. => done_canonical <| .ite (h.each fun _ _ h => h.forceEnd.inc.sqc) h
  | .drainComplete .. => done_canonical <| .ite h.emptyPart h
  | .scrubDomainCheck .. => done_canonical <| h.noteSweep.andIf (·.scrubBad)
  | .autoCommitArm => done_canonical <| .ite h.autoArm h
  | .unitMismatch .. => execUnitMismatch_canonical h
  | .unitSelect .. => done_canonical <| h.writeCmd h.unitSelect
  | .keyLoad .. | .credLoad .. => done_canonical <| h.sabCmd (fun _ _ _ h => h.pkgBegin)
  | .rootAdd .. | .rootRevoke .. => done_canonical h.rootOrder
  | .packageCheckDone => execPackageCheckDone_canonical h
  | .attest .. => done_canonical <| h.sabCmd (fun _ _ _ h => h.attest)
  | .attestDone => execAttestDone_canonical h
  | .zeroise .. => done_canonical <| h.sabCmd (fun _ _ _ h => h.sabAnswer.zeroise)
  | .tamperInput .. => done_canonical <| .ite (h.tamperTrip.andIf (·.blowKill)) h
  | .monitorTrip .. => done_canonical <| .ite h.tamperTrip h
  | .debugGrant .. => done_canonical <| h.sabCmd (fun _ _ _ h => .ite h.sabAnswer <| .ite h.sabAnswer h.startGrant.sabAnswer)
  | .debugRevoke .. => done_canonical <| h.sabCmd (fun _ _ _ h => h.endGrant.sabAnswer)
  | .debugGrantExpire .. => done_canonical <| .ite h.endGrant h
  | .perstDeassert .. => done_canonical <| .ite h.setRb.setRb h
  | .pcieLinkChange .. => done_canonical <| .ite h (h.setReg.andUnless (·.sqc) |>.andUnless (·.linkLost))
  | .pcieHotReset .. => done_canonical h.linkLost
  | .flrPf0 .. => done_canonical <| h.endSession.each (fun _ _ h => h.setReg)
  | .flrPf1 .. => done_canonical <| h.stopLinkDma.beside (with_hst ..)
  | .d3hotEntry .. => done_canonical <| h.setD3.andIf (·.stopLinkDma)
  | .dmaDeliver .. => execDmaDeliver_canonical h
  | .dmaInject .. => execDmaInject_canonical h
  | .dmaSignal .. => done_canonical <| .ite h.setDma.sendMsix h
  | .dmaFault .. => done_canonical <| .ite h.setRf.setRf.inc.sqc h
  | .dmaStart .. => done_canonical <| h.writeCmd h.dmaStart
  | .dmaStop .. => done_canonical <| h.writeCmd h.dmaStop
  | .bar0DecodeMiss .. => done_canonical <| .ite h.inc.setReg.sqc h
  | .pciBankWrite .. => done_canonical <| h.writeCmd h.setReg
  | .bar2WriteDenied .. => done_canonical <| .ite h.inc h
  | .mgtDoorbell .. => done_canonical <| .ite h <| .ite h.setRb h.setReg.mgtArrive
  | .mgtUnitRx .. => done_canonical <| .ite h <| .ite h.updMport.inc h.mgtUnit
  | .mgtFrameTimeout .. => execMgtFrameTimeout_canonical h
  | .openReq .. => execOpenReq_canonical h
  | .openProof .. => execOpenProof_canonical h
  | .close .. => done_canonical <| h.onCmd (fun _ _ h => h.respond.endSession)
  | .ping .. => done_canonical <| h.onCmd (fun _ _ h => h.respond)
  | .openingTimeout .. => execOpeningTimeout_canonical h
  | .sessionIdleTimeout .. => execSessionIdleTimeout_canonical h
  | .lockoutExpire .. => execLockoutExpire_canonical h
  | .regRead .. => execRegRead_canonical h
  | .regWrite .. => done_canonical (h.onCmd fun _ _ h => .respond (.foldl_snd h fun _ _ h => h.writeReg))
  | .sqcClear .. => done_canonical <| h.onCmd (fun _ _ h => h.readReg.andIf (·.writeReg) |>.respond)
  | .cluEvtTake .. | .evtAlarmTake .. | .paiPeerEvtTake .. => done_canonical <| h.rttRead h.takeEvent
  | .umberLaneLock .. => done_canonical h.laneLock
  | .umberLaneDrop .. => done_canonical h.laneDrop
  | .helloTx => done_canonical <| .ite ((Canonical.ite h.emit h).andIf (·.emit) |>.beside (with_pai ..) |>.agree) h
  | .helloRx .. => done_canonical <| .ite h.cellBad <| .ite ((h.each fun _ _ h => h.setReg).setRf.beside (with_pai ..) |>.agree) h
  | .heartbeatTx => done_canonical <| .ite (h.emit.beside (with_pai ..)) h
  | .heartbeatRx .. =>
    done_canonical <| .ite h.cellBad <| .ite (h.beside (with_pai ..) |>.setRf |>.measurePair |>.judgeAlign |>.judgeMatch |>.judgeChans) h
  | .heartbeatMiss => done_canonical <| .ite (h.beside (with_pai ..) |>.inc |>.andIf (·.pairDown)) h
  | .pairMbxRx .. => done_canonical <| .ite h.cellBad <| .ite (h.beside (with_pai ..) |>.andIf (·.inc.mbArrive)) h
  | .pairEvtRx .. => done_canonical <| .ite h.cellBad <| .ite h.setRb.sqc h
  | .pairMgtRx .. => done_canonical <| .ite h.inc <| .ite h.mgtUnit h
  | .pairFrameRx .. => done_canonical <| .ite h.cellBad <| .ite (h.emit.andThen (fun h => .ite h.inc h.newFrame.frameTail)) h
  | .creditReturnRx .. => done_canonical <| .ite h.cellBad <| .ite (h.beside (with_pai ..)) h
  | .creditTimeout .. => done_canonical <| .ite h.flushClass h
  | .ddrRefresh => done_canonical <| .ite (h.inc.pmuFab.withDdr.andUnless (·.setRb.sqc)) h
  | .ddrTempRead .. => done_canonical <| .ite h.withDdr h
  | .ddrScrubLine .. => execDdrScrubLine_canonical h
  | .ddrTrainingDone .. => done_canonical <| .ite h.setDdrState h
  | .histFetchStart .. => done_canonical <| .ite ((Canonical.ite h h.setFetchU).fetchStart) h
  | .histFetchDone .. => done_canonical <| .ite (.ite h.fetchErr.setFetchU <| .ite h.fetchErr.setFetchU h.fetchCopy.setFetchU) h
  | .recCmdTrigger .. => done_canonical <| h.writeCmd h.recCmd
  | .recordComplete .. => execRecordComplete_canonical h
  | .pmuFreeze .. | .pmuUnfreeze .. | .pmuClear .. => done_canonical <| h.writeCmd h.pmuCtrl
  | .dbgHalt .. | .dbgResume .. | .dbgStep .. | .dbgWriteCtx .. | .dbgMemRd .. | .dbgMemWr .. => done_canonical h.dbgWrite
  | .dbgCtxSelect .. => done_canonical <| h.writeCmd h.dbgCtxSel
  | .breakpointHit .. => execBreakpointHit_canonical h
  | .jtagProof .. => done_canonical <| h.writeCmd h.jtagTry
  | .jtagLockoutExpire => execJtagLockoutExpire_canonical h
  | .jtagIdcode => done_canonical h.emit
  | .jtagBypass => done_canonical h.jtagPass
  | .jtagSamplePreload .. => done_canonical <| h.beside (freeW_areas ..) |>.beside (with_dbg ..) |>.emit
  | .jtagExtest .. => done_canonical <| .ite (h.beside (freeW_areas ..) |>.beside (with_dbg ..) |>.emit) h.jtagPass
  | .jtagClamp | .jtagHighz => done_canonical <| .ite (h.beside (with_dbg ..) |>.emit) h.jtagPass
  | .jtagDbgacc .. => done_canonical <| h.emit.andThen (fun h => .ite h.writeReg (h.readReg.beside (with_dbg ..)))
  | .tapReset => done_canonical <| h.unbindJtag.beside (with_dbg ..)
  | .vauxRise => execVauxRise_canonical h
  | .vauxFall =>
    done_canonical <| .ite ((Canonical.ite h.abandonBlock <| .ite h.tamperTrip.mainReset h.zeroise.mainReset).beside (auxLost_areas ..) |>.beside
    (with_pwr ..)) h
  | .mainReset => done_canonical h.mainReset
  | .pwrGoodLoss => done_canonical <| h.mainReset.beside (with_pwr ..)
  | .railFault .. => done_canonical <| .ite h.mainReset h
  | .sysResetDevice .. => done_canonical <| h.writeCmd (.ite h.mainReset h)
  | .sysResetCluster .. => done_canonical <| h.writeCmd (.ite h <| .ite ((h.each fun _ _ h => h.resetCluster).showResets) h.setRf)
  | .clusterResetDone .. => done_canonical <| .ite h.startCluster.showResets.sqc h
  | .resetRelease .. => done_canonical <| .ite h.bootB1.startTime.setDdrState.bootStep h
  | .configEntry .. => done_canonical <| .ite ((h.each fun _ _ h => h.setRb).andThen (fun h => .ite h.bootStep.goSafe h.enterConfig)) h
  | .bootEngineRun .. => done_canonical <| .ite h <| .ite h.bootStop h.bootStep1
  | .bootAbort .. => done_canonical <| h.writeCmd h.bootAbort
  | .sysStateReq .. => done_canonical <| h.writeCmd h.stateReq
  | .avsUpdate .. =>
    done_canonical <| .ite (.ite (h.emit.beside (with_pwr ..) |>.setRf |>.setRf) <| .ite (h.emit.beside (with_pwr ..))
    (h.emit.beside (with_pwr ..) |>.setRb |>.sqc)) h
  | .temperatureSample .. => done_canonical <| .ite ((h.each fun _ _ h => h.setReg).setReg.andIf (·.setReg) |>.judgeTemp) h
  | .tempMaxReset .. => done_canonical <| h.writeCmd h.setReg
  | .irigFrameMissing .. => done_canonical <| .ite h.irigBad h
  | .planeSramScrub .. => execPlaneSramScrub_canonical h
  | .clusterSramScrub .. => execClusterSramScrub_canonical h
  | .timeBasePllLockLoss | .timeBasePllRelock => ⟨_, rfl, h.same rfl⟩
  | .pauseIgnoreEnd .. => done_canonical <| .ite h.setPause h
  | .aerUncorrectableError .. => done_canonical h.inc.sqc
  | .bar2ReadDenied .. => done_canonical <| .ite h.inc h
  | .msixVectorUnmask .. => done_canonical <| h.setRb.setMsix.andIf (·.sendMsix)
  | .returnToD0 .. => done_canonical h.setD3
  | .smbusBlockRead => execSmbusBlockRead_canonical h

/-- Settles O53: each command's meaning is followed operation by operation (exec_canonical), and so is the tick. -/
theorem everyStepKeepsTheCanonicalForms : Obligations.EveryStepKeepsTheCanonicalForms := by
  intro s hm hr
  have h : s.Canonical := s.canonical_iff.mpr ⟨hm, hr⟩
  suffices hs : AnswersCanonical (step s) by
    obtain ⟨u, e, hu⟩ := hs
    exact ⟨u, e, u.canonical_iff.mp hu⟩
  unfold step
  split
  · exact ⟨_, rfl, tick_canonical h⟩
  · refine exec_canonical ?_ _
    exact h.same rfl

end Sys2Proof.Machine
end

/-! SUPPORT. O19: the fields of a fault record, read back out of the sum that packs them, and a received message's words on a direct page. -/
section
namespace Sys2Proof.Machine
open State

/-! ## Fields of a packed word -/

theorem fld_ofNat_of_lt {n w : Nat} (hi lo : Nat) (h : w < 2 ^ n) : fld (BitVec.ofNat n w) hi lo = w / 2 ^ lo % 2 ^ (hi + 1 - lo) := by
  rw [fld, nfld, BitVec.toNat_ofNat, Nat.mod_eq_of_lt h]

theorem State.thrPart_lt (s : State) (k : Nat) : s.thrPart k < 16 := Nat.mod_lt _ (by decide)

/-- Word 0 of a fault record as a sum: code, partition, index in the cluster, IMPRECISE, BOUND and task. -/
def packedCause (code part idx : Nat) (imp bound : Bool) (task : Nat) : Nat :=
  code * 268435456 + part * 16777216 + idx * 131072 + (if imp then 65536 else 0) + (if bound then 32768 else 0) + task

theorem packedCause_fields {code part idx task : Nat} (imp bound : Bool) (hc : code < 16) (hp : part < 16) (hi : idx < 128) (ht : task < 1024) :
    let w := BitVec.ofNat 32 (packedCause code part idx imp bound task)
    fld w 31 28 = code ∧ fld w 27 24 = part ∧ fld w 23 17 = idx ∧ tbit w 16 = imp ∧ tbit w 15 = bound ∧ fld w 9 0 = task := by
  have hlt : packedCause code part idx imp bound task < 2 ^ 32 := by
    unfold packedCause
    split <;> split <;> omega
  simp only [tbit, fld_ofNat_of_lt _ _ hlt]
  cases imp <;> cases bound <;> simp [packedCause] <;> omega

theorem fld_instrWord_pc (iw : PWord) (pc : BitVec 16) :
    let w := BitVec.ofNat 32 (iw.toNat * 65536 + pc.toNat)
    fld w 29 16 = iw.toNat ∧ fld w 15 0 = pc.toNat := by
  have hiw := iw.isLt
  have hpc := pc.isLt
  have hlt : iw.toNat * 65536 + pc.toNat < 2 ^ 32 := by omega
  simp only [fld_ofNat_of_lt _ _ hlt]
  omega

/-! ## The words of a message on a direct page -/

theorem dpWrite_cons (dp : SMap Word) (p : Nat × Word) (ws : List (Nat × Word)) : dpWrite dp (p :: ws) = dpWrite (dp.sd 0 p.1 p.2) ws := rfl

theorem gd_dpWrite_of_not_mem (ws : List (Nat × Word)) (dp : SMap Word) (a : Nat) (h : ∀ p ∈ ws, a ≠ p.1) : (dpWrite dp ws).gd 0 a = dp.gd 0 a := by
  induction ws generalizing dp with
  | nil => rfl
  | cons p ws ih =>
    rw [dpWrite_cons, ih _ fun q hq => h q (List.mem_cons_of_mem _ hq)]
    exact SMap.gd_sd_ne _ _ _ _ _ (h p List.mem_cons_self)

/-- Where the addresses are distinct, each word stands at its address. -/
theorem gd_dpWrite_of_mem {ws : List (Nat × Word)} (hd : (ws.map Prod.fst).Nodup) (dp : SMap Word) {p : Nat × Word} (hp : p ∈ ws) :
    (dpWrite dp ws).gd 0 p.1 = p.2 := by
  induction ws generalizing dp with
  | nil => cases hp
  | cons q ws ih =>
    obtain ⟨hq, hd⟩ := List.nodup_cons.mp hd
    rw [dpWrite_cons]
    rcases List.mem_cons.mp hp with rfl | hp
    · rw [gd_dpWrite_of_not_mem _ _ _ fun r hr heq => hq (List.mem_map.mpr ⟨r, hr, heq.symm⟩)]
      exact SMap.gd_sd_same _ _ _ _
    · exact ih hd _ hp

theorem recvWords_addresses (ch : Chan) : (recvWords ch).map Prod.fst = [0x1F8, 0x1F9, 0x1FA, 0x1FB, 0x1FC] := rfl

theorem recvWords_nodup (ch : Chan) : ((recvWords ch).map Prod.fst).Nodup := by
  rw [recvWords_addresses]
  decide

theorem word_mem_recvWords (ch : Chan) {i : Nat} (hi : i < 4) : (0x1F8 + i, ch.words.toList.getD i 0) ∈ recvWords ch :=
  List.mem_append_left _ (List.mem_map_of_mem (f := fun i => (0x1F8 + i, ch.words.toList.getD i 0)) (List.mem_range.mpr hi))

theorem length_mem_recvWords (ch : Chan) : (0x1FC, BitVec.ofNat 32 (ch.len + 1)) ∈ recvWords ch := List.mem_append_right _ List.mem_cons_self

theorem ne_of_mem_recvWords {ch : Chan} {a : Nat} (ha : a < 0x1F8 ∨ 0x1FC < a) {p : Nat × Word} (hp : p ∈ recvWords ch) : a ≠ p.1 := by
  have haddr : p.1 ∈ (recvWords ch).map Prod.fst := List.mem_map_of_mem hp
  simp only [recvWords_addresses, List.mem_cons, List.not_mem_nil, or_false] at haddr
  omega

/-- Settles O19: a word that packs fields side by side gives each back by division, and a message's words have distinct addresses. -/
theorem recordLayouts : Obligations.RecordLayouts := by
  unfold Obligations.RecordLayouts
  refine ⟨fun s k code imp addr pc iw hcode htask => ?_, fun ch dp => ⟨fun i hi => ?_, ?_, fun a ha => ?_, fun _ => ⟨rfl, rfl, rfl⟩⟩⟩
  · obtain ⟨h1, h2, h3, h4, h5, h6⟩ := packedCause_fields imp (s.thrBound k) hcode (s.thrPart_lt k) (Nat.mod_lt k (by decide)) htask
    obtain ⟨h7, h8⟩ := fld_instrWord_pc iw pc
    refine ⟨h1, h2, h3, h4, h5, h6, h7, h8, rfl, ?_⟩
    have hns : s.time % secU / nsU < 2 ^ 32 := by
      have := Nat.mod_lt s.time (show 0 < secU by decide)
      simp only [secU, nsU] at this ⊢
      omega
    exact Nat.mod_eq_of_lt hns
  · exact gd_dpWrite_of_mem (recvWords_nodup ch) dp (word_mem_recvWords ch hi)
  · exact gd_dpWrite_of_mem (recvWords_nodup ch) dp (length_mem_recvWords ch)
  · exact gd_dpWrite_of_not_mem _ dp a fun p hp => ne_of_mem_recvWords ha hp

end Sys2Proof.Machine
end

/-! SUPPORT. O57: what a fault leaves of the state, said once for every instruction that faults (R205, R206). -/
section
namespace Sys2Proof.Machine
open State

/-! ## What the operations of a fault leave of the thread that faults -/

/-- Whether thread k is as it was but for its place in the machine, with the cluster's memories and fault queues as they were. -/
structure State.SparesThread (s u : State) (k : Nat) : Prop where
  st : (u.thr k).st = (s.thr k).st
  ctx : (u.thr k).ctx = (s.thr k).ctx
  wait : (u.thr k).wait = (s.thr k).wait
  sram : u.clu.sram = s.clu.sram
  pmem : u.clu.pmem = s.clu.pmem
  fltq : u.clu.fltq = s.clu.fltq

namespace State.SparesThread

variable {s t u : State} {k : Nat}

theorem refl (s : State) (k : Nat) : s.SparesThread s k := ⟨rfl, rfl, rfl, rfl, rfl, rfl⟩

theorem trans (h : s.SparesThread t k) (h2 : t.SparesThread u k) : s.SparesThread u k :=
  ⟨h2.st.trans h.st, h2.ctx.trans h.ctx, h2.wait.trans h.wait, h2.sram.trans h.sram, h2.pmem.trans h.pmem, h2.fltq.trans h.fltq⟩

theorem ite {c : Prop} [Decidable c] (h : s.SparesThread t k) (h2 : s.SparesThread u k) : s.SparesThread (if c then t else u) k := by
  split <;> assumption

/-- A further operation that needs the thread not to wait. -/
theorem andThen (h : s.SparesThread t k) (hk : (s.thr k).wait = none) (h2 : (t.thr k).wait = none → t.SparesThread u k) : s.SparesThread u k :=
  h.trans (h2 (h.wait.trans hk))

/-- What happens outside the clusters spares every thread. -/
theorem of_clu (h : u.clu = s.clu) : s.SparesThread u k := by
  have ht : u.thr k = s.thr k := by unfold State.thr; rw [h]
  exact ⟨by rw [ht], by rw [ht], by rw [ht], by rw [h], by rw [h], by rw [h]⟩

theorem of_areas {l : List Area} (h : s.OnlyChanges u l) (hl : Area.clu ∉ l := by decide) : s.SparesThread u k := of_clu (h.2 .clu hl)

/-- The halt of another thread spares this one. -/
theorem of_halts {j : Nat} (h : s.Halts u j) (hj : k ≠ j) : s.SparesThread u k := by
  have ht := h.other k hj
  have hs := h.same
  exact ⟨by rw [ht], by rw [ht], by rw [ht], by rw [hs], by rw [hs], by rw [hs]⟩

/-- An operation on each item of a list, where what it needs of the thread holds from the start. -/
theorem each {α : Type} {xs : List α} {f : State → α → State} (hw : (s.thr k).wait = none)
    (hf : ∀ (x : State) (a : α), (x.thr k).wait = none → x.SparesThread (f x a) k) : s.SparesThread (Machine.each xs f s) k :=
  each_inv xs f (fun x => s.SparesThread x k) (fun x a hx => hx.trans (hf x a (hx.wait.trans hw))) s (refl s k)

end State.SparesThread

theorem State.setChan_spares (s : State) (k j : Nat) (c : Chan) : s.SparesThread (s.setChan j c) k := ⟨rfl, rfl, rfl, rfl, rfl, rfl⟩

theorem State.breakGroup_spares (s : State) (a : Agent) (k : Nat) : s.SparesThread (s.breakGroup a) k := by
  unfold State.breakGroup
  split
  · exact .ite (.refl ..) ⟨rfl, rfl, rfl, rfl, rfl, rfl⟩
  · exact .refl ..

theorem State.updTask_spares (s : State) (j k : Nat) (f : Task → Task) : s.SparesThread (s.updTask j f) k := ⟨rfl, rfl, rfl, rfl, rfl, rfl⟩
theorem State.readyTail_spares (s : State) (j k : Nat) : s.SparesThread (s.readyTail j) k := ⟨rfl, rfl, rfl, rfl, rfl, rfl⟩

theorem State.leaveQueues_spares (s : State) (a : Agent) (k : Nat) : s.SparesThread (s.leaveQueues a) k := ⟨rfl, rfl, rfl, rfl, rfl, rfl⟩

/-- The end of a wait spares a thread that does not wait: it acts on a thread that does, or on a task without a thread. -/
theorem State.finishWait_spares {s : State} {k : Nat} (hk : (s.thr k).wait = none) (a : Agent) (status : Nat) (r : Received) :
    s.SparesThread (s.finishWait a status r) k := by
  unfold State.finishWait
  split
  · next _ _ j _ =>
    split
    · next w hw =>
      have hkj : k ≠ j := by
        rintro rfl
        rw [hk] at hw
        cases hw
      refine .ite (.trans ?_ (.of_halts (State.haltThread_spec ..).1 hkj)) ?_ <;>
        exact (State.breakGroup_spares ..).trans (.trans (.of_halts (State.updThr_halts ..) hkj) (.of_areas (State.retireSample_areas ..)))
    · exact .refl ..
  · split
    · exact (((State.breakGroup_spares ..).trans (State.updTask_spares ..)).trans (State.readyTail_spares ..)).trans
        (.of_areas (State.retireSample_areas ..))
    · exact .refl ..
  · exact .refl ..

theorem State.serveTx_spares {s : State} {k : Nat} (hk : (s.thr k).wait = none) (j : Nat) : s.SparesThread (s.serveTx j) k := by
  unfold State.serveTx
  split
  · split
    · exact (s.setChan_spares ..).andThen hk fun hk => State.finishWait_spares hk ..
    · exact .refl ..
  · exact .refl ..

theorem State.serveChan_spares {s : State} {k : Nat} (hk : (s.thr k).wait = none) (j : Nat) : s.SparesThread (s.serveChan j) k := by
  unfold State.serveChan
  split
  · split
    · exact ((s.setChan_spares ..).andThen hk fun hk => State.finishWait_spares hk ..).andThen hk fun hk => State.serveTx_spares hk j
    · exact .refl ..
  · exact State.serveTx_spares hk j

theorem State.abortChan_spares {s : State} {k : Nat} (hk : (s.thr k).wait = none) (j : Nat) : s.SparesThread (s.abortChan j) k :=
  ((s.setChan_spares ..).trans (.of_areas (l := [.regs, .out, .hst]) ((inc_areas ..).within |>.andThen (sqc_areas ..)))).andThen hk
    fun hk => State.serveChan_spares hk j

theorem State.abortFilling_spares {s : State} {k : Nat} (hk : (s.thr k).wait = none) (a : Agent) : s.SparesThread (s.abortFilling a) k :=
  .each hk fun _ _ hx => State.abortChan_spares hx _

theorem State.releasePkt_spares (s : State) (k disp lane stage : Nat) : s.SparesThread (s.releasePkt k disp lane stage) k := by
  unfold State.releasePkt
  split
  · exact ⟨by rw [State.thr_updThr]; rfl, by rw [State.thr_updThr]; rfl, by rw [State.thr_updThr]; rfl, rfl, rfl, rfl⟩
  · exact .refl ..

/-! ## The fault -/

/-- The record joins a queue that has room; nothing else of the clusters changes. -/
theorem State.postFault_clu {s : State} {c : Nat} {r : List Word} (h : (s.fltq c).length < 16) :
    (s.postFault c r).clu = (s.setFltq c (s.fltq c ++ [r])).clu := by
  unfold State.postFault
  rw [if_neg (Nat.not_le.mpr h)]
  exact (State.sqc_areas ..).2 .clu (by decide)

/-- Whether or not its record finds room, a fault keeps threads, SRAM and program memory. -/
theorem State.postFault_keeps (s : State) (c : Nat) (r : List Word) :
    (s.postFault c r).clu.thr = s.clu.thr ∧ (s.postFault c r).clu.sram = s.clu.sram ∧ (s.postFault c r).clu.pmem = s.clu.pmem := by
  by_cases h : (s.fltq c).length < 16
  · rw [State.postFault_clu h]
    exact ⟨rfl, rfl, rfl⟩
  · have hc : (s.postFault c r).clu = s.clu := by
      unfold State.postFault
      rw [if_pos (Nat.not_lt.mp h)]
      exact ((State.inc_areas ..).within |>.andThen (State.sqc_areas ..) : s.OnlyChanges _ [.regs, .out, .hst]).2 .clu (by decide)
    rw [hc]
    exact ⟨rfl, rfl, rfl⟩

/-- A fault up to its record: the tile's errors, the queues the thread leaves, the counters. -/
def State.faultCounted (s : State) (k code : Nat) : State :=
  let s00 := if code = 6 ∨ code = 7 then s.tileError (k / 32) else s
  let s0 := if (s.thr k).wait.isSome then s00.leaveQueues (s.agentOf k) else s00
  (s0.inc (Reg.CLU_FAULTS (k / 128))).pmuCore (k / 128) (k % 128 / 8) 0x0E (s.privAttr k) 1

/-- The record and the stop of thread k. -/
def State.faultStopped (a : State) (k up : Nat) (r : List Word) : State :=
  (a.postFault (k / 128) r).updThr k fun t => { t with st := .faulted, faultAt := up, wait := none, stepping := false }

/-- What follows the stop: the packet of a bound thread, messages being filled, the supervisor's event. -/
def State.faultClosed (b : State) (k : Nat) (bound : Bool) (a : Agent) : State :=
  let c := if bound then b.releasePkt k 2 0 0 else b
  if isSup k then (c.abortFilling a).sqc (Reg.CLU_CORE_STATUS (k / 128)) 2 (226 + 8 * (k / 128)) else c.abortFilling a

theorem State.faultAt_eq (s : State) (k code : Nat) (imp : Bool) (addr : Word) (pc : BitVec 16) (iw : PWord) :
    s.faultAt k code imp addr pc iw =
      ((s.faultCounted k code).faultStopped k s.up (s.faultRecord k code imp addr pc iw)).faultClosed k (s.thrBound k) (s.agentOf k) := rfl

theorem State.faultCounted_spares (s : State) (k code : Nat) : s.SparesThread (s.faultCounted k code) k := by
  have hq : s.SparesThread (if code = 6 ∨ code = 7 then s.tileError (k / 32) else s) k := .ite ⟨rfl, rfl, rfl, rfl, rfl, rfl⟩ (.refl ..)
  exact (State.SparesThread.ite (hq.trans (State.leaveQueues_spares ..)) hq).trans
    (.of_areas (l := [.regs]) ((State.inc_areas ..).within |>.andThen (State.pmuCore_areas ..)))

theorem State.faultStopped_thr (a : State) (k up : Nat) (r : List Word) :
    (a.faultStopped k up r).thr k = { a.thr k with st := .faulted, faultAt := up, wait := none, stepping := false } := by
  have h : (a.postFault (k / 128) r).thr k = a.thr k := by
    unfold State.thr
    rw [(a.postFault_keeps ..).1]
  unfold State.faultStopped
  rw [State.thr_updThr, h]

theorem State.faultStopped_fltq {a : State} {k up : Nat} {r : List Word} (h : (a.fltq (k / 128)).length < 16) :
    (a.faultStopped k up r).clu.fltq = (a.setFltq (k / 128) (a.fltq (k / 128) ++ [r])).clu.fltq := by
  rw [← State.postFault_clu h]
  rfl

theorem State.faultClosed_spares {b : State} {k : Nat} (hk : (b.thr k).wait = none) (bound : Bool) (a : Agent) :
    b.SparesThread (b.faultClosed k bound a) k := by
  have h : b.SparesThread (State.abortFilling (if bound then b.releasePkt k 2 0 0 else b) a) k :=
    (State.SparesThread.ite (State.releasePkt_spares ..) (.refl ..)).andThen hk fun hk => State.abortFilling_spares hk a
  exact .ite (h.trans (.of_areas (State.sqc_areas ..))) h

/-- The thread that faults is FAULTED with its context; the memories are as they were; a queue with room has the record at its end. -/
theorem State.faultAt_spec (s : State) (k code : Nat) (imp : Bool) (addr : Word) (pc : BitVec 16) (iw : PWord) :
    let u := s.faultAt k code imp addr pc iw
    (u.thr k).st = .faulted ∧ (u.thr k).ctx = (s.thr k).ctx ∧ u.clu.sram = s.clu.sram ∧ u.clu.pmem = s.clu.pmem ∧
      ((s.fltq (k / 128)).length < 16 → u.fltq (k / 128) = s.fltq (k / 128) ++ [s.faultRecord k code imp addr pc iw]) := by
  rw [State.faultAt_eq]
  generalize s.faultRecord k code imp addr pc iw = r
  have h1 := s.faultCounted_spares k code
  generalize s.faultCounted k code = a at h1 ⊢
  have hb := a.faultStopped_thr k s.up r
  obtain ⟨-, hsram, hpmem⟩ := a.postFault_keeps (k / 128) r
  have h2 : State.SparesThread _ _ k := State.faultClosed_spares (b := a.faultStopped k s.up r) (by rw [hb]) (s.thrBound k) (s.agentOf k)
  refine ⟨h2.st.trans (by rw [hb]), h2.ctx.trans (by rw [hb]; exact h1.ctx), (h2.sram.trans hsram).trans h1.sram,
    (h2.pmem.trans hpmem).trans h1.pmem, fun hroom => ?_⟩
  have hq : a.fltq (k / 128) = s.fltq (k / 128) := by
    unfold State.fltq
    rw [h1.fltq]
  rw [← hq] at hroom ⊢
  have hu := h2.fltq.trans (State.faultStopped_fltq hroom)
  unfold State.fltq at hu ⊢
  rw [hu]
  exact SMap.gd_sd_same ..

end Sys2Proof.Machine
end

/-! SUPPORT. O57: an instruction that faults, and what is as before when the effect of an issued instruction starts. -/
section
namespace Sys2Proof.Machine
open State

/-! ## An instruction that faults -/

/-- An instruction that issues, and whose effect is a fault in a state near s with the context that a fault shows, faults with that code. -/
theorem State.faultsWith_of_fault {s y : State} {t : ThreadId} {i : Instr} {ds : List Dest} {act : State → Eff} {code : Nat} {addr : Word}
    (he : exec i s = done s (s.issue t i 1 ds none act)) (hi : s.issues t i ds = true) (ha : act (s.counted t 1) = .fault y code addr)
    (hcode : code < 16) (hn : s.Near y (tidNat t)) (htask : (y.thr (tidNat t)).task = (s.thr (tidNat t)).task)
    (hctx : ∃ c : Ctx, (y.thr (tidNat t)).ctx = c ∧ c.pc = (s.thr (tidNat t)).ctx.pc ∧ c.acc = (s.thr (tidNat t)).ctx.acc ∧
      c.g = (s.thr (tidNat t)).ctx.g) :
    s.FaultsWith t i code addr := by
  obtain ⟨c, hc, hpc, hacc, hg⟩ := hctx
  generalize hk : tidNat t = k at *
  have hexec := s.exec_of_issues t i 1 ds act _ he ha hi
  have hclu : (s.dropSample y k).clu = y.clu := (State.dropSample_areas ..).2 .clu (by decide)
  have hthr : (s.dropSample y k).thr k = y.thr k := by unfold State.thr; rw [hclu]
  have hq : (s.dropSample y k).fltq (k / 128) = s.fltq (k / 128) := by
    unfold State.fltq
    rw [hclu, hn.same]
  have hspe : ((s.dropSample y k).faultAt k code false addr (s.thr k).ctx.pc (s.nextWords k).1).spe = s.spe :=
    (((State.faultAt_areas ..).2 .spe (by decide)).trans ((State.dropSample_areas ..).2 .spe (by decide))).trans (by rw [hn.same])
  obtain ⟨f1, f2, f3, f4, f5⟩ := (s.dropSample y k).faultAt_spec k code false addr (s.thr k).ctx.pc (s.nextWords k).1
  rw [hthr, hc] at f2
  have hsram : (s.dropSample y k).clu.sram = s.clu.sram := by rw [hclu, hn.same]
  have hpmem : (s.dropSample y k).clu.pmem = s.clu.pmem := by rw [hclu, hn.same]
  unfold State.FaultsWith
  rw [hk] at hexec ⊢
  refine ⟨_, hexec, f1, ?_, ?_, ?_, f3.trans hsram, f4.trans hpmem, hspe, fun hroom hlt => ⟨_, hq ▸ f5 (hq ▸ hroom), ?_⟩⟩
  · exact (congrArg Ctx.pc f2).trans hpc
  · exact (congrArg Ctx.acc f2).trans hacc
  · exact (congrArg Ctx.g f2).trans hg
  · obtain ⟨r1, -⟩ := packedCause_fields false ((s.dropSample y k).thrBound k) hcode ((s.dropSample y k).thrPart_lt k)
      (Nat.mod_lt k (by decide)) (show ((s.dropSample y k).thr k).task.getD 0 < 1024 by rw [hthr, htask]; exact hlt)
    exact ⟨r1, rfl, (fld_instrWord_pc (s.nextWords k).1 (s.thr k).ctx.pc).2⟩

/-! ## Operands after the issue has been counted -/

section counted

variable (s : State) (t : ThreadId) (x : Fin 2) (v : Word)

theorem State.counted_near : s.Near (s.counted t 1) (tidNat t) := State.countIssue_near ..

theorem State.counted_thr : (s.counted t 1).thr (tidNat t) =
    { s.thr (tidNat t) with bpSkip := false, slots := (s.thr (tidNat t)).slots + 1 } := State.countIssue_thr ..

theorem State.ixOf_counted : (s.counted t 1).ixOf (tidNat t) x = s.ixOf (tidNat t) x := by
  unfold State.ixOf
  rw [s.counted_thr]

theorem State.setIx_near (k : Nat) : s.Near (s.setIx k x v) k := State.updCtx_near ..

theorem State.counted_setIx_near : s.Near ((s.counted t 1).setIx (tidNat t) x v) (tidNat t) := (s.counted_near t).trans (State.setIx_near ..)

theorem State.setIx_ctx (k : Nat) : ∃ c, ((s.setIx k x v).thr k).ctx = c ∧ c.pc = (s.thr k).ctx.pc ∧ c.acc = (s.thr k).ctx.acc ∧
    c.g = (s.thr k).ctx.g := by
  refine ⟨_, rfl, ?_⟩
  unfold State.setIx
  rw [State.thr_updCtx]
  dsimp only
  split <;> exact ⟨rfl, rfl, rfl⟩

end counted

/-- A fault of an X-format access: the index register is updated all the same (R233). -/
theorem State.faultsWith_of_fault_setIx {s : State} {t : ThreadId} {i : Instr} {x : Fin 2} {v : Word} {ds : List Dest} {act : State → Eff}
    {code : Nat} {addr : Word} (he : exec i s = done s (s.issue t i 1 ds none act)) (hi : s.issues t i ds = true) (hcode : code < 16)
    (ha : act (s.counted t 1) = .fault ((s.counted t 1).setIx (tidNat t) x v) code addr) : s.FaultsWith t i code addr := by
  refine State.faultsWith_of_fault he hi ha hcode (s.counted_setIx_near t x v) ?_ ?_
  · unfold State.setIx
    rw [State.thr_updCtx, s.counted_thr]
  · obtain ⟨c, hc, h⟩ := (s.counted t 1).setIx_ctx x v (tidNat t)
    rw [s.counted_thr] at h
    exact ⟨c, hc, h⟩

section access

variable {s : State} {t : ThreadId} {i : Instr} {x : Fin 2} {p : Bool} {d6 : BitVec 6} {size code : Nat}

/-- An X-format load that faults. -/
theorem State.loadOp_faultsWith {ext : Nat → Acc} (he : exec i s = s.loadOp t i x p d6 size ext) (hi : s.issues t i [.acc, .ix x] = true)
    (hcode : code < 16)
    (hl : ((s.counted t 1).setIx (tidNat t) x (effAddr (s.ixOf (tidNat t) x) p d6 size).2).loadAt t
      (effAddr (s.ixOf (tidNat t) x) p d6 size).1.toNat size = .fault code) :
    s.FaultsWith t i code (effAddr (s.ixOf (tidNat t) x) p d6 size).1 := by
  refine State.faultsWith_of_fault_setIx he hi hcode (x := x) (v := (effAddr (s.ixOf (tidNat t) x) p d6 size).2) ?_
  dsimp only
  rw [s.ixOf_counted, hl]

/-- An X-format store that faults. -/
theorem State.storeOp_faultsWith (he : exec i s = s.storeOp t i x p d6 size) (hi : s.issues t i [.acc, .ix x] = true) (hcode : code < 16)
    (hl : ∀ (y : State) bs, y.storeAt t (effAddr (s.ixOf (tidNat t) x) p d6 size).1.toNat bs = .fault code) :
    s.FaultsWith t i code (effAddr (s.ixOf (tidNat t) x) p d6 size).1 := by
  refine State.faultsWith_of_fault_setIx he hi hcode (x := x) (v := (effAddr (s.ixOf (tidNat t) x) p d6 size).2) ?_
  dsimp only
  rw [s.ixOf_counted, hl]

end access

end Sys2Proof.Machine
end

/-! SUPPORT. O57: the sample-plane window, an access at a time (R134, R135, R217). -/
section
namespace Sys2Proof.Machine
open State

/-! ## Words as bytes -/

theorem leNat_leBytes (n v : Nat) : leNat (leBytes n v) = v % 256 ^ n := by
  induction n generalizing v with
  | zero => simp [leBytes, leNat, Nat.mod_one]
  | succ n ih =>
    rw [leBytes, leNat, ih, BitVec.toNat_ofNat, Nat.pow_succ' (n := n), Nat.mod_mul]

theorem leNat_leBytes_word (w : Word) : leNat (leBytes 4 w.toNat) = w.toNat := by
  rw [leNat_leBytes]
  exact Nat.mod_eq_of_lt w.isLt

theorem sextN_word (w : Word) : sextN 32 w.toNat = w.signExtend 40 := by
  have h : sgn 32 w.toNat = w.toInt := by
    have hw := w.isLt
    unfold sgn
    rw [Nat.mod_eq_of_lt hw, BitVec.toInt_eq_toNat_cond]
    split <;> split <;> omega
  rw [sextN, h, BitVec.signExtend]
  apply BitVec.eq_of_toNat_eq
  have hpos : (0 : Int) < 2 ^ 40 := by decide
  have hlt := Int.emod_lt_of_pos w.toInt hpos
  rw [BitVec.toNat_ofNat, BitVec.toNat_ofInt, usg]
  exact Nat.mod_eq_of_lt (by omega)

/-! ## The window -/

theorem windowOf_plane {k a : Nat} (h : 0x01000000 ≤ a ∧ a < 0x01804000) : windowOf k a = .plane (a - 0x01000000) := by
  unfold windowOf
  rw [if_neg (by omega), if_pos h]

theorem State.loadAt_plane {s : State} {t : ThreadId} {a n : Nat} (h : 0x01000000 ≤ a ∧ a < 0x01804000) :
    s.loadAt t a n = s.loadPlane (tidNat t) (a - 0x01000000) n := by
  unfold State.loadAt
  dsimp only
  rw [windowOf_plane h]

theorem State.storeAt_plane {s : State} {t : ThreadId} {a : Nat} {bs : List Byte} (h : 0x01000000 ≤ a ∧ a < 0x01804000) :
    s.storeAt t a bs = .fault 4 := by
  unfold State.storeAt
  dsimp only
  rw [windowOf_plane h]

theorem State.crcBytes_plane {s : State} {t : ThreadId} {a n : Nat} (h : 0x01000000 ≤ a ∧ a < 0x01804000) : s.crcBytes t a n = .fault 4 := by
  unfold State.crcBytes
  rw [windowOf_plane h]

/-- A read of the window that is not of an aligned word. -/
theorem State.loadAt_plane_misaligned {s : State} {t : ThreadId} {a n : Nat} (h : 0x01000000 ≤ a ∧ a < 0x01804000) (hn : n ≠ 4 ∨ a % 4 ≠ 0) :
    s.loadAt t a n = .fault 4 := by
  rw [State.loadAt_plane h]
  unfold State.loadPlane
  rw [if_pos (by omega)]

/-! ## An aligned word of the window -/

/-- The channel-stream whose grant the word at offset o of the window needs. -/
def State.planeStream (s : State) (o : Nat) : Nat := if o < 0x800000 then o / 1024 else (s.stream ((o - 0x800000) / 16)).csBase

/-- The word at offset o of the window as a read sees it: of a cell or of the head table. -/
def State.planeWord (s : State) (o : Nat) : Word := if o < 0x800000 then s.cellSeen (o / 4) else s.headWord ((o - 0x800000) / 16) (o % 16 / 4)

theorem State.readProvCell_spe (s : State) (k cs key : Nat) : (s.readProvCell k cs key).spe = s.spe := by
  unfold State.readProvCell
  split
  · rfl
  · dsimp only
    split <;> rfl

theorem State.loadPlane_denied {s : State} {k o : Nat} (ho : o % 4 = 0) (hg : Config.csGranted (s.thrPart k) (s.planeStream o) = false) :
    s.loadPlane k o 4 = .fault 3 := by
  unfold State.planeStream at hg
  unfold State.loadPlane
  rw [if_neg (by omega)]
  split at hg
  · next h => simp [h, hg]
  · next h => simp [h, hg]

theorem State.loadPlane_granted {s : State} {k o : Nat} (ho : o % 4 = 0) (hg : Config.csGranted (s.thrPart k) (s.planeStream o) = true) :
    ∃ z, s.loadPlane k o 4 = .word (s.planeWord o) z ∧ z.spe.cells = s.spe.cells ∧ (0x800000 ≤ o → z.spe = s.spe) := by
  unfold State.planeStream at hg
  unfold State.loadPlane State.planeWord
  rw [if_neg (by omega)]
  split at hg
  · next h =>
    simp only [h, hg, Bool.not_true, Bool.false_eq_true, if_true, if_false]
    refine ⟨_, rfl, ?_, fun h2 => absurd h (Nat.not_lt.mpr h2)⟩
    split
    · rw [State.readProvCell_spe, State.fixCell_cells]
    · exact State.fixCell_cells ..
  · next h =>
    simp only [h, hg, Bool.not_true, Bool.false_eq_true, if_false]
    exact ⟨_, rfl, rfl, fun _ => rfl⟩

/-! ## What an issue leaves of the window -/

theorem le_regKey {a : Nat} (h : 0x1B04C ≤ a) : 0x1B04C ≤ regKey a := by
  unfold regKey
  split <;> omega

theorem le_of_mem_counterRegs {b n a lo : Nat} (hb : lo ≤ b) (h : a ∈ counterRegs b n) : lo ≤ a := by
  obtain ⟨i, -, h⟩ := counterRegs_form b n a h
  omega

/-- The registers that an issue writes lie above those of the recorder. -/
theorem le_of_mem_issueRegs {k a : Nat} (h : a ∈ issueRegs k) : 0x1B04C ≤ a := by
  simp only [issueRegs, List.mem_append, List.mem_cons, List.not_mem_nil, or_false] at h
  rcases h with (h | h) | rfl | rfl | rfl | rfl | rfl
  · exact le_of_mem_counterRegs (by unfold Reg.CLU_PMU_CTR_CFG; omega) h
  · exact le_of_mem_counterRegs (by decide) h
  · unfold Reg.CLU_PMU_SMP_WR; omega
  · unfold Reg.CLU_PMU_SMP_RD; omega
  · unfold Reg.CLU_PMU_SMP_DROP; omega
  · decide
  · decide

theorem State.Near.reg_below {s u : State} {k a : Nat} (h : s.Near u k) (ha : a < 0x1B04C) : u.reg a = s.reg a := by
  refine h.stay a fun hmem => ?_
  obtain ⟨b, hb, heq⟩ := List.mem_map.mp hmem
  have hlow := le_regKey (le_of_mem_issueRegs hb)
  have hkey : regKey a = a := by unfold regKey; rw [if_neg (by omega)]
  omega

theorem State.Near.thrPart {s u : State} {t : ThreadId} (h : s.Near u (tidNat t)) : u.thrPart (tidNat t) = s.thrPart (tidNat t) := by
  have ht : tileOfTid (tidNat t) < 24 := by
    have h1 := t.cl.isLt
    have h2 := t.core.isLt
    have h3 := t.thr.isLt
    unfold tileOfTid tidNat
    omega
  unfold State.thrPart State.tilePart State.rf
  rw [h.reg_below (by unfold Reg.CFG_TILE; omega)]

theorem State.Near.planeStream {s u : State} {k : Nat} (h : s.Near u k) (o : Nat) : u.planeStream o = s.planeStream o := by
  rw [h.same]
  rfl

theorem State.Near.planeWord {s u : State} {k : Nat} (h : s.Near u k) (o : Nat) : u.planeWord o = s.planeWord o := by
  rw [h.same]
  rfl

/-- A CRCM whose state is at hand and whose bytes lie in the window. -/
theorem State.crcm_faultsWith_of_plane {s : State} {t : ThreadId} {p : Fin 4} {x : Fin 2} {n1 : Fin 8}
    (hin : 0x01000000 ≤ (s.ixOf (tidNat t) x).toNat ∧ (s.ixOf (tidNat t) x).toNat < 0x01804000)
    (hcrc : ∀ r, ((s.thr (tidNat t)).pendingFor .acc).getLast? = some r → r.crc = true) (hi : s.issues t (.crcm t p x n1) [.ix x] = true) :
    s.FaultsWith t (.crcm t p x n1) 4 (s.ixOf (tidNat t) x) := by
  refine State.faultsWith_of_fault (y := s.counted t 1) rfl hi ?_ (by decide) (s.counted_near t) (by rw [s.counted_thr])
    ⟨_, rfl, by rw [s.counted_thr], by rw [s.counted_thr], by rw [s.counted_thr]⟩
  have hpend : ((s.counted t 1).thr (tidNat t)).pendingFor .acc = (s.thr (tidNat t)).pendingFor .acc := by rw [s.counted_thr]; rfl
  dsimp only
  rw [hpend, s.ixOf_counted]
  cases hr : ((s.thr (tidNat t)).pendingFor .acc).getLast? with
  | none => simp only [State.crcBytes_plane hin]
  | some r => simp only [hcrc r hr, if_true, State.crcBytes_plane hin]

/-- Settles O57: the window answers ALIGN to all but aligned words, and to those by the grant of their channel-stream. -/
theorem samplePlaneWindowAccess : Obligations.SamplePlaneWindowAccess := by
  unfold Obligations.SamplePlaneWindowAccess
  intro s t x p d6 pp n1 k ea y inPlane ready
  have hn : s.Near (y 4) k := s.counted_setIx_near t x _
  refine ⟨fun hin hal => ?_, fun hin hal hi => ?_, fun hin hi => ?_, fun hin hi => ?_, fun hin hi => ?_, fun hin hi => ?_, fun hin hi => ?_,
    fun hin hi => ?_, fun hin hi => ?_, fun hin hcrc hi => ?_⟩
  · have ho : ((ea 4).toNat - 0x01000000) % 4 = 0 := by omega
    intro o cs w
    have hs : (y 4).planeStream o = cs := hn.planeStream o
    have hw : (y 4).planeWord o = w := hn.planeWord o
    have hp : (y 4).thrPart k = s.thrPart k := hn.thrPart
    split
    · next hg =>
      obtain ⟨z, hz, hcells, hspe⟩ := State.loadPlane_granted (s := y 4) (k := k) ho (by rw [hs, hp]; exact hg)
      have hload : (y 4).loadAt t (ea 4).toNat 4 = .word w z := (State.loadAt_plane hin).trans (hw ▸ hz)
      have hys : (y 4).spe = s.spe := by rw [hn.same]
      refine ⟨z, hload, hcells.trans (by rw [hys]), fun h => (hspe h).trans hys, ?_⟩
      refine State.runsAs_next s t _ 1 _ _ _ rfl ?_
      dsimp only
      rw [s.ixOf_counted, hload, Load.word]
      dsimp only
      rw [leNat_leBytes_word, sextN_word]
    · next hg =>
      refine fun hi => State.loadOp_faultsWith rfl hi (by decide) ((State.loadAt_plane hin).trans (State.loadPlane_denied ho ?_))
      rw [hs, hp]
      exact Bool.eq_false_iff.mpr hg
  · exact State.loadOp_faultsWith rfl hi (by decide) (State.loadAt_plane_misaligned hin (.inr hal))
  · exact State.loadOp_faultsWith rfl hi (by decide) (State.loadAt_plane_misaligned hin (.inl (by decide)))
  · exact State.loadOp_faultsWith rfl hi (by decide) (State.loadAt_plane_misaligned hin (.inl (by decide)))
  · exact State.loadOp_faultsWith rfl hi (by decide) (State.loadAt_plane_misaligned hin (.inl (by decide)))
  · exact State.loadOp_faultsWith rfl hi (by decide) (State.loadAt_plane_misaligned hin (.inl (by decide)))
  · exact State.storeOp_faultsWith rfl hi (by decide) fun _ _ => State.storeAt_plane hin
  · exact State.storeOp_faultsWith rfl hi (by decide) fun _ _ => State.storeAt_plane hin
  · exact State.storeOp_faultsWith rfl hi (by decide) fun _ _ => State.storeAt_plane hin
  · exact State.crcm_faultsWith_of_plane hin hcrc hi

end Sys2Proof.Machine
end

/-!
SUPPORT. The control commands of a cluster (R203-R215): which command a write of CLU_CTL_CMD runs and what it gives by the target that it finds, the
monitor of a wait group, the queues that a read takes from, the abort of a held channel.
-/
section
namespace Sys2Proof.Machine
open State

/-! ## Commands of CLU_CTL_CMD (R207-R209) -/

section
variable {s : State} {who : Accessor} {c op : Nat} {val : Word}

/-- The bits below the number of a command stay. -/
theorem tbit_cmdWord_below {i : Nat} (h : i < 28) : tbit (putFld val 31 28 (8 + op)) i = tbit val i :=
  tbit_putFld_ne _ _ _ _ _ (by decide) (.inl h)

/-- The number of a command names nobody. -/
theorem State.ctlThread_cmdWord : s.ctlThread c (putFld val 31 28 (8 + op)) = s.ctlThread c val := by
  simp only [State.ctlThread, tbit_cmdWord_below (show 27 < 28 by decide), fld_cmdWord_below (show 25 < 28 by decide),
    fld_cmdWord_below (show 14 < 28 by decide)]

theorem State.ctlAgent_cmdWord : s.ctlAgent c (putFld val 31 28 (8 + op)) = s.ctlAgent c val := by
  simp only [State.ctlAgent, tbit_cmdWord_below (show 27 < 28 by decide), fld_cmdWord_below (show 25 < 28 by decide),
    fld_cmdWord_below (show 14 < 28 by decide)]

theorem State.ctlPart_cmdWord : s.ctlPart c (putFld val 31 28 (8 + op)) = s.ctlPart c val := by
  simp only [State.ctlPart, tbit_cmdWord_below (show 27 < 28 by decide), fld_cmdWord_below (show 25 < 28 by decide),
    fld_cmdWord_below (show 14 < 28 by decide)]

/-- A command without authority over its target is denied. -/
theorem State.ctlWrite_of_denied (hw : s.mayWrite who (Reg.CLU_CTL_CMD c) = true) (ha : s.ctlAllowed who (s.ctlPart c val) = false) :
    s.ctlWrite who c op val = s.ctlResult c (putFld val 31 28 (8 + op)) 5 := by
  rw [State.ctlWrite, State.writeCmd, if_pos hw, State.ctlRun, State.ctlPart_cmdWord, ha]
  rfl

/-- What RESUME and KILL make, by f, of the thread of their target: only of one that is FAULTED. -/
def State.ctlFaulted (s : State) (c : Nat) (w : Word) (f : Nat → State) : Option Nat → State
  | some j => if (s.thr j).st = .faulted then (f j).ctlResult c w 0 else s.ctlResult c w 7
  | none => s.ctlResult c w 7

theorem State.ctlFaulted_of_faulted {w : Word} {f : Nat → State} {j : Nat} (hf : (s.thr j).st = .faulted) :
    s.ctlFaulted c w f (some j) = (f j).ctlResult c w 0 := if_pos hf

theorem State.ctlFaulted_of_not_faulted {w : Word} {f : Nat → State} {o : Option Nat} (hf : ∀ j, o = some j → (s.thr j).st ≠ .faulted) :
    s.ctlFaulted c w f o = s.ctlResult c w 7 := by
  cases o with
  | none => rfl
  | some j => exact if_neg (hf j rfl)

section
variable (hw : s.mayWrite who (Reg.CLU_CTL_CMD c) = true) (ha : s.ctlAllowed who (s.ctlPart c val) = true)
include hw ha

theorem State.ctlWrite_resume : s.ctlWrite who c 1 val =
    s.ctlFaulted c (putFld val 31 28 (8 + 1)) (fun j => s.resumeThread j (BitVec.ofNat 16 (s.rf (Reg.CLU_CTL_ARG c) 15 0)))
      (s.ctlThread c val) := by
  rw [State.ctlWrite, State.writeCmd, if_pos hw, State.ctlRun, State.ctlPart_cmdWord, ha, fld_cmdWord_op (by decide), State.ctlThread_cmdWord]
  cases s.ctlThread c val <;> rfl

theorem State.ctlWrite_kill : s.ctlWrite who c 2 val = s.ctlFaulted c (putFld val 31 28 (8 + 2)) s.killThread (s.ctlThread c val) := by
  rw [State.ctlWrite, State.writeCmd, if_pos hw, State.ctlRun, State.ctlPart_cmdWord, ha, fld_cmdWord_op (by decide), State.ctlThread_cmdWord]
  cases s.ctlThread c val <;> rfl

theorem State.ctlWrite_abortWait : s.ctlWrite who c 3 val =
    if s.agentWaiting (s.ctlAgent c val) then (s.abortWait (s.ctlAgent c val)).ctlResult c (putFld val 31 28 (8 + 3)) 0
    else s.ctlResult c (putFld val 31 28 (8 + 3)) 7 := by
  rw [State.ctlWrite, State.writeCmd, if_pos hw, State.ctlRun, State.ctlPart_cmdWord, ha, fld_cmdWord_op (by decide), State.ctlAgent_cmdWord]
  rfl

end

end

/-! ## The supervisor's interrupt (R203) -/

/-- The supervisor of cluster c at the handler of cause n. -/
def State.interrupted (s : State) (c n : Nat) : State :=
  ((s.leaveQueues (.thread (128 * c))).updThr (128 * c) fun t =>
    { t with
      st := .ready, wait := none, ie := false, maskAt := some s.up
      dp := t.dp.sd 0 0x1FF (BitVec.ofNat 32 t.ctx.pc.toNat)
      ctx := { t.ctx with pc := BitVec.ofNat 16 (s.rf (Reg.CLU_SUP_CFG c) 31 16 + 16 * (1 + n)) } }).refetch (128 * c)

theorem State.interrupted_areas (s : State) (c n : Nat) : s.OnlyChanges (s.interrupted c n) [.clu] :=
  (leaveQueues_areas ..).within |>.andThen (updThr_areas ..) |>.andThen (refetch_areas ..)

/-- A supervisor that may take its cause is interrupted by it. -/
theorem supervisorInterrupt_of_cause {s : State} {c : Fin 6} {n : Nat} (hc : s.supCause c.val = some n) (hie : (s.thr (128 * c.val)).ie = true)
    (hst : (s.thr (128 * c.val)).st = .ready ∨ (s.thr (128 * c.val)).st = .waiting) :
    exec (.supervisorInterrupt c) s = .next (s.interrupted c.val n) := by
  have htakes : s.supTakes c.val = true := by
    rcases hst with hst | hst <;> simp [State.supTakes, hc, hie, hst]
  have hexec : exec (.supervisorInterrupt c) s = done s (s.interrupted c.val n) := by
    show execSupervisorInterrupt c s = _
    simp only [execSupervisorInterrupt, hc, htakes, if_true]
    rfl
  exact hexec.trans (congrArg Host.Outcome.next (s.closed_of_out _ (s.interrupted_areas ..).out))

/-- What becomes of the supervisor. -/
theorem State.interrupted_thr (s : State) (c n : Nat) :
    ∃ f, (s.interrupted c n).thr (128 * c) =
      { s.thr (128 * c) with
        st := .ready, wait := none, ie := false, maskAt := some s.up, fetched := f, stall := none
        dp := (s.thr (128 * c)).dp.sd 0 0x1FF (BitVec.ofNat 32 (s.thr (128 * c)).ctx.pc.toNat)
        ctx := { (s.thr (128 * c)).ctx with pc := BitVec.ofNat 16 (s.rf (Reg.CLU_SUP_CFG c) 31 16 + 16 * (1 + n)) } } := by
  refine ⟨((s.interrupted c n).thr (128 * c)).fetched, ?_⟩
  unfold State.interrupted State.refetch
  rw [State.thr_updThr, State.thr_updThr]
  rfl

theorem State.interrupted_thr_ne (s : State) (c n : Nat) {j : Nat} (hj : j ≠ 128 * c) : (s.interrupted c n).thr j = s.thr j := by
  unfold State.interrupted State.refetch
  rw [State.thr_updThr_ne _ _ _ _ hj, State.thr_updThr_ne _ _ _ _ hj]
  rfl

/-! ## Queues that a read takes from (R206, R213) -/

theorem cluFltData_inj (c : Fin 6) : ∀ v < 4, ∀ w < 4, regKey (Reg.CLU_FLT_DATA c.val v) = regKey (Reg.CLU_FLT_DATA c.val w) → v = w := by
  intro v hv w hw
  unfold regKey Reg.CLU_FLT_DATA
  split <;> split <;> omega

theorem cluDlData_inj (c : Fin 6) : ∀ v < 12, ∀ w < 12, regKey (Reg.CLU_DL_DATA c.val v) = regKey (Reg.CLU_DL_DATA c.val w) → v = w := by
  intro v hv w hw
  unfold regKey Reg.CLU_DL_DATA
  split <;> split <;> omega

/-- The answer of a read that takes the oldest record of a queue and shows it in the data registers beside it. -/
theorem done_pop {s y : State} {off n : Nat} {data : Nat → Nat} {r : List Word} {v : Word} (hy : s.OnlyChanges y [.clu])
    (inj : ∀ i < n, ∀ j < n, regKey (data i) = regKey (data j) → i = j) :
    ∃ u, done s ((each (List.range n) (fun x w => x.setReg (data w) (wordAt r w)) y).emit (.readData off v)) = .next u ∧ u.clu = y.clu ∧
      (∀ i, i < n → u.reg (data i) = wordAt r i) ∧ u.out = .readData off v :: s.out ∧ s.OnlyChanges u [.regs, .clu, .out] := by
  have areas := State.each_setReg_areas y (n := n) (a := data) (wordAt r)
  have out := areas.out.trans hy.out
  refine ⟨_, congrArg Host.Outcome.next (State.closed_emit_readData out off v), areas.2 .clu (by decide), State.reg_each_setReg y _ inj,
    congrArg (_ :: ·) out, ?_⟩
  exact (hy.within |>.andThen areas).andThen (State.emit_areas ..)

theorem fltPop_of_mayTake {s : State} {who : Accessor} {c : Fin 6} (h : s.mayTake who (Reg.CLU_FLT_POP c.val) = true) :
    exec (.fltPop who c) s = done s ((s.fltPop c.val).2.emit (.readData (Reg.CLU_FLT_POP c.val) (s.fltPop c.val).1)) :=
  congrArg (done s) (State.rttRead_of_mayTake h)

theorem dlPop_of_mayTake {s : State} {who : Accessor} {c : Fin 6} (h : s.mayTake who (Reg.CLU_DL_POP c.val) = true) :
    exec (.dlPop who c) s = done s ((s.dlPop c.val).2.emit (.readData (Reg.CLU_DL_POP c.val) (s.dlPop c.val).1)) :=
  congrArg (done s) (State.rttRead_of_mayTake h)

section
variable {s : State} {who : Accessor} {c : Fin 6} {r : List Word} {rest : List (List Word)}

theorem fltPop_of_nil (h : s.mayTake who (Reg.CLU_FLT_POP c.val) = true) (hq : s.fltq c.val = []) :
    s.Gives (.fltPop who c) (s.emit (.readData (Reg.CLU_FLT_POP c.val) 0)) := by
  rw [State.Gives, fltPop_of_mayTake h, State.fltPop, hq]
  rfl

theorem dlPop_of_nil (h : s.mayTake who (Reg.CLU_DL_POP c.val) = true) (hq : s.dlq c.val = []) :
    s.Gives (.dlPop who c) (s.emit (.readData (Reg.CLU_DL_POP c.val) 0)) := by
  rw [State.Gives, dlPop_of_mayTake h, State.dlPop, hq]
  rfl

/-- The oldest fault record leaves its queue and is shown. -/
theorem fltPop_of_cons (h : s.mayTake who (Reg.CLU_FLT_POP c.val) = true) (hq : s.fltq c.val = r :: rest) :
    ∃ u, exec (.fltPop who c) s = .next u ∧ u.fltq c.val = rest ∧ (∀ i, i < 4 → u.reg (Reg.CLU_FLT_DATA c.val i) = wordAt r i) ∧
      u.out = .readData (Reg.CLU_FLT_POP c.val) (BitVec.ofNat 32 (2147483648 + rest.length)) :: s.out ∧ s.OnlyChanges u [.regs, .clu, .out] := by
  obtain ⟨u, hu, hclu, hdata, hout, hareas⟩ := done_pop (off := Reg.CLU_FLT_POP c.val) (r := r)
    (v := BitVec.ofNat 32 (2147483648 + rest.length)) (s.setFltq_areas c.val rest) (cluFltData_inj c)
  refine ⟨u, ?_, ?_, hdata, hout, hareas⟩
  · rw [fltPop_of_mayTake h, State.fltPop, hq]
    exact hu
  · unfold State.fltq
    rw [hclu]
    exact SMap.gd_sd_same ..

/-- The oldest deadlock record leaves its queue and is shown. -/
theorem dlPop_of_cons (h : s.mayTake who (Reg.CLU_DL_POP c.val) = true) (hq : s.dlq c.val = r :: rest) :
    ∃ u, exec (.dlPop who c) s = .next u ∧ u.dlq c.val = rest ∧ (∀ i, i < 12 → u.reg (Reg.CLU_DL_DATA c.val i) = wordAt r i) ∧
      u.out = .readData (Reg.CLU_DL_POP c.val) (BitVec.ofNat 32 (2147483648 + rest.length)) :: s.out ∧ s.OnlyChanges u [.regs, .clu, .out] := by
  obtain ⟨u, hu, hclu, hdata, hout, hareas⟩ := done_pop (off := Reg.CLU_DL_POP c.val) (r := r)
    (v := BitVec.ofNat 32 (2147483648 + rest.length)) (s.setDlq_areas c.val rest) (cluDlData_inj c)
  refine ⟨u, ?_, ?_, hdata, hout, hareas⟩
  · rw [dlPop_of_mayTake h, State.dlPop, hq]
    exact hu
  · unfold State.dlq
    rw [hclu]
    exact SMap.gd_sd_same ..

end

/-! ## The deadlock monitor (R212, R213) -/

section
variable {s : State} {c : Fin 6} {g : Fin 16} {x : Nat}

/-- A group blocked for its time posts its record, or loses it where four wait. -/
theorem deadlockDetect_of_due (hs : (s.wgroup (16 * c.val + g.val)).since = some x) (hb : s.groupBlocked c.val g.val = true)
    (hp : (s.wgroup (16 * c.val + g.val)).posted = none) (hh : s.groupHalted c.val g.val = false)
    (hx : x + s.rf (Reg.CLU_DL_CFG c.val g.val) 15 0 * usU ≤ s.up) {s1 : State}
    (h1 : s.setWgroup (16 * c.val + g.val)
      { s.wgroup (16 * c.val + g.val) with posted := some s.up, episode := (s.wgroup (16 * c.val + g.val)).episode + 1 } = s1) :
    s.Gives (.deadlockDetect c g)
      (((if 4 ≤ (s.dlq c.val).length then s1.inc (Reg.CLU_DL_OVF c.val)
        else s1.setDlq c.val (s.dlq c.val ++ [s1.deadlockRecord c.val g.val])).inc (Reg.CLU_DL_RECORDS c.val)).sqc (Reg.CLU_CORE_STATUS c.val) 3
          (227 + 8 * c.val)) := by
  subst h1
  show execDeadlockDetect c g s = _
  simp only [execDeadlockDetect, hs, hb, hp, hh, hx, Option.isNone_none, Bool.not_false, Bool.and_true, decide_true, if_true]
  rfl

theorem deadlockEscalate_of_due (hp : (s.wgroup (16 * c.val + g.val)).posted = some x) (hb : s.groupBlocked c.val g.val = true)
    (he : (s.wgroup (16 * c.val + g.val)).esc = false) (hx : x + s.rf (Reg.CLU_SUP_TMO c.val) 31 16 * usU ≤ s.up) :
    s.Gives (.deadlockEscalate c g) ((s.setWgroup (16 * c.val + g.val) { s.wgroup (16 * c.val + g.val) with esc := true }).sqc
      (Reg.CLU_CORE_STATUS c.val) 4 (228 + 8 * c.val)) := by
  show execDeadlockEscalate c g s = _
  simp only [execDeadlockEscalate, hp, hb, he, hx, Bool.not_false, Bool.and_true, decide_true, if_true]
  rfl

end

/-! ## Commands of the cluster's own time and of CLU_CHN_CMD -/

theorem faultTimeoutKill_of_due {s : State} {t : ThreadId} (hf : (s.thr (tidNat t)).st = .faulted)
    (hx : (s.thr (tidNat t)).faultAt + s.rf (Reg.CLU_SUP_TMO (tidNat t / 128)) 15 0 * usU ≤ s.up) :
    s.Gives (.faultTimeoutKill t) ((s.killThread (tidNat t)).inc (Reg.CLU_FLT_TMO_KILL (tidNat t / 128))) :=
  congrArg (done s) (if_pos (by simp [hf, hx]))

theorem maskMaxExceeded_of_due {s : State} {c : Fin 6} {m : Nat} (hm : (s.thr (128 * c.val)).maskAt = some m)
    (hie : (s.thr (128 * c.val)).ie = false) (hx : s.rf (Reg.CLU_SUP_CFG c.val) 9 0 * 16 < coreCycles (s.up - m)) :
    s.Gives (.maskMaxExceeded c)
      (((s.updThr (128 * c.val) fun x => { x with maskAt := none }).inc (Reg.CLU_MASK_EXP c.val)).sqc (Reg.CLU_CORE_STATUS c.val) 2
        (226 + 8 * c.val)) := by
  show execMaskMaxExceeded c s = _
  simp only [execMaskMaxExceeded, hm, hie, hx, Bool.not_false, Bool.and_true, decide_true, if_true]
  rfl

theorem chnAbort_of_mayWrite {s : State} {who : Accessor} {c : Fin 6} {val : Word} (hw : s.mayWrite who (Reg.CLU_CHN_CMD c.val) = true) :
    s.Gives (.chnAbort who c val) (s.chnAbort who c.val val) := congrArg (done s) (if_pos hw)

section
variable {s : State} {who : Accessor} {c ch : Nat} {val : Word} (hch : 64 * c + fld val 5 0 = ch)
include hch

theorem State.chnAbort_of_denied (h : s.dbgAllowed who (s.chanTx ch) true = false) :
    s.chnAbort who c val = (s.inc Reg.DBG_DENIED).setReg (Reg.CLU_CHN_CMD_STATUS c) 5 := by
  simp [State.chnAbort, hch, h]

theorem State.chnAbort_of_not_held (h : s.dbgAllowed who (s.chanTx ch) true = true) (hst : (s.chan ch).st ≠ .held) :
    s.chnAbort who c val = s.setReg (Reg.CLU_CHN_CMD_STATUS c) 7 := by
  simp [State.chnAbort, hch, h, hst]

theorem State.chnAbort_of_held (h : s.dbgAllowed who (s.chanTx ch) true = true) (hst : (s.chan ch).st = .held) :
    s.chnAbort who c val = (s.abortChan ch).setReg (Reg.CLU_CHN_CMD_STATUS c) 0 := by
  simp [State.chnAbort, hch, h, hst]

end

/-- Settles O33: each command by the branch that its target, its time or its queue selects. -/
theorem supervisorControlCommandsComplete : Obligations.SupervisorControlCommandsComplete := by
  unfold Obligations.SupervisorControlCommandsComplete
  intro s who c g val t v k sup ch w
  refine ⟨fun hw ha => ⟨fun j hj hf => ?_, fun hf => ?_, fun hwait => ?_, fun hwait => ?_⟩, fun hw ha => ?_, faultTimeoutKill_of_due,
    fun n hc hie hst => ?_, fun m => maskMaxExceeded_of_due, fun x hs hb hp hh hx => ?_, fun x => deadlockEscalate_of_due, fltPop_of_nil,
    fun r rest => fltPop_of_cons, dlPop_of_nil, fun r rest => dlPop_of_cons, fun hw => ⟨fun h => ?_, fun h hst => ?_, fun h hst => ?_⟩⟩
  · exact ⟨congrArg (done s) ((State.ctlWrite_resume hw ha).trans (hj ▸ State.ctlFaulted_of_faulted hf)),
      congrArg (done s) ((State.ctlWrite_kill hw ha).trans (hj ▸ State.ctlFaulted_of_faulted hf))⟩
  · exact ⟨congrArg (done s) ((State.ctlWrite_resume hw ha).trans (State.ctlFaulted_of_not_faulted hf)),
      congrArg (done s) ((State.ctlWrite_kill hw ha).trans (State.ctlFaulted_of_not_faulted hf))⟩
  · exact congrArg (done s) ((State.ctlWrite_abortWait hw ha).trans (if_pos hwait))
  · exact congrArg (done s) ((State.ctlWrite_abortWait hw ha).trans (if_neg (by simp [hwait])))
  · have denied (op : Nat) : done s (s.ctlWrite who c.val op val) = done s (s.ctlResult c.val (v op) 5) :=
      congrArg (done s) (State.ctlWrite_of_denied hw ha)
    exact ⟨denied 1, denied 2, denied 3⟩
  · obtain ⟨f, hthr⟩ := s.interrupted_thr c.val n
    refine ⟨_, supervisorInterrupt_of_cause hc hie hst, by rw [hthr], by rw [hthr], by rw [hthr], by rw [hthr], ?_, fun j hj => ?_,
      fun j hj => s.interrupted_thr_ne _ _ hj, s.interrupted_areas ..⟩
    · rw [hthr]
      exact SMap.gd_sd_same ..
    · rw [hthr]
      exact SMap.gd_sd_ne _ _ _ _ _ hj
  · have posted := deadlockDetect_of_due hs hb hp hh hx rfl
    exact ⟨fun h4 => posted.to (by rw [if_pos h4]), fun h4 => posted.to (by rw [if_neg (Nat.not_le.mpr h4)])⟩
  · exact (chnAbort_of_mayWrite hw).to (State.chnAbort_of_denied rfl h)
  · exact (chnAbort_of_mayWrite hw).to (State.chnAbort_of_not_held rfl h hst)
  · exact (chnAbort_of_mayWrite hw).to (State.chnAbort_of_held rfl h hst)

end Sys2Proof.Machine
end

/-!
SUPPORT. The moves of the phasor coprocessor (R245, R251): what each copies, and the conjugate.
-/
section
namespace Sys2Proof.Machine

/-! ## One bit of a word inverted -/

section
variable {n : Nat} (w : BitVec n) {i : Nat}

/-- The word with bit i inverted. -/
def flipBit (w : BitVec n) (i : Nat) : BitVec n := putBit w i (!tbit w i)

theorem getLsbD_flipBit (hi : i < n) (j : Nat) : (flipBit w i).getLsbD j = if j = i then !w.getLsbD i else w.getLsbD j := by
  simpa only [tbit_eq, flipBit] using tbit_putBit w i j (!tbit w i) hi

theorem flipBit_flipBit (hi : i < n) : flipBit (flipBit w i) i = w := by
  refine BitVec.eq_of_getLsbD_eq fun j _ => ?_
  rw [getLsbD_flipBit _ hi, getLsbD_flipBit _ hi, getLsbD_flipBit _ hi, if_pos rfl]
  split
  · next h => rw [h, Bool.not_not]
  · rfl

end

/-! ## What a move computes -/

section
variable {c : CpxCmd} {d a b b2 : CReg} {zs : List Nat}

/-- CMTR and CMTI copy Gs. -/
theorem cpxCompute_fromG (h : c.cpop = 0 ∨ c.cpop = 1) : cpxCompute c d a b b2 zs = { ws := [c.gval] } := by
  rcases h with h | h <;> simp only [cpxCompute, h]

theorem cpxCompute_cmfr (h : c.cpop = 2) : cpxCompute c d a b b2 zs = { ws := [a.re] } := by simp only [cpxCompute, h]
theorem cpxCompute_cmfi (h : c.cpop = 3) : cpxCompute c d a b b2 zs = { ws := [a.im] } := by simp only [cpxCompute, h]
theorem cpxCompute_cmov (h : c.cpop = 4) : cpxCompute c d a b b2 zs = { ws := [a.re, a.im] } := by simp only [cpxCompute, h]
theorem cpxCompute_cconj (h : c.cpop = 25) : cpxCompute c d a b b2 zs = { ws := [a.re, flipBit a.im 31] } := by
  simp only [cpxCompute, h, flipBit]

end

/-- Settles O17: each move by its CPOP; CCONJ inverts bit 31 of one component, and that twice is nothing. -/
theorem coprocessorMovesCopyBits : Obligations.CoprocessorMovesCopyBits := by
  unfold Obligations.CoprocessorMovesCopyBits
  intro c d a b b2 zs
  refine ⟨fun h => cpxCompute_fromG (.inl h), fun h => cpxCompute_fromG (.inr h), cpxCompute_cmfr, cpxCompute_cmfi, cpxCompute_cmov, fun h =>
    ⟨flipBit a.im 31, cpxCompute_cconj h, ?_, fun i hi => ?_, ?_⟩⟩
  · rw [getLsbD_flipBit _ (by decide), if_pos rfl]
  · rw [getLsbD_flipBit _ (by decide), if_neg (by omega)]
  · rw [cpxCompute_cconj h, flipBit_flipBit _ (by decide)]

end Sys2Proof.Machine
end

/-!
SUPPORT. The issue of a C-format instruction (R246, R247): the entry that its command takes in its core's queue, and what the instruction leaves of
the thread, of the other entries and of the counters.
-/
section
namespace Sys2Proof.Machine
open State

/-! ## The entry that a command takes -/

section
variable {s : State} {k op cd ca cb gs m tag : Nat}

/-- Where some entry of a core's queue is free, the lowest free one. -/
theorem State.exists_lowest_freeTag {core : Nat} (h : (List.range 16).any (fun j => !(s.cpxCmd (16 * core + j)).live) = true) :
    ∃ tag, (List.range 16).find? (fun j => !(s.cpxCmd (16 * core + j)).live) = some tag ∧ tag < 16 ∧ (s.cpxCmd (16 * core + tag)).live = false ∧
      ∀ j, j < tag → (s.cpxCmd (16 * core + j)).live = true := by
  obtain ⟨tag, htag⟩ := Option.isSome_iff_exists.mp (List.find?_isSome.mpr (List.any_eq_true.mp h))
  obtain ⟨hfree, hlt, hlow⟩ := List.find?_range_eq_some.mp htag
  refine ⟨tag, htag, List.mem_range.mp hlt, by simpa using hfree, fun j hj => by simpa using hlow j hj⟩

/-- Thread k after a command with tag `tag` has entered the queue as c: a destination in G has a write pending, the command is counted (R247). -/
def State.cpxEntered (s : State) (k op gs tag : Nat) (c : CpxCmd) : State :=
  let x := s.setCpxCmd (16 * (k / 8) + tag) c
  let y := { x with cpx := { x.cpx with nextOrder := x.cpx.nextOrder + 1 } }
  ((if cpxToG op then y.pendRes k { dest := .g (Fin.ofNat 8 gs), val := 0, ready := false, tag := tag } else y).inc
    (Reg.CPX_CMDS (tileOf k))).pmuCore (k / 128) (k % 128 / 8) 0x09 (s.privAttr k) 1

/-- The fields of a queued command that its instruction names (R247). -/
structure CpxCmd.Issued (c : CpxCmd) (k op cd ca cb gs m : Nat) (gval : Word) : Prop where
  live : c.live = true
  tid : c.tid = k
  cpop : c.cpop = op
  cd : c.cd = cd
  ca : c.ca = ca
  cb : c.cb = cb
  gs : c.gs = gs
  m : c.m = m
  gval : c.gval = gval
  started : c.started = false
  squashed : c.squashed = false

theorem State.cpxQueue_of_free (hfree : (List.range 16).find? (fun j => !(s.cpxCmd (16 * (k / 8) + j)).live) = some tag)
    (hroom : (s.cpx.cmds.filter fun p => p.2.live && p.2.tid == k).length < 4) :
    ∃ c : CpxCmd, c.Issued k op cd ca cb gs m ((s.thr k).ctx.getG gs) ∧ s.cpxQueue k op cd ca cb gs m = .next (s.cpxEntered k op gs tag c) := by
  unfold State.cpxQueue
  dsimp only
  rw [hfree]
  dsimp only
  rw [if_neg (by omega)]
  exact ⟨_, ⟨rfl, rfl, rfl, rfl, rfl, rfl, rfl, rfl, rfl, rfl, rfl⟩, rfl⟩

end

/-! ## What the entry of a command changes -/

section
variable (s : State) (k op gs tag : Nat) (c : CpxCmd)

theorem State.cpxEntered_cpx : (s.cpxEntered k op gs tag c).cpx =
    { (s.setCpxCmd (16 * (k / 8) + tag) c).cpx with nextOrder := s.cpx.nextOrder + 1 } := by
  unfold State.cpxEntered
  rw [(pmuCore_areas ..).2 .cpx (by decide)]
  split <;> rfl

theorem State.cpxCmd_cpxEntered (j : Nat) : (s.cpxEntered k op gs tag c).cpxCmd j = (s.setCpxCmd (16 * (k / 8) + tag) c).cpxCmd j := by
  unfold State.cpxCmd
  rw [cpxEntered_cpx]

theorem State.cpxEntered_clu : (s.cpxEntered k op gs tag c).clu =
    if cpxToG op then (s.pendRes k { dest := .g (Fin.ofNat 8 gs), val := 0, ready := false, tag := tag }).clu else s.clu := by
  unfold State.cpxEntered
  rw [(pmuCore_regsOnly ..).fields.1]
  split <;> rfl

/-- The results that a command to G puts beside the pipe: none, or one that is not ready (R200, R246). -/
def cpxPend (op gs tag : Nat) : List PendResult :=
  if cpxToG op then [{ dest := .g (Fin.ofNat 8 gs), val := 0, ready := false, tag := tag }] else []

theorem State.cpxEntered_thr : (s.cpxEntered k op gs tag c).thr k = { s.thr k with pend := (s.thr k).pend ++ cpxPend op gs tag } := by
  unfold State.thr cpxPend
  rw [cpxEntered_clu]
  split
  · exact s.thr_updThr k _
  · rw [List.append_nil]

theorem State.cpxEntered_mem : (s.cpxEntered k op gs tag c).clu.sram = s.clu.sram ∧ (s.cpxEntered k op gs tag c).clu.pmem = s.clu.pmem := by
  rw [cpxEntered_clu]
  split <;> exact ⟨rfl, rfl⟩

/-- A register below those that an issue may write stays (R457). -/
theorem State.RegsStay.reg_below {s u : State} {k a : Nat} (h : s.RegsStay u (issueRegs k)) (ha : a < 0x1B04C) : u.reg a = s.reg a :=
  Near.reg_below (u := s.withRegs u.regs) ⟨fun _ _ => rfl, rfl, h⟩ ha

theorem cpxCmds_lt (t : ThreadId) : Reg.CPX_CMDS (tileOf (tidNat t)) < 0x1B04C := by
  have h1 := t.cl.isLt
  have h2 := t.core.isLt
  have h3 := t.thr.isLt
  unfold Reg.CPX_CMDS tileOf tidNat
  omega

theorem State.cpxEntered_counts (t : ThreadId) : (s.cpxEntered (tidNat t) op gs tag c).reg (Reg.CPX_CMDS (tileOf (tidNat t))) =
    s.reg (Reg.CPX_CMDS (tileOf (tidNat t))) + 1 := by
  unfold State.cpxEntered
  rw [(pmuCore_near ..).reg_below (cpxCmds_lt t)]
  refine (reg_setReg_same ..).trans ?_
  split <;> rfl

end

/-! ## The end of an instruction that has queued a command -/

theorem State.EndsAs.length_pend {x u : State} {k : Nat} (h : x.EndsAs u k) : (u.thr k).pend.length = (x.thr k).pend.length := by
  obtain ⟨-, -, hpend, -⟩ := h
  simpa only [List.length_map] using congrArg List.length hpend

/-- Of the last result beside the pipe, what every instruction ends with keeps its destination, its tag and whether it is ready. -/
theorem State.EndsAs.last_pend {x u : State} {k : Nat} {l : List PendResult} {q p : PendResult} (h : x.EndsAs u k) (hx : (x.thr k).pend = l ++ [q])
    (hp : (u.thr k).pend.getLast? = some p) : p.dest = q.dest ∧ p.ready = q.ready ∧ p.tag = q.tag := by
  obtain ⟨-, -, hpend, -⟩ := h
  have hlast := congrArg List.getLast? hpend
  rw [List.getLast?_map, hp, hx, List.map_append, List.map_singleton, List.getLast?_concat] at hlast
  have heq := Option.some.inj hlast
  exact ⟨(congrArg PendResult.dest heq :), (congrArg PendResult.ready heq :), (congrArg PendResult.tag heq :)⟩

theorem State.counted_cpx (s : State) (t : ThreadId) (len : Nat) : (s.counted t len).cpx = s.cpx := by
  rw [State.counted, (s.countIssue_near ..).same]

/-- The state in which a C-format instruction leaves its thread, before what every instruction ends with. -/
def State.cpxIssued (s : State) (t : ThreadId) (op gs tag : Nat) (c : CpxCmd) : State :=
  ((s.counted t 2).cpxEntered (tidNat t) op gs tag c).fellThrough t 2

theorem State.cpxIssued_thr (s : State) (t : ThreadId) (op gs tag : Nat) (c : CpxCmd) : (s.cpxIssued t op gs tag c).thr (tidNat t) =
    { s.thr (tidNat t) with
      bpSkip := false, slots := (s.thr (tidNat t)).slots + 2, ctx := (s.thr (tidNat t)).ctx.advance 2
      pend := (s.thr (tidNat t)).pend ++ cpxPend op gs tag } := by
  rw [State.cpxIssued, State.fellThrough, thr_updCtx, cpxEntered_thr, State.counted, countIssue_thr]

section
variable {s u : State} {t : ThreadId} {op gs tag : Nat} {c : CpxCmd} (h : (s.cpxIssued t op gs tag c).EndsAs u (tidNat t))
include h

theorem State.EndsAs.issued_cpxCmd (j : Nat) : u.cpxCmd j = (s.setCpxCmd (16 * (tidNat t / 8) + tag) c).cpxCmd j := by
  obtain ⟨-, -, -, -, areas, -⟩ := h
  have hcpx : u.cpx = ((s.counted t 2).cpxEntered (tidNat t) op gs tag c).cpx := areas.2 .cpx (by decide)
  unfold State.cpxCmd
  rw [hcpx, cpxEntered_cpx]
  unfold State.setCpxCmd
  rw [counted_cpx]

theorem State.EndsAs.issued_ctx : (u.thr (tidNat t)).ctx = (s.thr (tidNat t)).ctx.advance 2 := by
  obtain ⟨hctx, -⟩ := h
  rw [hctx, cpxIssued_thr]

theorem State.EndsAs.issued_dp : (u.thr (tidNat t)).dp = (s.thr (tidNat t)).dp := by
  obtain ⟨-, hdp, -⟩ := h
  rw [hdp, cpxIssued_thr]

theorem State.EndsAs.issued_length : (u.thr (tidNat t)).pend.length = (s.thr (tidNat t)).pend.length + if cpxToG op then 1 else 0 := by
  rw [h.length_pend, cpxIssued_thr, List.length_append, cpxPend]
  split <;> rfl

theorem State.EndsAs.issued_last (hg : cpxToG op = true) {p : PendResult} (hp : (u.thr (tidNat t)).pend.getLast? = some p) :
    p.dest = .g (Fin.ofNat 8 gs) ∧ p.ready = false ∧ p.tag = tag :=
  h.last_pend (by rw [cpxIssued_thr, cpxPend, if_pos hg]) hp

theorem State.EndsAs.issued_counts : u.reg (Reg.CPX_CMDS (tileOf (tidNat t))) = s.reg (Reg.CPX_CMDS (tileOf (tidNat t))) + 1 := by
  obtain ⟨-, -, -, -, -, hstay, -⟩ := h
  have near : s.Near (s.counted t 2) (tidNat t) := countIssue_near ..
  calc u.reg (Reg.CPX_CMDS (tileOf (tidNat t)))
      = ((s.counted t 2).cpxEntered (tidNat t) op gs tag c).reg (Reg.CPX_CMDS (tileOf (tidNat t))) := hstay.reg_below (cpxCmds_lt t)
    _ = (s.counted t 2).reg (Reg.CPX_CMDS (tileOf (tidNat t))) + 1 := cpxEntered_counts ..
    _ = s.reg (Reg.CPX_CMDS (tileOf (tidNat t))) + 1 := by rw [near.reg_below (cpxCmds_lt t)]

theorem State.EndsAs.issued_mem : u.clu.sram = s.clu.sram ∧ u.clu.pmem = s.clu.pmem := by
  obtain ⟨-, -, -, -, -, -, ⟨hsram, hpmem, -⟩, -⟩ := h
  have near : s.Near (s.counted t 2) (tidNat t) := countIssue_near ..
  obtain ⟨esram, epmem⟩ := (s.counted t 2).cpxEntered_mem (tidNat t) op gs tag c
  exact ⟨(hsram.trans esram).trans (by rw [near.same]), (hpmem.trans epmem).trans (by rw [near.same])⟩

end

/-- An instruction whose meaning is the issue of a command queues that command. -/
theorem State.queues_of_cpxIssue {s : State} {t : ThreadId} {i : Instr} {op : Nat} (cd ca cb gs : Fin 8) (m : BitVec 5)
    (hexec : exec i s = s.cpxIssue t i op cd ca cb gs m) : s.Queues t i op cd.val ca.val cb.val gs.val m.toNat := by
  unfold State.Queues
  dsimp only
  intro hissues henabled hany hroom
  obtain ⟨tag, hfind, hlt, hfree, hlow⟩ := exists_lowest_freeTag hany
  obtain ⟨c, hc, hqueue⟩ := cpxQueue_of_free (s := s.counted t 2) (op := op) (cd := cd.val) (ca := ca.val) (cb := cb.val) (gs := gs.val)
    (m := m.toNat) (by unfold State.cpxCmd; rw [counted_cpx]; exact hfind) (by rw [counted_cpx]; exact hroom)
  have hgval : ((s.counted t 2).thr (tidNat t)).ctx = (s.thr (tidNat t)).ctx := countIssue_ctx ..
  have hperm : s.cpxPerm (tidNat t) = none := if_pos henabled
  have hrun : exec i s = done s (s.issue t i 2 (if cpxUsesG op then [.g (Fin.ofNat 8 gs.val)] else []) none fun x =>
      x.cpxQueue (tidNat t) op cd.val ca.val cb.val gs.val m.toNat) := by
    rw [hexec, State.cpxIssue, hperm, Fin.ofNat_val_eq_self]
  obtain ⟨u, hu, ends⟩ := s.runsAs_next t i 2 _ _ _ hrun hqueue hissues
  have ends : (s.cpxIssued t op gs.val tag c).EndsAs u (tidNat t) := ends
  refine ⟨u, tag, hu, hlt, hfree, hlow, ?_, fun j hj => (ends.issued_cpxCmd j).trans (cpxCmd_setCpxCmd_ne _ _ _ _ hj), ends.issued_ctx,
    ends.issued_dp, ends.issued_length, fun hg p hp => ends.issued_last hg hp, ends.issued_counts, ends.issued_mem⟩
  rw [ends.issued_cpxCmd, cpxCmd_setCpxCmd, ← hgval]
  exact ⟨hc.live, hc.tid, hc.cpop, hc.cd, hc.ca, hc.cb, hc.gs, hc.m, hc.gval, hc.started, hc.squashed⟩

/-- Settles O15: the meaning of each C-format instruction is the issue of its command. -/
theorem coprocessorInstructionsQueue : Obligations.CoprocessorInstructionsQueue := by
  unfold Obligations.CoprocessorInstructionsQueue
  intro s t cd ca cb gs m
  exact ⟨queues_of_cpxIssue cd 0 0 gs 0 rfl, queues_of_cpxIssue cd 0 0 gs 0 rfl, queues_of_cpxIssue 0 ca 0 gs 0 rfl,
    queues_of_cpxIssue 0 ca 0 gs 0 rfl, queues_of_cpxIssue cd ca 0 0 0 rfl, queues_of_cpxIssue cd 0 0 gs m rfl, queues_of_cpxIssue cd 0 0 gs m rfl,
    queues_of_cpxIssue 0 ca 0 gs m rfl, queues_of_cpxIssue cd ca cb 0 0 rfl, queues_of_cpxIssue cd ca cb 0 0 rfl,
    queues_of_cpxIssue cd ca cb 0 0 rfl, queues_of_cpxIssue cd ca cb 0 0 rfl, queues_of_cpxIssue cd ca cb 0 0 rfl,
    queues_of_cpxIssue cd ca cb 0 0 rfl, queues_of_cpxIssue cd ca cb 0 0 rfl, queues_of_cpxIssue cd ca 0 gs 0 rfl,
    queues_of_cpxIssue cd ca 0 0 m rfl, queues_of_cpxIssue cd ca 0 0 0 rfl, queues_of_cpxIssue cd ca cb gs m rfl,
    queues_of_cpxIssue cd ca 0 gs 0 rfl, queues_of_cpxIssue cd ca 0 0 0 rfl, queues_of_cpxIssue 0 ca 0 gs 0 rfl, queues_of_cpxIssue cd ca 0 0 0 rfl,
    queues_of_cpxIssue cd ca cb 0 0 rfl, queues_of_cpxIssue 0 ca cb gs m rfl, queues_of_cpxIssue 0 ca cb gs m rfl,
    queues_of_cpxIssue 0 ca cb gs m rfl, queues_of_cpxIssue cd ca cb 0 0 rfl, queues_of_cpxIssue cd ca cb 0 0 rfl⟩

end Sys2Proof.Machine
end

/-!
SUPPORT. The life of a coprocessor command after its issue (R248-R250): what its start and its end make of the queue and of the thread that it is of.
-/
section
namespace Sys2Proof.Machine
open State

/-! ## The queue -/

/-- An operation that leaves the coprocessor area leaves every entry of its queues. -/
theorem State.OnlyChanges.cpxCmd {s t : State} {l : List Area} (h : s.OnlyChanges t l) (j : Nat) (hl : .cpx ∉ l := by decide) :
    t.cpxCmd j = s.cpxCmd j := congrArg (·.cmds.gd {} j) (h.2 .cpx hl)

/-! ## The start of a command (R248, R249) -/

section
variable {s : State} {key : Nat}

/-- What command c computes from the C registers of its thread, with the free values that its operation takes. -/
def State.cpxVal (s : State) (c : CpxCmd) : CpxVal :=
  cpxCompute c (s.cregOf c.tid c.cd) (s.cregOf c.tid c.ca) (s.cregOf c.tid (if c.cpop = 40 then c.ca + 1 else c.cb)) (s.cregOf c.tid (c.ca + 2))
    (s.cpxFree c.cpop).1

/-- A start with good operand parity puts the results into the command's entry, and counts. -/
theorem State.cpxStart_of_goodParity (h : s.cpxParity (s.cpxCmd key) = none) :
    s.cpxStart key = ((((s.cpxFree (s.cpxCmd key).cpop).2.setCpxCmd key
      { s.cpxCmd key with started := true, res := (s.cpxVal (s.cpxCmd key)).ws }).add (Reg.CPX_INVALID (key / 64))
        (if (s.cpxVal (s.cpxCmd key)).inv then 1 else 0)).add (Reg.CPX_OVERFLOW (key / 64)) (s.cpxVal (s.cpxCmd key)).ovf) := by
  unfold State.cpxStart
  dsimp only
  rw [h]
  rfl

theorem State.cpxCmd_cpxStart (h : s.cpxParity (s.cpxCmd key) = none) :
    (s.cpxStart key).cpxCmd key = { s.cpxCmd key with started := true, res := (s.cpxVal (s.cpxCmd key)).ws } := by
  rw [cpxStart_of_goodParity h, (add_areas ..).cpxCmd, (add_areas ..).cpxCmd, cpxCmd_setCpxCmd]

theorem State.cpxCmd_cpxStart_ne (h : s.cpxParity (s.cpxCmd key) = none) {j : Nat} (hj : j ≠ key) : (s.cpxStart key).cpxCmd j = s.cpxCmd j := by
  rw [cpxStart_of_goodParity h, (add_areas ..).cpxCmd, (add_areas ..).cpxCmd, cpxCmd_setCpxCmd_ne _ _ _ _ hj, (cpxFree_areas ..).cpxCmd]

/-- A command that is ready and first for its unit starts; the cycles it waited are counted. -/
theorem cpxCommandStart_of_ready {core : Fin 96} {tag : Fin 16} (waited : Nat) (hkey : key = 16 * core.val + tag.val)
    (hr : s.cpxReady (s.cpxCmd key) = true) (hf : s.cpxFirst key (s.cpxCmd key) = true) :
    ∃ u, exec (.cpxCommandStart core tag waited) s = .next u ∧ s.OnlyChanges u [.regs, .fv, .cpx] ∧
      ∀ j, u.cpxCmd j = (s.cpxStart key).cpxCmd j := by
  subst hkey
  have counts := (add_areas (s.cpxStart (16 * core.val + tag.val)) (Reg.CPX_WAIT_CYC (core.val / 4)) waited).andThen
    (pmuClu_areas _ (core.val / 16) 0x49 {} waited)
  have areas := (s.cpxStart_areas (16 * core.val + tag.val)).andThen counts
  have run : exec (.cpxCommandStart core tag waited) s = done s _ := congrArg (done s) (if_pos (by rw [hr, hf]; rfl))
  exact ⟨_, run.trans (congrArg Host.Outcome.next (s.closed_of_out _ areas.out)), areas, counts.cpxCmd⟩

end

/-! ## The destinations of a result (R250, R251) -/

theorem Ctx.getG_setG (x : Ctx) {i : Nat} (v : Word) (h : i < 8) : (x.setG i v).getG i = v := by
  simp [Ctx.getG, Ctx.setG, h]

section
variable (s : State) {k n : Nat} {f : CReg → CReg}

theorem State.cregOf_setCreg (hn : n < 8) : (s.setCreg k n f).cregOf k n = f (s.cregOf k n) := by
  simp [State.cregOf, State.setCreg, hn]

theorem State.thr_setCreg_ne {j : Nat} (hj : j ≠ k) : (s.setCreg k n f).thr j = s.thr j := thr_updThr_ne _ _ _ _ hj

end

section
variable {s : State} {c : CpxCmd}

theorem State.thr_cpxStore_ne {j : Nat} (hj : j ≠ c.tid) : (s.cpxStore c).thr j = s.thr j := by
  unfold State.cpxStore
  split
  · rw [thr_updThr_ne _ _ _ _ hj, State.updCtx, thr_updThr_ne _ _ _ _ hj]
  split
  · exact s.thr_setCreg_ne hj
  split
  · exact s.thr_setCreg_ne hj
  · exact each_keeps _ _ (fun x => x.thr j) (fun x _ => x.thr_setCreg_ne hj) s

/-- A command to G writes Gs. -/
theorem State.getG_cpxStore (hg : cpxToG c.cpop = true) (hgs : c.gs < 8) : ((s.cpxStore c).thr c.tid).ctx.getG c.gs = wordAt c.res 0 := by
  unfold State.cpxStore
  rw [if_pos hg, thr_updThr, thr_updCtx]
  exact Ctx.getG_setG _ _ hgs

/-- CMTR writes the real part of Cd. -/
theorem State.cpxStore_cmtr (h : c.cpop = 0) : s.cpxStore c = s.setCreg c.tid c.cd fun r => { r with re := wordAt c.res 0, badRe := false } := by
  unfold State.cpxStore
  rw [if_neg (by rw [h]; decide), if_pos h]

/-- CMTI writes the imaginary part of Cd. -/
theorem State.cpxStore_cmti (h : c.cpop = 1) : s.cpxStore c = s.setCreg c.tid c.cd fun r => { r with im := wordAt c.res 0, badIm := false } := by
  unfold State.cpxStore
  rw [if_neg (by rw [h]; decide), if_neg (by omega), if_pos h]

/-- A command to C other than CMTR, CMTI and CFSQ writes both components of Cd. -/
theorem State.cpxStore_pair (hg : cpxToG c.cpop = false) (h2 : 2 ≤ c.cpop) (h40 : c.cpop ≠ 40) :
    s.cpxStore c = s.setCreg c.tid c.cd fun _ => { re := wordAt c.res 0, im := wordAt c.res 1 } := by
  have hd : c.dests = [c.cd] := by
    unfold CpxCmd.dests
    rw [if_neg (by rw [hg]; decide), if_neg h40]
  unfold State.cpxStore
  rw [if_neg (by rw [hg]; decide), if_neg (by omega), if_neg (by omega), hd]
  rfl

end

/-! ## The end of a command (R250) -/

section
variable {s : State} {key : Nat}

/-- The end of a command neither squashed nor sampled, whose operands had good parity: its entry is free and its results are written. -/
theorem State.cpxFinish_of_clean (hsq : (s.cpxCmd key).squashed = false) (hbad : (s.cpxCmd key).badReg = none) (hsmp : (s.cpxCmd key).smp = false) :
    s.cpxFinish key = (s.setCpxCmd key {}).cpxStore (s.cpxCmd key) := by
  unfold State.cpxFinish
  dsimp only
  rw [hsq, hsmp, hbad]
  rfl

/-- A started command with no earlier write to its destination outstanding ends. -/
theorem cpxResultWrite_of_started {core : Fin 96} {tag : Fin 16} (hkey : key = 16 * core.val + tag.val) (hl : (s.cpxCmd key).live = true)
    (hst : (s.cpxCmd key).started = true) (hw : s.cpxWawFree (s.cpxCmd key) = true) :
    s.Gives (.cpxResultWrite core tag) (s.cpxFinish key) := by
  subst hkey
  exact congrArg (done s) (if_pos (by rw [hl, hst, hw, Bool.or_true]; rfl))

end

/-- Settles O16: the start by the entry that it leaves, the end by the destination that its CPOP has. -/
theorem coprocessorCommandsStartAndWrite : Obligations.CoprocessorCommandsStartAndWrite := by
  unfold Obligations.CoprocessorCommandsStartAndWrite
  intro s core tag waited
  extract_lets key c
  refine ⟨fun hr hf hp => ?_, fun hl hst hsq hw hbad hsmp hcd hgs => ?_⟩
  · obtain ⟨u, run, areas, entry⟩ := cpxCommandStart_of_ready waited rfl hr hf
    refine ⟨u, run, areas, ?_, ?_, fun j hj => ?_⟩
    · rw [entry, cpxCmd_cpxStart hp]
    · rw [entry, cpxCmd_cpxStart hp]
      rfl
    · rw [entry, cpxCmd_cpxStart_ne hp hj]
  · have ends : s.cpxFinish key = (s.setCpxCmd key {}).cpxStore c := cpxFinish_of_clean hsq hbad hsmp
    have areas : s.OnlyChanges (s.cpxFinish key) [.clu, .cpx] := ends ▸ ((setCpxCmd_areas ..).within |>.andThen (cpxStore_areas ..))
    have wrote {f : CReg → CReg} (h : (s.setCpxCmd key {}).cpxStore c = (s.setCpxCmd key {}).setCreg c.tid c.cd f) :
        (s.cpxFinish key).cregOf c.tid c.cd = f (s.cregOf c.tid c.cd) := by rw [ends, h, cregOf_setCreg _ hcd]; rfl
    refine ⟨_, (cpxResultWrite_of_started rfl hl hst hw).trans (congrArg Host.Outcome.next (s.closed_of_out _ areas.out)), areas, ?_, fun j hj => ?_,
      fun hg => ?_, fun h0 => ?_, fun h1 => ?_, fun hg h2 h40 => ?_⟩
    · rw [ends, (cpxStore_areas ..).cpxCmd, cpxCmd_setCpxCmd]
    · rw [ends, thr_cpxStore_ne hj]
      rfl
    · rw [ends, getG_cpxStore hg hgs]
    · have h := wrote (cpxStore_cmtr h0)
      exact ⟨congrArg CReg.re h, (congrArg CReg.im h :)⟩
    · have h := wrote (cpxStore_cmti h1)
      exact ⟨congrArg CReg.im h, (congrArg CReg.re h :)⟩
    · have h := wrote (cpxStore_pair hg h2 h40)
      exact ⟨congrArg CReg.re h, congrArg CReg.im h⟩

end Sys2Proof.Machine
end

/-!
SUPPORT. The instructions that end, yield or hold the work of a thread (R147, R107, R273): the role that each needs, what it reads after its issue has
been counted, and where it leaves its thread.
-/
section
namespace Sys2Proof.Machine
open State

/-! ## An instruction that needs a role (R240) -/

section
variable {s : State} {t : ThreadId} {i : Instr} {len : Nat} {ds : List Dest} {ok : Bool} {act : State → Eff}
variable (he : exec i s = done s (s.issue t i len ds (need ok) act))
include he

/-- With the role that it needs an instruction is one that needs none. -/
theorem exec_of_role (h : ok = true) : exec i s = done s (s.issue t i len ds none act) := by
  rw [he, need, if_pos h]

/-- Without the role that it needs an instruction faults, with its thread FAULTED where it stands. -/
theorem faulted_of_no_role (h : ok = false) (hi : s.issues t i ds = true) :
    ∃ u, exec i s = .next u ∧ (u.thr (tidNat t)).st = .faulted ∧ (u.thr (tidNat t)).ctx = (s.thr (tidNat t)).ctx := by
  have hissue : s.issue t i len ds (need ok) act =
      (s.dropSample (s.counted t len) (tidNat t)).faultAt (tidNat t) 2 false 0 (s.thr (tidNat t)).ctx.pc (s.nextWords (tidNat t)).1 := by
    unfold State.issues at hi
    simp only [Bool.and_eq_true, decide_eq_true_eq, Option.isNone_iff_eq_none] at hi
    obtain ⟨⟨⟨hcan, hfetch⟩, hinstr⟩, -⟩ := hi
    simp [State.issue, State.counted, need, h, hcan, hfetch, hinstr]
  have hthr : (s.dropSample (s.counted t len) (tidNat t)).thr (tidNat t) = (s.counted t len).thr (tidNat t) :=
    congrArg (·.thr.gd {} (tidNat t)) ((State.dropSample_areas ..).2 .clu (by decide))
  obtain ⟨hst, hctx, -⟩ := (s.dropSample (s.counted t len) (tidNat t)).faultAt_spec (tidNat t) 2 false 0 (s.thr (tidNat t)).ctx.pc
    (s.nextWords (tidNat t)).1
  refine ⟨_, he.trans (congrArg (done s) hissue), hst, hctx.trans ?_⟩
  rw [hthr, State.counted, State.countIssue_ctx]

end

/-! ## What an instruction reads after its issue has been counted -/

section
variable (s : State) (t : ThreadId)

/-- The registers that an issue writes are none of a cluster's low ones, where the configurations of its threads stand. -/
theorem outside_threads_of_mem_issueRegs {k a : Nat} (h : a ∈ issueRegs k) : a < 0x100000 ∨ 0x800 ≤ a % 0x10000 := by
  simp only [issueRegs, List.mem_append, List.mem_cons, List.not_mem_nil, or_false] at h
  rcases h with (h | h) | rfl | rfl | rfl | rfl | rfl
  · obtain ⟨i, hi, h⟩ := counterRegs_form _ _ _ h
    unfold Reg.CLU_PMU_CTR_CFG at h
    omega
  · obtain ⟨i, hi, h⟩ := counterRegs_form _ _ _ h
    unfold Reg.PMU_CTR_CFG at h
    omega
  · unfold Reg.CLU_PMU_SMP_WR; omega
  · unfold Reg.CLU_PMU_SMP_RD; omega
  · unfold Reg.CLU_PMU_SMP_DROP; omega
  · decide
  · decide

theorem thrCfgReg_not_issued (k : Nat) : regKey (thrCfgReg k) ∉ (issueRegs k).map regKey := by
  intro h
  obtain ⟨a, ha, e⟩ := List.mem_map.1 h
  have := outside_threads_of_mem_issueRegs ha
  unfold regKey thrCfgReg Reg.CLU_THR_CFG at e
  split at e <;> split at e <;> omega

theorem State.thrBound_counted : (s.counted t 1).thrBound (tidNat t) = s.thrBound (tidNat t) := by
  unfold State.thrBound State.rb
  rw [(s.counted_near t).stay _ (thrCfgReg_not_issued _)]

theorem State.packet_counted : ((s.counted t 1).thr (tidNat t)).packet = (s.thr (tidNat t)).packet := by rw [s.counted_thr]

theorem State.gOf_counted (gs : Fin 8) : (s.counted t 1).gOf (tidNat t) gs = s.gOf (tidNat t) gs := by
  unfold State.gOf
  rw [s.counted_thr]

theorem State.frame_counted (f : Nat) : (s.counted t 1).frame f = s.frame f := by rw [(s.counted_near t).same]; rfl

end

/-! ## REL (R147) -/

/-- REL of a thread that holds a packet: its stores visible, the packet handed on, the thread IDLE. -/
theorem State.relEff_of_packet {x : State} {k f : Nat} (h : (x.thr k).packet = some f) (disp lane stage : Nat) :
    x.relEff k disp lane stage = .gone (((x.drainStores k).releasePkt k disp lane stage).idleThread k) :=
  if_pos (by rw [h]; rfl)

/-- An instruction of a bound thread with a packet whose effect is a REL. -/
theorem State.runsAs_rel {s : State} {t : ThreadId} {i : Instr} {ds : List Dest} {f disp lane stage : Nat} {act : State → Eff}
    (he : exec i s = done s (s.issue t i 1 ds (need (s.thrBound (tidNat t))) act)) (hb : s.thrBound (tidNat t) = true)
    (hf : (s.thr (tidNat t)).packet = some f) (ha : act (s.counted t 1) = (s.counted t 1).relEff (tidNat t) disp lane stage) :
    s.RunsAs t i ds ((((s.counted t 1).drainStores (tidNat t)).releasePkt (tidNat t) disp lane stage).idleThread (tidNat t)) :=
  s.runsAs_gone t i 1 ds act _ (exec_of_role he hb) (ha.trans (relEff_of_packet ((s.packet_counted t).trans hf) _ _ _))

/-! ## VWAIT (R107) -/

/-- VWAIT on a bound thread whose packet has its verdict writes it into Gs. -/
theorem State.runsTo_vwait {s : State} {t : ThreadId} (gs : Fin 8) {f : Nat} (hb : s.thrBound (tidNat t) = true)
    (hf : (s.thr (tidNat t)).packet = some f) (hv : (s.frame f).verdict ≠ 0) :
    s.RunsTo t (.vwait t gs) [.g gs] (s.onCtx t 1 fun c => { c with g := c.g.set gs.val (BitVec.ofNat 32 (s.frame f).verdict) }) := by
  have hpacket : (s.counted t 1).packetOf (tidNat t) = some f := by
    rw [State.packetOf, s.thrBound_counted, if_pos hb, s.packet_counted, hf]
  refine State.runsTo_next s t _ 1 _ _ ((s.counted t 1).setG (tidNat t) gs (BitVec.ofNat 32 (s.frame f).verdict)) _ _ (exec_of_role rfl hb) ?_
    ((s.counted_near t).trans (State.updCtx_near ..)) ?_ fun hc => (s.countIssue_quiet _ _ _ hc).trans ⟨rfl, rfl, rfl⟩
  · rw [← State.counted, hpacket]
    dsimp only
    rw [s.frame_counted, if_neg hv]
  · rw [State.setG, State.thr_updCtx, s.counted_thr]

/-- Settles O14: each instruction by the role of its thread and by what its effect finds once its issue has been counted. -/
theorem taskAndPacketInstructionsComplete : Obligations.TaskAndPacketInstructionsComplete := by
  unfold Obligations.TaskAndPacketInstructionsComplete
  refine ⟨fun s t => ⟨fun htask => ⟨fun hd => ?_, fun hy => ?_, fun n hy hd => ?_⟩, fun htask i hi hissues => ?_⟩, fun s t gs f hb hf => ?_⟩
  · exact s.runsAs_gone t _ 1 _ _ _ (exec_of_role rfl htask) (if_pos hd)
  · refine s.runsAs_next t _ 1 _ _ _ (exec_of_role rfl htask) ?_
    dsimp only
    rw [hy]
  · refine s.runsAs_gone t _ 1 _ _ _ (exec_of_role rfl htask) ?_
    dsimp only
    rw [hy]
    exact if_pos hd
  · have hrole : (s.thr (tidNat t)).task.isSome = false := by rw [htask]; rfl
    simp only [List.mem_cons, List.not_mem_nil, or_false] at hi
    rcases hi with rfl | rfl
    · exact faulted_of_no_role rfl hrole hissues
    · exact faulted_of_no_role rfl hrole hissues
  · exact ⟨runsAs_rel rfl hb hf rfl, runsAs_rel rfl hb hf rfl, runsAs_rel rfl hb hf rfl,
      runsAs_rel rfl hb hf (by rw [← s.gOf_counted t gs]), runsTo_vwait gs hb hf⟩

end Sys2Proof.Machine
end

/-!
SUPPORT. The commands of the task dispatcher (R264-R280): which branch of its meaning a command takes, and what the commands of CLU_DSP_CMD and the
snapshot of a task leave.
-/
section
namespace Sys2Proof.Machine
open State

/-! ## Assignment and switching (R267, R268, R271) -/

theorem taskAssign_of_first {s : State} {c : Fin 6} {n k : Nat} {preempt : Bool} (h : s.firstAssignable c.val = some (n, k, preempt)) :
    s.Gives (.taskAssign c) (s.assignTo n k preempt) := by
  show execTaskAssign c s = _
  rw [execTaskAssign, h]
  rfl

/-- A leaving task, its thread drained and READY or WAITING, is saved; but for a WAITING one it goes to the head of its level. -/
theorem taskPreempt_of_drained {s : State} {t : ThreadId} (hl : (s.thr (tidNat t)).leaving = true) (ht : (s.thr (tidNat t)).task.isSome = true)
    (hd : s.drained (tidNat t) = true) (hst : (s.thr (tidNat t)).st = .ready ∨ (s.thr (tidNat t)).st = .waiting) {s1 : State}
    (h1 : ((s.leaveThread (tidNat t) 2).inc (Reg.CLU_DSP_PREEMPTS (tidNat t / 128))).pmuClu (tidNat t / 128) 0x43 {} 1 = s1) :
    s.Gives (.taskPreempt t) (if (s.thr (tidNat t)).st = .waiting then s1 else s1.readyHead (s.taskOn (tidNat t))) := by
  subst h1
  exact congrArg (done s) (if_pos (by simpa [hl, ht, hd] using hst))

/-- A staged task that comes into an IDLE thread. -/
theorem taskSwitch_of_staged {s : State} {t : ThreadId} {i : Nat} (hi : (s.thr (tidNat t)).incoming = some i) (hst : (s.thr (tidNat t)).st = .idle)
    (hs : (s.thr (tidNat t)).staged = some i) {n : Nat} (hn : 1024 * (tidNat t / 128) + i = n) {s1 : State}
    (h1 : ((s.inc (Reg.CLU_DSP_SWITCHES (tidNat t / 128))).pmuClu (tidNat t / 128) 0x41 {} 1).pmuCore (tidNat t / 128) (tidNat t % 128 / 8) 0x0D {} 1
      = s1) :
    s.Gives (.taskSwitch t) (((s1.switchIn (tidNat t) n).updThr (tidNat t) fun x => { x with staged := none }).trace (tidNat t / 128) (s.task n).part
      (s.thr (tidNat t)).outTask (some i) (tidNat t) (if (s.thr (tidNat t)).outTask.isSome then (s.thr (tidNat t)).outReason else 1) (s.task n).prio
      (s.task n).aux) := by
  subst hn h1
  show execTaskSwitch t s = _
  simp only [execTaskSwitch, hi, hst, hs, beq_self_eq_true, if_true]
  rfl

theorem stagingLoad_of_stageFor {s : State} {t : ThreadId} {task : Fin 1024} (h : s.stageFor (tidNat t) = some (1024 * (tidNat t / 128) + task.val)) :
    s.Gives (.stagingLoad t task) (s.updThr (tidNat t) fun x => { x with staged := some task.val }) := congrArg (done s) (if_pos h)

/-! ## Timers and budgets (R265, R274) -/

theorem dispatcherTimerFire_of_reached {s : State} {c : Fin 6} {u : Fin 32} {a : ArmedInstant} (ha : s.timer (32 * c.val + u.val) = some a)
    (hr : s.instReached a = true) {s1 : State}
    (h1 : (s.setTimer (32 * c.val + u.val) (s.rearm a)).fireResult (Reg.CLU_DSP_TMR_STATUS c.val u.val) (fireCode a) = s1) :
    s.Gives (.dispatcherTimerFire c u)
      ((if a.late then (s1.sqc (Reg.CLU_DSP_STATUS c.val) 5 (230 + 8 * c.val)).deliver 42 else s1).wakeSource c.val 2 u.val causeTimer
        (BitVec.ofNat 32 u.val)) := by
  subst h1
  show execDispatcherTimerFire c u s = _
  simp only [execDispatcherTimerFire, ha, hr, if_true]
  rfl

theorem budgetOverrun_of_over {s : State} {t : ThreadId} {n : Nat} (hn : s.taskOn (tidNat t) = n) (ht : (s.thr (tidNat t)).task.isSome = true)
    (hst : (s.thr (tidNat t)).st ≠ .halted) (hb : fld (s.task n).w3 31 16 ≠ 0) (ho : (s.task n).ovr = false)
    (hu : fld (s.task n).w3 31 16 * 16 < s.runUsed n) {s1 : State}
    (h1 : (((s.updTask n fun y => { y with ovr := true }).inc (Reg.CLU_DSP_OVERRUNS (tidNat t / 128))).trace (tidNat t / 128) (s.task n).part none
      (some (n % 1024)) (tidNat t) 8 (s.task n).prio (s.task n).aux).sqc (Reg.CLU_DSP_STATUS (tidNat t / 128)) 0 (230 + 8 * (tidNat t / 128)) = s1) :
    s.Gives (.budgetOverrun t) (if tbit (s.task n).w0 14 then s1.forceEnd n 6 else s1) := by
  subst hn h1
  exact congrArg (done s) (if_pos (by simp [ht, hst, hb, ho, hu]))

/-! ## ACTIVATE and CANCEL (R280) -/

/-- Task n without its pending wake and its pending retraction. -/
def State.cancelWakes (s : State) (n : Nat) : State :=
  s.updTask n fun t => { t with pend := false, pendCauses := 0, pendAux := 0, retrPend := false, retr := none, merged := false }

section
variable {s : State} {who : Accessor} {c n : Nat} {w : Word} (hn : 1024 * c + fld w 9 0 = n)
include hn

theorem State.dspRun_of_denied (ha : s.ctlAllowed who (s.taskPart n) = false) : s.dspRun who c w = s.dspResult c w 5 := by
  simp [State.dspRun, hn, ha]

section
variable (ha : s.ctlAllowed who (s.taskPart n) = true)
include ha

theorem State.dspRun_of_disabled (hop : fld w 30 28 = 1 ∨ fld w 30 28 = 2) (hd : (s.task n).st = .disabled) :
    s.dspRun who c w = s.dspResult c w 7 := by
  have hop : ¬(fld w 30 28 ≠ 1 ∧ fld w 30 28 ≠ 2) := by omega
  simp [State.dspRun, hn, ha, hop, hd]

theorem State.dspRun_activate (hop : fld w 30 28 = 1) (hd : (s.task n).st ≠ .disabled) :
    s.dspRun who c w = (s.wake n causeActivate (s.reg (Reg.CLU_DSP_CMD_ARG c))).dspResult c w 0 := by
  simp [State.dspRun, hn, ha, hop, hd]

theorem State.dspRun_cancel (hop : fld w 30 28 = 2) (hd : (s.task n).st ≠ .disabled) :
    s.dspRun who c w = (s.cancelWakes n).dspResult c w 0 := by
  simp [State.dspRun, State.cancelWakes, hn, ha, hop, hd]

end

end

theorem State.task_dspResult (s : State) (c : Nat) (w : Word) (res j : Nat) : (s.dspResult c w res).task j = s.task j :=
  congrArg (·.tasks.gd {} j) ((dspResult_areas ..).2 .clu (by decide))

theorem State.reg_dspResult_status (s : State) (c : Nat) (w : Word) (res : Nat) :
    (s.dspResult c w res).reg (Reg.CLU_DSP_CMD_STATUS c) = BitVec.ofNat 32 res := by
  unfold State.dspResult
  exact reg_setReg_same ..

/-- The registers that a result of the dispatcher writes. -/
theorem State.dspResult_stays (s : State) (c : Nat) (w : Word) (res : Nat) :
    s.RegsStay (s.dspResult c w res) [Reg.CLU_DSP_CMD c, Reg.CLU_DSP_CMD_STATUS c] :=
  (setReg_stays _ _ _ _ List.mem_cons_self).trans (setReg_stays _ _ _ _ (List.mem_cons_of_mem _ List.mem_cons_self))

section
variable {s : State} {who : Accessor} {c : Fin 6} {val : Word} (hw : s.mayWrite who (Reg.CLU_DSP_CMD c.val) = true)
include hw

theorem activate_of_mayWrite : s.Gives (.activate who c val) (s.dspRun who c.val (putFld val 31 28 9)) := congrArg (done s) (if_pos hw)
theorem cancel_of_mayWrite : s.Gives (.cancel who c val) (s.dspRun who c.val (putFld val 31 28 10)) := congrArg (done s) (if_pos hw)

end

/-! ## The snapshot of a task (R280) -/

theorem cluTcbData_inj (c : Nat) : ∀ v < 8, ∀ w < 8, regKey (Reg.CLU_TCB_DATA c v) = regKey (Reg.CLU_TCB_DATA c w) → v = w := by
  intro v hv w hw
  unfold regKey Reg.CLU_TCB_DATA
  split <;> split <;> omega

theorem cluTcbSel_not_data (c : Nat) : regKey (Reg.CLU_TCB_SEL c) ∉ ((List.range 8).map (Reg.CLU_TCB_DATA c)).map regKey := by
  simp only [List.mem_map, List.mem_range]
  rintro ⟨_, ⟨w, hw, rfl⟩, e⟩
  unfold regKey Reg.CLU_TCB_DATA Reg.CLU_TCB_SEL at e
  split at e <;> split at e <;> omega

/-- Settles O34: each command by the branch that what it finds selects. -/
theorem dispatcherCommandsComplete : Obligations.DispatcherCommandsComplete := by
  unfold Obligations.DispatcherCommandsComplete
  intro s who c u val t task k cl th n
  have task_named (op : Nat) : 1024 * c.val + fld (putFld val 31 28 (8 + op)) 9 0 = n := by rw [fld_cmdWord_below (by decide)]
  have activates : fld (putFld val 31 28 9) 30 28 = 1 := fld_cmdWord_op (op := 1) (by decide)
  have cancels : fld (putFld val 31 28 10) 30 28 = 2 := fld_cmdWord_op (op := 2) (by decide)
  refine ⟨fun m j b => taskAssign_of_first, fun hl ht hd => ⟨fun hst => ?_, fun hst => ?_⟩, fun i hi hst hs => taskSwitch_of_staged hi hst hs rfl rfl,
    fun h => ?_, fun a ha hr => dispatcherTimerFire_of_reached ha hr rfl, fun ht hst hb ho hu => budgetOverrun_of_over rfl ht hst hb ho hu rfl,
    fun hw => ⟨fun ha => ⟨?_, ?_⟩, fun ha hd => ⟨?_, ?_⟩, fun ha hd => ⟨?_, ?_⟩⟩, fun hw => ?_⟩
  · exact (taskPreempt_of_drained hl ht hd (.inl hst) rfl).to (if_neg (by rw [hst]; decide))
  · exact (taskPreempt_of_drained hl ht hd (.inr hst) rfl).to (if_pos hst)
  · have areas := s.updThr_areas k fun x => { x with staged := some task.val }
    exact ⟨_, (stagingLoad_of_stageFor h).trans (congrArg Host.Outcome.next (s.closed_of_out _ areas.out)), thr_updThr .., fun j hj =>
      thr_updThr_ne _ _ _ _ hj, areas⟩
  · exact (activate_of_mayWrite hw).to (dspRun_of_denied (task_named 1) ha)
  · exact (cancel_of_mayWrite hw).to (dspRun_of_denied (task_named 2) ha)
  · exact (activate_of_mayWrite hw).to (dspRun_of_disabled (task_named 1) ha (.inl activates) hd)
  · exact (cancel_of_mayWrite hw).to (dspRun_of_disabled (task_named 2) ha (.inr cancels) hd)
  · exact (activate_of_mayWrite hw).to (dspRun_activate (task_named 1) ha activates hd)
  · have gives := (cancel_of_mayWrite hw).to (dspRun_cancel (task_named 2) ha cancels hd)
    have areas : s.OnlyChanges ((s.cancelWakes n).dspResult c.val (putFld val 31 28 10) 0) [.regs, .clu] :=
      (updTask_areas ..).within |>.andThen (dspResult_areas ..)
    refine ⟨_, gives.trans (congrArg Host.Outcome.next (s.closed_of_out _ areas.out)), ?_, fun j hj => ?_, reg_dspResult_status .., ?_, areas⟩
    · exact (task_dspResult ..).trans (task_setTask ..)
    · exact (task_dspResult ..).trans (task_setTask_ne _ _ _ _ hj)
    · exact dspResult_stays (s.cancelWakes n) c.val (putFld val 31 28 10) 0
  · exact snapshots_of_writes (congrArg (done s) (if_pos hw)) (cluTcbData_inj c.val) (cluTcbSel_not_data c.val)

end Sys2Proof.Machine
end

/-!
SUPPORT. LOCK and UNLOCK (R287-R291): what the issue of an instruction and the stores that it makes visible leave of the locks, and what a request and
a release give by the holder and the queue of the lock.
-/
section
namespace Sys2Proof.Machine
open State

/-! ## What an issue leaves of the locks -/

/-- The registers of a cluster that an issue writes lie below those of the locks. -/
theorem below_locks_of_mem_issueRegs {k a : Nat} (h : a ∈ issueRegs k) : a < 0x100000 ∨ a % 0x10000 < 0x2000 := by
  simp only [issueRegs, List.mem_append, List.mem_cons, List.not_mem_nil, or_false] at h
  rcases h with (h | h) | rfl | rfl | rfl | rfl | rfl
  · obtain ⟨i, hi, h⟩ := counterRegs_form _ _ _ h
    unfold Reg.CLU_PMU_CTR_CFG at h
    omega
  · obtain ⟨i, hi, h⟩ := counterRegs_form _ _ _ h
    unfold Reg.PMU_CTR_CFG at h
    omega
  · unfold Reg.CLU_PMU_SMP_WR; omega
  · unfold Reg.CLU_PMU_SMP_RD; omega
  · unfold Reg.CLU_PMU_SMP_DROP; omega
  · decide
  · decide

/-- A register of a cluster at or above those of the locks is none that an issue writes. -/
theorem lockReg_not_issued {a : Nat} (k : Nat) (ha : 0x100000 ≤ a ∧ 0x2000 ≤ a % 0x10000) : regKey a ∉ (issueRegs k).map regKey := by
  intro h
  obtain ⟨b, hb, e⟩ := List.mem_map.1 h
  have := below_locks_of_mem_issueRegs hb
  unfold regKey at e
  split at e <;> split at e <;> omega

/-- The numbers of the global locks (R287). -/
theorem lt_of_lockName {c n : Nat} {w : Word} (h : lockName c w = some (true, n)) : n < 256 := by
  unfold lockName at h
  split at h
  · cases h
  · split at h
    · split at h <;> cases h
    · cases h
      exact Nat.mod_lt _ (by decide)
    · cases h

section
variable {s u : State} {k : Nat} (h : s.Near u k)
include h

theorem State.Near.lock (glob : Bool) (n : Nat) : u.lock glob n = s.lock glob n := by rw [h.same]; rfl

theorem State.Near.task (n : Nat) : u.task n = s.task n := by rw [h.same]; rfl

theorem State.Near.lockMask {glob : Bool} {n : Nat} (hn : glob = true → n < 256) : u.lockMask glob n = s.lockMask glob n := by
  unfold State.lockMask
  split
  · next hg => exact h.stay _ (lockReg_not_issued k (by have := hn hg; unfold Reg.CLU_LCK_GCFG; omega))
  · exact h.stay _ (lockReg_not_issued k (by unfold Reg.CLU_LCK_LCFG; omega))

end

theorem State.agentOf_counted (s : State) (t : ThreadId) : (s.counted t 1).agentOf (tidNat t) = s.agentOf (tidNat t) := by
  unfold State.agentOf
  rw [s.counted_thr]

theorem State.taskOn_counted (s : State) (t : ThreadId) : (s.counted t 1).taskOn (tidNat t) = s.taskOn (tidNat t) := by
  unfold State.taskOn
  rw [s.counted_thr]

/-! ## What the stores of a thread leave when they become visible (R286) -/

/-- Whether u is s with other bytes in the SRAM of the clusters. -/
def State.SramOnly (s u : State) : Prop := u = { s with clu := { s.clu with sram := u.clu.sram, sramBad := u.clu.sramBad } }

theorem State.SramOnly.trans {s t u : State} (h : s.SramOnly t) (h2 : t.SramOnly u) : s.SramOnly u := by
  unfold State.SramOnly at *
  rw [h2, h]

theorem State.SramOnly.foldl {α : Type} {f : State → α → State} (hf : ∀ x a, State.SramOnly x (f x a)) (l : List α) (s : State) :
    s.SramOnly (l.foldl f s) := by
  induction l generalizing s with
  | nil => rfl
  | cons a l ih => exact (hf s a).trans (ih (f s a))

theorem State.sramWrite_sramOnly (s : State) (b : BufStore) : s.SramOnly (s.sramWrite b) := by
  unfold State.sramWrite
  refine .foldl ?_ _ s
  exact fun _ _ => rfl

section
variable (s : State) (k : Nat)

/-- The buffer of the thread is empty; its cluster's SRAM holds its stores, and nothing else has changed. -/
theorem State.drainStores_eq : ∃ x, s.SramOnly x ∧ s.drainStores k = x.updThr k fun t => { t with sb := [] } :=
  ⟨_, .foldl State.sramWrite_sramOnly _ s, rfl⟩

theorem State.thr_drainStores : (s.drainStores k).thr k = { s.thr k with sb := [] } := by
  obtain ⟨x, hx, h⟩ := s.drainStores_eq k
  rw [h, State.thr_updThr, hx]
  rfl

theorem State.lock_drainStores (glob : Bool) (n : Nat) : (s.drainStores k).lock glob n = s.lock glob n := by
  obtain ⟨x, hx, h⟩ := s.drainStores_eq k
  rw [h, hx]
  rfl

theorem State.agentOf_drainStores : (s.drainStores k).agentOf k = s.agentOf k := by
  unfold State.agentOf
  rw [State.thr_drainStores]

theorem State.reg_drainStores (a : Nat) : (s.drainStores k).reg a = s.reg a :=
  congrArg (·.get regReset (regKey a)) ((s.drainStores_areas k).2 .regs (by decide))

theorem State.thrPart_drainStores (j : Nat) : (s.drainStores k).thrPart j = s.thrPart j := by
  unfold State.thrPart State.tilePart State.rf
  rw [State.reg_drainStores]

theorem State.lockMask_drainStores (glob : Bool) (n : Nat) : (s.drainStores k).lockMask glob n = s.lockMask glob n := by
  unfold State.lockMask
  rw [State.reg_drainStores, State.reg_drainStores]

end

/-! ## Requests and releases (R288, R289, R291) -/

theorem State.lock_setLock (s : State) (glob : Bool) (n : Nat) (l : Lock) : (s.setLock glob n l).lock glob n = l := by
  cases glob
  · exact State.llock_setLlock ..
  · exact State.glock_setGlock ..

theorem State.thr_setLock (s : State) (glob : Bool) (n j : Nat) (l : Lock) : (s.setLock glob n l).thr j = s.thr j := by
  cases glob <;> rfl

theorem State.RegsOnly.lock {s u : State} (h : s.RegsOnly u) (glob : Bool) (n : Nat) : u.lock glob n = s.lock glob n := by
  unfold State.lock State.glock State.llock
  rw [h.fields.1]

theorem State.lock_grantLock (s : State) (glob : Bool) (n : Nat) (a : Agent) :
    (s.grantLock glob n a).lock glob n = { s.lock glob n with holder := some a } :=
  ((((inc_regsOnly _ _).trans (pmuClu_regsOnly ..)).lock glob n).trans (State.lock_setLock ..) :)

section
variable {s : State} {glob : Bool} {n part : Nat} {a : Agent} (hm : tbit (s.lockMask glob n) part = true)
include hm

/-- A free lock with no queue is granted. -/
theorem State.requestLock_of_free (hh : (s.lock glob n).holder = none) (hq : (s.lock glob n).queue = []) (try_ : Bool) :
    s.requestLock glob n a part try_ = (some (grantStatus (s.lock glob n)), s.grantLock glob n a) := by
  simp [State.requestLock, hm, hh, hq]

/-- A queued request for a lock that another agent holds joins its queue, last. -/
theorem State.requestLock_of_held (hh : (s.lock glob n).holder.isSome = true) (ha : (s.lock glob n).holder ≠ some a) :
    s.requestLock glob n a part false = (none, s.setLock glob n { s.lock glob n with queue := (s.lock glob n).queue ++ [a] }) := by
  have held : (s.lock glob n).holder ≠ none := Option.isSome_iff_ne_none.1 hh
  simp [State.requestLock, hm, ha, held]

/-- The holder of a lock that is not STUCK releases it. -/
theorem State.releaseLock_of_holder (hh : (s.lock glob n).holder = some a) (hs : (s.lock glob n).stuck = false) :
    s.releaseLock glob n a part = (0, (s.setLock glob n { s.lock glob n with abandoned := false }).passLock glob n) := by
  simp [State.releaseLock, hm, hh, hs]

end

/-! ## LOCK and UNLOCK -/

/-- s with thread k WAITING for a lock since now, and its agent last in the queue of the lock (R209, R289). -/
def State.queuedFor (s : State) (k : Nat) (ga : Fin 8) (glob : Bool) (n : Nat) : State :=
  (s.setLock glob n { s.lock glob n with queue := (s.lock glob n).queue ++ [s.agentOf k] }).updThr k fun th =>
    { th with st := .waiting, wait := some { what := .lock (if glob then 1 else 0) n, ga := ga.val, since := s.up } }

/-- An agent that does not give its thread away waits on it (R209, R269). -/
theorem State.startWait_of_kept {s y : State} {k : Nat} {what : WaitFor} {ga : Fin 8} {q : State → State}
    (hrel : ((s.thr k).task.isSome && tbit (s.task (s.taskOn k)).w0 16) = false) (hq : q s = y) :
    s.startWait k what ga q =
      .wait (y.updThr k fun th => { th with st := .waiting, wait := some { what := what, ga := ga.val, since := s.up } }) := by
  subst hq
  exact if_neg (by rw [hrel]; decide)

/-- A thread that waits has its next words fetched, and is else as the effect of its instruction left it. -/
theorem State.thr_finishInstr_wait (s x : State) (k len : Nat) (iw : PWord) : (State.finishInstr s k len iw (.wait x)).thr k =
    { x.thr k with
      fetched := some (s.pmemAt k ((x.thr k).ctx.advance len).pc, s.pmemAt k (((x.thr k).ctx.advance len).pc + 1))
      stall := none } := State.thr_updThr ..

/-- The answer of an instruction that waits: what its thread and the locks are. -/
theorem waits_of_wait {s x : State} {t : ThreadId} {i : Instr} {ds : List Dest} {act : State → Eff}
    (he : exec i s = done s (s.issue t i 1 ds none act)) (ha : act (s.counted t 1) = .wait x) (hi : s.issues t i ds = true) :
    ∃ u, exec i s = .next u ∧ (u.thr (tidNat t)).st = (x.thr (tidNat t)).st ∧ (u.thr (tidNat t)).ctx = (x.thr (tidNat t)).ctx ∧
      ∀ glob n, u.lock glob n = x.lock glob n := by
  have waits := s.thr_finishInstr_wait x (tidNat t) 1 (s.nextWords (tidNat t)).1
  exact ⟨_, State.runs_wait s t i 1 ds act x he ha hi, (congrArg Thread.st waits :), (congrArg Thread.ctx waits :), fun _ _ => rfl⟩

section
variable {s : State} {t : ThreadId} {ga gb : Fin 8}

/-- An instruction that finds no lock by the name in Gb writes status 12 and does nothing else. -/
theorem runsTo_noLock {i : Instr} {ds : List Dest} {act : State → Eff} (hname : lockName (tidNat t / 128) (s.gOf (tidNat t) gb) = none)
    (he : exec i s = done s (s.issue t i 1 ds none act))
    (ha : ∀ x : State, lockName (tidNat t / 128) (x.gOf (tidNat t) gb) = none → act x = .next (x.setG (tidNat t) ga 12#32)) :
    s.RunsTo t i ds (s.onCtx t 1 fun c => { c with g := c.g.set ga.val 12#32 }) := by
  refine State.runsTo_next s t _ 1 _ _ ((s.counted t 1).setG (tidNat t) ga 12#32) _ _ he (ha _ ((s.gOf_counted t gb).symm ▸ hname))
    ((s.counted_near t).trans (State.updCtx_near ..)) ?_ fun hc => (s.countIssue_quiet _ _ _ hc).trans ⟨rfl, rfl, rfl⟩
  rw [State.setG, State.thr_updCtx, s.counted_thr]

variable {glob : Bool} {n : Nat} (hname : lockName (tidNat t / 128) (s.gOf (tidNat t) gb) = some (glob, n))
  (hm : tbit (s.lockMask glob n) (s.thrPart (tidNat t)) = true)
include hname hm

/-- The mask of the lock admits the thread's partition after the issue has been counted too. -/
theorem State.mask_counted : tbit ((s.counted t 1).lockMask glob n) ((s.counted t 1).thrPart (tidNat t)) = true := by
  rw [(s.counted_near t).lockMask fun h => lt_of_lockName (h ▸ hname), (s.counted_near t).thrPart]
  exact hm

/-- LOCK of a free lock with no queue (R288). -/
theorem lock_of_free (hh : (s.lock glob n).holder = none) (hq : (s.lock glob n).queue = []) :
    s.RunsAs t (.lock t ga gb) [.g ga, .g gb]
      ((((s.counted t 1).grantLock glob n (s.agentOf (tidNat t))).setG (tidNat t) ga
        (BitVec.ofNat 32 (grantStatus (s.lock glob n)))).fellThrough t 1) := by
  have same : (s.counted t 1).lock glob n = s.lock glob n := (s.counted_near t).lock glob n
  refine s.runsAs_next t _ 1 _ _ _ rfl ?_
  rw [s.gOf_counted, hname]
  dsimp only
  rw [requestLock_of_free (mask_counted hname hm) (same ▸ hh) (same ▸ hq), s.agentOf_counted, same]

/-- LOCK of a lock that another agent holds, by a thread that may wait and keeps its task (R289). -/
theorem lock_of_held (hh : (s.lock glob n).holder.isSome = true) (ha : (s.lock glob n).holder ≠ some (s.agentOf (tidNat t)))
    (hb : s.thrBound (tidNat t) = false)
    (hrel : ((s.thr (tidNat t)).task.isSome && tbit (s.task (s.taskOn (tidNat t))).w0 16) = false)
    (hi : s.issues t (.lock t ga gb) [.g ga, .g gb] = true) :
    ∃ u, exec (.lock t ga gb) s = .next u ∧ (u.thr (tidNat t)).st = .waiting ∧ (u.thr (tidNat t)).ctx = (s.thr (tidNat t)).ctx ∧
      u.lock glob n = { s.lock glob n with queue := (s.lock glob n).queue ++ [s.agentOf (tidNat t)] } := by
  have same : (s.counted t 1).lock glob n = s.lock glob n := (s.counted_near t).lock glob n
  have joins := requestLock_of_held (mask_counted hname hm) (a := s.agentOf (tidNat t)) (same ▸ hh) (same ▸ ha)
  have stays : (((s.counted t 1).thr (tidNat t)).task.isSome && tbit ((s.counted t 1).task ((s.counted t 1).taskOn (tidNat t))).w0 16) = false := by
    rw [s.taskOn_counted, (s.counted_near t).task, s.counted_thr]
    exact hrel
  obtain ⟨u, hu, hst, hctx, hlock⟩ := waits_of_wait (s := s) (i := .lock t ga gb) (x := (s.counted t 1).queuedFor (tidNat t) ga glob n) rfl (by
    rw [s.gOf_counted, hname]
    dsimp only
    rw [State.neverWaits, s.thrBound_counted, hb, s.agentOf_counted, joins]
    exact startWait_of_kept stays (by rw [s.agentOf_counted, joins])) hi
  refine ⟨u, hu, hst.trans (congrArg Thread.st (State.thr_updThr ..)), hctx.trans ?_, (hlock glob n).trans ?_⟩
  · rw [State.queuedFor, State.thr_updThr, State.thr_setLock]
    exact State.countIssue_ctx ..
  · exact (State.lock_setLock ..).trans (by rw [same, s.agentOf_counted])

/-- UNLOCK by the holder (R286, R291). -/
theorem unlock_of_holder (hh : (s.lock glob n).holder = some (s.agentOf (tidNat t))) (hs : (s.lock glob n).stuck = false) :
    s.RunsAs t (.unlock t ga gb) [.g ga, .g gb] ((((((s.counted t 1).drainStores (tidNat t)).setLock glob n
      { s.lock glob n with abandoned := false }).passLock glob n).setG (tidNat t) ga 0).fellThrough t 1) := by
  have same : ((s.counted t 1).drainStores (tidNat t)).lock glob n = s.lock glob n :=
    (State.lock_drainStores ..).trans ((s.counted_near t).lock glob n)
  have masked : tbit (((s.counted t 1).drainStores (tidNat t)).lockMask glob n) ((s.counted t 1).thrPart (tidNat t)) = true := by
    rw [State.lockMask_drainStores]
    exact mask_counted hname hm
  have gives := releaseLock_of_holder masked ((congrArg Lock.holder same).trans hh) ((congrArg Lock.stuck same).trans hs)
  refine s.runsAs_next t _ 1 _ _ _ rfl ?_
  dsimp only
  rw [s.gOf_counted, hname]
  dsimp only
  rw [State.agentOf_drainStores, s.agentOf_counted, State.thrPart_drainStores, gives, same]
  rfl

end

/-- Settles O13: LOCK and UNLOCK by what the name in Gb and the holder of the lock are once the issue has been counted. -/
theorem lockInstructionsComplete : Obligations.LockInstructionsComplete := by
  unfold Obligations.LockInstructionsComplete
  intro s t ga gb glob n k y d a
  refine ⟨fun hname => ⟨?_, ?_⟩, fun hname hm => ⟨fun hh hq => ⟨?_, ?_⟩, fun hh ha hb hrel hi => ?_, fun hh hs => ?_⟩⟩
  · exact runsTo_noLock hname rfl fun x hx => by rw [hx]; rfl
  · exact runsTo_noLock hname rfl fun x hx => by rw [hx]; rfl
  · exact lock_of_free hname hm hh hq
  · rw [State.lock_grantLock]
  · obtain ⟨u, hu, hst, hctx, hlock⟩ := lock_of_held hname hm hh ha hb hrel hi
    exact ⟨u, hu, hst, hctx, congrArg Lock.queue hlock, (congrArg Lock.holder hlock :)⟩
  · exact unlock_of_holder hname hm hh hs

end Sys2Proof.Machine
end

/-!
SUPPORT. Mailboxes (R293-R295) and the try that a read of a lock is (R289): what a write, a post and a take of a mailbox leave, by the side that the
accessor stands on.
-/
section
namespace Sys2Proof.Machine
open State

/-- A command whose one message is the answer of a read gives its state as it is. -/
theorem State.Gives.read {s x : State} {c : Instr} {off : Nat} {v : Word} (h : s.Gives c (x.emit (.readData off v))) (ho : x.out = s.out) :
    exec c s = .next (x.emit (.readData off v)) := h.trans (congrArg Host.Outcome.next (closed_emit_readData ho off v))

/-! ## Writes, posts and takes -/

section
variable {s : State} {who : Accessor} {c m : Nat}

theorem setIfInBounds_fin (v : Vector Word 4) (w : Fin 4) (x : Word) : v.setIfInBounds w.val x = v.set w.val x := by
  simp [Vector.setIfInBounds, Vector.set, Array.setIfInBounds]

/-- A write by the sending side of a mailbox that it reaches has its effect. -/
theorem State.mbWrite_of_sends (hen : s.mbEn c m = true) (hr : s.mbReach who c m = true) (hs : s.mbSends who c m = true) (f : State → State) :
    s.mbWrite who c m f = f s := by
  simp [State.mbWrite, hen, hr, hs]

/-- The stores that a post by another than a thread makes visible: none. -/
theorem State.releaseBy_of_no_thread (h : ∀ t, who ≠ .thread t) : s.releaseBy who = s := by
  unfold State.releaseBy
  split
  · exact absurd rfl (h _)
  · rfl

/-- A message that arrives at an empty mailbox and wakes no task. -/
theorem State.mbArrive_of_empty (hf : (s.mbox m).full = false) (ht : s.tasksOfSource c 4 m = []) (ws : Vector Word 4) (wakes : Bool) :
    s.mbArrive c m ws wakes = s.setMbox m { s.mbox m with msg := ws, mseq := (s.mbox m).mseq + 1, full := true } := by
  have wakesNone (b : Mailbox) : (s.setMbox m b).wakeSource c 4 m causeMbox (BitVec.ofNat 32 m) = s.setMbox m b := by
    have none : (s.setMbox m b).tasksOfSource c 4 m = [] := ht
    rw [State.wakeSource, none]
    rfl
  simp [State.mbArrive, hf, wakesNone]

/-- A command that replaces one mailbox. -/
theorem done_setMbox (s : State) (m : Nat) (b : Mailbox) : ∃ u, done s (s.setMbox m b) = .next u ∧ u.mbox m = b ∧
    (∀ j, j ≠ m → u.mbox j = s.mbox j) ∧ s.OnlyChanges u [.clu] :=
  ⟨_, congrArg Host.Outcome.next (s.closed_of_out _ rfl), s.mbox_setMbox m b, fun j hj => s.mbox_setMbox_ne m j b hj, s.setMbox_areas m b⟩

theorem State.mbTakeNow_of_full (h : (s.mbox m).full = true) :
    s.mbTakeNow m = s.setMbox m { s.mbox m with take := (s.mbox m).msg, full := false, coll := false } := if_pos h

theorem State.mbTakeNow_of_empty (h : (s.mbox m).full = false) : s.mbTakeNow m = s := if_neg (by rw [h]; decide)

theorem State.mbox_mbTakeNow_ne {j : Nat} (hj : j ≠ m) : (s.mbTakeNow m).mbox j = s.mbox j := by
  cases h : (s.mbox m).full
  · rw [mbTakeNow_of_empty h]
  · rw [mbTakeNow_of_full h]
    exact mbox_setMbox_ne _ _ _ _ hj

end

section
variable {s : State} {who : Accessor} {c : Fin 6} {m : BitVec 8}

section
variable (hen : s.mbEn c.val m.toNat = true) (hr : s.mbReach who c.val m.toNat = true) (hs : s.mbSends who c.val m.toNat = true)
include hen hr hs

theorem mbDataWrite_of_sends (w : Fin 4) (val : Word) :
    exec (.mbDataWrite who c m w val) s = done s (s.setMbox m.toNat { s.mbox m.toNat with stage := (s.mbox m.toNat).stage.set w.val val }) := by
  refine congrArg (done s) ((mbWrite_of_sends hen hr hs _).trans ?_)
  rw [State.mbStage, setIfInBounds_fin]

theorem mbPost_of_sends (val : Word) : s.Gives (.mbPost who c m val) ((s.releaseBy who).mbPostNow c.val m.toNat val) :=
  congrArg (done s) (mbWrite_of_sends hen hr hs _)

/-- A host's post to an empty mailbox of threads, none of which it wakes. -/
theorem mbPost_of_empty (hw : ∀ t, who ≠ .thread t) (hm : m.toNat < 128) (hf : (s.mbox m.toNat).full = false)
    (ht : s.tasksOfSource c.val 4 m.toNat = []) (val : Word) :
    exec (.mbPost who c m val) s = done s (s.setMbox m.toNat { s.mbox m.toNat with
      msg := mailWords (s.mbox m.toNat).stage (fld val 1 0 + 1), mseq := (s.mbox m.toNat).mseq + 1, full := true }) := by
  refine (mbPost_of_sends hen hr hs val).trans (congrArg (done s) ?_)
  rw [releaseBy_of_no_thread hw]
  exact (if_pos hm).trans (mbArrive_of_empty hf ht _ _)

end

theorem mbTake_of_sends (hr : s.mbReach who c.val m.toNat = true) (hs : s.mbSends who c.val m.toNat = true) :
    s.Gives (.mbTake who c m) (s.emit (.readData (Reg.MB_TAKE c.val (m.toNat % 128)) 0)) :=
  congrArg (done s) ((if_pos hr).trans (if_pos hs))

theorem mbTake_of_receives (hr : s.mbReach who c.val m.toNat = true) (hs : s.mbSends who c.val m.toNat = false) :
    s.Gives (.mbTake who c m)
      ((s.mbTakeNow m.toNat).emit (.readData (Reg.MB_TAKE c.val (m.toNat % 128)) (s.mbTakeWord m.toNat))) :=
  congrArg (done s) ((if_pos hr).trans (if_neg (by rw [hs]; decide)))

end

/-- The read of REQ of a lock that there is (R289). -/
theorem lockTryRead_of_lock {s : State} {t : ThreadId} {glob : Bool} {i : BitVec 8} (h : glob = true ∨ i.toNat < 64) :
    s.Gives (.lockTryRead t glob i) ((s.lockTry (tidNat t) glob i.toNat).2.emit
      (.readData (lockReqAddr glob i.toNat) (s.lockTry (tidNat t) glob i.toNat).1)) := by
  refine congrArg (done s) (if_neg ?_)
  rcases h with rfl | h
  · simp
  · simp [h]

/-- Settles O36: each command of a mailbox by the side that its accessor stands on, and the try that a read of a lock is. -/
theorem mailboxAndLockTryCommandsComplete : Obligations.MailboxAndLockTryCommandsComplete := by
  unfold Obligations.MailboxAndLockTryCommandsComplete
  intro s who c m w val t glob i b off
  refine ⟨fun hen hr hs => ⟨?_, fun hw hm hf hd ht => ?_, mbPost_of_sends hen hr hs val, mbTake_of_sends hr hs⟩, fun hr hs => ?_,
    lockTryRead_of_lock⟩
  · rw [mbDataWrite_of_sends hen hr hs]
    exact done_setMbox ..
  · rw [mbPost_of_empty hen hr hs hw hm hf ht]
    exact done_setMbox ..
  · have areas := s.mbTakeNow_areas m.toNat
    refine ⟨_, (mbTake_of_receives hr hs).read areas.out, congrArg (_ :: ·) areas.out, fun hf => ?_, fun hf => ?_, fun j hj => ?_,
      areas.within |>.andThen (emit_areas ..)⟩
    · exact (congrArg (·.mbox m.toNat) (mbTakeNow_of_full hf)).trans (mbox_setMbox ..)
    · exact (congrArg State.clu (mbTakeNow_of_empty hf) :)
    · exact mbox_mbTakeNow_ne hj

end Sys2Proof.Machine
end

/-!
SUPPORT. The commands of the voter (R301-R309, R320): which branch of its meaning a command takes, and what the take of a disagreement record
leaves.
-/
section
namespace Sys2Proof.Machine
open State

/-! ## VPOST (R301) -/

/-- VPOST of a pooled task posts the word of Gs with the marks of its thread, once its stores are visible. -/
theorem vpost_of_pooled {s : State} {t : ThreadId} {gs : Fin 8} {i : Nat} (h : (s.thr (tidNat t)).task = some i) :
    s.RunsAs t (.vpost t gs) [.g gs] ((((s.counted t 1).drainStores (tidNat t)).postVote (tidNat t / 128) i (s.gOf (tidNat t) gs)
      (s.thr (tidNat t)).ctx.taint (s.thr (tidNat t)).ctx.mark).fellThrough t 1) := by
  refine s.runsAs_next t _ 1 _ _ _ (exec_of_role rfl (by rw [h]; rfl)) ?_
  rw [s.gOf_counted, s.counted_thr, h]
  rfl

/-! ## Votes of the partner (R302, R428) -/

/-- s with the vote cell number seq taken and counted. -/
def State.voteTaken (s : State) (seq : BitVec 16) : State :=
  { s with pai := { s.pai with rxVote := keepSeq s.pai.rxVote seq } }.inc Reg.PAI_VOTE_RX

section
variable {s : State} {seq : BitVec 16} {ch : BitVec 8} {cl : Fin 6} {task : BitVec 10} {trip prov : Bool}

/-- A good cell that comes while the link is up and whose number is new is taken, and decided by the slots that name its task. -/
theorem pairVoteRx_of_new (hu : s.pairUp = true) (hq : seq ∉ s.pai.rxVote) :
    let y := s.voteTaken seq
    let ks := y.slotsOf ch.toNat 2 cl.val task.toNat
    s.Gives (.pairVoteRx ⟨true, seq, ch⟩ cl task trip prov)
      (if (y.vch ch.toNat).st = 2 || ks.isEmpty then y else (y.decide_ ch.toNat ks trip prov).publishChanges) := by
  have new : (s.pairUp && !s.pai.rxVote.contains seq) = true := by simp [hu, hq]
  exact congrArg (done s) (if_pos new)

end

/-! ## Reset of a latched channel (R305) -/

section
variable {s : State} {who : Accessor} {val : Word}

/-- s with RESET and its result in the command registers. -/
def State.vrmResult (s : State) (val : Word) (res : Nat) : State :=
  (s.setReg Reg.VRM_CMD (masked Reg.VRM_CMD (putFld val 31 28 1))).setReg Reg.VRM_CMD_STATUS (BitVec.ofNat 32 res)

/-- Whether a channel is TRIPPED, latched, and without enough votes that say TRIP. -/
def State.resettable (s : State) (ch : Nat) : Prop := s.tripped ch = true ∧ s.rb (Reg.VRM_CH_CFG ch) 12 = true ∧ s.chT ch < s.chKeff ch

theorem vrmReset_of_denied (hw : s.mayWrite who Reg.VRM_CMD = true) (ha : s.isAdmin who = false) :
    s.Gives (.vrmReset who val) (s.vrmResult val 5) := by
  refine congrArg (done s) ((if_pos hw).trans ?_)
  simp [ha, State.vrmResult]

theorem vrmReset_of_resettable (hw : s.mayWrite who Reg.VRM_CMD = true) (ha : s.isAdmin who = true) (hr : s.resettable (fld val 7 0)) :
    s.Gives (.vrmReset who val) ((s.untrip (fld val 7 0) 0).publishChanges.vrmResult val 0) := by
  obtain ⟨htrip, hlatch, hvotes⟩ := hr
  refine congrArg (done s) ((if_pos hw).trans ?_)
  simp [ha, htrip, hlatch, hvotes, State.vrmResult]

theorem vrmReset_of_not_resettable (hw : s.mayWrite who Reg.VRM_CMD = true) (ha : s.isAdmin who = true) (hr : ¬s.resettable (fld val 7 0)) :
    s.Gives (.vrmReset who val) (s.vrmResult val 7) := by
  refine congrArg (done s) ((if_pos hw).trans ?_)
  have rejects : ¬((s.tripped (fld val 7 0) && s.rb (Reg.VRM_CH_CFG (fld val 7 0)) 12 &&
      decide (s.chT (fld val 7 0) < s.chKeff (fld val 7 0))) = true) := by
    simpa [State.resettable, and_assoc] using hr
  dsimp only
  rw [if_neg (by rw [ha]; decide), if_neg rejects, State.vrmResult]

/-! ## Disagreement records (R307) -/

theorem State.disPop_of_nil (hq : s.vrm.disq = []) : s.disPop = (0, s) := by
  rw [State.disPop, hq]

/-- s with the oldest disagreement record taken and shown, and the others left. -/
def State.disTaken (s : State) (r : List Word) (rest : List (List Word)) : State :=
  each (List.range 5) (fun x w => x.setReg (Reg.VRM_DIS_DATA w) (wordAt r w)) { s with vrm := { s.vrm with disq := rest } }

theorem State.disPop_of_cons {r : List Word} {rest : List (List Word)} (hq : s.vrm.disq = r :: rest) :
    s.disPop = (BitVec.ofNat 32 (2147483648 + rest.length), s.disTaken r rest) := by
  rw [State.disPop, hq]
  rfl

theorem State.disTaken_vrm (s : State) (r : List Word) (rest : List (List Word)) : (s.disTaken r rest).vrm = { s.vrm with disq := rest } :=
  (each_setReg_areas _ _).2 .vrm (by decide)

theorem State.disTaken_areas (s : State) (r : List Word) (rest : List (List Word)) : s.OnlyChanges (s.disTaken r rest) [.regs, .vrm] :=
  (with_vrm ..).within |>.andThen (each_setReg_areas _ _)

theorem vrmDisData_inj : ∀ v < 5, ∀ w < 5, regKey (Reg.VRM_DIS_DATA v) = regKey (Reg.VRM_DIS_DATA w) → v = w := by decide

theorem State.disTaken_reg (s : State) (r : List Word) (rest : List (List Word)) :
    ∀ w < 5, (s.disTaken r rest).reg (Reg.VRM_DIS_DATA w) = wordAt r w := reg_each_setReg _ _ vrmDisData_inj

theorem vrmDisPop_of_mayTake {take : Word × State} (h : s.mayTake who Reg.VRM_DIS_POP = true) (ht : s.disPop = take) :
    s.Gives (.vrmDisPop who) (take.2.emit (.readData Reg.VRM_DIS_POP take.1)) := by
  subst ht
  exact congrArg (done s) (rttRead_of_mayTake h)

/-- The oldest disagreement record leaves the queue and is shown. -/
theorem vrmDisPop_of_cons {r : List Word} {rest : List (List Word)} (h : s.mayTake who Reg.VRM_DIS_POP = true) (hq : s.vrm.disq = r :: rest) :
    ∃ u, exec (.vrmDisPop who) s = .next u ∧ u.vrm = { s.vrm with disq := rest } ∧ (∀ w, w < 5 → u.reg (Reg.VRM_DIS_DATA w) = wordAt r w) ∧
      u.out = .readData Reg.VRM_DIS_POP (BitVec.ofNat 32 (2147483648 + rest.length)) :: s.out ∧ s.OnlyChanges u [.regs, .vrm, .out] := by
  have areas := s.disTaken_areas r rest
  have answers : exec (.vrmDisPop who) s = .next ((s.disTaken r rest).emit (.readData Reg.VRM_DIS_POP _)) :=
    (vrmDisPop_of_mayTake h (disPop_of_cons hq)).read areas.out
  exact ⟨_, answers, s.disTaken_vrm r rest, s.disTaken_reg r rest, congrArg (_ :: ·) areas.out, areas.within |>.andThen (emit_areas ..)⟩

/-! ## Publications (R309, R320) -/

/-- A publication whose interval has passed goes out again (R309). -/
theorem pcbRetransmit_of_due {b : BitVec 9} {p : Pcb} (hp : s.pcb b.toNat = p) (hen : p.en = true) (hi : p.interval ≠ 0)
    (hdue : p.lastAt + p.interval ≤ s.up) (hl : s.lanesAsk = false) :
    s.Gives (.pcbRetransmit b)
      ((s.setPcb b.toNat { p with sqNum := nextSq p.sqNum, lastAt := s.up, interval := min (2 * p.interval) p.rtMax }).publish b.toNat s.up) := by
  subst hp
  refine congrArg (done s) ?_
  simp [hen, hi, hdue, hl, State.updPcb, Nat.min_def]

theorem vrmPcbData_inj : ∀ v < 16, ∀ w < 16, regKey (Reg.VRM_PCB_DATA v) = regKey (Reg.VRM_PCB_DATA w) → v = w := by decide

end

/-- Settles O37: each command by the branch that what it finds selects. -/
theorem voterCommandsComplete : Obligations.VoterCommandsComplete := by
  unfold Obligations.VoterCommandsComplete
  intro s who t gs ch cl task trip prov seq val b k x y ks n e p
  refine ⟨fun i h => vpost_of_pooled h, fun hu hq hst hks => ?_, fun hu hq h => ?_, rfl, fun hw => ⟨?_, ?_, ?_⟩, fun hm => ⟨?_, ?_⟩, ?_,
    fun hw => ?_⟩
  · exact (pairVoteRx_of_new hu hq).to (if_neg (by simpa using ⟨hst, hks⟩))
  · exact (pairVoteRx_of_new hu hq).to (if_pos (Bool.or_eq_true_iff.2 (h.imp decide_eq_true List.isEmpty_iff.2)))
  · exact fun ha => vrmReset_of_denied hw ha
  · exact fun ha htrip hlatch hvotes => vrmReset_of_resettable hw ha ⟨htrip, hlatch, hvotes⟩
  · exact fun ha hr => vrmReset_of_not_resettable hw ha hr
  · exact fun hq => vrmDisPop_of_mayTake hm (disPop_of_nil hq)
  · exact fun r rest hq => vrmDisPop_of_cons hm hq
  · exact fun hen hi hdue hl => pcbRetransmit_of_due rfl hen hi hdue hl
  · exact snapshots_of_writes (congrArg (done s) (if_pos hw)) vrmPcbData_inj (by decide)

end Sys2Proof.Machine
end

section
/-!
SUPPORT. The vote (R304, R305): what a trip leaves of the channels and of their registers, and when a channel is blocked.
-/
namespace Sys2Proof.Machine
open State

-- One declaration after the other: the proofs would else hold a thread and its stack each.
set_option Elab.async false

/-! ## What leaves the channels of Vermilion -/

/-- Whether t has the channels of s, and their registers but VRM_STATUS. -/
structure State.KeepsVotes (s t : State) : Prop where
  chans : t.vrm.chans = s.vrm.chans
  regs : ∀ a, 0x11004 ≤ a → a < 0x14000 → t.reg a = s.reg a

namespace State.KeepsVotes

theorem refl (s : State) : s.KeepsVotes s := ⟨rfl, fun _ _ _ => rfl⟩

theorem trans {s t u : State} (h : s.KeepsVotes t) (h2 : t.KeepsVotes u) : s.KeepsVotes u :=
  ⟨h2.chans.trans h.chans, fun a lo hi => (h2.regs a lo hi).trans (h.regs a lo hi)⟩

theorem ite {s t u : State} {c : Prop} [Decidable c] (h : s.KeepsVotes t) (h2 : s.KeepsVotes u) : s.KeepsVotes (if c then t else u) := by
  split <;> assumption

theorem each {α : Type} {s t : State} {xs : List α} {f : State → α → State} (h : s.KeepsVotes t) (hf : ∀ x a, KeepsVotes x (f x a)) :
    s.KeepsVotes (Machine.each xs f t) := each_inv xs f (fun x => s.KeepsVotes x) (fun x a hx => hx.trans (hf x a)) t h

/-- What writes no register and no channel. -/
theorem of_regs {s t : State} (hv : t.vrm.chans = s.vrm.chans) (hr : t.regs = s.regs) : s.KeepsVotes t :=
  ⟨hv, fun a _ _ => s.stays_of_regs hr [] a (List.not_mem_nil)⟩

/-- What writes no channel, and of registers only those outside the pages of the voter. -/
theorem of_stays {s t : State} {l : List Nat} (hv : t.vrm = s.vrm) (h : s.RegsStay t l) (hl : ∀ a ∈ l, a < 0x11004 ∨ 0x14000 ≤ a) :
    s.KeepsVotes t := by
  refine ⟨by rw [hv], fun a lo hi => h a fun hm => ?_⟩
  obtain ⟨b, hb, e⟩ := List.mem_map.1 hm
  have := hl b hb
  unfold regKey at e
  split at e <;> split at e <;> omega

/-- What touches one thread and the counters of issues alone. -/
theorem of_near {s t : State} {k : Nat} (h : s.Near t k) : s.KeepsVotes t :=
  ⟨by rw [h.same], fun _ _ hi => h.reg_below (by omega)⟩

theorem vch {s t : State} (h : s.KeepsVotes t) (ch : Nat) : t.vch ch = s.vch ch := by rw [State.vch, h.chans, State.vch]

end State.KeepsVotes

theorem State.setReg_keepsVotes {s : State} {a : Nat} {v : Word} (h : a < 0x11004 ∨ 0x14000 ≤ a) : s.KeepsVotes (s.setReg a v) :=
  .of_stays rfl (s.setReg_stays a v [a] (List.mem_singleton_self a)) (by simpa using h)

theorem State.inc_keepsVotes {s : State} {a : Nat} (h : a < 0x11004 ∨ 0x14000 ≤ a := by decide) : s.KeepsVotes (s.inc a) := setReg_keepsVotes h

theorem outside_votes_of_mem_eventRegs : ∀ a ∈ eventRegs, a < 0x11004 ∨ 0x14000 ≤ a := by decide

theorem State.sqc_keepsVotes {s : State} {off bit e : Nat} (h : off < 0x11004 ∨ 0x14000 ≤ off := by decide) : s.KeepsVotes (s.sqc off bit e) :=
  .of_stays ((s.sqc_areas off bit e).2 .vrm (by decide)) (s.sqc_stays off bit e)
    (List.forall_mem_cons.2 ⟨h, outside_votes_of_mem_eventRegs⟩)

theorem State.dramWrite_keepsVotes (s : State) (a : Nat) (bs : List Byte) : s.KeepsVotes (s.dramWrite a bs) := .of_near (dramWrite_near a bs s 0)

theorem State.pmuDram_keepsVotes (s : State) (ev a n : Nat) (m : Option Nat) : s.KeepsVotes (s.pmuDram ev a n m) :=
  (KeepsVotes.refl s).each fun x _ => .of_near (x.pmuFab_near _ _ _ 0)

theorem State.with_vrm_keepsVotes (s : State) {v : Voter} (h : v.chans = s.vrm.chans) : s.KeepsVotes { s with vrm := v } := .of_regs h rfl

theorem State.with_ddr_keepsVotes (s : State) (v : Dram) : s.KeepsVotes { s with ddr := v } := .of_regs rfl rfl

/-- An event of the voter's neighbours that is counted and shown. -/
theorem State.counted_sqc_keepsVotes (s : State) {a off bit e : Nat} (h : a < 0x11004 ∨ 0x14000 ≤ a := by decide)
    (h2 : off < 0x11004 ∨ 0x14000 ≤ off := by decide) : s.KeepsVotes ((s.inc a).sqc off bit e) := (inc_keepsVotes h).trans (sqc_keepsVotes h2)

/-! ## The sequence of events -/

theorem State.ringPut_keepsVotes {s : State} {r : Ring} (bs : List Byte) (hw : r.wr < 0x11004 ∨ 0x14000 ≤ r.wr)
    (hr : r.rd < 0x11004 ∨ 0x14000 ≤ r.rd) (hl : ∀ x : State, x.KeepsVotes (r.lost x)) : s.KeepsVotes (s.ringPut r bs) := by
  have store : s.KeepsVotes (s.ringStore r bs) := ((dramWrite_keepsVotes ..).trans (setReg_keepsVotes hw)).trans (pmuDram_keepsVotes ..)
  have take : s.KeepsVotes (s.ringTake r bs) := (inc_keepsVotes).ite (store.ite (((store.trans (setReg_keepsVotes hr)).trans (hl _)).ite (hl s)))
  exact (KeepsVotes.refl s).ite (take.ite ((hl s).ite (with_ddr_keepsVotes ..)))

theorem State.soe_keepsVotes (s : State) (kind idx : Nat) (level chat ended prov : Bool) (t : Nat) :
    s.KeepsVotes (s.soe kind idx level chat ended prov t) := by
  have put (x : State) (bs : List Byte) : x.KeepsVotes (x.ringPut x.soeRing bs) :=
    ringPut_keepsVotes bs (show Reg.FIO_SOE_WR < 0x11004 ∨ 0x14000 ≤ Reg.FIO_SOE_WR by decide)
      (show Reg.FIO_SOE_RD < 0x11004 ∨ 0x14000 ≤ Reg.FIO_SOE_RD by decide) fun y => y.counted_sqc_keepsVotes
  unfold State.soe
  extract_lets b v s1
  have numbered : s.KeepsVotes s1 := s.with_vrm_keepsVotes rfl
  exact (numbered.trans (put s1 _)).ite (.refl s)

/-! ## Disturbance records -/

theorem State.recCell_keepsVotes (s : State) (r i g : Nat) (w : Word) (j : RecJob) : s.KeepsVotes (s.recCell r i g w j) := by
  unfold State.recCell
  split
  · exact (dramWrite_keepsVotes ..).trans (pmuDram_keepsVotes ..)
  · exact .refl s

theorem State.putHeader_keepsVotes (s : State) (r : Nat) (b : Bool) : s.KeepsVotes (s.putHeader r b) := by
  unfold State.putHeader
  split
  · exact (dramWrite_keepsVotes ..).trans (pmuDram_keepsVotes ..)
  · exact .refl s

theorem State.recStart_keepsVotes (s : State) (r i : Nat) (j : RecJob) : s.KeepsVotes (s.recStart r i j) := by
  refine (KeepsVotes.refl s).each fun x n => ?_
  have gap (g : Nat) : x.KeepsVotes ((x.recCell r i g 0 j).setRecSet r { job := (((x.recCell r i g 0 j).recSet r).job).map fun q => { q with gap := true } }) :=
    (x.recCell_keepsVotes r i g 0 j).trans (with_ddr_keepsVotes ..)
  exact (KeepsVotes.refl x).ite ((gap _).ite ((recCell_keepsVotes ..).ite (.refl x)))

/-- The registers of a set of records lie above the pages of the voter. -/
theorem recSetRd_outside_votes (r : Nat) : Reg.REC_SET_RD r < 0x11004 ∨ 0x14000 ≤ Reg.REC_SET_RD r := by unfold Reg.REC_SET_RD; omega

theorem State.recDrop_keepsVotes (s : State) : s.KeepsVotes s.recDrop := s.counted_sqc_keepsVotes

theorem State.recBegin_keepsVotes (s : State) (r src : Nat) : s.KeepsVotes (s.recBegin r src) := by
  unfold State.recBegin
  extract_lets n wr rd full s1 st j s2
  have room : s.KeepsVotes s1 := ((setReg_keepsVotes (recSetRd_outside_votes r)).trans (recDrop_keepsVotes _)).ite (.refl s)
  have begun : s.KeepsVotes s2 := room.trans (with_ddr_keepsVotes ..)
  exact (inc_keepsVotes).ite ((recDrop_keepsVotes s).ite ((begun.each fun x i => x.recStart_keepsVotes r i j).trans (putHeader_keepsVotes ..)))

theorem State.recTrigger_keepsVotes (s : State) (r src : Nat) : s.KeepsVotes (s.recTrigger r src) := by
  refine KeepsVotes.ite ?_ (.refl s)
  split
  · exact ((s.with_ddr_keepsVotes _).trans (putHeader_keepsVotes ..)).ite s.counted_sqc_keepsVotes
  · exact recBegin_keepsVotes ..

theorem State.recChannel_keepsVotes (s : State) (ch : Nat) : s.KeepsVotes (s.recChannel ch) :=
  (KeepsVotes.refl s).each fun x r => (x.recTrigger_keepsVotes r 1).ite (.refl x)

/-! ## Outputs -/

theorem State.updFout_keepsVotes (s : State) (o : Nat) (g : FioOut → FioOut) : s.KeepsVotes (s.updFout o g) := s.with_vrm_keepsVotes rfl

theorem State.driveOut_keepsVotes (s : State) (o : Nat) (level : Bool) : s.KeepsVotes (s.driveOut o level) :=
  (s.updFout_keepsVotes o _).ite ((s.updFout_keepsVotes o _).trans (soe_keepsVotes ..))

theorem State.assertOut_keepsVotes (s : State) (o : Nat) : s.KeepsVotes (s.assertOut o) := by
  have driven : s.KeepsVotes ((s.updFout o fun x => { x with onAt := s.up, ready := false }).driveOut o true) :=
    (s.updFout_keepsVotes o _).trans (driveOut_keepsVotes ..)
  exact driven.ite (driven.trans (sqc_keepsVotes))

theorem State.fireOut_keepsVotes (s : State) (o : Nat) : s.KeepsVotes (s.fireOut o) :=
  s.counted_sqc_keepsVotes.ite ((s.updFout_keepsVotes o _).ite (assertOut_keepsVotes ..))

/-! ## The trip of a channel (R305) -/

/-- s with channel ch TRIPPED and the trip counted: what the event, the records and the outputs of the trip start from. -/
def State.tripCounted (s : State) (ch : Nat) : State :=
  ((s.updVch ch fun c => { c with
    st := 1, hold := 0
    provTrip := (s.liveSlots ch).any fun k => ((s.vch ch).slot k).val == 2 && ((s.vch ch).slot k).prov }).inc (Reg.VRM_CH_TRIPS ch)).inc Reg.VRM_TRIPS

theorem State.trip_keepsVotes (s : State) (ch : Nat) : (s.tripCounted ch).KeepsVotes (s.trip ch) := by
  have recorded : (s.tripCounted ch).KeepsVotes ((((s.tripCounted ch).sqc Reg.VRM_STATUS 0 272).soe 2 ch true false false
      ((s.liveSlots ch).any fun k => ((s.vch ch).slot k).val == 2 && ((s.vch ch).slot k).prov) s.time).recChannel ch) :=
    ((sqc_keepsVotes).trans (soe_keepsVotes ..)).trans (recChannel_keepsVotes ..)
  exact (recorded.each fun y o => y.fireOut_keepsVotes o).ite recorded

theorem vrmChTrips_ne_vrmTrips (ch : Nat) (h : ch < 256) : regKey (Reg.VRM_CH_TRIPS ch) ≠ regKey Reg.VRM_TRIPS := by
  unfold regKey Reg.VRM_CH_TRIPS Reg.VRM_TRIPS
  split <;> split <;> omega

/-- A channel that trips is TRIPPED with hold 0, the trip is counted for it and in all, and no other channel changes. -/
theorem State.trip_spec (s : State) {ch : Nat} (hch : ch < 256) :
    ((s.trip ch).vch ch).st = 1 ∧ ((s.trip ch).vch ch).hold = 0 ∧ (s.trip ch).reg (Reg.VRM_CH_TRIPS ch) = s.reg (Reg.VRM_CH_TRIPS ch) + 1 ∧
      (s.trip ch).reg Reg.VRM_TRIPS = s.reg Reg.VRM_TRIPS + 1 ∧ ∀ j, j ≠ ch → (s.trip ch).vch j = s.vch j := by
  have keeps := s.trip_keepsVotes ch
  have apart := vrmChTrips_ne_vrmTrips ch hch
  have counted : (s.tripCounted ch).vch ch = _ := vch_setVch s ch _
  refine ⟨by rw [keeps.vch, counted], by rw [keeps.vch, counted], ?_, ?_, fun j hj => ?_⟩
  · rw [keeps.regs _ (by unfold Reg.VRM_CH_TRIPS; omega) (by unfold Reg.VRM_CH_TRIPS; omega), tripCounted, reg_inc_ne _ _ _ apart, reg_inc_same]
    rfl
  · rw [keeps.regs _ (by decide) (by decide), tripCounted, reg_inc_same, reg_inc_ne _ _ _ apart.symm]
    rfl
  · rw [keeps.vch]
    exact vch_setVch_ne _ _ _ _ hj

/-- Settles O38: the vote trips under its three conditions, and a trip is followed through its event, records and outputs. -/
theorem votingRule : Obligations.VotingRule := by
  unfold Obligations.VotingRule
  refine ⟨fun s ch hch => ⟨fun hst hb ht => ?_, fun h => ?_⟩, fun s ch => ?_⟩
  · have trips : s.vote ch = (s.judgeChan ch).trip ch := if_pos (by simp [hst, hb, ht])
    rw [trips]
    exact trip_spec _ hch
  · exact if_neg (by simpa [and_assoc] using h)
  · rw [chBlocked, Bool.or_eq_true, decide_eq_true_eq, beq_iff_eq, chH, List.length_eq_zero_iff]
    exact or_comm

end Sys2Proof.Machine
end

/-!
SUPPORT. Field I/O (R312-R319): which branch of its meaning a command of the outputs and inputs takes.
-/
section
namespace Sys2Proof.Machine
open State

-- One declaration after the other: the proofs would else hold a thread and its stack each.
set_option Elab.async false

/-! ## Outputs (R312, R314) -/

section
variable {s : State} {o : Fin 32}

theorem outputRelease_of_due (hon : (s.fout o.val).on = true) (hsafe : s.pwr.st ≠ .safe)
    (hheld : (s.votesDrive && s.tripped (s.rf (Reg.FIO_OUT_CFG o.val) 23 16)) = false)
    (hmin : (s.fout o.val).onAt + s.rf (Reg.FIO_OUT_CFG o.val) 3 0 * 10 * msU ≤ s.up) :
    s.Gives (.outputRelease o) (s.driveOut o.val false) := congrArg (done s) (if_pos (by simp [hon, hsafe, hheld, hmin]))

theorem fioArmExpire_of_due {a : Nat} (ha : (s.fout o.val).testArm = some a) (hdue : a ≤ s.up) :
    s.Gives (.fioArmExpire o) (s.setFout o.val { s.fout o.val with testArm := none }) := by
  refine congrArg (done s) ?_
  rw [ha]
  exact if_pos hdue

end

/-! ## Commands of FIO_CMD (R314) -/

section
variable {s : State} {who : Accessor} {val : Word} {op : Nat}

/-- s with operation op and its result in the command registers of field I/O. -/
def State.fioResult (s : State) (op : Nat) (val : Word) (res : Nat) : State :=
  (s.setReg Reg.FIO_CMD (masked Reg.FIO_CMD (putFld val 31 28 op))).setReg Reg.FIO_CMD_STATUS (BitVec.ofNat 32 res)

/-- Without ADMIN every operation is denied. -/
theorem State.fioRun_of_denied (ha : s.isAdmin who = false) : s.fioRun who op val = s.fioResult op val 5 := if_pos (by rw [ha]; rfl)

/-- Outside TEST, or for an output that is not enabled, ARM, FIRE and RELEASE are rejected. -/
theorem State.fioRun_of_rejected (hop : 1 ≤ op ∧ op ≤ 3) (ha : s.isAdmin who = true) (hr : s.pwr.st ≠ .test ∨ s.outOn (fld val 4 0) = false) :
    s.fioRun who op val = s.fioResult op val 7 := by
  have known : ¬((op = 0 || decide (3 < op)) = true) := by simp only [Bool.or_eq_true, decide_eq_true_eq]; omega
  refine (if_neg (by rw [ha]; decide)).trans ((if_neg known).trans (if_pos ?_))
  rcases hr with hr | hr <;> simp [hr]

/-- In TEST an operation for an enabled output has its effect. -/
theorem State.fioRun_of_test (hop : 1 ≤ op ∧ op ≤ 3) (ha : s.isAdmin who = true) (ht : s.pwr.st = .test) (ho : s.outOn (fld val 4 0) = true) :
    s.fioRun who op val =
      match op with
      | 1 => (s.setFout (fld val 4 0) { s.fout (fld val 4 0) with testArm := some (s.up + secU) }).fioResult op val 0
      | 2 => if s.armed (fld val 4 0) then (s.assertOut (fld val 4 0)).fioResult op val 0 else s.fioResult op val 7
      | _ => (s.driveOut (fld val 4 0) false).fioResult op val 0 := by
  have known : ¬((op = 0 || decide (3 < op)) = true) := by simp only [Bool.or_eq_true, decide_eq_true_eq]; omega
  have live : ¬((s.pwr.st != .test || !s.outOn (fld val 4 0)) = true) := by rw [ht, ho]; decide
  refine (if_neg (by rw [ha]; decide)).trans ((if_neg known).trans ((if_neg live).trans ?_))
  obtain rfl | rfl | rfl : op = 1 ∨ op = 2 ∨ op = 3 := by omega
  all_goals rfl

variable (hw : s.mayWrite who Reg.FIO_CMD = true)
include hw

theorem fioArm_of_mayWrite : s.Gives (.fioArm who val) (s.fioRun who 1 val) := congrArg (done s) (if_pos hw)
theorem fioFire_of_mayWrite : s.Gives (.fioFire who val) (s.fioRun who 2 val) := congrArg (done s) (if_pos hw)
theorem fioRelease_of_mayWrite : s.Gives (.fioRelease who val) (s.fioRun who 3 val) := congrArg (done s) (if_pos hw)

end

/-! ## Inputs (R316, R317) -/

section
variable {s : State} {i : Fin 32} {level : Bool}

/-- s with input i no longer in chatter, at a level. -/
def State.calmed (s : State) (i : Nat) (level : Bool) : State := s.setFinp i { s.finp i with level := level, chatter := false, changes := [] }

/-- The end of a chatter is an entry of the sequence of events and, where the level has changed, a trigger of records. -/
theorem chatterEnd_of_chatter (hc : (s.finp i.val).chatter = true) :
    let z := (s.calmed i.val level).soe 0 i.val level false true false (s.time - s.rf (Reg.FIO_IN_CHAT i.val) 11 0 * msU)
    s.Gives (.chatterEnd i level) (if (s.finp i.val).level = level then z else z.recInput i.val) := by
  refine congrArg (done s) ((if_pos hc).trans ?_)
  simp only [beq_iff_eq]
  rfl

/-- With the recorder of the sequence of events off an entry is nothing. -/
theorem State.soe_of_off {kind idx t : Nat} {chat ended prov : Bool} (h : s.rb Reg.FIO_SOE_CFG 31 = false) :
    s.soe kind idx level chat ended prov t = s := if_neg (by rw [h]; decide)

end

/-- Settles O39: each command by the condition of its row; the commands of FIO_CMD by the role and the state of the device. -/
theorem fieldOutputAndInputCommandsComplete : Obligations.FieldOutputAndInputCommandsComplete := by
  unfold Obligations.FieldOutputAndInputCommandsComplete
  intro s who o i val level t x n e y
  refine ⟨outputRelease_of_due, fun h => congrArg (done s) (if_pos h), fun a => fioArmExpire_of_due, fun hw => ⟨fun ha => ⟨?_, ?_, ?_⟩,
    fun ha hr => ⟨?_, ?_, ?_⟩, fun ha ht ho => ⟨?_, ?_, fun hm => ?_, fun hm => ?_⟩⟩, fun hon hc hl hs hd => ?_, fun hc hoff hl => ?_,
    chatterEnd_of_chatter⟩
  · exact (fioArm_of_mayWrite hw).to (fioRun_of_denied ha)
  · exact (fioFire_of_mayWrite hw).to (fioRun_of_denied ha)
  · exact (fioRelease_of_mayWrite hw).to (fioRun_of_denied ha)
  · exact (fioArm_of_mayWrite hw).to (fioRun_of_rejected (by decide) ha hr)
  · exact (fioFire_of_mayWrite hw).to (fioRun_of_rejected (by decide) ha hr)
  · exact (fioRelease_of_mayWrite hw).to (fioRun_of_rejected (by decide) ha hr)
  · exact (fioArm_of_mayWrite hw).to (fioRun_of_test (by decide) ha ht ho)
  · exact (fioRelease_of_mayWrite hw).to (fioRun_of_test (by decide) ha ht ho)
  · exact (fioFire_of_mayWrite hw).to ((fioRun_of_test (by decide) ha ht ho).trans (if_pos hm))
  · exact (fioFire_of_mayWrite hw).to ((fioRun_of_test (by decide) ha ht ho).trans (if_neg (by rw [hm]; decide)))
  · exact congrArg (done s) (if_pos ⟨by simp [hon, hc, hl, y], hs, hd⟩)
  · exact (chatterEnd_of_chatter hc).to ((if_pos hl).trans (soe_of_off hoff))

end Sys2Proof.Machine
end

/-!
SUPPORT. Configuration images (R331-R357): a management command whose sender has the authority, in a device state that allows it, by the pair that
its action gives: a result is answered, none leaves it in execution.
-/
section
namespace Sys2Proof.Machine
open State

-- One declaration after the other: the proofs would else hold a thread and its stack each.
set_option Elab.async false

/-! ## Commands of a management frame (R334) -/

section
variable {s : State} {n code r : Nat} {codes : List Nat} {f : MgtFrame} {y : State}

theorem State.onCmd_of_frame {act : MgtFrame → State → State} (hf : (s.mport n).frame = some f) (hc : codes.contains f.cmd = true) :
    s.onCmd n codes act = act f (s.taken n f) := by
  unfold State.onCmd
  rw [hf]
  exact if_pos hc

variable {allowed : Actor → MgtFrame → State → Bool} {states : List DevState} {act : Actor → MgtFrame → State → Option Nat × State}
  (hf : (s.mport n).frame = some f) (hc : f.cmd = code) (ha : allowed (.port n) f (s.taken n f) = true) (hst : (s.taken n f).pwr.st ∈ states)
include hf hc ha hst

/-- An admitted command whose action gives a result is answered with it. -/
theorem State.manage_of_result (h : act (.port n) f (s.taken n f) = (some r, y)) : s.manage n code allowed states act = y.respond n r [] := by
  refine (onCmd_of_frame hf (by simp [hc])).trans ((if_neg (by simp [ha])).trans ((if_neg (by simp [hst])).trans ?_))
  rw [h]

/-- An admitted command whose action gives none stays in execution. -/
theorem State.manage_of_begun (h : act (.port n) f (s.taken n f) = (none, y)) : s.manage n code allowed states act = y := by
  refine (onCmd_of_frame hf (by simp [hc])).trans ((if_neg (by simp [ha])).trans ((if_neg (by simp [hst])).trans ?_))
  rw [h]

end

theorem State.OnlyChanges.cfg {s t : State} {l : List Area} (h : s.OnlyChanges t l) (hl : .cfg ∉ l := by decide) : t.cfg = s.cfg := h.2 .cfg hl

/-! ## What each command does (R331-R341) -/

section
variable {s : State} {a : Actor} {g : Staging}

theorem State.imgData_of_own {bs : List Byte} (hg : s.cfg.staging = some g) (ha : g.by_ = a) :
    s.imgData a bs = (0, { s with cfg := { s.cfg with staging := some { g with bytes := g.bytes ++ bs } } }) := by
  unfold State.imgData
  rw [hg]
  exact if_pos ha

theorem State.imgEnd_of_admin (had : s.actAdmin a = true) (hv : s.cfg.verifying = none) (hr : s.arming = false) (hg : s.cfg.staging = some g)
    (ha : g.by_ = a) :
    s.imgEnd a = (none, { s.setRb Reg.CFG_IMG_STATUS 31 true with cfg := { s.cfg with staging := none, verifying := some g } }) := by
  unfold State.imgEnd
  rw [hv, hr, hg, had]
  exact if_neg (not_not_intro ha)

theorem State.checkBegin_of_staged (hc : s.cfg.checking = none) (hs : s.cfg.shadow ≠ .none) (hr : s.arming = false) :
    s.checkBegin a = (none, { s.setRb Reg.CFG_CHK_STATUS 31 true with cfg := { s.cfg with checking := some a } }) :=
  (if_neg (by simp [hc])).trans (if_neg (by simp [hs, hr]))

/-- s with its commit armed by an actor for the instant of a descriptor; one of KIND 0 has its instant only when preload completes. -/
def State.armedFor (s : State) (a : Actor) (d : List Word) : State :=
  let y := each (List.range 4) (fun x w => x.setReg (Reg.IND_COMMIT_DESC w) (wordAt d w)) ((s.setRf Reg.CFG_ARM_STATUS 3 0 0).setRf Reg.IND_COMMIT_STATUS 2 0 0)
  { y with
    ind := { y.ind with commit := if descKind d = 0 then none else some { inst := descInstant d, period := 0, late := false } }
    cfg := { y.cfg with armBy := some a, armRole := s.armRoleOf a, preloaded := false } }

theorem State.arm_of_accepted {d : List Word} (hr : s.clu.resetting.any (·.2) = false) (hv : s.cfg.verifying = none) (hc : s.cfg.checking = none)
    (hs : s.cfg.shadow = .checked) (ha : s.armResult d = 0) : s.arm a d = (0, s.armedFor a d) := by
  have hbusy : ¬((s.clu.resetting.any (·.2) || s.cfg.verifying.isSome || s.cfg.checking.isSome) = true) := by rw [hr, hv, hc]; decide
  have hready : ¬((s.cfg.shadow != .checked) = true) := by rw [hs]; decide
  have hno : ¬(s.armResult d = codeReject) := by rw [ha]; decide
  exact (if_neg hbusy).trans ((if_neg hready).trans ((if_neg hno).trans (if_neg (not_not_intro ha))))

theorem preloadDone_of_arming (ha : s.arming = true) (hp : s.cfg.preloaded = false) : s.Gives .preloadDone s.preloadEnd :=
  congrArg (done s) (if_pos (by rw [ha, hp]; rfl))

theorem autoCommitArm_of_wanted (hw : s.commitWanted = true) (hc : s.ind.commit = none) (hb : s.cfg.armBy = none)
    (ht : ∀ t, s.cfg.autoAt = some t → t + s.rf Reg.CFG_CP 15 0 * msU ≤ s.up) : s.Gives .autoCommitArm s.autoArm := by
  refine congrArg (done s) (if_pos ?_)
  simp only [hw, hc, hb, Option.isNone_none, Bool.true_and]
  cases hat : s.cfg.autoAt with
  | none => simp only
  | some t => simpa only [decide_eq_true_eq] using ht t hat

theorem imgVerifyDone_of_verifying (hv : s.cfg.verifying = some g) :
    s.Gives .imgVerifyDone ((s.verifyEnd g).2.answer g.by_ (s.verifyEnd g).1 []) := by
  refine congrArg (done s) ?_
  rw [hv]

theorem checkDone_of_checking (hc : s.cfg.checking = some a) : s.Gives .checkDone (s.checkEnd.2.answer a s.checkEnd.1 []) := by
  refine congrArg (done s) ?_
  rw [hc]

end

/-- Settles O40: each management command by its admission and the pair of its action; what takes time by the condition of its own command. -/
theorem imageAndCommitCommandsComplete : Obligations.ImageAndCommitCommandsComplete := by
  unfold Obligations.ImageAndCommitCommandsComplete
  intro s port f what cls idx req n a x k
  refine ⟨fun hf => ⟨fun hcmd ha hst hb hddr => ?_, fun g hcmd ha hst hg hby => ?_, fun g hcmd ha hst hv hr hg hby => ?_, fun hcmd ha hst hb hr hh => ?_,
    fun hcmd ha hst hr h0 h16 hp => ?_, fun hcmd ha hst hb hc hs hr => ?_, fun hcmd ha hst hb => ?_, fun hcmd ha hst hby hd => ?_,
    fun hcmd ha hst hi hq => ?_⟩, fun g => imgVerifyDone_of_verifying, fun b => checkDone_of_checking, preloadDone_of_arming,
    autoCommitArm_of_wanted⟩
  · exact congrArg (done s) (manage_of_result hf hcmd ha hst ((if_neg (by rw [hb]; decide)).trans (if_neg (not_not_intro hddr))))
  · exact congrArg (done s) (manage_of_result hf hcmd ha hst (congrArg (fun r => (some r.1, r.2)) (imgData_of_own hg hby)))
  · exact congrArg (done s) (manage_of_begun hf hcmd (by simp only [adminOrPart]; rw [ha]; rfl) hst (imgEnd_of_admin ha hv hr hg hby))
  · refine congrArg (done s) (manage_of_result hf hcmd ?_ hst ((if_neg (by rw [hb]; decide)).trans (if_neg (by rw [hr, hh]; decide))))
    simpa using ha
  · refine congrArg (done s) (manage_of_result hf hcmd ha hst (if_neg ?_))
    rw [hr, hp]
    simp [h0, h16]
  · exact congrArg (done s) (manage_of_begun hf hcmd ha hst ((if_neg (by rw [hb]; decide)).trans (checkBegin_of_staged hc hs hr)))
  · have harm : s.Gives (.arm port) ((x.arm a (descOfBytes f.payload)).2.respond n (x.arm a (descOfBytes f.payload)).1 []) :=
      congrArg (done s) (manage_of_result hf hcmd ha hst (if_neg (by rw [hb]; decide)))
    refine ⟨harm, fun hres hv hc hs hok => ⟨_, harm, ?_⟩⟩
    have hkept := respond_areas (x.arm a (descOfBytes f.payload)).2 n (x.arm a (descOfBytes f.payload)).1 []
    rw [closed_cfg, closed_ind, hkept.cfg, hkept.ind, arm_of_accepted hres hv hc hs hok]
    exact ⟨rfl, rfl, rfl⟩
  · refine congrArg (done s) (manage_of_result hf hcmd ?_ hst (if_neg ?_))
    · rw [hby]
      simpa using ha
    · rw [Option.isNone_eq_false_iff.2 hby, hd]
      decide
  · refine congrArg (done s) (manage_of_result hf hcmd ha ?_ (if_neg ?_))
    · simpa using hst
    · simp only [Bool.or_eq_true, decide_eq_true_eq]
      omega

end Sys2Proof.Machine
end

/-!
SUPPORT. Partitions, tiles, the scrubber and unit states (R347-R359): which branch of its meaning a command takes.
-/
section
namespace Sys2Proof.Machine
open State

-- One declaration after the other: the proofs would else hold a thread and its stack each.
set_option Elab.async false

section
variable {s : State} {p : Fin 16} {tile : Fin 24} {fail : Bool}

theorem bistDone_of_testing (h : tile.val ∈ s.cfg.bist) : s.Gives (.bistDone tile fail) (s.bistEnd tile.val fail) :=
  congrArg (done s) (if_pos (List.contains_iff_mem.2 h))

/-- s with the self-test of every spare begun. -/
def State.testSpares (s : State) : State :=
  { s with cfg := { s.cfg with
    bistAt := s.up
    bist := s.cfg.bist ++ (List.range 24).filter fun j => s.tileState j == 1 && !s.cfg.bist.contains j } }

theorem State.testSpares_areas (s : State) : s.OnlyChanges s.testSpares [.cfg] := with_cfg ..

theorem State.mem_testSpares (s : State) (j : Nat) : j ∈ s.testSpares.cfg.bist ↔ j ∈ s.cfg.bist ∨ (j < 24 ∧ s.tileState j = 1) := by
  simp only [State.testSpares, List.mem_append, List.mem_filter, List.mem_range, Bool.and_eq_true, beq_iff_eq, Bool.not_eq_true',
    List.contains_eq_mem, decide_eq_false_iff_not]
  tauto

theorem spareBistPeriod_of_due (ht : s.pwr.st = .service) (hm : s.rf Reg.CFG_CTRL 15 0 ≠ 0)
    (hdue : s.cfg.bistAt + s.rf Reg.CFG_CTRL 15 0 * secU ≤ s.up) : s.Gives .spareBistPeriod s.testSpares := by
  refine congrArg (done s) (if_pos ?_)
  simp [ht, hm, hdue]

theorem drainTimeout_of_due (hst : (s.part p.val).st = 5) (hdue : (s.part p.val).drainAt + s.rf (Reg.CFG_PART_CFG p.val) 15 0 * usU ≤ s.up) :
    s.Gives (.drainTimeout p)
      (each (s.holdingTasks p.val) (fun y j => ((y.forceEnd j 6).inc Reg.CFG_DRAIN_KILL).sqc Reg.CFG_STATUS 13 301) s) :=
  congrArg (done s) (if_pos (by simp [hst, hdue]))

theorem drainComplete_of_none (hst : (s.part p.val).st = 5) (hn : s.holdingTasks p.val = []) : s.Gives (.drainComplete p) (s.emptyPart p.val) :=
  congrArg (done s) (if_pos (by simp [hst, hn]))

end

section
variable {s : State} {cls : Fin 8} {idx : BitVec 13} {who : Accessor} {val : Word}

/-- The episode of a unit off its request is marked, counted and reported. -/
theorem unitMismatch_of_late {t : Nat} (ht : (s.unitReq (8192 * cls.val + idx.toNat)).since = some t) (hu : s.unitMatches cls.val idx.toNat = false)
    (hm : (s.unitReq (8192 * cls.val + idx.toNat)).mismatch = false) (hdue : t + 2 * s.rf Reg.CFG_CP 15 0 * msU < s.up) :
    s.Gives (.unitMismatch cls idx) (((s.setUnitReq (8192 * cls.val + idx.toNat)
      { s.unitReq (8192 * cls.val + idx.toNat) with mismatch := true }).inc Reg.CFG_MISMATCHES).sqc Reg.CFG_STATUS 12 300) := by
  refine congrArg (done s) ?_
  simp only [ht]
  have hlate : (!s.unitMatches cls.val idx.toNat && !(s.unitReq (8192 * cls.val + idx.toNat)).mismatch &&
      decide (t + 2 * s.rf Reg.CFG_CP 15 0 * msU < s.up)) = true := by
    simp only [hu, hm, hdue, Bool.not_false, Bool.true_and, decide_true]
  rw [if_pos hlate]

theorem unitSelect_of_mayWrite (hw : s.mayWrite who Reg.CFG_UNIT_SEL = true) : s.Gives (.unitSelect who val) (s.unitSelect val) :=
  congrArg (done s) (if_pos hw)

end

/-- Settles O41: each management command by its admission and the pair of its action, the others by the condition of their rows. -/
theorem partitionAndTileCommandsComplete : Obligations.PartitionAndTileCommandsComplete := by
  unfold Obligations.PartitionAndTileCommandsComplete
  intro s who port f tile p kind fail d cls idx val
  dsimp only
  refine ⟨fun hf => ⟨fun hcmd ha hst ht hr => ?_, fun hcmd ha hst hb ht => ?_, fun hcmd ha hst h0 h16 hp => ?_, fun hcmd ha hst h16 hp => ?_,
    fun hcmd ha hst hk => ?_⟩, bistDone_of_testing, fun ht hm hdue => ?_, drainTimeout_of_due, drainComplete_of_none, ?_, fun mis bad hb => ?_,
    fun t => unitMismatch_of_late, fun hw => ?_⟩
  · refine congrArg (done s) (manage_of_result hf hcmd ha hst (if_pos ?_))
    rw [hr]
    simpa using ht
  · refine congrArg (done s) (manage_of_result hf hcmd ha hst ((if_neg (by simpa using hb)).trans (if_pos ?_)))
    rcases ht with ht | ht <;> simp [ht]
  · refine congrArg (done s) (manage_of_result hf hcmd ha hst (if_neg ?_))
    rcases hp with hp | hp <;> simp [hp, h0, h16]
  · refine congrArg (done s) (manage_of_result hf hcmd ha hst (if_neg ?_))
    rcases hp with hp | hp <;> simp [hp, h16]
  · refine congrArg (done s) (manage_of_result hf hcmd ha hst (if_neg ?_))
    simpa using hk
  · exact ⟨_, (spareBistPeriod_of_due ht hm hdue).trans (congrArg _ (s.closed_of_out _ (testSpares_areas s).out)), rfl, mem_testSpares s,
      testSpares_areas s⟩
  · exact congrArg (done s) (if_neg (by decide))
  · refine congrArg (done s) (if_pos ?_)
    simpa using hb
  · have areas := unitSelect_areas s val
    refine ⟨_, (unitSelect_of_mayWrite hw).trans (congrArg _ (s.closed_of_out _ areas.out)), ?_, reg_setReg_same .., ?_, areas⟩
    · exact (reg_setReg_ne _ _ _ _ (by decide)).trans (reg_setReg_same ..)
    · exact RegsStay.trans (setReg_stays s _ _ _ (by simp)) (setReg_stays _ _ _ _ (by simp))

end Sys2Proof.Machine
end

/-!
SUPPORT. Sable (R376-R395): an admitted command of a management frame by its action; packages, attestation, tamper and debug grants by their branches.
-/
section
namespace Sys2Proof.Machine
open State

-- One declaration after the other: the proofs would else hold a thread and its stack each.
set_option Elab.async false

/-! ## Commands of Sable (R389) -/

section
variable {s : State} {n code : Nat} {f : MgtFrame} {allowed : Actor → MgtFrame → State → Bool} {states : List DevState} {act : Actor → MgtFrame → State → State}
  {y : State}

/-- A command of Sable whose sender has the authority, in a device state that allows it, has its effect; after the kill ATTEST alone. -/
theorem State.sabCmd_of_admitted (hf : (s.mport n).frame = some f) (hc : f.cmd = code) (ha : allowed (.port n) f (s.taken n f) = true)
    (hst : (s.taken n f).pwr.st ∈ states) (hk : (s.taken n f).sab.otp.kill = false ∨ code = 0x33) (h : act (.port n) f (s.taken n f) = y) :
    s.sabCmd n code allowed states act = y := by
  have hlive : ¬(((s.taken n f).sab.otp.kill && code != 0x33) = true) := by
    rcases hk with hk | hk <;> simp [hk]
  exact (onCmd_of_frame hf (by simp [hc])).trans
    ((if_neg (by simp [ha])).trans ((if_neg (by simp [hst])).trans ((if_neg hlive).trans h)))

end

/-! ## Packages (R381, R385) -/

section
variable {s : State} {n cmd kind : Nat} {a : Actor} {bs : List Byte} {f : MgtFrame}

theorem State.pkgBegin_of_idle (h : s.sab.job = none) :
    s.pkgBegin a cmd bs = ({ s with sab := { s.sab with job := some { by_ := a, cmd := cmd, bytes := bs } } }).setReg Reg.SAB_CMD_STATUS
      (BitVec.ofNat 32 (2147483648 + cmd * 65536)) := if_neg (by simp [h])

theorem State.pkgBegin_of_busy (h : s.sab.job.isSome = true) : s.pkgBegin a cmd bs = s.answer a busyCode [] := if_pos h

/-- A root order of ADMIN of the kind asked for goes into check. -/
theorem State.rootOrder_of_admin (hf : (s.mport n).frame = some f) (hc : f.cmd = 0x32) (ha : (s.taken n f).actAdmin (.port n) = true)
    (hst : (s.taken n f).pwr.st ∈ [.boot, .config, .test, .service, .recovery]) (hk : (s.taken n f).sab.otp.kill = false)
    (hkind : pkgKind f.payload = kind) : s.rootOrder n kind = (s.taken n f).pkgBegin (.port n) 0x32 f.payload := by
  unfold State.rootOrder
  rw [hf]
  exact (if_neg (not_not_intro hkind)).trans (sabCmd_of_admitted hf hc (by rw [ha, Bool.true_or]) hst (.inl hk) rfl)

theorem packageCheckDone_of_job {j : PkgJob} (hj : s.sab.job = some j) : s.Gives .packageCheckDone (s.pkgEnd j) := by
  refine congrArg (done s) ?_
  rw [hj]

/-- The end of a check: keys that would be accepted in the cycle of a commit wait. -/
theorem State.pkgEnd_eq (s : State) (j : PkgJob) :
    let r := { s with sab := { s.sab with job := none } }.pkgTry j.by_ j.cmd j.bytes
    s.pkgEnd j = if r.1 = 0 ∧ j.cmd = 0x30 ∧ s.commitDue = true then s
      else (if r.1 = 0 then (r.2.inc Reg.SAB_PKG_OK).sqc Reg.SAB_STATUS 4 20
        else (r.2.inc Reg.SAB_PKG_REFUSED).sqc Reg.SAB_STATUS 3 19).sabAnswer j.by_ j.cmd r.1 [] := by
  intro r
  by_cases h : r.1 = 0 ∧ j.cmd = 0x30 ∧ s.commitDue = true
  · rw [if_pos h]
    obtain ⟨hr, hc, hd⟩ := h
    have hwaits : (decide (r.1 = 0) && j.cmd == 0x30 && s.commitDue) = true := by rw [hr, hc, hd]; rfl
    exact if_pos hwaits
  · rw [if_neg h]
    have hgoes : ¬((decide (r.1 = 0) && j.cmd == 0x30 && s.commitDue) = true) := by simpa [and_assoc] using h
    exact if_neg hgoes

end

/-! ## Attestation (R378, R379) -/

section
variable {s : State} {q : AttReq}

/-- Whether the last signature is less than the least interval ago. -/
def State.signedLately (s : State) : Prop := ∃ t, s.sab.lastSig = some t ∧ s.up < t + s.rf Reg.SAB_CFG 15 0 * secU

/-- The model's own test of that. -/
def State.ratedOut (s : State) : Bool := match s.sab.lastSig with | some t => s.up < t + s.rf Reg.SAB_CFG 15 0 * secU | none => false

theorem State.ratedOut_iff (s : State) : s.ratedOut = true ↔ s.signedLately := by
  unfold State.ratedOut State.signedLately
  cases s.sab.lastSig with
  | none => simp
  | some t => simp

theorem State.signStart_eq (s : State) (q : AttReq) :
    s.signStart q =
      if s.ratedOut then s.sabAnswer (.port q.port) 0x33 25 []
      else if s.sab.otp.kill then s.sabAnswer (.port q.port) 0x33 26 []
      else
        match (s.takeIndex q.fuse).1 with
        | none => (s.takeIndex q.fuse).2.sabAnswer (.port q.port) 0x33 26 []
        | some i => ({ (s.takeIndex q.fuse).2 with sab := { (s.takeIndex q.fuse).2.sab with
            signing := some (q, i, (s.takeIndex q.fuse).2.attBody q.nonce), lastSig := some (s.takeIndex q.fuse).2.up } }).setReg
              Reg.SAB_CMD_STATUS (BitVec.ofNat 32 (2147483648 + 0x33 * 65536)) := rfl

theorem State.signStart_of_soon (h : s.signedLately) : s.signStart q = s.sabAnswer (.port q.port) 0x33 25 [] :=
  (signStart_eq s q).trans (if_pos ((ratedOut_iff s).2 h))

theorem State.signStart_of_kill (h : ¬s.signedLately) (hk : s.sab.otp.kill = true) : s.signStart q = s.sabAnswer (.port q.port) 0x33 26 [] :=
  (signStart_eq s q).trans ((if_neg (mt (ratedOut_iff s).1 h)).trans (if_pos hk))

theorem State.signStart_of_exhausted (h : ¬s.signedLately) (hk : s.sab.otp.kill = false) (hi : (s.takeIndex q.fuse).1 = none) :
    s.signStart q = (s.takeIndex q.fuse).2.sabAnswer (.port q.port) 0x33 26 [] := by
  rw [signStart_eq, if_neg (mt (ratedOut_iff s).1 h), if_neg (by simp [hk]), hi]

theorem State.signStart_of_index {i : Nat} (h : ¬s.signedLately) (hk : s.sab.otp.kill = false) (hi : (s.takeIndex q.fuse).1 = some i) :
    s.signStart q = ({ (s.takeIndex q.fuse).2 with sab := { (s.takeIndex q.fuse).2.sab with
      signing := some (q, i, (s.takeIndex q.fuse).2.attBody q.nonce), lastSig := some (s.takeIndex q.fuse).2.up } }).setReg
        Reg.SAB_CMD_STATUS (BitVec.ofNat 32 (2147483648 + 0x33 * 65536)) := by
  rw [signStart_eq, if_neg (mt (ratedOut_iff s).1 h), if_neg (by simp [hk]), hi]

theorem State.attest_of_idle (h : s.sab.signing = none) : s.attest q = s.signStart q := if_pos (by simp [h])

theorem State.attest_of_room (h : s.sab.signing.isSome = true) (hl : s.sab.fifo.length < 4) :
    s.attest q = { s with sab := { s.sab with fifo := s.sab.fifo ++ [q] } } :=
  (if_neg (mt Option.isNone_iff_eq_none.1 (Option.isSome_iff_ne_none.1 h))).trans (if_neg (Nat.not_le.2 hl))

theorem State.attest_of_full (h : s.sab.signing.isSome = true) (hl : 4 ≤ s.sab.fifo.length) :
    s.attest q = s.sabAnswer (.port q.port) 0x33 busyCode [] :=
  (if_neg (mt Option.isNone_iff_eq_none.1 (Option.isSome_iff_ne_none.1 h))).trans (if_pos hl)

theorem attestDone_of_signing {i : Nat} {body : List Byte} (h : s.sab.signing = some (q, i, body)) : s.Gives .attestDone (s.attestEnd q i body) := by
  refine congrArg (done s) ?_
  rw [h]

/-- An admitted ATTEST is judged by its request. -/
theorem attest_of_admitted {port : Fin 6} {f : MgtFrame} {fuse : List Bool} (hf : (s.mport port.val).frame = some f) (hc : f.cmd = 0x33)
    (hr : (s.taken port.val f).portRole port.val ≠ .noSession) (hst : (s.taken port.val f).pwr.st ∈ liveStates) :
    s.Gives (.attest port fuse) ((s.taken port.val f).attest { port := port.val, nonce := f.payload, fuse := fuse }) :=
  congrArg (done s) (sabCmd_of_admitted hf hc (bne_iff_ne.2 hr) hst (.inr rfl) rfl)

end

/-! ## Tamper inputs and monitors (R390, R392) -/

section
variable {s : State} {i m : Fin 4} {p : Fin 16}

theorem tamperInput_of_enabled (hv : s.pwr.vaux = true) (he : s.rb Reg.SAB_TAMP_CFG (16 + i.val) = true) :
    s.Gives (.tamperInput i) (if s.rb Reg.SAB_TAMP_CFG (24 + i.val) then (s.tamperTrip 0 16).blowKill else s.tamperTrip 0 16) :=
  congrArg (done s) (if_pos (by rw [hv, he]; rfl))

theorem monitorTrip_of_enabled (hv : s.pwr.vaux = true) (he : s.rb Reg.SAB_TAMP_CFG m.val = true)
    (hm : m.val = 0 ∨ m.val = 3 ∨ s.pwr.mainGood = true) : s.Gives (.monitorTrip m) (s.tamperTrip 1 17) := by
  refine congrArg (done s) (if_pos ?_)
  rw [hv, he]
  rcases hm with hm | hm | hm <;> simp [hm]

theorem debugGrantExpire_of_due (ha : (s.grant p.val).active = true) (hu : (s.grant p.val).until_ ≤ s.up) :
    s.Gives (.debugGrantExpire p) (s.endGrant p.val) := congrArg (done s) (if_pos (by simp [ha, hu]))

end

/-- Settles O43: each command by its admission and its action; the ends and the trips by the condition of their rows. -/
theorem securityCommandsComplete : Obligations.SecurityCommandsComplete := by
  unfold Obligations.SecurityCommandsComplete
  intro s port f fuse i m p control jtag session secs n a x begun q soon trip
  refine ⟨fun hf hk => ⟨fun hc ha hst => ⟨fun hj => ?_, fun hj => ?_⟩, fun hc hst => ⟨fun hj => ?_, fun hj => ?_⟩, fun hc ha hst hj => ⟨fun hp => ?_, fun hp => ?_⟩,
    fun hc ha hst => ?_, fun hc ha hst => ⟨fun hctl hp hsv => ?_, fun hno hs => ?_, fun hno hs => ?_⟩, fun hc ha hst => ?_⟩,
    fun hf hc hr hst => ⟨fun hi hs => ?_, fun hi hs hk => ?_, fun hi hs hk ht => ?_, fun j hi hs hk ht => ?_, fun hi hl => ?_, fun hi hl => ?_⟩,
    fun j hj => (packageCheckDone_of_job hj).to (pkgEnd_eq s j), fun q i body => attestDone_of_signing, tamperInput_of_enabled, monitorTrip_of_enabled,
    debugGrantExpire_of_due⟩
  · exact congrArg (done s) (sabCmd_of_admitted hf hc ha hst (.inl hk) (pkgBegin_of_idle hj))
  · exact congrArg (done s) (sabCmd_of_admitted hf hc ha hst (.inl hk) (pkgBegin_of_busy hj))
  · exact congrArg (done s) (sabCmd_of_admitted hf hc rfl hst (.inl hk) (pkgBegin_of_idle hj))
  · exact congrArg (done s) (sabCmd_of_admitted hf hc rfl hst (.inl hk) (pkgBegin_of_busy hj))
  · exact congrArg (done s) ((rootOrder_of_admin hf hc ha hst hk hp).trans (pkgBegin_of_idle hj))
  · exact congrArg (done s) ((rootOrder_of_admin hf hc ha hst hk hp).trans (pkgBegin_of_idle hj))
  · exact congrArg (done s) (sabCmd_of_admitted hf hc ha hst (.inl hk) rfl)
  · have hnow : (control && decide (p.val = 0) && x.pwr.st == .service) = true := by rw [hctl, hp, hsv]; rfl
    exact congrArg (done s) (sabCmd_of_admitted hf hc (Bool.or_eq_true_iff.2 ha) hst (.inl hk) (if_pos hnow))
  · have hnot : ¬((control && decide (p.val = 0) && x.pwr.st == .service) = true) := by simpa [and_assoc] using hno
    exact congrArg (done s) (sabCmd_of_admitted hf hc (Bool.or_eq_true_iff.2 ha) hst (.inl hk) ((if_neg hnot).trans (if_pos hs)))
  · have hnot : ¬((control && decide (p.val = 0) && x.pwr.st == .service) = true) := by simpa [and_assoc] using hno
    exact congrArg (done s) (sabCmd_of_admitted hf hc (Bool.or_eq_true_iff.2 ha) hst (.inl hk) ((if_neg hnot).trans (if_neg hs)))
  · exact congrArg (done s) (sabCmd_of_admitted hf hc (Bool.or_eq_true_iff.2 ha) hst (.inl hk) rfl)
  · exact (attest_of_admitted hf hc hr hst).to ((attest_of_idle hi).trans (signStart_of_soon hs))
  · exact (attest_of_admitted hf hc hr hst).to ((attest_of_idle hi).trans (signStart_of_kill hs hk))
  · exact (attest_of_admitted hf hc hr hst).to ((attest_of_idle hi).trans (signStart_of_exhausted hs hk ht))
  · exact (attest_of_admitted hf hc hr hst).to ((attest_of_idle hi).trans (signStart_of_index hs hk ht))
  · exact (attest_of_admitted hf hc hr hst).to (attest_of_room hi hl)
  · exact (attest_of_admitted hf hc hr hst).to (attest_of_full hi hl)

end Sys2Proof.Machine
end

/-!
SUPPORT. What every proof of the host's side uses: a command that sends nothing, loops over registers, what an event leaves of the host's state, and
a store filtered by its keys.
-/
section
namespace Sys2Proof.Machine
open State

-- One declaration after the other: the proofs would else hold a thread and its stack each.
set_option Elab.async false

/-- The next state of a command that sends nothing is the state that it gives. -/
theorem State.Gives.quiet {s x : State} {c : Instr} {l : List Area} (h : s.Gives c x) (hx : s.OnlyChanges x l) (hl : .out ∉ l := by decide) :
    exec c s = .next x := h.trans (congrArg Host.Outcome.next (s.closed_of_out x (hx.out hl)))

/-- The one message that a command sends repeats none. -/
theorem State.closed_of_emit {s x : State} {e : Emit} (h : x.out = e :: s.out) : s.closed x = x := by
  have one : x.out.length - s.out.length = 1 := by
    rw [h]
    exact Nat.add_sub_cancel_left ..
  have merged : mergeMsix 1 (e :: s.out) = e :: s.out := by cases e <;> rfl
  unfold State.closed
  rw [one, h, merged, ← h]

theorem State.OnlyChanges.hst {s t : State} {l : List Area} (h : s.OnlyChanges t l) (hl : .hst ∉ l := by decide) : t.hst = s.hst := h.2 .hst hl

/-- A store filtered by its keys. -/
theorem SMap.get_filter_key {α : Type} (d : Nat → α) (m : SMap α) (p : Nat → Bool) (k : Nat) :
    SMap.get d (m.filter fun q => p q.1) k = if p k then SMap.get d m k else d k := by
  induction m with
  | nil => simp [SMap.get]
  | cons q m ih =>
    obtain ⟨a, v⟩ := q
    by_cases ha : a = k
    · subst ha
      cases hp : p a <;> simp [hp, SMap.get, ih]
    · cases hp : p a <;> simp [hp, SMap.get, ha, ih]

/-- A register that a loop of zeros writes, or that was zero, is zero. -/
theorem State.reg_each_zero {a : Nat} {l : List Nat} : ∀ {s : State}, (a ∈ l ∨ s.reg a = 0) → (each l (fun x off => x.setReg off 0) s).reg a = 0 := by
  induction l with
  | nil => exact fun h => h.resolve_left List.not_mem_nil
  | cons b l ih =>
    intro s h
    refine ih (s := s.setReg b 0) ?_
    by_cases hk : regKey a = regKey b
    · exact .inr ((congrArg (SMap.get regReset _) hk).trans (reg_setReg_same s b 0))
    · refine h.imp (fun hm => (List.mem_cons.1 hm).resolve_left fun e => hk (e ▸ rfl)) fun hz => ?_
      rwa [reg_setReg_ne _ _ _ _ hk]

/-! ## What an event leaves of the host's state (R421) -/

/-- Of the host's state nothing changes but the vectors of MSI-X. -/
def State.KeepsHost (s t : State) : Prop := t.hst = { s.hst with msix := t.hst.msix }

namespace State.KeepsHost
variable {s t u : State}

theorem of_hst (h : t.hst = s.hst) : s.KeepsHost t := by rw [State.KeepsHost, h]
theorem trans (h : s.KeepsHost t) (h2 : t.KeepsHost u) : s.KeepsHost u := by
  rw [State.KeepsHost] at *
  rw [h2, h]

theorem ite {c : Prop} [Decidable c] (h : s.KeepsHost t) (h2 : s.KeepsHost u) : s.KeepsHost (if c then t else u) := by
  split
  · exact h
  · exact h2

theorem mport (h : s.KeepsHost t) (n : Nat) : t.mport n = s.mport n := by
  unfold State.mport
  rw [h]

theorem dma (h : s.KeepsHost t) (d : Nat) : t.dma d = s.dma d := by
  unfold State.dma
  rw [h]

end State.KeepsHost

theorem State.setReg_keepsHost (s : State) (a : Nat) (v : Word) : s.KeepsHost (s.setReg a v) := .of_hst rfl

theorem State.sendMsix_keepsHost (s : State) (l p v : Nat) : s.KeepsHost (s.sendMsix l p v) :=
  .ite (.ite rfl (.of_hst rfl)) (s.setReg_keepsHost ..)

theorem State.deliver_keepsHost (s : State) (e : Nat) : s.KeepsHost (s.deliver e) :=
  have h1 : s.KeepsHost (s.deliverMsix e) := .ite (sendMsix_keepsHost ..) (.of_hst rfl)
  have h2 : (s.deliverMsix e).KeepsHost ((s.deliverMsix e).deliverSup e) := .ite (setReg_keepsHost ..) (.of_hst rfl)
  have h3 : ((s.deliverMsix e).deliverSup e).KeepsHost (((s.deliverMsix e).deliverSup e).deliverPair e) :=
    .ite (.ite (.of_hst rfl) (setReg_keepsHost ..)) (.of_hst rfl)
  have h4 : (((s.deliverMsix e).deliverSup e).deliverPair e).KeepsHost ((((s.deliverMsix e).deliverSup e).deliverPair e).deliverAlarm e) :=
    .ite (setReg_keepsHost ..) (.of_hst rfl)
  .ite (.of_hst rfl) (((h1.trans h2).trans h3).trans h4)

theorem State.sqc_keepsHost (s : State) (off bit e : Nat) : s.KeepsHost (s.sqc off bit e) :=
  .ite (setReg_keepsHost ..) (((setReg_keepsHost ..).trans (setReg_keepsHost ..)).trans (deliver_keepsHost ..))

/-- After the end of a session its port has none. -/
theorem State.endSession_of_none {s : State} {n : Nat} {byClose : Bool} (h : (s.mport n).sess = none) : s.endSession n byClose = s := by
  unfold State.endSession
  rw [h]

theorem State.endSession_of_some {s : State} {n : Nat} {byClose : Bool} {z : Session} (h : (s.mport n).sess = some z) :
    s.endSession n byClose =
      if byClose then s.updMport n fun p => { p with sess := none } else (s.updMport n fun p => { p with sess := none }).sqc Reg.MGT_STATUS 1 13 := by
  unfold State.endSession
  rw [h]

theorem State.sess_endSession (s : State) (n : Nat) (byClose : Bool) : ((s.endSession n byClose).mport n).sess = none := by
  cases h : (s.mport n).sess with
  | none => rwa [endSession_of_none h]
  | some z =>
    have hnone : ((s.updMport n fun p => { p with sess := none }).mport n).sess = none := by rw [State.updMport, mport_setMport]
    rw [endSession_of_some h]
    split
    · exact hnone
    · rwa [(sqc_keepsHost ..).mport]

/-! ## The channels of a link that stop (R402) -/

/-- Channel d stopped, if it is of link l. -/
def State.stopDma (s : State) (l d : Nat) : State :=
  if s.dmaLink d = l then (s.setRf (Reg.PCI_DMA_STATUS d) 1 0 0).setRf (Reg.PCI_DMA_STATUS d) 7 4 0 else s

theorem State.stopDma_stays (s : State) (l d : Nat) : s.RegsStay (s.stopDma l d) [Reg.PCI_DMA_STATUS d] :=
  .ite (.trans (setReg_stays _ _ _ _ (by simp)) (setReg_stays _ _ _ _ (by simp))) (.refl _ _)

theorem State.rf_stopDma (s : State) {l d : Nat} (h : s.dmaLink d = l) : (s.stopDma l d).rf (Reg.PCI_DMA_STATUS d) 1 0 = 0 := by
  rw [State.stopDma, if_pos h, rf_setRf_beside _ _ _ _ _ _ _ (by decide) (by decide)]
  exact rf_setRf_same _ _ _ _ _ (by decide) (by decide)

/-- Of two different channels neither has the other's status register, nor any a configuration register that is a status register. -/
theorem dmaStatus_keys : ∀ d < 16, ∀ j < 16,
    (d ≠ j → regKey (Reg.PCI_DMA_STATUS d) ≠ regKey (Reg.PCI_DMA_STATUS j)) ∧ regKey (Reg.PCI_DMA_CFG d) ≠ regKey (Reg.PCI_DMA_STATUS j) := by
  decide

theorem State.dmaLink_stopDma (s : State) {l d j : Nat} (hd : d < 16) (hj : j < 16) : (s.stopDma l j).dmaLink d = s.dmaLink d :=
  (stopDma_stays s l j).rf (by simpa using (dmaStatus_keys d hd j hj).2) 29 29

/-- When the channels of a link below the n-th have stopped, no channel has another link, and those are STOPPED. -/
theorem State.stopDma_below (s : State) (l : Nat) {n : Nat} (hn : n ≤ 16) :
    (∀ d < 16, (each (List.range n) (fun x d => x.stopDma l d) s).dmaLink d = s.dmaLink d) ∧
      ∀ d < n, s.dmaLink d = l → (each (List.range n) (fun x d => x.stopDma l d) s).rf (Reg.PCI_DMA_STATUS d) 1 0 = 0 := by
  induction n with
  | zero => exact ⟨fun _ _ => rfl, fun d hd => absurd hd (Nat.not_lt_zero d)⟩
  | succ n ih =>
    obtain ⟨hlink, hstopped⟩ := ih (Nat.le_of_succ_le hn)
    rw [each, List.range_succ, List.foldl_append]
    refine ⟨fun d hd => (dmaLink_stopDma _ hd hn).trans (hlink d hd), fun d hd hl => ?_⟩
    rcases Nat.lt_succ_iff_lt_or_eq.1 hd with hlt | rfl
    · refine Eq.trans ?_ (hstopped d hlt hl)
      exact (stopDma_stays _ l n).rf (by simpa using (dmaStatus_keys d (hd.trans_le hn) n hn).1 hlt.ne) 1 0
    · exact rf_stopDma _ ((hlink d hn).trans hl)

theorem State.rf_stopLinkDma (s : State) {l d : Nat} (hd : d < 16) (hl : s.dmaLink d = l) : (s.stopLinkDma l).rf (Reg.PCI_DMA_STATUS d) 1 0 = 0 :=
  (stopDma_below s l (Nat.le_refl 16)).2 d hd hl

end Sys2Proof.Machine
end

/-!
SUPPORT. PCI Express (R399-R407, R421): what each command gives, and which branch of its meaning it takes.
-/
section
namespace Sys2Proof.Machine
open State

-- One declaration after the other: the proofs would else hold a thread and its stack each.
set_option Elab.async false

/-! ## Links and functions (R399, R402) -/

section
variable {s : State} {l pf : Fin 2} {rate : Fin 8} {width : Fin 32} {flit : Bool}

/-- s after PERST of link 0 has sampled the straps. -/
def State.straps (s : State) (b1 b2 : Bool) : State := (s.setRb Reg.PCI_CFG 30 b1).setRb Reg.PCI_CFG 29 b2

theorem perstDeassert_gives {b1 b2 : Bool} : s.Gives (.perstDeassert 0 b1 b2) (s.straps b1 b2) := congrArg (done s) (if_pos rfl)

theorem State.straps_areas (s : State) (b1 b2 : Bool) : s.OnlyChanges (s.straps b1 b2) [.regs] := (setRb_areas ..).andThen (setRb_areas ..)

/-- The status of a link that has come up. -/
def State.linkShown (s : State) (l rate width : Nat) (flit : Bool) : Word :=
  BitVec.ofNat 32 (2147483648 + rate * 268435456 + width * 8388608 + (if flit then 4194304 else 0) + s.rf (Reg.PCI_LINK_STATUS l) 21 19 * 524288)

theorem pcieLinkChange_up (ht : s.linkThere l.val = true) :
    let y := s.setReg (Reg.PCI_LINK_STATUS l.val) (s.linkShown l.val rate.val width.val flit)
    s.Gives (.pcieLinkChange l true rate width flit) (if true == s.linkUp l.val then y else y.sqc Reg.PCI_STATUS l.val (8 + l.val)) := by
  show execPcieLinkChange l true rate width flit s = _
  unfold execPcieLinkChange State.linkShown
  simp only [ht, Bool.not_true, Bool.false_and, Bool.or_false, Bool.false_eq_true, if_false, if_true, done]

theorem pcieLinkChange_down (ht : s.linkThere l.val = true) (hu : s.linkUp l.val = true) :
    s.Gives (.pcieLinkChange l false rate width flit) (((s.setReg (Reg.PCI_LINK_STATUS l.val)
      (BitVec.ofNat 32 (s.rf (Reg.PCI_LINK_STATUS l.val) 21 19 * 524288))).sqc Reg.PCI_STATUS l.val (8 + l.val)).linkLost l.val) := by
  show execPcieLinkChange l false rate width flit s = _
  unfold execPcieLinkChange
  simp only [ht, hu, Bool.not_true, Bool.and_false, Bool.or_false, Bool.false_eq_true, if_false, beq_iff_eq, done]

/-- The status of a link is none of the registers that an event writes. -/
theorem linkStatus_key : ∀ l : Fin 2, regKey (Reg.PCI_LINK_STATUS l.val) ∉ (Reg.PCI_STATUS :: eventRegs).map regKey := by decide

/-- The registers that a reset of PF0 clears. -/
def flrRegs (l : Nat) : List Nat :=
  [Reg.MGT_REQ_ADDR_LO l, Reg.MGT_REQ_ADDR_HI l, Reg.MGT_REQ_LEN l, Reg.MGT_RSP_ADDR_LO l, Reg.MGT_RSP_ADDR_HI l, Reg.MGT_RSP_MAX l,
    Reg.MGT_RSP_STATUS l, Reg.MGT_RSP_VEC l, Reg.PCI_BANK l]

theorem flrPf0_gives : s.Gives (.flrPf0 l) (each (flrRegs l.val) (fun x off => x.setReg off 0) (s.endSession l.val false)) := rfl

theorem State.sess_flr (s : State) (l : Nat) :
    ((each (flrRegs l) (fun x off => x.setReg off 0) (s.endSession l false)).mport l).sess = none := by
  have hhst : (each (flrRegs l) (fun x off => x.setReg off 0) (s.endSession l false)).hst = (s.endSession l false).hst :=
    (each_areas (l := [.regs]) fun _ _ => setReg_areas ..).hst
  rw [State.mport, hhst]
  exact sess_endSession s l false

/-- s with the vectors of PF1 of link l cleared. -/
def State.clearVectors (s : State) (l : Nat) : State :=
  { s with hst := { s.hst with msix := s.hst.msix.filter fun (p : Nat × MsixVec) => p.1 / 512 != 2 * l + 1 } }

theorem State.clearVectors_areas (s : State) (l : Nat) : s.OnlyChanges (s.clearVectors l) [.hst] := with_hst ..

theorem State.msix_clearVectors (s : State) (l j : Nat) : (s.clearVectors l).msix j = if j / 512 = 2 * l + 1 then {} else s.msix j := by
  refine (SMap.get_filter_key _ _ (fun a => a / 512 != 2 * l + 1) j).trans ?_
  by_cases h : j / 512 = 2 * l + 1 <;> simp [h, State.msix, SMap.gd]

theorem flrPf1_gives : s.Gives (.flrPf1 l) ((s.stopLinkDma l.val).clearVectors l.val) := rfl

theorem d3hotEntry_gives : s.Gives (.d3hotEntry l pf) (if pf.val = 1 then (s.setD3 l.val 1 true).stopLinkDma l.val else s.setD3 l.val 0 true) := by
  show done s (if pf.val = 1 then (s.setD3 l.val pf.val true).stopLinkDma l.val else s.setD3 l.val pf.val true) = _
  refine congrArg (done s) ?_
  rcases (by omega : pf.val = 0 ∨ pf.val = 1) with h | h
  · rw [if_neg (by omega), if_neg (by omega), h]
  · rw [if_pos h, if_pos h, h]

end

/-! ## A vector that is unmasked (R421) -/

section
variable {s : State} {l pf : Fin 2} {vec : Fin 512}

/-- s with vector vec of a function unmasked, its pending message taken, and the function's MSI-X enabled. -/
def State.unmasked (s : State) (l pf vec : Nat) : State :=
  (s.setRb (Reg.PCI_LINK_STATUS l) (20 - pf) true).setMsix (1024 * l + 512 * pf + vec) { masked := false, pba := false }

theorem msixVectorUnmask_gives : s.Gives (.msixVectorUnmask l pf vec)
    (if (s.msix (1024 * l.val + 512 * pf.val + vec.val)).pba then (s.unmasked l.val pf.val vec.val).sendMsix l.val pf.val vec.val
      else s.unmasked l.val pf.val vec.val) := rfl

/-- After the unmasking a message can leave where the link is up and the function in D0. -/
theorem State.msixOpen_unmasked (s : State) (l pf : Fin 2) (vec : Nat) :
    (s.unmasked l.val pf.val vec).msixOpen l.val pf.val = (s.linkUp l.val && !s.hst.d3hot.gd false (2 * l.val + pf.val)) := by
  have hup : (s.unmasked l.val pf.val vec).rb (Reg.PCI_LINK_STATUS l.val) 31 = s.linkUp l.val :=
    (rb_setRb_same s _ _ _ _ (by omega)).trans (if_neg (by omega))
  have hen : (s.unmasked l.val pf.val vec).rb (Reg.PCI_LINK_STATUS l.val) (20 - pf.val) = true :=
    (rb_setRb_same s _ _ _ _ (by omega)).trans (if_pos rfl)
  rw [State.msixOpen, hup, hen, Bool.and_true]
  rfl

theorem State.msix_unmasked (s : State) (l pf vec j : Nat) :
    (s.unmasked l pf vec).msix j = if j = 1024 * l + 512 * pf + vec then { masked := false, pba := false } else s.msix j := by
  by_cases h : j = 1024 * l + 512 * pf + vec
  · rw [if_pos h, h]
    exact msix_setMsix ..
  · rw [if_neg h]
    exact msix_setMsix_ne _ _ _ _ h

theorem State.sendMsix_of_open {s : State} {l pf vec : Nat} (h : s.msixOpen l pf = true) (hm : (s.msix (1024 * l + 512 * pf + vec)).masked = false) :
    s.sendMsix l pf vec = s.emit (.msix l pf vec) := (if_pos h).trans (if_neg (by rw [hm]; decide))

theorem State.sendMsix_of_closed {s : State} {l pf vec : Nat} (h : s.msixOpen l pf = false) : s.sendMsix l pf vec = s.inc Reg.EVT_MSIX_LOST :=
  if_neg (by rw [h]; decide)

/-- What an unmasked vector gives: nothing more, its message, or the count of a lost one. -/
theorem msixVectorUnmask_next : ∃ u, exec (.msixVectorUnmask l pf vec) s = .next u ∧ u.hst = (s.unmasked l.val pf.val vec.val).hst ∧
    ((s.msix (1024 * l.val + 512 * pf.val + vec.val)).pba = false → u.out = s.out) ∧
    ((s.msix (1024 * l.val + 512 * pf.val + vec.val)).pba = true →
      (s.linkUp l.val = true → s.hst.d3hot.gd false (2 * l.val + pf.val) = false → u.out = .msix l.val pf.val vec.val :: s.out) ∧
      (¬(s.linkUp l.val = true ∧ s.hst.d3hot.gd false (2 * l.val + pf.val) = false) → u.out = s.out ∧
        u.reg Reg.EVT_MSIX_LOST = s.reg Reg.EVT_MSIX_LOST + 1)) := by
  have hopen := msixOpen_unmasked s l pf vec.val
  cases hp : (s.msix (1024 * l.val + 512 * pf.val + vec.val)).pba with
  | false =>
    refine ⟨s.unmasked l.val pf.val vec.val, ?_, rfl, fun _ => rfl, fun h => absurd h (by decide)⟩
    refine (msixVectorUnmask_gives.to (if_neg (by rw [hp]; decide))).trans (congrArg _ (closed_of_out _ _ rfl))
  | true =>
    by_cases hc : s.linkUp l.val = true ∧ s.hst.d3hot.gd false (2 * l.val + pf.val) = false
    · have hm : ((s.unmasked l.val pf.val vec.val).msix (1024 * l.val + 512 * pf.val + vec.val)).masked = false := by rw [msix_unmasked, if_pos rfl]
      refine ⟨(s.unmasked l.val pf.val vec.val).emit (.msix l.val pf.val vec.val), ?_, rfl, fun h => absurd h (by decide), fun _ =>
        ⟨fun _ _ => rfl, fun h => absurd hc h⟩⟩
      exact (msixVectorUnmask_gives.to ((if_pos hp).trans (sendMsix_of_open (by rw [hopen, hc.1, hc.2]; rfl) hm))).trans
        (congrArg _ (closed_of_emit rfl))
    · have hno : (s.unmasked l.val pf.val vec.val).msixOpen l.val pf.val = false := by
        rw [hopen]
        simpa using hc
      refine ⟨(s.unmasked l.val pf.val vec.val).inc Reg.EVT_MSIX_LOST, ?_, rfl, fun h => absurd h (by decide), fun _ =>
        ⟨fun h1 h2 => absurd ⟨h1, h2⟩ hc, fun _ => ⟨rfl, ?_⟩⟩⟩
      · exact (msixVectorUnmask_gives.to ((if_pos hp).trans (sendMsix_of_closed hno))).trans (congrArg _ (closed_of_out _ _ rfl))
      · have hkey : ∀ l : Fin 2, regKey Reg.EVT_MSIX_LOST ≠ regKey (Reg.PCI_LINK_STATUS l.val) := by decide
        rw [reg_inc_same, State.unmasked, reg_setMsix, reg_setRb_ne _ _ _ _ _ (hkey l)]

end

/-! ## DMA (R404-R406) -/

section
variable {s : State} {d : Fin 16} {desc : DmaDesc} {bytes : List Byte} {ext : Option SecExt} {h : Nat}

theorem dmaDeliver_of_served {m : Nat} {rest : List Nat} (hr : s.dmaRuns d.val = true) (hdir : s.rb (Reg.PCI_DMA_CFG d.val) 30 = false)
    (hf : s.dmaFull d.val = true) (hn : s.dmaNext d.val = some h) (hq : s.egq (egKey (64 + h) 0) = m :: rest) :
    s.Gives (.dmaDeliver d desc) (s.dmaOut d.val h m desc) := by
  refine congrArg (done s) ((if_pos (by rw [hr, hdir, hf]; decide)).trans ?_)
  rw [hn]
  simp only [hq]

section
variable (hr : s.dmaRuns d.val = true) (hdir : s.rb (Reg.PCI_DMA_CFG d.val) 30 = true) (hf : s.dmaFull d.val = true)
  (ht : tokenU ≤ (s.dma d.val).tok.now (s.rf (Reg.PCI_DMA_CFG d.val) 23 0) 64 s.up)
include hr hdir hf ht

/-- Whether channel d may take a descriptor of frames to inject. -/
theorem State.injects : (s.dmaRuns d.val && s.rb (Reg.PCI_DMA_CFG d.val) 30 && s.dmaFull d.val &&
    decide (tokenU ≤ (s.dma d.val).tok.now (s.rf (Reg.PCI_DMA_CFG d.val) 23 0) 64 s.up)) = true := by
  simp only [hr, hdir, hf, ht, decide_true, Bool.and_true]

theorem dmaInject_of_badLength (hlen : desc.len.toNat < 64 ∨ 9600 < desc.len.toNat) : s.Gives (.dmaInject d desc bytes ext) (s.dmaBad d.val) := by
  have hbad : (decide (desc.len.toNat < 64) || decide (9600 < desc.len.toNat)) = true := by
    simpa only [Bool.or_eq_true, decide_eq_true_eq] using hlen
  exact congrArg (done s) ((if_pos (injects hr hdir hf ht)).trans (if_pos hbad))

theorem dmaInject_of_buffer (h64 : 64 ≤ desc.len.toNat) (h9600 : desc.len.toNat ≤ 9600) :
    let y := s.setDma d.val { s.dma d.val with tok := (s.dma d.val).tok.take (s.rf (Reg.PCI_DMA_CFG d.val) 23 0) 64 s.up }
    let r := y.alloc (48 + y.rf (Reg.PCI_DMA_CFG d.val) 27 24) desc.len.toNat
    r.1 = some h → s.Gives (.dmaInject d desc bytes ext) (r.2.dmaIn d.val h ((bytes ++ List.replicate desc.len.toNat 0).take desc.len.toNat) ext) := by
  intro y r hh
  have hgood : ¬((decide (desc.len.toNat < 64) || decide (9600 < desc.len.toNat)) = true) := by
    simp only [Bool.or_eq_true, decide_eq_true_eq]
    omega
  refine congrArg (done s) ((if_pos (injects hr hdir hf ht)).trans ((if_neg hgood).trans ?_))
  show (match r with | (some h, s2) => s2.dmaIn d.val h ((bytes ++ List.replicate desc.len.toNat 0).take desc.len.toNat) ext | (none, s2) => s2.dmaBad d.val) = _
  obtain ⟨o, z⟩ := r
  cases hh
  rfl

end

theorem dmaSignal_of_due (hi : s.rf (Reg.PCI_DMA_IRQ d.val) 15 0 ≠ 0) (hu : (s.dma d.val).unsig.isSome = true)
    (ht : ∀ t, (s.dma d.val).sigAt = some t → t + s.rf (Reg.PCI_DMA_IRQ d.val) 15 0 * usU ≤ s.up) :
    s.Gives (.dmaSignal d)
      ((s.setDma d.val { s.dma d.val with unsig := none, sigAt := some s.up }).sendMsix (s.dmaLink d.val) 1 (s.rf (Reg.PCI_DMA_IRQ d.val) 24 16)) := by
  refine congrArg (done s) (if_pos ?_)
  simp only [hu, bne_iff_ne.2 hi, Bool.true_and]
  cases hs : (s.dma d.val).sigAt with
  | none => simp only [Bool.not_false]
  | some t => simpa only [Bool.not_eq_true', decide_eq_false_iff_not, Nat.not_lt] using ht t hs

theorem dmaFault_of_running {why : Fin 4} (hr : s.dmaRuns d.val = true) (hw : why.val ≠ 0) :
    s.Gives (.dmaFault d why) ((((s.setRf (Reg.PCI_DMA_STATUS d.val) 1 0 2).setRf (Reg.PCI_DMA_STATUS d.val) 7 4 why.val).inc (Reg.PCI_DMA_ERR d.val)).sqc
      Reg.PCI_STATUS 3 11) := congrArg (done s) (if_pos (by rw [hr, Bool.true_and]; exact bne_iff_ne.2 hw))

end

section
variable {s : State} {who : Accessor} {d : Fin 16}

theorem dmaStart_of_mayWrite (hw : s.mayWrite who (Reg.PCI_DMA_CTRL d.val) = true) : s.Gives (.dmaStart who d) (s.dmaStart d.val) :=
  congrArg (done s) (if_pos hw)

theorem dmaStop_of_mayWrite (hw : s.mayWrite who (Reg.PCI_DMA_CTRL d.val) = true) : s.Gives (.dmaStop who d) (s.dmaStop d.val) :=
  congrArg (done s) (if_pos hw)

/-- The indexes of a channel and its status are different registers. -/
theorem dmaIndex_keys : ∀ d : Fin 16, regKey (Reg.PCI_DMA_HEAD d.val) ≠ regKey (Reg.PCI_DMA_TAIL d.val) ∧
    regKey (Reg.PCI_DMA_HEAD d.val) ≠ regKey (Reg.PCI_DMA_STATUS d.val) ∧ regKey (Reg.PCI_DMA_TAIL d.val) ≠ regKey (Reg.PCI_DMA_STATUS d.val) := by
  decide

/-- START begins at index 0. -/
theorem State.dmaStart_spec (h : s.rf (Reg.PCI_DMA_STATUS d.val) 1 0 ≠ 2) :
    (s.dmaStart d.val).rf (Reg.PCI_DMA_STATUS d.val) 1 0 = 1 ∧ (s.dmaStart d.val).reg (Reg.PCI_DMA_HEAD d.val) = 0 ∧
      (s.dmaStart d.val).reg (Reg.PCI_DMA_TAIL d.val) = 0 ∧
      s.RegsStay (s.dmaStart d.val) [Reg.PCI_DMA_STATUS d.val, Reg.PCI_DMA_HEAD d.val, Reg.PCI_DMA_TAIL d.val] := by
  obtain ⟨hht, hhs, hts⟩ := dmaIndex_keys d
  rw [State.dmaStart, if_neg h]
  refine ⟨rf_setRf_same _ _ _ _ _ (by decide) (by decide), ?_, ?_, ?_⟩
  · rw [reg_setRf_ne _ _ _ _ _ _ hhs, reg_setReg_ne _ _ _ _ hht, reg_setReg_same]
  · rw [reg_setRf_ne _ _ _ _ _ _ hts, reg_setReg_same]
  · exact .trans (.trans (setReg_stays _ _ _ _ (by simp)) (setReg_stays _ _ _ _ (by simp))) (setReg_stays _ _ _ _ (by simp))

theorem State.dmaStop_spec (s : State) (d : Nat) : (s.dmaStop d).rf (Reg.PCI_DMA_STATUS d) 1 0 = 0 ∧ (s.dmaStop d).rf (Reg.PCI_DMA_STATUS d) 7 4 = 0 ∧
    s.RegsStay (s.dmaStop d) [Reg.PCI_DMA_STATUS d] := by
  refine ⟨?_, rf_setRf_same _ _ _ _ _ (by decide) (by decide), .trans (setReg_stays _ _ _ _ (by simp)) (setReg_stays _ _ _ _ (by simp))⟩
  rw [State.dmaStop, rf_setRf_beside _ _ _ _ _ _ _ (by decide) (by decide)]
  exact rf_setRf_same _ _ _ _ _ (by decide) (by decide)

end

/-! ## The windows (R403, R407) -/

section
variable {s : State} {l : Fin 2} {up : Bool} {off : BitVec 21} {off2 : BitVec 26}

theorem bar0DecodeMiss_of_strict (hu : s.linkUp l.val = true) (hs : s.strict = true) (hr : regRow (off.toNat / 4 * 4) = none) :
    s.Gives (.bar0DecodeMiss l up off)
      (((s.inc (Reg.PCI_DECODE_ERR l.val)).setReg (Reg.PCI_DECODE_LAST l.val)
        (BitVec.ofNat 32 ((if up then 2147483648 else 0) + off.toNat))).sqc Reg.PCI_STATUS 5 15) :=
  congrArg (done s) (if_pos (by rw [hu, hs, hr]; rfl))

theorem bar2WriteDenied_outside (hu : s.linkUp l.val = true) (ho : off2.toNat < 0x1000000 ∨ 0x1001000 ≤ off2.toNat) :
    s.Gives (.bar2WriteDenied l off2) (s.inc (Reg.PCI_B2_DENIED l.val)) := by
  refine congrArg (done s) (if_pos ?_)
  simp only [hu, Bool.true_and, Bool.not_eq_true', Bool.and_eq_false_iff, decide_eq_false_iff_not]
  omega

theorem bar2ReadDenied_of_unreadable (hu : s.linkUp l.val = true) (he : s.rb (Reg.PCI_B2_CFG l.val) 1 = true) (ho : 0x2000000 ≤ off2.toNat)
    (hr : s.hostReadable (s.rf (Reg.PCI_APER_BASE l.val ((off2.toNat - 0x2000000) / 8388608)) 11 0 * 8388608 + (off2.toNat - 0x2000000) % 8388608) = false) :
    s.Gives (.bar2ReadDenied l off2) (s.inc (Reg.PCI_B2_DENIED l.val)) := by
  refine congrArg (done s) (if_pos ?_)
  simp only [hu, he, ho, hr, decide_true, Bool.not_false, Bool.and_true]

end

/-- Settles O44: each command by the state that it gives; what that state shows from the rules of its registers and of the host's state. -/
theorem pciExpressCommandsComplete : Obligations.PciExpressCommandsComplete := by
  unfold Obligations.PciExpressCommandsComplete
  intro s who l pf b1 b2 up flit rate width vec d desc bytes ext why off off2 val
  dsimp only
  refine ⟨?_, fun ht => ?_, pcieLinkChange_down, rfl, ?_, ?_, d3hotEntry_gives, rfl, rfl, ?_, fun h m rest => dmaDeliver_of_served,
    fun hr hdir hf ht => ⟨dmaInject_of_badLength hr hdir hf ht, fun h64 h96 h => dmaInject_of_buffer hr hdir hf ht h64 h96⟩, dmaSignal_of_due,
    dmaFault_of_running, fun hw => ⟨fun hf => (dmaStart_of_mayWrite hw).to (if_pos hf), fun hf => ?_, ?_⟩, bar0DecodeMiss_of_strict,
    fun hw => congrArg (done s) (if_pos hw), bar2WriteDenied_outside, bar2ReadDenied_of_unreadable⟩
  · have areas := straps_areas s b1 b2
    refine ⟨_, perstDeassert_gives.quiet areas, ?_, ?_, ?_, areas⟩
    · exact (rb_setRb_same _ _ _ _ _ (by decide)).trans ((if_neg (by decide)).trans ((rb_setRb_same _ _ _ _ _ (by decide)).trans (if_pos rfl)))
    · exact (rb_setRb_same _ _ _ _ _ (by decide)).trans (if_pos rfl)
    · exact .trans (setReg_stays _ _ _ _ (by simp)) (setReg_stays _ _ _ _ (by simp))
  · have hg := pcieLinkChange_up (rate := rate) (width := width) (flit := flit) ht
    refine ⟨_, hg, ?_, hg.areas rfl⟩
    rw [reg_closed]
    split
    · exact reg_setReg_same ..
    · exact (sqc_stays _ _ _ _ _ (linkStatus_key l)).trans (reg_setReg_same ..)
  · refine ⟨_, flrPf0_gives, ?_, ?_, ?_, ?_, flrPf0_gives.areas rfl⟩
    · rw [State.mport, closed_hst]
      exact sess_flr s l.val
    all_goals
      rw [reg_closed]
      exact reg_each_zero (.inl (by simp [flrRegs]))
  · have areas : s.OnlyChanges ((s.stopLinkDma l.val).clearVectors l.val) [.regs, .hst] :=
      (stopLinkDma_areas ..).within |>.andThen (clearVectors_areas ..)
    refine ⟨_, flrPf1_gives.quiet areas, fun j hj => (msix_clearVectors ..).trans (if_pos hj), fun j hj => ?_, fun j hj hl => rf_stopLinkDma s hj hl, areas⟩
    refine (msix_clearVectors ..).trans ((if_neg hj).trans ?_)
    rw [State.msix, (stopLinkDma_areas s l.val).hst]
    rfl
  · obtain ⟨u, hu, hhst, hquiet, hpend⟩ := msixVectorUnmask_next (s := s) (l := l) (pf := pf) (vec := vec)
    have hmsix : ∀ j, u.msix j = (s.unmasked l.val pf.val vec.val).msix j := fun j => by rw [State.msix, hhst, State.msix]
    obtain ⟨z, hz, hareas⟩ := exec_leadsTo s (.msixVectorUnmask l pf vec)
    cases hu.symm.trans hz
    refine ⟨u, hu, ?_, ?_, fun j hj => ?_, hquiet, fun hp => (hpend hp).1, fun hp => (hpend hp).2, hareas⟩
    · rw [hmsix, msix_unmasked, if_pos rfl]
    · rw [hmsix, msix_unmasked, if_pos rfl]
    · rw [hmsix, msix_unmasked, if_neg hj]
  · obtain ⟨hrun, hhead, htail, hstay⟩ := dmaStart_spec hf
    exact ⟨_, (dmaStart_of_mayWrite hw).quiet (dmaStart_areas ..), hrun, hhead, htail, hstay, dmaStart_areas ..⟩
  · obtain ⟨hrun, hwhy, hstay⟩ := dmaStop_spec s d.val
    exact ⟨_, (dmaStop_of_mayWrite hw).quiet (dmaStop_areas ..), hrun, hwhy, hstay, dmaStop_areas ..⟩

end Sys2Proof.Machine
end

/-!
SUPPORT. The management ports (R410-R420, R437): units that arrive, and the opening and end of sessions, by the state of the port.
-/
section
namespace Sys2Proof.Machine
open State

-- One declaration after the other: the proofs would else hold a thread and its stack each.
set_option Elab.async false

/-! ## Frames and units (R410, R411) -/

section
variable {s : State} {l : Fin 2} {bytes : List Byte}

theorem mgtDoorbell_of_outstanding (hp : s.portOn l.val = true) (h : (s.mport l.val).frame.isSome = true ∨ (s.mport l.val).busy.isSome = true) :
    s.Gives (.mgtDoorbell l bytes) (s.setRb (Reg.MGT_RSP_STATUS l.val) 30 true) :=
  congrArg (done s) ((if_neg (by rw [hp]; decide)).trans (if_pos (Bool.or_eq_true_iff.2 h)))

theorem mgtDoorbell_of_free (hp : s.portOn l.val = true) (hf : (s.mport l.val).frame = none) (hb : (s.mport l.val).busy = none) :
    s.Gives (.mgtDoorbell l bytes)
      ((s.setReg (Reg.MGT_RSP_STATUS l.val) 0).mgtArrive l.val 0 (bytes.take (s.reg (Reg.MGT_REQ_LEN l.val)).toNat)) :=
  congrArg (done s) ((if_neg (by rw [hp]; decide)).trans (if_neg (by rw [hf, hb]; decide)))

end

section
variable {s : State} {n : Nat} {src : BitVec 48} {unit : List Byte}

/-- A unit whose frame is under way, in time and from its source, joins it. -/
theorem State.mgtUnit_of_next {a : Partial} (ha : (s.mport n).asm = some a) (ht : s.up < a.at_ + asmLimit)
    (hn : a.next = leAt unit 0 4 / 65536 % 32768) (hs : a.src = src) :
    s.mgtUnit n src unit =
      if 2147483648 ≤ leAt unit 0 4 then
        (s.updMport n fun q => { q with asm := none }).mgtArrive n src (a.bytes ++ (unit.drop 4).take (leAt unit 0 4 % 65536))
      else s.updMport n fun q =>
        { q with asm := some { a with next := a.next + 1, bytes := a.bytes ++ (unit.drop 4).take (leAt unit 0 4 % 65536) } } := by
  unfold State.mgtUnit
  simp only [ha, Nat.not_le.2 ht, decide_false, Bool.false_eq_true, if_false, hn, hs, and_self, if_true]

/-- A unit with INDEX 0 that is not the last begins a frame. -/
theorem State.mgtUnit_of_first (ha : (s.mport n).asm = none) (hh : leAt unit 0 4 < 65536) :
    s.mgtUnit n src unit = s.updMport n fun q =>
      { q with asm := some { next := 1, bytes := (unit.drop 4).take (leAt unit 0 4 % 65536), at_ := s.up, src := src } } := by
  have hindex : leAt unit 0 4 / 65536 % 32768 = 0 := by rw [Nat.div_eq_of_lt hh]
  have hlast : ¬2147483648 ≤ leAt unit 0 4 := by omega
  unfold State.mgtUnit
  simp only [ha, Bool.false_eq_true, if_false, hindex, if_true, hlast, List.nil_append, Nat.zero_add]

theorem State.dropPartial_of_some {a : Partial} (ha : (s.mport n).asm = some a) :
    s.dropPartial n = (s.updMport n fun q => { q with asm := none }).inc (Reg.MGT_SEG_ERR n) := by
  unfold State.dropPartial
  rw [ha]

end

section
variable {s : State} {port : Fin 6} {src : BitVec 48} {good : Bool} {bytes : List Byte}

/-- A unit of a port that takes units and whose CRC is right enters the frame. -/
theorem mgtUnitRx_of_good (hp : s.portOn port.val = true) (h2 : 2 ≤ port.val) (h4 : port.val ≤ 4) (hg : port.val = 4 → good = true) :
    s.Gives (.mgtUnitRx port src good bytes) (s.mgtUnit port.val (if port.val = 2 then src else 0) bytes) := by
  have htakes : ¬((decide (port.val < 2) || decide (port.val = 5) || !s.portOn port.val) = true) := by
    simp only [hp, Bool.not_true, Bool.or_false, Bool.or_eq_true, decide_eq_true_eq]
    omega
  have hright : ¬((decide (port.val = 4) && !good) = true) := by
    simp only [Bool.and_eq_true, decide_eq_true_eq, Bool.not_eq_true', not_and, Bool.not_eq_false]
    exact hg
  exact congrArg (done s) ((if_neg htakes).trans (if_neg hright))

theorem mgtUnitRx_of_bad (hp : s.portOn port.val = true) (h4 : port.val = 4) :
    s.Gives (.mgtUnitRx port src false bytes) ((s.updMport 4 fun q => { q with asm := none }).inc (Reg.MGT_SEG_ERR 4)) := by
  have htakes : ¬((decide (port.val < 2) || decide (port.val = 5) || !s.portOn port.val) = true) := by rw [hp, h4]; decide
  refine congrArg (done s) ((if_neg htakes).trans ((if_pos ?_).trans ?_))
  · rw [h4]
    rfl
  · rw [h4]

theorem pairMgtRx_of_relay (hp : s.portOn 5 = true) (hr : s.rb Reg.PAI_CFG 30 = true) (hu : 3 ≤ s.rf Reg.PAI_LINK 31 29) :
    s.Gives (.pairMgtRx ⟨true, bytes⟩) (s.mgtUnit 5 0 bytes) := by
  refine congrArg (done s) ((if_neg (by decide)).trans (if_pos ?_))
  rw [hp, hr, Bool.true_and, Bool.true_and]
  exact decide_eq_true hu

theorem mgtFrameTimeout_of_late {a : Partial} (ha : (s.mport port.val).asm = some a) (ht : a.at_ + asmLimit ≤ s.up) :
    s.Gives (.mgtFrameTimeout port) ((s.updMport port.val fun q => { q with asm := none }).inc (Reg.MGT_SEG_ERR port.val)) := by
  refine congrArg (done s) ?_
  simp only [ha, ht, if_true]
  exact dropPartial_of_some ha

theorem smbusBlockRead_of_cons {v : List Byte} {vs : List (List Byte)} (h : (s.mport 3).rspUnits = v :: vs) :
    s.Gives .smbusBlockRead ((s.updMport 3 fun q => { q with rspUnits := vs }).emit (.mgt 3 v)) := by
  refine congrArg (done s) ?_
  rw [h]

theorem smbusBlockRead_of_nil (h : (s.mport 3).rspUnits = []) : s.Gives .smbusBlockRead (s.emit (.mgt 3 [])) := by
  refine congrArg (done s) ?_
  rw [h]

end

/-! ## The opening (R412-R415) -/

theorem State.mport_taken (s : State) (n : Nat) (f : MgtFrame) : (s.taken n f).mport n = { s.mport n with frame := none, busy := some f } := mport_setMport ..

theorem State.mport_updMport (s : State) (n : Nat) (g : MgtPort → MgtPort) : (s.updMport n g).mport n = g (s.mport n) := mport_setMport ..

/-- s with frame f in execution on port n and its opening dropped. -/
def State.reopened (s : State) (n : Nat) (f : MgtFrame) : State := (s.taken n f).updMport n fun q => { q with opening := none }

theorem State.mport_reopened (s : State) (n : Nat) (f : MgtFrame) :
    (s.reopened n f).mport n = { s.mport n with frame := none, busy := some f, opening := none } := by
  rw [State.reopened, mport_updMport, mport_taken]

theorem State.emit_setReg_keepsHost (s : State) (e : Emit) (a : Nat) (v : Word) : s.KeepsHost ((s.emit e).setReg a v) := .of_hst rfl

/-- A response changes of its port no more than the units that wait. -/
theorem State.mport_mgtSend (s : State) (n : Nat) (bs : List Byte) : ∃ r, (s.mgtSend n bs).mport n = { s.mport n with rspUnits := r } := by
  have kept : ∀ t : State, t.hst = s.hst → ∃ r, t.mport n = { s.mport n with rspUnits := r } := fun t h => ⟨_, by rw [State.mport, h]; rfl⟩
  unfold State.mgtSend
  split
  · exact kept _ (each_areas (l := [.out]) fun _ _ => emit_areas ..).hst
  · exact ⟨_, mport_updMport ..⟩
  · exact kept _ (each_areas (l := [.out]) fun _ _ => emit_areas ..).hst
  · exact kept _ (each_areas (l := [.out]) fun _ _ => .ite (.refl ..) (emit_areas ..)).hst
  · have keeps : ∀ t : State, s.KeepsHost t → ∃ r, t.mport n = { s.mport n with rspUnits := r } := fun t h => ⟨_, by rw [h.mport]⟩
    exact keeps _ (.ite ((emit_setReg_keepsHost ..).trans (sendMsix_keepsHost ..)) (emit_setReg_keepsHost ..))

/-- After the answer to an opening its port is free, its opening and session as they were. -/
theorem State.mport_openAnswer (s : State) (n : Nat) (f : MgtFrame) (sid : Word) (res : Nat) (pay : List Byte) :
    let u := (s.openAnswer n f sid res pay).mport n
    u.opening = (s.mport n).opening ∧ u.busy = none ∧ u.sess = (s.mport n).sess := by
  obtain ⟨r, hr⟩ := mport_mgtSend (s.updMport n fun q => { q with busy := none }) n (responseBytes f sid res pay none)
  intro u
  have hu : u = { s.mport n with busy := none, rspUnits := r } := by
    refine hr.trans ?_
    rw [mport_updMport]
  rw [hu]
  exact ⟨rfl, rfl, rfl⟩

theorem State.freeSid_ne_zero (s : State) : s.freeSid.1 ≠ 0 := by
  have hlt : (s.freeN 4294967295).1 < 4294967295 := Nat.mod_lt _ (by decide)
  intro h
  have h0 := congrArg BitVec.toNat h
  rw [State.freeSid, BitVec.toNat_ofNat, Nat.mod_eq_of_lt (by omega)] at h0
  exact Nat.succ_ne_zero _ h0

theorem State.length_freeNonce (s : State) : s.freeNonce.1.length = 32 := by
  simp [State.freeNonce, List.length_flatMap, leBytes]

/-- The opening that OPEN_REQ with frame f and version v makes. -/
def State.openingOf (s : State) (f : MgtFrame) (v : Nat) : Opening :=
  { sid := s.freeSid.1, slot := (byteAt f.payload 0).toNat, ver := v, np := (f.payload.drop 12).take 32, nd := s.freeSid.2.freeNonce.1
    vers := (f.payload.drop 4).take 8, at_ := s.up }

/-- The answer of OPEN_REQ that accepts version v. -/
def State.openAccepted (s : State) (n : Nat) (f : MgtFrame) (v : Nat) : State :=
  let c := s.cred (byteAt f.payload 0).toNat
  let salt := if (byteAt f.payload 0).toNat < 16 ∧ c.loaded ∧ c.typ = 1 then (c.salt ++ List.replicate 16 0).take 16 else List.replicate 16 0
  (s.freeSid.2.freeNonce.2.updMport n fun q => { q with opening := some (s.openingOf f v) }).openAnswer n f s.freeSid.1 0
    ([BitVec.ofNat 8 v, 0, 0, 0] ++ salt ++ s.freeSid.2.freeNonce.1)

section
variable {s : State} {port : Fin 6} {f : MgtFrame} (hf : (s.mport port.val).frame = some f)
include hf

section
variable (hc : f.cmd = 0x01)
include hc

theorem openReq_of_locked (hl : (s.mport port.val).lockedUntil.isSome = true) :
    s.Gives (.openReq port) ((s.reopened port.val f).openAnswer port.val f 0 39 []) := by
  refine congrArg (done s) ((onCmd_of_frame hf (by rw [hc]; decide)).trans (if_pos ?_))
  exact (congrArg (fun q : MgtPort => q.lockedUntil.isSome) (mport_reopened s port.val f)).trans hl

/-- On a port that is not locked the version decides. -/
theorem openReq_of_unlocked (hl : (s.mport port.val).lockedUntil = none) :
    s.Gives (.openReq port)
      (match versionOf (byteAt f.payload 1).toNat ((f.payload.drop 4).take 8) with
        | none => (s.reopened port.val f).openAnswer port.val f 0 37 []
        | some v => (s.reopened port.val f).openAccepted port.val f v) := by
  have hopen : ((s.reopened port.val f).mport port.val).lockedUntil = none := by rw [mport_reopened]; exact hl
  exact congrArg (done s) ((onCmd_of_frame hf (by rw [hc]; decide)).trans (if_neg (by
    intro h
    exact absurd (congrArg Option.isSome hopen) (by rw [State.reopened, h]; decide))))

end

section
variable (hc : f.cmd = 0x02)
include hc

theorem openProof_of_none (ho : (s.mport port.val).opening = none) :
    s.Gives (.openProof port) ((s.taken port.val f).openAnswer port.val f f.sid 34 []) := by
  have hnone : ((s.taken port.val f).mport port.val).opening = none := by rw [mport_taken]; exact ho
  refine congrArg (done s) ((onCmd_of_frame hf (by rw [hc]; decide)).trans ?_)
  rw [hnone]

/-- Whether the proof of frame f answers opening o on port n. -/
def State.proofGood (s : State) (n : Nat) (f : MgtFrame) (o : Opening) : Bool :=
  o.slot < 16 && (s.cred o.slot).loaded && tbit (BitVec.ofNat 32 (s.cred o.slot).ports) n &&
    f.payload == Config.kmac256 (s.cred o.slot).key (o.proofOver n) 256 "MGT OPEN P"

theorem openProof_of_opening {o : Opening} (ho : (s.mport port.val).opening = some o) (hs : f.sid = 0 ∨ f.sid = o.sid) :
    s.Gives (.openProof port)
      (if s.proofGood port.val f o then
        ((s.reopened port.val f).openSession port.val o (s.cred o.slot)).openAnswer port.val f o.sid 0
          (Config.kmac256 (s.cred o.slot).key (o.proofOver port.val) 256 "MGT OPEN D")
       else ((s.reopened port.val f).authFail port.val).openAnswer port.val f o.sid 38 []) := by
  have hsome : ((s.taken port.val f).mport port.val).opening = some o := by rw [mport_taken]; exact ho
  refine congrArg (done s) ((onCmd_of_frame hf (by rw [hc]; decide)).trans ?_)
  rw [hsome]
  exact if_neg fun h => hs.elim h.1 h.2

end

end

/-! ## What ends in time (R414) -/

section
variable {s : State} {port : Fin 6}

theorem openingTimeout_of_late {o : Opening} (ho : (s.mport port.val).opening = some o) (ht : o.at_ + 10 * secU ≤ s.up) :
    s.Gives (.openingTimeout port) (s.updMport port.val fun q => { q with opening := none }) := by
  refine congrArg (done s) ?_
  simp only [ho, ht, if_true]

theorem lockoutExpire_of_due {t : Nat} (hl : (s.mport port.val).lockedUntil = some t) (ht : t ≤ s.up) :
    s.Gives (.lockoutExpire port) (s.updMport port.val fun q => { q with lockedUntil := none }) := by
  refine congrArg (done s) ?_
  simp only [hl, ht, if_true]

theorem sessionIdleTimeout_of_idle {z : Session} (hz : (s.mport port.val).sess = some z) (hi : 0 < s.rf (Reg.MGT_PORT_CFG port.val) 11 0)
    (ht : z.lastAt + s.rf (Reg.MGT_PORT_CFG port.val) 11 0 * secU ≤ s.up) :
    s.Gives (.sessionIdleTimeout port) ((s.updMport port.val fun q => { q with sess := none }).sqc Reg.MGT_STATUS 1 13) := by
  show execSessionIdleTimeout port s = _
  unfold execSessionIdleTimeout
  simp only [hz, hi, ht, and_self, if_true, endSession_of_some hz, Bool.false_eq_true, if_false, done]

end

/-- Settles O45: units and frames by the state of their port; an opening by the frame in execution; the protocol's own commands as their rows say. -/
theorem managementPortCommandsComplete : Obligations.ManagementPortCommandsComplete := by
  unfold Obligations.ManagementPortCommandsComplete
  intro s port l f bytes src good
  dsimp only
  refine ⟨fun hp => ⟨mgtDoorbell_of_outstanding hp, mgtDoorbell_of_free hp⟩, fun hp h2 h4 => ⟨fun hg => ⟨mgtUnitRx_of_good hp h2 h4 hg, fun a ha ht hn hs =>
      ⟨fun hh => ?_, fun hh => ?_⟩, fun ha hh => ?_⟩, mgtUnitRx_of_bad hp⟩, pairMgtRx_of_relay, rfl, fun a => mgtFrameTimeout_of_late,
    fun v vs => smbusBlockRead_of_cons, smbusBlockRead_of_nil, fun hf hc => ⟨openReq_of_locked hf hc, fun hl hv => ?_, fun v hl hv => ?_⟩,
    fun o hf hc ho hs => ⟨fun hok => ?_, fun hno => ?_⟩, openProof_of_none, fun o => openingTimeout_of_late, fun t => lockoutExpire_of_due,
    fun z => sessionIdleTimeout_of_idle, fun hf => ⟨fun hc => ?_, fun hc => ?_, fun hc => ?_, fun hc => ?_, fun hc => ?_⟩⟩
  · exact (mgtUnitRx_of_good hp h2 h4 hg).to ((mgtUnit_of_next ha ht hn hs).trans (if_neg (Nat.not_le.2 hh)))
  · exact (mgtUnitRx_of_good hp h2 h4 hg).to ((mgtUnit_of_next ha ht hn hs).trans (if_pos hh))
  · exact (mgtUnitRx_of_good hp h2 h4 hg).to (mgtUnit_of_first ha hh)
  · refine (openReq_of_unlocked hf hc hl).to ?_
    rw [hv]
    rfl
  · have hg := openReq_of_unlocked hf hc hl
    rw [hv] at hg
    obtain ⟨hopening, hbusy, hsess⟩ := mport_openAnswer ((s.reopened port.val f).freeSid.2.freeNonce.2.updMport port.val fun q =>
      { q with opening := some ((s.reopened port.val f).openingOf f v) }) port.val f (s.reopened port.val f).freeSid.1 0 _
    refine ⟨_, (s.reopened port.val f).openingOf f v, hg, ?_, rfl, freeSid_ne_zero _, rfl, rfl, length_freeNonce _, ?_, ?_⟩
    · refine hopening.trans ?_
      rw [mport_updMport]
    · exact hbusy
    · refine hsess.trans ?_
      rw [mport_updMport]
      show ((s.reopened port.val f).mport port.val).sess = _
      rw [mport_reopened]
  · have hgood : s.proofGood port.val f o = true := by
      unfold State.proofGood
      simpa only [Bool.and_eq_true, decide_eq_true_eq, beq_iff_eq, and_assoc] using hok
    exact (openProof_of_opening hf hc ho hs).to (if_pos hgood)
  · have hbad : ¬(s.proofGood port.val f o = true) := by
      unfold State.proofGood
      simpa only [Bool.and_eq_true, decide_eq_true_eq, beq_iff_eq, and_assoc] using hno
    exact (openProof_of_opening hf hc ho hs).to (if_neg hbad)
  all_goals exact congrArg (done s) (onCmd_of_frame hf (by rw [hc]; decide))

end Sys2Proof.Machine
end

/-!
SUPPORT. The pair link (R424-R436): its state as PAI_LINK holds it, what a change of state leaves, and which branch of its meaning a cell takes.
-/
section
namespace Sys2Proof.Machine
open State

-- One declaration after the other: the proofs would else hold a thread and its stack each.
set_option Elab.async false

theorem State.OnlyChanges.pai {s t : State} {l : List Area} (h : s.OnlyChanges t l) (hl : .pai ∉ l := by decide) : t.pai = s.pai := h.2 .pai hl

/-- Without a change of the registers none of them changes. -/
theorem State.OnlyChanges.reg {s t : State} {l : List Area} (h : s.OnlyChanges t l) (a : Nat) (hl : .regs ∉ l := by decide) : t.reg a = s.reg a := by
  have hregs : t.regs = s.regs := h.2 .regs hl
  rw [State.reg, hregs]
  rfl

/-! ## States (R425) -/

/-- The registers of the pair link that name its state and its configuration are none that an event writes. -/
theorem pairLink_key : regKey Reg.PAI_LINK ∉ (Reg.PAI_STATUS :: eventRegs).map regKey := by decide
theorem pairCfg_key : regKey Reg.PAI_CFG ∉ (Reg.PAI_STATUS :: eventRegs).map regKey := by decide
theorem pairCfg_ne : regKey Reg.PAI_CFG ≠ regKey Reg.PAI_LINK := by decide

section
variable (s : State) (v : Nat)

theorem State.linkSt_setLinkSt (hv : v < 8) : (s.setLinkSt v).linkSt = v := by
  unfold State.setLinkSt
  by_cases h : s.linkSt = v
  · rwa [if_pos h]
  · rw [if_neg h, State.linkSt, RegsStay.rf (sqc_stays _ _ _ _) pairLink_key, rf_setRf_same _ _ _ _ _ (by decide) (by decide)]
    exact Nat.mod_eq_of_lt hv

theorem State.pairCfg_setLinkSt : (s.setLinkSt v).reg Reg.PAI_CFG = s.reg Reg.PAI_CFG := by
  unfold State.setLinkSt
  split
  · rfl
  · exact (sqc_stays _ _ _ _ _ pairCfg_key).trans (reg_setRf_ne _ _ _ _ _ _ pairCfg_ne)

theorem State.laneUp_setLinkSt : (s.setLinkSt v).laneUp = s.laneUp := by rw [State.laneUp, (setLinkSt_areas s v).pai, ← State.laneUp]

theorem State.pairEn_setLinkSt : (s.setLinkSt v).pairEn = s.pairEn := congrArg (tbit · 31) (pairCfg_setLinkSt s v)

theorem State.linkSt_setLanes (a b : Bool) : (s.setLanes a b).linkSt = s.linkSt :=
  (rf_setRb_beside _ _ _ _ _ _ (by decide)).trans (rf_setRb_beside _ _ _ _ _ _ (by decide))

theorem State.pairEn_setLanes (a b : Bool) : (s.setLanes a b).pairEn = s.pairEn :=
  congrArg (tbit · 31) ((reg_setRb_ne _ _ _ _ _ pairCfg_ne).trans (reg_setRb_ne _ _ _ _ _ pairCfg_ne))

variable {s}

theorem State.train_of_down (he : s.pairEn = true) (hu : s.laneUp = true) (h : s.linkSt = 0) : s.train = s.setLinkSt 1 := by
  refine (if_neg (by rw [he, hu]; decide)).trans ?_
  rw [h]
  rfl

theorem State.train_of_training (he : s.pairEn = true) (hu : s.laneUp = true) (h : s.linkSt = 1) : s.train = s.setLinkSt 2 := by
  refine (if_neg (by rw [he, hu]; decide)).trans ?_
  rw [h]
  rfl

/-- A link that is down and trains twice goes on to NEGOTIATING. -/
theorem State.train_train_of_down (he : s.pairEn = true) (hu : s.laneUp = true) (h : s.linkSt = 0) : s.train.train = (s.setLinkSt 1).setLinkSt 2 := by
  rw [train_of_down he hu h]
  exact train_of_training ((pairEn_setLinkSt s 1).trans he) ((laneUp_setLinkSt s 1).trans hu) (linkSt_setLinkSt s 1 (by decide))

end

section
variable {s : State} {l : Nat}

/-- The lanes once lane l has locked, and once it has dropped. -/
def State.lanesLocked (s : State) (l : Nat) : State := s.setLanes (s.pai.lane0 || l == 0) (s.pai.lane1 || l != 0)
def State.lanesDropped (s : State) (l : Nat) : State := s.setLanes (s.pai.lane0 && l != 0) (s.pai.lane1 && l == 0)

theorem State.laneUp_lanesLocked (s : State) (l : Nat) : (s.lanesLocked l).laneUp = true := by
  show ((s.pai.lane0 || l == 0) || (s.pai.lane1 || l != 0)) = true
  by_cases h : l = 0 <;> simp [h]

theorem State.laneLock_eq (s : State) (l : Nat) : s.laneLock l =
    if !(s.lanesLocked l).pairEn then s.lanesLocked l
    else if (s.lanesLocked l).linkSt = 4 then (if (s.lanesLocked l).pai.lane0 && (s.lanesLocked l).pai.lane1 then (s.lanesLocked l).setLinkSt 3 else s.lanesLocked l)
    else if (s.lanesLocked l).linkSt = 0 then (s.lanesLocked l).train.train
    else if (s.lanesLocked l).linkSt = 1 then (s.lanesLocked l).train
    else s.lanesLocked l := rfl

theorem State.laneLock_of_disabled (he : s.pairEn = false) : s.laneLock l = s.lanesLocked l :=
  (laneLock_eq s l).trans (if_pos (by rw [State.lanesLocked, pairEn_setLanes, he]; rfl))

theorem State.linkSt_lanesLocked (s : State) (l : Nat) : (s.lanesLocked l).linkSt = s.linkSt := linkSt_setLanes ..
theorem State.pairEn_lanesLocked (s : State) (l : Nat) : (s.lanesLocked l).pairEn = s.pairEn := pairEn_setLanes ..

/-- A lane that locks on an enabled link, by the state of the link. -/
theorem State.laneLock_of_enabled (he : s.pairEn = true) : s.laneLock l =
    if s.linkSt = 4 then (if (s.lanesLocked l).pai.lane0 && (s.lanesLocked l).pai.lane1 then (s.lanesLocked l).setLinkSt 3 else s.lanesLocked l)
    else if s.linkSt = 0 then (s.lanesLocked l).train.train
    else if s.linkSt = 1 then (s.lanesLocked l).train
    else s.lanesLocked l := by
  rw [laneLock_eq, pairEn_lanesLocked, he, linkSt_lanesLocked]
  rfl

theorem State.laneLock_of_down (he : s.pairEn = true) (h : s.linkSt = 0) : s.laneLock l = ((s.lanesLocked l).setLinkSt 1).setLinkSt 2 := by
  rw [laneLock_of_enabled he, if_neg (by omega), if_pos h]
  exact train_train_of_down ((pairEn_lanesLocked s l).trans he) (laneUp_lanesLocked s l) ((linkSt_lanesLocked s l).trans h)

theorem State.laneLock_of_training (he : s.pairEn = true) (h : s.linkSt = 1) : s.laneLock l = (s.lanesLocked l).setLinkSt 2 := by
  rw [laneLock_of_enabled he, if_neg (by omega), if_neg (by omega), if_pos h]
  exact train_of_training ((pairEn_lanesLocked s l).trans he) (laneUp_lanesLocked s l) ((linkSt_lanesLocked s l).trans h)

theorem State.laneDrop_eq (s : State) (l : Nat) : s.laneDrop l =
    if (s.lanesDropped l).laneUp then (if s.linkSt = 3 then (s.lanesDropped l).setLinkSt 4 else s.lanesDropped l) else (s.lanesDropped l).pairDown := by
  have hst : (s.lanesDropped l).linkSt = s.linkSt := linkSt_setLanes ..
  show (if !(s.lanesDropped l).laneUp then (s.lanesDropped l).pairDown
    else if (s.lanesDropped l).linkSt = 3 then (s.lanesDropped l).setLinkSt 4 else s.lanesDropped l) = _
  rw [hst]
  by_cases hu : (s.lanesDropped l).laneUp = true
  · rw [if_pos hu, if_neg (by rw [hu]; decide)]
  · rw [if_neg hu, if_pos (by simpa using hu)]

end

/-! ## Version negotiation (R426) -/

section
variable {s : State} {p1 p2 : Bool}

theorem State.agree_of_unseen (h : s.pai.helloSeen = none) : s.agree = s := by
  unfold State.agree
  split
  next hseen => exact absurd (h.symm.trans hseen) (by simp)
  next => rfl

theorem State.agree_of_unsent (h : s.pai.helloSent = false) : s.agree = s := by
  unfold State.agree
  split
  next hsent _ => exact absurd (h.symm.trans hsent) (by decide)
  next => rfl

/-- Once HELLOs have gone both ways the version is agreed, or the mismatch reported. -/
theorem State.agree_of_seen (hst : s.linkSt = 2) (hsent : s.pai.helloSent = true) (hseen : s.pai.helloSeen = some (p1, p2)) :
    s.agree = if p2 && s.offersPl2 then s.comeUp 2 else if p1 then s.comeUp 1 else s.sqc Reg.PAI_STATUS 1 305 := by
  unfold State.agree
  rw [hst, hsent, hseen]
  rfl

/-- What agreement gives, by what both sides offer. -/
theorem State.agreed_cases {c : Instr} {z : State} (hz : s.Gives c z.agree) (hst : z.linkSt = 2) (hsent : z.pai.helloSent = true)
    (hseen : z.pai.helloSeen = some (p1, p2)) (hoff : z.offersPl2 = s.offersPl2) :
    (p2 = true → s.offersPl2 = true → s.Gives c (z.comeUp 2)) ∧
      (¬(p2 = true ∧ s.offersPl2 = true) → p1 = true → s.Gives c (z.comeUp 1)) ∧
      (¬(p2 = true ∧ s.offersPl2 = true) → p1 = false → s.Gives c (z.sqc Reg.PAI_STATUS 1 305)) := by
  have hag := agree_of_seen hst hsent hseen
  rw [hoff] at hag
  refine ⟨fun h2 ho => hz.to (hag.trans (if_pos (by rw [h2, ho]; rfl))), fun hno h1 => hz.to (hag.trans ?_), fun hno h1 => hz.to (hag.trans ?_)⟩
  · rw [if_neg (by simpa using hno), if_pos h1]
  · rw [if_neg (by simpa using hno), if_neg (by simp [h1])]

/-- s after a HELLO on every up lane. -/
def State.helloOut (s : State) : State :=
  let hello := Emit.cell 1 [s.helloMap, 0xB0, Config.devId.toNat] []
  let y := if s.pai.lane0 then s.emit hello else s
  let y1 := if s.pai.lane1 then y.emit hello else y
  { y1 with pai := { y1.pai with helloSent := true, helloAt := s.up + usU } }

theorem helloTx_of_due (hst : s.linkSt = 2) (hu : s.laneUp = true) (ht : s.pai.helloAt ≤ s.up) : s.Gives .helloTx s.helloOut.agree := by
  refine congrArg (done s) (if_pos ?_)
  simp only [hst, hu, ht, decide_true, Bool.and_true]

theorem State.helloOut_areas (s : State) : s.OnlyChanges s.helloOut [.out, .pai] :=
  OnlyChanges.andThen (.andIf (.ite (emit_areas ..).within (.refl ..)) (emit_areas ..).within) (with_pai ..)

theorem State.helloSeen_helloOut (s : State) : s.helloOut.pai.helloSeen = s.pai.helloSeen := by
  have cells : s.OnlyChanges (let y := if s.pai.lane0 then s.emit (Emit.cell 1 [s.helloMap, 0xB0, Config.devId.toNat] []) else s
      if s.pai.lane1 then y.emit (Emit.cell 1 [s.helloMap, 0xB0, Config.devId.toNat] []) else y) [.out] :=
    OnlyChanges.andIf (.ite (emit_areas ..) (.refl ..)) (emit_areas ..)
  have kept := congrArg Pair.helloSeen cells.pai
  exact kept

/-- s with the partner of a HELLO in its registers, and with its offer. -/
def State.helloShown (s : State) (step : BitVec 8) (devId : BitVec 128) : State :=
  (each (List.range 4) (fun x w => x.setReg (Reg.PAI_PEER_ID w) (wordAt (natWords 4 devId.toNat) w)) s).setRf Reg.PAI_LINK 15 8 step.toNat

def State.helloIn (s : State) (p1 p2 : Bool) (step : BitVec 8) (devId : BitVec 128) : State :=
  { s.helloShown step devId with pai := { (s.helloShown step devId).pai with helloSeen := some (p1, p2) } }

variable {step : BitVec 8} {devId : BitVec 128}

theorem helloRx_gives (hst : s.linkSt = 2) : s.Gives (.helloRx true ⟨p1, p2⟩ step devId) (s.helloIn p1 p2 step devId).agree :=
  congrArg (done s) ((if_neg (by decide)).trans (if_pos hst))

theorem State.linkSt_helloIn (s : State) (p1 p2 : Bool) (step : BitVec 8) (devId : BitVec 128) : (s.helloIn p1 p2 step devId).linkSt = s.linkSt := by
  show (s.helloShown step devId).rf Reg.PAI_LINK 31 29 = s.rf Reg.PAI_LINK 31 29
  rw [State.helloShown, rf_setRf_beside _ _ _ _ _ _ _ (by decide) (by decide)]
  exact RegsStay.rf (each_setReg_stays s _) (by decide) 31 29

theorem State.offersPl2_helloIn (s : State) (p1 p2 : Bool) (step : BitVec 8) (devId : BitVec 128) :
    (s.helloIn p1 p2 step devId).offersPl2 = s.offersPl2 := by
  have hcfg : (s.helloShown step devId).reg Reg.PAI_CFG = s.reg Reg.PAI_CFG :=
    (reg_setRf_ne _ _ _ _ _ _ pairCfg_ne).trans (each_setReg_stays s _ _ (by decide))
  exact congrArg (fun w => !tbit w 29) hcfg

theorem State.helloSent_helloIn (s : State) (p1 p2 : Bool) (step : BitVec 8) (devId : BitVec 128) :
    (s.helloIn p1 p2 step devId).pai.helloSent = s.pai.helloSent := by
  have areas : s.OnlyChanges (s.helloShown step devId) [.regs] := (each_setReg_areas s _).andThen (setRf_areas ..)
  have kept := congrArg Pair.helloSent areas.pai
  exact kept

end

/-! ## Heartbeats (R429-R432) -/

section
variable {s : State}

/-- s after a heartbeat has gone, with what it carries after its time and the state of the device. -/
def State.hbOut (s : State) (last rest : List Nat) : State :=
  let y := s.emit (.cell 1 ([s.pai.hbSeq.toNat, s.time] ++ last ++ [devCode s.pwr.st, s.devMeas, (s.reg Reg.AUT_EPOCH_CUR).toNat] ++ rest) [])
  { y with pai := { y.pai with hbSeq := y.pai.hbSeq + 1, hbAt := s.up + s.rf Reg.PAI_CFG 24 15 * usU } }

/-- The time of the partner's last heartbeat and of its receipt. -/
def State.echo (s : State) : Nat × Nat := match s.pai.lastHb with | some (h, _) => (h.txTime, s.pai.lastRx) | none => (0, 0)

theorem heartbeatTx_of_due (hu : s.pairUp = true) (ht : s.pai.hbAt ≤ s.up) : ∃ rest, s.Gives .heartbeatTx (s.hbOut [s.echo.1, s.echo.2] rest) := by
  refine ⟨(if s.rf Reg.PAI_LINK 28 27 = 2 then (List.range 16).map s.partMeas else []) ++
    (s.pairClocks.flatMap fun n => [n, (s.aclk n).value, (s.aclk n).freq]), congrArg (done s) ((if_pos ?_).trans ?_)⟩
  · simp only [hu, ht, decide_true, Bool.and_true]
  · unfold State.hbOut State.echo
    cases s.pai.lastHb <;> simp only [List.append_assoc]

theorem State.hbOut_out (s : State) (t3 t4 : Nat) (rest : List Nat) : (s.hbOut [t3, t4] rest).out =
    .cell 1 ([s.pai.hbSeq.toNat, s.time, t3, t4, devCode s.pwr.st, s.devMeas, (s.reg Reg.AUT_EPOCH_CUR).toNat] ++ rest) [] :: s.out := rfl

variable {hb : Heartbeat} {sub : Fin 4}

theorem heartbeatRx_of_new (hu : s.pairUp = true) (hn : hb.seq ∉ s.pai.rxHb) :
    let y := { s with pai := { s.pai with
      rxHb := (hb.seq :: s.pai.rxHb).take 32768, lastHb := some (hb, s.up), lastRx := s.stampNs sub.val, miss := 0, missFrom := s.up } }
    s.Gives (.heartbeatRx ⟨true, hb, sub⟩)
      ((((y.setRf Reg.PAI_LINK 21 19 hb.state.toNat).measurePair hb (s.stampNs sub.val)).judgeAlign hb).judgeMatch.judgeChans) :=
  congrArg (done s) ((if_neg (by decide)).trans (if_pos (by simp [hu, hn])))

theorem heartbeatRx_of_taken (hu : s.pairUp = true) (hn : hb.seq ∈ s.pai.rxHb) : s.Gives (.heartbeatRx ⟨true, hb, sub⟩) s :=
  congrArg (done s) ((if_neg (by decide)).trans (if_neg (by simp [hu, hn])))

theorem heartbeatMiss_of_due (hu : s.pairUp = true) (ht : s.pai.missFrom + s.rf Reg.PAI_CFG 24 15 * usU ≤ s.up) :
    let y := ({ s with pai := { s.pai with miss := s.pai.miss + 1, missFrom := s.up } }).inc Reg.PAI_HB_MISS
    s.Gives .heartbeatMiss (if s.rf Reg.PAI_CFG 28 25 ≤ s.pai.miss + 1 then y.pairDown else y) := by
  refine congrArg (done s) (if_pos ?_)
  simp only [hu, ht, decide_true, Bool.and_true]

end

/-! ## What the partner sends (R434-R436) -/

section
variable {s : State} {seq : BitVec 16} {m : BitVec 8} {len : Fin 5} {w0 w1 w2 w3 : Word}

/-- A post not taken before arrives where the mailbox of its number can receive. -/
theorem pairMbxRx_of_new (hu : s.pairUp = true) (hn : seq ∉ s.pai.rxMbx) :
    let k := 128 + m.toNat % 16
    let y := { s with pai := { s.pai with rxMbx := (seq :: s.pai.rxMbx).take 32768 } }
    s.Gives (.pairMbxRx ⟨true, seq⟩ m len w0 w1 w2 w3)
      (if s.rb (mbCfgReg 0 k) 31 && !s.mbDir 0 k && s.rf (mbCfgReg 0 k) 29 27 < 6 then
        (y.inc Reg.PAI_MB_RX).mbArrive (s.rf (mbCfgReg 0 k) 29 27) k (mailWords #v[w0, w1, w2, w3] len.val) true
       else y) :=
  congrArg (done s) ((if_neg (by decide)).trans (if_pos (by simp [hu, hn])))

theorem pairEvtRx_of_up {e : BitVec 9} (hu : s.pairUp = true) (he : e.toNat < 320) :
    s.Gives (.pairEvtRx ⟨true, e⟩) ((s.setRb (Reg.PAI_PEER_EVT_PEND (e.toNat / 32)) (e.toNat % 32) true).sqc Reg.PAI_STATUS 3 307) :=
  congrArg (done s) ((if_neg (by decide)).trans (if_pos (by simp [hu, he])))

variable {tc : Fin 8}

/-- s with n bytes of credit of class tc come back. -/
def State.credited (s : State) (tc n : Nat) : State :=
  { s with pai := { s.pai with credit := s.pai.credit.sd 0 tc (min 32768 (s.credit tc + n)) } }

theorem State.credited_areas (s : State) (tc n : Nat) : s.OnlyChanges (s.credited tc n) [.pai] := with_pai ..

theorem creditReturnRx_of_up {n : Nat} (hu : s.pairUp = true) : s.Gives (.creditReturnRx ⟨true, tc⟩ n) (s.credited tc.val n) :=
  congrArg (done s) ((if_neg (by decide)).trans (if_pos hu))

/-- A class that has waited for credit is not empty. -/
theorem State.egq_of_creditWaited {tc : Nat} (hw : s.creditWaited tc = true) : s.egq (egKey 21 tc) ≠ [] := by
  intro h
  unfold State.creditWaited at hw
  rw [h] at hw
  exact Bool.false_ne_true hw

theorem creditTimeout_of_waited (hu : s.pairUp = true) (hw : s.creditWaited tc.val = true) :
    s.Gives (.creditTimeout tc)
      (((each (s.egq (egKey 21 tc.val)) (fun z j => z.endCopy j false) s).inc Reg.PAI_CREDIT_FLUSH).sqc Reg.PAI_STATUS 7 311) :=
  congrArg (done s) ((if_pos (by rw [hu, hw]; rfl)).trans (if_neg (by simpa using egq_of_creditWaited hw)))

end

/-- Settles O46: lanes by the state of the link; negotiation by the HELLOs that have gone; a cell by its number and the state of the link. -/
theorem pairLinkCommandsComplete : Obligations.PairLinkCommandsComplete := by
  unfold Obligations.PairLinkCommandsComplete
  intro s lane pl1 pl2 step devId sub hb seq m len w0 w1 w2 w3 e tc code bytes ext n
  dsimp only
  refine ⟨fun he => congrArg (done s) (laneLock_of_disabled he), fun he => ⟨fun h => congrArg (done s) (laneLock_of_down he h),
      fun h => congrArg (done s) (laneLock_of_training he h), fun h h0 h1 => congrArg (done s) ((laneLock_of_enabled he).trans ?_),
      fun h hno => congrArg (done s) ((laneLock_of_enabled he).trans ?_), fun h => congrArg (done s) ((laneLock_of_enabled he).trans ?_)⟩,
    fun h => congrArg (done s) ((laneDrop_eq s lane.val).trans (if_neg (Bool.eq_false_iff.1 h))),
    fun h h3 => congrArg (done s) ((laneDrop_eq s lane.val).trans ((if_pos h).trans (if_pos h3))),
    fun h h3 => congrArg (done s) ((laneDrop_eq s lane.val).trans ((if_pos h).trans (if_neg h3))),
    fun hst hu ht => ⟨fun hs => ?_, fun p1 p2 hs => ?_⟩, fun hst => ⟨fun hs => ?_, fun hs => ?_⟩, fun hu ht => ?_, heartbeatRx_of_new,
    heartbeatRx_of_taken, heartbeatMiss_of_due, fun hu hn => ⟨fun hcan => ?_, fun hno => ?_⟩, pairEvtRx_of_up, fun hu => ⟨fun hv => ?_, fun hv => ?_⟩,
    fun hu => ?_, creditTimeout_of_waited, ?_⟩
  · rw [if_pos h]
    exact if_pos (Bool.and_eq_true_iff.2 ⟨h0, h1⟩)
  · rw [if_pos h]
    exact if_neg (mt Bool.and_eq_true_iff.1 hno)
  · rw [if_neg (by omega), if_neg (by omega), if_neg (by omega)]
    rfl
  · exact (helloTx_of_due hst hu ht).to (agree_of_unseen ((helloSeen_helloOut s).trans hs))
  · have areas := helloOut_areas s
    exact agreed_cases (helloTx_of_due hst hu ht) ((congrArg (fld · 31 29) (areas.reg Reg.PAI_LINK)).trans hst) rfl ((helloSeen_helloOut s).trans hs)
      (congrArg (fun w => !tbit w 29) (areas.reg Reg.PAI_CFG))
  · exact (helloRx_gives hst).to (agree_of_unsent ((helloSent_helloIn ..).trans hs))
  · exact agreed_cases (helloRx_gives hst) ((linkSt_helloIn ..).trans hst) ((helloSent_helloIn ..).trans hs) rfl (offersPl2_helloIn ..)
  · obtain ⟨rest, hg⟩ := heartbeatTx_of_due hu ht
    have hclosed := closed_of_emit (hbOut_out s s.echo.1 s.echo.2 rest)
    refine ⟨_, s.echo.1, s.echo.2, rest, hg.trans (congrArg _ hclosed), rfl, rfl, fun h t hl => ?_, ?_⟩
    · unfold State.echo
      rw [hl]
      exact ⟨rfl, rfl⟩
    · have hareas := hg.areas rfl
      rw [hclosed] at hareas
      exact hareas.mono (by decide)
  · refine (pairMbxRx_of_new hu hn).to (if_pos ?_)
    obtain ⟨hen, hdir, hc⟩ := hcan
    rw [hen, hdir]
    exact decide_eq_true hc
  · refine (pairMbxRx_of_new hu hn).to (if_neg ?_)
    simpa [and_assoc] using hno
  · exact congrArg (done s) ((if_neg (by decide)).trans ((if_pos hu).trans (if_pos hv)))
  · exact congrArg (done s) ((if_neg (by decide)).trans ((if_pos hu).trans (if_neg (Bool.eq_false_iff.1 hv))))
  · exact ⟨_, (creditReturnRx_of_up hu).quiet (credited_areas ..), SMap.gd_sd_same _ _ _ _, fun j hj => SMap.gd_sd_ne _ _ _ _ _ hj, credited_areas ..⟩
  · intro c hc
    simp only [List.mem_cons, List.not_mem_nil, or_false] at hc
    rcases hc with rfl | rfl | rfl | rfl | rfl | rfl
    all_goals rfl

end Sys2Proof.Machine
end

/-!
SUPPORT. A forwarded event at the partner (R435): the lowest pending one, and what its delivery leaves of the pair link's registers (R421).
-/
section
namespace Sys2Proof.Machine
open State

-- One declaration after the other: the proofs would else hold a thread and its stack each.
set_option Elab.async false

/-! ## The lowest pending event -/

section
variable {s : State} {base : Nat → Nat} {n : Nat}

theorem State.lowestPending_of_first (hn : n < 320) (hb : s.rb (base (n / 32)) (n % 32) = true)
    (hlow : ∀ m, m < n → s.rb (base (m / 32)) (m % 32) = false) : s.lowestPending base = some n :=
  List.find?_range_eq_some.2 ⟨hb, List.mem_range.2 hn, fun m hm => by rw [hlow m hm]; rfl⟩

theorem State.lowestPending_of_none (h : ∀ m, m < 320 → s.rb (base (m / 32)) (m % 32) = false) : s.lowestPending base = none :=
  List.find?_range_eq_none.2 fun m hm => by rw [h m hm]; rfl

end

/-! ## The registers of a cluster and the others -/

theorem regKey_below {a : Nat} (h : a < 0x100000) : regKey a = a := if_neg fun hc => Nat.not_le.2 h hc.1

theorem regKey_cluster {a : Nat} (h : 0x100000 ≤ a) : 0x100000 ≤ regKey a := by
  unfold regKey
  split
  · exact Nat.le_add_right ..
  · exact h

/-! ## Delivery (R421) -/

section
variable (s : State) {n a : Nat}

/-- Delivery to MSI-X and to a supervisor leaves every register outside the clusters but the count of lost messages. -/
theorem State.reg_deliverMsix (ha : a < 0x100000) (hl : a ≠ Reg.EVT_MSIX_LOST) : (s.deliverMsix n).reg a = s.reg a := by
  have hsend : ∀ l p v, (s.sendMsix l p v).reg a = s.reg a := by
    intro l p v
    unfold State.sendMsix
    split
    · split <;> rfl
    · exact reg_inc_ne _ _ _ (by rwa [regKey_below ha, regKey_below (by decide)])
  unfold State.deliverMsix
  split
  · exact hsend ..
  · rfl

theorem State.reg_deliverSup (ha : a < 0x100000) : (s.deliverSup n).reg a = s.reg a := by
  unfold State.deliverSup
  split
  · refine reg_setRb_ne _ _ _ _ _ fun e => ?_
    have hc := regKey_cluster (a := Reg.CLU_EVT_PEND (s.rf (Reg.EVT_ROUTE n) 18 16) (n / 32)) (by unfold Reg.CLU_EVT_PEND; omega)
    rw [regKey_below ha] at e
    omega
  · rfl

theorem State.reg_deliverAlarm (hn : n < 320) (ha : a < 0x100000) (hl : ∀ w < 10, a ≠ Reg.EVT_ALARM_PEND w) : (s.deliverAlarm n).reg a = s.reg a := by
  unfold State.deliverAlarm
  split
  · have hw : n / 32 < 10 := by omega
    refine reg_setRb_ne _ _ _ _ _ ?_
    rw [regKey_below ha, regKey_below (by unfold Reg.EVT_ALARM_PEND; omega)]
    exact hl _ hw
  · rfl

theorem State.out_deliverAlarm : (s.deliverAlarm n).out = s.out := by
  unfold State.deliverAlarm
  split <;> rfl

/-- s with event n delivered to MSI-X and to a supervisor. -/
def State.deliveredHere (s : State) (n : Nat) : State := (s.deliverMsix n).deliverSup n

theorem State.reg_deliveredHere (ha : a < 0x100000) (hl : a ≠ Reg.EVT_MSIX_LOST) : (s.deliveredHere n).reg a = s.reg a :=
  (reg_deliverSup _ ha).trans (reg_deliverMsix s ha hl)

theorem State.pairUp_deliveredHere : (s.deliveredHere n).pairUp = s.pairUp :=
  congrArg (fun w : Word => decide (3 ≤ fld w 31 29)) (reg_deliveredHere s (a := Reg.PAI_LINK) (by decide) (by decide))

theorem State.routed_deliveredHere (hn : n < 320) : (s.deliveredHere n).rb (Reg.EVT_ROUTE n) 15 = s.rb (Reg.EVT_ROUTE n) 15 :=
  congrArg (tbit · 15) (reg_deliveredHere s (by unfold Reg.EVT_ROUTE; omega) (by unfold Reg.EVT_ROUTE Reg.EVT_MSIX_LOST; omega))

variable {s}

/-- An event for the partner leaves in a cell while the link is up, and is counted as lost while it is down. -/
theorem State.deliver_to_pair (hn : n < 320) (hr : evReserved n = false) (ht : s.rb (Reg.EVT_ROUTE n) 15 = true) :
    s.deliver n =
      (if s.pairUp then (s.deliveredHere n).emit (.cell 3 [n] []) else (s.deliveredHere n).inc Reg.PAI_EVT_LOST).deliverAlarm n := by
  refine (if_neg (by rw [hr]; decide)).trans (congrArg (State.deliverAlarm · n) ?_)
  refine (if_pos ((routed_deliveredHere s hn).trans ht)).trans ?_
  rw [← pairUp_deliveredHere s (n := n)]
  rfl

theorem alarmPend_ne_evtLost : ∀ w < 10, Reg.PAI_EVT_LOST ≠ Reg.EVT_ALARM_PEND w := by decide

theorem State.deliver_of_pairDown (hn : n < 320) (hr : evReserved n = false) (ht : s.rb (Reg.EVT_ROUTE n) 15 = true) (hu : s.pairUp = false) :
    (s.deliver n).reg Reg.PAI_EVT_LOST = s.reg Reg.PAI_EVT_LOST + 1 := by
  rw [deliver_to_pair hn hr ht, if_neg (by rw [hu]; decide), reg_deliverAlarm _ hn (by decide) alarmPend_ne_evtLost, reg_inc_same,
    reg_deliveredHere s (by decide) (by decide)]

theorem State.deliver_of_pairUp (hn : n < 320) (hr : evReserved n = false) (ht : s.rb (Reg.EVT_ROUTE n) 15 = true) (hu : s.pairUp = true) :
    .cell 3 [n] [] ∈ (s.deliver n).out ∧ (s.deliver n).reg Reg.PAI_EVT_LOST = s.reg Reg.PAI_EVT_LOST := by
  rw [deliver_to_pair hn hr ht, if_pos hu, reg_deliverAlarm _ hn (by decide) alarmPend_ne_evtLost, out_deliverAlarm]
  exact ⟨List.mem_cons_self, reg_deliveredHere s (by decide) (by decide)⟩

end

/-! ## The cell of an event -/

section
variable {s : State} {e : BitVec 9}

/-- The words of the partner's events are not the status of the pair link. -/
theorem pairStatus_ne_peerEvt : ∀ w < 10, regKey Reg.PAI_STATUS ≠ regKey (Reg.PAI_PEER_EVT_PEND w) := by decide

theorem State.status_setPeerEvt (he : e.toNat < 320) :
    (s.setRb (Reg.PAI_PEER_EVT_PEND (e.toNat / 32)) (e.toNat % 32) true).reg Reg.PAI_STATUS = s.reg Reg.PAI_STATUS :=
  reg_setRb_ne _ _ _ _ _ (pairStatus_ne_peerEvt _ (by omega))

/-- A new event in a status register that the state y shares with s. -/
theorem State.sqc_of_reg_eq {s y : State} {off bit ev : Nat} (h : y.reg off = s.reg off) :
    y.sqc off bit ev = if s.rb off bit then y.setRf off 31 24 (s.rf off 31 24 + 1)
      else ((y.setRb off bit true).setRf off 31 24 (s.rf off 31 24 + 1)).deliver ev := by
  unfold State.sqc State.rb State.rf
  rw [h]

end

/-- Settles O58: the event of a cell by the bit of its status; the take by the lowest event pending; a delivery by the state of the link. -/
theorem forwardedEventsAtThePartner : Obligations.ForwardedEventsAtThePartner := by
  unfold Obligations.ForwardedEventsAtThePartner
  intro s e who
  dsimp only
  refine ⟨fun hu he => ⟨fun hb => ?_, fun hb => ?_, ?_⟩, fun hm => ⟨fun n hn hb hlow => ?_, fun hnone => ?_⟩, fun n hn hr ht =>
    ⟨deliver_of_pairDown hn hr ht, deliver_of_pairUp hn hr ht⟩⟩
  · exact (pairEvtRx_of_up hu he).to ((sqc_of_reg_eq (status_setPeerEvt he)).trans (if_neg (by rw [hb]; decide)))
  · exact (pairEvtRx_of_up hu he).to ((sqc_of_reg_eq (status_setPeerEvt he)).trans (if_pos hb))
  · exact (rb_setRb_same _ _ _ _ _ (Nat.mod_lt _ (by decide))).trans (if_pos rfl)
  · exact congrArg (done s) (rttRead_takeEvent_some hm (lowestPending_of_first hn hb hlow))
  · exact congrArg (done s) (rttRead_takeEvent_none hm (lowestPending_of_none hnone))

end Sys2Proof.Machine
end

/-!
SUPPORT. The recorder, fetches from history, the DRAM controller and the scrubs (R139, R282, R443-R454): which branch of its meaning a command takes.
-/
section
namespace Sys2Proof.Machine
open State

-- One declaration after the other: the proofs would else hold a thread and its stack each.
set_option Elab.async false

theorem State.OnlyChanges.ddr {s t : State} {l : List Area} (h : s.OnlyChanges t l) (hl : .ddr ∉ l := by decide) : t.ddr = s.ddr := h.2 .ddr hl

/-! ## Records (R451-R454) -/

section
variable {s : State} {who : Accessor} {val : Word}

theorem recordComplete_of_full {r : Fin 16} {j : RecJob} (hj : (s.recSet r.val).job = some j) (hf : s.recordFull r.val j = true) :
    s.Gives (.recordComplete r) ((((s.putHeader r.val true).setRecSet r.val { job := none }).setReg (Reg.REC_SET_WR r.val)
      (BitVec.ofNat 32 ((j.slot + 1) % max (s.setSlots r.val) 1))).sqc Reg.REC_STATUS 1 315) := by
  refine congrArg (done s) ?_
  simp only [hj]
  exact if_pos hf

theorem recCmdTrigger_of_mayWrite (hw : s.mayWrite who Reg.REC_CMD = true) :
    s.Gives (.recCmdTrigger who val) (s.recCmd who (putFld val 31 28 9)) := congrArg (done s) (if_pos hw)

theorem State.recCmd_of_denied {v : Word} (ha : s.isAdmin who = false) : s.recCmd who v = s.recResult v 5 := if_pos (by rw [ha]; rfl)

/-- The command TRIGGER names its set in the bits below its operation. -/
theorem fld_trigger (val : Word) : fld (putFld val 31 28 9) 30 28 = 1 ∧ fld (putFld val 31 28 9) 3 0 = fld val 3 0 :=
  ⟨fld_cmdWord_op_of_lt (op := 1) (by decide), fld_cmdWord_below (op := 1) (by decide)⟩

/-- TRIGGER by ADMIN: the set that it names is on, or there is none to name. -/
theorem State.recCmd_trigger (ha : s.isAdmin who = true) :
    s.recCmd who (putFld val 31 28 9) =
      if s.rb (Reg.REC_SET_CFG (fld val 3 0)) 31 then (s.recTrigger (fld val 3 0) 8).recResult (putFld val 31 28 9) 0
      else s.recResult (putFld val 31 28 9) 6 := by
  obtain ⟨hop, hset⟩ := fld_trigger val
  refine (if_neg (by rw [ha]; decide)).trans ?_
  rw [hop, hset]
  by_cases hon : s.rb (Reg.REC_SET_CFG (fld val 3 0)) 31 = true
  · rw [if_neg (by rw [hon]; decide), if_pos hon]
  · rw [if_pos (by simpa using hon), if_neg hon]

end

/-! ## Fetches from history (R450) -/

section
variable {s : State} {c f part : Nat} {b : FetchUnit}

/-- A start at a unit that is not busy, by what the fetch names. -/
theorem State.fetchStart_of_idle (hb : b.status ≠ 1) :
    (s.setFetchU (8 * c + f) b).fetchStart c f part =
      if s.fetchOk c part b then (s.setFetchU (8 * c + f) b).setFetchU (8 * c + f) { b with status := 1 }
      else (s.setFetchU (8 * c + f) b).fetchErr.setFetchU (8 * c + f) { b with status := 3 } := by
  have hok : (s.setFetchU (8 * c + f) b).fetchOk c part b = s.fetchOk c part b := rfl
  unfold State.fetchStart
  simp only [fetchU_setFetchU, hok, hb, if_false]

theorem histFetchStart_of_owner {t : ThreadId} {f : Fin 8} {val : Word} (ho : s.fetchUnitOf t.cl.val f.val (s.thrPart (tidNat t)) = true)
    (hs : (s.fetchU (8 * t.cl.val + f.val)).status ≠ 1) :
    s.Gives (.histFetchStart t f val)
      ((s.setFetchU (8 * t.cl.val + f.val) { s.fetchU (8 * t.cl.val + f.val) with w2 := putBit val 31 true }).fetchStart t.cl.val f.val
        (s.thrPart (tidNat t))) := by
  refine congrArg (done s) ((if_pos ho).trans ?_)
  rw [if_neg hs]

end

section
variable {s : State} {c : Fin 6} {f : Fin 8}

/-- The end of a fetch under way, by what history holds and the lines that it reads. -/
theorem histFetchDone_of_busy (hs : (s.fetchU (8 * c.val + f.val)).status = 1) :
    let n := 8 * c.val + f.val
    let u := s.fetchU n
    let h := fld u.w0 12 0
    let cnt := fld u.w2 27 16 + 1
    let g := fetchFirst (s.histHi h) u.w1
    s.Gives (.histFetchDone c f)
      (if !(s.histHolds h g && s.histHolds h (g + cnt - 1)) then s.fetchErr.setFetchU n { u with status := 4 }
       else if ((List.range cnt).map fun i => s.histAddr h (g + i) / 64).any (fun l => s.ddr.bad.gd false l) then
        s.fetchErr.setFetchU n { u with status := 3 }
       else (s.fetchCopy c.val u g cnt).setFetchU n { u with status := 2 }) := congrArg (done s) (if_pos hs)

end

/-! ## DRAM (R444-R446) -/

section
variable {s : State}

/-- s after a refresh: counted, and DRAM busy for its time. -/
def State.refreshed (s : State) : State :=
  let n := if s.ddr32Gb then 410 else 295
  let y0 := (s.inc Reg.DDR_REFRESH).pmuFab 0x8E {} n
  { y0 with ddr := { y0.ddr with busyTo := s.up + n * nsU } }

theorem State.cool_refreshed (s : State) : s.refreshed.ddr.cool = s.ddr.cool := by
  have kept : s.OnlyChanges ((s.inc Reg.DDR_REFRESH).pmuFab 0x8E {} (if s.ddr32Gb then 410 else 295)) [.regs] :=
    (inc_areas ..).within |>.andThen (pmuFab_areas ..)
  have hcool := congrArg Dram.cool kept.ddr
  exact hcool

theorem ddrRefresh_gives (h : s.ddrState = 2) :
    s.Gives .ddrRefresh (if decide (s.ddr.cool < 4) == s.refreshed.rb Reg.DDR_STATUS 7 then s.refreshed
      else (s.refreshed.setRb Reg.DDR_STATUS 7 (decide (s.ddr.cool < 4))).sqc Reg.DDR_STATUS 6 319) := by
  rw [← cool_refreshed s]
  exact congrArg (done s) (if_pos h)

theorem State.setDdrState_of_ne {v : Nat} (h : s.ddrState ≠ v) : s.setDdrState v = (s.setRf Reg.DDR_STATUS 1 0 v).sqc Reg.DDR_STATUS 4 312 := if_neg h

theorem ddrTrainingDone_of_training {pass : Bool} (h : s.ddrState = 1) :
    s.Gives (.ddrTrainingDone pass) ((s.setRf Reg.DDR_STATUS 1 0 (if pass then 2 else 3)).sqc Reg.DDR_STATUS 4 312) := by
  refine congrArg (done s) ((if_pos h).trans (setDdrState_of_ne ?_))
  rw [h]
  cases pass <;> decide

theorem ddrScrubLine_of_there {line : Nat} {err : ScrubError} (h : s.ddrState = 2) (hl : 64 * line < s.ddrBytes) :
    s.Gives (.ddrScrubLine line err) (match err with | .clean => s | .single => s.inc Reg.DDR_ECC_CORR | .uncorrectable => s.badLine line) := by
  refine congrArg (done s) (if_pos ?_)
  simp only [h, hl, decide_true, Bool.and_true]

theorem ddrScrubLine_of_absent {line : Nat} {err : ScrubError} (hl : ¬64 * line < s.ddrBytes) : s.Gives (.ddrScrubLine line err) s := by
  have habsent : ¬((decide (s.ddrState = 2) && decide (64 * line < s.ddrBytes)) = true) := by
    simp only [hl, decide_false, Bool.and_false, Bool.false_eq_true, not_false_eq_true]
  exact (congrArg (done s) (if_neg habsent)).trans (congrArg Host.Outcome.next rfl)

end

/-- Settles O47: records and fetches by the state of their unit; the controller by its state; a scrub by what it finds. -/
theorem recorderAndMemoryCommandsComplete : Obligations.RecorderAndMemoryCommandsComplete := by
  unfold Obligations.RecorderAndMemoryCommandsComplete
  intro s who r val t f c hot pass line cs i unit
  dsimp only
  refine ⟨fun j => recordComplete_of_full, fun hw => ⟨fun ha => (recCmdTrigger_of_mayWrite hw).to (recCmd_of_denied ha), fun ha hon => ?_, fun ha hon => ?_⟩,
    fun ho hs => ?_, fun hs hh => (histFetchDone_of_busy hs).to (if_pos (by rw [hh]; rfl)), fun hs h1 h2 hlines => ?_,
    fun h => ⟨fun hb => ?_, fun hb => ?_, congrArg (done s) (if_pos h), ?_⟩, ddrTrainingDone_of_training, rfl, rfl, rfl, rfl, rfl, rfl⟩
  · exact (recCmdTrigger_of_mayWrite hw).to ((recCmd_trigger ha).trans (if_neg (by rw [hon]; decide)))
  · exact (recCmdTrigger_of_mayWrite hw).to ((recCmd_trigger ha).trans (if_pos hon))
  · have hg := (histFetchStart_of_owner (val := val) ho hs).to (fetchStart_of_idle hs)
    split
    next hok =>
      have hstart := hg.to (if_pos hok)
      have areas := (setFetchU_areas s (8 * t.cl.val + f.val) { s.fetchU (8 * t.cl.val + f.val) with w2 := putBit val 31 true }).andThen
        (setFetchU_areas _ (8 * t.cl.val + f.val) { s.fetchU (8 * t.cl.val + f.val) with w2 := putBit val 31 true, status := 1 })
      exact ⟨_, hstart.quiet areas, fetchU_setFetchU .., fun j hj => (fetchU_setFetchU_ne _ _ _ _ hj).trans (fetchU_setFetchU_ne _ _ _ _ hj), areas⟩
    next hno => exact hg.to (if_neg hno)
  · refine (histFetchDone_of_busy hs).to ((if_neg (by rw [h1, h2]; decide)).trans (if_neg ?_))
    simpa using hlines
  · refine (ddrRefresh_gives h).to (if_pos ?_)
    exact beq_iff_eq.2 hb.symm
  · refine (ddrRefresh_gives h).to (if_neg ?_)
    exact fun e => hb (beq_iff_eq.1 e).symm
  · split
    next hl => exact ⟨ddrScrubLine_of_there h hl, ddrScrubLine_of_there h hl, ddrScrubLine_of_there h hl⟩
    next hl => exact fun err => ddrScrubLine_of_absent hl

end Sys2Proof.Machine
end

/-!
SUPPORT. Counter control and debug (R459-R470): the registers of the counters, the debug command by its operation, the proof of the JTAG path and the
TAP.
-/
section
namespace Sys2Proof.Machine
open State

-- One declaration after the other: the proofs would else hold a thread and its stack each.
set_option Elab.async false

/-! ## Counter control (R459) -/

section
variable {s : State} {who : Accessor} {val : Word}

theorem State.pmuCtrl_of_keep {b : Bool} (h : tbit val 1 = false) :
    s.pmuCtrl (putBit val 0 b) = s.setReg Reg.PMU_CTRL (BitVec.ofNat 32 (if b then 1 else 0)) := by
  have hclear : ¬(tbit (putBit val 0 b) 1 = true) := by
    rw [tbit_putBit _ _ _ _ (by decide), if_neg (by decide), h]
    decide
  have hfreeze : fld (putBit val 0 b) 0 0 = if b then 1 else 0 := by
    refine (fld_putFld_same _ _ _ _ (by decide) (by decide)).trans ?_
    cases b <;> rfl
  refine (if_neg hclear).trans ?_
  rw [hfreeze]

/-- The registers of the counters are in no page that the clusters share. -/
theorem pmuValue_key {r : Nat} (h : r ∈ pmuValueRegs) : regKey r = r := by
  have hpage : ¬(0x100000 ≤ r ∧ 0x2400 ≤ r % 0x10000 ∧ r % 0x10000 < 0x2C80) := by
    simp only [pmuValueRegs, List.mem_append, List.mem_flatMap, List.mem_range, List.mem_cons, List.not_mem_nil, or_false, Reg.PMU_CTR_LO,
      Reg.PMU_CTR_HI, Reg.CLU_PMU_CCTR_LO, Reg.CLU_PMU_CCTR_HI, Reg.CLU_PMU_CTR_LO, Reg.CLU_PMU_CTR_HI] at h
    rcases h with ⟨n, hn, h | h⟩ | ⟨c, hc, ⟨n, hn, h | h⟩ | ⟨k, hk, n, hn, h | h⟩⟩
    all_goals omega
  exact if_neg hpage

theorem State.reg_pmuZero (s : State) (a : Nat) : s.pmuZero.reg a = if regKey a ∈ pmuValueRegs then regReset (regKey a) else s.reg a := by
  refine (SMap.get_filter_key _ _ (fun k => !pmuValueRegs.contains k) (regKey a)).trans ?_
  by_cases h : regKey a ∈ pmuValueRegs
  · rw [if_neg (by simp [h]), if_pos h]
  · rw [if_pos (by simp [h]), if_neg h]
    rfl

theorem State.pmuCtrl_clear (s : State) (val : Word) :
    s.pmuCtrl (putBit val 1 true) = (s.setReg Reg.PMU_CTRL (BitVec.ofNat 32 (fld (putBit val 1 true) 0 0))).pmuZero :=
  if_pos ((tbit_putBit _ _ _ _ (by decide)).trans (if_pos rfl))

theorem State.pmuCleared_areas (s : State) (w : Word) : s.OnlyChanges ((s.setReg Reg.PMU_CTRL w).pmuZero) [.regs] :=
  (setReg_areas ..).andThen (pmuZero_areas ..)

/-- A clear leaves every counter at its reset value, and no other register but PMU_CTRL changes. -/
theorem State.pmuCleared_spec (s : State) (w : Word) :
    (∀ r ∈ pmuValueRegs, ((s.setReg Reg.PMU_CTRL w).pmuZero).reg r = regReset (regKey r)) ∧
      s.RegsStay ((s.setReg Reg.PMU_CTRL w).pmuZero) (Reg.PMU_CTRL :: pmuValueRegs) := by
  refine ⟨fun r hr => (reg_pmuZero _ r).trans (if_pos ?_), fun a ha => (reg_pmuZero _ a).trans ((if_neg ?_).trans (reg_setReg_ne _ _ _ _ ?_))⟩
  · rwa [pmuValue_key hr]
  · intro hm
    refine ha (List.mem_map.2 ⟨_, List.mem_cons_of_mem _ hm, pmuValue_key hm⟩)
  · intro e
    exact ha (List.mem_map.2 ⟨_, List.mem_cons_self, e.symm⟩)

end

/-! ## The debug command (R466-R470) -/

/-- An action on thread k under a CONTROL grant, where the state of the thread allows it. -/
def State.dbgAct (s : State) (who : Accessor) (w : Word) (k : Nat) (ok : Bool) (f : State → State) : State :=
  if !s.dbgAllowed who (s.thrPart k) true then s.dbgDeny.dbgResult w 5 else if ok then (f s).dbgResult w 0 else s.dbgResult w 7

/-- A debug access to memory. -/
def State.dbgMem (s : State) (who : Accessor) (w : Word) (c k space : Nat) (write : Bool) : State :=
  match s.dbgMemPart c k space (s.reg Reg.DBG_MEM_ADDR).toNat with
  | none => s.dbgResult w 6
  | some q =>
    if !s.dbgAllowed who q write || (write && !s.dbgWritable c space (s.reg Reg.DBG_MEM_ADDR).toNat) then s.dbgDeny.dbgResult w 5
    else if space = 2 ∧ (s.thr k).st ≠ .halted then s.dbgResult w 7
    else if write then (s.dbgStore c k space (s.reg Reg.DBG_MEM_ADDR).toNat (s.reg Reg.DBG_MEM_DATA)).dbgResult w 0
    else (s.setReg Reg.DBG_MEM_DATA (s.dbgRead c k space (s.reg Reg.DBG_MEM_ADDR).toNat)).dbgResult w 0

/-- A debug command by its operation, for a cluster that exists. -/
def State.dbgDo (s : State) (who : Accessor) (w : Word) (op c k space : Nat) : State :=
  match op with
  | 1 => s.dbgAct who w k (s.canHalt k) fun x => x.haltThread k 2 0
  | 2 => s.dbgAct who w k ((s.thr k).st == .halted) fun x => x.goOn k false
  | 3 => s.dbgAct who w k ((s.thr k).st == .halted) fun x => x.goOn k true
  | 4 => s.dbgAct who w k ((s.thr k).st == .halted) fun x => ((x.cpxDrain k).updThr k fun t => { t with ctx := t.ctx.ofWords x.dbgCtxData }).refetch k
  | 5 => s.dbgMem who w c k space false
  | 6 => s.dbgMem who w c k space true
  | _ => s.dbgResult w 6

section
variable {s : State} {who : Accessor} {val w : Word} {op k : Nat}

theorem State.dbgRun_eq (s : State) (who : Accessor) (w : Word) :
    s.dbgRun who w = if 6 ≤ fld w 26 24 then s.dbgResult w 6
      else s.dbgDo who w (fld w 30 28) (fld w 26 24) (128 * fld w 26 24 + fld w 22 16) (fld w 1 0) := rfl

/-- The word of a command names its operation, and its cluster, thread and space as the value that was written. -/
theorem State.dbgWrite_of_cluster (hop : op < 8) (hw : s.mayWrite who Reg.DBG_CMD = true) (hc : fld val 26 24 < 6) :
    s.dbgWrite who op val = s.dbgDo who (putFld val 31 28 (8 + op)) op (fld val 26 24) (128 * fld val 26 24 + fld val 22 16) (fld val 1 0) := by
  refine (if_pos hw).trans ((dbgRun_eq ..).trans ?_)
  rw [fld_cmdWord_op_of_lt hop, fld_cmdWord_below (hi := 26) (by decide), fld_cmdWord_below (hi := 22) (by decide),
    fld_cmdWord_below (hi := 1) (by decide)]
  exact if_neg (Nat.not_le.2 hc)

variable {ok : Bool} {f : State → State}

theorem State.dbgAct_of_denied (h : s.dbgAllowed who (s.thrPart k) true = false) : s.dbgAct who w k ok f = s.dbgDeny.dbgResult w 5 :=
  if_pos (by rw [h]; rfl)

theorem State.dbgAct_of_ok (h : s.dbgAllowed who (s.thrPart k) true = true) (ho : ok = true) : s.dbgAct who w k ok f = (f s).dbgResult w 0 :=
  (if_neg (by rw [h]; decide)).trans (if_pos ho)

theorem State.dbgAct_of_not_ok (h : s.dbgAllowed who (s.thrPart k) true = true) (ho : ok = false) : s.dbgAct who w k ok f = s.dbgResult w 7 :=
  (if_neg (by rw [h]; decide)).trans (if_neg (by rw [ho]; decide))

variable {c sp q : Nat} (hq : s.dbgMemPart c k sp (s.reg Reg.DBG_MEM_ADDR).toNat = some q)
include hq

theorem State.dbgMem_of_denied (ha : s.dbgAllowed who q true = false) : s.dbgMem who w c k sp true = s.dbgDeny.dbgResult w 5 := by
  unfold State.dbgMem
  rw [hq]
  exact if_pos (by rw [ha]; rfl)

variable (hh : sp = 2 → (s.thr k).st = .halted)
include hh

theorem State.dbgMem_read (ha : s.dbgAllowed who q false = true) :
    s.dbgMem who w c k sp false = (s.setReg Reg.DBG_MEM_DATA (s.dbgRead c k sp (s.reg Reg.DBG_MEM_ADDR).toNat)).dbgResult w 0 := by
  unfold State.dbgMem
  rw [hq]
  exact (if_neg (by rw [ha, Bool.false_and]; decide)).trans ((if_neg fun h => h.2 (hh h.1)).trans (if_neg (by decide)))

theorem State.dbgMem_write (ha : s.dbgAllowed who q true = true) (hw : s.dbgWritable c sp (s.reg Reg.DBG_MEM_ADDR).toNat = true) :
    s.dbgMem who w c k sp true = (s.dbgStore c k sp (s.reg Reg.DBG_MEM_ADDR).toNat (s.reg Reg.DBG_MEM_DATA)).dbgResult w 0 := by
  unfold State.dbgMem
  rw [hq]
  exact (if_neg (by rw [ha, hw]; decide)).trans ((if_neg fun h => h.2 (hh h.1)).trans (if_pos rfl))

end

section
variable {s : State} {who : Accessor} {val : Word} (hw : s.mayWrite who Reg.DBG_CMD = true) (hc : fld val 26 24 < 6)
include hw hc

theorem dbgHalt_of_cluster : s.Gives (.dbgHalt who val)
    (s.dbgAct who (putFld val 31 28 (8 + 1)) (128 * fld val 26 24 + fld val 22 16) (s.canHalt (128 * fld val 26 24 + fld val 22 16))
      fun x => x.haltThread (128 * fld val 26 24 + fld val 22 16) 2 0) :=
  congrArg (done s) (dbgWrite_of_cluster (op := 1) (by decide) hw hc)

theorem dbgResume_of_cluster : s.Gives (.dbgResume who val)
    (s.dbgAct who (putFld val 31 28 (8 + 2)) (128 * fld val 26 24 + fld val 22 16) ((s.thr (128 * fld val 26 24 + fld val 22 16)).st == .halted)
      fun x => x.goOn (128 * fld val 26 24 + fld val 22 16) false) :=
  congrArg (done s) (dbgWrite_of_cluster (op := 2) (by decide) hw hc)

theorem dbgStep_of_cluster : s.Gives (.dbgStep who val)
    (s.dbgAct who (putFld val 31 28 (8 + 3)) (128 * fld val 26 24 + fld val 22 16) ((s.thr (128 * fld val 26 24 + fld val 22 16)).st == .halted)
      fun x => x.goOn (128 * fld val 26 24 + fld val 22 16) true) :=
  congrArg (done s) (dbgWrite_of_cluster (op := 3) (by decide) hw hc)

theorem dbgWriteCtx_of_cluster : s.Gives (.dbgWriteCtx who val)
    (s.dbgAct who (putFld val 31 28 (8 + 4)) (128 * fld val 26 24 + fld val 22 16) ((s.thr (128 * fld val 26 24 + fld val 22 16)).st == .halted)
      fun x =>
        ((x.cpxDrain (128 * fld val 26 24 + fld val 22 16)).updThr (128 * fld val 26 24 + fld val 22 16) fun t => { t with ctx := t.ctx.ofWords x.dbgCtxData }).refetch
          (128 * fld val 26 24 + fld val 22 16)) :=
  congrArg (done s) (dbgWrite_of_cluster (op := 4) (by decide) hw hc)

theorem dbgMemRd_of_cluster : s.Gives (.dbgMemRd who val)
    (s.dbgMem who (putFld val 31 28 (8 + 5)) (fld val 26 24) (128 * fld val 26 24 + fld val 22 16) (fld val 1 0) false) :=
  congrArg (done s) (dbgWrite_of_cluster (op := 5) (by decide) hw hc)

theorem dbgMemWr_of_cluster : s.Gives (.dbgMemWr who val)
    (s.dbgMem who (putFld val 31 28 (8 + 6)) (fld val 26 24) (128 * fld val 26 24 + fld val 22 16) (fld val 1 0) true) :=
  congrArg (done s) (dbgWrite_of_cluster (op := 6) (by decide) hw hc)

end

/-! ## Contexts and breakpoints (R467, R470) -/

section
variable {s : State} {who : Accessor} {val : Word} {t : ThreadId}

theorem dbgCtxData_keys : ∀ v < 41, ∀ w < 41, regKey (Reg.DBG_CTX_DATA v) = regKey (Reg.DBG_CTX_DATA w) → v = w := by
  intro v hv w hw h
  rw [regKey_below (by unfold Reg.DBG_CTX_DATA; omega), regKey_below (by unfold Reg.DBG_CTX_DATA; omega)] at h
  unfold Reg.DBG_CTX_DATA at h
  omega

/-- The context of a halted thread is shown word by word. -/
theorem State.dbgCtxSel_of_halted {k : Nat} (hk : k = 128 * fld val 10 8 + fld val 6 0) (hc : fld val 10 8 < 6)
    (ha : s.dbgAllowed who (s.thrPart k) false = true) (hh : (s.thr k).st = .halted) :
    let y := (s.setReg Reg.DBG_CTX_SEL (BitVec.ofNat 32 (fld val 10 8 * 256 + fld val 6 0))).cpxDrain k
    s.dbgCtxSel who val = each (List.range 41) (fun x w => x.setReg (Reg.DBG_CTX_DATA w) (wordAt (y.thr k).ctx.words w)) y := by
  subst hk
  exact (if_neg (Nat.not_le.2 hc)).trans ((if_neg (by rw [ha]; decide)).trans (if_neg (not_not_intro hh)))

theorem breakpointHit_of_hit {b : Nat} (hb : s.bpHit (tidNat t) = some b) :
    s.Gives (.breakpointHit t)
      ((if s.rb (Reg.CLU_DBG_BP t.cl.val t.core.val b) 28 then
          each ((List.range 8).filter (· != t.thr.val)) (fun x i =>
            if x.canHalt (tidNat t / 8 * 8 + i) then x.haltThread (tidNat t / 8 * 8 + i) 1 b else x) s
        else s).haltThread (tidNat t) 1 b) := by
  refine congrArg (done s) ?_
  simp only [hb]

end

/-! ## The proof of the JTAG path (R465) -/

section
variable {s : State} {who : Accessor} {val : Word} {p i : Nat}

/-- s with slot i named for partition p. -/
def State.jtagNamed (s : State) (p i : Nat) : State := s.setReg Reg.DBG_JTAG (BitVec.ofNat 32 (p * 65536 + i))

/-- s with JTAG bound to partition p by slot i, and s with a failed proof counted. -/
def State.jtagBound (s : State) (p i : Nat) : State :=
  { ((s.jtagNamed p i).setRb Reg.DBG_STATUS 0 true) with dbg := { (s.jtagNamed p i).dbg with
      nonce := s.dbg.nonce + 1, fails := 0, bound := some p, boundAdmin := (s.cred i).role == 0 } }
def State.jtagFailed (s : State) (p i : Nat) : State :=
  { s.jtagNamed p i with dbg := { (s.jtagNamed p i).dbg with
      nonce := s.dbg.nonce + 1, fails := if s.dbg.fails = 7 then 0 else s.dbg.fails + 1
      lockedUntil := if s.dbg.fails = 7 then some (s.up + 60 * secU) else none } }

theorem jtagProof_of_unlocked (hw : s.mayWrite who Reg.DBG_JTAG = true) (hl : s.dbg.lockedUntil = none) :
    s.Gives (.jtagProof who val)
      (if s.jtagProves (fld val 19 16) (fld val 3 0) then s.jtagBound (fld val 19 16) (fld val 3 0) else s.jtagFailed (fld val 19 16) (fld val 3 0)) := by
  have hgo : tbit (putBit val 31 true) 31 = true := (tbit_putBit _ _ _ _ (by decide)).trans (if_pos rfl)
  refine congrArg (done s) ((if_pos hw).trans ((if_neg ?_).trans ?_))
  · rw [hgo, State.jtagLocked, hl]
    decide
  · rw [fld_putBit_ne _ _ _ _ _ (by decide), fld_putBit_ne _ _ _ _ _ (by decide)]
    rfl

theorem State.jtagBound_areas (s : State) (p i : Nat) : s.OnlyChanges (s.jtagBound p i) [.regs, .dbg] :=
  OnlyChanges.andThen (OnlyChanges.andThen (setReg_areas ..).within (setRb_areas ..)) (with_dbg ..)
theorem State.jtagFailed_areas (s : State) (p i : Nat) : s.OnlyChanges (s.jtagFailed p i) [.regs, .dbg] :=
  OnlyChanges.andThen (setReg_areas ..).within (with_dbg ..)

theorem State.reg_jtagBound (s : State) (p i : Nat) : (s.jtagBound p i).reg Reg.DBG_JTAG = BitVec.ofNat 32 (p * 65536 + i) := by
  show ((s.jtagNamed p i).setRb Reg.DBG_STATUS 0 true).reg Reg.DBG_JTAG = _
  rw [reg_setRb_ne _ _ _ _ _ (by decide), State.jtagNamed, reg_setReg_same]

theorem State.rb_jtagBound (s : State) (p i : Nat) : (s.jtagBound p i).rb Reg.DBG_STATUS 0 = true := by
  show ((s.jtagNamed p i).setRb Reg.DBG_STATUS 0 true).rb Reg.DBG_STATUS 0 = true
  rw [rb_setRb_same _ _ _ _ _ (by decide), if_pos rfl]

theorem State.reg_jtagFailed (s : State) (p i : Nat) : (s.jtagFailed p i).reg Reg.DBG_JTAG = BitVec.ofNat 32 (p * 65536 + i) := by
  show (s.jtagNamed p i).reg Reg.DBG_JTAG = _
  rw [State.jtagNamed, reg_setReg_same]

theorem jtagLockoutExpire_of_due {x : Nat} (hl : s.dbg.lockedUntil = some x) (hx : x ≤ s.up) :
    s.Gives .jtagLockoutExpire { s with dbg := { s.dbg with lockedUntil := none } } := by
  refine congrArg (done s) ?_
  simp only [hl, hx, if_true]

end

/-! ## The TAP (R464, R480) -/

section
variable {s : State} {bnd : Nat}

/-- s with the boundary register loaded and its old content, a free value, shifted out. -/
def State.scanned (s : State) (bnd tap : Nat) : State :=
  ({ s.freeW.2 with dbg := { s.freeW.2.dbg with boundary := bnd, tap := tap } }).emit (.tdo s.freeW.1.toNat)

theorem State.scanned_areas (s : State) (bnd tap : Nat) : s.OnlyChanges (s.scanned bnd tap) [.fv, .dbg, .out] :=
  (OnlyChanges.andThen (freeW_areas s).within (with_dbg ..)).andThen (emit_areas ..)

theorem jtagExtest_of_drive (h : s.tapMayDrive = true) : s.Gives (.jtagExtest bnd) (s.scanned bnd 1) := congrArg (done s) (if_pos h)

theorem State.Gives.scanned {c : Instr} {tap : Nat} (h : s.Gives c (s.scanned bnd tap)) :
    ∃ u o, exec c s = .next u ∧ u.dbg = { s.dbg with boundary := bnd, tap := tap } ∧ u.out = .tdo o :: s.out ∧ s.OnlyChanges u [.fv, .dbg, .out] :=
  ⟨s.scanned bnd tap, s.freeW.1.toNat, h.trans (congrArg _ (closed_of_emit rfl)), rfl, rfl, scanned_areas ..⟩

/-- s after a reset of the TAP. -/
def State.tapCleared (s : State) : State := { s.unbindJtag with dbg := { s.unbindJtag.dbg with tap := 0, captured := 0 } }

theorem State.tapCleared_areas (s : State) : s.OnlyChanges s.tapCleared [.regs, .dbg] :=
  OnlyChanges.andThen (OnlyChanges.andThen (setRb_areas ..).within (with_dbg ..)) (with_dbg ..)

theorem State.rb_tapCleared (s : State) : s.tapCleared.rb Reg.DBG_STATUS 0 = false := by
  show (s.setRb Reg.DBG_STATUS 0 false).rb Reg.DBG_STATUS 0 = false
  rw [rb_setRb_same _ _ _ _ _ (by decide), if_pos rfl]

theorem State.tapCleared_stays (s : State) : s.RegsStay s.tapCleared [Reg.DBG_STATUS] :=
  .trans (setReg_stays _ _ _ _ (by simp)) (stays_of_regs rfl _)

end

/-- Settles O48: counters by their registers; a debug command by its operation and its grant; a proof by what it proves; the TAP by its instruction. -/
theorem debugCommandsComplete : Obligations.DebugCommandsComplete := by
  unfold Obligations.DebugCommandsComplete
  intro s who val t bnd
  dsimp only
  refine ⟨fun hw hk => ⟨congrArg (done s) ((if_pos hw).trans (pmuCtrl_of_keep hk)), congrArg (done s) ((if_pos hw).trans (pmuCtrl_of_keep hk))⟩, fun hw => ?_,
    fun hw hc => ⟨fun ha => ?_, fun ha => ⟨fun hh => ?_, fun hh => ?_, fun hh => ?_, fun hh => ?_⟩, fun q hq hh => ⟨fun ha => ?_, fun ha hwr => ?_, fun ha => ?_⟩⟩,
    fun hw hc ha hh => ?_, fun b => breakpointHit_of_hit, fun hw hl => ?_, fun x => jtagLockoutExpire_of_due, rfl, rfl, State.Gives.scanned (tap := 0) rfl,
    fun hd => ⟨(jtagExtest_of_drive hd).scanned, congrArg (done s) (if_pos hd), congrArg (done s) (if_pos hd)⟩, fun hd => ?_, ?_⟩
  · have hg : s.Gives (.pmuClear who val) _ := congrArg (done s) ((if_pos hw).trans (pmuCtrl_clear s val))
    obtain ⟨hzero, hstay⟩ := pmuCleared_spec s (BitVec.ofNat 32 (fld (putBit val 1 true) 0 0))
    exact ⟨_, hg.quiet (pmuCleared_areas ..), hzero, hstay, pmuCleared_areas ..⟩
  · exact ⟨(dbgHalt_of_cluster hw hc).to (dbgAct_of_denied ha), (dbgResume_of_cluster hw hc).to (dbgAct_of_denied ha),
      (dbgStep_of_cluster hw hc).to (dbgAct_of_denied ha), (dbgWriteCtx_of_cluster hw hc).to (dbgAct_of_denied ha)⟩
  · exact (dbgHalt_of_cluster hw hc).to (dbgAct_of_ok ha hh)
  · exact (dbgHalt_of_cluster hw hc).to (dbgAct_of_not_ok ha hh)
  · have hhalted := beq_iff_eq.2 hh
    exact ⟨(dbgResume_of_cluster hw hc).to (dbgAct_of_ok ha hhalted), (dbgStep_of_cluster hw hc).to (dbgAct_of_ok ha hhalted),
      (dbgWriteCtx_of_cluster hw hc).to (dbgAct_of_ok ha hhalted)⟩
  · have hrunning := beq_eq_false_iff_ne.2 hh
    exact ⟨(dbgResume_of_cluster hw hc).to (dbgAct_of_not_ok ha hrunning), (dbgStep_of_cluster hw hc).to (dbgAct_of_not_ok ha hrunning),
      (dbgWriteCtx_of_cluster hw hc).to (dbgAct_of_not_ok ha hrunning)⟩
  · exact (dbgMemRd_of_cluster hw hc).to (dbgMem_read hq hh ha)
  · exact (dbgMemWr_of_cluster hw hc).to (dbgMem_write hq hh ha hwr)
  · exact (dbgMemWr_of_cluster hw hc).to (dbgMem_of_denied hq ha)
  · have hg : s.Gives (.dbgCtxSelect who val) _ := congrArg (done s) ((if_pos hw).trans (dbgCtxSel_of_halted rfl hc ha hh))
    refine ⟨_, hg, fun w hw41 => ?_⟩
    rw [reg_closed]
    exact reg_each_setReg _ _ dbgCtxData_keys w hw41
  · have hg := jtagProof_of_unlocked (val := val) hw hl
    by_cases hp : s.jtagProves (fld val 19 16) (fld val 3 0) = true
    · have areas := jtagBound_areas s (fld val 19 16) (fld val 3 0)
      refine ⟨_, (hg.to (if_pos hp)).quiet areas, rfl, reg_jtagBound .., ?_, areas⟩
      rw [if_pos hp]
      exact ⟨rfl, rb_jtagBound .., rfl⟩
    · have areas := jtagFailed_areas s (fld val 19 16) (fld val 3 0)
      refine ⟨_, (hg.to (if_neg hp)).quiet areas, rfl, reg_jtagFailed .., ?_, areas⟩
      rw [if_neg hp]
      exact ⟨rfl, fun h7 => if_pos h7, fun h7 => ⟨if_neg h7, if_neg h7⟩⟩
  · intro i hi
    simp only [List.mem_cons, List.not_mem_nil, or_false] at hi
    have hpass : ¬(s.tapMayDrive = true) := Bool.eq_false_iff.1 hd
    rcases hi with rfl | rfl | rfl
    all_goals exact congrArg (done s) (if_neg hpass)
  · have areas := tapCleared_areas s
    have hg : s.Gives .tapReset s.tapCleared := rfl
    exact ⟨_, hg.quiet areas, rfl, rb_tapCleared s, tapCleared_stays s, areas⟩

end Sys2Proof.Machine
end

/-!
SUPPORT. Power, resets and boot (R472-R494): what a main reset and the fall and rise of VAUX leave, and which branch of its meaning a command takes.
-/
section
namespace Sys2Proof.Machine
open State

-- One declaration after the other: the proofs would else hold a thread and its stack each.
set_option Elab.async false

/-! ## The main reset (R480, R481) -/

/-- u is s in COLD after a main reset with a cause: the reset counted, every block but Sable empty, the OTP and the credentials kept. -/
def State.ColdAfter (s u : State) (cause : Nat) : Prop :=
  u.pwr.st = .cold ∧ u.pwr.prev = s.pwr.st ∧ u.reg Reg.PWR_RESET_CAUSE = BitVec.ofNat 32 cause ∧
    u.reg Reg.PWR_RESETS = s.reg Reg.PWR_RESETS + 1 ∧ u.clu = {} ∧ u.ddr = {} ∧ u.pkt = {} ∧ u.cfg = {} ∧ u.sab.otp = s.sab.otp ∧
    u.sab.creds = s.sab.creds

section
variable {s : State} {cause : Nat}

/-- s after a main reset with a cause, the first of its tick. -/
def State.resetWith (s : State) (cause : Nat) : State :=
  (s.mainClear.showCold.setReg Reg.PWR_RESET_CAUSE (BitVec.ofNat 32 cause)).inc Reg.PWR_RESETS

theorem State.mainReset_of_warm (h : s.pwr.st ≠ .cold) : s.mainReset cause = s.resetWith cause := if_neg fun hc => h hc.1

theorem State.reg_mainClear (s : State) (a : Nat) : s.mainClear.reg a = if auxReg (regKey a) then s.reg a else regReset (regKey a) :=
  SMap.get_filter_key regReset s.regs auxReg (regKey a)

theorem State.reg_resetWith_cause (s : State) (cause : Nat) : (s.resetWith cause).reg Reg.PWR_RESET_CAUSE = BitVec.ofNat 32 cause := by
  rw [State.resetWith, reg_inc_ne _ _ _ (by decide), reg_setReg_same]

theorem State.reg_resetWith_resets (s : State) (cause : Nat) : (s.resetWith cause).reg Reg.PWR_RESETS = s.reg Reg.PWR_RESETS + 1 := by
  rw [State.resetWith, reg_inc_same, reg_setReg_ne _ _ _ _ (by decide), State.showCold, reg_setReg_ne _ _ _ _ (by decide), reg_mainClear,
    if_pos (by decide)]

theorem State.resetWith_cold (s : State) (cause : Nat) : s.ColdAfter (s.resetWith cause) cause :=
  ⟨rfl, rfl, reg_resetWith_cause s cause, reg_resetWith_resets s cause, rfl, rfl, rfl, rfl, rfl, rfl⟩

/-- A command that gives a main reset takes the device to COLD. -/
theorem State.Gives.toCold {c : Instr} (h : s.Gives c (s.resetWith cause)) : ∃ u, exec c s = .next u ∧ s.ColdAfter u cause :=
  ⟨_, h, resetWith_cold s cause⟩

theorem pwrGoodLoss_cold (h : s.pwr.st ≠ .cold) : ∃ u, exec .pwrGoodLoss s = .next u ∧ s.ColdAfter u 4 := by
  have hg : s.Gives .pwrGoodLoss { s.resetWith 4 with pwr := { (s.resetWith 4).pwr with mainGood := false } } :=
    congrArg (fun x : State => done s { x with pwr := { x.pwr with mainGood := false } }) (mainReset_of_warm h)
  exact ⟨_, hg, resetWith_cold s 4⟩

end

/-! ## VAUX (R473, R480) -/

section
variable {s : State}

/-- s after a rise of VAUX. -/
def State.auxRisen (s : State) : State :=
  let x := s.auxLost.mainClear
  let y := { x with
    regs := []
    pwr := { x.pwr with vaux := true, hold := some (0, s.up) } }
  y.showCold.setRb Reg.SAB_FLAGS 1 s.sab.otp.kill

theorem vauxRise_of_low (h : s.pwr.vaux = false) : s.Gives .vauxRise s.auxRisen := congrArg (done s) (if_neg (by rw [h]; decide))

/-- After the rise every register but the device state and the KILL flag is at its reset value. -/
theorem State.reg_auxRisen (s : State) {a : Nat} (hst : regKey a ≠ Reg.SYS_STATE) (hfl : regKey a ≠ Reg.SAB_FLAGS) :
    s.auxRisen.reg a = regReset (regKey a) := by
  have hstate : regKey Reg.SYS_STATE = Reg.SYS_STATE := by decide
  have hflags : regKey Reg.SAB_FLAGS = Reg.SAB_FLAGS := by decide
  rw [State.auxRisen, reg_setRb_ne _ _ _ _ _ (by rwa [hflags]), State.showCold, reg_setReg_ne _ _ _ _ (by rwa [hstate])]
  rfl

theorem State.sab_auxRisen (s : State) : s.auxRisen.sab = { otp := s.sab.otp } := rfl

/-- The KILL fuse shows after the rise. -/
theorem State.rb_auxRisen (s : State) : s.auxRisen.rb Reg.SAB_FLAGS 1 = s.sab.otp.kill := by
  rw [State.auxRisen, rb_setRb_same _ _ _ _ _ (by decide), if_pos rfl]

theorem vauxFall_sab (h : s.pwr.vaux = true) : ∃ u, exec .vauxFall s = .next u ∧ u.pwr.vaux = false ∧ u.sab = { otp := u.sab.otp } := by
  have hg : ∃ y : State, s.Gives .vauxFall { y.auxLost with pwr := { y.auxLost.pwr with vaux := false } } := ⟨_, congrArg (done s) (if_pos h)⟩
  obtain ⟨y, hy⟩ := hg
  exact ⟨_, hy, rfl, rfl⟩

end

/-! ## Keyed writes (R480, R482) -/

section
variable {s : State} {who : Accessor} {val : Word} (hw : s.mayWrite who Reg.SYS_RESET = true)
include hw

theorem sysResetDevice_of_mayWrite : s.Gives (.sysResetDevice who val) (if resetKey val && fld val 5 0 = 0 then s.mainReset 1 else s) :=
  congrArg (done s) (if_pos hw)

theorem sysResetCluster_of_mayWrite : s.Gives (.sysResetCluster who val)
    (if !resetKey val || tbit val 8 then s
     else if [DevState.test, .service, .recovery].contains s.pwr.st && !s.arming then
      (each ((List.range 6).filter fun c => tbit val c) State.resetCluster s).showResets
     else s.setRf Reg.SYS_RESET_STATUS 3 0 7) := congrArg (done s) (if_pos hw)

end

/-! ## State requests (R484) -/

section
variable {s : State} {who : Accessor} {val : Word}

/-- s with a state request shown. -/
def State.requested (s : State) (val : Word) : State := s.setReg Reg.SYS_STATE_REQ (BitVec.ofNat 32 (fld val 2 0))

theorem sysStateReq_of_mayWrite (hw : s.mayWrite who Reg.SYS_STATE_REQ = true) :
    s.Gives (.sysStateReq who val)
      (match devOfCode (fld val 2 0) with
        | some d => (s.requested val).askState d
        | none => (s.requested val).setReg Reg.SYS_STATE_STATUS 7) := by
  have hgo : tbit (putBit val 31 true) 31 = true := (tbit_putBit _ _ _ _ (by decide)).trans (if_pos rfl)
  refine congrArg (done s) ((if_pos hw).trans ((if_neg (by rw [hgo]; decide)).trans ?_))
  rw [fld_putBit_ne _ _ _ _ _ (by decide)]
  rfl

theorem sysStateReq_of_code (hw : s.mayWrite who Reg.SYS_STATE_REQ = true) {d : DevState} (hd : devOfCode (fld val 2 0) = some d) :
    s.Gives (.sysStateReq who val) ((s.requested val).askState d) := by
  refine (sysStateReq_of_mayWrite hw).to ?_
  rw [hd]

/-- A request shown changes neither the device state nor what decides whether it is accepted. -/
theorem State.reqOk_requested (s : State) (val : Word) (d : DevState) : (s.requested val).reqOk d = s.reqOk d := rfl

theorem State.askState_of_safe (h : s.pwr.st = .cold ∨ s.pwr.st = .safe) : s.askState .safe = s.setReg Reg.SYS_STATE_STATUS 7 := (if_pos rfl).trans (if_pos h)
theorem State.askState_to_safe (h : ¬(s.pwr.st = .cold ∨ s.pwr.st = .safe)) : s.askState .safe = (s.setReg Reg.SYS_STATE_STATUS 0).goSafe 0 :=
  (if_pos rfl).trans (if_neg h)

variable {d : DevState} (hd : d ≠ .safe)
include hd

theorem State.askState_of_ok (h : s.reqOk d = true) :
    s.askState d = ({ s with pwr := { s.pwr with req := some d } }).setReg Reg.SYS_STATE_STATUS 0x80000000 := (if_neg hd).trans (if_pos h)
theorem State.askState_of_refused (h : s.reqOk d = false) : s.askState d = s.setReg Reg.SYS_STATE_STATUS 7 :=
  (if_neg hd).trans (if_neg (by rw [h]; decide))

end

/-! ## Boot (R486, R489) -/

section
variable {s : State} {who : Accessor} {val : Word} {bytes : List Byte}

theorem bootEngineRun_of_free (hw : s.engineWaits = false) :
    s.Gives (.bootEngineRun bytes) (if s.pwr.engine.abort && s.bootRuns then s.bootStop else s.bootStep1 bytes) :=
  congrArg (done s) (if_neg (by rw [hw]; decide))

theorem bootAbort_of_running (hw : s.mayWrite who Reg.SYS_BOOT_CTRL = true) (hr : s.bootRuns = true) :
    s.Gives (.bootAbort who val) (if s.engineWaits then s.updEngine fun e => { e with abort := true } else s.bootStop) := by
  have hgo : tbit (putBit val 0 true) 0 = true := (tbit_putBit _ _ _ _ (by decide)).trans (if_pos rfl)
  exact congrArg (done s) ((if_pos hw).trans (if_neg (by rw [hgo, hr]; decide)))

end

/-! ## Adaptive voltage scaling (R476) -/

theorem avsStep_le (cur want : Nat) : avsStep cur want ≤ 850 := max_le (by decide) (min_le_left ..)

section
variable {s : State} {target reported : BitVec 10} {ack : Bool}

/-- The voltage that the next write asks for. -/
def State.avsNext (s : State) (target : BitVec 10) : Nat := avsStep (s.rf Reg.PWR_AVS 25 16) target.toNat

/-- s after a voltage write that was acknowledged. -/
def State.avsTaken (s : State) (target reported : BitVec 10) : State :=
  (({ s.emit (.avs (s.avsNext target)) with pwr := { s.pwr with avsFails := 0 } }).setRf Reg.PWR_AVS 25 16 (s.avsNext target)).setRf Reg.PWR_AVS 9 0
    reported.toNat

theorem avsUpdate_of_on (hr : s.pwr.resetHigh = true) (ho : s.pwr.avsOff = false) (hb : s.rb Reg.PWR_AVS 30 = false) :
    s.Gives (.avsUpdate target reported ack)
      (if ack then s.avsTaken target reported
       else if s.pwr.avsFails + 1 < 3 then { s.emit (.avs (s.avsNext target)) with pwr := { s.pwr with avsFails := s.pwr.avsFails + 1 } }
       else (({ s.emit (.avs (s.avsNext target)) with pwr := { s.pwr with avsFails := 3 } }).setRb Reg.PWR_AVS 30 true).sqc Reg.PWR_STATUS 2 6) :=
  congrArg (done s) (if_pos (by rw [hr, ho, hb]; rfl))

theorem State.rf_avsTaken (s : State) (target reported : BitVec 10) :
    (s.avsTaken target reported).rf Reg.PWR_AVS 25 16 = s.avsNext target ∧ (s.avsTaken target reported).rf Reg.PWR_AVS 9 0 = reported.toNat := by
  have hnext : s.avsNext target ≤ 850 := avsStep_le ..
  constructor
  · rw [State.avsTaken, rf_setRf_beside _ _ _ _ _ _ _ (by decide) (by decide), rf_setRf_same _ _ _ _ _ (by decide) (by decide)]
    exact Nat.mod_eq_of_lt (by omega)
  · rw [State.avsTaken, rf_setRf_same _ _ _ _ _ (by decide) (by decide)]
    exact Nat.mod_eq_of_lt reported.isLt

theorem State.avsTaken_stays (s : State) (target reported : BitVec 10) : s.RegsStay (s.avsTaken target reported) [Reg.PWR_AVS] :=
  .trans (.trans (stays_of_regs rfl _) (setReg_stays _ _ _ _ (by simp))) (setReg_stays _ _ _ _ (by simp))

theorem State.avsTaken_areas (s : State) (target reported : BitVec 10) : s.OnlyChanges (s.avsTaken target reported) [.regs, .pwr, .out] :=
  OnlyChanges.andThen (OnlyChanges.andThen (OnlyChanges.andThen (emit_areas ..).within (with_pwr ..)) (setRf_areas ..)) (setRf_areas ..)

end

/-- Settles O49: a reset by the state that it leaves; keyed writes, requests, boot and voltage by their conditions. -/
theorem powerAndBootCommandsComplete : Obligations.PowerAndBootCommandsComplete := by
  unfold Obligations.PowerAndBootCommandsComplete
  intro s who val rail c src avsLow held fail bytes target reported t0 t1 t2 t3 t4 t5 t6 t7 p
  dsimp only
  refine ⟨fun hst => ⟨?_, pwrGoodLoss_cold hst, fun hr hrail => ?_, fun hw hk hm => ?_⟩, vauxFall_sab, fun hv => ?_,
    fun hw => ⟨fun hk h8 hst ha => ?_, fun hk h8 hno => ?_, fun h8 => ?_, fun hm => ?_, fun hk => ⟨?_, ?_⟩⟩, fun h => congrArg (done s) (if_pos h),
    fun hv hr => congrArg (done s) (if_pos (by rw [hv, hr]; rfl)), fun hst hr hd => congrArg (done s) (if_pos ⟨hst, hr, hd⟩),
    fun hw => ⟨fun d hd hns => ⟨fun hok => ?_, fun hno => ?_⟩, fun hd => ⟨fun hst => ?_, fun hc hs => ?_⟩, fun hd => ?_⟩, fun hw ha => ?_, fun hw ha hr => ?_,
    fun hw hr => ⟨fun he => ?_, fun he => ?_⟩, fun hr ho hb => ⟨?_, fun hf => ?_, fun hf => ?_⟩, fun hr => congrArg (done s) (if_pos hr),
    fun hw => congrArg (done s) (if_pos hw), fun hp => congrArg (done s) (if_pos hp)⟩
  · have hg : s.Gives .mainReset (s.resetWith 8) := congrArg (done s) (mainReset_of_warm hst)
    exact hg.toCold
  · have hg : s.Gives (.railFault rail) (s.resetWith (2 + 256 * min rail.val 6)) :=
      congrArg (done s) ((if_pos (by rw [hr, bne_iff_ne.2 hrail]; rfl)).trans (mainReset_of_warm hst))
    exact hg.toCold
  · refine State.Gives.toCold ((sysResetDevice_of_mayWrite hw).to ((if_pos ?_).trans (mainReset_of_warm hst)))
    rw [hk, hm]
    rfl
  · exact ⟨_, vauxRise_of_low hv, rfl, rfl, sab_auxRisen s, rb_auxRisen s, fun r => reg_auxRisen s⟩
  · refine (sysResetCluster_of_mayWrite hw).to ((if_neg (by rw [hk, h8]; decide)).trans (if_pos ?_))
    rw [List.contains_iff_mem.2 hst, ha]
    rfl
  · refine (sysResetCluster_of_mayWrite hw).to ((if_neg (by rw [hk, h8]; decide)).trans (if_neg ?_))
    rw [Bool.and_eq_true, List.contains_iff_mem, Bool.not_eq_true']
    exact hno
  · exact (sysResetCluster_of_mayWrite hw).to (if_pos (by rw [h8, Bool.or_true]))
  · exact (sysResetDevice_of_mayWrite hw).to (if_neg (by simp [hm]))
  · exact (sysResetDevice_of_mayWrite hw).to (if_neg (by simp [hk]))
  · exact (sysResetCluster_of_mayWrite hw).to (if_pos (by rw [hk]; rfl))
  · exact (sysStateReq_of_code hw hd).to (askState_of_ok hns ((reqOk_requested s val d).trans hok))
  · exact (sysStateReq_of_code hw hd).to (askState_of_refused hns ((reqOk_requested s val d).trans hno))
  · exact (sysStateReq_of_code hw hd).to (askState_of_safe hst)
  · exact (sysStateReq_of_code hw hd).to (askState_to_safe (not_or.2 ⟨hc, hs⟩))
  · refine (sysStateReq_of_mayWrite hw).to ?_
    rw [hd]
    rfl
  · exact (bootEngineRun_of_free hw).to (if_neg (by rw [ha, Bool.false_and]; decide))
  · exact (bootEngineRun_of_free hw).to (if_pos (by rw [ha, hr]; rfl))
  · exact (bootAbort_of_running hw hr).to (if_pos he)
  · exact (bootAbort_of_running hw hr).to (if_neg (by rw [he]; decide))
  · obtain ⟨hnext, hrep⟩ := rf_avsTaken s target reported
    exact ⟨_, ((avsUpdate_of_on hr ho hb).to (if_pos rfl)).trans (congrArg _ (closed_of_emit (e := .avs (s.avsNext target)) rfl)), hnext, hrep, rfl, rfl,
      avsTaken_stays s target reported, avsTaken_areas ..⟩
  · exact (avsUpdate_of_on hr ho hb).to ((if_neg (by decide)).trans (if_pos (by omega)))
  · exact (avsUpdate_of_on hr ho hb).to ((if_neg (by decide)).trans (if_neg (by omega)))

end Sys2Proof.Machine
end

/-!
SUPPORT. The performance counters that a thread reads (R240, R460): the number in its register, the core that it runs on, and the bit of PMU_CFG,
which no issue changes.
-/
section
namespace Sys2Proof.Machine
open State

-- One declaration after the other: the proofs would else hold a thread and its stack each.
set_option Elab.async false

theorem pmuCfg_ne_of_mem_issueRegs {k a : Nat} (h : a ∈ issueRegs k) : a ≠ Reg.PMU_CFG := by
  unfold Reg.PMU_CFG
  simp only [issueRegs, List.mem_append, List.mem_cons, List.not_mem_nil, or_false] at h
  rcases h with (h | h) | rfl | rfl | rfl | rfl | rfl
  · obtain ⟨i, -, h⟩ := counterRegs_form _ _ _ h
    unfold Reg.CLU_PMU_CTR_CFG at h
    omega
  · obtain ⟨i, -, h⟩ := counterRegs_form _ _ _ h
    unfold Reg.PMU_CTR_CFG at h
    omega
  · unfold Reg.CLU_PMU_SMP_WR; omega
  · unfold Reg.CLU_PMU_SMP_RD; omega
  · unfold Reg.CLU_PMU_SMP_DROP; omega
  · decide
  · decide

theorem pmuCfg_not_issued (k : Nat) : regKey Reg.PMU_CFG ∉ (issueRegs k).map regKey := by
  intro h
  obtain ⟨a, ha, e⟩ := List.mem_map.1 h
  rw [regKey_below (a := Reg.PMU_CFG) (by decide)] at e
  by_cases hlow : a < 0x100000
  · exact pmuCfg_ne_of_mem_issueRegs ha ((regKey_below hlow).symm.trans e)
  · exact absurd (e ▸ regKey_cluster (Nat.not_lt.1 hlow)) (by decide)

section
variable (s : State) (t : ThreadId)

theorem State.pmuUser_counted : (s.counted t 1).rb Reg.PMU_CFG 0 = s.rb Reg.PMU_CFG 0 := by
  unfold State.rb
  rw [(s.counted_near t).stay _ (pmuCfg_not_issued _)]

/-- The special registers 0x20 to 0x23 are the low words of the counters of the thread's own core. -/
theorem State.special_counter {i : Nat} (hi : i < 4) :
    s.special (tidNat t) (0x20 + i) = some (s.reg (Reg.CLU_PMU_CTR_LO t.cl.val t.core.val i), s) := by
  have cl : tidNat t / 128 = t.cl.val := by unfold tidNat; omega
  have core : tidNat t % 128 / 8 = t.core.val := by unfold tidNat; omega
  have cases : i = 0 ∨ i = 1 ∨ i = 2 ∨ i = 3 := by omega
  rcases cases with rfl | rfl | rfl | rfl <;> simp [State.special, cl, core]

end

/-- PMU_CFG is set by the image alone: a write that the accessor may try changes nothing. -/
theorem writeReg_pmuCfg {s : State} {who : Accessor} {val : Word} (hw : s.mayWrite who Reg.PMU_CFG = true) :
    s.writeReg who Reg.PMU_CFG val = s :=
  State.writeReg_of_readOnly rfl hw (.inl rfl)

/-- Settles O56: what the counter's number selects, and the bit of PMU_CFG after the issue has been counted. -/
theorem countersReadByMfs : Obligations.CountersReadByMfs := by
  unfold Obligations.CountersReadByMfs
  refine ⟨fun s t gs i => ?_, fun s who val hw => registerWrite_of_eq (writeReg_pmuCfg hw)⟩
  intro k hi hn
  have number : fld ((s.counted t 1).gOf k gs) 7 0 = 0x20 + i := by rw [s.gOf_counted t gs]; exact hn
  have priv : ((s.counted t 1).thr k).priv = (s.thr k).priv := by rw [s.counted_thr]
  have user : (s.counted t 1).rb Reg.PMU_CFG 0 = s.rb Reg.PMU_CFG 0 := s.pmuUser_counted t
  refine ⟨fun may => s.runsAs_next t _ 1 _ _ _ rfl ?_, fun hu hoff hiss => ?_⟩
  · dsimp only
    rw [number, (s.counted t 1).special_counter t hi]
    refine if_neg fun h => ?_
    obtain ⟨-, hu, hoff⟩ := h
    rw [priv] at hu
    rw [user] at hoff
    rcases may with h | h
    · exact h hu
    · simp [h] at hoff
  · refine State.faultsWith_of_fault (y := s.counted t 1) rfl hiss ?_ (by decide) (s.counted_near t) (by rw [s.counted_thr])
      ⟨_, rfl, by rw [s.counted_thr], by rw [s.counted_thr], by rw [s.counted_thr]⟩
    dsimp only
    rw [number, (s.counted t 1).special_counter t hi]
    refine if_pos ⟨Nat.le_add_right .., priv.trans hu, ?_⟩
    rw [user, hoff]
    rfl

end Sys2Proof.Machine
end

/-!
SUPPORT. The areas that a tick changes (R27): what it counts and judges leaves the queue and device time alone, so that both are what the advance of
time makes them.
-/
section
namespace Sys2Proof.Machine
open State

-- One declaration after the other: the proofs would else hold a thread and its stack each.
set_option Elab.async false

section
variable (s : State)

/-! ## Before time advances -/

theorem State.watchGroup_areas (c g dt : Nat) : s.OnlyChanges (s.watchGroup c g dt) [.clu] := by
  refine .ite ?_ (.ite (setWgroup_areas ..) (.refl ..))
  split
  · exact setWgroup_areas ..
  · exact .ite (setWgroup_areas ..) (.refl ..)

theorem State.watchGroups_areas (dt : Nat) : s.OnlyChanges (s.watchGroups dt) [.clu] := each_areas fun _ _ => .ite (.refl ..) (watchGroup_areas ..)

theorem State.traceReleases_areas : s.OnlyChanges s.traceReleases [.regs, .out, .clu, .hst, .ddr] :=
  each_areas fun _ _ => (trace_areas ..).within |>.andThen (updThr_areas ..)

theorem State.coreCycles_areas (c k n : Nat) : s.OnlyChanges (s.coreCycles c k n) [.regs] :=
  (pmuCore_areas ..).within |>.andThen (pmuCore_areas ..) |>.each (fun _ _ => pmuCore_areas ..) |>.each (fun _ _ => pmuCore_areas ..)

theorem State.clearSlots_areas : s.OnlyChanges s.clearSlots [.clu] := each_areas fun _ _ => updThr_areas ..

theorem State.countCycles_areas (n m : Nat) : s.OnlyChanges (s.countCycles n m) [.regs, .clu] :=
  each_areas (fun _ _ => (coreCycles_areas ..).within) |>.andThen (clearSlots_areas _) |>.each (fun _ _ => (pmuClu_areas ..).within)
    |>.andThen (pmuFab_areas ..) |>.andThen (pmuFab_areas ..)

theorem State.rotate_areas (n m : Nat) : s.OnlyChanges (s.rotate n m) [.regs] :=
  (setReg_areas ..).within |>.each (fun _ _ => (setReg_areas ..).within |>.andThen (setReg_areas ..))

/-! ## After time has advanced -/

theorem State.stateTick_areas : s.OnlyChanges s.stateTick [.regs, .out, .ing, .aut, .pkt, .och, .vrm, .hst, .ddr, .dbg, .pwr] := by
  unfold State.stateTick
  split
  · exact (with_pwr ..).within |>.andThen (setReg_areas ..) |>.andThen (goState_areas ..)
  · exact .refl ..

theorem State.judgeTiles_areas :
    s.OnlyChanges s.judgeTiles [.regs, .out, .ing, .aut, .pkt, .och, .clu, .cpx, .vrm, .cfg, .hst, .ddr, .dbg, .pwr] :=
  each_areas fun _ _ => .ite (failTile_areas ..) (.refl ..)

theorem State.followUnit_areas (p : Nat × Nat) : s.OnlyChanges (s.followUnit p) [.cfg] :=
  .ite (.ite (setUnitReq_areas ..) (.refl ..)) <| .ite (.refl ..) (setUnitReq_areas ..)

/-- What each ring of the device does with a record that it loses. -/
theorem State.lost_areas_of_mem_rings {r : Ring} (hr : r ∈ s.rings) (x : State) : x.OnlyChanges (r.lost x) [.regs, .out, .hst, .ddr] := by
  simp only [State.rings, List.mem_append, List.mem_map, List.mem_singleton] at hr
  obtain (((⟨_, _, rfl⟩ | ⟨_, _, rfl⟩) | rfl) | ⟨_, _, rfl⟩) | rfl := hr
  · exact (inc_areas ..).within |>.andThen (sqc_areas ..)
  · exact (inc_areas ..).within |>.andThen (sqc_areas ..)
  · exact (inc_areas ..).within |>.andThen (sqc_areas ..)
  · exact (inc_areas ..).within
  · exact (inc_areas ..).within

variable {s} in
theorem State.ringDrain_areas {r : Ring} (h : ∀ x : State, x.OnlyChanges (r.lost x) [.regs, .out, .hst, .ddr]) :
    s.OnlyChanges (s.ringDrain r) [.regs, .out, .hst, .ddr] :=
  .ite (.refl ..) ((setRingFifo_areas ..).within |>.each fun _ _ => ringTake_areas h (by decide))

theorem State.drainRings_areas : s.OnlyChanges s.drainRings [.regs, .out, .hst, .ddr] := by
  refine .ite (.refl ..) ?_
  exact List.foldlRecOn s.rings State.ringDrain (motive := fun x => s.OnlyChanges x [.regs, .out, .hst, .ddr]) (.refl ..)
    fun _ h r hr => h.trans (ringDrain_areas (s.lost_areas_of_mem_rings hr))

end

/-! ## The tick -/

theorem State.OnlyChanges.pending {s t : State} {l : List Area} (h : s.OnlyChanges t l) : t.pending = s.pending := h.1

theorem State.with_up_ind (s : State) v w : s.OnlyChanges { s with up := v, ind := w } [.up, .ind] :=
  ⟨rfl, fun a ha => by cases a <;> simp_all [Area.same]⟩

theorem State.advanceUp_areas (s : State) : s.OnlyChanges s.advanceUp [.up, .ind] := with_up_ind ..
theorem State.advanceTime_areas (s : State) : s.OnlyChanges s.advanceTime [.time, .ind] := with_time_ind ..
theorem State.time_advanceTime (s : State) : s.advanceTime.time = s.time + 4 * nsU := rfl

/-- The part of a tick that ends before time advances. -/
theorem State.beforeTime_areas (s : State) (dt n m : Nat) :
    s.OnlyChanges (((s.traceReleases.watchGroups dt).countCycles n m).rotate n m) [.regs, .out, .clu, .hst, .ddr] :=
  (traceReleases_areas s).andThen (watchGroups_areas ..) |>.andThen (countCycles_areas ..) |>.andThen (rotate_areas ..)

/-- The part of a tick that follows the advance of time, for any list of units. -/
theorem State.afterTime_areas (s : State) (l : List (Nat × Nat)) :
    s.OnlyChanges (each l (fun x p => x.followUnit p) s.stateTick.train.judgeTiles.judgeChans).drainRings.beginFabricCycle
      [.regs, .out, .ing, .aut, .pkt, .och, .clu, .cpx, .vrm, .cfg, .hst, .ddr, .dbg, .pwr] :=
  (stateTick_areas s).within |>.andThen (train_areas _) |>.andThen (judgeTiles_areas _) |>.andThen (judgeChans_areas _)
    |>.each (fun _ _ => (followUnit_areas ..).within) |>.andThen (drainRings_areas _) |>.andThen (with_och ..)

/-- While RESET_N is low only the always-on count advances. -/
theorem tick_of_reset_low {s : State} (h : s.pwr.resetHigh = false) : tick s = { s with up := s.up + 4 * nsU } := if_pos (by rw [h]; rfl)

/-- With RESET_N high a tick leaves the queue as it is, and device time advances by 4 ns. -/
theorem tick_of_reset_high {s : State} (h : s.pwr.resetHigh = true) : (tick s).pending = s.pending ∧ (tick s).time = s.time + 4 * nsU := by
  have before := s.beforeTime_areas (s.advanceUp.up - s.up) (coreSpan s.up s.advanceUp.up) (fabSpan s.up s.advanceUp.up)
  unfold tick
  simp only [h, Bool.not_true, Bool.false_eq_true, if_false]
  generalize ((s.traceReleases.watchGroups _).countCycles _ _).rotate _ _ = x at before ⊢
  have after := x.advanceUp.advanceTime.afterTime_areas x.advanceUp.advanceTime.stateTick.unitList
  have up := x.advanceUp_areas
  refine ⟨after.pending.trans (x.advanceUp.advanceTime_areas.pending.trans (up.pending.trans before.pending)), after.time.trans ?_⟩
  rw [State.time_advanceTime, up.time, before.time]

/-- Settles O51: a step is defined by the queue's front, and of a tick only the advance of time changes device time. -/
theorem stepRunsTheFrontCommand : Obligations.StepRunsTheFrontCommand := by
  unfold Obligations.StepRunsTheFrontCommand
  refine ⟨fun _ _ _ => rfl, fun s h => ?_, fun s => ⟨?_, fun h => (tick_of_reset_high h).2, tick_of_reset_low⟩⟩
  · unfold step
    rw [h]
  · cases h : s.pwr.resetHigh
    · rw [tick_of_reset_low h]
    · exact (tick_of_reset_high h).1

end Sys2Proof.Machine
end

/-!
SUPPORT. The round trip of the Rospel encodings (R230-R232, R239, R251): the fields that a word of each format holds, the decoder that its format
selects, and from these the decoding of every instruction's words.
-/
section
namespace Sys2Proof.Machine

-- One declaration after the other: the proofs would else hold a thread and its stack each.
set_option Elab.async false

/-! ## The fields of a word of each format (R230) -/

section
variable {op a b : Nat}

theorem encD_op (da : BitVec 9) (h : op < 12) : nfld (encD op da) 13 9 = op := by unfold nfld encD; omega
theorem encD_da (da : BitVec 9) : nfld (encD op da) 8 0 = da.toNat := by unfold nfld encD; omega

theorem encR_format (h : op < 32) (ha : a < 8) (hb : b < 8) : nfld (encR op a b) 13 11 = 5 := by unfold nfld encR; omega
theorem encR_op (h : op < 32) (ha : a < 8) (hb : b < 8) : nfld (encR op a b) 10 6 = op := by unfold nfld encR; omega
theorem encR_a (ha : a < 8) (hb : b < 8) : nfld (encR op a b) 5 3 = a := by unfold nfld encR; omega
theorem encR_b (hb : b < 8) : nfld (encR op a b) 2 0 = b := by unfold nfld encR; omega

/-- The field of Ga holds P over a bit in CRCB, CRCW and CRCM (R238). -/
theorem encR_p (ha : a < 8) (hb : b < 8) : nfld (encR op a b) 5 4 = a / 2 := by unfold nfld encR; omega
theorem encR_x (hb : b < 8) : nfld (encR op a b) 3 3 = a % 2 := by unfold nfld encR; omega

theorem encI_format (h : op < 4) (ha : a < 256) : nfld (encI op a) 13 11 = 6 := by unfold nfld encI; omega
theorem encI_zero (h : op < 4) (ha : a < 256) : nfld (encI op a) 10 10 = 0 := by unfold nfld encI; omega
theorem encI_op (h : op < 4) (ha : a < 256) : nfld (encI op a) 9 8 = op := by unfold nfld encI; omega
theorem encI_imm (ha : a < 256) : nfld (encI op a) 7 0 = a := by unfold nfld encI; omega

/-- The immediate of SHF holds the kind of shift over its distance (R239). -/
theorem encI_type (ha : a < 256) : nfld (encI op a) 7 6 = a / 64 := by unfold nfld encI; omega
theorem encI_count : nfld (encI op a) 5 0 = a % 64 := by unfold nfld encI; omega

theorem encS_format (h : op < 32) (ha : a < 8) : nfld (encS op a) 13 8 = 63 := by unfold nfld encS; omega
theorem encS_op (h : op < 32) (ha : a < 8) : nfld (encS op a) 7 3 = op := by unfold nfld encS; omega
theorem encS_g (ha : a < 8) : nfld (encS op a) 2 0 = a := by unfold nfld encS; omega

end

section
variable {op : Nat} (x : Fin 2) (p : Bool) (d : BitVec 6)

theorem encX_format (h : op < 8) : nfld (encX op x p d) 13 11 = 4 := by unfold nfld encX; split <;> omega
theorem encX_op (h : op < 8) : nfld (encX op x p d) 10 8 = op := by unfold nfld encX; split <;> omega
theorem encX_x : nfld (encX op x p d) 7 7 = x := by unfold nfld encX; split <;> omega
theorem encX_p : (nfld (encX op x p d) 6 6 == 1) = p := by cases p <;> simp [nfld, encX] <;> omega
theorem encX_d : nfld (encX op x p d) 5 0 = d.toNat := by unfold nfld encX; split <;> omega

end

section
variable {kind pay : Nat}

theorem encW_format (h : kind < 4) (hp : pay < 2 ^ 20) : nfld (encW kind pay).1 13 8 = 62 := by unfold nfld encW; omega
theorem encW_kind (h : kind < 4) (hp : pay < 2 ^ 20) : nfld (encW kind pay).1 7 6 = kind := by unfold nfld encW; omega
theorem encW_pay (hp : pay < 2 ^ 20) : nfld (encW kind pay).1 5 0 * 16384 + nfld (encW kind pay).2 13 0 = pay := by unfold nfld encW; omega

end

section
variable {op cd ca cb gs m : Nat}

theorem encC_format (h : op < 64) (hd : cd < 8) : nfld (encC op cd ca cb gs m).1 13 11 = 3 := by unfold nfld encC; omega
theorem encC_op (h : op < 64) (hd : cd < 8) : nfld (encC op cd ca cb gs m).1 10 5 = op := by unfold nfld encC; omega
theorem encC_cd (hd : cd < 8) : nfld (encC op cd ca cb gs m).1 4 2 = cd := by unfold nfld encC; omega
theorem encC_low : nfld (encC op cd ca cb gs m).1 1 0 = 0 := by unfold nfld encC; omega
theorem encC_ca (ha : ca < 8) (hb : cb < 8) (hg : gs < 8) (hm : m < 32) : nfld (encC op cd ca cb gs m).2 13 11 = ca := by
  unfold nfld encC; omega
theorem encC_cb (hb : cb < 8) (hg : gs < 8) (hm : m < 32) : nfld (encC op cd ca cb gs m).2 10 8 = cb := by unfold nfld encC; omega
theorem encC_gs (hg : gs < 8) (hm : m < 32) : nfld (encC op cd ca cb gs m).2 7 5 = gs := by unfold nfld encC; omega
theorem encC_m (hm : m < 32) : nfld (encC op cd ca cb gs m).2 4 0 = m := by unfold nfld encC; omega

end

/-! ## The decoder that a format selects, and its number of words (R230, R231) -/

section
variable {t : ThreadId} {w : Nat} (v rel : Nat)

theorem not_d_of_format (h : 3 ≤ nfld w 13 11) : ¬nfld w 13 9 < 12 := by unfold nfld at *; omega

theorem rosDecode_d (h : nfld w 13 9 < 12) : rosDecode t w v rel = decodeD t w := if_pos h
theorem wordsOf_d (h : nfld w 13 9 < 12) : wordsOf w = 1 := if_pos h

theorem rosDecode_c (h : nfld w 13 11 = 3) : rosDecode t w v rel = decodeC t w v := by
  simp [rosDecode, not_d_of_format (w := w) (by omega), h]

theorem rosDecode_x (h : nfld w 13 11 = 4) : rosDecode t w v rel = decodeX t w := by
  simp [rosDecode, not_d_of_format (w := w) (by omega), h]

theorem rosDecode_r (h : nfld w 13 11 = 5) : rosDecode t w v rel = decodeR t w := by
  simp [rosDecode, not_d_of_format (w := w) (by omega), h]

theorem rosDecode_il (h : nfld w 13 11 = 6) : rosDecode t w v rel = decodeIL t w := by
  simp [rosDecode, not_d_of_format (w := w) (by omega), h]

theorem rosDecode_bws (h : nfld w 13 11 = 7) : rosDecode t w v rel = decodeBWS t w v rel := by
  simp [rosDecode, not_d_of_format (w := w) (by omega), h]

theorem rosDecode_w (h : nfld w 13 8 = 62) : rosDecode t w v rel = decodeW t w v := by
  unfold nfld at h
  rw [rosDecode_bws v rel (by unfold nfld; omega), decodeBWS, if_neg (by unfold nfld; omega), if_neg (by unfold nfld; omega),
    if_pos (by unfold nfld; omega)]

theorem rosDecode_s (h : nfld w 13 8 = 63) : rosDecode t w v rel = decodeS t w rel := by
  unfold nfld at h
  rw [rosDecode_bws v rel (by unfold nfld; omega), decodeBWS, if_neg (by unfold nfld; omega), if_neg (by unfold nfld; omega),
    if_neg (by unfold nfld; omega)]

theorem wordsOf_two (h : nfld w 13 11 = 3 ∨ nfld w 13 8 = 62) : wordsOf w = 2 := by
  rw [wordsOf, if_neg (not_d_of_format (by unfold nfld at *; omega)), if_pos h]

theorem wordsOf_one (h : 4 ≤ nfld w 13 11) (h2 : nfld w 13 8 ≠ 62) : wordsOf w = 1 := by
  rw [wordsOf, if_neg (not_d_of_format (by omega)), if_neg (by omega)]

end

/-! ## Loops and branches: the L, BC and BR formats (R230) -/

section
variable {t : ThreadId} {w w2 rel : Nat}

theorem decodeIL_loop {g : Fin 8} {b : Fin 64} (h : w = 0b1101 * 1024 + g.val * 64 + b.val) : decodeIL t w = some (.loop t g b) := by
  have h10 : nfld w 10 10 = 1 := by unfold nfld; omega
  have h9 : nfld w 9 9 = 0 := by unfold nfld; omega
  have hg : nfld w 8 6 = g := by unfold nfld; omega
  have hb : nfld w 5 0 = b := by unfold nfld; omega
  simp [decodeIL, r8, h10, h9, hg, hb]

theorem decodeIL_loopi {n : Fin 32} {b : Fin 16} (h : w = 0b1101 * 1024 + 512 + n.val * 16 + b.val) : decodeIL t w = some (.loopi t n b) := by
  have h10 : nfld w 10 10 = 1 := by unfold nfld; omega
  have h9 : nfld w 9 9 = 1 := by unfold nfld; omega
  have hn : nfld w 8 4 = n := by unfold nfld; omega
  have hb : nfld w 3 0 = b := by unfold nfld; omega
  simp [decodeIL, h10, h9, hn, hb]

theorem decodeBWS_bz {g : Fin 8} {r : BitVec 6} (h : w = 0b1110 * 1024 + g.val * 64 + r.toNat) : decodeBWS t w w2 rel = some (.bz t g r) := by
  have h10 : nfld w 10 10 = 0 := by unfold nfld; omega
  have h9 : nfld w 9 9 = 0 := by unfold nfld; omega
  have hg : nfld w 8 6 = g := by unfold nfld; omega
  have hr : nfld w 5 0 = r.toNat := by unfold nfld; omega
  simp [decodeBWS, r8, h10, h9, hg, hr]

theorem decodeBWS_bnz {g : Fin 8} {r : BitVec 6} (h : w = 0b1110 * 1024 + 512 + g.val * 64 + r.toNat) :
    decodeBWS t w w2 rel = some (.bnz t g r) := by
  have h10 : nfld w 10 10 = 0 := by unfold nfld; omega
  have h9 : nfld w 9 9 = 1 := by unfold nfld; omega
  have hg : nfld w 8 6 = g := by unfold nfld; omega
  have hr : nfld w 5 0 = r.toNat := by unfold nfld; omega
  simp [decodeBWS, r8, h10, h9, hg, hr]

theorem decodeBWS_bra {r : BitVec 9} (h : w = 0b11110 * 512 + r.toNat) : decodeBWS t w w2 rel = some (.bra t r) := by
  have h10 : nfld w 10 10 = 1 := by unfold nfld; omega
  have h9 : nfld w 9 9 = 0 := by unfold nfld; omega
  have hr : nfld w 8 0 = r.toNat := by unfold nfld; omega
  simp [decodeBWS, h10, h9, hr]

end

/-! ## The round trip of the instructions of each format -/

/-- The words of i, in their 14 bits, are those of i for thread t. -/
def RoundTrips (i : Instr) (t : ThreadId) : Prop :=
  ∃ w w2, rosEncode i = some (w, w2) ∧ w < 16384 ∧ w2 < 16384 ∧ rosDecode t w w2 (relCode i) = some i ∧ (wordsOf w = 1 ∨ wordsOf w = 2) ∧
    (wordsOf w = 1 → ∀ v, rosDecode t w v (relCode i) = some i)

section
variable {i : Instr} {t : ThreadId} {w w2 : Nat}

theorem RoundTrips.of_one (he : rosEncode i = some (w, 0)) (hw : w < 16384) (h1 : wordsOf w = 1)
    (hd : ∀ v, rosDecode t w v (relCode i) = some i) : RoundTrips i t :=
  ⟨w, 0, he, hw, by decide, hd 0, .inl h1, fun _ => hd⟩

theorem RoundTrips.of_two (he : rosEncode i = some (w, w2)) (hw : w < 16384) (hw2 : w2 < 16384) (h2 : wordsOf w = 2)
    (hd : rosDecode t w w2 (relCode i) = some i) : RoundTrips i t :=
  ⟨w, w2, he, hw, hw2, hd, .inr h2, fun h1 => absurd (h1.symm.trans h2) (by decide)⟩

variable {op a b : Nat}

theorem roundTrips_d {da : BitVec 9} (he : rosEncode i = some (encD op da, 0)) (hop : op < 12) (hd : decodeD t (encD op da) = some i) :
    RoundTrips i t := by
  have h := encD_op da hop
  exact .of_one he (by unfold encD; omega) (wordsOf_d (by omega)) fun v => (rosDecode_d v _ (by omega)).trans hd

theorem roundTrips_x {x : Fin 2} {p : Bool} {d : BitVec 6} (he : rosEncode i = some (encX op x p d, 0)) (hop : op < 8)
    (hd : decodeX t (encX op x p d) = some i) : RoundTrips i t := by
  have h := encX_format x p d hop
  refine .of_one he (by unfold encX; split <;> omega) (wordsOf_one (by omega) ?_) fun v => (rosDecode_x v _ h).trans hd
  unfold nfld at *
  omega

theorem roundTrips_r (he : rosEncode i = some (encR op a b, 0)) (hop : op < 32) (ha : a < 8) (hb : b < 8)
    (hd : decodeR t (encR op a b) = some i) : RoundTrips i t := by
  have h := encR_format hop ha hb
  refine .of_one he (by unfold encR; omega) (wordsOf_one (by omega) ?_) fun v => (rosDecode_r v _ h).trans hd
  unfold nfld at *
  omega

/-- The I and the L format. -/
theorem roundTrips_il (he : rosEncode i = some (w, 0)) (h : nfld w 13 11 = 6) (hw : w < 16384) (hd : decodeIL t w = some i) : RoundTrips i t := by
  refine .of_one he hw (wordsOf_one (by omega) ?_) fun v => (rosDecode_il v _ h).trans hd
  unfold nfld at *
  omega

/-- The branches: the BC and the BR format. -/
theorem roundTrips_branch (he : rosEncode i = some (w, 0)) (h : nfld w 13 11 = 7) (hw : w < 15872)
    (hd : ∀ v, decodeBWS t w v (relCode i) = some i) : RoundTrips i t := by
  refine .of_one he (by omega) (wordsOf_one (by omega) ?_) fun v => (rosDecode_bws v _ h).trans (hd v)
  unfold nfld
  omega

theorem roundTrips_s (he : rosEncode i = some (encS op a, 0)) (hop : op < 32) (ha : a < 8)
    (hd : decodeS t (encS op a) (relCode i) = some i) : RoundTrips i t := by
  have h := encS_format hop ha
  refine .of_one he (by unfold encS; omega) (wordsOf_one ?_ (by omega)) fun v => (rosDecode_s v _ h).trans hd
  unfold nfld at *
  omega

theorem roundTrips_w {kind pay : Nat} (he : rosEncode i = some (encW kind pay)) (hkind : kind < 4) (hpay : pay < 2 ^ 20)
    (hd : decodeW t (encW kind pay).1 (encW kind pay).2 = some i) : RoundTrips i t := by
  have h := encW_format hkind hpay
  exact .of_two he (by omega) (by omega) (wordsOf_two (.inr h)) ((rosDecode_w _ _ h).trans hd)

theorem roundTrips_c {cd ca cb gs m : Nat} (he : rosEncode i = some (encC op cd ca cb gs m)) (hop : op < 64)
    (hf : cd < 8 ∧ ca < 8 ∧ cb < 8 ∧ gs < 8 ∧ m < 32)
    (hd : decodeC t (encC op cd ca cb gs m).1 (encC op cd ca cb gs m).2 = some i) : RoundTrips i t := by
  obtain ⟨hcd, hca, hcb, hgs, hm⟩ := hf
  have h := encC_format (ca := ca) (cb := cb) (gs := gs) (m := m) hop hcd
  exact .of_two he (by omega) (by omega) (wordsOf_two (.inl h)) ((rosDecode_c _ _ h).trans hd)

end

/-- Settles O52: a case for every format, in which the fields of a word select the instruction and give its operands back. -/
theorem rospelEncodingRoundTrip : Obligations.RospelEncodingRoundTrip := by
  intro i t ht hwf
  change RoundTrips i t
  cases i with
  | ld | ldu | st | sts | add | addu | sub | andDp | orDp | xorDp | mul | mulh =>
    cases ht
    exact roundTrips_d rfl (by decide) (by simp [decodeD, encD_op, encD_da])
  | ldw | ldh | ldhu | ldb | ldbu | stw | sth | stb =>
    cases ht
    exact roundTrips_x rfl (by decide) (by simp [decodeX, encX_op, encX_x, encX_p, encX_d])
  | movg | mva | mvg | addg | subg | andg | org | xorg | ceq | cne | clt | cge | cltu | cgeu | par | brev | bswp | crcb | crcw
    | chanOpen | chanOpenw | recv | recvw | send | lock | unlock | mvau =>
    cases ht
    exact roundTrips_r rfl (by decide) (by omega) (by omega)
      (by simp (disch := omega) [decodeR, must, r8, encR_op, encR_a, encR_b, encR_p, encR_x])
  | crcm =>
    cases ht
    refine roundTrips_r rfl (by decide) (by omega) (by omega) ?_
    simp (disch := omega) [decodeR, r8, encR_op, encR_b, encR_p, encR_x, Fin.ext_iff]
    omega
  | chw _ word =>
    cases ht
    fin_cases word <;> exact roundTrips_r rfl (by decide) (by omega) (by omega) (by simp (disch := omega) [decodeR, r8, encR_op, encR_a, encR_b])
  | ldi | addi | andi =>
    cases ht
    exact roundTrips_il rfl (encI_format (by decide) (by omega)) (by unfold encI; omega) (by simp (disch := omega) [decodeIL, encI_zero, encI_op, encI_imm])
  | shf _ kind n =>
    cases ht
    have hn : n.toNat < 40 := of_decide_eq_true hwf
    have hmod : n.toNat % 64 = n.toNat := Nat.mod_eq_of_lt n.isLt
    refine roundTrips_il rfl (encI_format (by decide) (by omega)) (by unfold encI; omega) ?_
    simp (disch := omega) [decodeIL, must, encI_zero, encI_op, encI_type, encI_count, Fin.ext_iff, hmod, hn]
    omega
  | loop =>
    cases ht
    exact roundTrips_il rfl (by unfold nfld; omega) (by omega) (decodeIL_loop rfl)
  | loopi =>
    cases ht
    exact roundTrips_il rfl (by unfold nfld; omega) (by omega) (decodeIL_loopi rfl)
  | bz =>
    cases ht
    exact roundTrips_branch rfl (by unfold nfld; omega) (by omega) fun _ => decodeBWS_bz rfl
  | bnz =>
    cases ht
    exact roundTrips_branch rfl (by unfold nfld; omega) (by omega) fun _ => decodeBWS_bnz rfl
  | bra =>
    cases ht
    exact roundTrips_branch rfl (by unfold nfld; omega) (by omega) fun _ => decodeBWS_bra rfl
  | ldl | ldlh =>
    cases ht
    exact roundTrips_w rfl (by decide) (by omega) (by simp (disch := omega) [decodeW, encW_kind, encW_pay])
  | jmpf _ addr | callf _ addr =>
    cases ht
    exact roundTrips_w rfl (by decide) (by omega) (by simp (disch := omega) [decodeW, must, encW_kind, encW_pay, addr.isLt])
  | nop | synci | ret | reti | ei | di | tend | yield | relNext | relExit | relDrop | relRecirc | vwait | vpost | pmw | pmr | mfs | div | sqrt =>
    cases ht
    exact roundTrips_s rfl (by decide) (by omega) (by simp (disch := omega) [decodeS, must, r8, relCode, encS_op, encS_g])
  | mtx _ x | mfx _ x | adx _ x =>
    cases ht
    fin_cases x <;> exact roundTrips_s rfl (by decide) (by omega) (by simp (disch := omega) [decodeS, r8, encS_op, encS_g])
  | cmtr | cmti | cmfr | cmfi | cmov | ccvt | ccvtc | cfix | cadd | csub | cmul | cmac | cmsc | ccmul | ccmac | crmul | cscl | cconj | cdft | crot
    | cmag | carg | cdiv | cmin | cmax =>
    cases ht
    exact roundTrips_c rfl (by decide) (by omega)
      (by simp (disch := omega) [decodeC, must, r8, encC_op, encC_cd, encC_low, encC_ca, encC_cb, encC_gs, encC_m])
  | cfsq _ cd ca =>
    cases ht
    have h : cd.val < 6 ∧ ca.val < 6 := by simpa [rosWf] using hwf
    exact roundTrips_c rfl (by decide) (by omega)
      (by simp (disch := omega) [decodeC, must, r8, encC_op, encC_cd, encC_low, encC_ca, encC_cb, encC_gs, encC_m, h])
  | ccmpr _ _ _ _ m | ccmpi _ _ _ _ m | ccmpm _ _ _ _ m =>
    cases ht
    have h : m.toNat < 6 := of_decide_eq_true hwf
    exact roundTrips_c rfl (by decide) (by omega)
      (by simp (disch := omega) [decodeC, must, r8, encC_op, encC_cd, encC_low, encC_ca, encC_cb, encC_gs, encC_m, h])
  | _ => cases ht

end Sys2Proof.Machine
end

/-!
SUPPORT. What an instruction reads after its issue has been counted, and the completion of an instruction that sets one register or one word of the
direct page, by the operands that it reads (R200, R223, R228, R229, R233).
-/
section
namespace Sys2Proof.Machine
open State

-- One declaration after the other: the proofs would else hold a thread and its stack each.
set_option Elab.async false

/-! ## Reads after the issue -/

/-- The registers of a cluster that an issue writes are those of its counters and of its sampler. -/
theorem clusterReg_of_mem_issueRegs {k a : Nat} (h : a ∈ issueRegs k) : a < 0x100000 ∨ (0x800 ≤ a % 0x10000 ∧ a % 0x10000 < 0xE00) := by
  simp only [issueRegs, List.mem_append, List.mem_cons, List.not_mem_nil, or_false] at h
  rcases h with (h | h) | rfl | rfl | rfl | rfl | rfl
  · obtain ⟨i, hi, h⟩ := counterRegs_form _ _ _ h
    unfold Reg.CLU_PMU_CTR_CFG at h
    omega
  · obtain ⟨i, hi, h⟩ := counterRegs_form _ _ _ h
    unfold Reg.PMU_CTR_CFG at h
    omega
  · unfold Reg.CLU_PMU_SMP_WR; omega
  · unfold Reg.CLU_PMU_SMP_RD; omega
  · unfold Reg.CLU_PMU_SMP_DROP; omega
  · decide
  · decide

/-- A register of a cluster outside those of its counters and of its sampler is none that an issue writes. -/
theorem clusterReg_not_issued {a : Nat} (k : Nat) (hc : 0x100000 ≤ a) (ho : a % 0x10000 < 0x800 ∨ 0xE00 ≤ a % 0x10000) :
    regKey a ∉ (issueRegs k).map regKey := by
  intro hmem
  obtain ⟨b, hb, e⟩ := List.mem_map.1 hmem
  have := clusterReg_of_mem_issueRegs hb
  unfold regKey at e
  split at e <;> split at e <;> omega

theorem State.Near.reg_cluster {s u : State} {k a : Nat} (h : s.Near u k) (hc : 0x100000 ≤ a)
    (ho : a % 0x10000 < 0x800 ∨ 0xE00 ≤ a % 0x10000) : u.reg a = s.reg a := h.stay a (clusterReg_not_issued k hc ho)

section
variable (s : State) (t : ThreadId) (len : Nat)

theorem State.ctx_counted : ((s.counted t len).thr (tidNat t)).ctx = (s.thr (tidNat t)).ctx := State.countIssue_ctx ..

theorem State.accOf_counted : (s.counted t len).accOf (tidNat t) = s.accOf (tidNat t) := congrArg Ctx.acc (s.ctx_counted t len)

theorem State.accW_counted : (s.counted t len).accW (tidNat t) = s.accW (tidNat t) := congrArg (BitVec.setWidth 32) (s.accOf_counted t len)

theorem State.dpW_counted (da : BitVec 9) : (s.counted t len).dpW (tidNat t) da = s.dpW (tidNat t) da := by
  unfold State.dpW State.counted
  rw [s.countIssue_thr]

theorem State.crcParams_counted (p : Fin 4) : (s.counted t 1).crcParams (tidNat t) p = s.crcParams (tidNat t) p := by
  have cfg : (s.counted t 1).reg (Reg.CLU_CRC_CFG (tidNat t / 128) (tidNat t % 128 / 32)) =
      s.reg (Reg.CLU_CRC_CFG (tidNat t / 128) (tidNat t % 128 / 32)) :=
    (s.counted_near t).reg_cluster (by unfold Reg.CLU_CRC_CFG; omega) (by unfold Reg.CLU_CRC_CFG; omega)
  have poly : (s.counted t 1).reg (Reg.CLU_CRC_POLY (tidNat t / 128) (tidNat t % 128 / 32)) =
      s.reg (Reg.CLU_CRC_POLY (tidNat t / 128) (tidNat t % 128 / 32)) :=
    (s.counted_near t).reg_cluster (by unfold Reg.CLU_CRC_POLY; omega) (by unfold Reg.CLU_CRC_POLY; omega)
  unfold State.crcParams State.rb
  dsimp only
  rw [cfg, poly]

end

/-! ## Instructions that set one register -/

theorem State.updThr_quiet (x : State) (k : Nat) (f : Thread → Thread) : x.Quiet (x.updThr k f) := ⟨rfl, rfl, rfl⟩

theorem State.updCtx_quiet (x : State) (k : Nat) (f : Ctx → Ctx) : x.Quiet (x.updCtx k f) := ⟨rfl, rfl, rfl⟩

section
variable {s : State} {t : ThreadId} {i : Instr} {len : Nat} {ds : List Dest}

theorem State.runsTo_setAcc {v : State → Acc} {w : Ctx → Acc} (he : exec i s = s.simple t i len ds fun x => x.setAcc (tidNat t) (v x))
    (hv : v (s.counted t len) = w (s.thr (tidNat t)).ctx) : s.RunsTo t i ds (s.onCtx t len fun c => { c with acc := w c }) :=
  s.runsTo_ctx t i len ds _ _ (fun c => { c with acc := v (s.counted t len) }) he rfl (by rw [hv])

theorem State.runsTo_setG {ga : Fin 8} {v : State → Word} {w : Ctx → Word} (he : exec i s = s.simple t i len ds fun x => x.setG (tidNat t) ga (v x))
    (hv : v (s.counted t len) = w (s.thr (tidNat t)).ctx) : s.RunsTo t i ds (s.onCtx t len fun c => { c with g := c.g.set ga.val (w c) }) :=
  s.runsTo_ctx t i len ds _ _ (fun c => { c with g := c.g.set ga.val (v (s.counted t len)) }) he rfl (by rw [hv])

theorem State.runsTo_setIx0 {v : State → Word} {w : Ctx → Word} (he : exec i s = s.simple t i len ds fun y => y.setIx (tidNat t) 0 (v y))
    (hv : v (s.counted t len) = w (s.thr (tidNat t)).ctx) : s.RunsTo t i ds (s.onCtx t len fun c => { c with ix0 := w c }) :=
  s.runsTo_ctx t i len ds _ _ (fun c => { c with ix0 := v (s.counted t len) }) he rfl (by rw [hv])

theorem State.runsTo_setIx1 {v : State → Word} {w : Ctx → Word} (he : exec i s = s.simple t i len ds fun y => y.setIx (tidNat t) 1 (v y))
    (hv : v (s.counted t len) = w (s.thr (tidNat t)).ctx) : s.RunsTo t i ds (s.onCtx t len fun c => { c with ix1 := w c }) :=
  s.runsTo_ctx t i len ds _ _ (fun c => { c with ix1 := v (s.counted t len) }) he rfl (by rw [hv])

/-- An instruction that changes nothing but PC and loops. -/
theorem State.runsTo_unchanged {act : State → Eff} (he : exec i s = done s (s.issue t i len ds none act))
    (ha : act (s.counted t len) = .next (s.counted t len)) : s.RunsTo t i ds (s.onCtx t len id) :=
  s.runsTo_next t i len ds act _ (s.thr (tidNat t)).ctx (s.thr (tidNat t)).dp he ha (s.countIssue_near ..) (s.countIssue_thr ..)
    (s.countIssue_quiet _ _ _)

/-! ## By the operands that an instruction reads -/

/-- ACC from ACC and a word of the direct page. -/
theorem State.runsTo_acc_dp {da : BitVec 9} (f : Acc → Word → Acc)
    (he : exec i s = s.simple t i len ds fun x => x.setAcc (tidNat t) (f (x.accOf (tidNat t)) (x.dpW (tidNat t) da))) :
    s.RunsTo t i ds (s.onCtx t len fun c => { c with acc := f c.acc (s.dpW (tidNat t) da) }) :=
  runsTo_setAcc he (congrArg₂ f (s.accOf_counted t len) (s.dpW_counted t len da))

/-- ACC from ACC alone. -/
theorem State.runsTo_acc (f : Acc → Acc) (he : exec i s = s.simple t i len ds fun x => x.setAcc (tidNat t) (f (x.accOf (tidNat t)))) :
    s.RunsTo t i ds (s.onCtx t len fun c => { c with acc := f c.acc }) :=
  runsTo_setAcc he (congrArg f (s.accOf_counted t len))

/-- ACC from ACC and a G register, under a CRC selection (R237). -/
theorem State.runsTo_acc_g {gb : Fin 8} (p : Fin 4) (f : Nat × Nat × Bool → Acc → Word → Acc) (he : exec i s = s.simple t i 1 ds fun x =>
      x.setAcc (tidNat t) (f (x.crcParams (tidNat t) p) (x.accOf (tidNat t)) (x.gOf (tidNat t) gb))) :
    s.RunsTo t i ds (s.onCtx t 1 fun c => { c with acc := f (s.crcParams (tidNat t) p) c.acc c.g[gb] }) := by
  refine runsTo_setAcc he ?_
  rw [s.crcParams_counted, s.accOf_counted, s.gOf_counted]
  rfl

/-- A G register from ACC and two G registers. -/
theorem State.runsTo_g {ga gb : Fin 8} (f : Acc → Word → Word → Word)
    (he : exec i s = s.simple t i 1 ds fun x => x.setG (tidNat t) ga (f (x.accOf (tidNat t)) (x.gOf (tidNat t) ga) (x.gOf (tidNat t) gb))) :
    s.RunsTo t i ds (s.onCtx t 1 fun c => { c with g := c.g.set ga.val (f c.acc c.g[ga] c.g[gb]) }) := by
  refine runsTo_setG he ?_
  rw [s.accOf_counted, s.gOf_counted, s.gOf_counted]
  rfl

/-- A word of the direct page from ACC. -/
theorem State.runsTo_dp {da : BitVec 9} (f : Acc → Word) (he : exec i s = s.simple t i len ds fun x => x.setDp (tidNat t) da (f (x.accOf (tidNat t)))) :
    s.RunsTo t i ds (s.ran (tidNat t) ((s.thr (tidNat t)).ctx.advance len) ((s.thr (tidNat t)).dp.sd 0 da.toNat (f (s.accOf (tidNat t))))) := by
  refine s.runsTo_next t i len ds (fun x => .next (x.setDp (tidNat t) da (f (x.accOf (tidNat t))))) _ (s.thr (tidNat t)).ctx _ he rfl
    ((s.countIssue_near _ _ _).trans (State.updThr_near ..)) ?_ fun hc =>
    (s.countIssue_quiet _ _ _ hc).trans (State.updThr_quiet ..)
  rw [← State.counted, s.accOf_counted, State.setDp, State.thr_updThr, State.counted, s.countIssue_thr]

end

/-! ## The direct page (R239) -/

theorem sgn_toNat {n : Nat} (w : BitVec (n + 1)) : sgn (n + 1) w.toNat = w.toInt := by
  have hpow : 2 ^ (n + 1) = 2 * 2 ^ n := by rw [Nat.pow_succ, Nat.mul_comm]
  unfold sgn
  rw [Nat.mod_eq_of_lt w.isLt, BitVec.toInt_eq_toNat_cond, Nat.add_sub_cancel]
  split <;> split <;> omega

/-- The code of an integer in n bits. -/
theorem ofNat_usg (n : Nat) (z : Int) : BitVec.ofNat n (usg n z) = BitVec.ofInt n z := by
  unfold usg
  rw [← BitVec.toNat_ofInt, BitVec.ofNat_toNat, BitVec.setWidth_eq]

/-- The saturation of ACC to a signed word by the two bounds (R228). -/
theorem satWord_eq (a : Acc) :
    satWord a = if a.toInt < -(2 ^ 31) then 0x80000000#32 else if 2 ^ 31 - 1 < a.toInt then 0x7FFFFFFF#32 else a.setWidth 32 := by
  have hsat : satWord a =
      BitVec.ofInt 32 (if a.toInt < -(2 ^ 31) then -(2 ^ 31) else if 2 ^ 31 - 1 < a.toInt then 2 ^ 31 - 1 else a.toInt) := by
    unfold satWord wordOfInt
    rw [ofNat_usg, sgn_toNat]
    rfl
  rw [hsat]
  split
  · rfl
  · split
    · rfl
    · exact BitVec.signExtend_eq_setWidth_of_le a (by decide)

/-- Settles O1: each instruction by the operands that it reads. -/
theorem directPageInstructionsComplete : Obligations.DirectPageInstructionsComplete := by
  unfold Obligations.DirectPageInstructionsComplete
  refine ⟨fun s t da => ⟨?_, ?_, ?_, ?_, ?_, ?_, ?_, ?_⟩, fun s t da => ⟨?_, ?_, satWord_eq⟩⟩
  · exact runsTo_acc_dp (fun _ d => sext d) rfl
  · exact runsTo_acc_dp (fun _ d => zext d) rfl
  · exact runsTo_acc_dp (fun a d => a + sext d) rfl
  · exact runsTo_acc_dp (fun a d => a + zext d) rfl
  · exact runsTo_acc_dp (fun a d => a - sext d) rfl
  · exact runsTo_acc_dp (fun a d => classL (a.setWidth 32 &&& d)) rfl
  · exact runsTo_acc_dp (fun a d => classL (a.setWidth 32 ||| d)) rfl
  · exact runsTo_acc_dp (fun a d => classL (a.setWidth 32 ^^^ d)) rfl
  · exact runsTo_dp (fun a => a.setWidth 32) rfl
  · exact runsTo_dp satWord rfl

end Sys2Proof.Machine
end

/-!
SUPPORT. The instructions on ACC, the general and the index registers (R229, R237-R239): the value of each by the operands that it reads.
-/
section
namespace Sys2Proof.Machine
open State

-- One declaration after the other: the proofs would else hold a thread and its stack each.
set_option Elab.async false

/-! ## The value of a compare (R229) -/

theorem boolWord_eq_ite (b : Bool) : boolWord b = if b then 1#32 else 0#32 := rfl

theorem boolWord_beq (v w : Word) : boolWord (v == w) = if v = w then 1#32 else 0#32 := by simp [boolWord_eq_ite]

theorem boolWord_bne (v w : Word) : boolWord (v != w) = if v = w then 0#32 else 1#32 := by
  rw [boolWord_eq_ite, ← ite_not]
  simp

theorem boolWord_slt_sext (a : Acc) (w : Word) : boolWord (a.slt (sext w)) = if a.toInt < w.toInt then 1#32 else 0#32 := by
  simp [boolWord_eq_ite, BitVec.slt, sext, BitVec.toInt_signExtend_of_le]

theorem boolWord_not_slt_sext (a : Acc) (w : Word) : boolWord (!a.slt (sext w)) = if w.toInt ≤ a.toInt then 1#32 else 0#32 := by
  simp [boolWord_eq_ite, BitVec.slt, sext, BitVec.toInt_signExtend_of_le]

theorem boolWord_ult (v w : Word) : boolWord (v.ult w) = if v.toNat < w.toNat then 1#32 else 0#32 := by simp [boolWord_eq_ite, BitVec.ult]

theorem boolWord_not_ult (v w : Word) : boolWord (!v.ult w) = if w.toNat ≤ v.toNat then 1#32 else 0#32 := by simp [boolWord_eq_ite, BitVec.ult]

section
variable {s : State} {t : ThreadId} {i : Instr}

/-- A compare of ACC with Gb, whose value f is that of the condition v. -/
theorem State.runsTo_compare {ga gb : Fin 8} {f v : Acc → Word → Word} (hv : ∀ a w, f a w = v a w)
    (he : exec i s = s.simple t i 1 [.acc, .g ga, .g gb] fun x => x.setG (tidNat t) ga (f (x.accOf (tidNat t)) (x.gOf (tidNat t) gb))) :
    s.RunsTo t i [.acc, .g ga, .g gb] (s.onCtx t 1 fun c => { c with g := c.g.set ga.val (v c.acc c.g[gb]) }) := by
  obtain rfl : f = v := funext₂ hv
  exact runsTo_g (fun a _ w => f a w) he

end

/-- Settles O4: each instruction by the operands that it reads. -/
theorem registerInstructionsComplete : Obligations.RegisterInstructionsComplete := by
  unfold Obligations.RegisterInstructionsComplete
  refine ⟨fun s t ga gb => ⟨?_, ?_, ?_, ?_, ?_, ?_, ?_, ?_, ?_⟩, fun s t ga gb => ⟨?_, ?_, ?_, ?_, ?_, ?_⟩, fun s t ga gb p => ⟨?_, ?_, ?_, ?_, ?_⟩⟩
  · exact runsTo_g (fun _ _ w => w) rfl
  · exact runsTo_acc_g 0 (fun _ _ w => sext w) rfl
  · exact runsTo_acc_g 0 (fun _ _ w => zext w) rfl
  · exact runsTo_g (gb := ga) (fun a _ _ => a.setWidth 32) rfl
  · exact runsTo_g (fun _ v w => v + w) rfl
  · exact runsTo_g (fun _ v w => v - w) rfl
  · exact runsTo_g (fun _ v w => v &&& w) rfl
  · exact runsTo_g (fun _ v w => v ||| w) rfl
  · exact runsTo_g (fun _ v w => v ^^^ w) rfl
  · exact runsTo_compare (fun a w => boolWord_beq (a.setWidth 32) w) rfl
  · exact runsTo_compare (fun a w => boolWord_bne (a.setWidth 32) w) rfl
  · exact runsTo_compare boolWord_slt_sext rfl
  · exact runsTo_compare boolWord_not_slt_sext rfl
  · exact runsTo_compare (fun a w => boolWord_ult (a.setWidth 32) w) rfl
  · exact runsTo_compare (fun a w => boolWord_not_ult (a.setWidth 32) w) rfl
  · exact runsTo_g (fun _ _ w => boolWord (parity w)) rfl
  · exact runsTo_g (fun _ _ w => brevWord w) rfl
  · exact runsTo_g (fun _ _ w => bswpWord w) rfl
  · exact runsTo_acc_g p (fun ps a w => crcAcc ps a [w.setWidth 8]) rfl
  · exact runsTo_acc_g p (fun ps a w => crcAcc ps a (leBytes 4 w.toNat)) rfl

/-- Settles O5: each instruction by the operands that it reads. -/
theorem immediateAndIndexInstructionsComplete : Obligations.ImmediateAndIndexInstructionsComplete := by
  unfold Obligations.ImmediateAndIndexInstructionsComplete
  intro s t imm big n gs
  refine ⟨?_, ?_, ?_, ?_, ?_, ?_, ?_, ?_, ?_, ?_, ?_, ?_, ?_, ?_, ?_, ?_⟩
  · exact runsTo_acc (fun _ => sext imm) rfl
  · exact runsTo_acc (fun a => a + sext imm) rfl
  · exact runsTo_acc (fun a => classL (a.setWidth 32 &&& imm.setWidth 32)) rfl
  · exact runsTo_acc (fun a => shiftAcc a 0 n.toNat) rfl
  · exact runsTo_acc (fun a => shiftAcc a 1 n.toNat) rfl
  · exact runsTo_acc (fun a => shiftAcc a 2 n.toNat) rfl
  · exact runsTo_acc (fun a => shiftAcc a 3 n.toNat) rfl
  · exact runsTo_acc (fun _ => sext big) rfl
  · exact runsTo_acc (fun a => big ++ a.setWidth 20) rfl
  · exact runsTo_setIx0 rfl (s.gOf_counted t gs)
  · exact runsTo_setIx1 rfl (s.gOf_counted t gs)
  · exact runsTo_setG rfl (s.ixOf_counted t 0)
  · exact runsTo_setG rfl (s.ixOf_counted t 1)
  · exact runsTo_setIx0 rfl (congrArg₂ (· + ·) (s.ixOf_counted t 0) (s.gOf_counted t gs))
  · exact runsTo_setIx1 rfl (congrArg₂ (· + ·) (s.ixOf_counted t 1) (s.gOf_counted t gs))
  · exact runsTo_unchanged rfl rfl

end Sys2Proof.Machine
end

/-!
SUPPORT. Hardware loops and control transfers (R234-R236): the test at the end of a body, level by level, and where each transfer goes.
-/
section
namespace Sys2Proof.Machine
open State

-- One declaration after the other: the proofs would else hold a thread and its stack each.
set_option Elab.async false

/-! ## The levels of a context (R235) -/

/-- The innermost active level ends when its count is zero. -/
theorem Ctx.levels_end {c : Ctx} {n : Nat} (h : c.levels = n + 1) : ({ c with lc := setLoopReg c.lc n 0#16 } : Ctx).levels = n := by
  unfold Ctx.levels at *
  split at h
  · omega
  · split at h
    · obtain rfl : n = 0 := by omega
      simp [setLoopReg]
    · split at h
      · obtain rfl : n = 1 := by omega
        simp_all [setLoopReg]
      · split at h
        · obtain rfl : n = 2 := by omega
          simp_all [setLoopReg]
        · obtain rfl : n = 3 := by omega
          simp_all [setLoopReg]

/-! ## The test at the end of a body (R236) -/

section
variable {last next : BitVec 16} {n : Nat} {x : Ctx}

theorem Ctx.loopTest_elsewhere (h : loopReg x.le n ≠ last) : Ctx.loopTest last next (n + 1) x = { x with pc := next } := if_neg h

theorem Ctx.loopTest_again (h : loopReg x.le n = last) (hc : 1 < (loopReg x.lc n).toNat) :
    Ctx.loopTest last next (n + 1) x = { x with lc := setLoopReg x.lc n (loopReg x.lc n - 1), pc := loopReg x.ls n } :=
  (if_pos h).trans (if_pos hc)

theorem Ctx.loopTest_last (h : loopReg x.le n = last) (hc : loopReg x.lc n = 1#16) :
    Ctx.loopTest last next (n + 1) x = Ctx.loopTest last next n { x with lc := setLoopReg x.lc n 0#16 } :=
  (if_pos h).trans (if_neg (by rw [hc]; decide))

variable (last next) in
/-- The test changes PC and the counts alone. -/
theorem Ctx.loopTest_frame (n : Nat) (x : Ctx) (pc : BitVec 16) (lc : Vector (BitVec 16) 4) :
    ({ Ctx.loopTest last next n x with pc := pc, lc := lc } : Ctx) = { x with pc := pc, lc := lc } := by
  induction n generalizing x with
  | zero => rfl
  | succ n ih =>
    unfold Ctx.loopTest
    split
    · split
      · rfl
      · exact ih _
    · rfl

end

theorem Ctx.advance_of_levels {c : Ctx} {n len : Nat} (h : c.levels = n) :
    c.advance len = Ctx.loopTest (c.pc + BitVec.ofNat 16 len - 1) (c.pc + BitVec.ofNat 16 len) n c := by
  unfold Ctx.advance
  rw [h]

/-- Settles O7: the test of the innermost level by its end and its count. -/
theorem loopEndBehaviour : Obligations.LoopEndBehaviour := by
  unfold Obligations.LoopEndBehaviour
  refine fun c len => ⟨fun h => ?_, fun n h he => ?_, fun n h he hc => ?_, fun h he hc => ?_, fun n h he hc => ?_, ?_⟩
  · rw [Ctx.advance_of_levels h]; rfl
  · rw [Ctx.advance_of_levels h, Ctx.loopTest_elsewhere he]
  · rw [Ctx.advance_of_levels h, Ctx.loopTest_again he hc]
  · rw [Ctx.advance_of_levels h, Ctx.loopTest_last he hc]; rfl
  · rw [Ctx.advance_of_levels h, Ctx.loopTest_last he hc, Ctx.advance_of_levels (Ctx.levels_end h)]
  · exact Ctx.loopTest_frame ..

/-! ## The opening of a level (R235) -/

section
variable {s : State} {t : ThreadId} {i : Instr} {len : Nat} {ds : List Dest} {act : State → Eff}

/-- A transfer of control, whose effect is an update of the context: f as the instruction computes it, c as a statement says it. -/
theorem State.runsTo_transfer {f : Ctx → Ctx} {c : Ctx} (he : exec i s = done s (s.issue t i len ds none act))
    (ha : act (s.counted t len) = .jump ((s.counted t len).updCtx (tidNat t) f)) (hc : f (s.thr (tidNat t)).ctx = c) :
    s.RunsTo t i ds (s.ran (tidNat t) c (s.thr (tidNat t)).dp) := by
  refine s.runsTo_jump t i len ds act _ c _ he ha ((s.countIssue_near _ _ _).trans (State.updCtx_near ..)) ?_ fun h =>
    (s.countIssue_quiet _ _ _ h).trans (State.updCtx_quiet ..)
  rw [State.thr_updCtx, State.counted, s.countIssue_thr, ← hc]

/-- An instruction that falls through, whose effect is an update of the context. -/
theorem State.runsTo_fallThrough {f g : Ctx → Ctx} (he : exec i s = done s (s.issue t i len ds none act))
    (ha : act (s.counted t len) = .next ((s.counted t len).updCtx (tidNat t) f)) (hg : f (s.thr (tidNat t)).ctx = g (s.thr (tidNat t)).ctx) :
    s.RunsTo t i ds (s.onCtx t len g) := by
  refine s.runsTo_next t i len ds act _ _ _ he ha ((s.countIssue_near _ _ _).trans (State.updCtx_near ..)) ?_ fun h =>
    (s.countIssue_quiet _ _ _ h).trans (State.updCtx_quiet ..)
  rw [State.thr_updCtx, State.counted, s.countIssue_thr, ← hg]

variable {x : State} {k b : Nat} {count : BitVec 16}

theorem State.openLoop_opens (hl : (x.thr k).ctx.levels < 4) (hn : count ≠ 0#16) :
    x.openLoop k count b = .next (x.updCtx k fun c => { c with
      ls := setLoopReg c.ls (x.thr k).ctx.levels (c.pc + 1), le := setLoopReg c.le (x.thr k).ctx.levels (c.pc + BitVec.ofNat 16 b)
      lc := setLoopReg c.lc (x.thr k).ctx.levels count }) :=
  (if_neg hl.ne).trans (if_neg hn)

theorem State.openLoop_skips (hl : (x.thr k).ctx.levels < 4) :
    x.openLoop k 0#16 b = .jump (x.updCtx k fun c => { c with pc := c.pc + 1 + BitVec.ofNat 16 b }) :=
  (if_neg hl.ne).trans (if_pos rfl)

/-- A loop with a count that is not zero opens the next level. -/
theorem State.runsTo_openLoop (hl : (s.thr (tidNat t)).ctx.levels < 4) (hn : count ≠ 0#16)
    (he : exec i s = done s (s.issue t i 1 ds none act)) (ha : act (s.counted t 1) = (s.counted t 1).openLoop (tidNat t) count b) :
    s.RunsTo t i ds (s.onCtx t 1 fun c =>
      { c with ls := setLoopReg c.ls c.levels (c.pc + 1), le := setLoopReg c.le c.levels (c.pc + BitVec.ofNat 16 b)
               lc := setLoopReg c.lc c.levels count }) :=
  runsTo_fallThrough he (ha.trans (openLoop_opens (by rw [s.ctx_counted]; exact hl) hn)) (by rw [s.ctx_counted])

/-- A loop with a count of zero opens no level, and PC is past its body. -/
theorem State.runsTo_skipLoop (hl : (s.thr (tidNat t)).ctx.levels < 4) (he : exec i s = done s (s.issue t i 1 ds none act))
    (ha : act (s.counted t 1) = (s.counted t 1).openLoop (tidNat t) 0#16 b) :
    s.RunsTo t i ds (s.ran (tidNat t) { (s.thr (tidNat t)).ctx with pc := (s.thr (tidNat t)).ctx.pc + BitVec.ofNat 16 b + 1 }
      (s.thr (tidNat t)).dp) :=
  runsTo_transfer he (ha.trans (openLoop_skips (by rw [s.ctx_counted]; exact hl))) (by rw [add_right_comm])

/-- CALLF saves the address of the instruction after it. -/
theorem State.runsTo_callf (s : State) (t : ThreadId) (addr : BitVec 16) :
    s.RunsTo t (.callf t addr) [.g 7] (s.ran (tidNat t) { (s.thr (tidNat t)).ctx with
      g := (s.thr (tidNat t)).ctx.g.set 7 (((s.thr (tidNat t)).ctx.pc + 2).setWidth 32), pc := addr } (s.thr (tidNat t)).dp) := by
  refine s.runsTo_jump t _ 2 _ _ _ _ _ rfl rfl ?_ ?_ ?_
  · exact (s.countIssue_near _ _ _).trans (State.updCtx_near ..) |>.trans (State.updCtx_near ..)
  · rw [State.thr_updCtx, State.setG, State.thr_updCtx, BitVec.ofNat_toNat, s.countIssue_thr]
    rfl
  · exact fun h => (s.countIssue_quiet _ _ _ h).trans (State.updCtx_quiet ..) |>.trans (State.updCtx_quiet ..)

end

/-- The count of LOOPI is one more than its field of five bits (R235). -/
theorem loopiCount_ne_zero (n : Fin 32) : BitVec.ofNat 16 (n.val + 1) ≠ 0#16 := fun h => by
  have := congrArg BitVec.toNat h
  rw [BitVec.toNat_ofNat, Nat.mod_eq_of_lt (by omega)] at this
  exact absurd this (Nat.succ_ne_zero _)

/-- Settles O6: each transfer by its target, each loop by its count. -/
theorem controlTransfersAndLoopsComplete : Obligations.ControlTransfersAndLoopsComplete := by
  unfold Obligations.ControlTransfersAndLoopsComplete
  refine ⟨fun s t gs r6 r9 addr => ⟨fun h => ?_, fun h => ?_, fun h => ?_, fun h => ?_, ?_, ?_, ?_, ?_, ?_, rfl⟩,
    fun s t gs b1 n1 b2 hl => ?_⟩
  · exact runsTo_transfer rfl (if_pos ((s.gOf_counted t gs).trans h)) (by rw [s.ctx_counted]; rfl)
  · exact runsTo_unchanged rfl (if_neg ((s.gOf_counted t gs).trans_ne h))
  · exact runsTo_transfer rfl (if_neg ((s.gOf_counted t gs).trans_ne h)) (by rw [s.ctx_counted]; rfl)
  · exact runsTo_unchanged rfl (if_pos ((s.gOf_counted t gs).trans h))
  · exact runsTo_transfer rfl rfl (by rw [s.ctx_counted]; rfl)
  · exact runsTo_transfer rfl rfl rfl
  · exact runsTo_callf s t addr
  · exact runsTo_transfer rfl rfl rfl
  · exact runsTo_transfer rfl rfl rfl
  · have count : (s.counted t 1).openLoop (tidNat t) (((s.counted t 1).gOf (tidNat t) gs).setWidth 16) (b1.val + 1) =
        (s.counted t 1).openLoop (tidNat t) ((s.gOf (tidNat t) gs).setWidth 16) (b1.val + 1) := by rw [s.gOf_counted]
    refine ⟨fun h => runsTo_openLoop hl h rfl count, fun h => ?_, runsTo_openLoop hl (loopiCount_ne_zero n1) rfl rfl⟩
    have zero : (s.gOf (tidNat t) gs).setWidth 16 = 0#16 := h
    exact runsTo_skipLoop hl rfl (zero ▸ count)

end Sys2Proof.Machine
end

/-!
SUPPORT. What the divide and root unit and the bit instructions compute (R238, R239): quotients and roots by their bounds, words bit by bit and byte by
byte.
-/
section
namespace Sys2Proof.Machine

-- One declaration after the other: the proofs would else hold a thread and its stack each.
set_option Elab.async false

/-! ## DIV -/

theorem wordInt_eq_toInt (w : Word) : wordInt w = w.toInt := sgn_toNat w

/-- A quotient is in the range of the accumulator but for the one of its least value by -1. -/
theorem tdiv_in_range {x y : Int} (hx : -(2 ^ 39) ≤ x ∧ x < 2 ^ 39) (hxy : ¬(x = -(2 ^ 39) ∧ y = -1)) :
    -(2 ^ 39) ≤ x.tdiv y ∧ x.tdiv y < 2 ^ 39 := by
  have habs : (x.tdiv y).natAbs = x.natAbs / y.natAbs := Int.natAbs_tdiv x y
  have hle : x.natAbs / y.natAbs ≤ x.natAbs := Nat.div_le_self ..
  refine ⟨by omega, lt_of_not_ge fun hge => ?_⟩
  have hone : y.natAbs = 1 := by
    rcases Nat.lt_trichotomy y.natAbs 1 with h | h | h
    · rw [show y.natAbs = 0 by omega, Nat.div_zero] at habs
      omega
    · exact h
    · have := Nat.div_le_div_left (c := 2) (a := x.natAbs) h (by decide)
      omega
  obtain rfl | rfl : y = 1 ∨ y = -1 := by omega
  · rw [Int.tdiv_one] at hge
    omega
  · exact hxy ⟨by omega, rfl⟩

theorem divAcc_toInt {a : Acc} {b : Word} (hb : b ≠ 0) (hab : ¬(a.toInt = -(2 ^ 39) ∧ b.toInt = -1)) :
    (divAcc a b).toInt = a.toInt.tdiv b.toInt := by
  have hzero : b.toInt ≠ 0 := fun h => hb (BitVec.toInt_inj.1 h)
  have hrange := tdiv_in_range (y := b.toInt) ⟨BitVec.le_toInt a, BitVec.toInt_lt⟩ hab
  unfold divAcc
  dsimp only
  rw [sgn_toNat, wordInt_eq_toInt, if_neg hzero, if_neg (by exact_mod_cast hab), ofNat_usg]
  exact BitVec.toInt_ofInt_eq_self (by decide) hrange.1 hrange.2

/-- The greatest and the least value of the accumulator. -/
theorem accMax_toInt : (BitVec.ofNat 40 (2 ^ 39 - 1)).toInt = 2 ^ 39 - 1 := by decide
theorem accMin_toInt : (BitVec.ofNat 40 (2 ^ 39)).toInt = -(2 ^ 39) := by decide

theorem divAcc_zero_toInt (a : Acc) : (divAcc a 0).toInt = if 0 ≤ a.toInt then 2 ^ 39 - 1 else -(2 ^ 39) := by
  unfold divAcc
  dsimp only
  rw [sgn_toNat, wordInt_eq_toInt, if_pos (show (0 : Word).toInt = 0 from BitVec.toInt_zero)]
  split
  · exact accMax_toInt
  · exact accMin_toInt

/-! ## SQRT -/

/-- After i of n steps the root lies less than 2^(n - i) above the value found. -/
theorem natSqrt_steps {n v : Nat} (hv : v < 2 ^ n * 2 ^ n) (i : Nat) (hi : i ≤ n) :
    let r := (List.range i).foldl (fun r i => let c := r + 2 ^ (n - 1 - i); if c * c ≤ v then c else r) 0
    r * r ≤ v ∧ v < (r + 2 ^ (n - i)) * (r + 2 ^ (n - i)) := by
  induction i with
  | zero => simpa using hv
  | succ i ih =>
    obtain ⟨hle, hlt⟩ := ih (by omega)
    have hpow : 2 ^ (n - i) = 2 ^ (n - (i + 1)) + 2 ^ (n - (i + 1)) := by
      rw [show n - i = n - (i + 1) + 1 by omega, Nat.pow_succ, Nat.mul_two]
    rw [List.range_succ, List.foldl_append]
    dsimp only [List.foldl_cons, List.foldl_nil] at hle hlt ⊢
    generalize List.foldl _ 0 (List.range i) = r at *
    rw [show n - 1 - i = n - (i + 1) by omega]
    split
    · next h => exact ⟨h, by rwa [Nat.add_assoc, ← hpow]⟩
    · next h => exact ⟨hle, Nat.lt_of_not_le h⟩

theorem natSqrt_spec {n v : Nat} (hv : v < 2 ^ n * 2 ^ n) : natSqrt n v * natSqrt n v ≤ v ∧ v < (natSqrt n v + 1) * (natSqrt n v + 1) := by
  have := natSqrt_steps hv n (Nat.le_refl n)
  rwa [Nat.sub_self] at this

theorem sqrtAcc_toNat (w : Word) : (sqrtAcc w).toNat = natSqrt 16 w.toNat := by
  have h := (natSqrt_spec (n := 16) (v := w.toNat) (by have := w.isLt; omega)).1
  have : natSqrt 16 w.toNat < 2 ^ 16 := Nat.lt_of_not_le fun hge => by
    have := Nat.mul_le_mul hge hge
    have := w.isLt
    omega
  rw [sqrtAcc, BitVec.toNat_ofNat, Nat.mod_eq_of_lt (this.trans (by decide))]

/-! ## BREV, BSWP and PAR (R238) -/

theorem bitrev_succ (n v : Nat) : bitrev (n + 1) v = 2 * bitrev n v + v / 2 ^ n % 2 := by
  unfold bitrev
  rw [List.range_succ, List.foldl_append]
  rfl

theorem bitrev_testBit (n v i : Nat) : (bitrev n v).testBit i = (decide (i < n) && v.testBit (n - 1 - i)) := by
  induction n generalizing i with
  | zero => simp [bitrev]
  | succ n ih =>
    rw [bitrev_succ]
    cases i with
    | zero => simp [Nat.testBit_eq_decide_div_mod_eq, Nat.add_mod]
    | succ i =>
      rw [Nat.testBit_succ, show (2 * bitrev n v + v / 2 ^ n % 2) / 2 = bitrev n v by omega, ih, show n - 1 - i = n + 1 - 1 - (i + 1) by omega]
      simp

theorem brevWord_getLsbD (w : Word) {i : Nat} (hi : i < 32) : (brevWord w).getLsbD i = w.getLsbD (31 - i) := by
  rw [brevWord, BitVec.getLsbD_ofNat, bitrev_testBit]
  simp [hi, BitVec.getLsbD]

theorem leNat_div_mod (bs : List Byte) (i : Nat) : leNat bs / 256 ^ i % 256 = (byteAt bs i).toNat := by
  induction bs generalizing i with
  | nil => simp [leNat, byteAt]
  | cons b bs ih =>
    cases i with
    | zero => simp [leNat, byteAt]; omega
    | succ i =>
      rw [leNat, Nat.pow_succ', ← Nat.div_div_eq_div_mul, show (b.toNat + 256 * leNat bs) / 256 = leNat bs by omega, ih]
      rfl

/-- A byte of a word that is given by its bytes. -/
theorem extractLsb'_of_leNat {w : Word} {bs : List Byte} (h : w.toNat = leNat bs) (i : Nat) : w.extractLsb' (8 * i) 8 = byteAt bs i := by
  apply BitVec.eq_of_toNat_eq
  rw [BitVec.extractLsb'_toNat, h, Nat.shiftRight_eq_div_pow, Nat.pow_mul]
  exact leNat_div_mod bs i

theorem bswpWord_byte (w : Word) {i : Nat} (hi : i < 4) : (bswpWord w).extractLsb' (8 * i) 8 = w.extractLsb' (8 * (3 - i)) 8 := by
  obtain ⟨b0, b1, b2, b3, h⟩ : ∃ b0 b1 b2 b3 : Byte, leBytes 4 w.toNat = [b0, b1, b2, b3] := ⟨_, _, _, _, rfl⟩
  have hw : w.toNat = leNat [b0, b1, b2, b3] := by rw [← h, leNat_leBytes_word]
  have hs : (bswpWord w).toNat = leNat [b3, b2, b1, b0] := by
    rw [bswpWord, h, BitVec.toNat_ofNat]
    refine Nat.mod_eq_of_lt ?_
    simp only [beNat, List.reverse_cons, List.reverse_nil, List.nil_append, List.cons_append, leNat]
    omega
  rw [extractLsb'_of_leNat hs, extractLsb'_of_leNat hw]
  interval_cases i <;> rfl

/-- The parity of the number of elements that meet a condition is the exclusive or of the condition over them. -/
theorem foldl_xor_eq_parity (p : Nat → Bool) (l : List Nat) (b : Bool) :
    l.foldl (fun b i => b ^^ p i) b = (b ^^ ((l.filter p).length % 2 == 1)) := by
  induction l generalizing b with
  | nil => simp
  | cons i l ih =>
    rw [List.foldl_cons, ih]
    cases h : p i
    · simp [h]
    · simp [h, Nat.add_mod]
      rcases Nat.mod_two_eq_zero_or_one (l.filter p).length with h2 | h2 <;> simp [h2]

theorem parity_eq (w : Word) : parity w = (List.range 32).foldl (fun b i => b ^^ w.getLsbD i) false := by
  have bits : (fun i => w.toNat / 2 ^ i % 2 == 1) = w.getLsbD := by
    funext i
    rw [BitVec.getLsbD, Nat.testBit_eq_decide_div_mod_eq]
    rfl
  rw [foldl_xor_eq_parity, Bool.false_xor, parity, setBits, bits]

/-- Settles O3: each value by its bounds or by its bits. -/
theorem computedValues : Obligations.ComputedValues := by
  unfold Obligations.ComputedValues
  refine ⟨⟨fun _ _ => divAcc_toInt, divAcc_zero_toInt, accMax_toInt, fun w => ?_⟩, fun w _ => brevWord_getLsbD w, fun w _ => bswpWord_byte w, parity_eq⟩
  rw [sqrtAcc_toNat]
  exact natSqrt_spec (by have := w.isLt; omega)

end Sys2Proof.Machine
end

/-!
SUPPORT. Results beside the pipe (R200, R201, R224): the divide and root unit of a core as an instruction finds it after its issue has been counted, and
the writing of a pending result.
-/
section
namespace Sys2Proof.Machine
open State

-- One declaration after the other: the proofs would else hold a thread and its stack each.
set_option Elab.async false

/-! ## The threads that a store of threads lists -/

theorem SMap.mem_of_mem_del {α : Type} {m : SMap α} {k : Nat} {p : Nat × α} (h : p ∈ SMap.del m k) : p ∈ m := by
  induction m with
  | nil => exact h
  | cons q m ih =>
    unfold SMap.del at h
    split at h
    · exact List.mem_cons_of_mem _ (ih h)
    · exact (List.mem_cons.1 h).elim (fun e => e ▸ List.mem_cons_self ..) fun h => List.mem_cons_of_mem _ (ih h)

theorem SMap.mem_of_mem_ins {α : Type} {m : SMap α} {k : Nat} {v : α} {p : Nat × α} (h : p ∈ SMap.ins m k v) : p = (k, v) ∨ p ∈ m := by
  induction m with
  | nil => exact .inl (List.mem_singleton.1 h)
  | cons q m ih =>
    unfold SMap.ins at h
    split at h
    · exact (List.mem_cons.1 h).imp_right (List.mem_cons_of_mem _)
    · split at h
      · exact List.mem_cons.1 h
      · rcases List.mem_cons.1 h with rfl | h
        · exact .inr (List.mem_cons_self ..)
        · exact (ih h).imp_right (List.mem_cons_of_mem _)

theorem SMap.mem_of_mem_sd {α : Type} [DecidableEq α] {d : α} {m : SMap α} {k : Nat} {v : α} {p : Nat × α} (h : p ∈ SMap.sd d m k v) :
    p = (k, v) ∨ p ∈ m := by
  unfold SMap.sd SMap.set at h
  split at h
  · exact .inr (mem_of_mem_del h)
  · exact mem_of_mem_ins h

/-- What a store reads at a key is listed, or it is what an unlisted key reads as. -/
theorem SMap.gd_mem_or {α : Type} (d : α) (m : SMap α) (k : Nat) : (k, m.gd d k) ∈ m ∨ m.gd d k = d := by
  induction m with
  | nil => exact .inr rfl
  | cons q m ih =>
    obtain ⟨a, v⟩ := q
    by_cases h : a = k
    · exact .inl (by rw [SMap.gd, SMap.get, if_pos h, h]; exact List.mem_cons_self ..)
    · rw [SMap.gd, SMap.get, if_neg h]
      exact ih.imp_left (List.mem_cons_of_mem _)

/-! ## The divide and root unit after the issue (R200) -/

section
variable (s : State) (t : ThreadId)

theorem State.clu_counted : (s.counted t 1).clu = (s.updThr (tidNat t) fun th => { th with bpSkip := false, slots := th.slots + 1 }).clu := by
  unfold State.counted State.countIssue
  have e : ∀ x : State, x.clu = s.clu → ∀ f, (x.updThr (tidNat t) f).clu = (s.updThr (tidNat t) f).clu := fun x hx f => by
    unfold State.updThr State.setThr State.thr
    rw [hx]
  refine e _ ?_ _
  rw [State.sampleIssue_clu, (State.pmuCore_regsOnly ..).fields.1, (State.pmuCore_regsOnly ..).fields.1]

/-- A thread that is listed after the issue is the one that issued, or it was listed before. -/
theorem State.mem_thr_counted {p : Nat × Thread} (h : p ∈ (s.counted t 1).clu.thr) :
    p = (tidNat t, (s.counted t 1).thr (tidNat t)) ∨ p ∈ s.clu.thr := by
  rw [s.clu_counted] at h
  rw [s.counted_thr]
  exact SMap.mem_of_mem_sd h

theorem State.divBusy_counted (h : s.divBusy (tidNat t) = false) : (s.counted t 1).divBusy (tidNat t) = false := by
  unfold State.divBusy at *
  rw [List.any_eq_false] at *
  intro p hp
  rcases s.mem_thr_counted t hp with rfl | hp
  · rw [s.counted_thr]
    rcases SMap.gd_mem_or {} s.clu.thr (tidNat t) with hm | hd
    · exact h (tidNat t, s.thr (tidNat t)) hm
    · have : (s.thr (tidNat t)).pend = [] := congrArg Thread.pend hd
      simp [this]
  · exact h p hp

variable {s t}

theorem State.Near.supCause {u : State} {k : Nat} (h : s.Near u k) (c : Nat) : u.supCause c = s.supCause c := by
  have hpend : ∀ e < 320, u.rb (Reg.CLU_EVT_PEND c (e / 32)) (e % 32) = s.rb (Reg.CLU_EVT_PEND c (e / 32)) (e % 32) := fun e he => by
    unfold State.rb
    rw [h.reg_cluster (by unfold Reg.CLU_EVT_PEND; omega) (by unfold Reg.CLU_EVT_PEND; omega)]
  have hevent : u.supEvent c = s.supEvent c :=
    congrArg Option.isSome (List.find?_congr fun e he => hpend e (List.mem_range.1 he))
  have hfltq : u.fltq c = s.fltq c := by rw [h.same]; rfl
  have hdlq : u.dlq c = s.dlq c := by rw [h.same]; rfl
  have hesc : u.dlEscPending c = s.dlEscPending c := by rw [h.same]; rfl
  unfold State.supCause
  rw [hevent, hfltq, hdlq, hesc]

theorem State.supTakes_counted (c : Nat) : (s.counted t 1).supTakes c = s.supTakes c := by
  unfold State.supTakes
  rw [(s.counted_near t).supCause]
  by_cases h : 128 * c = tidNat t
  · rw [h, s.counted_thr]
  · rw [(s.counted_near t).other _ h]

/-- Whether another thread can issue does not depend on an issue. -/
theorem State.canIssue_counted {j : Nat} (hj : j ≠ tidNat t) : (s.counted t 1).canIssue j = s.canIssue j := by
  have hn := s.counted_near t
  have hbp : ∀ b < 4, (s.counted t 1).bpMatches j b = s.bpMatches j b := fun b hb => by
    unfold State.bpMatches State.rf
    rw [hn.other j hj, hn.reg_cluster (a := Reg.CLU_DBG_BP ..) (by unfold Reg.CLU_DBG_BP; omega) (by unfold Reg.CLU_DBG_BP; omega),
      hn.reg_cluster (a := Reg.CLU_DBG_BP_THR ..) (by unfold Reg.CLU_DBG_BP_THR; omega) (by unfold Reg.CLU_DBG_BP_THR; omega)]
  have hhit : (s.counted t 1).bpHit j = s.bpHit j := by
    unfold State.bpHit
    rw [hn.other j hj, List.find?_congr fun b hb => hbp b (List.mem_range.1 hb)]
  unfold State.canIssue
  rw [hn.other j hj, hhit, State.supTakes_counted]

theorem State.unitSince_counted (j : Nat) : (s.counted t 1).unitSince j = s.unitSince j := by
  have hup : (s.counted t 1).up = s.up := by rw [(s.counted_near t).same]
  unfold State.unitSince
  rw [hup]
  by_cases h : j = tidNat t
  · rw [h, s.counted_thr]
  · rw [(s.counted_near t).other j h]

theorem State.unitTaken_counted (h : s.unitTaken (tidNat t) = false) : (s.counted t 1).unitTaken (tidNat t) = false := by
  unfold State.unitTaken at *
  rw [List.any_eq_false] at *
  intro p hp
  by_cases hj : p.1 = tidNat t
  · simp [hj]
  · rw [s.unitSince_counted, s.unitSince_counted, State.canIssue_counted hj]
    rcases s.mem_thr_counted t hp with rfl | hp
    · exact absurd rfl hj
    · exact h p hp

end

/-! ## Instructions with their result beside the pipe -/

section
variable {s : State} {t : ThreadId} {i : Instr} {ds : List Dest} {act : State → Eff} {p : PendResult}

/-- An instruction whose effect is one result beside the pipe. -/
theorem State.runsTo_pendRes (he : exec i s = done s (s.issue t i 1 ds none act)) (hp : p.smp = false)
    (ha : act (s.counted t 1) = .next ((s.counted t 1).pendRes (tidNat t) p)) : s.RunsToPend t i ds (s.onCtx t 1 id) p := by
  refine s.runsTo_pend t i 1 ds act _ (s.thr (tidNat t)).ctx (s.thr (tidNat t)).dp p he ha ((s.counted_near t).trans (State.updThr_near ..)) hp ?_
    fun h => (s.countIssue_quiet _ _ _ h).trans (State.updThr_quiet ..)
  rw [State.pendRes, State.thr_updThr, s.counted_thr]

/-- DIV and SQRT with the unit free. -/
theorem State.runsTo_divUnit {v : Acc} (hbusy : s.divBusy (tidNat t) = false) (hfirst : s.unitTaken (tidNat t) = false)
    (he : exec i s = done s (s.issue t i 1 ds none act)) (ha : act (s.counted t 1) = (s.counted t 1).divUnit (tidNat t) v) :
    s.RunsToPend t i ds (s.onCtx t 1 id) { dest := .acc, val := v, busyUnit := true } := by
  refine runsTo_pendRes he rfl (ha.trans (if_neg ?_))
  rw [s.divBusy_counted t hbusy, State.unitTaken_counted hfirst]
  decide

end

theorem mulAcc_eq (a b : Word) : mulAcc a b = BitVec.ofInt 40 (a.toInt * b.toInt) := by
  rw [mulAcc, ofNat_usg, wordInt_eq_toInt, wordInt_eq_toInt]

theorem mulhAcc_eq (a b : Word) : mulhAcc a b = BitVec.ofInt 40 (a.toInt * b.toInt / 2 ^ 31) := by
  rw [mulhAcc, ofNat_usg, wordInt_eq_toInt, wordInt_eq_toInt]
  rfl

/-! ## A pending result is written (R200) -/

/-- The oldest result for its destination, ready and without an error, leaves the list and is written. -/
theorem resultWriteback_of_ready {s : State} {t : ThreadId} {i : Nat} {p : PendResult} (hi : (s.thr (tidNat t)).pend[i]? = some p)
    (hready : p.ready = true) (hecc : p.ecc = false) (hsmp : p.smp = false) (hfirst : ∀ q ∈ (s.thr (tidNat t)).pend.take i, q.dest ≠ p.dest) :
    exec (.resultWriteback t i) s =
      .next ((s.updThr (tidNat t) fun th => { th with pend := th.pend.eraseIdx i }).updCtx (tidNat t) fun c => c.put p.dest p.val) := by
  have hany : ((s.thr (tidNat t)).pend.take i).any (fun q => q.dest == p.dest) = false := by
    rw [List.any_eq_false]
    exact fun q hq => by simpa using hfirst q hq
  show execResultWriteback t i s = _
  unfold execResultWriteback done
  simp only [hi, hready, hecc, hsmp, hany, Bool.not_true, Bool.or_false, Bool.false_eq_true, if_false]
  exact congrArg Host.Outcome.next (State.closed_of_out s _ rfl)

/-- Settles O2: each instruction by its result, and a pending result by its place in the list. -/
theorem resultsBesideThePipeComplete : Obligations.ResultsBesideThePipeComplete := by
  unfold Obligations.ResultsBesideThePipeComplete
  refine ⟨fun s t da gs => ⟨?_, ?_, fun hbusy hfirst => ⟨?_, ?_⟩⟩, fun s t i p => ?_⟩
  · refine runsTo_pendRes rfl rfl ?_
    rw [← mulAcc_eq, ← s.accW_counted t 1, ← s.dpW_counted t 1]
    rfl
  · refine runsTo_pendRes rfl rfl ?_
    rw [← mulhAcc_eq, ← s.accW_counted t 1, ← s.dpW_counted t 1]
    rfl
  · exact runsTo_divUnit hbusy hfirst rfl (by rw [← s.accOf_counted t 1, ← s.gOf_counted t])
  · exact runsTo_divUnit hbusy hfirst rfl (by rw [← s.accW_counted t 1])
  · intro k hi hready hecc hsmp hfirst
    refine ⟨_, resultWriteback_of_ready hi hready hecc hsmp hfirst, ?_, fun j hj => ?_, (updThr_areas ..).andThen (updCtx_areas ..)⟩
    · rw [State.thr_updCtx, State.thr_updThr]
    · exact (State.thr_updThr_ne _ _ _ _ hj).trans (State.thr_updThr_ne _ _ _ _ hj)

end Sys2Proof.Machine
end

/-!
SUPPORT. PMW in the tick of a commit (R242): a state in which the count of the issue itself decides whether the write is discarded.
-/
section
namespace Sys2Proof.Machine
open State

-- One declaration after the other: the proofs would else hold a thread and its stack each.
set_option Elab.async false

/-! ## A commit that retires a number that is no tile -/

/-- Thread 1 of core 0 of cluster 0. -/
def pmwThread : ThreadId := ⟨0, 0, 1⟩

/-- PMW G0 of that thread. -/
def pmwInstr : Instr := .pmw pmwThread 0

/-- The registers: region 0 of tile 0 is 0x0000-0x00FF and its write region 0x0080-0x00FF; counter 0 of core 0 counts instructions and stands one
below 2^24. -/
def pmwRegs : List (Nat × Word) :=
  [(Reg.CLU_PMEM_RGN 0 0 0, 0x00FF0000#32), (Reg.CLU_PMEM_RGN 0 0 2, 0x00000001#32), (Reg.CLU_PMEM_RGN 0 0 3, 0x00FF0080#32),
    (Reg.CLU_PMU_CTR_CFG 0 0 0, 0x80FF0001#32), (Reg.CLU_PMU_CTR_LO 0 0 0, 0x00FFFFFF#32)]

/-- The number whose CFG_TILE is at the offset of the low word of that counter. It is no tile. -/
def retiredNumber : Nat := (Reg.CLU_PMU_CTR_LO 0 0 0 - Reg.CFG_TILE 0) / 4

/-- A commit is due that retires this number, and the thread, at level K, is about to issue PMW to word 0x80 of tile 0. -/
def pmwState : State :=
  let s := pmwRegs.foldl (fun x p => x.setReg p.1 p.2) State.reset
  { s with cfg := { s.cfg with retires := [retiredNumber] }, ind := { s.ind with commit := some ⟨.elapsed 0, 0, false⟩ } }.updThr 1 fun th =>
    { th with st := .ready, priv := .k, ctx := { th.ctx with ix0 := 0x80 }
              fetched := (rosEncode pmwInstr).map fun w : Nat × Nat => (BitVec.ofNat 14 w.1, BitVec.ofNat 14 w.2) }

/-- The premises of the statement hold: PMW issues, within its write region, and the spare that the commit would write is tile 0. -/
theorem pmwState_meets : pmwState.issues pmwThread pmwInstr [.g 0, .ix 0] = true ∧ (pmwState.thr 1).priv ≠ .u ∧
    pmwState.pmwOk 1 (pmwState.ixOf 1 0) = true ∧ pmwState.pmwLost (pmTile 1 (pmwState.ixOf 1 0)) = true := by decide +kernel

/-- The issue counts itself, the spare is no longer tile 0, and nothing is discarded. -/
theorem pmwState_writes : (after (exec pmwInstr pmwState) pmwState).reg (Reg.CLU_PMW_DISCARD 0) = 0#32 := by decide +kernel

/-- The discard that the statement claims. -/
theorem pmwState_discards :
    (((pmwState.counted pmwThread 1).inc (Reg.CLU_PMW_DISCARD 0)).fellThrough pmwThread 1).reg (Reg.CLU_PMW_DISCARD 0) = 1#32 := by decide +kernel

/-- Refutes O11: in pmwState the commit of the tick writes tile 0 before the issue of PMW has been counted, and not after; PMW writes its word, where
the statement has it discarded. -/
theorem not_crcProgramMemoryAndSpecialRegistersComplete : ¬ Obligations.CrcProgramMemoryAndSpecialRegistersComplete := by
  unfold Obligations.CrcProgramMemoryAndSpecialRegistersComplete
  intro h
  obtain ⟨issues, priv, ok, lost⟩ := pmwState_meets
  obtain ⟨-, discarded, -⟩ := h.1 pmwState pmwThread 0 0 0 0
  obtain ⟨u, hexec, hends⟩ := discarded priv ok lost issues
  obtain ⟨-, -, -, -, -, hregs, -⟩ := hends
  have hu : u.reg (Reg.CLU_PMW_DISCARD 0) = 0#32 := (congrArg (fun o => (after o pmwState).reg (Reg.CLU_PMW_DISCARD 0)) hexec).symm.trans pmwState_writes
  have hx := hregs (Reg.CLU_PMW_DISCARD 0) (clusterReg_not_issued _ (by decide) (by decide))
  exact absurd (hu.symm.trans (hx.trans pmwState_discards)) (by decide)

end Sys2Proof.Machine
end

/-!
SUPPORT. Loads and stores (R216, R224, R233, R286): what follows from what the access answers, the accesses to the SRAM of the own cluster and the bytes
that each half takes, and a store that becomes visible.
-/
section
namespace Sys2Proof.Machine
open State

-- One declaration after the other: the proofs would else hold a thread and its stack each.
set_option Elab.async false

/-! ## From the access to the instruction (R233) -/

section
variable {s : State} {t : ThreadId} {i : Instr} {x : Fin 2} {p : Bool} {d6 : BitVec 6} {size : Nat}

/-- A load whose access answers bytes. -/
theorem State.runsAs_load {ext : Nat → Acc} {bs : List Byte} {ecc : Bool} {z : State} {v : Acc} (he : exec i s = s.loadOp t i x p d6 size ext)
    (hv : ext (leNat bs) = v)
    (hload : ((s.counted t 1).setIx (tidNat t) x (effAddr (s.ixOf (tidNat t) x) p d6 size).2).loadAt t
      (effAddr (s.ixOf (tidNat t) x) p d6 size).1.toNat size = .bytes bs ecc z) :
    s.RunsAs t i [.acc, .ix x] ((z.pendRes (tidNat t)
      { dest := .acc, val := v, ecc := ecc, addr := (effAddr (s.ixOf (tidNat t) x) p d6 size).1, pc := (s.thr (tidNat t)).ctx.pc
        iw := (s.nextWords (tidNat t)).1 }).fellThrough t 1) := by
  refine State.runsAs_next s t _ 1 _ _ _ he ?_
  dsimp only
  rw [s.ixOf_counted, hload]
  dsimp only
  rw [hv]

/-- A store whose access is done. -/
theorem State.runsAs_store {z : State} (he : exec i s = s.storeOp t i x p d6 size)
    (hstore : ((s.counted t 1).setIx (tidNat t) x (effAddr (s.ixOf (tidNat t) x) p d6 size).2).storeAt t
      (effAddr (s.ixOf (tidNat t) x) p d6 size).1.toNat (leBytes size (s.accW (tidNat t)).toNat) = .done z) :
    s.RunsAs t i [.acc, .ix x] (z.fellThrough t 1) := by
  refine State.runsAs_next s t _ 1 _ _ _ he ?_
  dsimp only
  rw [s.ixOf_counted, s.accW_counted, hstore]

end

/-- The low bits of a number, extended by their sign. -/
theorem sextN_eq_signExtend (n v : Nat) : sextN (n + 1) v = (BitVec.ofNat (n + 1) v).signExtend 40 := by
  have hsgn : sgn (n + 1) v = (BitVec.ofNat (n + 1) v).toInt := by
    rw [← sgn_toNat, BitVec.toNat_ofNat]
    unfold sgn
    rw [Nat.mod_mod]
  rw [sextN, ofNat_usg, hsgn, BitVec.signExtend]

/-! ## The halves of an access (R216) -/

section
variable {a n : Nat}

theorem mem_halves (hn : 1 ≤ n) {h : Nat × Nat} (hh : h ∈ halves a n) : a ≤ h.1 ∧ 1 ≤ h.2 ∧ h.1 + h.2 ≤ a + n := by
  unfold halves at hh
  split at hh
  · obtain rfl := List.mem_singleton.1 hh
    exact ⟨Nat.le_refl a, hn, Nat.le_refl _⟩
  · simp only [List.mem_cons, List.not_mem_nil, or_false] at hh
    rcases hh with rfl | rfl <;> dsimp only <;> omega

theorem sum_halves (a n : Nat) : ((halves a n).map (·.2)).sum = n := by
  unfold halves
  split
  · rfl
  · simp only [List.map_cons, List.map_nil, List.sum_cons, List.sum_nil]
    omega

/-- The bytes of the halves are those of the access, in order. -/
theorem flatMap_halves {α : Type} (f : Nat → α) (a n : Nat) :
    ((halves a n).flatMap fun h => (List.range h.2).map fun i => f (h.1 + i)) = (List.range n).map fun i => f (a + i) := by
  unfold halves
  split
  · exact List.append_nil _
  · next h =>
    obtain ⟨m, hm⟩ : ∃ m, n = 8 - a % 8 + m := ⟨n - (8 - a % 8), by omega⟩
    have hlen : a % 8 + n - 8 = m := by omega
    rw [hlen, hm, List.range_add]
    simp [Function.comp_def, Nat.add_assoc]

/-! ## The SRAM of the own cluster -/

/-- The accesses of thread k to n bytes at an address of its own window. -/
def ownParts (k a n : Nat) : List SramPart := (halves a n).map fun h => ⟨k / 128, h.1, h.2, false⟩

theorem windowOf_own {k : Nat} (h : a < 0x200000) : windowOf k a = .sram (k / 128) a false := if_pos h

theorem sramParts_own {k : Nat} (hn : 1 ≤ n) (ha : a + n ≤ 0x200000) : sramParts k a n = some (ownParts k a n) := by
  have own : ∀ h ∈ halves a n, windowOf k h.1 = .sram (k / 128) h.1 false := fun h hh => by
    obtain ⟨-, hlen, hend⟩ := mem_halves hn hh
    exact windowOf_own (by omega)
  unfold sramParts ownParts
  revert own
  induction halves a n with
  | nil => exact fun _ => rfl
  | cons h hs ih =>
    intro own
    rw [List.mapM_cons, own h (List.mem_cons_self ..), ih fun g hg => own g (List.mem_cons_of_mem _ hg)]
    rfl

theorem State.partsOk_own (z : State) (k a n : Nat) (write : Bool) :
    z.partsOk k write (ownParts k a n) = (halves a n).all fun h => z.sramOk k (k / 128) h.1 h.2 false write := by
  unfold State.partsOk ownParts
  rw [List.all_map]
  rfl

theorem State.partBad_own {z : State} {k : Nat} (hn : 1 ≤ n) (hbad : ((List.range n).any fun i => z.sramByteBad k (k / 128) (a + i)) = false) :
    ∀ q ∈ ownParts k a n, z.partBad k q = false := by
  intro q hq
  obtain ⟨h, hh, rfl⟩ := List.mem_map.1 hq
  obtain ⟨hlow, -, hend⟩ := mem_halves hn hh
  simp only [State.partBad, List.any_eq_false, List.mem_range] at hbad ⊢
  intro i hi
  have := hbad (h.1 - a + i) (by omega)
  rwa [show a + (h.1 - a + i) = h.1 + i by omega] at this

theorem State.loadAt_own {z : State} {t : ThreadId} (ha : a < 0x200000) : z.loadAt t a n = z.loadSram (tidNat t) a n := by
  unfold State.loadAt
  dsimp only
  rw [windowOf_own ha]

theorem State.storeAt_own {z : State} {t : ThreadId} {bs : List Byte} (ha : a < 0x200000) : z.storeAt t a bs = z.storeSram (tidNat t) a bs := by
  unfold State.storeAt
  dsimp only
  rw [windowOf_own ha]

/-- A load of bytes that are good, within granted regions. -/
theorem State.loadSram_own {z : State} {k : Nat} (hn : 1 ≤ n) (ha : a + n ≤ 0x200000)
    (hok : ((halves a n).all fun h => z.sramOk k (k / 128) h.1 h.2 false false) = true)
    (hbad : ((List.range n).any fun i => z.sramByteBad k (k / 128) (a + i)) = false) :
    ∃ w, z.loadSram k a n = .bytes ((List.range n).map fun i => z.sramByte k (k / 128) (a + i)) false w := by
  have hany : (ownParts k a n).any (z.partBad k) = false :=
    List.any_eq_false.2 fun q hq => Bool.eq_false_iff.1 (State.partBad_own hn hbad q hq)
  unfold State.loadSram
  rw [sramParts_own hn ha]
  dsimp only
  rw [if_pos ((z.partsOk_own ..).trans hok), hany, ← flatMap_halves, ownParts, List.flatMap_map]
  exact ⟨_, rfl⟩

/-! ## The store buffer (R286) -/

theorem flatMap_partStores (bs : List Byte) (ps : List SramPart) : (partStores bs ps).flatMap (·.bytes) = bs.take (ps.map (·.len)).sum := by
  induction ps generalizing bs with
  | nil => rfl
  | cons q ps ih => rw [partStores, List.flatMap_cons, ih, List.map_cons, List.sum_cons, List.take_add]

theorem mem_partStores {bs : List Byte} {ps : List SramPart} {b : BufStore} (h : b ∈ partStores bs ps) :
    ∃ q ∈ ps, b.cl = q.cl ∧ b.addr = q.addr ∧ b.bytes.length ≤ q.len := by
  induction ps generalizing bs with
  | nil => cases h
  | cons q ps ih =>
    rcases List.mem_cons.1 h with rfl | h
    · exact ⟨q, List.mem_cons_self .., rfl, rfl, List.length_take_le ..⟩
    · obtain ⟨r, hr, hb⟩ := ih h
      exact ⟨r, List.mem_cons_of_mem _ hr, hb⟩

theorem flatMap_partStores_own (k a : Nat) (bs : List Byte) : (partStores bs (ownParts k a bs.length)).flatMap (·.bytes) = bs := by
  rw [flatMap_partStores, ownParts, List.map_map]
  exact (congrArg (List.take · bs) (sum_halves a bs.length)).trans List.take_length

theorem mem_partStores_own {k : Nat} {bs : List Byte} (hn : 1 ≤ bs.length) {b : BufStore} (hb : b ∈ partStores bs (ownParts k a bs.length)) :
    b.cl = k / 128 ∧ a ≤ b.addr ∧ b.addr + b.bytes.length ≤ a + bs.length := by
  obtain ⟨q, hq, hcl, haddr, hlen⟩ := mem_partStores hb
  obtain ⟨h, hh, rfl⟩ := List.mem_map.1 hq
  obtain ⟨hlow, -, hend⟩ := mem_halves hn hh
  dsimp only at hcl haddr hlen
  exact ⟨hcl, by omega, by omega⟩

theorem State.OnlyChanges.clu {s u : State} {l : List Area} (h : s.OnlyChanges u l) (hl : .clu ∉ l := by decide) : u.clu = s.clu := h.2 .clu hl

/-- A store within granted regions, with room in the buffer, enters its parts there. -/
theorem State.storeSram_own {z : State} {k : Nat} {bs : List Byte} (hn : 1 ≤ bs.length) (ha : a + bs.length ≤ 0x200000)
    (hok : ((halves a bs.length).all fun h => z.sramOk k (k / 128) h.1 h.2 false true) = true)
    (hroom : (z.thr k).sb.length + (halves a bs.length).length ≤ 4) :
    ∃ y : State, y.clu = z.clu ∧
      z.storeSram k a bs = .done (y.updThr k fun th => { th with sb := th.sb ++ partStores bs (ownParts k a bs.length) }) := by
  refine ⟨_, (countAccess_areas z k a bs.length false (ownParts k a bs.length)).clu, ?_⟩
  unfold State.storeSram
  rw [sramParts_own hn ha]
  dsimp only
  rw [z.partsOk_own, hok, ownParts, List.length_map]
  exact (if_neg (by decide)).trans (if_neg (Nat.not_lt.2 hroom))

end

/-! ## A store becomes visible (R286) -/

/-- One byte of a store's buffer entry in its place. -/
def State.writeByte (b : BufStore) (x : State) (i : Nat) : State :=
  { x with clu := { x.clu with
      sram := x.clu.sram.sd 0 (2097152 * b.cl + b.addr + i) (byteAt b.bytes i)
      sramBad := x.clu.sramBad.sd false (262144 * b.cl + (b.addr + i) / 8) false } }

theorem State.sramWrite_eq_foldl (s : State) (b : BufStore) : s.sramWrite b = (List.range b.bytes.length).foldl (State.writeByte b) s := rfl

theorem State.sram_foldl_writeByte (s : State) (b : BufStore) (n a : Nat) :
    ((List.range n).foldl (State.writeByte b) s).clu.sram.gd 0 a =
      if 2097152 * b.cl + b.addr ≤ a ∧ a < 2097152 * b.cl + b.addr + n then byteAt b.bytes (a - (2097152 * b.cl + b.addr))
      else s.clu.sram.gd 0 a := by
  induction n with
  | zero => exact (if_neg (by omega)).symm
  | succ n ih =>
    rw [List.range_succ, List.foldl_append]
    show (((List.range n).foldl (State.writeByte b) s).clu.sram.sd 0 (2097152 * b.cl + b.addr + n) (byteAt b.bytes n)).gd 0 a = _
    by_cases h : a = 2097152 * b.cl + b.addr + n
    · rw [h, SMap.gd_sd_same, if_pos (by omega), Nat.add_sub_cancel_left]
    · rw [SMap.gd_sd_ne _ _ _ _ _ h, ih]
      exact if_congr (by omega) rfl rfl

/-- The bytes of a store in their places, and no other byte. -/
theorem State.sram_sramWrite (s : State) (b : BufStore) (a : Nat) :
    (s.sramWrite b).clu.sram.gd 0 a =
      if 2097152 * b.cl + b.addr ≤ a ∧ a < 2097152 * b.cl + b.addr + b.bytes.length then byteAt b.bytes (a - (2097152 * b.cl + b.addr))
      else s.clu.sram.gd 0 a := s.sram_foldl_writeByte b _ a

theorem storeVisible_of_oldest {s : State} {t : ThreadId} {b : BufStore} {rest : List BufStore} (h : (s.thr (tidNat t)).sb = b :: rest) :
    exec (.storeVisible t) s = .next ((s.sramWrite b).updThr (tidNat t) fun th => { th with sb := rest }) := by
  show execStoreVisible t s = _
  unfold execStoreVisible done
  simp only [h]
  exact congrArg Host.Outcome.next (State.closed_of_out s _ (sramWrite_areas s b).out)

/-- Settles O9: each instruction by what its access answers, the accesses to the own cluster's SRAM by their halves, and a store that becomes visible by
its bytes. -/
theorem loadsAndStoresComplete : Obligations.LoadsAndStoresComplete := by
  unfold Obligations.LoadsAndStoresComplete
  refine ⟨fun s t x p d6 => ⟨fun bs ecc z h => ?_, fun bs ecc z h => ⟨?_, ?_⟩, fun bs ecc z h => ⟨?_, ?_⟩, fun z a n hn _ ha hok hbad => ?_⟩,
    fun s t x p d6 => ⟨fun z => runsAs_store rfl, fun z => runsAs_store rfl, fun z => runsAs_store rfl, fun z a bs hn _ ha hok hroom => ?_,
      fun b rest hsb => ?_⟩⟩
  · exact runsAs_load rfl (sextN_eq_signExtend 31 _) h
  · exact runsAs_load rfl (sextN_eq_signExtend 15 _) h
  · exact runsAs_load rfl rfl h
  · exact runsAs_load rfl (sextN_eq_signExtend 7 _) h
  · exact runsAs_load rfl rfl h
  · obtain ⟨w, hload⟩ := State.loadSram_own hn ha hok hbad
    exact ⟨w, (State.loadAt_own (by omega)).trans hload, (loadSram_areas ..).of_bytes hload⟩
  · obtain ⟨y, hclu, hstore⟩ := State.storeSram_own hn ha hok hroom
    have hthr : y.thr (tidNat t) = z.thr (tidNat t) := by unfold State.thr; rw [hclu]
    have hsram : y.clu.sram = z.clu.sram := by rw [hclu]
    refine ⟨_, (State.storeAt_own (by omega)).trans hstore, hsram, ?_, ?_⟩
    · rw [State.thr_updThr, hthr]
    · rw [State.thr_updThr, hthr, List.drop_left]
      exact ⟨flatMap_partStores_own .., fun b => mem_partStores_own hn⟩
  · refine ⟨_, storeVisible_of_oldest hsb, ?_, (sramWrite_areas s b).andThen (updThr_areas ..), fun i hi => ?_, fun a ha => ?_⟩
    · rw [State.thr_updThr]
    · refine (s.sram_sramWrite b _).trans ((if_pos (by omega)).trans ?_)
      rw [Nat.add_sub_cancel_left]
    · exact (s.sram_sramWrite b a).trans (if_neg (by omega))

end Sys2Proof.Machine
end
